-- ==== Sys2Proof/Word.lean ====
section
/-! DEFINITION. The plain words of the model: register words, bytes, byte strings, and the sorted
key-value lists that hold sparse state. -/

namespace Sys2Proof

/-- A 32-bit register word (R11). -/
abbrev Word := BitVec 32

/-- One byte of memory. -/
abbrev Byte := BitVec 8

/-- A 64-bit scalar (R179). -/
abbrev DWord := BitVec 64

/-- A byte string, lowest address first (R11: little-endian). -/
abbrev Bytes := List Byte

/-- Sparse state by number: keys strictly rising, no entry that an absent key stands for anyway. -/
abbrev Store (α : Type) := List (Nat × α)

end Sys2Proof
end

