-- ==== Sys2Proof/Syntax.lean ====
section
/-! DEFINITION. The commands of the block: one constructor of `Instr` for each row of spec/opcode_table.json,
with the row's operands, and the plain records that those operands are made of. -/

namespace Sys2Proof

/-- A requester of the register map (R21). -/
inductive Req where
  | portA | portB | eszoja
deriving DecidableEq, Repr

/-- A host port (R27). -/
inductive HPort where
  | a | b
deriving DecidableEq, Repr

/-- A fingering slot (R110). -/
inductive FSlot where
  | a | b
deriving DecidableEq, Repr

/-- A logical cascade coordinate (R423). -/
structure Coord where
  x : Nat
  y : Nat
  z : Nat
deriving DecidableEq, Repr

/-- A plan unit: class and index of Table 2.25. -/
structure UnitId where
  cls : Nat
  idx : Nat
deriving DecidableEq, Repr

/-- Who sends a request into BAR2: the port's host or a peer behind the same switch (R489). -/
inductive BusSource where
  | host | peer
deriving DecidableEq, Repr

/-- A read or write of a byte range; a write may arrive poisoned or malformed (R461). -/
inductive Access where
  | read (off len : Nat)
  | write (off : Nat) (data : Bytes) (poisoned : Bool)
deriving DecidableEq, Repr

/-- Which of the four mailbox and report address pairs a LO write takes into use (R126, R491). -/
inductive AddrPair where
  | mailbox (p : HPort)
  | report (p : HPort)
deriving DecidableEq, Repr

/-- A Tlararel frame: the header of Table 10.1, its payload and its CRC-32C trailer (R412). -/
structure Frame where
  typ : Nat
  vl : Nat
  flags : Nat
  len : Nat
  dest : Coord
  src : Coord
  lseq : Nat
  dseq : Nat
  cascade : Nat
  taddr : Nat
  payload : Bytes
  crc : Word
deriving DecidableEq, Repr

/-- A control message (Table 10.6). LOST 0xFFFF_FFFF is `none`. -/
structure CtlMsg where
  kind : Nat
  flags : Nat
  stretch : Nat
  value : Nat
  coord : Coord
  beat : Nat
  offset : Int
  margin : Int
  planPos : Nat
  issuer : Nat
  lost : Option Coord
deriving DecidableEq, Repr

/-- A mirror frame: the header of Table 7.2 and its data. -/
structure MirrorFrame where
  kind : Nat
  takeover : Bool
  shard : Nat
  object : Nat
  offset : Nat
  stamp : Nat
  seq : Nat
  payload : Bytes
deriving DecidableEq, Repr

/-- An IDENT frame's content (R419). KIND: 1 cascade device, 2 intake source, 3 adopting device. -/
structure Ident where
  coord : Coord
  port : Nat
  cascade : Nat
  kind : Nat
deriving DecidableEq, Repr

/-- A sample record: the header of Table 9.1 and its payload (R376). -/
structure SampleRec where
  length : Nat
  kind : Nat
  stream : Nat
  refetch : Bool
  coord : Coord
  crc : Word
  sampleId : Nat
  srcSeq : Nat
  payload : Bytes
deriving DecidableEq, Repr

/-- A die parameter block (R38). TYPE: 1 compute, 2 hub, 3 pile base (Table 1.19). -/
structure ParamBlock where
  dieType : Nat
  stepping : Nat
  caps : Word
  serial : Nat
deriving DecidableEq, Repr

/-- A die's block at its hub: hub, d of R69, and the block. -/
structure DieBlock where
  hub : Nat
  die : Nat
  block : ParamBlock
deriving DecidableEq, Repr

/-- What the lane test of a module found at start-up: failed lanes, or no training at all (R37, R46, R52). -/
structure ModTest where
  hub : Nat
  module : Nat
  trained : Bool
  failed : List Nat
deriving DecidableEq, Repr

/-- The physical facts of the part that start-up meets: the dies in the package, the parameter blocks that
have arrived, module lane tests, self-test outcomes, comb presence, straps and the PLLs' lock (log 44). -/
structure Package where
  dies : List (Nat × Nat)
  blocks : List DieBlock
  modules : List ModTest
  noComb : List Nat
  failedCores : List Nat
  /-- the arrays whose self-test failed, by physical core (Table 3.17) -/
  failedArrays : List (Nat × Nat)
  hubTestFails : Bool
  eszTestFails : Bool
  pllFails : Option Nat
  maddr : Nat
  testMode : Bool
  /-- PKG_REV fuses (R568) -/
  pkgRev : Nat
  /-- key-pair hashes of the vendor entries as the fuses came from manufacture (R568) -/
  vendorKeys : List Bytes
  /-- the two firmware copies of the boot flash as it came from manufacture (R575) -/
  flash : List Bytes
  /-- the stored DeviceID certificate carries the device's public key (R585) -/
  certOk : Bool
deriving DecidableEq, Repr

/-- A hardware error that a unit detects while it works (R361, R366, R173, Table 3.14, Table 6.11, Table 9.10,
Table 11.11, Table 1.9, Table 5.11). -/
inductive HwErr where
  /-- corrected core-local SRAM word -/
  | sramCe
  /-- uncorrectable core-local SRAM word outside the WGA banks, at this core-local address -/
  | sramUe (off : Nat)
  /-- stationary-register parity -/
  | weightParity
  /-- sum-path or drain parity -/
  | sumParity
  /-- vector register-file parity -/
  | vectorParity
  /-- SFU table parity -/
  | sfuParity
  /-- committed WGA tile unreadable in core SRAM, at this byte of the tile -/
  | wgaSramUe (tile off : Nat)
  /-- committed WGA tile of a logical core unreadable in the comb shadow -/
  | wgaCombUe (core tile : Nat)
  /-- non-committed WGA bank of a tile unreadable, at this byte of the tile -/
  | wgaWorkUe (tile off : Nat)
  /-- lane parity, staging parity or staging uncorrectable of an update engine -/
  | updLane
  /-- copy-engine parity or uncorrectable buffer -/
  | ceBuffer
  /-- forager staging, queue or trie read uncorrectable -/
  | foragerUe
  /-- watch delta buffer -/
  | watchBuffer
  /-- hub buffer parity or uncorrectable -/
  | hubBuffer (hub : Nat)
  /-- comb word corrected -/
  | combCe (die : Nat)
  /-- comb word uncorrectable in a home or window buffer, at this comb offset -/
  | combUe (die off : Nat)
  /-- a codeword of a pile read with these die errors (die, byte of the share, error value) -/
  | codeword (pile cw : Nat) (errs : List (Nat × Nat × Nat))
  /-- the DRAM interface of a pile fails -/
  | dramFail (pile : Nat)
  /-- eDRAM word corrected -/
  | edramCe (pile : Nat)
  /-- eDRAM line uncorrectable (line number is local offset div 256) -/
  | edramUe (pile line : Nat)
  /-- remote-cache line uncorrectable in this die -/
  | rdcUe (die line : Nat)
  /-- a super-tier access failed -/
  | superFail
  /-- a committed watch entry could not be read -/
  | watchEntryUe
  /-- a retained input could not be read back -/
  | retainedLost
deriving DecidableEq, Repr

/-- A host port's negotiated link and the configuration its host selects (R454, R456, R464, R482, R497) (log 99). -/
structure PortLink where
  width : Nat
  speed : Nat
  flit : Bool
  cxlOffered : Bool
  bar2Log2 : Nat
  maxPayload : Nat
  maxRead : Nat
  msixOn : Bool
deriving DecidableEq, Repr

/-- Ways a host port is reset (R496). -/
inductive PortResetKind where
  | linkDown | hotReset | perst | flr
deriving DecidableEq, Repr

/-- Causes of a link port going down (R443). -/
inductive PortDownCause where
  | fecLock | uncorrectable | retryEnd | narrowed | clockLost
deriving DecidableEq, Repr

/-- Outcome of a link-port training (R418): the lanes in use, or a failure. -/
inductive TrainResult where
  | active (lanes : List Bool) (ident : Ident) (roundTrips : List (Nat × Nat))
  | failed
deriving DecidableEq, Repr

/-- One reading of every temperature sensor: a junction temperature for each of the 22 dies, `none` for no
valid reading, and the hottest DRAM die of each pile (R513). -/
structure Temps where
  dies : List (Option Nat)
  dram : List Nat
deriving DecidableEq, Repr

/-- One power sample (R509): the averages and the energy since the last sample in mJ. -/
structure PowerSample where
  p10 : Nat
  p1m : Nat
  energy : Nat
deriving DecidableEq, Repr

/-- SPDM endpoints and management-message endpoints (R586, R590). -/
inductive MgmtEp where
  | portA | portB | bus
deriving DecidableEq, Repr

/-- A test access (R582): a TAP instruction class or an IEEE 1687 instrument access. -/
inductive TapOp where
  | bypass | idcode | samplePreload | extest | scan
  | instrument (unit : UnitId) | instrumentOther | eszojaDebug
deriving DecidableEq, Repr

/-- The end of a read request (R464, R482). -/
inductive CompletionKind where
  | data (off : Nat) (bytes : Bytes)
  | error
  | poisoned
deriving DecidableEq, Repr

/-- An access to device memory and the errors that it meets there. -/
structure MetAccess where
  acc : Access
  errs : List HwErr
deriving DecidableEq, Repr

/-- A frame that a link port receives. -/
structure Arrival where
  port : Nat
  frame : Frame
deriving DecidableEq, Repr

/-- A frame that a link port receives and that may go on, after this many ns in the device. -/
structure Relayed where
  port : Nat
  frame : Frame
  residence : Nat
deriving DecidableEq, Repr

/-- An acknowledgement of a stage M, from the twin or from the pile itself, and the errors that the engine meets before its next
stage (R264, R266). -/
structure StageAck where
  fromTwin : Bool
  errs : List HwErr
deriving DecidableEq, Repr

/-- A turn of a forager lane, and whether it ends the sample before the slot's budget ends (R373). -/
structure LaneTurn where
  lane : Nat
  ends : Bool
deriving DecidableEq, Repr

/-- A planned burst of a pile and its instant (R359). -/
structure Burst where
  pile : Nat
  t : Nat
deriving DecidableEq, Repr

/-- The outcome of a core's self-test, and the arrays that failed it (R556). -/
structure TestEnd where
  pass : Bool
  arrays : List Nat
deriving DecidableEq, Repr

/-- The commands of the block. Each constructor is one row of spec/opcode_table.json; `t` is the instant of a
timed event in ns of the beat timebase (R70), `l` a logical core (log 3). -/
inductive Instr where
  | registerWrite (r : Req) (off : Nat) (v : Word)
  | rcRead (r : Req) (off : Nat)
  | loRead (r : Req) (off : Nat) (two : Bool)
  | bar0UnsupportedRequest (r : Req) (off : Nat) (isWrite : Bool)
  | bar2Access (p : HPort) (src : BusSource) (x : MetAccess)
  | cxlMemAccess (p : HPort) (x : MetAccess)
  | load (slot : FSlot)
  | verifyDone (slot : FSlot)
  | evict (slot : FSlot)
  | start (slot : FSlot) (t : Nat)
  | stop
  | marginRst
  | mailboxAddrValid (pair : AddrPair) (v : Word)
  | rdcEn (hub : Nat) (en : Bool)
  | invAll (hub : Nat)
  | chunkRst (pile : Nat)
  | cacheClr
  | train (q : Nat)
  | marginNow (q : Nat) (margins : List Nat)
  | retire (coord : Coord)
  | ctrl (via : Req) (target : HPort)
  | biasApply
  | biasFlipComplete (page : Nat)
  | holdReq
  | pwrCapWrite (r : Req) (v : Word)
  | devReset (v : Word) (flushed : Nat)
  | testCtlWrite (v : Word)
  | getNonce
  | signedRequest
  | provisionKey
  | revokeKey
  | advanceFing
  | blockVendorDebug
  | debugL1
  | debugL2
  | debugLock
  | fwUpdate
  | mailboxRead (t : Nat)
  | mailboxReadComplete (page : Option Bytes)
  | nop
  | switch
  | mailboxStop
  | args
  | marker (t : Nat)
  | gapStart (t : Nat)
  | gapEntry (t : Nat)
  | beatReport (t : Nat)
  | verdict (x : Relayed) (t : Nat)
  | commit (t : Nat)
  | commitSkip (t : Nat)
  | replay (t : Nat)
  | verdictLate (t : Nat)
  | masterLost (t : Nat)
  | backupAssumesMastership (t : Nat)
  | slotStart (u : UnitId) (t : Nat)
  | slotEnd (u : UnitId) (t : Nat) (errs : List HwErr)
  | slotHung (u : UnitId) (t : Nat)
  | markerIssue (t : Nat)
  | report (x : Arrival) (t : Nat)
  | memberLostTimeout (member : Nat) (t : Nat)
  | join (x : Arrival) (t : Nat)
  | joinTimeout (t : Nat)
  | sync (t : Nat)
  | beatInEdge (t : Nat)
  | syncResult (x : Arrival) (t : Nat)
  | standaloneFirstMarker (t : Nat)
  | admitDevice (x : Arrival) (t : Nat)
  | ready (x : Arrival) (t : Nat)
  | resume (t : Nat)
  | dataFrame (q : Nat) (f : Frame)
  | reduceFrame (q : Nat) (f : Frame)
  | ack (q : Nat) (f : Frame)
  | nak (q : Nat) (f : Frame)
  | credit (q : Nat) (f : Frame)
  | ident (q : Nat) (f : Frame)
  | probe (x : Arrival) (roundTrip : Nat)
  | idleTimer (q : Nat)
  | ackTimer (q : Nat)
  | creditReturn (q : Nat)
  | linkTrainingDone (q : Nat) (r : TrainResult)
  | latencyRemeasure (q : Nat) (roundTrips : List (Nat × Nat))
  | laneMarginMeasure (q : Nat) (lane : Nat) (margin : Nat)
  | laneDrop (q : Nat) (lane : Nat)
  | portDown (q : Nat) (cause : PortDownCause)
  | partnerLost (t : Nat)
  | send (q : Nat)
  | mcast (q : Nat)
  | reduce (q : Nat)
  | plain (x : Arrival)
  | stageM (x : Arrival)
  | stageW (x : Arrival)
  | fence (x : Arrival)
  | copy (x : Arrival)
  | updateOp (n : Nat) (t : Nat) (errs : List HwErr)
  | stageMAck (n : Nat) (x : StageAck)
  | updSelftestDone (n : Nat) (pass : Bool)
  | scheduleSlot (t : Nat)
  | move (m : Nat) (superData : Option Bytes)
  | fetch (m : Nat) (superData : Option Bytes)
  | holdSpaceFreed (pile : Nat)
  | homingComplete (tensor : Nat) (data : Bytes)
  | h2d (e : Nat)
  | d2h (e : Nat)
  | notify (e : Nat)
  | readCompletion (e : Nat) (c : CompletionKind)
  | flushingReadComplete (run : Nat)
  | completionTimeout (e : Nat)
  | endOfSequence (l arr : Nat)
  | real (l arr : Nat) (errs : List HwErr)
  | complex (l arr : Nat) (errs : List HwErr)
  | fp32x6 (l arr : Nat) (errs : List HwErr)
  | vadd (l : Nat)
  | vsub (l : Nat)
  | vmul (l : Nat)
  | vfma (l : Nat)
  | vneg (l : Nat)
  | vabs (l : Nat)
  | vmax (l : Nat)
  | vmin (l : Nat)
  | vcmp (l : Nat)
  | vsel (l : Nat)
  | vcvt (l : Nat)
  | vamax (l : Nat)
  | vscale (l : Nat)
  | vrsum (l : Nat)
  | vrmax (l : Nat)
  | vrmin (l : Nat)
  | vexp (l : Nat)
  | vlog (l : Nat)
  | vrcp (l : Nat)
  | vrsqrt (l : Nat)
  | vsin (l : Nat)
  | vcos (l : Nat)
  | vperm (l : Nat)
  | vbcast (l : Nat)
  | vmovs (l : Nat)
  | vgath (l : Nat)
  | vld (l : Nat)
  | vst (l : Nat)
  | vqpop (l : Nat)
  | vwga (l : Nat)
  | sli (l : Nat)
  | slui (l : Nat)
  | sadd (l : Nat)
  | saddi (l : Nat)
  | ssub (l : Nat)
  | smul (l : Nat)
  | sand (l : Nat)
  | sor (l : Nat)
  | sxor (l : Nat)
  | sshl (l : Nat)
  | sshr (l : Nat)
  | sld (l : Nat)
  | sst (l : Nat)
  | vext (l : Nat)
  | br (l : Nat)
  | beqz (l : Nat)
  | bnez (l : Nat)
  | blt (l : Nat)
  | loop (l : Nat)
  | wait (l : Nat)
  | signal (l : Nat)
  | endRoutine (l : Nat)
  | signalArrival (src dst counter : Nat)
  | waitSatisfied (u : UnitId)
  | sampleRecord (f : Nat) (q : Option Nat) (rec : SampleRec)
  | jpegDecode (f : Nat) (x : LaneTurn)
  | tokenize (f : Nat) (x : LaneTurn)
  | batchOp (f : Nat)
  | plannedBurst (x : Burst)
  | refreshInterval (pile : Nat)
  | patrolScrub (pile cw : Nat) (errs : List (Nat × Nat × Nat)) (interfaceOk : Bool)
  | edramWriteBack (pile line : Nat)
  | flitCrcFail (hub module nth : Nat)
  | moduleRetrainDone (hub module : Nat) (failed : List Nat)
  | moduleRetrainTimeout (hub module : Nat)
  | parameterBlock (hub module die : Nat) (b : ParamBlock)
  | parameterBlockTimeout (hub die : Nat)
  | remoteRead (l : Nat) (addr len : Nat) (errs : List HwErr)
  | powerSample (p : PowerSample)
  | powerStepUpdate (belowFor1ms : Bool)
  | thermalRead (temps : Temps)
  | thermalStepTick (die : Nat)
  | wakeStart (u : UnitId) (t : Nat)
  | unplannedWake (u : UnitId) (t : Nat)
  | autoHold
  | holdExit
  | dStateChange (p : HPort) (d3hot : Bool)
  | crossingTimeout (domain : Nat) (reader : Option (Req × Nat))
  | pllUnlock (domain : Nat)
  | pllRelock (domain : Nat)
  | pllRelockTimeout (domain : Nat)
  | powerOkAssert (pkg : Package)
  | powerOkDeassert
  | startupStepTimeout (stepNo : Nat)
  | portReset (p : HPort) (kind : PortResetKind) (flushed : Nat)
  | pcieLinkUp (p : HPort) (link : PortLink)
  | linkRecovery (p : HPort)
  | cxlCacheTimeout (hub : Nat)
  | watchdog (flushed : Nat)
  | getCertificate (ep : MgmtEp) (off len : Nat)
  | challenge (ep : MgmtEp) (nonce : Bytes)
  | getMeasurements (ep : MgmtEp) (index : Nat) (signed : Bool) (nonce : Bytes)
  | readTelemetry (ep : MgmtEp)
  | setCap (ep : MgmtEp) (w : Nat)
  | getCap (ep : MgmtEp)
  | coverDue (die : Nat)
  | coreSelfTestDone (p : Nat) (x : TestEnd)
  | controlMessageReceipt (q : Nat) (f : Frame) (residence t : Nat)
  | masterAndBackupLost (t : Nat)
  | copyRequest (q : Nat) (f : Frame)
  | eszCmdDone
  | tapAccess (op : TapOp)
  | negotiateAlgorithms (ep : MgmtEp)
  | dynamicAddress (addr : Nat)
deriving DecidableEq, Repr

end Sys2Proof
end

