-- ==== Sys2Proof/Decode.lean ====
section
/-! DEFINITION. The words of the opcode table. The table gives no row of this block any bits: its rows are the
block's commands, each made of the operands its rule names, and no word spells one. -/

namespace Sys2Proof

/-- The command that a word of `nbits` bits spells by the bits of the opcode table: none, as no row has bits (log 1). -/
def decodeTableWord (_nbits _w : Nat) : Option Instr := none

end Sys2Proof
end

