-- ==== Sys2Proof/Config.lean ====
section
/-! DEFINITION. What an implementation fixes and what the manual leaves open: the free values. None of the
constants below has a body, so no proof can see a value of one. -/

namespace Sys2Proof.Config

/-- Value of an undefined byte of memory: `freeByte stamp key` for the byte `key` of a range that the event
numbered `stamp` made undefined (R117, R322, R333, R341, R482, R530) (log 5). -/
opaque freeByte : Nat → Nat → Byte

/-- Bytes of the true random number generator of R564, by draw number and byte index (R580) (log 6). -/
opaque randomByte : Nat → Nat → Byte

/-- Set of the remote cache that a line address hashes to (R60 names a hash and does not give it) (log 7). -/
opaque rdcSet : Nat → Nat

/-- Way that a fill of a full remote-cache set evicts, from the draw number (no rule gives the replacement
order of R60) (log 7). -/
opaque rdcVictim : Nat → Nat

/-- Set of a pile's eDRAM cache that a line address maps to (R354 does not give the index) (log 7). -/
opaque edramSet : Nat → Nat

/-- The unique device secret, 48 bytes (R568, R584): a fuse value of the part (log 8). -/
opaque uds : Nat → Byte

/-- SHA-384 digest bytes of the boot ROM (R588 block 1): the ROM's contents are not in the manual (log 8). -/
opaque romDigest : Nat → Byte

/-- Bytes of the certificate chain of slot 0 (R585, R586), by boot and index: the encoding is X.509's (log 8). -/
opaque certChain : Nat → Nat → Byte

/-- Length of that chain, by boot (log 8). -/
opaque certLen : Nat → Nat

/-- Answer byte of an opened IEEE 1687 instrument or internal scan access (R582 does not give instrument
contents), by draw number (log 9). -/
opaque tapData : Nat → Nat → Byte

/-- Value of a result that the manual does not state for these operands: `freeWord stamp key` (log 10). -/
opaque freeWord : Nat → Nat → Word

/-- Packed coordinate of the twin of a member, by CASCADE_ID and packed coordinate: a ROUTE_TABLE names its own device's
twin only (R424, R425) (log 13). -/
opaque twinOf : Nat → Nat → Nat

/-- JEP106 manufacturer code in IDCODE bits [11:1] (R582 names it and does not give it) (log 9). -/
opaque jep106 : Nat

end Sys2Proof.Config
end

