-- ==== Sys2Proof/Machine/Image.lean ====
section
/-! DEFINITION. The fingering as plain data: the header, the plans and the sections that a verified image gives
the device (Tables 2.5 to 2.8, 1.22, 3.25, 5.8, 5.9, 6.9, 7.7, 8.5, 8.9, 9.8, 10.4, 10.5 and 11.4). -/

namespace Sys2Proof.Machine

/-- The fingering header (Table 2.5); tensor identifier 0xFFFF_FFFF elsewhere is `none` of no kind: it stays a number. -/
structure Header where
  imageSize : Nat
  sections : Nat
  dirOffset : Nat
  sigOffset : Nat
  sigSize : Nat
  fullTwin : Bool
  streaming : Bool
  srEnable : Bool
  standbyB : Bool
  reqCaps : Nat
  reqPresent0 : Nat
  reqPresent1 : Nat
  period : Nat
  planLen : Nat
  verdictDelay : Nat
  longEvery : Nat
  cascadeId : Nat
  cascadeSize : Nat
  target : Nat
  rollbackVer : Nat
  homeDigest : Bytes
  buildId : Bytes
deriving DecidableEq, Repr

/-- Slot descriptor (Table 2.8). -/
structure SlotDesc where
  start : Nat
  budget : Nat
  op : Nat
  afterVerdict : Bool
deriving DecidableEq, Repr

/-- UNIT_PLAN or LONG_PLAN of one unit (R106): the slots of each plan position, in order. -/
structure UnitPlan where
  cls : Nat
  idx : Nat
  positions : List (List SlotDesc)
deriving DecidableEq, Repr

/-- CORE_PROGRAM of one logical core (R130): the section's bytes and what its header and entry tables give. -/
structure CoreProg where
  logical : Nat
  entries : List (List Nat)
  wgaTiles : Nat
  wgaSr : Bool
  image : Bytes
deriving DecidableEq, Repr

/-- Tensor table entry (Table 8.5). -/
structure Tensor where
  id : Nat
  cls : Nat
  format : Nat
  writable : Bool
  mirrored : Bool
  holdGrad : Bool
  hostBias : Bool
  size : Nat
  taddr : Nat
  home : Nat
  landing : Nat
deriving DecidableEq, Repr

/-- Stage entry (Table 2.26). -/
structure Stage where
  weight : Nat
  kind : Nat
  trained : Bool
  layer : Nat
deriving DecidableEq, Repr

/-- A remote-cacheable region (Table 1.22). -/
structure RdcRegion where
  base : Nat
  length : Nat
  lifetime : Nat
deriving DecidableEq, Repr

/-- RDC_REGIONS: the EN bits and the regions. -/
structure RdcSec where
  en : Nat
  regions : List RdcRegion
deriving DecidableEq, Repr

/-- NUMERIC_CONFIG entry (Table 5.9). -/
structure NumEntry where
  policy : Nat
  headroom : Nat
  initScale : Nat
  endPos : Nat
deriving DecidableEq, Repr

/-- NUMERIC_CONFIG (R243). -/
structure NumCfg where
  seed : Nat
  watchTensor : Nat
  entries : List NumEntry
deriving DecidableEq, Repr

/-- SCHEDULE field of a parameter group (Table 7.7). -/
structure Sched where
  decay : Nat
  warmupEach : Bool
  lrPeak : Word
  lrMin : Word
  lrStart : Word
  warmup : Nat
  decayLen : Nat
  period : Nat
  gamma : Word
deriving DecidableEq, Repr

/-- Parameter group (Table 6.9). -/
structure Group where
  rule : Nat
  emaEn : Bool
  emaFp32 : Bool
  gradBf16 : Bool
  watchBase : Nat
  beta1 : Word
  omb1 : Word
  beta2 : Word
  omb2 : Word
  eps : Word
  wd : Word
  emaBeta : Word
  emaOmb : Word
  gscale : Nat
  rowWidth : Nat
  preCols : Nat
  preF : Nat
  newtonIters : Nat
  epsBase : Word
  epsSing : Word
  pivotRel : Word
  sched : Sched
deriving DecidableEq, Repr

/-- Shard (Table 6.9): tensor identifiers, 0xFFFF_FFFF for none. -/
structure Shard where
  group : Nat
  pile : Nat
  count : Nat
  first : Nat
  grad : Nat
  m : Nat
  v : Nat
  master : Nat
  work : Nat
  ema : Nat
  tag : Nat
  freeze : Nat
  touch : Nat
  pstat : Nat
  pdir : Nat
deriving DecidableEq, Repr

/-- Update op (Table 6.9). -/
structure UpdOp where
  shard : Nat
  firstChunk : Nat
  chunks : Nat
deriving DecidableEq, Repr

/-- UPDATE_CONFIG (R285). -/
structure UpdCfg where
  votePos : Nat
  stepPos : Nat
  stepRec : Nat
  groups : List Group
  shards : List Shard
  ops : List UpdOp
deriving DecidableEq, Repr

/-- Window stream (Table 8.9). -/
structure WinStream where
  depth : Nat
  die : Nat
  bufSize : Nat
  bufBase : Nat
deriving DecidableEq, Repr

/-- Mover op (Table 8.9): KIND 1 MOVE, 2 FETCH. -/
structure MoverOp where
  kind : Nat
  window : Nat
  expClass : Nat
  expCore : Nat
  expSlot : Nat
  tensor : Nat
  offset : Nat
  length : Nat
  target : Nat
deriving DecidableEq, Repr

/-- Refresh entry (Table 8.9). -/
structure RefEntry where
  pos : Nat
  pile : Nat
  count : Nat
  start : Nat
deriving DecidableEq, Repr

/-- TIER_PLAN (R367). -/
structure TierCfg where
  groupMode : Nat
  holdSize : Nat
  holdGroup : Nat
  streams : List WinStream
  ops : List MoverOp
  refresh : List RefEntry
deriving DecidableEq, Repr

/-- Forager stream (Table 9.8). -/
structure FStream where
  kind : Nat
  forager : Nat
  cacheFill : Bool
  concealMask : Bool
  outZf8 : Bool
  longOk : Bool
  partner : Bool
  intake : Bool
  port : Nat
  watch : Nat
  tgtW : Nat
  tgtH : Nat
  longAt : Nat
  mean : List Word
  scale : List Word
  dict : Nat
  byteBase : Nat
  bosId : Nat
  eosId : Nat
  padId : Nat
deriving DecidableEq, Repr

/-- Batch op (Table 9.8). -/
structure BatchDesc where
  stream : Nat
  long : Bool
  mbIndex : Nat
  budget : Nat
  rows : Nat
  seq : Nat
  fillMin : Nat
  target : Nat
deriving DecidableEq, Repr

/-- FORAGER_CONFIG (R403). -/
structure ForCfg where
  retainStep : Bool
  fixedSteps : Nat
  staging : Nat
  manifest : Nat
  cache : Nat
  configTag : Nat
  streams : List FStream
  ops : List BatchDesc
deriving DecidableEq, Repr

/-- Link op (Table 10.5): KIND 1 SEND, 2 MCAST, 3 REDUCE. -/
structure LinkOp where
  kind : Nat
  vl : Nat
  group : Nat
  dest : Nat
  fmt : Nat
  window : Nat
  src : Nat
  dst : Nat
  length : Nat
  expClass : Nat
  expCore : Nat
  expSlot : Nat
deriving DecidableEq, Repr

/-- ROUTE_TABLE (R424). Coordinates are packed x + 256 y + 65536 z; 0xFFFF_FFFF none. -/
structure Route where
  dx : Nat
  dy : Nat
  dz : Nat
  master : Nat
  twin : Nat
  roles : List Nat
  members : List Nat
  groups : List Nat
  ops : List LinkOp
deriving DecidableEq, Repr

/-- Copy-engine descriptor (Table 11.4): KIND 1 H2D, 2 D2H, 3 NOTIFY. -/
structure CopyDesc where
  kind : Nat
  port : Nat
  hasRecord : Bool
  flag : Bool
  flagOther : Bool
  vector : Nat
  length : Nat
  hostAddr : Nat
  taddr : Nat
  flagAddr : Nat
  flagBase : Nat
  recordAddr : Nat
  stride : Nat
  nbuf : Nat
deriving DecidableEq, Repr

/-- HOST_IO (R468). -/
structure HostIo where
  fenceOff : Bool
  needA : Bool
  needB : Bool
  needCxl : Bool
  descs : List CopyDesc
deriving DecidableEq, Repr

/-- The sections that a takeover plan repeats (R307): the device's own plan, or its takeover plan. -/
structure PlanSet where
  units : List UnitPlan
  longs : List UnitPlan
  cores : List CoreProg
  route : Option Route
  update : Option UpdCfg
  tier : Option TierCfg
deriving DecidableEq, Repr

/-- A verified fingering. -/
structure Fing where
  hdr : Header
  own : PlanSet
  takeover : PlanSet
  tensors : List Tensor
  stages : List Stage
  rdc : Option RdcSec
  numeric : Option NumCfg
  forager : Option ForCfg
  hostIo : Option HostIo
  /-- SHA-384 of the image up to the signature block, measured by R588 block 4 -/
  digest : Bytes
  /-- customer key entry that signed the image (R570) -/
  key : Nat
deriving DecidableEq, Repr

end Sys2Proof.Machine
end

