-- ==== Sys2Proof/Machine/State.lean ====
section
/-! DEFINITION. The state of the block as plain data, the reasons a command can stop, and the state right after a
power-on reset (R529, R605). Everything that a command can change is a field here. -/

namespace Sys2Proof.Machine

open Sys2Proof

/-- Reasons a command could stop the machine. No command of this block does: the manual gives each an effect. -/
inductive Fault where
  /-- Raised by nothing: the manual names no event after which the block takes no further command. Safe: a stop where
  the hardware goes on proves nothing false. -/
  | stuck
deriving DecidableEq, Repr

/-- Reasons a command is turned away without a meaning. -/
inductive Refusal where
  /-- Raised by `exec` for a command whose meaning is not written yet, by its mnemonic. Safe: nothing is claimed of
  such a command. -/
  | notModelled (mnemonic : String)
deriving DecidableEq, Repr

/-- A byte range whose contents an event made undefined: `lo` up to but not including `hi`, with the event's stamp. -/
structure UndefRange where
  lo : Nat
  hi : Nat
  stamp : Nat
deriving DecidableEq, Repr

/-- A memory: its written bytes in canonical form and the ranges that read as free values where nothing has been
written since (log 5). -/
structure Mem where
  cells : List Host.Cell
  undef : List UndefRange
deriving DecidableEq, Repr

/-- A HI half latched by a LO read (R20, R620): requester, LO offset, value. -/
structure Latch where
  req : Req
  lo : Nat
  hi : Word
deriving DecidableEq, Repr

/-- An SPDM response (R586, R588). -/
inductive SpdmResp where
  /-- versions (major times 16 plus minor), CERT_CAP, CHAL_CAP, MEAS_CAP with signatures, key exchange or sessions, mutual
  authentication; with P-384, SHA-384 and the DMTF measurement specification selected -/
  | algorithms (versions : List Nat) (cert chal measSig keyEx mutualAuth : Bool)
  /-- a portion of the chain in slot 0 and the bytes left after it -/
  | certificate (portion : Bytes) (remainder : Nat)
  /-- CHALLENGE_AUTH: hash of the chain, responder nonce, signature -/
  | challengeAuth (chainHash nonce sig : Bytes)
  /-- how many measurement blocks there are -/
  | count (n : Nat)
  /-- measurement blocks by index, responder nonce and signature where one was asked for -/
  | measurements (blocks : List (Nat × Bytes)) (sig : Option (Bytes × Bytes))
  /-- an error response; nothing has changed -/
  | error
deriving DecidableEq, Repr

/-- Everything the block sends outwards, in order (log 42). -/
inductive Out where
  /-- the answer of a register read -/
  | regData (r : Req) (off : Nat) (v : Word)
  /-- both halves of a pair, for an 8-byte read -/
  | regPair (r : Req) (off : Nat) (lo hi : Word)
  /-- an unsupported request of BAR0 or BAR2 -/
  | unsupported (p : HPort)
  /-- read data of BAR2 or of CXL.mem -/
  | busData (p : HPort) (data : Bytes)
  /-- a completion with status completer abort -/
  | completerAbort (p : HPort)
  /-- a memory write on a host port -/
  | hostWrite (p : HPort) (addr : Nat) (data : Bytes)
  /-- a memory read on a host port: the copy engine or `none` for the mailbox and flushing reads -/
  | hostRead (p : HPort) (addr len : Nat) (engine : Option Nat)
  /-- a CXL.cache read on a host port, which takes the current value without ownership (R488) -/
  | cxlRead (p : HPort) (addr len : Nat)
  /-- an MSI-X message -/
  | msix (p : HPort) (vector : Nat)
  /-- a frame on a link port -/
  | frame (q : Nat) (f : Frame)
  /-- training started on a port -/
  | trainPort (q : Nat)
  /-- a margin measurement started on a port -/
  | measurePort (q : Nat)
  /-- the FENCE event messages of a gap entry: the units that send their own, and those for which the hub sends
  (R82, R506) -/
  | fences (own byHub : List UnitId)
  /-- a BEAT_OUT pulse -/
  | beatOut (t : Nat)
  /-- a retraining of a Serrin module -/
  | retrain (hub module : Nat)
  /-- a self-test started on a core or an update engine -/
  | selfTest (u : UnitId) (phys : Nat)
  /-- an SPDM response on an endpoint (R586) -/
  | spdm (ep : MgmtEp) (r : SpdmResp)
  /-- a telemetry page (R591) -/
  | telemetry (ep : MgmtEp) (page : Bytes)
  /-- the answer of SET_CAP: status and stored cap (R590) -/
  | capSet (ep : MgmtEp) (ok : Bool) (cap : Nat)
  /-- the answer of GET_CAP: PWR_CAP_MGMT, PWR_CAP_HOST, effective cap (R590) -/
  | caps (ep : MgmtEp) (mgmt host effective : Nat)
  /-- the data of a test access, or its error response (R582) -/
  | tap (data : Option Bytes)
  /-- a cached line taken back from the host on a bias flip or read from the host's cache (R486, R488) -/
  | snoop (p : HPort) (page : Nat)
deriving DecidableEq, Repr

/-- A unit of the error log (Table 13.5). -/
structure UnitCode where
  typ : Nat
  idx : Nat
  sub : Nat
deriving DecidableEq, Repr

/-- A fingering slot (R110): its state code of Table 2.21, the protected range of its image, ranges that earlier LOADs into the slot
protected since the last EVICT, whether the last LOAD found no slot LOADED or RUNNING (R322), and the verified image (log 135). -/
structure SlotSt where
  state : Nat
  lo : Nat
  hi : Nat
  kept : List (Nat × Nat)
  alone : Bool
  fing : Option Fing
deriving DecidableEq, Repr

/-- One window of the run: the window whose slots run, or the one that awaits its verdict. -/
structure Win where
  beat : Nat
  pos : Nat
  start : Nat
  stretch : Nat
  long : Bool
  slot : FSlot
  takeover : Bool
  /-- its plan cycle runs in fixed mode (R389) -/
  fixed : Bool
  /-- no slot of the window starts before the pending verdict (R117) -/
  holdAll : Bool
  /-- replay count of the position in this window (Table 2.11) -/
  replays : Nat
  /-- effective period (R73, R101) -/
  period : Nat
  /-- slots were held under R92 -/
  held : Bool
  fault : Bool
  /-- units that raised an RP event in the window and have not been fenced for it (R540) -/
  rpUnits : List UnitCode
  /-- the commit gap has started: no further planned slot starts (R81) -/
  inGap : Bool
  /-- the device has entered the gap (R81) -/
  entered : Bool
  reported : Bool
  margin : Int
  cycle : Nat
deriving DecidableEq, Repr

/-- A verdict that this device will apply (R85): COMMIT 0, COMMIT_SKIP 1, REPLAY 2 with what its message carried. -/
structure Due where
  kind : Nat
  beat : Nat
  at_ : Nat
  flags : Nat
  stretch : Nat
  margin : Int
  coord : Coord
  lost : Option Coord
  epoch : Nat
deriving DecidableEq, Repr

/-- A marker that this device will run (R432, R433). -/
structure DueMarker where
  beat : Nat
  at_ : Nat
  stretch : Nat
  planPos : Nat
  epoch : Nat
deriving DecidableEq, Repr

/-- State of the beat machinery. -/
structure Beat where
  win : Option Win
  /-- windows that have ended and await their verdict, oldest first -/
  prev : List Win
  /-- position that the next marker runs -/
  nextPos : Nat
  cycle : Nat
  committed : Nat
  due : List Due
  /-- markers issued or received and not yet at their instant (R433) -/
  markers : List DueMarker
  /-- START accepted, waiting for the first marker -/
  waiting : Bool
  /-- a STOP of FING_CTL waits for the next verdict -/
  stopNow : Bool
  /-- mailbox SWITCH accepted: target slot and CYCLE_COUNT -/
  switchTo : Option (FSlot × Nat)
  /-- mailbox STOP accepted: target CYCLE_COUNT -/
  stopAt : Option Nat
  /-- the slot that ran before a switch whose last beat still awaits its verdict (R118) -/
  switchedFrom : Option (FSlot × Nat)
  /-- mailbox page read and not yet acted on -/
  page : Option Bytes
  /-- the mailbox read under way: none 0, its CMD_SEQ 1, the rest of the page 2 (R120); CMD_SEQ as read -/
  reading : Nat
  cmdSeq : Bytes
  cmdAck : Nat
  /-- CMD_ACK has advanced since the last report -/
  ackNew : Bool
  cmdResult : Nat
  reportSeq : Nat
  /-- arguments read and not yet in effect, and whether a commit has followed the read (Table 2.10) -/
  argsNew : Option (Bytes × Bool)
  args : Bytes
  /-- codes logged once in the present beat -/
  onceBeat : List Nat
  /-- codes logged once in the present step -/
  onceStep : List Nat
  /-- codes logged once in the present plan cycle -/
  onceCycle : List Nat
  /-- MSI-X error vectors sent in the present beat: port and class -/
  onceMsix : List Nat
deriving DecidableEq, Repr

/-- The slot that a plan unit is running. `owner` is the unit whose plan lists it (a merge may give another's) (log 115). -/
structure RunSlot where
  owner : UnitId
  slot : Nat
  pos : Nat
  beat : Nat
  op : Nat
  plannedEnd : Nat
  started : Nat
  /-- program-region offset of the next descriptor or instruction -/
  ptr : Nat
  /-- op ordinal of Table 5.1 within the slot -/
  ordinal : Nat
  /-- the counter that the next op waits on, and whether the wait has been satisfied (R136) -/
  wait : Option (Nat × Bool)
  /-- progress within the op: chunk, piece or byte offset -/
  prog : Nat
  /-- values of the op that have found no room in the vector input queue yet (R177) -/
  rest : List Word
  /-- of an update engine's slot: its group's GSCALE word as read when the slot started (R271) -/
  gs : Word
  /-- the op has ended and the slot waits for SLOT_END -/
  ended : Bool
deriving DecidableEq, Repr

/-- A plan unit of Table 2.25. Power: 0 ACTIVE, 1 GATE, 2 DROWSE, 3 OFF (R501). -/
structure UnitSt where
  next : Nat
  run : Option RunSlot
  fenced : Bool
  power : Nat
deriving DecidableEq, Repr

/-- Vector engine of one physical core (R176 to R179): stores of registers, zero where unlisted. -/
structure VecSt where
  vregs : Store (List Word)
  masks : Store (BitVec 128)
  sregs : Store DWord
  scales : List (BitVec 8)
  queue : List Word
deriving DecidableEq, Repr

/-- Directory entry of one WGA tile of a logical core (R166) (log 54), and whether its committed comb copy has been found
uncorrectable (R173). -/
structure WgaTile where
  core : Nat
  tile : Nat
  ptr : Bool
  touch : Bool
  sramOk : Bool
  combBad : Bool
deriving DecidableEq, Repr

/-- Cores of the device: vector engines by physical core, event counters by 32 · logical + counter, WGA. -/
structure CoresSt where
  vec : Store VecSt
  counters : Store Nat
  wga : List WgaTile
  /-- signals under way on the event channel: signalling core, target core, counter (R136) -/
  signals : List (Nat × Nat × Nat)
  /-- logical numbers that passed to another physical core at the gap of a window (R169) -/
  subst : List (Nat × Nat)
deriving DecidableEq, Repr

/-- Contributions of one window or of the foragers to one watch record (R233, R235). -/
structure WDelta where
  elements : Nat
  zeros : Nat
  sats : Nat
  nans : Nat
  infs : Nat
  ovfBlocks : Nat
  amax : Word
  nfKind : Nat
  nfOp : Nat
  nfCore : Nat
  nfRow : Nat
  nfCol : Nat
  flags : Nat
  list : List Nat
deriving DecidableEq, Repr

/-- The deltas that a hub keeps: hub, window (`none` for the forager delta) and record. -/
structure WKey where
  hub : Nat
  beat : Option Nat
  record : Nat
  delta : WDelta
deriving DecidableEq, Repr

/-- A chunk between its stage M and its stage W (R262). -/
structure Staged where
  eng : Nat
  shard : Nat
  chunk : Nat
  /-- tags of the chunk that complete under recovery -/
  recovered : List Nat
  /-- tags whose stage M was written now -/
  fresh : List Nat
  needTwin : Bool
  ackPile : Bool
  ackTwin : Bool
deriving DecidableEq, Repr

/-- Update engines and the schedule engine. -/
structure UpdSt where
  /-- committed scan count of each pile (R254) -/
  scan : Store Nat
  /-- scan deltas by pile and window -/
  scanDelta : List (Nat × Nat × Nat)
  /-- the current step is skipped (R256) -/
  skip : Bool
  staged : List Staged
  /-- engines stopped after a fault in the window -/
  stopped : List Nat
  /-- rate table visible to the engines, and the table of the window not yet committed -/
  rates : List Word
  ratesNew : Option (Nat × List Word)
  /-- restart piece (j, p_j) of each group (R316) -/
  pieces : Store (Nat × Word)
  /-- diagonal-update tiles counted in this step, by 64 · pile + group and tile (R279) -/
  tiles : List (Nat × Nat)
  /-- step record copy written and awaiting its commit -/
  stepNew : Option Nat
  /-- shards whose skipped touch-list entries have been counted in the step (R274) -/
  touched : List Nat
  /-- tensors that the twin restores, with the bytes still to come (R303) -/
  restore : List (Nat × Nat)
  /-- shards restored once in the step -/
  restored : List Nat
  /-- DSEQ behind the last frame of a refresh that the twin has asked for (R302) -/
  refresh : Option Nat
deriving DecidableEq, Repr

/-- A move in progress (R331 to R336), or a homing (R351, R352) (log 69). -/
structure MoveSt where
  tensor : Nat
  target : Nat
  length : Nat
  progress : Nat
  /-- progress of the committed windows -/
  marked : Nat
  /-- progress that each window not yet judged has reached -/
  hist : List (Nat × Nat)
  stale : Bool
  homing : Bool
  /-- home from which a homing started; the window in which it began -/
  source : Nat
  begun : Nat
  /-- the homing has transferred the home provisionally -/
  complete : Bool
deriving DecidableEq, Repr

/-- A window-buffer copy (R339 to R342). -/
structure WinCopy where
  stream : Nat
  buffer : Nat
  layer : Nat
  expires : Option (UnitId × Nat × Nat)
  beat : Nat
deriving DecidableEq, Repr

/-- A hold: the home of a HOLD_GRAD tensor (R347 to R350). -/
structure HoldSt where
  pile : Nat
  tensor : Nat
  /-- its shard's index in UPDATE_CONFIG (R348) -/
  shard : Nat
  unit : Nat
  count : Nat
  step : Nat
  committed : Bool
  beat : Nat
deriving DecidableEq, Repr

/-- A write to a HOLD_GRAD tensor that waits for space in its pile's holding area (R350). -/
structure HoldWait where
  pile : Nat
  tensor : Nat
  off : Nat
  data : Bytes
  /-- window of the slot that made the write -/
  beat : Nat
  /-- the unit whose slot waits with it -/
  unit : Option UnitId
  /-- port, lane and units of the receive buffer that holds the data until then -/
  owe : Option (Nat × Nat × Nat)
deriving DecidableEq, Repr

/-- Home record of a tensor (R626). -/
structure HomeRec where
  tensor : Nat
  home : Nat
deriving DecidableEq, Repr

/-- A super-table entry as latched at START (Table 8.7). -/
structure SuperEntry where
  off : Nat
  length : Nat
  hostAddr : Nat
  port : Nat
deriving DecidableEq, Repr

/-- A line of a remote cache (R60 to R66): die, home line address, region lifetime, beat that filled it, and the
draw number of the fill. -/
structure RdcLine where
  die : Nat
  line : Nat
  lifetime : Nat
  order : Nat
deriving DecidableEq, Repr

/-- A codeword listed for repair (R364, R366): pile n as n with the codeword's number, comb d as 16 + d with the number of the 64-bit
word; the window and plan position whose read of it failed, `none` when no planned read has failed yet (log 127). -/
structure ListedCw where
  mem : Nat
  cw : Nat
  failed : Option (Nat × Nat)
deriving DecidableEq, Repr

/-- Memory tiers. -/
structure TierSt where
  homes : List HomeRec
  lastDigest : Option Bytes
  moves : List MoveSt
  wins : List WinCopy
  holds : List HoldSt
  waits : List HoldWait
  super : List SuperEntry
  /-- eDRAM cache: pile, line, dirty, most recently used last -/
  edram : List (Nat × Nat × Bool)
  /-- codewords listed for repair (R364, R366) -/
  listed : List ListedCw
  /-- corrected codewords of the last 2^30 ns: pile, DRAM die, time (R362) -/
  corrected : List (Nat × Nat × Nat)
  /-- per pile, the die in error in the latest corrected codewords and how many in a row (R362) -/
  streak : Store (Nat × Nat)
  /-- times of uncorrectable codewords per pile -/
  ueTimes : List (Nat × Nat)
  /-- refresh debt by pile (R359) -/
  debt : Store Int
  /-- planned bursts that each pile has run or skipped in a window, by pile: window and number (R359) -/
  bursts : Store (Nat × Nat)
  /-- codewords corrected in the present scrub pass, by pile (R365) -/
  scrub : Store Nat
  rdc : List RdcLine
  /-- hubs whose RDC_CTL EN is in effect (R66) -/
  rdcOn : List Nat
deriving DecidableEq, Repr

/-- A sample staged by a forager (R386). -/
structure Staged9 where
  forager : Nat
  stream : Nat
  sampleId : Nat
  srcSeq : Nat
  refetch : Bool
  long : Bool
  flags : Nat
  data : Bytes
  /-- tokens, or 1 for an image -/
  units : Nat
  order : Nat
  /-- CRC of the record's payload, and what a damage record says of the sample: TOTAL, DECL_W, DECL_H, LENGTH,
  BYTE_OFFSET, MCU_INDEX, COUNT -/
  crc : Nat
  total : Nat
  declW : Nat
  declH : Nat
  length : Nat
  byteOff : Nat
  mcu : Nat
  count : Nat
  /-- it stands for a sample that was refused or went to the long queue (R392) -/
  marker : Bool
deriving DecidableEq, Repr

/-- A record waiting for a lane (R374). -/
structure Queued where
  stream : Nat
  sample : SampleRec
deriving DecidableEq, Repr

/-- A micro-batch manifest not yet retired (R394, R399). -/
structure Manifest where
  op : Nat
  mb : Nat
  cycle : Nat
  beat : Nat
  samples : List Staged9
  committed : Bool
deriving DecidableEq, Repr

/-- Foragers. -/
structure ForSt where
  /-- expected SRC_SEQ by stream -/
  expect : Store Nat
  queue : List Queued
  staged : List Staged9
  long : List Staged9
  /-- outstanding refetches: stream, SAMPLE_ID, SRC_SEQ -/
  refetch : List (Nat × Nat × Nat)
  /-- cache: stream, SAMPLE_ID, tag, output flags, bytes -/
  cache : List (Nat × Nat × Nat × Staged9)
  manifests : List Manifest
  order : Nat
  /-- plan cycles since START -/
  cycles : Nat
  /-- batching is fixed in this cycle -/
  fixed : Bool
  /-- byte stream gathered from each intake port -/
  intake : Store Bytes
  /-- the sample that a lane has suspended, by unit index of the lane (R373) -/
  suspended : List (Nat × Queued)
deriving DecidableEq, Repr

/-- A Tlararel port. -/
structure PortSt where
  /-- in service: ACTIVE, its peer accepted, and returned at a commit gap (R442, R443) -/
  active : Bool
  /-- credits held per virtual lane, in 64-byte units -/
  credit : List Nat
  /-- credits owed to the peer per virtual lane -/
  owed : List Nat
  /-- LSEQ of the next frame sent, and of the next frame expected -/
  txLseq : Nat
  rxLseq : Nat
  /-- frames accepted and not yet acknowledged (R415) -/
  ackDue : Nat
  /-- a NAK has gone out for the frame expected -/
  nakSent : Bool
  /-- replay buffer: frames sent and not yet acknowledged, oldest first -/
  replay : List Frame
  /-- LSEQ of the last NAK received, and how many in a row named it -/
  nakLseq : Nat
  failures : Nat
  /-- frames that wait for credit, in the order in which each lane sends them, with one more than the ingress port that
  holds them, or 0 -/
  sendWait : List (Nat × Frame)
  /-- the lane, bulk 0 or reduce 1, that sent last (R413) -/
  turn : Nat
  /-- lanes not dropped -/
  lanes : List Bool
  /-- PROBE round trips of a measurement in progress: time and reported turnaround (R420) -/
  probes : List (Nat × Nat)
deriving DecidableEq, Repr

/-- A partial sum waiting in a reduce buffer (R428). -/
structure ReducePiece where
  port : Nat
  op : Nat
  /-- member index of the place in the chain that it is for -/
  place : Nat
  offset : Nat
  data : Bytes
deriving DecidableEq, Repr

/-- A beat report held by the master and the backup (R84, R436). -/
structure HeldReport where
  coord : Coord
  beat : Nat
  fault : Bool
  voteClear : Bool
  margin : Int
  selfLost : Bool
  partner : Option Coord
  at_ : Nat
deriving DecidableEq, Repr

/-- The cascade as this device sees it. -/
structure CascSt where
  /-- epoch in force, and the one that the master stamps on what it issues (R628) -/
  epoch : Nat
  issueEpoch : Nat
  lost : List Coord
  master : Option Coord
  backup : Option Coord
  reports : List HeldReport
  joins : List Coord
  /-- coordinates to which this device's JOIN has still to go, for want of a port (R437, R442) -/
  joinDue : List Coord
  readys : List Coord
  admitted : List Coord
  /-- SYNC_RESULTs held in this round, and rounds that have failed (R437) -/
  results : List (Coord × Bool)
  tries : Nat
  /-- SYNC instants to come and past, and BEAT_IN edges (R437, R450) -/
  instants : List Nat
  past : List Nat
  edges : List Nat
  /-- overruns of members since START, by packed coordinate (R441) -/
  overrun : Store Nat
  /-- consecutive verdicts with a negative least margin, and consecutive calm ones (R440) -/
  overs : Nat
  calm : Nat
  /-- the next marker raises or lowers the stretch step -/
  raise : Bool
  lower : Bool
  stretch : Nat
  /-- the last window start that the master has issued, and its effective period (R433, R435) -/
  lastMark : Option DueMarker
  lastPeriod : Nat
  /-- slot of that window -/
  lastSlot : FSlot
  /-- a requested retirement (R448) -/
  retire : Option Coord
  /-- members declared lost for the beat to be judged (R446) -/
  dead : List Coord
  /-- when this device began to treat the master as lost (R92) -/
  masterGone : Option Nat
  retired : Bool
  hold : Bool
  takeover : Bool
  /-- this device has declared its twin lost (R445) -/
  partner : Bool
  adopting : Option Coord
  /-- a RESUME not yet at its instant (R449) -/
  resume : Option DueMarker
  /-- mirror frames accepted by window, FENCE counts declared, frames sent by window (R301) -/
  mirrorRx : List (Nat × Nat)
  fences : List (Nat × Nat)
  mirrorTx : Store Nat
  /-- mirror frames accepted of each of the twin's windows whose FENCE has not come (R301) -/
  rxOpen : List Nat
  /-- tensors of shards that a stamp fault asks to refresh during the replay (R302) -/
  refreshDue : List Nat
  /-- this twin sends COPY frames and both roles' mirror frames to an adopting spare (R310) -/
  spare : Bool
  /-- DSEQ behind the last COPY frame that this twin has sent to the spare (R311) -/
  copyEnd : Option Nat
  /-- bytes received in COPY frames by tensor (R450) -/
  copied : Store Nat
  pieces : List ReducePiece
  /-- next DSEQ sent and expected, by direction and virtual lane, and frames that came early or cannot be delivered yet: that
  key, ingress port, time of arrival and frame (R416) -/
  txSeq : Store Nat
  rxSeq : Store Nat
  rxHold : List (Nat × Nat × Nat × Frame)
  /-- bytes of a mirror frame whose last link frame has not come yet (R298) -/
  mirrorIn : Bytes
deriving DecidableEq, Repr

/-- A host port (log 99). -/
structure HostPort where
  up : Bool
  bar2Log2 : Nat
  maxPayload : Nat
  maxRead : Nat
  msixOn : Bool
  cxl : Bool
  flit : Bool
deriving DecidableEq, Repr

/-- A copy run (R470, R473): in progress, or complete and awaiting its verdict. -/
structure CopyRun where
  engine : Nat
  desc : Nat
  run : Nat
  beat : Nat
  port : HPort
  done : Nat
  outstanding : List (Nat × Nat)
  complete : Bool
deriving DecidableEq, Repr

/-- A flag and vector held behind a flushing read (R475, R476): the port of the flag, the run and its descriptor. -/
structure Flushing where
  id : Nat
  port : HPort
  run : Nat
  desc : CopyDesc
deriving DecidableEq, Repr

/-- Host ports, copy engines and coherence. -/
structure HostSt where
  portA : HostPort
  portB : HostPort
  /-- committed runs of each descriptor since START -/
  runNo : Store Nat
  runs : List CopyRun
  flushing : List Flushing
  nextId : Nat
  /-- pages in host bias (page number in the HDM range) -/
  hostBias : List Nat
  flips : List (Nat × Bool)
  /-- movers that wait for a completion, with the port of the request (R346) -/
  asks : List (Nat × HPort)
  mailFails : Nat
  ctrl : HPort
  /-- a control move accepted while RUN is 1 waits for the gap (R490) -/
  ctrlNext : Option HPort
  /-- an event of R493 on the controlling port waits for the gap -/
  failing : Bool
  /-- no port meets R490 or R493: no mailbox is read and no report written (R494) -/
  orphan : Bool
  /-- a BIAS_CTL APPLY waits for the gap (R486) -/
  applyWaits : Bool
  /-- HDM range exposed at the port's last training: port, base, bytes (R483) -/
  hdm : Option (HPort × Nat × Nat)
  mailA : Option Nat
  mailB : Option Nat
  reportA : Option Nat
  reportB : Option Nat
deriving DecidableEq, Repr

/-- Power, clocks and thermal state with no register of its own. -/
structure PowerSt where
  powerOk : Bool
  /-- THERMTRIP_N is asserted (R516) -/
  thermtrip : Bool
  /-- last start-up step reached (Table 12.9); 10 once DEV_STATE has read READY -/
  step : Nat
  /-- clock domains that have stopped (Table 12.6) -/
  stopped : List Nat
  /-- piles whose accesses are limited (R514) -/
  limited : List Nat
  /-- sensors without a valid reading (R515) -/
  invalid : List Nat
deriving DecidableEq, Repr

/-- Faults and field test state with no register of its own (log 121). -/
structure TestSt where
  /-- units to fence at the next gap entry -/
  fences : List UnitCode
  /-- class (DL or FT) and code of a loss that a change at a gap has brought and that is still to be acted on -/
  loss : Option (Nat × Nat)
  /-- TEST_CTL as it is in effect (R561) -/
  testCtl : Word
  /-- per die: the physical core under test -/
  testing : Store Nat
  /-- per die: place in the order of R556 of the next core to test -/
  nextCore : Store Nat
  /-- dies whose next cover is due -/
  due : List Nat
  /-- dies whose core has passed its test and returns at the next gap entry -/
  passed : List Nat
  /-- update engines in self-test -/
  updTest : List Nat
  /-- update engines whose due self-test waits for the next STEP_POS verdict (R560) -/
  updWait : List Nat
  /-- merges: fenced unit and the unit that runs its slots -/
  merges : List (UnitId × UnitId)
deriving DecidableEq, Repr

/-- Connection state of an SPDM endpoint (R586). -/
structure SpdmEp where
  negotiated : Bool
  transcript : Bytes
deriving DecidableEq, Repr

/-- A firmware copy in the boot flash: its bytes, or undefined contents (R579). -/
inductive FlashCopy where
  | bytes (b : Bytes)
  | undefined (stamp : Nat)
deriving DecidableEq, Repr

/-- The firmware that runs: the copy that booted, and of ESZ_FW and HUB_FW the VERSION, the FLAGS and D; the vendor entry
that signed ESZ_FW (R576, R577). -/
structure FwSt where
  copy : Nat
  eszVer : Nat
  hubVer : Nat
  eszFlags : Nat
  hubFlags : Nat
  eszEntry : Nat
  eszDigest : Bytes
  hubDigest : Bytes
deriving DecidableEq, Repr

/-- Eszoja: fuses, flash and the controller's own state. -/
structure EszSt where
  /-- rollback counters (R568) -/
  rbEsz : Nat
  rbHub : Nat
  rbFing : Nat
  vendorDebugBlocked : Bool
  /-- key-pair hashes: entries 0 and 1 vendor, 2 to 5 customer; `none` is an empty entry (R568) -/
  keyHash : List (Option Bytes)
  /-- entries whose REVOKED bit is blown -/
  revoked : List Nat
  /-- the two copies in the boot flash (R575) -/
  flash : List FlashCopy
  nonce : Option Bytes
  /-- debug level (R582) -/
  debug : Nat
  /-- the firmware that booted; `none` while Eszoja runs none -/
  fw : Option FwSt
  /-- first 8 bytes of the device identity (R587) -/
  devid : Bytes
  /-- the Alias private key; `none` before boot and once erased (R583, R584) -/
  alias_ : Option Nat
  /-- the certificate chain that is offered, by the draw that names its bytes; `none` offers none (R585) -/
  chain : Option Nat
  /-- the changes of R578 have been made since the power-on reset -/
  rolled : Bool
  /-- command in progress, and the code that will end it -/
  busy : Option (Nat × Nat)
  epA : SpdmEp
  epB : SpdmEp
  epBus : SpdmEp
  /-- dynamic address of the management bus (R612) -/
  address : Option Nat
deriving DecidableEq, Repr

/-- A Serrin module (R41 to R48), with no register of its own: flits that failed CRC in the beat, whether it waits to
be removed, whether it has retrained and waits to return, its failed data lanes each with the repair lane that carries it (R44),
whether it has left full width before. -/
structure ModSt where
  crc : Nat
  want : Bool
  back : Bool
  mapped : List (Nat × Nat)
  degraded : Bool
deriving DecidableEq, Repr

/-- The machine (log 85). -/
structure State where
  /-- ns of the beat timebase: the latest instant a command has named -/
  now : Nat
  pending : List Instr
  /-- free values drawn so far (the model's own) -/
  free : Nat
  regs : Store Word
  latches : List Latch
  out : List Out
  dram : Mem
  comb : Mem
  sram : Mem
  slotA : SlotSt
  slotB : SlotSt
  beat : Beat
  units : Store UnitSt
  cores : CoresSt
  watch : List WKey
  upd : UpdSt
  tier : TierSt
  forager : ForSt
  /-- Serrin modules by 128 · hub + module -/
  mods : Store ModSt
  ports : Store PortSt
  casc : CascSt
  host : HostSt
  power : PowerSt
  test : TestSt
  esz : EszSt
  pkg : Package
deriving DecidableEq, Repr

/-- An empty memory: every byte reads as 0 (log 4). -/
def Mem.empty : Mem := { cells := [], undef := [] }

/-- A fingering slot after reset: EMPTY, nothing protected. -/
def SlotSt.reset : SlotSt := { state := 0, lo := 0, hi := 0, kept := [], alone := false, fing := none }

/-- The beat machinery after reset: nothing runs (log 86). -/
def Beat.reset : Beat :=
  { win := none, prev := [], nextPos := 0, cycle := 0, committed := 0, due := [], markers := [],
    waiting := false, stopNow := false, switchTo := none, stopAt := none, switchedFrom := none, page := none,
    reading := 0, cmdSeq := [], cmdAck := 0, ackNew := false, cmdResult := 0, reportSeq := 0, argsNew := none, args := [],
    onceBeat := [], onceStep := [], onceCycle := [], onceMsix := [] }

/-- Cores after reset (log 86). -/
def CoresSt.reset : CoresSt := { vec := [], counters := [], wga := [], signals := [], subst := [] }

/-- Update engines after reset. -/
def UpdSt.reset : UpdSt :=
  { scan := [], scanDelta := [], skip := false, staged := [], stopped := [], rates := [], ratesNew := none,
    pieces := [], tiles := [], stepNew := none, touched := [], restore := [], restored := [], refresh := none }

/-- Memory tiers after reset (log 86). -/
def TierSt.reset : TierSt :=
  { homes := [], lastDigest := none, moves := [], wins := [], holds := [], waits := [], super := [], edram := [],
    listed := [], corrected := [], streak := [], ueTimes := [], debt := [], bursts := [], scrub := [], rdc := [], rdcOn := [] }

/-- Foragers after reset (log 86). -/
def ForSt.reset : ForSt :=
  { expect := [], queue := [], staged := [], long := [], refetch := [], cache := [], manifests := [], order := 0,
    cycles := 0, fixed := false, intake := [], suspended := [] }

/-- The cascade after reset (log 86). -/
def CascSt.reset : CascSt :=
  { epoch := 0, issueEpoch := 0, lost := [], master := none, backup := none, reports := [], joins := [], joinDue := [], readys := [],
    admitted := [], results := [], tries := 0, instants := [], past := [], edges := [], overrun := [], overs := 0, calm := 0,
    raise := false, lower := false, stretch := 0, lastMark := none, lastPeriod := 0, lastSlot := .a, retire := none, dead := [],
    masterGone := none, retired := false, hold := false, takeover := false, partner := false, adopting := none,
    resume := none, mirrorRx := [], fences := [], mirrorTx := [], rxOpen := [], refreshDue := [],
    spare := false, copyEnd := none, copied := [], pieces := [],
    txSeq := [], rxSeq := [], rxHold := [], mirrorIn := [] }

/-- A host port with no link. -/
def HostPort.reset : HostPort :=
  { up := false, bar2Log2 := 0, maxPayload := 128, maxRead := 512, msixOn := false, cxl := false, flit := false }

/-- Host ports after reset. -/
def HostSt.reset : HostSt :=
  { portA := .reset, portB := .reset, runNo := [], runs := [], flushing := [], nextId := 0, hostBias := [],
    flips := [], asks := [], mailFails := 0, ctrl := .a, ctrlNext := none, failing := false, orphan := false, applyWaits := false, hdm := none,
    mailA := none, mailB := none, reportA := none, reportB := none }

/-- Power state after reset. -/
def PowerSt.reset : PowerSt :=
  { powerOk := false, thermtrip := false, step := 0, stopped := [], limited := [], invalid := [] }

/-- Fault and test state after reset. -/
def TestSt.reset : TestSt :=
  { fences := [], loss := none, testCtl := 0x3C403E8F, testing := [], nextCore := [], due := [], passed := [], updTest := [], updWait := [], 
    merges := [] }

/-- An endpoint with no connection. -/
def SpdmEp.idle : SpdmEp := { negotiated := false, transcript := [] }

/-- Eszoja after reset: fuses unblown, no firmware running (log 113). -/
def EszSt.reset : EszSt :=
  { rbEsz := 0, rbHub := 0, rbFing := 0, vendorDebugBlocked := false, keyHash := [], revoked := [], flash := [],
    nonce := none, debug := 0, fw := none, devid := [], alias_ := none, chain := none, rolled := false, busy := none,
    epA := .idle, epB := .idle, epBus := .idle, address := none }

/-- No package facts: nothing has been powered up yet. -/
def Package.none : Package :=
  { dies := [], blocks := [], modules := [], noComb := [], failedCores := [], failedArrays := [], hubTestFails := false,
    eszTestFails := false, pllFails := Option.none, maddr := 0, testMode := false, pkgRev := 0, vendorKeys := [],
    flash := [], certOk := false }

/-- The block right after a power-on reset, before POWER_OK rises (R529, R532) (logs 4, 40). -/
def State.reset : State :=
  { now := 0, pending := [], free := 0, regs := [], latches := [], out := [], dram := .empty, comb := .empty,
    sram := .empty, slotA := .reset, slotB := .reset, beat := .reset, units := [], cores := .reset, watch := [],
    upd := .reset, tier := .reset, forager := .reset, mods := [], ports := [], casc := .reset, host := .reset, power := .reset,
    test := .reset, esz := .reset, pkg := Package.none }

end Sys2Proof.Machine
end

