-- ==== Sys2Proof/Machine/RegMap.lean ====
section
/-! DEFINITION. The register map of BAR0: offsets by name (Tables 16.3 to 16.6) and, for every register, what a
write of its bits does by the access types of Table 0.8. -/

namespace Sys2Proof.Machine

open Sys2Proof

/-- The state of the device that locks a field (R17 and the descriptions of the fields). -/
inductive RegLock where
  | none | run | slotA | slotB | bias | hdm | coord
deriving DecidableEq, Repr

/-- One register, or an array of registers at `base + i * s1 + j * s2`: its reset value and the bits of each access
type that a plain register write can change. `rw` holds the RW bits with no row of their own, `locked` those that a
lock guards, `w1c` and `rc` the write-1-to-clear and read-to-clear bits (log 43). -/
structure RegRow where
  base : Nat
  n1 : Nat := 1
  s1 : Nat := 0
  n2 : Nat := 1
  s2 : Nat := 0
  reset : Nat := 0
  rw : Nat := 0
  locked : Nat := 0
  lock : RegLock := .none
  w1c : Nat := 0
  rc : Nat := 0
deriving DecidableEq, Repr

def Reg.devId : Nat := 0x0
def Reg.devStep : Nat := 0x4
def Reg.capPresent0 : Nat := 0x8
def Reg.capPresent1 : Nat := 0xC
def Reg.devState : Nat := 0x10
def Reg.errSummary : Nat := 0x14
def Reg.scratch : Nat := 0x18
def Reg.beatCtl : Nat := 0x100000
def Reg.beatPeriod : Nat := 0x100004
def Reg.beatCountLo : Nat := 0x100008
def Reg.beatCountHi : Nat := 0x10000C
def Reg.beatMarginMin : Nat := 0x100010
def Reg.beatStretch : Nat := 0x100014
def Reg.fingSlotABase : Nat := 0x100020
def Reg.fingSlotBBase : Nat := 0x100024
def Reg.fingCtl : Nat := 0x100028
def Reg.fingStatus : Nat := 0x10002C
def Reg.mailboxAddrLo : Nat := 0x100030
def Reg.mailboxAddrHi : Nat := 0x100034
def Reg.reportAddrLo : Nat := 0x100038
def Reg.reportAddrHi : Nat := 0x10003C
def Reg.portCtlA : Nat := 0x200000
def Reg.portCtlB : Nat := 0x200004
def Reg.portStatusA : Nat := 0x200008
def Reg.portStatusB : Nat := 0x20000C
def Reg.xportFence : Nat := 0x200010
def Reg.biasCtl : Nat := 0x200014
def Reg.biasTableBase : Nat := 0x200018
def Reg.hdmCtl : Nat := 0x20001C
def Reg.bar2BaseA : Nat := 0x200020
def Reg.bar2BaseB : Nat := 0x200024
def Reg.bMailboxAddrLo : Nat := 0x200030
def Reg.bMailboxAddrHi : Nat := 0x200034
def Reg.bReportAddrLo : Nat := 0x200038
def Reg.bReportAddrHi : Nat := 0x20003C
def Reg.ceStatus (u : Nat) : Nat := 0x200100 + 0x4 * u
def Reg.stepCommon (u : Nat) : Nat := 0x400000 + 0x100000 * u
def Reg.capHalf (u : Nat) : Nat := 0x400004 + 0x100000 * u
def Reg.capCommon (u : Nat) : Nat := 0x400008 + 0x100000 * u
def Reg.d2dSummary (u : Nat) : Nat := 0x40000C + 0x100000 * u
def Reg.rdcCtl (u : Nat) : Nat := 0x400010 + 0x100000 * u
def Reg.rdcHitLo (u : Nat) : Nat := 0x400018 + 0x100000 * u
def Reg.rdcHitHi (u : Nat) : Nat := 0x40001C + 0x100000 * u
def Reg.rdcMissLo (u : Nat) : Nat := 0x400020 + 0x100000 * u
def Reg.rdcMissHi (u : Nat) : Nat := 0x400024 + 0x100000 * u
def Reg.dieStep (u : Nat) (v : Nat) : Nat := 0x400100 + 0x100000 * u + 0x8 * v
def Reg.dieCap (u : Nat) (v : Nat) : Nat := 0x400104 + 0x100000 * u + 0x8 * v
def Reg.d2dModStatus (u : Nat) (v : Nat) : Nat := 0x401000 + 0x100000 * u + 0x4 * v
def Reg.coreState (u : Nat) : Nat := 0x1000000 + 0x10000 * u
def Reg.arrayErr (u : Nat) : Nat := 0x1000004 + 0x10000 * u
def Reg.wgaCtl (u : Nat) : Nat := 0x1000008 + 0x10000 * u
def Reg.wgaStatus (u : Nat) : Nat := 0x100000C + 0x10000 * u
def Reg.sramErr (u : Nat) : Nat := 0x1000010 + 0x10000 * u
def Reg.vecErr (u : Nat) : Nat := 0x1000014 + 0x10000 * u
def Reg.passCntLo (u : Nat) : Nat := 0x1000018 + 0x10000 * u
def Reg.passCntHi (u : Nat) : Nat := 0x100001C + 0x10000 * u
def Reg.coreMap (u : Nat) : Nat := 0x1F00000 + 0x4 * u
def Reg.coreSpare (u : Nat) : Nat := 0x1F00100 + 0x4 * u
def Reg.pileState (u : Nat) : Nat := 0x2000000 + 0x40000 * u
def Reg.eccCeCnt (u : Nat) : Nat := 0x2000004 + 0x40000 * u
def Reg.dieRetired (u : Nat) : Nat := 0x2000008 + 0x40000 * u
def Reg.ueAddr (u : Nat) : Nat := 0x200000C + 0x40000 * u
def Reg.edramErr (u : Nat) : Nat := 0x2000010 + 0x40000 * u
def Reg.refreshStatus (u : Nat) : Nat := 0x2000014 + 0x40000 * u
def Reg.holdStatus (u : Nat) : Nat := 0x2000018 + 0x40000 * u
def Reg.scrubStatus (u : Nat) : Nat := 0x200001C + 0x40000 * u
def Reg.updCtl (u : Nat) : Nat := 0x2000100 + 0x40000 * u
def Reg.updStatus (u : Nat) : Nat := 0x2000104 + 0x40000 * u
def Reg.updStep (u : Nat) : Nat := 0x2000108 + 0x40000 * u
def Reg.updSkipped (u : Nat) : Nat := 0x200010C + 0x40000 * u
def Reg.capFault (u : Nat) : Nat := 0x2000110 + 0x40000 * u
def Reg.capFaultChunk (u : Nat) : Nat := 0x2000114 + 0x40000 * u
def Reg.capFaultMom (u : Nat) : Nat := 0x2000118 + 0x40000 * u
def Reg.capFaultCap (u : Nat) : Nat := 0x200011C + 0x40000 * u
def Reg.updChunksLo (u : Nat) : Nat := 0x2000120 + 0x40000 * u
def Reg.updChunksHi (u : Nat) : Nat := 0x2000124 + 0x40000 * u
def Reg.updEvents (u : Nat) : Nat := 0x2000128 + 0x40000 * u
def Reg.gradNf (u : Nat) : Nat := 0x200012C + 0x40000 * u
def Reg.groupMode (u : Nat) : Nat := 0x2000200 + 0x4 * u
def Reg.superBaseLo : Nat := 0x2000210
def Reg.superBaseHi : Nat := 0x2000214
def Reg.superCtl : Nat := 0x2000218
def Reg.moveStatus : Nat := 0x200021C
def Reg.linkState (u : Nat) : Nat := 0x3000000 + 0x4000 * u
def Reg.linkWidth (u : Nat) : Nat := 0x3000004 + 0x4000 * u
def Reg.fecCnt (u : Nat) : Nat := 0x3000008 + 0x4000 * u
def Reg.vlCredit (u : Nat) : Nat := 0x300000C + 0x4000 * u
def Reg.linkCtl (u : Nat) : Nat := 0x3000010 + 0x4000 * u
def Reg.linkPeer (u : Nat) : Nat := 0x3000014 + 0x4000 * u
def Reg.linkLatency (u : Nat) : Nat := 0x3000018 + 0x4000 * u
def Reg.laneMargin (u : Nat) : Nat := 0x300001C + 0x4000 * u
def Reg.cascadeCoord : Nat := 0x3080000
def Reg.cascadeInfo : Nat := 0x3080004
def Reg.cascadeCtl : Nat := 0x3080008
def Reg.masterCoord : Nat := 0x308000C
def Reg.syncStatus : Nat := 0x3080010
def Reg.slowRecord : Nat := 0x3080014
def Reg.lostCoord : Nat := 0x3080018
def Reg.cascadeCmd : Nat := 0x308001C
def Reg.forgCtl : Nat := 0x3800000
def Reg.forgStatus : Nat := 0x3800004
def Reg.forgErrBaseLo : Nat := 0x3800008
def Reg.forgErrBaseHi : Nat := 0x380000C
def Reg.forgErrCtl : Nat := 0x3800010
def Reg.forgErrHead : Nat := 0x3800014
def Reg.forgReqBaseLo : Nat := 0x3800018
def Reg.forgReqBaseHi : Nat := 0x380001C
def Reg.forgReqHead : Nat := 0x3800020
def Reg.forgLanes (u : Nat) : Nat := 0x3801000 + 0x1000 * u
def Reg.forgSamplesLo (u : Nat) : Nat := 0x3801008 + 0x1000 * u
def Reg.forgSamplesHi (u : Nat) : Nat := 0x380100C + 0x1000 * u
def Reg.forgRefused (u : Nat) : Nat := 0x3801010 + 0x1000 * u
def Reg.forgCache (u : Nat) : Nat := 0x3801014 + 0x1000 * u
def Reg.forgQueue (u : Nat) : Nat := 0x3801018 + 0x1000 * u
def Reg.errStickyClass : Nat := 0x3C00000
def Reg.errStickySub : Nat := 0x3C00004
def Reg.errCntCe : Nat := 0x3C00008
def Reg.errCntRp : Nat := 0x3C0000C
def Reg.errCntFn : Nat := 0x3C00010
def Reg.errCntDl : Nat := 0x3C00014
def Reg.replayCntLo : Nat := 0x3C00018
def Reg.replayCntHi : Nat := 0x3C0001C
def Reg.ownReplays : Nat := 0x3C00020
def Reg.errLogHead : Nat := 0x3C00024
def Reg.errCntFt : Nat := 0x3C00028
def Reg.errCntRef : Nat := 0x3C0002C
def Reg.ferrCode : Nat := 0x3C00040
def Reg.ferrUnit : Nat := 0x3C00044
def Reg.ferrBeatLo : Nat := 0x3C00048
def Reg.ferrBeatHi : Nat := 0x3C0004C
def Reg.ferrInfo0 : Nat := 0x3C00050
def Reg.ferrInfo1 : Nat := 0x3C00054
def Reg.testCtl : Nat := 0x3C00100
def Reg.testStatus : Nat := 0x3C00104
def Reg.errLog (u : Nat) (v : Nat) : Nat := 0x3C01000 + 0x10 * u + 0x4 * v
def Reg.pwrCtl : Nat := 0x3E00000
def Reg.pwrCapHost : Nat := 0x3E00004
def Reg.pwrCapMgmt : Nat := 0x3E00008
def Reg.pwrNow : Nat := 0x3E0000C
def Reg.energyLo : Nat := 0x3E00010
def Reg.energyHi : Nat := 0x3E00014
def Reg.throttle : Nat := 0x3E00018
def Reg.xingStatus : Nat := 0x3E0001C
def Reg.xingFlush : Nat := 0x3E00020
def Reg.wakeCnt : Nat := 0x3E00024
def Reg.rstCtl : Nat := 0x3E00028
def Reg.temp (u : Nat) : Nat := 0x3E00100 + 0x4 * u
def Reg.eszStatus : Nat := 0x3F00000
def Reg.eszVer : Nat := 0x3F00004
def Reg.eszCmd : Nat := 0x3F00008
def Reg.eszResult : Nat := 0x3F0000C
def Reg.eszArgLo : Nat := 0x3F00010
def Reg.eszArgHi : Nat := 0x3F00014
def Reg.eszDevidLo : Nat := 0x3F00018
def Reg.eszDevidHi : Nat := 0x3F0001C
def Reg.eszNonce (u : Nat) : Nat := 0x3F00020 + 0x4 * u

/-- MSI-X table dword `w` (0 address low, 1 address high, 2 data, 3 control) of vector `v` of port `p` (R497). -/
def Reg.msix (p v w : Nat) : Nat := 0x210000 + 0x1000 * p + 16 * v + 4 * w

/-- Pending-bit array dword `w` of port `p` (R497). -/
def Reg.msixPba (p w : Nat) : Nat := 0x210800 + 0x1000 * p + 4 * w

/-- Dword `w` of the CXL component registers of port `p` (R481). -/
def Reg.cxlComp (p w : Nat) : Nat := 0x220000 + 0x10000 * p + 4 * w

/-- Global, beat and fingering, and host blocks (Table 16.3). -/
def regRowsHost : List RegRow := [
  { base := 0x0, reset := 0x7A241F9C },
  { base := 0x4 },
  { base := 0x8 },
  { base := 0xC },
  { base := 0x10, reset := 0x1 },
  { base := 0x14 },
  { base := 0x18, rw := 0xFFFFFFFF },
  { base := 0x100000 },
  { base := 0x100004 },
  { base := 0x100008 },
  { base := 0x10000C },
  { base := 0x100010, reset := 0x7FFFFFFF },
  { base := 0x100014 },
  { base := 0x100020, locked := 0xFFFFFFF, lock := .slotA },
  { base := 0x100024, locked := 0xFFFFFFF, lock := .slotB },
  { base := 0x100028 },
  { base := 0x10002C },
  { base := 0x100030, rw := 0xFFFFF001 },
  { base := 0x100034, rw := 0xFFFFFFFF },
  { base := 0x100038, rw := 0xFFFFF001 },
  { base := 0x10003C, rw := 0xFFFFFFFF },
  { base := 0x200000, reset := 0x3, rw := 0x2 },
  { base := 0x200004, reset := 0x2, rw := 0x2 },
  { base := 0x200008, w1c := 0x3800 },
  { base := 0x20000C, w1c := 0x3800 },
  { base := 0x200010, reset := 0x1, rc := 0xFFFF0000 },
  { base := 0x200014 },
  { base := 0x200018, locked := 0xFFFFFFFF, lock := .bias },
  { base := 0x20001C, locked := 0x7FFFFFF, lock := .hdm },
  { base := 0x200020, rw := 0xFFFFF },
  { base := 0x200024, rw := 0xFFFFF },
  { base := 0x200030, rw := 0xFFFFF001 },
  { base := 0x200034, rw := 0xFFFFFFFF },
  { base := 0x200038, rw := 0xFFFFF001 },
  { base := 0x20003C, rw := 0xFFFFFFFF },
  { base := 0x200100, n1 := 12, s1 := 0x4, w1c := 0x30, rc := 0xFFC00000 },
  { base := 0x200130, n1 := 12, s1 := 0x4, reset := 0x4, w1c := 0x30, rc := 0xFFC00000 },
  { base := 0x210000, n1 := 2, s1 := 0x1000, n2 := 128, s2 := 0x10, rw := 0xFFFFFFFC },
  { base := 0x210004, n1 := 2, s1 := 0x1000, n2 := 128, s2 := 0x10, rw := 0xFFFFFFFF },
  { base := 0x210008, n1 := 2, s1 := 0x1000, n2 := 128, s2 := 0x10, rw := 0xFFFFFFFF },
  { base := 0x21000C, n1 := 2, s1 := 0x1000, n2 := 128, s2 := 0x10, reset := 1, rw := 1 },
  { base := 0x210800, n1 := 2, s1 := 0x1000, n2 := 4, s2 := 4 },
  { base := 0x220000, n1 := 2, s1 := 0x10000, n2 := 1024, s2 := 4, rw := 0xFFFFFFFF } ]

/-- Hubs, cores and CORE_MAP (Table 16.4). -/
def regRowsHub : List RegRow := [
  { base := 0x400000, n1 := 2, s1 := 0x100000 },
  { base := 0x400004, n1 := 2, s1 := 0x100000 },
  { base := 0x400008, n1 := 2, s1 := 0x100000 },
  { base := 0x40000C, n1 := 2, s1 := 0x100000, w1c := 0x400000 },
  { base := 0x400010, n1 := 2, s1 := 0x100000 },
  { base := 0x400018, n1 := 2, s1 := 0x100000 },
  { base := 0x40001C, n1 := 2, s1 := 0x100000 },
  { base := 0x400020, n1 := 2, s1 := 0x100000 },
  { base := 0x400024, n1 := 2, s1 := 0x100000 },
  { base := 0x400100, n1 := 2, s1 := 0x100000, n2 := 11, s2 := 0x8 },
  { base := 0x400104, n1 := 2, s1 := 0x100000, n2 := 11, s2 := 0x8 },
  { base := 0x401000, n1 := 2, s1 := 0x100000, n2 := 120, s2 := 0x4, reset := 0x7F000000, w1c := 0x80, rc := 0xFFFF00 },
  { base := 0x1000000, n1 := 68, s1 := 0x10000, reset := 0xFFFC0 },
  { base := 0x1000004, n1 := 68, s1 := 0x10000, w1c := 0xFFF },
  { base := 0x1000008, n1 := 68, s1 := 0x10000 },
  { base := 0x100000C, n1 := 68, s1 := 0x10000, w1c := 0x80000 },
  { base := 0x1000010, n1 := 68, s1 := 0x10000, w1c := 0x810000, rc := 0xFFFF },
  { base := 0x1000014, n1 := 68, s1 := 0x10000, w1c := 0x3 },
  { base := 0x1000018, n1 := 68, s1 := 0x10000 },
  { base := 0x100001C, n1 := 68, s1 := 0x10000 },
  { base := 0x1F00000, n1 := 64, s1 := 0x4, reset := 0x7F },
  { base := 0x1F00100, n1 := 4, s1 := 0x4, reset := 0xFFFF } ]

/-- Pile blocks (Table 16.5). -/
def regRowsPile : List RegRow := [
  { base := 0x2000000, n1 := 16, s1 := 0x40000, w1c := 0x1000 },
  { base := 0x2000004, n1 := 16, s1 := 0x40000, rc := 0xFFFFFFFF },
  { base := 0x2000008, n1 := 16, s1 := 0x40000, reset := 0x1F },
  { base := 0x200000C, n1 := 16, s1 := 0x40000, w1c := 0x80000000 },
  { base := 0x2000010, n1 := 16, s1 := 0x40000, w1c := 0x30000, rc := 0xFFFF },
  { base := 0x2000014, n1 := 16, s1 := 0x40000, rc := 0x1FFFE0 },
  { base := 0x2000018, n1 := 16, s1 := 0x40000, w1c := 0x400000 },
  { base := 0x200001C, n1 := 16, s1 := 0x40000 },
  { base := 0x2000100, n1 := 16, s1 := 0x40000 },
  { base := 0x2000104, n1 := 16, s1 := 0x40000 },
  { base := 0x2000108, n1 := 16, s1 := 0x40000 },
  { base := 0x200010C, n1 := 16, s1 := 0x40000 },
  { base := 0x2000110, n1 := 16, s1 := 0x40000, w1c := 0x3 },
  { base := 0x2000114, n1 := 16, s1 := 0x40000 },
  { base := 0x2000118, n1 := 16, s1 := 0x40000 },
  { base := 0x200011C, n1 := 16, s1 := 0x40000 },
  { base := 0x2000120, n1 := 16, s1 := 0x40000 },
  { base := 0x2000124, n1 := 16, s1 := 0x40000 },
  { base := 0x2000128, n1 := 16, s1 := 0x40000, rc := 0xFFFFFFFF },
  { base := 0x200012C, n1 := 16, s1 := 0x40000 },
  { base := 0x2000200, n1 := 4, s1 := 0x4 },
  { base := 0x2000210, locked := 0xFFFFF000, lock := .run },
  { base := 0x2000214, locked := 0xFFFF, lock := .run },
  { base := 0x2000218, locked := 0x1FF, lock := .run },
  { base := 0x200021C, rc := 0xFFFF000 } ]

/-- Link, cascade and forager blocks (Tables 16.5, 16.6). -/
def regRowsLink : List RegRow := [
  { base := 0x3000000, n1 := 32, s1 := 0x4000, w1c := 0xC00 },
  { base := 0x3000004, n1 := 32, s1 := 0x4000, w1c := 0x200 },
  { base := 0x3000008, n1 := 32, s1 := 0x4000, rc := 0xFFFFFFFF },
  { base := 0x300000C, n1 := 32, s1 := 0x4000 },
  { base := 0x3000010, n1 := 32, s1 := 0x4000 },
  { base := 0x3000014, n1 := 32, s1 := 0x4000, rc := 0x7FF80000 },
  { base := 0x3000018, n1 := 32, s1 := 0x4000 },
  { base := 0x300001C, n1 := 32, s1 := 0x4000 },
  { base := 0x3080000, locked := 0xC0FFFFFF, lock := .coord },
  { base := 0x3080004 },
  { base := 0x3080008, reset := 0x1, locked := 0xFFF1, lock := .run },
  { base := 0x308000C },
  { base := 0x3080010, w1c := 0x600000 },
  { base := 0x3080014 },
  { base := 0x3080018 },
  { base := 0x308001C },
  { base := 0x3800000, rw := 0x1, locked := 0x2, lock := .run },
  { base := 0x3800004, w1c := 0x8 },
  { base := 0x3800008, locked := 0xFFFFFFC0, lock := .run },
  { base := 0x380000C, locked := 0xFFFF, lock := .run },
  { base := 0x3800010, locked := 0xFFFFFFFF, lock := .run },
  { base := 0x3800014 },
  { base := 0x3800018, locked := 0xFFFFFFC0, lock := .run },
  { base := 0x380001C, locked := 0xFFFF, lock := .run },
  { base := 0x3800020 },
  { base := 0x3801000, n1 := 2, s1 := 0x1000, w1c := 0x10000 },
  { base := 0x3801008, n1 := 2, s1 := 0x1000 },
  { base := 0x380100C, n1 := 2, s1 := 0x1000 },
  { base := 0x3801010, n1 := 2, s1 := 0x1000, rc := 0xFFFFFFFF },
  { base := 0x3801014, n1 := 2, s1 := 0x1000, rc := 0xFFFFFFFF },
  { base := 0x3801018, n1 := 2, s1 := 0x1000 } ]

/-- Error log, power and Eszoja blocks (Table 16.6). -/
def regRowsLog : List RegRow := [
  { base := 0x3C00000, w1c := 0x31F },
  { base := 0x3C00004, w1c := 0xFFE },
  { base := 0x3C00008, rc := 0xFFFFFFFF },
  { base := 0x3C0000C, rc := 0xFFFFFFFF },
  { base := 0x3C00010, rc := 0xFFFFFFFF },
  { base := 0x3C00014, rc := 0xFFFFFFFF },
  { base := 0x3C00018 },
  { base := 0x3C0001C },
  { base := 0x3C00020 },
  { base := 0x3C00024 },
  { base := 0x3C00028, rc := 0xFFFFFFFF },
  { base := 0x3C0002C, rc := 0xFFFFFFFF },
  { base := 0x3C00040, w1c := 0xC0000000 },
  { base := 0x3C00044 },
  { base := 0x3C00048 },
  { base := 0x3C0004C },
  { base := 0x3C00050 },
  { base := 0x3C00054 },
  { base := 0x3C00100, reset := 0x3C403E8F },
  { base := 0x3C00104, reset := 0x7F0, w1c := 0x10000000 },
  { base := 0x3C01000, n1 := 256, s1 := 0x10, n2 := 4, s2 := 0x4 },
  { base := 0x3E00000, reset := 0x2, rw := 0x2 },
  { base := 0x3E00004, reset := 0x7D0 },
  { base := 0x3E00008, reset := 0x7D0 },
  { base := 0x3E0000C },
  { base := 0x3E00010 },
  { base := 0x3E00014 },
  { base := 0x3E00018, w1c := 0x200000 },
  { base := 0x3E0001C, w1c := 0x7 },
  { base := 0x3E00020, rc := 0xFFFF },
  { base := 0x3E00024, rc := 0xFFFF },
  { base := 0x3E00028 },
  { base := 0x3E00100, n1 := 22, s1 := 0x4, w1c := 0x400, rc := 0x7F800 },
  { base := 0x3F00000 },
  { base := 0x3F00004 },
  { base := 0x3F00008 },
  { base := 0x3F0000C },
  { base := 0x3F00010, rw := 0xFFFFFFFF },
  { base := 0x3F00014, rw := 0xFFFF },
  { base := 0x3F00018 },
  { base := 0x3F0001C },
  { base := 0x3F00020, n1 := 8, s1 := 0x4 } ]

/-- Every register of the map (logs 40, 45). -/
def regRows : List RegRow := regRowsHost ++ regRowsHub ++ regRowsPile ++ regRowsLink ++ regRowsLog

/-- The row holds the register at this offset. -/
def RegRow.hit (r : RegRow) (off : Nat) : Bool :=
  if off < r.base then false
  else
    let d := off - r.base
    let i := if r.s1 = 0 then 0 else d / r.s1
    let e := if r.s1 = 0 then d else d % r.s1
    let j := if r.s2 = 0 then 0 else e / r.s2
    let f := if r.s2 = 0 then e else e % r.s2
    decide (i < r.n1) && decide (j < r.n2) && decide (f = 0)

/-- The offset under which a register's value is kept: the device-wide registers at pile-block offsets 0x200 to 0x21C
are one register in every pile block (R370, R619). -/
def regHome (off : Nat) : Nat :=
  let b := off % 0x40000
  if decide (0x2000000 ≤ off) && decide (off < 0x2400000) && decide (0x200 ≤ b) && decide (b < 0x220) then 0x2000000 + b
  else off

/-- The row of a register offset, `none` for a reserved offset (R617). -/
def regRow? (off : Nat) : Option RegRow := regRows.find? (·.hit (regHome off))

/-- The reset value of the register at this offset; 0 for a reserved offset. -/
def regReset (off : Nat) : Word :=
  match regRow? off with
  | some r => BitVec.ofNat 32 r.reset
  | none => 0

/-- Home offsets of the pairs whose LO read latches the HI half (R620, Table 16.2). -/
def isLoHome (off : Nat) : Bool :=
  [0x100008, 0x400018, 0x400020, 0x500018, 0x500020, 0x3801008, 0x3802008, 0x3C00018, 0x3C00048, 0x3E00010,
    0x3F00018, 0x100030, 0x100038, 0x200030, 0x200038, 0x2000210, 0x3800008, 0x3800018, 0x3F00010].contains off
  || (decide (0x1000000 ≤ off) && decide (off < 0x1440000) && decide (off % 0x10000 = 0x18))
  || (decide (0x2000000 ≤ off) && decide (off < 0x2400000) && decide (off % 0x40000 = 0x120))

/-- The register at this offset is the LO register of a pair, through whichever block it is read (R370). -/
def isLoRead (off : Nat) : Bool := isLoHome (regHome off)

end Sys2Proof.Machine
end

