-- ==== Sys2Proof/Machine/Ops.lean ====
section
/-! DEFINITION. The named operations over sparse state, register fields, memory bytes and the outward traffic. -/

namespace Sys2Proof.Machine

open Sys2Proof

/-! ### Sparse state -/

/-- The value stored under a key. -/
def getKey {α : Type} : List (Nat × α) → Nat → Option α
  | [], _ => none
  | (j, v) :: rest, k => if j = k then some v else getKey rest k

/-- Store a value under a key, keys rising. -/
def putKey {α : Type} : List (Nat × α) → Nat → α → List (Nat × α)
  | [], k, v => [(k, v)]
  | (j, w) :: rest, k, v =>
    if k < j then (k, v) :: (j, w) :: rest
    else if k = j then (k, v) :: rest
    else (j, w) :: putKey rest k v

/-- Remove a key. -/
def delKey {α : Type} : List (Nat × α) → Nat → List (Nat × α)
  | [], _ => []
  | (j, w) :: rest, k => if j = k then delKey rest k else (j, w) :: delKey rest k

/-- Replace the first element that satisfies the test. -/
def setFirst {α : Type} (p : α → Bool) (f : α → α) : List α → List α
  | [] => []
  | x :: xs => if p x then f x :: xs else x :: setFirst p f xs

/-- Replace element `i`. -/
def setAt {α : Type} : List α → Nat → α → List α
  | [], _, _ => []
  | _ :: xs, 0, v => v :: xs
  | x :: xs, i + 1, v => x :: setAt xs i v

/-! ### Words and fields -/

/-- Bits [hi:lo] of a word, as a number. -/
def bits (w : Word) (hi lo : Nat) : Nat := (w.toNat >>> lo) % 2 ^ (hi - lo + 1)

/-- A word with bits [hi:lo] replaced. -/
def withBits (w : Word) (hi lo v : Nat) : Word :=
  let n := 2 ^ (hi - lo + 1)
  BitVec.ofNat 32 (w.toNat - (w.toNat >>> lo) % n * 2 ^ lo + v % n * 2 ^ lo)

/-- Little-endian number of a byte string (R11). -/
def leNat : Bytes → Nat
  | [] => 0
  | b :: bs => b.toNat + 256 * leNat bs

/-- The `n` low bytes of a number, lowest first. -/
def leBytes : Nat → Nat → Bytes
  | 0, _ => []
  | n + 1, v => BitVec.ofNat 8 v :: leBytes n (v / 256)

/-- The field of `n` bytes at an offset of a byte string; bytes past its end read as 0. -/
def fieldAt (b : Bytes) (off n : Nat) : Nat := leNat ((b.drop off).take n)

/-- The 32-bit word at an offset of a byte string. -/
def wordAt (b : Bytes) (off : Nat) : Word := BitVec.ofNat 32 (fieldAt b off 4)

/-- `n` zero bytes. -/
def zeroBytes (n : Nat) : Bytes := List.replicate n 0

/-- A number as a two's-complement value of 32 bits. -/
def int32 (i : Int) : Word := BitVec.ofInt 32 i

/-! ### Registers -/

/-- The register's current value. -/
def State.reg (s : State) (off : Nat) : Word :=
  match getKey s.regs (regHome off) with
  | some v => v
  | none => regReset (regHome off)

/-- Set a register from inside the device. -/
def State.setReg (s : State) (off : Nat) (v : Word) : State :=
  { s with regs := putKey s.regs (regHome off) v }

/-- Field [hi:lo] of a register. -/
def State.fld (s : State) (off hi lo : Nat) : Nat := bits (s.reg off) hi lo

/-- Set field [hi:lo] of a register from inside the device. -/
def State.setFld (s : State) (off hi lo v : Nat) : State := s.setReg off (withBits (s.reg off) hi lo v)

/-- A one-bit field. -/
def State.bit (s : State) (off i : Nat) : Bool := decide (s.fld off i i = 1)

/-- Set a one-bit field. -/
def State.setBit (s : State) (off i : Nat) (b : Bool) : State := s.setFld off i i (if b then 1 else 0)

/-- Add to a counter field that saturates. -/
def State.bumpSat (s : State) (off hi lo n : Nat) : State :=
  s.setFld off hi lo (min (s.fld off hi lo + n) (2 ^ (hi - lo + 1) - 1))

/-- Add to a counter field that wraps. -/
def State.bumpWrap (s : State) (off hi lo n : Nat) : State := s.setFld off hi lo (s.fld off hi lo + n)

/-- The 64-bit quantity of a LO/HI pair. -/
def State.pair (s : State) (lo : Nat) : Nat := (s.reg lo).toNat + 2 ^ 32 * (s.reg (lo + 4)).toNat

/-- Set a LO/HI pair from inside the device. -/
def State.setPair (s : State) (lo v : Nat) : State :=
  (s.setReg lo (BitVec.ofNat 32 v)).setReg (lo + 4) (BitVec.ofNat 32 (v / 2 ^ 32))

/-- Add to the 64-bit count of a pair; it wraps at 2^64. -/
def State.bumpPair (s : State) (lo n : Nat) : State := s.setPair lo (s.pair lo + n)

/-- BEAT_CTL RUN. -/
def State.running (s : State) : Bool := s.bit Reg.beatCtl 2

/-- DEV_STATE STATE (Table 12.11). -/
def State.devState (s : State) : Nat := s.fld Reg.devState 3 0

/-! ### Memory -/

/-- The stamp of the undefined range that a key lies in. -/
def undefStamp : List UndefRange → Nat → Option Nat
  | [], _ => none
  | r :: rest, k => if r.lo ≤ k ∧ k < r.hi then some r.stamp else undefStamp rest k

/-- A byte of memory: the written byte, a free value in an undefined range (log 5), else 0 (log 4). -/
def Mem.read (m : Mem) (k : Nat) : Byte :=
  match getKey m.cells k with
  | some v => v
  | none =>
    match undefStamp m.undef k with
    | some st => Config.freeByte st k
    | none => 0

/-- The ranges without one key. -/
def cutKey (k : Nat) : List UndefRange → List UndefRange
  | [] => []
  | r :: rest =>
    if r.lo ≤ k ∧ k < r.hi then
      (if r.lo < k then [{ r with hi := k }] else []) ++ (if k + 1 < r.hi then [{ r with lo := k + 1 }] else [])
        ++ cutKey k rest
    else r :: cutKey k rest

/-- Write a byte: the entry goes when the byte is 0, what an unlisted byte reads as. -/
def Mem.write (m : Mem) (k : Nat) (v : Byte) : Mem :=
  { cells := if v = 0 then delKey m.cells k else putKey m.cells k v, undef := cutKey k m.undef }

/-- `n` bytes from a key on. -/
def Mem.readN (m : Mem) (k n : Nat) : Bytes := (List.range n).map fun i => m.read (k + i)

/-- Write a byte string from a key on. -/
def Mem.writeN (m : Mem) (k : Nat) : Bytes → Mem
  | [] => m
  | b :: bs => (m.write k b).writeN (k + 1) bs

/-- The ranges without the keys from `lo` to `hi`. -/
def cutRange (lo hi : Nat) : List UndefRange → List UndefRange
  | [] => []
  | r :: rest =>
    (if r.lo < min r.hi lo then [{ r with hi := min r.hi lo }] else [])
      ++ (if max r.lo hi < r.hi then [{ r with lo := max r.lo hi }] else []) ++ cutRange lo hi rest

/-- Make the bytes of a range undefined: they read as free values until written (log 5). -/
def Mem.undefine (m : Mem) (lo hi stamp : Nat) : Mem :=
  if lo < hi then
    { cells := m.cells.filter fun c => decide (c.1 < lo) || decide (hi ≤ c.1)
      undef := { lo := lo, hi := hi, stamp := stamp } :: cutRange lo hi m.undef }
  else m

/-- Make the bytes of a range zero. -/
def Mem.clear (m : Mem) (lo hi : Nat) : Mem :=
  { cells := m.cells.filter fun c => decide (c.1 < lo) || decide (hi ≤ c.1), undef := cutRange lo hi m.undef }

/-- The canonical form: keys strictly rising, no byte that an unlisted key reads as. -/
def Mem.wfCells : List Host.Cell → Bool
  | [] => true
  | [c] => decide (c.2 ≠ 0)
  | c :: d :: rest => decide (c.2 ≠ 0) && decide (c.1 < d.1) && Mem.wfCells (d :: rest)

/-- A memory is in canonical form. -/
def Mem.wf (m : Mem) : Bool := Mem.wfCells m.cells

/-! ### Outward traffic, time and free values -/

/-- Send something outwards (log 42). -/
def State.emit (s : State) (o : Out) : State := { s with out := s.out ++ [o] }

/-- The instants that commands name only advance (log 3). -/
def State.at (s : State) (t : Nat) : State := { s with now := max s.now t }

/-- Draw the stamp of a fresh free value (log 85). -/
def State.draw (s : State) : Nat × State := (s.free, { s with free := s.free + 1 })

/-- A host port's own state. -/
def State.hport (s : State) : HPort → HostPort
  | .a => s.host.portA
  | .b => s.host.portB

/-- Index of a port: 0 A, 1 B. -/
def portIdx : HPort → Nat
  | .a => 0
  | .b => 1

/-- The other port. -/
def otherPort : HPort → HPort
  | .a => .b
  | .b => .a

/-- Port of an index. -/
def portOf (i : Nat) : HPort := if i = 0 then .a else .b

/-- A fingering slot's state. -/
def State.slot (s : State) : FSlot → SlotSt
  | .a => s.slotA
  | .b => s.slotB

/-- Replace a fingering slot's state. -/
def State.setSlot (s : State) (f : FSlot) (x : SlotSt) : State :=
  match f with
  | .a => { s with slotA := x }
  | .b => { s with slotB := x }

/-- The other slot. -/
def otherSlot : FSlot → FSlot
  | .a => .b
  | .b => .a

/-- Slot number: 0 A, 1 B. -/
def slotIdx : FSlot → Nat
  | .a => 0
  | .b => 1

/-- Raise an MSI-X vector on a port (R498): a message when the function has MSI-X enabled and the entry is unmasked,
else its pending bit. -/
def State.msix (s : State) (p : HPort) (v : Nat) : State :=
  let i := portIdx p
  if (s.hport p).msixOn && !(s.bit (Reg.msix i v 3) 0) then s.emit (.msix p v)
  else s.setBit (Reg.msixPba i (v / 32)) (v % 32) true

/-- Raise an MSI-X vector on both ports. -/
def State.msixBoth (s : State) (v : Nat) : State := (s.msix .a v).msix .b v

/-- Set DEV_STATE STATE, with MSI-X vector 10 when it changes (Table 11.10). -/
def State.setDevState (s : State) (n : Nat) : State :=
  if s.devState = n then s else (s.setFld Reg.devState 3 0 n).msixBoth 10

end Sys2Proof.Machine
end

