-- ==== Sys2Proof/Machine/Faults.lean ====
section
/-! DEFINITION. The error log and what each error class does (13_faults_and_field_test): logging, the FAULT mark of
the running beat, power states, presence and the common capabilities. Nothing here ends a run: Stop.lean does. -/

namespace Sys2Proof.Machine

open Sys2Proof

/-! ### Plan units and windows -/

/-- Number of a plan unit in the unit store. -/
def unitKey (u : UnitId) : Nat := u.cls * 1024 + u.idx

/-- Rest power state of a plan unit's class: the deepest state it allows (R502, R507). -/
def deepest (cls : Nat) : Nat :=
  if cls = 1 then 3 else if cls = 2 then 2 else if cls = 3 then 3 else if cls = 4 then 3 else if cls = 5 then 0
  else 2

/-- A plan unit that nothing has touched: it has run no slot and rests in its deepest allowed state (R507). -/
def UnitSt.idle (cls : Nat) : UnitSt := { next := 0, run := none, fenced := false, power := deepest cls }

/-- The state of a plan unit. -/
def State.unit (s : State) (u : UnitId) : UnitSt := (getKey s.units (unitKey u)).getD (UnitSt.idle u.cls)

/-- Replace the state of a plan unit. -/
def State.setUnit (s : State) (u : UnitId) (x : UnitSt) : State := { s with units := putKey s.units (unitKey u) x }

/-- Array `a` of logical core `l` as a plan unit (Table 2.25). -/
def arrayUnit (l a : Nat) : UnitId := { cls := 1, idx := 3 * l + a }

/-- The vector engine of logical core `l` as a plan unit. -/
def vectorUnit (l : Nat) : UnitId := { cls := 2, idx := l }

/-- The slot that is RUNNING. -/
def State.runSlot (s : State) : Option FSlot :=
  if s.slotA.state = 3 then some .a else if s.slotB.state = 3 then some .b else none

/-- The running fingering. -/
def State.fing (s : State) : Option Fing :=
  match s.runSlot with
  | some f => (s.slot f).fing
  | none => none

/-- The plan set that the running window follows: the takeover plan during a takeover (R307, R308). -/
def State.plan (s : State) : Option PlanSet :=
  match s.fing with
  | some f => some (if s.casc.takeover then f.takeover else f.own)
  | none => none

/-- The ROUTE_TABLE of the plan that the run follows. -/
def State.route (s : State) : Option Route :=
  match s.plan with
  | some p => p.route
  | none => none

/-- Coordinate as a packed number, x + 256 y + 65536 z. -/
def packCoord (c : Coord) : Nat := c.x + 256 * c.y + 65536 * c.z

/-- Coordinate of a packed number. -/
def unpackCoord (n : Nat) : Coord := { x := n % 256, y := n / 256 % 256, z := n / 65536 % 256 }

/-- Coordinate as the 12-bit field of the cascade registers: four bits each of x, y and z. -/
def coord12 (c : Coord) : Nat := c.x % 16 + 16 * (c.y % 16) + 256 * (c.z % 16)

/-- Coordinate of a 12-bit field. -/
def ofCoord12 (n : Nat) : Coord := { x := n % 16, y := n / 16 % 16, z := n / 256 % 16 }

/-- This device's logical coordinate (CASCADE_COORD). -/
def State.self (s : State) : Coord := unpackCoord (s.fld Reg.cascadeCoord 23 0)

/-! ### The log -/

/-- One event: code, class (Table 13.1), unit, and its place in the plan (log 60). -/
structure Ev where
  code : Nat
  cls : Nat
  unit : UnitCode := { typ := 0, idx := 0, sub := 0 }
  /-- plan position and slot index when the event arises in a slot (R554) -/
  place : Option (Nat × Nat) := none
  /-- window that the slot belongs to -/
  beat : Option Nat := none
  info0 : Option Nat := none
  info1 : Nat := 0
deriving DecidableEq, Repr

/-- Unit word of a log entry (Table 13.19). -/
def unitWord (u : UnitCode) : Word := BitVec.ofNat 32 (u.typ % 256 + 256 * (u.idx % 65536) + 16777216 * (u.sub % 256))

/-- INFO0 of an event (R554) (log 61). -/
def Ev.word0 (e : Ev) : Word :=
  match e.info0 with
  | some v => BitVec.ofNat 32 v
  | none =>
    match e.place with
    | some (pos, slot) => BitVec.ofNat 32 (pos * 65536 + slot)
    | none => 0xFFFFFFFF

/-- Counter register of a class: ERR_CNT_* (Table 13.14). -/
def classCounter (cls : Nat) : Nat :=
  if cls = 0 then Reg.errCntCe else if cls = 1 then Reg.errCntRp else if cls = 2 then Reg.errCntFn
  else if cls = 3 then Reg.errCntDl else if cls = 4 then Reg.errCntFt else Reg.errCntRef

/-- MSI-X vector 3 to 7 of a class, at most once per beat for each port (R498); refusals have none. -/
def State.msixClass (s : State) (cls : Nat) : State :=
  if 4 < cls then s
  else
    let one (s : State) (p : HPort) : State :=
      let key := portIdx p * 8 + cls
      if s.beat.win.isSome && s.beat.onceMsix.contains key then s
      else
        let s := s.msix p (3 + cls)
        { s with beat := { s.beat with onceMsix := key :: s.beat.onceMsix } }
    one (one s .a) .b

/-- Load the first-error capture (R552) (log 61). -/
def State.capture (s : State) (e : Ev) (overwrote : Bool) : State :=
  -- MORE is sticky: one that software has not cleared stays (R18)
  let more := overwrote || s.bit Reg.ferrCode 30
  let code := e.code % 65536 + 65536 * (e.cls % 8) + (if overwrote then 0x20000000 else 0)
    + (if more then 0x40000000 else 0) + 0x80000000
  let s := (s.setReg Reg.ferrCode (BitVec.ofNat 32 code)).setReg Reg.ferrUnit (unitWord e.unit)
  let s := s.setPair Reg.ferrBeatLo (s.pair Reg.beatCountLo)
  (s.setReg Reg.ferrInfo0 e.word0).setReg Reg.ferrInfo1 (BitVec.ofNat 32 e.info1)

/-- The capture rules of R552 for an event of class RP, FN, DL, FT or a refusal. -/
def State.ferr (s : State) (e : Ev) : State :=
  if e.cls = 0 then s
  else if s.bit Reg.ferrCode 31 then
    if e.cls = 4 && !(decide (s.fld Reg.ferrCode 18 16 = 4)) then s.capture e true else s.setBit Reg.ferrCode 30 true
  else s.capture e false

/-- One entry of the error log with all that R550 does in the same cycle (log 61). -/
def State.logEntry (s : State) (e : Ev) : State :=
  let head := (s.reg Reg.errLogHead).toNat
  let i := head % 256
  let s := s.setReg (Reg.errLog i 0) (BitVec.ofNat 32 (e.code % 65536 + 65536 * (e.cls % 8)))
  let s := s.setReg (Reg.errLog i 1) (unitWord e.unit)
  let s := s.setReg (Reg.errLog i 2) (s.reg Reg.beatCountLo)
  let s := s.setReg (Reg.errLog i 3) e.word0
  let s := s.setReg Reg.errLogHead (BitVec.ofNat 32 (head + 1))
  let s := s.setBit Reg.errStickyClass (if e.cls = 7 then 8 else e.cls) true
  let s := if 256 ≤ head then s.setBit Reg.errStickyClass 9 true else s
  let s := if 1 ≤ e.code / 4096 ∧ e.code / 4096 ≤ 11 then s.setBit Reg.errStickySub (e.code / 4096) true else s
  let s := s.bumpSat (classCounter e.cls) 31 0 1
  (s.ferr e).msixClass e.cls

/-- ERR_SUMMARY, computed from its sources at every read (R622). -/
def State.errSummary (s : State) : Word :=
  let head := (s.reg Reg.errLogHead).toNat
  let last := if head = 0 then 0 else s.fld (Reg.errLog ((head + 255) % 256) 0) 15 0
  let testing := !(decide (s.fld Reg.testStatus 3 0 = 0)) || s.bit Reg.testStatus 27
  BitVec.ofNat 32 (s.fld Reg.errStickyClass 4 0 + (if s.bit Reg.ferrCode 31 then 32 else 0)
    + (if testing then 64 else 0) + 65536 * last)

/-- UPD_STATUS LAST_CODE follows the codes of Table 6.11. -/
def State.updCode (s : State) (n code : Nat) : State := s.setFld (Reg.updStatus n) 31 16 code

/-- FORG_STATUS LAST_CODE follows the codes of Table 9.10. -/
def State.forgCode (s : State) (code : Nat) : State := s.setFld Reg.forgStatus 31 16 code

/-! ### FAULT in the beat report (R93, R539) -/

/-- Non-posted requests of the copy engines outstanding on a port (log 72). -/
def State.outstanding (s : State) (p : HPort) : Nat :=
  ((s.host.runs.filter fun r => r.port == p).map fun r => r.outstanding.length).sum

/-- PORT_STATUS of a port: OUTSTANDING counts the reads of copy engines, flushing reads of runs, movers' reads and the request
of a mailbox read that is under way (Table 11.14) (log 72). -/
def State.portStatusWord (s : State) (p : HPort) : Word :=
  let movers := (s.host.asks.filter fun (x : Nat × HPort) => x.2 == p && match (s.unit { cls := 3, idx := x.1 }).run with
    | some r => !r.ended && (r.prog == 1 || r.prog == 2)
    | none => false).length
  -- a homing's requests stand under a key past the movers' own
  let homing := (s.host.asks.filter fun (x : Nat × HPort) => x.2 == p && decide (64 ≤ x.1)).length
  let flush := (s.host.flushing.filter fun f => otherPort f.port == p).length
  let mail := if decide (s.beat.reading ≠ 0) && s.host.ctrl == p then 1 else 0
  withBits (s.reg (match p with
    | .a => Reg.portStatusA
    | .b => Reg.portStatusB)) 26 16 (min 1536 (s.outstanding p + movers + homing + flush + mail))

/-- Mark a window FAULT with the unit that raised the event. -/
def Win.fail (w : Win) (u : UnitCode) : Win :=
  { w with fault := true, rpUnits := if w.rpUnits.contains u then w.rpUnits else w.rpUnits ++ [u] }

/-- Mark the window of an RP event: the window that its slot belongs to, else the running one (R89). -/
def State.markFault (s : State) (e : Ev) : State :=
  let inPrev : Bool := match e.beat with
    | some b => s.beat.prev.any fun p => p.beat == b && !p.reported
    | none => false
  if inPrev then
    { s with beat := { s.beat with prev := s.beat.prev.map fun p => if e.beat = some p.beat then p.fail e.unit else p } }
  else { s with beat := { s.beat with win := s.beat.win.map (·.fail e.unit) } }

/-- A change at a gap has lost the device: the event is logged, and its class is acted on once the changes of the gap have been made
(R90, R541, R543) (log 121). -/
def State.lose (s : State) (e : Ev) : State :=
  let s := s.logEntry e
  let old := s.test.loss
  { s with test := { s.test with loss := match old with
    | some (4, _) => old
    | _ => some (e.cls, e.code) } }

/-- Log an event of class RP and mark its window FAULT (R539). -/
def State.rp (s : State) (e : Ev) : State := (s.logEntry e).markFault e

/-! ### Units, slots and piles -/

/-- CORE_STATE PWR follows the vector engine's power state (R501). -/
def State.showPower (s : State) (u : UnitId) (p : Nat) : State :=
  if u.cls = 2 then
    let phys := s.fld (Reg.coreMap u.idx) 6 0
    if phys < 68 then s.setFld (Reg.coreState phys) 4 3 p else s
  else s

/-- Put a plan unit in a power state; a unit that goes OFF loses its own state, which for the classes that may go OFF
is nothing the manual names (Table 12.1). -/
def State.setPower (s : State) (u : UnitId) (p : Nat) : State :=
  (s.setUnit u { s.unit u with power := p }).showPower u p

/-- All plan units that the model has touched, with key and state. -/
def unitOfKey (k : Nat) : UnitId := { cls := k / 1024, idx := k % 1024 }

/-- Every plan unit ends what it runs and rests in its deepest allowed state (R507); a fenced unit stays OFF. -/
def UnitSt.rest (cls : Nat) (x : UnitSt) : UnitSt :=
  { x with run := none, next := 0, power := if x.fenced then 3 else deepest cls }

/-- Number of FING_STATUS state field bits of a slot. -/
def State.setSlotState (s : State) (f : FSlot) (n : Nat) : State :=
  let s := s.setSlot f { s.slot f with state := n }
  match f with
  | .a => s.setFld Reg.fingStatus 2 0 n
  | .b => s.setFld Reg.fingStatus 5 3 n

/-- Drop every remote-cache line (R66, R117). -/
def State.dropRdc (s : State) : State := { s with tier := { s.tier with rdc := [] } }

/-- Cancel every move that has not transferred its home (R626): its target range becomes free. -/
def State.cancelMoves (s : State) : State :=
  let s := s.setFld Reg.moveStatus 11 0 0
  { s with tier := { s.tier with moves := [], wins := [] } }

/-- Pile `n` enters or leaves self-refresh (Table 8.12): active 2, self-refresh 3, active with a die retired 4. -/
def State.pileRefresh (s : State) (n : Nat) (on : Bool) : State :=
  let st := s.fld (Reg.pileState n) 2 0
  if on then (if st = 2 ∨ st = 4 then s.setFld (Reg.pileState n) 2 0 3 else s)
  else if st = 3 then
    -- the refresh debt returns to 0 (R359)
    let s := { s with tier := { s.tier with debt := delKey s.tier.debt n } }
    (s.setFld (Reg.refreshStatus n) 4 0 0).setFld (Reg.pileState n) 2 0 (if s.bit (Reg.dieRetired n) 5 then 4 else 2)
  else s

/-- Enter HOLD (R518): dirty eDRAM lines are written back and the piles enter self-refresh. -/
def State.enterHold (s : State) : State :=
  let s := { s with tier := { s.tier with edram := s.tier.edram.map fun (x : Nat × Nat × Bool) => (x.1, x.2.1, false) } }
  let s := (List.range 16).foldl (fun s n => s.pileRefresh n true) s
  s.setDevState 5

/-- Leave HOLD for READY on an access to device memory, a LOAD or a START (R518) (log 102). -/
def State.leaveHold (s : State) : State :=
  if s.devState = 5 then ((List.range 16).foldl (fun s n => s.pileRefresh n false) s).setDevState 3 else s

/-- Move control to a port: both CTRL fields follow, and vector 8 goes to the new controlling port (R490, R498). -/
def State.setCtrl (s : State) (p : HPort) : State :=
  let s := { s with host := { s.host with ctrl := p, ctrlNext := none, failing := false, orphan := false, mailFails := 0 } }
  ((s.setBit Reg.portCtlA 0 (p == .a)).setBit Reg.portCtlB 0 (p == .b)).msix p 8

/-- The role that Table 10.3 gives a port. -/
def defaultRole (q : Nat) : Nat := if 12 ≤ q % 16 then 7 else q % 16 / 2 + 1

/-- Show the roles of a fingering's ports, or the default roles when none runs (Table 10.10). -/
def State.showRoles (s : State) (roles : Option (List Nat)) : State :=
  (List.range 32).foldl (fun (s : State) (q : Nat) =>
    s.setFld (Reg.linkState q) 6 3 (match roles with
      | some l => l.getD q 0
      | none => defaultRole q)) s

/-! ### Presence (R5 to R7) -/

/-- Die `d` of hub `h` is present and not fenced (Table 1.19). -/
def State.diePresent (s : State) (h d : Nat) : Bool := s.bit (Reg.dieStep h d) 31 && !(s.bit (Reg.dieStep h d) 30)

/-- How many of the indices below `n` satisfy the test. -/
def countBelow (n : Nat) (p : Nat → Bool) : Nat := ((List.range n).filter p).length

/-- Hub and `d` of compute die `k`: the dies of half `h` are `d` = 1 and 2 of hub `h` (R69). -/
def cdiePlace (k : Nat) : Nat × Nat := (k / 2, 1 + k % 2)

/-- Hub and `d` of pile `n`: `d` = 3 to 10 of its hub (R69). -/
def pilePlace (n : Nat) : Nat × Nat := (n / 8, 3 + n % 8)

/-- Hub `h` is present: its own entry `d` = 0 (R69). -/
def State.hubPresent (s : State) (h : Nat) : Bool := s.diePresent h 0

/-- Compute die `k` is present. -/
def State.cdiePresent (s : State) (k : Nat) : Bool := s.diePresent (cdiePlace k).1 (cdiePlace k).2

/-- Pile `n` is present. -/
def State.pilePresent (s : State) (n : Nat) : Bool := s.diePresent (pilePlace n).1 (pilePlace n).2

/-- A plan unit is fenced. -/
def State.isFenced (s : State) (u : UnitId) : Bool := (s.unit u).fenced

/-- CAP_PRESENT0 without PRES_GEN (Table 0.4). -/
def State.present0 (s : State) : Nat :=
  let cores := countBelow 64 fun l => s.bit (Reg.coreMap l) 7 && !(decide (s.fld (Reg.coreMap l) 9 8 = 3))
  let spares := countBelow 4 fun d => decide (s.fld (Reg.coreSpare d) 8 7 < 2)
  let cdies := countBelow 4 s.cdiePresent
  let piles := countBelow 16 s.pilePresent
  let hubs := countBelow 2 s.hubPresent
  let engines := countBelow 16 fun n => s.pilePresent n && !(s.isFenced { cls := 7, idx := n })
  let foragers := countBelow 2 fun f => s.hubPresent f && s.bit (Reg.dieCap f 0) 8
  let comb := decide (0 < cdies) && (List.range 4).all fun k => !(s.cdiePresent k) || !(s.pkg.noComb.contains k)
  cores + 128 * spares + 1024 * cdies + 8192 * piles + 262144 * hubs + 1048576 * engines + 33554432 * foragers
    + (if comb then 134217728 else 0) + (if s.hubPresent 1 then 268435456 else 0)

/-- CAP_PRESENT1 without PRES_GEN (Table 0.5). -/
def State.present1 (s : State) : Nat :=
  let ports := countBelow 32 fun q => s.hubPresent (q / 16) && !(s.isFenced { cls := 5, idx := q })
  let hosts := countBelow 2 s.hubPresent
  let h2d := countBelow 12 fun e => s.hubPresent (e / 6) && !(s.isFenced { cls := 4, idx := e })
  let d2h := countBelow 12 fun e => s.hubPresent (e / 6) && !(s.isFenced { cls := 4, idx := 12 + e })
  let movers := countBelow 32 fun m => s.hubPresent (m / 16) && !(s.isFenced { cls := 3, idx := m })
  ports + 64 * hosts + 256 * h2d + 8192 * d2h + 262144 * movers
    + (if s.bit (Reg.capCommon 0) 10 then 16777216 else 0)

/-- Write CAP_PRESENT0 and CAP_PRESENT1 with this PRES_GEN (log 112). -/
def State.showPresence (s : State) (gen : Nat) : State :=
  (s.setReg Reg.capPresent0 (BitVec.ofNat 32 (s.present0 + 536870912 * gen))).setReg Reg.capPresent1
    (BitVec.ofNat 32 (s.present1 + 536870912 * gen))

/-- Bring CAP_PRESENT0 and CAP_PRESENT1 up to date once presence discovery has completed; PRES_GEN advances in both with a
change (R6, R7). -/
def State.updatePresence (s : State) : State :=
  if s.power.step < 9 ∨ (s.fld Reg.capPresent0 28 0 = s.present0 ∧ s.fld Reg.capPresent1 28 0 = s.present1) then s
  else s.showPresence ((s.fld Reg.capPresent0 31 29 + 1) % 8)

/-! ### Capabilities and steppings (R53 to R58) -/

/-- TYPE of a die entry: 1 compute, 2 hub, 3 pile base. -/
def State.dieType (s : State) (x : Nat × Nat) : Nat := s.fld (Reg.dieStep x.1 x.2) 3 0

/-- Die types to which a capability bit applies (Table 1.8). -/
def capTypes (b : Nat) : List Nat :=
  if b ≤ 3 ∨ b = 9 ∨ b = 12 then [1] else if b = 4 then [1, 3] else if b = 5 ∨ b = 6 ∨ b = 13 then [3]
  else if b = 7 then [2, 3] else if b = 8 ∨ b = 10 then [2] else if b = 11 then [1, 2, 3] else []

/-- Bits that a die of a type must have (Table 1.8). -/
def requiredCaps (type : Nat) : List Nat := (List.range 9).filter fun b => (capTypes b).contains type

/-- Every die entry of a hub. -/
def hubDies (h : Nat) : List (Nat × Nat) := (List.range 11).map fun d => (h, d)

/-- The AND of a bit over the present, unfenced dies to which it applies; 0 when there are none (R55). -/
def State.commonBit (s : State) (dies : List (Nat × Nat)) (b : Nat) : Bool :=
  let ds := dies.filter fun (x : Nat × Nat) => s.diePresent x.1 x.2 && (capTypes b).contains (s.dieType x)
  !ds.isEmpty && ds.all fun (x : Nat × Nat) => s.bit (Reg.dieCap x.1 x.2) b

/-- The common value over a list of dies (R55). -/
def State.commonCaps (s : State) (dies : List (Nat × Nat)) : Nat :=
  (List.range 14).foldl (fun a b => a + (if s.commonBit dies b then 2 ^ b else 0)) 0

/-- Stepping codes of the present dies of a type. -/
def State.steppings (s : State) (dies : List (Nat × Nat)) (type : Nat) : List Nat :=
  (dies.filter fun (x : Nat × Nat) => s.bit (Reg.dieStep x.1 x.2) 31 && s.dieType x == type).map fun (x : Nat × Nat) =>
    s.fld (Reg.dieStep x.1 x.2) 11 4

/-- Two dies of one type carry different stepping codes (R58). -/
def State.mixed (s : State) (dies : List (Nat × Nat)) : Bool :=
  [1, 2, 3].any fun t => match s.steppings dies t with
    | [] => false
    | x :: rest => rest.any fun y => !(y == x)

/-- Smallest of a list, 0 for none. -/
def leastOf : List Nat → Nat
  | [] => 0
  | x :: rest => rest.foldl min x

/-- CAP_HALF, CAP_COMMON and STEP_COMMON of both hubs (Tables 1.13 to 1.15). -/
def State.showCaps (s : State) : State :=
  let all := hubDies 0 ++ hubDies 1
  [0, 1].foldl (fun (s : State) (h : Nat) =>
    if s.bit (Reg.dieStep h 0) 31 then
      let own := hubDies h
      let s := (s.setReg (Reg.capHalf h) (BitVec.ofNat 32 (s.commonCaps own))).setReg (Reg.capCommon h)
        (BitVec.ofNat 32 (s.commonCaps all))
      s.setReg (Reg.stepCommon h) (BitVec.ofNat 32 (leastOf (s.steppings own 1) + 256 * leastOf (s.steppings own 2)
        + 65536 * leastOf (s.steppings own 3) + (if s.mixed own then 16777216 else 0)))
    else s) s

end Sys2Proof.Machine
end

