-- ==== Sys2Proof/Machine/Address.lean ====
section
/-! DEFINITION. Addresses and who may reach them: device address windows, group modes, the comb map, tensor addresses and
homes, and plain reads of memory (R131, R185, R319 to R329, R339, R341, R345, R460, R483, R626). -/

namespace Sys2Proof.Machine

open Sys2Proof

/-- Who makes an access. -/
inductive Agent where
  | host (p : HPort)
  | peer (p : HPort)
  /-- a host's CXL.mem access -/
  | cxl (p : HPort)
  | copy (e : Nat)
  /-- array `a` of a physical core: operands and drain -/
  | array (phys a : Nat)
  /-- the vector engine of a physical core -/
  | vector (phys : Nat)
  /-- a mover; `moving` names the tensor whose home it transfers, `fill` that it fills a window buffer -/
  | mover (m : Nat) (moving : Option Nat) (fill : Bool)
  | link (q : Nat) (fill : Bool)
  | update (n : Nat)
  | mirror
  | forager (f i : Nat)
  | hub
deriving DecidableEq, Repr

/-- The unit that an agent's events name (Table 13.5). -/
def Agent.unit : Agent → UnitCode
  | .host p => { typ := 12, idx := portIdx p, sub := 0 }
  | .peer p => { typ := 12, idx := portIdx p, sub := 0 }
  | .cxl p => { typ := 12, idx := portIdx p, sub := 0 }
  | .copy e => { typ := 9, idx := e, sub := 0 }
  | .array p a => { typ := 4, idx := p, sub := a }
  | .vector p => { typ := 5, idx := p, sub := 0 }
  | .mover m _ _ => { typ := 8, idx := m, sub := 0 }
  | .link q _ => { typ := 10, idx := q, sub := 255 }
  | .update n => { typ := 7, idx := n, sub := 0 }
  | .mirror => { typ := 1, idx := 0, sub := 0 }
  | .forager f i => { typ := 11, idx := f, sub := i }
  | .hub => { typ := 1, idx := 0, sub := 0 }

/-- Host ports, peers and copy engines: the requesters of the first case of R320. -/
def Agent.isBus : Agent → Bool
  | .host _ => true
  | .peer _ => true
  | .cxl _ => true
  | .copy _ => true
  | _ => false

/-- Arrays and vector engines. -/
def Agent.isCore : Agent → Bool
  | .array _ _ => true
  | .vector _ => true
  | _ => false

/-- Where a byte lies. -/
inductive Loc where
  /-- pile, pile-local offset -/
  | dram (n off : Nat)
  /-- compute die, comb offset -/
  | comb (d off : Nat)
  /-- physical core, core-local address -/
  | sram (p off : Nat)
  /-- super-tier offset -/
  | super (off : Nat)
deriving DecidableEq, Repr

/-- Mode of pile group `g` (GROUP_MODE, Table 8.20). -/
def State.groupMode (s : State) (g : Nat) : Nat := s.fld (Reg.groupMode (g / 16)) (2 * (g % 16) + 1) (2 * (g % 16))

/-- Pile and pile-local offset of a pile address in a mode (Table 8.2). -/
def pileOf (mode a : Nat) : Nat × Nat :=
  let g := a / 2 ^ 34
  let o := a % 2 ^ 34
  if mode = 1 then (8 * (o / 2 ^ 33 % 2) + o / 2 ^ 12 % 8, g * 2 ^ 30 + o % 2 ^ 33 / 2 ^ 15 * 4096 + o % 4096)
  else if mode = 2 then (o / 2 ^ 30 % 16, g * 2 ^ 30 + o % 2 ^ 30)
  else (o / 2 ^ 12 % 16, g * 2 ^ 30 + o / 2 ^ 16 * 4096 + o % 4096)

/-- The pile is there and holds its contents (Table 8.12). -/
def State.pileUp (s : State) (n : Nat) : Bool :=
  let st := s.fld (Reg.pileState n) 2 0
  decide (2 ≤ st ∧ st ≤ 4)

/-- Comb of die `d` is there. -/
def State.combUp (s : State) (d : Nat) : Bool := decide (d < 4) && s.cdiePresent d && !(s.pkg.noComb.contains d)

/-- Guest region, WGA shadow and remote-cache offsets of a comb (Table 8.4). -/
def combGuest : Nat := 0xA6000000
def combWga : Nat := 0xA8000000
def combRdc : Nat := 0xB0000000
def combEnd : Nat := 0xC0000000

/-- Core-local address `off` of logical core `l`: its physical core's SRAM, or the guest region of its die (R185). -/
def State.coreLoc (s : State) (l off : Nat) : Option Loc :=
  if l < 64 ∧ off < 0x2000000 then
    if s.bit (Reg.coreMap l) 7 then
      if s.fld (Reg.coreMap l) 9 8 = 3 then some (.comb (l / 16) (combGuest + off))
      else some (.sram (s.fld (Reg.coreMap l) 6 0) off)
    else none
  else none

/-- Where a device address that is no tensor address lies (Table 8.1); `none` is unmapped. -/
def State.locate (s : State) (a : Nat) : Option Loc :=
  if a < 2 ^ 40 then
    let (n, off) := pileOf (s.groupMode (a / 2 ^ 34)) a
    if s.pileUp n then some (.dram n off) else none
  else if a < 0x11000000000 then
    let d := (a - 0x10000000000) / 2 ^ 32
    let off := (a - 0x10000000000) % 2 ^ 32
    if s.combUp d ∧ off < combEnd then some (.comb d off) else none
  else if a < 0x11080000000 then s.coreLoc ((a - 0x11000000000) / 0x2000000) ((a - 0x11000000000) % 0x2000000)
  else if 0x100000000000 ≤ a ∧ a < 0x200000000000 then some (.super (a - 0x100000000000))
  else none

/-- First device address of a pile's holding-area unit (R347). -/
def holdAddr (t : TierCfg) (pile unit : Nat) : Nat := t.holdGroup * 2 ^ 34 + pile * 2 ^ 30 + unit * 65536

/-- The running TIER_PLAN. -/
def State.tierCfg (s : State) : Option TierCfg :=
  match s.plan with
  | some p => p.tier
  | none => none

/-- A tensor of the running fingering. -/
def State.tensor (s : State) (id : Nat) : Option Tensor :=
  match s.fing with
  | some f => f.tensors.find? (·.id == id)
  | none => none

/-- The tensor's current home (R329, R626): its hold for a HOLD_GRAD tensor, else its home record or its HOME. -/
def State.homeOf (s : State) (t : Tensor) : Option Nat :=
  if t.holdGrad then
    match s.tier.holds.find? (·.tensor == t.id), s.tierCfg with
    | some h, some c => some (holdAddr c h.pile h.unit)
    | _, _ => none
  else
    match s.tier.homes.find? (·.tensor == t.id) with
    | some h => some h.home
    | none => some t.home

/-- A place in memory: where it lies, its device address after translation, and the tensor addressed by name. -/
structure Place where
  loc : Loc
  dev : Nat
  tensor : Option Nat
deriving DecidableEq, Repr

/-- Resolve a device address, tensor addresses through their current home (R328). -/
def State.resolve (s : State) (a : Nat) : Option Place :=
  if 0x200000000000 ≤ a ∧ a < 0x400000000000 then
    match s.fing with
    | none => none
    | some f =>
      match f.tensors.find? (fun t => decide (t.taddr ≤ a ∧ a < t.taddr + t.size)) with
      | none => none
      | some t =>
        match s.homeOf t with
        | none => none
        | some h => (s.locate (h + (a - t.taddr))).map fun l => { loc := l, dev := h + (a - t.taddr), tensor := some t.id }
  else (s.locate a).map fun l => { loc := l, dev := a, tensor := none }

/-- The tensor of the running fingering whose current home covers a device address. -/
def State.tensorAt (s : State) (pl : Place) : Option Tensor :=
  match pl.tensor with
  | some id => s.tensor id
  | none =>
    match s.fing with
    | none => none
    | some f => f.tensors.find? fun t => match s.homeOf t with
      | some h => decide (h ≤ pl.dev ∧ pl.dev < h + t.size)
      | none => false

/-- The stream and buffer of a window buffer that covers a device address (R339). -/
def State.windowAt (s : State) (dev : Nat) : Option (Nat × Nat) :=
  match s.tierCfg with
  | none => none
  | some c =>
    (List.range c.streams.length).findSome? fun i =>
      match c.streams[i]? with
      | some w =>
        if w.bufBase ≤ dev ∧ dev < w.bufBase + (w.depth + 1) * w.bufSize ∧ 0 < w.bufSize then
          some (i, (dev - w.bufBase) / w.bufSize)
        else none
      | none => none

/-- The window buffer holds a copy that has not expired (R341) (log 46). -/
def State.windowLive (s : State) (w : Nat × Nat) : Bool := s.tier.wins.any fun c => c.stream == w.1 && c.buffer == w.2

/-- Core-local memory is open to an agent: not to hosts and peers while a fingering runs (R460). -/
def State.coreOpen (s : State) (ag : Agent) : Bool :=
  !(ag.isBus && s.running && (match ag with
    | .copy _ => false
    | _ => true))

/-- Whether an agent may reach a place at all (R320, R324, R345, R460): `false` is unmapped (log 46). -/
def State.reaches (s : State) (ag : Agent) (pl : Place) (write : Bool) : Bool :=
  match pl.loc with
  | .dram _ _ => true
  | .super _ => match ag with
    | .mover _ _ _ => true
    | _ => false
  | .sram _ _ => s.coreOpen ag
  | .comb _ off =>
    if off < combGuest then
      write || (match s.windowAt pl.dev with
        | some w => s.windowLive w
        | none => true)
    -- the guest region is a logical core's core-local memory, reached through its window (R185)
    else if off < combWga then decide (0x11000000000 ≤ pl.dev) && s.coreOpen ag
    else if off < combRdc then
      !write && (match ag with
        | .host _ => true
        | .peer _ => true
        | .cxl _ => true
        | .copy _ => true
        | .mover _ _ _ => true
        | .link _ _ => true
        | _ => false)
    else false

/-- Key of a byte in its memory. -/
def Loc.key : Loc → Nat
  | .dram n off => n * 2 ^ 36 + off
  | .comb d off => d * 2 ^ 32 + off
  | .sram p off => p * 2 ^ 25 + off
  | .super off => off

/-- Read the byte at a location; the super tier is host memory and reads 0 here (its data comes with the command). -/
def State.peek (s : State) (l : Loc) : Byte :=
  match l with
  | .dram _ _ => s.dram.read l.key
  | .comb _ _ => s.comb.read l.key
  | .sram _ _ => s.sram.read l.key
  | .super _ => 0

/-- Write the byte at a location. -/
def State.poke (s : State) (l : Loc) (v : Byte) : State :=
  match l with
  | .dram _ _ => { s with dram := s.dram.write l.key v }
  | .comb _ _ => { s with comb := s.comb.write l.key v }
  | .sram _ _ => { s with sram := s.sram.write l.key v }
  | .super _ => s

/-- Make the byte at a location undefined (log 5). -/
def State.unknow (s : State) (l : Loc) (st : Nat) : State :=
  match l with
  | .dram _ _ => { s with dram := s.dram.undefine l.key (l.key + 1) st }
  | .comb _ _ => { s with comb := s.comb.undefine l.key (l.key + 1) st }
  | .sram _ _ => { s with sram := s.sram.undefine l.key (l.key + 1) st }
  | .super _ => s

/-! ### Ranges -/

/-- The places of `n` bytes from a device address on; `none` when some byte is unmapped for the agent (log 11). -/
def State.placesOf (s : State) (ag : Agent) (write : Bool) (a : Nat) : Nat → Option (List Place)
  | 0 => some []
  | n + 1 =>
    match s.resolve a with
    | none => none
    | some pl =>
      if s.reaches ag pl write then
        match s.placesOf ag write (a + 1) n with
        | some rest => some (pl :: rest)
        | none => none
      else none

/-! ### Host-shared pages (R483, R484) -/

/-- Base device address and bytes of the HDM range (R483). -/
def State.hdmBase (s : State) : Nat := s.fld Reg.hdmCtl 11 0 * 2 ^ 28
def State.hdmSize (s : State) : Nat := s.fld Reg.hdmCtl 24 12 * 2 ^ 28

/-- Page of the HDM range in host bias that covers a pile device address (R484). -/
def State.hostBiasPage (s : State) (dev : Nat) : Option Nat :=
  if s.hdmBase ≤ dev ∧ dev < s.hdmBase + s.hdmSize then
    let p := (dev - s.hdmBase) / 2097152
    if s.host.hostBias.contains p then some p else none
  else none

/-! ### Plain reads and core-local memory -/

/-- Bytes of a range without any effect, zeros where unmapped: the device's own reads of its own structures. -/
def State.view (s : State) (a n : Nat) : Bytes :=
  match s.placesOf (.mover 0 none true) false a n with
  | some ps => ps.map fun pl => s.peek pl.loc
  | none => zeroBytes n

/-- Bytes of core-local memory of a logical core. -/
def State.coreRead (s : State) (l off n : Nat) : Bytes :=
  (List.range n).map fun i => match s.coreLoc l (off + i) with
    | some x => s.peek x
    | none => 0

/-- Write core-local memory of a logical core. -/
def State.coreWrite (s : State) (l off : Nat) : Bytes → State
  | [] => s
  | b :: bs =>
    (match s.coreLoc l off with
    | some x => s.poke x b
    | none => s).coreWrite l (off + 1) bs

/-- A core-local range that a store or an array output may not reach (R131): past scratch. -/
def storeForbidden (off n : Nat) : Bool := decide (0 < n) && decide (0x1640000 < off + n)

/-- A core-local range that a load or an operand read may not reach (R131): the drain areas and the WGA banks. -/
def loadForbidden (off n : Nat) : Bool :=
  decide (0 < n) && (decide (0x2000000 < off + n) || (decide (off < 0x1F00000) && decide (0x1640000 < off + n)))

/-- Core-local offset of a place in a logical core's core-local memory: its core's SRAM, or the guest region (R185). -/
def Place.coreOff (pl : Place) : Option Nat :=
  match pl.loc with
  | .sram _ off => some off
  | .comb _ off => if 0x11000000000 ≤ pl.dev ∧ combGuest ≤ off ∧ off < combWga then some (off - combGuest) else none
  | _ => none

/-- A device-address range that reaches a forbidden area of some core's SRAM through the core-SRAM window (R131): past scratch for a
store, the drain areas and WGA banks for a load. -/
def State.hitsCore (s : State) (write : Bool) (a n : Nat) : Bool :=
  (List.range n).any fun i => match (s.resolve (a + i)).bind Place.coreOff with
    | some off => if write then storeForbidden off 1 else loadForbidden off 1
    | none => false

/-! ### The committed step of the running plan (R252, R270) -/

/-- UPDATE_CONFIG of the running plan. -/
def State.updCfg (s : State) : Option UpdCfg :=
  match s.plan with
  | some p => p.update
  | none => none

/-- The committed step T: STEP in the current copy of the step record (R252), 0 with no record. -/
def State.stepT (s : State) : Nat :=
  match s.updCfg with
  | none => 0
  | some u =>
    match s.tensor u.stepRec with
    | none => 0
    | some t =>
      let sel := fieldAt (s.view t.taddr 4) 0 4 % 2
      fieldAt (s.view (t.taddr + 0x20 + 0x20 * sel) 8) 0 8

/-- A tag of a shard of this pile has MOM_STEP = T + 1 (Table 6.14 PARTIAL): tag `i` at TAG + 32 i holds MOM_STEP in its
first word (Table 6.2) (log 96). -/
def State.partialTag (s : State) (n : Nat) : Bool :=
  match s.updCfg with
  | none => false
  | some u =>
    let t1 := (s.stepT + 1) % 2 ^ 32
    u.shards.any fun h => h.pile == n && (match s.tensor h.tag with
      | some t => (List.range (t.size / 32)).any fun i => fieldAt (s.view (t.taddr + 32 * i) 4) 0 4 == t1
      | none => false)

end Sys2Proof.Machine
end

