-- ==== Sys2Proof/Machine/Crypto.lean ====
section
/-! DEFINITION. Checks of images and requests: CRC-32C, SHA-256, SHA-384, ECDSA P-384 verification and LMS verification
(R104, R564 to R573). The algorithms are those of the standards that the rules name. -/

namespace Sys2Proof.Machine

open Sys2Proof

/-! ### CRC-32C (Castagnoli) -/

/-- One bit of the reflected CRC. -/
def crcBit (c : Nat) : Nat := if c % 2 = 1 then Nat.xor (c / 2) 0x82F63B78 else c / 2

/-- One byte. -/
def crcByte (c b : Nat) : Nat := crcBit (crcBit (crcBit (crcBit (crcBit (crcBit (crcBit (crcBit (Nat.xor c b))))))))

/-- CRC-32C of a byte string: initial value and final inversion all ones. -/
def crc32c (b : Bytes) : Nat := Nat.xor (b.foldl (fun c x => crcByte c x.toNat) 0xFFFFFFFF) 0xFFFFFFFF

/-! ### SHA-2 (FIPS 180-4) -/

/-- Round constants of SHA-512; their upper halves are those of SHA-256. -/
def shaKPart0 : List Nat := [
  0x428A2F98D728AE22, 0x7137449123EF65CD, 0xB5C0FBCFEC4D3B2F, 0xE9B5DBA58189DBBC,
  0x3956C25BF348B538, 0x59F111F1B605D019, 0x923F82A4AF194F9B, 0xAB1C5ED5DA6D8118,
  0xD807AA98A3030242, 0x12835B0145706FBE, 0x243185BE4EE4B28C, 0x550C7DC3D5FFB4E2,
  0x72BE5D74F27B896F, 0x80DEB1FE3B1696B1, 0x9BDC06A725C71235, 0xC19BF174CF692694,
  0xE49B69C19EF14AD2, 0xEFBE4786384F25E3, 0xFC19DC68B8CD5B5, 0x240CA1CC77AC9C65 ]
def shaKPart1 : List Nat := [
  0x2DE92C6F592B0275, 0x4A7484AA6EA6E483, 0x5CB0A9DCBD41FBD4, 0x76F988DA831153B5,
  0x983E5152EE66DFAB, 0xA831C66D2DB43210, 0xB00327C898FB213F, 0xBF597FC7BEEF0EE4,
  0xC6E00BF33DA88FC2, 0xD5A79147930AA725, 0x6CA6351E003826F, 0x142929670A0E6E70,
  0x27B70A8546D22FFC, 0x2E1B21385C26C926, 0x4D2C6DFC5AC42AED, 0x53380D139D95B3DF,
  0x650A73548BAF63DE, 0x766A0ABB3C77B2A8, 0x81C2C92E47EDAEE6, 0x92722C851482353B ]
def shaKPart2 : List Nat := [
  0xA2BFE8A14CF10364, 0xA81A664BBC423001, 0xC24B8B70D0F89791, 0xC76C51A30654BE30,
  0xD192E819D6EF5218, 0xD69906245565A910, 0xF40E35855771202A, 0x106AA07032BBD1B8,
  0x19A4C116B8D2D0C8, 0x1E376C085141AB53, 0x2748774CDF8EEB99, 0x34B0BCB5E19B48A8,
  0x391C0CB3C5C95A63, 0x4ED8AA4AE3418ACB, 0x5B9CCA4F7763E373, 0x682E6FF3D6B2B8A3,
  0x748F82EE5DEFB2FC, 0x78A5636F43172F60, 0x84C87814A1F0AB72, 0x8CC702081A6439EC ]
def shaKPart3 : List Nat := [
  0x90BEFFFA23631E28, 0xA4506CEBDE82BDE9, 0xBEF9A3F7B2C67915, 0xC67178F2E372532B,
  0xCA273ECEEA26619C, 0xD186B8C721C0C207, 0xEADA7DD6CDE0EB1E, 0xF57D4F7FEE6ED178,
  0x6F067AA72176FBA, 0xA637DC5A2C898A6, 0x113F9804BEF90DAE, 0x1B710B35131C471B,
  0x28DB77F523047D84, 0x32CAAB7B40C72493, 0x3C9EBE0A15C9BEBC, 0x431D67C49C100D4C,
  0x4CC5D4BECB3E42B6, 0x597F299CFC657E2A, 0x5FCB6FAB3AD6FAEC, 0x6C44198C4A475817 ]
def shaK : List Nat := shaKPart0 ++ shaKPart1 ++ shaKPart2 ++ shaKPart3

/-- Initial values. -/
def sha256Iv : List Nat := [
  0x6A09E667, 0xBB67AE85, 0x3C6EF372, 0xA54FF53A,
  0x510E527F, 0x9B05688C, 0x1F83D9AB, 0x5BE0CD19 ]
def sha384Iv : List Nat := [
  0xCBBB9D5DC1059ED8, 0x629A292A367CD507, 0x9159015A3070DD17, 0x152FECD8F70E5939,
  0x67332667FFC00B31, 0x8EB44A8768581511, 0xDB0C2E0D64F98FA7, 0x47B5481DBEFA4FA4 ]

/-- What the two sizes differ in: word bits, rotations of the two large and the two small sigmas (the last entry of a
small one is a shift), rounds. -/
structure ShaSize where
  bits : Nat
  big0 : Nat × Nat × Nat
  big1 : Nat × Nat × Nat
  small0 : Nat × Nat × Nat
  small1 : Nat × Nat × Nat
  rounds : Nat
deriving DecidableEq, Repr

def sha256Size : ShaSize :=
  { bits := 32, big0 := (2, 13, 22), big1 := (6, 11, 25), small0 := (7, 18, 3), small1 := (17, 19, 10), rounds := 64 }
def sha512Size : ShaSize :=
  { bits := 64, big0 := (28, 34, 39), big1 := (14, 18, 41), small0 := (1, 8, 7), small1 := (19, 61, 6), rounds := 80 }

/-- Rotation to the right in a word of `n` bits. -/
def rotr (n x k : Nat) : Nat := x / 2 ^ k + x % 2 ^ k * 2 ^ (n - k)

def shaBig (n : Nat) (r : Nat × Nat × Nat) (x : Nat) : Nat :=
  Nat.xor (Nat.xor (rotr n x r.1) (rotr n x r.2.1)) (rotr n x r.2.2)

def shaSmall (n : Nat) (r : Nat × Nat × Nat) (x : Nat) : Nat :=
  Nat.xor (Nat.xor (rotr n x r.1) (rotr n x r.2.1)) (x / 2 ^ r.2.2)

/-- Message schedule: the last 16 words, newest first, give the next. -/
def shaSchedule (z : ShaSize) : Nat → List Nat → List Nat → List Nat
  | 0, _, acc => acc.reverse
  | n + 1, w, acc =>
    let x := (shaSmall z.bits z.small1 (w.getD 1 0) + w.getD 6 0 + shaSmall z.bits z.small0 (w.getD 14 0) + w.getD 15 0)
      % 2 ^ z.bits
    shaSchedule z n (x :: w.take 15) (x :: acc)

/-- Bitwise not in a word of `n` bits. -/
def notN (n x : Nat) : Nat := 2 ^ n - 1 - x

/-- One round on the eight working words. -/
def shaRound (z : ShaSize) (h : List Nat) (kw : Nat × Nat) : List Nat :=
  match h with
  | [a, b, c, d, e, f, g, x] =>
    let ch := Nat.xor (Nat.land e f) (Nat.land (notN z.bits e) g)
    let maj := Nat.xor (Nat.xor (Nat.land a b) (Nat.land a c)) (Nat.land b c)
    let t1 := x + shaBig z.bits z.big1 e + ch + kw.1 + kw.2
    let t2 := shaBig z.bits z.big0 a + maj
    [(t1 + t2) % 2 ^ z.bits, a, b, c, (d + t1) % 2 ^ z.bits, e, f, g]
  | _ => h

/-- Big-endian number of a byte string. -/
def beNat (b : Bytes) : Nat := b.foldl (fun n x => 256 * n + x.toNat) 0

/-- The `n` low bytes of a number, highest first. -/
def beBytes (n v : Nat) : Bytes := (leBytes n v).reverse

/-- Words of a block. -/
def shaWords (n : Nat) : Nat → Bytes → List Nat
  | 0, _ => []
  | k + 1, b => beNat (b.take n) :: shaWords n k (b.drop n)

/-- One block. -/
def shaBlock (z : ShaSize) (h : List Nat) (b : Bytes) : List Nat :=
  let w := shaWords (z.bits / 8) 16 b
  let all := w ++ shaSchedule z (z.rounds - 16) w.reverse []
  let ks := shaK.map fun k => if z.bits = 32 then k / 2 ^ 32 else k
  let out := (ks.zip all).foldl (shaRound z) h
  (h.zip out).map fun (x : Nat × Nat) => (x.1 + x.2) % 2 ^ z.bits

/-- Blocks in order. -/
def shaBlocks (z : ShaSize) : Nat → List Nat → Bytes → List Nat
  | 0, h, _ => h
  | n + 1, h, b => shaBlocks z n (shaBlock z h b) (b.drop (2 * z.bits))

/-- Padding to whole blocks. -/
def shaPad (z : ShaSize) (b : Bytes) : Bytes :=
  let block := 2 * z.bits
  let lenBytes := z.bits / 4
  let used := b.length + 1 + lenBytes
  b ++ [0x80] ++ zeroBytes ((block - used % block) % block) ++ beBytes lenBytes (8 * b.length)

/-- Hash to the first `n` bytes. -/
def sha (z : ShaSize) (iv : List Nat) (n : Nat) (b : Bytes) : Bytes :=
  let p := shaPad z b
  ((shaBlocks z (p.length / (2 * z.bits)) iv p).flatMap (beBytes (z.bits / 8))).take n

def sha256 (b : Bytes) : Bytes := sha sha256Size sha256Iv 32 b
def sha384 (b : Bytes) : Bytes := sha sha512Size sha384Iv 48 b

/-! ### ECDSA on P-384 (FIPS 186-5) -/

def p384P : Nat := 0xFFFFFFFFFFFFFFFFFFFFFFFFFFFFFFFFFFFFFFFFFFFFFFFFFFFFFFFFFFFFFFFEFFFFFFFF0000000000000000FFFFFFFF
def p384N : Nat := 0xFFFFFFFFFFFFFFFFFFFFFFFFFFFFFFFFFFFFFFFFFFFFFFFFC7634D81F4372DDF581A0DB248B0A77AECEC196ACCC52973
def p384B : Nat := 0xB3312FA7E23EE7E4988E056BE3F82D19181D9C6EFE8141120314088F5013875AC656398D8A2ED19D2A85C8EDD3EC2AEF
def p384G : Nat × Nat :=
  (0xAA87CA22BE8B05378EB1C71EF320AD746E1D3B628BA79B9859F741E082542A385502F25DBF55296C3A545E3872760AB7,
   0x3617DE4A96262C6F5D9E98BF9292DC29F8F41DBD289A147CE9DA3113B5F0B8C00A60B1CE1D7E819D7A431D7C90EA0E5F)

/-- Power modulo `m`, from the exponent's bits, lowest first. -/
def powMod (m : Nat) : Nat → Nat → Nat → Nat → Nat
  | 0, _, _, acc => acc
  | fuel + 1, b, e, acc => powMod m fuel (b * b % m) (e / 2) (if e % 2 = 1 then acc * b % m else acc)

/-- Inverse modulo a prime of 384 bits. -/
def invMod (m x : Nat) : Nat := powMod m 384 (x % m) (m - 2) 1

/-- A point: `none` is the point at infinity. -/
abbrev EcPoint := Option (Nat × Nat)

/-- The point lies on the curve y² = x³ − 3x + b. -/
def onP384 (x y : Nat) : Bool :=
  decide (x < p384P) && decide (y < p384P) && decide (y * y % p384P = (x * x * x + (p384P - 3) * x + p384B) % p384P)

/-- Sum of two points. -/
def ecAdd (a b : EcPoint) : EcPoint :=
  match a, b with
  | none, b => b
  | a, none => a
  | some (x1, y1), some (x2, y2) =>
    if x1 = x2 ∧ (y1 + y2) % p384P = 0 then none
    else
      let l := if x1 = x2 then (3 * x1 * x1 + (p384P - 3)) * invMod p384P (2 * y1) % p384P
        else (y2 + p384P - y1) * invMod p384P (x2 + p384P - x1) % p384P
      let x := (l * l + 2 * p384P - x1 - x2) % p384P
      some (x, (l * (x1 + p384P - x) + p384P - y1) % p384P)

/-- Multiple of a point, from the scalar's bits, lowest first. -/
def ecMul : Nat → Nat → EcPoint → EcPoint → EcPoint
  | 0, _, _, acc => acc
  | fuel + 1, k, p, acc => ecMul fuel (k / 2) (ecAdd p p) (if k % 2 = 1 then ecAdd acc p else acc)

/-- ECDSA verification with SHA-384: public key X then Y, signature r then s, 48 bytes each, big-endian. -/
def ecdsaVerify (pub sig msg : Bytes) : Bool :=
  let x := beNat (pub.take 48)
  let y := beNat ((pub.drop 48).take 48)
  let r := beNat (sig.take 48)
  let t := beNat ((sig.drop 48).take 48)
  if onP384 x y && decide (0 < r ∧ r < p384N ∧ 0 < t ∧ t < p384N) then
    let w := invMod p384N t
    let u1 := beNat (sha384 msg) * w % p384N
    let u2 := r * w % p384N
    match ecAdd (ecMul 384 u1 (some p384G) none) (ecMul 384 u2 (some (x, y)) none) with
    | none => false
    | some (vx, _) => decide (vx % p384N = r)
  else false

/-! ### LMS (SP 800-208: LMS_SHA256_M32_H20 with LMOTS_SHA256_N32_W8) -/

/-- Type codes of the two algorithms. -/
def lmsType : Nat := 8
def lmotsType : Nat := 4

/-- Chain of the one-time signature: from `from` up to 254. -/
def lmsChain (id : Bytes) (q i : Nat) : Nat → Nat → Bytes → Bytes
  | 0, _, x => x
  | fuel + 1, j, x =>
    if j < 255 then lmsChain id q i fuel (j + 1) (sha256 (id ++ beBytes 4 q ++ beBytes 2 i ++ beBytes 1 j ++ x)) else x

/-- Checksum of the 32 digits, two bytes. -/
def lmsChecksum (d : Bytes) : Bytes := beBytes 2 (d.map fun b => 255 - b.toNat).sum

/-- Path from a leaf to the root. -/
def lmsPath (id : Bytes) : Nat → Nat → Bytes → Bytes → Bytes
  | 0, _, t, _ => t
  | h + 1, node, t, path =>
    let p := path.take 32
    let msg := if node % 2 = 1 then p ++ t else t ++ p
    lmsPath id h (node / 2) (sha256 (id ++ beBytes 4 (node / 2) ++ [0x83, 0x83] ++ msg)) (path.drop 32)

/-- LMS verification: the public key of 56 bytes, the signature of 1,772. -/
def lmsVerify (pub sig msg : Bytes) : Bool :=
  let id := (pub.drop 8).take 16
  let root := (pub.drop 24).take 32
  let q := beNat (sig.take 4)
  let ots := (sig.drop 4).take 1124
  let c := (ots.drop 4).take 32
  let typ := beNat ((sig.drop 1128).take 4)
  let path := (sig.drop 1132).take 640
  if beNat (pub.take 4) = lmsType ∧ beNat ((pub.drop 4).take 4) = lmotsType ∧ beNat (ots.take 4) = lmotsType
      ∧ typ = lmsType ∧ q < 1048576 then
    let d := sha256 (id ++ beBytes 4 q ++ [0x81, 0x81] ++ c ++ msg)
    let digits := d ++ lmsChecksum d
    let zs := (List.range 34).map fun i =>
      lmsChain id q i 255 (digits.getD i 0).toNat ((ots.drop (36 + 32 * i)).take 32)
    let k := sha256 (id ++ beBytes 4 q ++ [0x80, 0x80] ++ zs.flatten)
    let leaf := 1048576 + q
    let t := sha256 (id ++ beBytes 4 leaf ++ [0x82, 0x82] ++ k)
    lmsPath id 20 leaf t path == root
  else false

end Sys2Proof.Machine
end

