-- ==== Sys2Proof/Machine/Frames.lean ====
section
/-! DEFINITION. Tlararel frames as bytes: the frame header and its CRC, control messages, mirror frames, identities and
requests (R298, R412, R414, R419, R420, R430, Tables 7.2, 10.1 and 10.6). -/

namespace Sys2Proof

open Sys2Proof.Machine

/-! ### Frames (R412, R414) -/

/-- The header of a frame (Table 10.1). -/
def Frame.header (f : Frame) : Bytes :=
  leBytes 1 (f.typ % 16 + 16 * (f.vl % 4)) ++ leBytes 1 f.flags ++ leBytes 2 f.len ++ leBytes 4 (packCoord f.dest)
    ++ leBytes 4 (packCoord f.src) ++ leBytes 4 f.lseq ++ leBytes 4 f.dseq ++ leBytes 4 f.cascade ++ leBytes 8 f.taddr

/-- The frame with its trailer (log 81). -/
def Frame.sealed (f : Frame) : Frame := { f with crc := BitVec.ofNat 32 (crc32c (f.header ++ f.payload)) }

/-- The frame passes its CRC, and its length is that of its payload (log 81). -/
def Frame.good (f : Frame) : Bool :=
  crc32c (f.header ++ f.payload) == f.crc.toNat && f.len == f.payload.length && decide (f.len ≤ 4096)

/-- Bytes of a frame, and the 64-byte units of receive buffer that it takes (log 34). -/
def Frame.size (f : Frame) : Nat := 36 + f.len
def Frame.units (f : Frame) : Nat := (f.size + 63) / 64

/-- The running-sum and takeover flags (Table 10.1). -/
def Frame.isReduce (f : Frame) : Bool := decide (f.flags / 2 % 2 = 1)
def Frame.isTakeover (f : Frame) : Bool := decide (f.flags / 4 % 2 = 1)

/-- Frames that travel beyond one link, and so are sent again when a port goes down: DATA, CONTROL and REQUEST (R443). -/
def Frame.travels (f : Frame) : Bool := f.typ == 1 || f.typ == 7 || f.typ == 8

/-- The frames that carry no LSEQ of their own: IDLE, ACK, NAK, IDENT and PROBE (log 34). -/
def Frame.unnumbered (f : Frame) : Bool := decide (f.typ ∈ [0, 2, 3, 5, 6])

/-! ### Control messages (R430) -/

/-- A signed 32-bit field. -/
def intBytes (i : Int) : Bytes := leBytes 4 (BitVec.ofInt 32 i).toNat

/-- The 32 bytes of a control message (Table 10.6); a LOST that names nothing is 0xFFFF_FFFF (log 120). -/
def CtlMsg.bytes (m : CtlMsg) : Bytes :=
  leBytes 1 m.kind ++ leBytes 1 m.flags ++ leBytes 1 m.stretch ++ leBytes 1 m.value ++ leBytes 4 (packCoord m.coord)
    ++ leBytes 8 (m.beat % 2 ^ 48) ++ intBytes m.offset ++ intBytes m.margin ++ leBytes 2 m.planPos ++ leBytes 2 m.issuer
    ++ leBytes 4 (match m.lost with
      | some c => packCoord c
      | none => 0xFFFFFFFF)

/-- The control message that a payload holds; the reserved bits of BEAT are not read. -/
def ctlOf (b : Bytes) : CtlMsg :=
  { kind := fieldAt b 0 1, flags := fieldAt b 1 1, stretch := fieldAt b 2 1, value := fieldAt b 3 1,
    coord := unpackCoord (fieldAt b 4 4), beat := fieldAt b 8 6, offset := (wordAt b 0x10).toInt, margin := (wordAt b 0x14).toInt,
    planPos := fieldAt b 0x18 2, issuer := fieldAt b 0x1A 2,
    lost := if fieldAt b 0x1C 4 = 0xFFFFFFFF then none else some (unpackCoord (fieldAt b 0x1C 4)) }

/-- A message that travels the broadcast tree (R431): MARKER, VERDICT, SYNC, RESUME. -/
def CtlMsg.isTree (m : CtlMsg) : Bool := decide (m.kind = 1 ∨ m.kind = 2 ∨ m.kind = 5 ∨ m.kind = 7)

/-- A CONTROL frame with a message of this KIND. -/
def Frame.isCtl (f : Frame) (kind : Nat) : Bool := decide (f.typ = 7) && decide ((ctlOf f.payload).kind = kind)

/-! ### Mirror frames (R298) -/

/-- A mirror frame as bytes: the header of Table 7.2 and its data. -/
def MirrorFrame.bytes (m : MirrorFrame) : Bytes :=
  leBytes 1 m.kind ++ leBytes 1 (if m.takeover then 1 else 0) ++ leBytes 2 m.shard ++ leBytes 4 m.object ++ leBytes 8 m.offset
    ++ leBytes 4 m.stamp ++ leBytes 4 m.seq ++ m.payload

/-- The mirror frame that a byte string holds. -/
def mirrorOf (b : Bytes) : MirrorFrame :=
  { kind := fieldAt b 0 1, takeover := decide (fieldAt b 1 1 % 2 = 1), shard := fieldAt b 2 2, object := fieldAt b 4 4,
    offset := fieldAt b 8 8, stamp := fieldAt b 0x10 4, seq := fieldAt b 0x14 4, payload := b.drop 24 }

/-! ### Identity and requests (R302, R303, R364, R400, R419) -/

/-- An identity as the payload of an IDENT frame: coordinate, port, kind, CASCADE_ID (log 120). -/
def Ident.bytes (i : Ident) : Bytes :=
  leBytes 4 (packCoord i.coord) ++ leBytes 1 i.port ++ leBytes 1 i.kind ++ zeroBytes 2 ++ leBytes 8 i.cascade

/-- The identity that a payload holds. -/
def identOf (b : Bytes) : Ident :=
  { coord := unpackCoord (fieldAt b 0 4), port := fieldAt b 4 1, kind := fieldAt b 5 1, cascade := fieldAt b 8 8 }

/-- A request to the twin for a tensor's shard, or for the 4 KiB page at an offset of it (log 120). -/
def askBytes (tensor : Nat) (off : Option Nat) : Bytes :=
  leBytes 4 tensor ++ leBytes 4 (if off.isSome then 1 else 0) ++ leBytes 8 (off.getD 0)

/-- The tensor and page that such a request names. -/
def askOf (b : Bytes) : Nat × Option Nat :=
  (fieldAt b 0 4, if fieldAt b 4 4 % 2 = 1 then some (fieldAt b 8 8) else none)

/-- A byte string in pieces of at most `n` bytes; the fuel bounds their number. -/
def cutBytes (n : Nat) : Nat → Bytes → List Bytes
  | 0, _ => []
  | k + 1, b => if b.length ≤ n then [b] else b.take n :: cutBytes n k (b.drop n)

end Sys2Proof
end

