-- ==== Sys2Proof/Machine/Ports.lean ====
section
/-! DEFINITION. Tlararel ports: their roles, state and training (R413, R414, R418, R423, R442). -/

namespace Sys2Proof.Machine

open Sys2Proof

/-- A port that has not trained (log 86). -/
def PortSt.idle : PortSt :=
  { active := false, credit := [0, 0, 0, 0], owed := [0, 0, 0, 0], txLseq := 0, rxLseq := 0, ackDue := 0, nakSent := false,
    replay := [], nakLseq := 0, failures := 0, sendWait := [], turn := 0, lanes := [true, true, true, true], probes := [] }

/-- A port's own state. -/
def State.port (s : State) (q : Nat) : PortSt := (getKey s.ports q).getD PortSt.idle

/-- Replace a port's own state. -/
def State.setPort (s : State) (q : Nat) (x : PortSt) : State := { s with ports := putKey s.ports q x }

/-- Role of a port: Table 10.3's code in LINK_STATE. -/
def State.portRole (s : State) (q : Nat) : Nat := s.fld (Reg.linkState q) 6 3

/-- A link port that can carry frames: active and in service, its peer accepted, not fenced. -/
def State.portUsable (s : State) (q : Nat) : Bool :=
  s.hubPresent (q / 16) && decide (s.fld (Reg.linkState q) 2 0 = 2) && s.bit (Reg.linkState q) 7 && (s.port q).active

/-- Receive buffer of a virtual lane on a port of a role, in 64-byte units (Table 10.2). -/
def laneUnits (role vl : Nat) : Nat :=
  if vl = 2 then 64
  else if role = 7 then (if vl = 3 then 2560 else 0)
  else if role = 8 then (if vl = 0 then 1536 else 0)
  else if vl = 0 then 1536 else if vl = 1 then 1024 else 0

/-- VL_CREDIT of a port (Table 10.13). -/
def State.showCredit (s : State) (q : Nat) : State :=
  let c := (s.port q).credit
  let bulk := if s.portRole q = 7 then c.getD 3 0 else c.getD 0 0
  s.setReg (Reg.vlCredit q) (BitVec.ofNat 32 (bulk / 16 + 256 * (c.getD 1 0 / 16) + 65536 * c.getD 2 0))

/-! ### Sending on a port (R413 to R415) -/

/-- CASCADE_ID bits [31:0] of the running fingering. -/
def State.cascade32 (s : State) : Nat := ((s.fing.map (·.hdr.cascadeId)).getD 0) % 4294967296

/-- A frame from this port to its peer: IDLE 0, ACK 2, NAK 3, CREDIT 4, IDENT 5, PROBE 6 (log 34). -/
def State.linkFrame (s : State) (typ vl lseq : Nat) (payload : Bytes) : Frame :=
  ({ typ := typ, vl := vl, flags := 0, len := payload.length, dest := { x := 0, y := 0, z := 0 }, src := s.self, lseq := lseq, dseq := 0,
     cascade := s.cascade32, taddr := 0, payload := payload, crc := 0 } : Frame).sealed

/-- The port carries frames: LINK_STATE reads active (R442). -/
def State.portActive (s : State) (q : Nat) : Bool := s.hubPresent (q / 16) && decide (s.fld (Reg.linkState q) 2 0 = 2)

/-- The replay buffer of 256 KiB has room for a frame (R415). -/
def PortSt.fits (p : PortSt) (f : Frame) : Bool := decide ((p.replay.map (·.size)).sum + f.size ≤ 262144)

/-- The port holds credit for the whole frame and its replay buffer has room (R414, R415). -/
def PortSt.maySend (p : PortSt) (f : Frame) : Bool := p.fits f && decide (f.units ≤ p.credit.getD f.vl 0)

/-- Number a frame, keep it for retry and send it (R415). -/
def State.sendKept (s : State) (q : Nat) (f : Frame) : State :=
  let p := s.port q
  let f := ({ f with lseq := p.txLseq } : Frame).sealed
  (s.setPort q { p with txLseq := (p.txLseq + 1) % 4294967296, replay := p.replay ++ [f] }).emit (.frame q f)

/-- Send a frame of a virtual lane when the port may (R414). Bulk and reduce alternate, so the lane sent is kept (R413). -/
def State.trySend (s : State) (q : Nat) (f : Frame) : Option State :=
  let p := s.port q
  if !p.maySend f then none
  else
    let p := { p with credit := setAt p.credit f.vl (p.credit.getD f.vl 0 - f.units), turn := if f.vl < 2 then f.vl else p.turn }
    some (((s.setPort q p).showCredit q).sendKept q f)

/-- Buffer units of a port's lane are free again and owed to the peer. Data that came from no port, written as port 32 or more, stands in no
buffer. -/
def State.owe (s : State) (q vl n : Nat) : State :=
  let p := s.port q
  if 32 ≤ q then s
  else s.setPort q { p with owed := setAt p.owed vl (p.owed.getD vl 0 + n) }

/-- The first waiting frame of a lane. -/
def PortSt.waiting (p : PortSt) (vl : Nat) : Option (Nat × Frame) := p.sendWait.find? fun (x : Nat × Frame) => x.2.vl == vl

/-- The waiting frame that goes next (R413): control first, then bulk and reduce in turn, then the twin lane. -/
def PortSt.nextWaiting (p : PortSt) : Option (Nat × Frame) :=
  ([2] ++ (if p.turn = 0 then [1, 0] else [0, 1]) ++ [3]).findSome? fun vl =>
    match p.waiting vl with
    | some x => if p.maySend x.2 then some x else none
    | none => none

/-- A list without the first element that satisfies the test. -/
def dropFirst {α : Type} (p : α → Bool) : List α → List α
  | [] => []
  | x :: xs => if p x then xs else x :: dropFirst p xs

/-- Send the frames that wait at a port, as far as credit goes. -/
def State.flushWait (s : State) (q : Nat) : Nat → State
  | 0 => s
  | n + 1 =>
    match (s.port q).nextWaiting with
    | none => s
    | some x =>
      match s.trySend q x.2 with
      | none => s
      | some s =>
        let s := s.setPort q { s.port q with sendWait := dropFirst (fun (y : Nat × Frame) => y.2.vl == x.2.vl) (s.port q).sendWait }
        (if x.1 = 0 then s else s.owe (x.1 - 1) x.2.vl x.2.units).flushWait q n

/-- Send a frame on a port, or let it wait there for credit; `ingress` is one more than the port whose buffer holds it. -/
def State.sendOrWait (s : State) (q ingress : Nat) (f : Frame) : State :=
  match (if ((s.port q).waiting f.vl).isNone then s.trySend q f else none) with
  | some x => if ingress = 0 then x else x.owe (ingress - 1) f.vl f.units
  | none => s.setPort q { s.port q with sendWait := (s.port q).sendWait ++ [(ingress, f)] }

/-! ### Training -/

/-- Start training of a port: STATE 1 training or 3 retraining. It holds no credit, carries no frame, and the peer's identity is
still to come (R418, R442) (log 71). -/
def State.beginTraining (s : State) (q st : Nat) : State :=
  let s := ((s.setFld (Reg.linkState q) 2 0 st).setBit (Reg.linkState q) 7 false).setBit (Reg.linkPeer q) 31 false
  let s := s.setPort q { PortSt.idle with lanes := (s.port q).lanes }
  (s.showCredit q).emit (.trainPort q)

/-- A port is out: it carries nothing (R442). -/
def State.portOut (s : State) (q st : Nat) : State :=
  let s := (s.setFld (Reg.linkState q) 2 0 st).setBit (Reg.linkState q) 7 false
  (s.setPort q { PortSt.idle with lanes := (s.port q).lanes }).showCredit q

/-- Every port that is present and not fenced trains at START (R418) (log 71). -/
def State.trainAll (s : State) : State :=
  (List.range 32).foldl (fun (s : State) (q : Nat) =>
    if s.hubPresent (q / 16) && decide (s.fld (Reg.linkState q) 2 0 ≠ 4) then s.beginTraining q 1 else s) s

end Sys2Proof.Machine
end

