-- ==== Sys2Proof/Machine/Serrin.lean ====
section
/-! DEFINITION. Serrin modules: retry, removal for repair, lane repair, half width, fencing, lost connections
(R29 to R52). -/

namespace Sys2Proof.Machine

open Sys2Proof

/-- A module that has given no trouble. -/
def ModSt.clean : ModSt := { crc := 0, want := false, back := false, mapped := [], degraded := false }

/-- A module's own state. -/
def State.modSt (s : State) (hub n : Nat) : ModSt := (getKey s.mods (128 * hub + n)).getD ModSt.clean

/-- Replace a module's own state. -/
def State.setMod (s : State) (hub n : Nat) (m : ModSt) : State := { s with mods := putKey s.mods (128 * hub + n) m }

/-- The hub whose entry keeps what both ends of a seam module share: its repair, its mapped lanes and its first transition (R29, R48). -/
def modHome (hub n : Nat) : Nat := if 96 ≤ n then 0 else hub

/-- What both ends of a module share. -/
def State.modShared (s : State) (hub n : Nat) : ModSt := s.modSt (modHome hub n) n

/-- Replace what both ends of a module share. -/
def State.setShared (s : State) (hub n : Nat) (m : ModSt) : State := s.setMod (modHome hub n) n m

/-- The hub ends of a module: a seam module has one at each hub, with one number (R29). -/
def modEnds (hub n : Nat) : List (Nat × Nat) := if 96 ≤ n then [(0, n), (1, n)] else [(hub, n)]

/-- First module and number of modules of the connection that module `n` belongs to (Table 1.4). -/
def connOf (n : Nat) : Nat × Nat :=
  if n < 24 then (0, 24) else if n < 48 then (24, 24) else if n < 96 then (48 + (n - 48) / 6 * 6, 6) else (96, 24)

/-- Modules of a connection. -/
def connMods (n : Nat) : List Nat := (List.range (connOf n).2).map fun i => (connOf n).1 + i

/-- D2D_MOD_STATUS STATE of a module: 0 down, 1 under repair, 2 active, 3 fenced. -/
def State.modState (s : State) (hub n : Nat) : Nat := s.fld (Reg.d2dModStatus hub n) 1 0

/-- D2D_SUMMARY counts of a hub, computed from its modules (Table 1.16). HALF_CNT counts the active modules that run at x32: one under
repair or fenced carries no traffic, though its HALF_WIDTH still reads 1 (log 122). -/
def State.showModules (s : State) (hub : Nat) : State :=
  let s := s.setFld (Reg.d2dSummary hub) 6 0 (countBelow 120 fun n => s.modState hub n == 2)
  let s := s.setFld (Reg.d2dSummary hub) 13 7 (countBelow 120 fun n => s.modState hub n == 2 && s.bit (Reg.d2dModStatus hub n) 2)
  let s := s.setFld (Reg.d2dSummary hub) 20 14 (countBelow 120 fun n => s.modState hub n == 3)
  s.setBit (Reg.d2dSummary hub) 21 (decide (0 < countBelow 120 fun n => s.modState hub n == 1))

/-- Set a module's STATE at every end. -/
def State.setModState (s : State) (hub n st : Nat) : State :=
  (modEnds hub n).foldl (fun (s : State) (e : Nat × Nat) => (s.setFld (Reg.d2dModStatus e.1 e.2) 1 0 st).showModules e.1) s

/-- A module's first leaving of full width, or its fencing, sets LINK_DEGRADED (R48). -/
def State.degrade (s : State) (hub n : Nat) : State :=
  if (s.modShared hub n).degraded then s
  else
    let s := s.setShared hub n { s.modShared hub n with degraded := true }
    (modEnds hub n).foldl
      (fun (s : State) (e : Nat × Nat) => (s.setBit (Reg.d2dModStatus e.1 e.2) 7 true).setBit (Reg.d2dSummary e.1) 22 true) s

/-- Unit code of a module (Table 13.5). -/
def modUnit (hub n : Nat) : UnitCode := { typ := 2, idx := 128 * hub + n, sub := 0 }

/-- A connection whose modules are all fenced is lost: class FT while the device trains, else DL (R51, R52). -/
def State.connCheck (s : State) (hub n : Nat) : State :=
  if (connMods n).all fun m => s.modState hub m == 3 then
    s.lose { code := 0x1005, cls := if s.devState = 2 then 4 else 3, unit := modUnit hub n }
  else s

/-- Fence a module with a code (R39, R47). -/
def State.fenceModule (s : State) (hub n code cls : Nat) : State :=
  let s := (s.setModState hub n 3).degrade hub n
  let s := s.setShared hub n { s.modShared hub n with want := false, back := false }
  (s.logEntry { code := code, cls := cls, unit := modUnit hub n }).connCheck hub n

/-- Remove a module for repair, when no other module of its connection is out of service (R42 to R45). -/
def State.removeModule (s : State) (hub n : Nat) : State :=
  if (s.modShared hub n).want && s.modState hub n == 2 && !(connMods n).any fun m => s.modState hub m == 1 then
    ((s.setShared hub n { s.modShared hub n with want := false }).setModState hub n 1).emit (.retrain hub n)
  else s

/-- Return a module that has retrained (R44). -/
def State.returnModule (s : State) (hub n : Nat) : State :=
  if (s.modShared hub n).back then
    let s := (s.setShared hub n { s.modShared hub n with back := false }).setModState hub n 2
    (modEnds hub n).foldl (fun (s : State) (e : Nat × Nat) => s.setMod e.1 e.2 { s.modSt e.1 e.2 with crc := 0 }) s
  else s

/-- Gap entry for the modules: returns first, then removals (R43, R45). -/
def State.gapModules (s : State) : State :=
  let keys := s.mods.map fun (x : Nat × ModSt) => x.1
  let s := keys.foldl (fun s k => s.returnModule (k / 128) (k % 128)) s
  keys.foldl (fun s k => s.removeModule (k / 128) (k % 128)) s

/-- A window begins: each module counts its failed flits anew (R42). -/
def State.clearCrc (s : State) : State :=
  { s with mods := s.mods.map fun (x : Nat × ModSt) => (x.1, { x.2 with crc := 0 }) }

/-- Changes of modules take effect at once while RUN is 0 (R90). -/
def State.modulesNow (s : State) : State := if s.running then s else s.gapModules

/-- What the lane test leads to (R44, R46, R47): full width, or the chosen half (0 or 1), each with the mapped lanes, a data lane and
the repair lane that carries it, and those of them newly mapped; or nothing usable. -/
inductive LaneFix where
  | full (mapped : List (Nat × Nat)) (fresh : List Nat)
  | half (upper : Nat) (mapped : List (Nat × Nat))
  | none
deriving DecidableEq, Repr

/-- Lane repair for the failed lanes of a test (R41, R44, R46, R47): a mapped lane keeps its repair lane while that works, and each
further failed lane takes the lowest free repair lane. At half width all repair lanes are mapped anew. A repair lane that has
failed carries nothing (log 49). -/
def laneFix (old : List (Nat × Nat)) (failed : List Nat) (x32 : Bool) : LaneFix :=
  let data := (List.range 64).filter failed.contains
  let good := ([64, 65, 66, 67] : List Nat).filter fun i => !failed.contains i
  if data.length ≤ good.length then
    let kept := old.filter fun (x : Nat × Nat) => data.contains x.1 && good.contains x.2
    let fresh := data.filter fun l => !kept.any fun (x : Nat × Nat) => x.1 == l
    .full (kept ++ fresh.zip (good.filter fun i => !kept.any fun (x : Nat × Nat) => x.2 == i)) fresh
  else
    let lo := data.filter fun l => decide (l < 32)
    let hi := data.filter fun l => decide (32 ≤ l)
    let up := if hi.length < lo.length then 1 else 0
    let chosen := if up = 1 then hi else lo
    if x32 && decide (chosen.length ≤ good.length) then .half up (chosen.zip good) else .none

/-- Put lanes into a module's registers at both ends, and log 0x1001 for each newly mapped lane and 0x1002 for a drop to half width
(log 49). -/
def State.putLanes (s : State) (hub n half upper : Nat) (mapped : List (Nat × Nat)) (fresh : List Nat) : State :=
  let wasHalf := s.bit (Reg.d2dModStatus hub n) 2
  let s := s.setShared hub n { s.modShared hub n with mapped := mapped }
  let s := (modEnds hub n).foldl (fun (s : State) (e : Nat × Nat) =>
    let r := Reg.d2dModStatus e.1 e.2
    let s := ((s.setFld r 2 2 half).setFld r 3 3 upper).setFld r 6 4 mapped.length
    match fresh.getLast? with
    | some l => s.setFld r 30 24 l
    | none => s) s
  let s := fresh.foldl (fun s _ => s.logEntry { code := 0x1001, cls := 0, unit := modUnit hub n }) s
  if half = 1 && !wasHalf then (s.degrade hub n).logEntry { code := 0x1002, cls := 0, unit := modUnit hub n } else s

/-- Put the outcome of a lane test into the module's registers; `none` when the module must be fenced. A drop to half width maps every
lane of the chosen half anew; at half width already, only the lanes that were not mapped so are new (log 49). -/
def State.applyLanes (s : State) (hub n : Nat) (fix : LaneFix) : Option State :=
  match fix with
  | .full mapped fresh => some (s.putLanes hub n 0 0 mapped fresh)
  | .half up mapped =>
    let was := s.bit (Reg.d2dModStatus hub n) 2
    let old := (s.modShared hub n).mapped
    some (s.putLanes hub n 1 up mapped ((mapped.filter fun x => !was || !old.contains x).map (·.1)))
  | .none => none

end Sys2Proof.Machine
end

