-- ==== Sys2Proof/Machine/Fence.lean ====
section
/-! DEFINITION. Core mapping, the WGA directory's registers, and fencing with substitutes, guests and merges
(R130, R166, R181 to R187, R338, R375, R443, R467, R540, R541, Table 13.2). A fence logs its codes and changes the unit; a
device loss that it brings waits in `TestSt.loss` until the changes of the gap have been made (log 121). -/

namespace Sys2Proof.Machine

open Sys2Proof

/-! ### Cores -/

/-- Physical core that runs logical core `l` (CORE_MAP PHYS). -/
def State.physOf (s : State) (l : Nat) : Nat := s.fld (Reg.coreMap l) 6 0

/-- How logical core `l` runs (CORE_MAP HOW): 0 home, 1 spare, 2 cover, 3 guest. -/
def State.howOf (s : State) (l : Nat) : Nat := s.fld (Reg.coreMap l) 9 8

/-- CORE_MAP entry of a logical core. -/
def State.mapCore (s : State) (l p how : Nat) : State :=
  s.setReg (Reg.coreMap l) (BitVec.ofNat 32 (p % 128 + 128 + 256 * (how % 4)))

/-- CORE_STATE STATE and LOGICAL of a physical core. -/
def State.setCore (s : State) (p st log : Nat) : State :=
  (s.setFld (Reg.coreState p) 2 0 st).setFld (Reg.coreState p) 12 6 log

/-- Physical number of die `d`'s spare. -/
def spareOf (d : Nat) : Nat := 17 * d + 16

/-- CORE_SPARE SPARE_STATE of a die. -/
def State.spareState (s : State) (d : Nat) : Nat := s.fld (Reg.coreSpare d) 8 7

/-! ### WGA directory -/

/-- Directory entry of a tile; an entry that nothing has touched holds PTR 0, TOUCH 0 and SRAM_OK 0 (log 54). -/
def State.wgaTile (s : State) (l t : Nat) : WgaTile :=
  (s.cores.wga.find? fun w => w.core == l && w.tile == t).getD
    { core := l, tile := t, ptr := false, touch := false, sramOk := false, combBad := false }

/-- Replace a tile's directory entry. -/
def State.setWga (s : State) (w : WgaTile) : State :=
  { s with cores := { s.cores with
      wga := (s.cores.wga.filter fun x => !(x.core == w.core && x.tile == w.tile)) ++ [w] } }

/-- CORE_PROGRAM of a logical core in the plan that the run follows. -/
def State.coreProg (s : State) (l : Nat) : Option CoreProg :=
  match s.plan with
  | some p => p.cores.find? (·.logical == l)
  | none => none

/-- Tiles that a logical core's ops may use: WGA_TILES of its own header (R164, R174). -/
def State.wgaTiles (s : State) (l : Nat) : Nat := ((s.coreProg l).map (·.wgaTiles)).getD 0

/-- WGA_CTL and WGA_STATUS of the physical core that runs `l`; a guest's WGA shows nowhere (R174). A physical core that has ceased to
run a logical core keeps what they showed last (log 122). -/
def State.showWga (s : State) (l : Nat) : State :=
  if s.howOf l = 3 || !(s.bit (Reg.coreMap l) 7) then s
  else
    let p := s.physOf l
    let n := s.wgaTiles l
    let sr := ((s.coreProg l).map (·.wgaSr)).getD false
    let s := s.setReg (Reg.wgaCtl p)
      (BitVec.ofNat 32 ((if 0 < n then 1 else 0) + (if sr then 2 else 0) + 4 * n))
    let s := s.setFld (Reg.wgaStatus p) 8 0 (countBelow n fun t => (s.wgaTile l t).touch)
    s.setFld (Reg.wgaStatus p) 17 9 (countBelow n fun t => !(s.wgaTile l t).sramOk)

/-- The window at whose gap a change is made: the running one. -/
def State.gapBeat (s : State) : Nat := match s.beat.win with
  | some w => w.beat
  | none => 0

/-- The logical number passed to another physical core: SRAM_OK 0 for every tile (R169, R183, R556). The new core's program region is
loaded once the changes of the gap have been made (`State.loadMoved`). -/
def State.wgaMoved (s : State) (l : Nat) : State :=
  State.showWga (l := l) <| { s with cores := { s.cores with
      wga := s.cores.wga.map fun w => if w.core = l then { w with sramOk := false } else w
      subst := s.cores.subst ++ [(l, s.gapBeat)] } }

/-- Copy the program region of a logical core from the fingering to where the core finds it (R130, R183, R185) (log 117). -/
def State.loadProgram (s : State) (l : Nat) : State :=
  match s.coreProg l with
  | some c => (s.coreWrite l 0x1F00000 c.image).showWga l
  | none => s.showWga l

/-- The cores to which logical numbers have passed at the gap of window `beat` load their programs (R183 to R185, R556). -/
def State.loadMoved (s : State) (beat : Nat) : State :=
  (((s.cores.subst.filter fun (x : Nat × Nat) => x.2 == beat).map (·.1)).eraseDups).foldl (fun s l => s.loadProgram l) s

/-! ### Merges -/

/-- The unit that runs a unit's slots now: itself, or the unit that merged its list. -/
def followMerge (ms : List (UnitId × UnitId)) : Nat → UnitId → UnitId
  | 0, u => u
  | n + 1, u =>
    match ms.find? fun (m : UnitId × UnitId) => m.1 == u with
    | some m => followMerge ms n m.2
    | none => u

/-- The unit that executes the slot list of `u` (log 115). -/
def State.executor (s : State) (u : UnitId) : UnitId := followMerge s.test.merges 32 u

/-- Give a unit's slot list to another unit. -/
def State.merge (s : State) (u v : UnitId) : State :=
  { s with test := { s.test with merges := (s.test.merges.filter fun (m : UnitId × UnitId) => !(m.1 == u)) ++ [(u, v)] } }

/-- Take a merge back. -/
def State.unmerge (s : State) (u : UnitId) : State :=
  { s with test := { s.test with merges := s.test.merges.filter fun (m : UnitId × UnitId) => !(m.1 == u) } }

/-- Indices after `i` in a block of `n` from `base` on, wrapping, `i` last left out. -/
def ringAfter (base n i : Nat) : List Nat := (List.range (n - 1)).map fun k => base + (i - base + 1 + k) % n

/-- Forager lane of the usable bit `i` of FORG_LANES. -/
def State.laneUp (s : State) (f i : Nat) : Bool := s.bit (Reg.forgLanes f) i && !(s.isFenced { cls := 6, idx := 9 * f + i })

/-- The units that may merge `u`'s list, in the order in which they are asked. -/
def State.heirs (s : State) (u : UnitId) : List Nat :=
  if u.cls = 3 then (ringAfter (u.idx / 16 * 16) 16 u.idx).filter fun m => !(s.isFenced { cls := 3, idx := m })
  else if u.cls = 4 then
    let dir := u.idx / 12
    let hub := u.idx % 12 / 6
    let same := ringAfter (12 * dir + 6 * hub) 6 u.idx
    let other := (List.range 6).map fun k => 12 * dir + 6 * (1 - hub) + k
    same.filter (fun e => !(s.isFenced { cls := 4, idx := e }))
      ++ other.filter fun e => s.hubPresent (1 - hub) && !(s.isFenced { cls := 4, idx := e })
  else if u.cls = 5 then
    (ringAfter 0 32 u.idx).filter fun q => s.portUsable q && decide (s.portRole q = s.portRole u.idx)
  else if u.cls = 6 then
    let f := u.idx / 9
    let i := u.idx % 9
    if i < 8 then ((ringAfter (i / 4 * 4) 4 i).filter (s.laneUp f)).map fun j => 9 * f + j else []
  else []

/-! ### Fencing -/

/-- A fenced plan unit is OFF until the next reset of its domain (R502). -/
def State.fenceUnit (s : State) (u : UnitId) : State :=
  (s.setUnit u { s.unit u with fenced := true }).setPower u 3

/-- Fence a device-loss unit: the fence's own DL code and the device-loss path (R541, R543). -/
def State.lossFence (s : State) (code : Nat) (u : UnitCode) : State :=
  s.lose { code := code, cls := 3, unit := u }

/-- DEV_STATE follows the guests (R185, R555): the GUEST bit, and DEGRADED or ACTIVE while a fingering runs. -/
def State.showGuests (s : State) : State :=
  let g := (List.range 4).any fun d => s.bit (Reg.coreSpare d) 16
  let s := s.setBit Reg.devState 4 g
  if s.devState = 4 ∨ s.devState = 6 then s.setDevState (if g then 6 else 4) else s

/-- A physical core is out: CORE_STATE reads fenced, holding nothing, power OFF. -/
def State.coreOut (s : State) (p : Nat) : State :=
  (s.setCore p 4 0x7F).setFld (Reg.coreState p) 4 3 3

/-- The spare takes logical number `l` of the fenced core `p` (R183). -/
def State.substitute (s : State) (l p : Nat) : State :=
  let d := l / 16
  let sp := spareOf d
  let s := (s.mapCore l sp 1).setFld (Reg.coreSpare d) 8 7 2
  let s := (s.setCore sp 1 l).wgaMoved l
  s.logEntry { code := 0x3008, cls := 2, unit := { typ := 5, idx := p, sub := 0 } }

/-- The host core of a lost logical number: the next higher logical number of the die that runs (R185). -/
def State.hostFor (s : State) (l : Nat) : Option Nat :=
  (ringAfter (l / 16 * 16) 16 l).find? fun h => s.bit (Reg.coreMap h) 7 && !(decide (s.howOf h = 3))

/-- A core is lost with no core left for its logical numbers: the numbers `ls` run nowhere, and the device is lost (R186) (log 123). -/
def State.loseCore (s : State) (ls : List Nat) (uc : UnitCode) : State :=
  (ls.foldl (fun (s : State) (l : Nat) => if l < 64 then s.setReg (Reg.coreMap l) 0x7F else s) s).lossFence 0x300A uc

/-- The lost logical number becomes a guest (R185), or the device is lost (R186). -/
def State.makeGuest (s : State) (l p : Nat) : State :=
  let d := l / 16
  let uc : UnitCode := { typ := 5, idx := p, sub := 0 }
  if s.bit (Reg.coreSpare d) 16 then s.loseCore [l] uc
  else
    match s.hostFor l with
    | none => s.loseCore [l] uc
    | some h =>
      let hp := s.physOf h
      let s := (s.mapCore l hp 3).setFld (Reg.coreState hp) 19 13 l
      let s := (s.setFld (Reg.coreSpare d) 15 9 l).setBit (Reg.coreSpare d) 16 true
      let s := s.wgaMoved l
      let s := (List.range 3).foldl (fun s a => s.merge (arrayUnit l a) (arrayUnit h a)) s
      (s.merge (vectorUnit l) (vectorUnit h)).showGuests.logEntry { code := 0x3009, cls := 2, unit := uc }

/-- End the cover of die `d`: the tested core takes its number back from the spare (R184, R556). -/
def State.uncover (s : State) (d : Nat) : State :=
  match getKey s.test.testing d with
  | none => s
  | some p =>
    let s := { s with test := { s.test with testing := delKey s.test.testing d } }
    let s := s.setFld Reg.testStatus 3 0 (s.fld Reg.testStatus 3 0 - s.fld Reg.testStatus 3 0 / 2 ^ d % 2 * 2 ^ d)
    if p = spareOf d then s.setFld (Reg.coreState p) 2 0 5
    else
      let l := s.fld (Reg.coreState (spareOf d)) 12 6
      let s := ((s.mapCore l p 0).setCore p 1 l).setCore (spareOf d) 5 0x7F
      (s.setFld (Reg.coreSpare d) 8 7 0).wgaMoved l

/-- Fence a physical core at a gap (R183 to R187, R558). A spare that holds no logical number for good is fenced with 0x3008, as the
loss of the die's substitute (log 124). -/
def State.fenceCore (s : State) (p : Nat) : State :=
  let d := p / 17
  let sp := spareOf d
  let uc : UnitCode := { typ := 5, idx := p, sub := 0 }
  let l := s.fld (Reg.coreState p) 12 6
  let guest := s.fld (Reg.coreState p) 19 13
  if s.fld (Reg.coreState p) 2 0 = 4 ∨ 3 < d then s
  else if p = sp then
    if s.spareState d = 1 ∨ s.spareState d = 0 then
      -- a covering spare's tested core returns at the same gap; a spare under its own test abandons it (R558)
      (((s.uncover d).coreOut p).setFld (Reg.coreSpare d) 8 7 3).logEntry { code := 0x3008, cls := 2, unit := uc }
    else
      let s := (s.coreOut p).setFld (Reg.coreSpare d) 8 7 3
      if guest ≠ 0x7F then s.loseCore [l, guest] uc else s.makeGuest l p
  else if getKey s.test.testing d = some p then
    -- the core failed its test under cover: the spare keeps its number (R184, R558)
    let l := s.fld (Reg.coreState sp) 12 6
    let s := { s with test := { s.test with testing := delKey s.test.testing d } }
    let s := s.setFld Reg.testStatus 3 0 (s.fld Reg.testStatus 3 0 - s.fld Reg.testStatus 3 0 / 2 ^ d % 2 * 2 ^ d)
    (((s.coreOut p).mapCore l sp 1).setFld (Reg.coreSpare d) 8 7 2).logEntry
      { code := 0x3008, cls := 2, unit := uc }
  else
    let s := if s.spareState d = 1 then s.uncover d
      else if getKey s.test.testing d = some sp then s.uncover d else s
    if guest ≠ 0x7F then (s.coreOut p).loseCore [l, guest] uc
    else if s.spareState d = 0 then (s.coreOut p).substitute l p
    else (s.coreOut p).makeGuest l p

/-- The last lane of a kind is lost only to a forager whose streams use that kind (R375). -/
def State.kindUsed (s : State) (u : UnitId) : Bool :=
  if u.cls = 6 then
    match s.fing with
    | some { forager := some c, .. } =>
      c.streams.any fun st => st.forager == u.idx / 9 && st.kind == (if u.idx % 9 < 4 then 1 else 2)
    | _ => false
  else true

/-- Fence a mover, copy engine, link port or forager lane: its heir merges its slot list (Table 13.2). -/
def State.fenceMerging (s : State) (u : UnitId) (uc : UnitCode) (fn lost : Nat) : State :=
  if s.isFenced u then s
  else
    let s := s.fenceUnit u
    let s := if fn = 0 then s else s.logEntry { code := fn, cls := 2, unit := uc }
    match (s.heirs u).head? with
    | some v => s.merge u { cls := u.cls, idx := v }
    | none => if s.kindUsed u then s.lossFence lost uc else s

/-- A hub, pile, compute die or other unit without a substitute: FENCED in its die entry and the device-loss path. -/
def State.fenceDie (s : State) (hub d : Nat) (uc : UnitCode) : State :=
  ((s.setBit (Reg.dieStep hub d) 30 true).showCaps).lossFence 0x1007 uc

/-- A pile is lost: LOST, PILE_STATE 5, its die entry FENCED, 0x6015 and the device-loss path (R6, R363, R541). -/
def State.losePile (s : State) (n : Nat) : State :=
  let s := (s.setBit (Reg.dieRetired n) 6 true).setFld (Reg.pileState n) 2 0 5
  let s := (s.setBit (Reg.dieStep (pilePlace n).1 (pilePlace n).2) 30 true).showCaps
  s.lossFence 0x6015 { typ := 6, idx := n, sub := 31 }

/-- Retire a DRAM die: a known erasure from now on (R362). A pile with a retired die retires no second one. -/
def State.retireDie (s : State) (n die : Nat) : State :=
  if s.bit (Reg.dieRetired n) 5 then s
  else
    let s := (s.setFld (Reg.dieRetired n) 4 0 die).setBit (Reg.dieRetired n) 5 true
    let s := if s.fld (Reg.pileState n) 2 0 = 2 then s.setFld (Reg.pileState n) 2 0 4 else s
    s.logEntry { code := 0x6003, cls := 0, unit := { typ := 6, idx := n, sub := die } }

/-- The cores of a fenced compute die as its registers show them (R181). -/
def State.dieCoresOut (s : State) (k : Nat) : State :=
  let s := (List.range 16).foldl (fun (s : State) (i : Nat) => s.setReg (Reg.coreMap (16 * k + i)) 0x7F) s
  let s := (List.range 17).foldl (fun (s : State) (i : Nat) => s.setCore (17 * k + i) 4 0x7F) s
  s.setReg (Reg.coreSpare k) 0xFFFF

/-- A sample that a fenced lane had suspended goes back to the front of its queue (R373, R375) (log 75). -/
def State.giveBack (s : State) (lane : Nat) : State :=
  let mine := s.forager.suspended.filter fun (x : Nat × Queued) => x.1 == lane
  { s with forager := { s.forager with
      queue := mine.map (·.2) ++ s.forager.queue
      suspended := s.forager.suspended.filter fun (x : Nat × Queued) => !(x.1 == lane) } }

/-- Fence a forager lane: FORG_STATUS LAST_CODE shows the last of 0x7081 and 0x7082 (R375, R407, Table 9.10). -/
def State.fenceLane (s : State) (uc : UnitCode) : State :=
  let s := (s.setBit (Reg.forgLanes uc.idx) uc.sub false).setBit (Reg.forgLanes uc.idx) 16 true
  let u : UnitId := { cls := 6, idx := 9 * uc.idx + uc.sub }
  let s := (s.giveBack u.idx).fenceMerging u uc 0x7081 0x7082
  s.forgCode (if (s.heirs u).isEmpty && s.kindUsed u then 0x7082 else 0x7081)

/-- Fence the unit that a unit code names, at a gap (Table 13.2) (log 52). -/
def State.fenceNow (s : State) (uc : UnitCode) : State :=
    match uc.typ with
    | 1 => s.fenceDie uc.idx 0 uc
    | 3 => (s.dieCoresOut uc.idx).fenceDie (cdiePlace uc.idx).1 (cdiePlace uc.idx).2 uc
    | 4 => s.fenceCore uc.idx
    | 5 => s.fenceCore uc.idx
    | 2 => s.fenceModule (uc.idx / 128) (uc.idx % 128) 0x1003 0
    | 6 =>
      if uc.sub = 31 then s.fenceDie (pilePlace uc.idx).1 (pilePlace uc.idx).2 uc
      else if s.bit (Reg.dieRetired uc.idx) 5 then s.losePile uc.idx
      else s.retireDie uc.idx uc.sub
    | 7 => (((s.fenceUnit { cls := 7, idx := uc.idx }).setBit (Reg.updCtl uc.idx) 1 true).updCode uc.idx 0x500A).lossFence 0x500A uc
    | 8 => s.fenceMerging { cls := 3, idx := uc.idx } uc 0 0x1007
    | 9 => (s.setFld (Reg.ceStatus uc.idx) 1 0 3).fenceMerging { cls := 4, idx := uc.idx } uc 0x9005 0x900A
    | 10 =>
      let s := s.fenceUnit { cls := 5, idx := uc.idx }
      let s := (s.portOut uc.idx 4).logEntry { code := 0x8003, cls := 2, unit := uc }
      (match (s.heirs { cls := 5, idx := uc.idx }).head? with
      | some v => s.merge { cls := 5, idx := uc.idx } { cls := 5, idx := v }
      | none => s)
    | 11 =>
      if uc.sub < 8 then s.fenceLane uc
      else (s.setBit (Reg.forgLanes uc.idx) 8 false).lossFence 0x1007 uc
    | _ => s.lossFence 0x1007 uc

/-- Whether Table 13.2 gives a unit type a fence of its own; an RP event of any other unit leads to device loss (R97). -/
def fenceable (typ : Nat) : Bool := decide (typ ∈ [2, 4, 5, 6, 7, 8, 9, 10, 11])

/-- The fences that wait for a gap take place (R90) (log 52). -/
def State.settleFences (s : State) : State :=
  let fs := s.test.fences
  fs.foldl (fun s u => s.fenceNow u) { s with test := { s.test with fences := [] } }

end Sys2Proof.Machine
end

