-- ==== Sys2Proof/Machine/Routes.lean ====
section
/-! DEFINITION. Routes: directions, detours, aliases, the broadcast tree, and sending control messages, mirror frames and requests
(R298, R302, R303, R400, R412 to R416, R423, R426, R430, R431, R436, R437, R444, R447, R448, R450). -/

namespace Sys2Proof.Machine

open Sys2Proof

/-! ### Routes (R423, R426, R444) -/

/-- Neighbour in the direction of a role. -/
def neighbour (r : Route) (c : Coord) (role : Nat) : Coord :=
  if role = 1 then { c with x := (c.x + 1) % r.dx }
  else if role = 2 then { c with x := (c.x + r.dx - 1) % r.dx }
  else if role = 3 then { c with y := (c.y + 1) % r.dy }
  else if role = 4 then { c with y := (c.y + r.dy - 1) % r.dy }
  else if role = 5 then { c with z := (c.z + 1) % r.dz }
  else if role = 6 then { c with z := (c.z + r.dz - 1) % r.dz }
  else c

/-- Direction along one ring: the shorter way, + on a tie; `none` when there is no way to go. -/
def ringDir (plus d a b : Nat) : Option Nat :=
  if a = b ∨ d = 0 then none else if 2 * ((b + d - a) % d) ≤ d then some plus else some (plus + 1)

/-- Direction in dimension order; `none` at the destination. -/
def direction (r : Route) (me d : Coord) : Option Nat :=
  match ringDir 1 r.dx me.x d.x with
  | some k => some k
  | none =>
    match ringDir 3 r.dy me.y d.y with
    | some k => some k
    | none => ringDir 5 r.dz me.z d.z

/-- Usable ports of a role, each as often as it has lanes in use. -/
def State.portsOf (s : State) (role : Nat) : List Nat :=
  (List.range 32).flatMap fun q =>
    if s.portUsable q && decide (s.portRole q = role) then List.replicate (s.fld (Reg.linkWidth q) 2 0) q else []

/-- Size of the dimension that a role belongs to. -/
def roleDim (r : Route) (role : Nat) : Nat := if role ≤ 2 then r.dx else if role ≤ 4 then r.dy else r.dz

/-- The direction that a frame takes: its own, or a detour in the next dimension when the next hop is lost or no port of the
direction is usable (R426, R444). -/
def State.egress (s : State) (r : Route) (d : Coord) : Option Nat :=
  match direction r s.self d with
  | none => none
  | some k =>
    let free (k : Nat) : Bool := !(s.casc.lost.contains (neighbour r s.self k)) && !(s.portsOf k).isEmpty
    if free k then some k
    else
      let dim := (k - 1) / 2
      ([2 * ((dim + 1) % 3) + 1, 2 * ((dim + 2) % 3) + 1]).find? fun j => decide (2 ≤ roleDim r j) && free j

/-- No usable port is left for a role that slots need, and no detour serves its direction (R444). -/
def State.roleStuck (s : State) (role : Nat) : Bool :=
  match s.route with
  | none => false
  | some r =>
    let dim := (role - 1) / 2
    let detour : Bool := decide (role ≤ 6) && [2 * ((dim + 1) % 3) + 1, 2 * ((dim + 2) % 3) + 1].any fun j =>
      decide (2 ≤ roleDim r j) && !(s.casc.lost.contains (neighbour r s.self j)) && !(s.portsOf j).isEmpty
    decide (1 ≤ role ∧ role ≤ 7) && (s.portsOf role).isEmpty && !detour

/-- Key of a direction's order (R416): four lanes of each role, and of each intake port alone. -/
def orderKey (role q vl : Nat) : Nat := if role = 8 then 4 * (16 + q) + vl else 4 * role + vl

/-- Number a frame in the order of its direction and lane (R416). -/
def State.numbered (s : State) (key : Nat) (f : Frame) : Frame × State :=
  let n := (getKey s.casc.txSeq key).getD 0
  ({ f with dseq := n }, { s with casc := { s.casc with txSeq := putKey s.casc.txSeq key ((n + 1) % 4294967296) } })

/-- Send a frame in a direction: the ports are taken in turn in proportion to their widths. With `wait` a frame without credit waits
at a port of the direction; `ingress` is one more than the port that holds it. A retired device sends none (R448). -/
def State.launch (s : State) (role : Nat) (wait : Bool) (ingress : Nat) (f : Frame) : Option State :=
  if s.casc.retired then none
  else
    let ps := s.portsOf role
    let key := orderKey role 0 f.vl
    let n := (getKey s.casc.txSeq key).getD 0
    let order := ps.drop (n % max 1 ps.length) ++ ps.take (n % max 1 ps.length)
    let x := s.numbered key f
    match order.findSome? fun q => if ((s.port q).waiting f.vl).isNone then x.2.trySend q x.1 else none with
    | some y => some y
    | none =>
      if !wait then none
      else
        match order.head? with
        | some q => some (x.2.setPort q { x.2.port q with sendWait := (x.2.port q).sendWait ++ [(ingress, x.1)] })
        | none => none

/-- The coordinate that a frame for `d` goes to, and whether that is an alias (R426, R447): a lost member's twin (log 13). -/
def State.aliasOf (s : State) (r : Route) (d : Coord) : Coord × Bool :=
  if s.casc.lost.contains d then
    (if r.twin = packCoord d then (s.self, true)
    else (unpackCoord (Config.twinOf ((s.fing.map (·.hdr.cascadeId)).getD 0) (packCoord d)), true))
  else (d, false)

/-- This device answers for a coordinate: its own, or that of the lost device whose twin it is (R447). -/
def State.answersFor (s : State) (r : Route) (c : Coord) : Bool := decide ((s.aliasOf r c).1 = s.self)

/-- DEST of a frame that travels a broadcast tree for a group: the next device of the tree, with bit 7 of x set and the group in the
upper halves of y and z, which no coordinate uses (log 33). -/
def treeDest (g : Nat) (c : Coord) : Coord := { x := 128 + c.x, y := c.y + 16 * (g % 16), z := c.z + 16 * (g / 16) }

/-- The group of a tree DEST, and the device of the tree that it names. -/
def treeGroup (d : Coord) : Option Nat := if 128 ≤ d.x then some (d.y / 16 + 16 * (d.z / 16)) else none
def treeNode (d : Coord) : Coord := if 128 ≤ d.x then { x := d.x - 128, y := d.y % 16, z := d.z % 16 } else d

/-- A member index belongs to a group. -/
def Route.inGroup (r : Route) (g m : Nat) : Bool := decide (r.groups.getD g 0 / 2 ^ m % 2 = 1)

/-- Member indices of a group, ascending. -/
def Route.group (r : Route) (g : Nat) : List Nat := (List.range r.members.length).filter (r.inGroup g)

/-- Member index of a coordinate. -/
def Route.indexOf (r : Route) (c : Coord) : Nat := (r.members.findIdx? (· == packCoord c)).getD r.members.length

/-- Coordinate of a member index. -/
def Route.coord (r : Route) (m : Nat) : Coord := unpackCoord (r.members.getD m 0)

/-! ### The broadcast tree (R431) -/

/-- Next positions along one ring of `d` for a device at `x`, from an issuer at `a` (R431): + serves the ⌊d/2⌋ nearest,
− the rest. -/
def ringHops (d a x : Nat) : List Nat :=
  let up := d / 2
  let down := d - 1 - up
  let o := (x + d - a) % d
  if o = 0 then (if 0 < up then [(x + 1) % d] else []) ++ (if 0 < down then [(x + d - 1) % d] else [])
  else if o < up then [(x + 1) % d]
  else if up < o ∧ d - o < down then [(x + d - 1) % d]
  else []

/-- Where a device at `me` sends on a message of the issuer at `iss` (R431) (log 87). -/
def treeHops (r : Route) (iss me : Coord) : List Coord :=
  (if me.y = iss.y ∧ me.z = iss.z then (ringHops r.dx iss.x me.x).map fun v => { me with x := v } else [])
    ++ (if me.z = iss.z then (ringHops r.dy iss.y me.y).map fun v => { me with y := v } else [])
    ++ (ringHops r.dz iss.z me.z).map fun v => { me with z := v }

/-- The places of an issuer's tree that this device fills from place `c` on: a lost device's place falls to its twin (log 87). -/
def State.treeNodes (s : State) (r : Route) (iss : Coord) : Nat → Coord → List Coord
  | 0, c => [c]
  | n + 1, c => c :: ((treeHops r iss c).filter (s.answersFor r)).flatMap (s.treeNodes r iss n)

/-- The places next in the tree that other devices fill. -/
def State.treeNext (s : State) (r : Route) (iss : Coord) (nodes : List Coord) : List Coord :=
  (nodes.flatMap (treeHops r iss)).filter fun c => !(s.answersFor r c)

/-- Coordinate of a member index. -/
def State.memberAt (s : State) (i : Nat) : Coord :=
  match s.route with
  | some r => unpackCoord (r.members.getD i 0)
  | none => s.self

/-- Member index of a coordinate in the running route (R424). -/
def State.memberIdx (s : State) (c : Coord) : Nat :=
  match s.route with
  | some r => (r.members.findIdx? (· == packCoord c)).getD 0
  | none => 0

/-! ### Sending control messages (R430, R431, R436, R437) -/

/-- A frame of this device for a coordinate. -/
def State.frameTo (s : State) (typ vl flags : Nat) (dest : Coord) (taddr : Nat) (payload : Bytes) : Frame :=
  { typ := typ, vl := vl, flags := flags, len := payload.length, dest := dest, src := s.self, lseq := 0, dseq := 0
    cascade := s.cascade32, taddr := taddr, payload := payload, crc := 0 }

/-- A frame that came by a port goes no further: its buffer is free (`ingress` is one more than the port). -/
def State.dropAt (s : State) (ingress : Nat) (f : Frame) : State := if ingress = 0 then s else s.owe (ingress - 1) f.vl f.units

/-- Send a control frame on toward the device that answers for its destination. The twin of a lost device hands what is meant for
that coordinate to the spare on its twin ports (R450) (log 87). -/
def State.sendControl (s : State) (f : Frame) (ingress : Nat) : State :=
  match s.route with
  | none => s.dropAt ingress f
  | some r =>
    let d := s.aliasOf r f.dest
    let f := if d.2 then { f with flags := f.flags ||| 4 } else f
    let dir := if d.1 = s.self then (if f.dest ≠ s.self ∧ s.casc.spare then some 7 else none) else s.egress r d.1
    match dir with
    | some k => (s.launch k true ingress f).getD (s.dropAt ingress f)
    | none => s.dropAt ingress f

/-- Send a control message to one coordinate: a CONTROL frame of its own (R430). -/
def State.controlTo (s : State) (c : Coord) (m : CtlMsg) : State :=
  if c = s.self then s else s.sendControl (s.frameTo 7 2 0 c 0 m.bytes) 0

/-- Send a control message to the master and the backup (R436, R437). -/
def State.controlUp (s : State) (m : CtlMsg) : State :=
  let s' := match s.casc.master with
    | some c => s.controlTo c m
    | none => s
  match s.casc.backup with
  | some c => if s.casc.master = some c then s' else s'.controlTo c m
  | none => s'

/-- Send a message on from the places of the tree that this device fills, beginning at `me`; a spare that adopts one of them gets it
on the twin ports (R431, R450) (log 87). -/
def State.spreadFrom (s : State) (me : Coord) (m : CtlMsg) : State :=
  match s.route with
  | none => s
  | some r =>
    let nodes := s.treeNodes r (s.memberAt m.issuer) 3 me
    let to_ := s.treeNext r (s.memberAt m.issuer) nodes ++ nodes.filter fun c => !(c == s.self)
    to_.foldl (fun s c => s.sendControl (s.frameTo 7 2 0 c 0 m.bytes) 0) s

/-- Send a message on along its issuer's tree (log 87). -/
def State.spread (s : State) (m : CtlMsg) : State := s.spreadFrom s.self m

/-- Every frame of the twin lane before this DSEQ has been acknowledged on the twin ports (R302, R311) (log 90). -/
def State.twinSent (s : State) (n : Nat) : Bool :=
  let back (f : Frame) : Nat := (n + 4294967296 - f.dseq) % 4294967296
  let old (f : Frame) : Bool := f.vl == 3 && decide (1 ≤ back f ∧ back f ≤ 2147483648)
  (List.range 32).all fun q => s.portRole q != 7
    || !((s.port q).replay.any old || (s.port q).sendWait.any fun (x : Nat × Frame) => old x.2)

/-- DSEQ of the next frame of the twin lane. -/
def State.twinNext (s : State) : Nat := (getKey s.casc.txSeq (orderKey 7 0 3)).getD 0

/-! ### Sending to the twin (R298, R302, R303) -/

/-- This device's twin. -/
def State.twin (s : State) : Option Coord :=
  match s.route with
  | some r => if r.twin = 0xFFFFFFFF then none else some (unpackCoord r.twin)
  | none => none

/-- Send a mirror frame on the twin lane, in as many frames as its bytes need; LAST marks its last frame (log 120). -/
def State.sendTwin (s : State) (m : MirrorFrame) : State :=
  match s.twin with
  | none => s
  | some c =>
    let ps := cutBytes 4096 (m.bytes.length / 4096 + 1) m.bytes
    ps.zipIdx.foldl (fun (s : State) (p : Bytes × Nat) =>
      let flags := (if p.2 + 1 = ps.length then 1 else 0) + (if m.takeover then 4 else 0)
      (s.launch 7 true 0 (s.frameTo 1 3 flags c 0 p.1)).getD s) s

/-- Ask the twin for a tensor's shard, or for a page of it (R302, R303, R364): a REQUEST frame on the twin lane (log 120). -/
def State.askTwin (s : State) (tensor : Nat) (off : Option Nat) : State :=
  match s.twin with
  | none => s
  | some c => (s.launch 7 true 0 (s.frameTo 8 3 0 c 0 (askBytes tensor off))).getD s

/-- Send a REQUEST frame to the source on an intake port (R400, R429). -/
def State.askSource (s : State) (q : Nat) (request : Bytes) : State :=
  if s.portUsable q && !s.casc.retired then
    let x := s.numbered (orderKey 8 q 0) (s.frameTo 8 0 0 { x := 0, y := 0, z := 0 } 0 request)
    x.2.sendOrWait q 0 x.1
  else s

end Sys2Proof.Machine
end

