-- ==== Sys2Proof/Machine/Stop.lean ====
section
/-! DEFINITION. What waits for a gap and takes effect at once while RUN is 0, the end of a run, the device-loss path and FAILED, and
raising an event with what its class asks (R7, R43, R66, R90, R114, R182, R443, R448, R482, R486, R507, R543, R544, R561, Table 13.1). -/

namespace Sys2Proof.Machine

open Sys2Proof

/-! ### Changes that wait for a gap (R90, Table 2.2) -/

/-- The remote caches are there: RDC in CAP_COMMON (R59). -/
def State.hasRdc (s : State) : Bool := s.bit (Reg.capCommon 0) 9

/-- Hub of a compute die. -/
def dieHub (d : Nat) : Nat := d / 2

/-- Bring the EN bits of RDC_CTL into effect (R66); a half whose caches stop serving drops its lines. -/
def State.applyRdcEn (s : State) : State :=
  let on := (List.range 2).filter fun h => s.bit (Reg.rdcCtl h) 0
  { s with tier := { s.tier with rdcOn := on, rdc := s.tier.rdc.filter fun x => on.contains (dieHub x.die) } }

/-- The HDM port is up in CXL mode (R486, Table 11.16). -/
def State.hdmCxl (s : State) : Bool := (s.hport (portOf (s.fld Reg.hdmCtl 25 25))).cxl

/-- Pages of the HDM range. -/
def State.hdmPages (s : State) : Nat := s.hdmSize / 2097152

/-- Bit of a page in the bias table (R484). -/
def tableBit (t : Bytes) (p : Nat) : Bool := decide ((t.getD (p / 8) 0).toNat / 2 ^ (p % 8) % 2 = 1)

/-- Compare the bias table with the current biases and start a flip for each page that differs (R486). -/
def State.startFlips (s : State) : State :=
  let n := s.hdmPages
  let t := s.view (s.fld Reg.biasTableBase 31 0 * 65536) ((n + 7) / 8)
  let flips := (List.range n).filterMap fun p =>
    if tableBit t p = s.host.hostBias.contains p then none else some (p, tableBit t p)
  let s := { s with host := { s.host with flips := flips, applyWaits := false } }
  let s := s.setBit Reg.biasCtl 1 (!flips.isEmpty)
  let port := portOf (s.fld Reg.hdmCtl 25 25)
  flips.foldl (fun (s : State) (f : Nat × Bool) => if f.2 then s else s.emit (.snoop port f.1)) s

/-- Ports that have come back to ACTIVE return with their slots (R443) (log 71). -/
def State.portsReturn (s : State) : State :=
  (List.range 32).foldl (fun s q =>
    let u : UnitId := { cls := 5, idx := q }
    if decide (s.fld (Reg.linkState q) 2 0 = 2) && s.bit (Reg.linkState q) 7 && !(s.isFenced u) then
      (s.setPort q { s.port q with active := true }).unmerge u
    else s) s

/-- Covers whose core has passed its test end (R556). -/
def State.endCovers (s : State) : State :=
  let ds := s.test.passed
  ds.foldl (fun s d => s.uncover d) { s with test := { s.test with passed := [] } }

/-- Fences, module, port and presence changes that wait for a gap (R90, Table 2.2). Presence is brought up to date once for all of
them, so PRES_GEN rises once (R7) (log 122). -/
def State.settle (s : State) : State :=
  (((s.settleFences).gapModules).portsReturn).updatePresence

/-- Everything else that waits for a gap, with RUN 0: covers, a move of control, TEST_CTL, RDC_CTL EN and BIAS_CTL APPLY (R66, R90, R486,
R490, R556, R561). -/
def State.settleRest (s : State) : State :=
  let s := s.endCovers
  let s := match s.host.ctrlNext with
    | some p => s.setCtrl p
    | none => s
  let s := { s with test := { s.test with testCtl := s.reg Reg.testCtl } }
  let s := if s.hasRdc then s.applyRdcEn else s
  if s.host.applyWaits then s.startFlips else s

/-! ### What units show -/

/-- CORE_STATE STATE of a core follows its four units: running while one of them runs a slot (Table 3.16) (log 53). -/
def State.showCore (s : State) (l : Nat) : State :=
  let p := s.physOf l
  let st := s.fld (Reg.coreState p) 2 0
  let busy := (s.unit (vectorUnit l)).run.isSome || (List.range 3).any fun a => (s.unit (arrayUnit l a)).run.isSome
  if st = 1 ∨ st = 2 then s.setFld (Reg.coreState p) 2 0 (if busy then 2 else 1) else s

/-- Registers that show what a unit runs: CORE_STATE of cores, UPD_STATUS STATE of update engines (log 53). -/
def State.showRun (s : State) (u : UnitId) : State :=
  if u.cls = 1 then s.showCore (u.idx / 3)
  else if u.cls = 2 then s.showCore u.idx
  else if u.cls = 7 then
    if s.fld (Reg.updStatus u.idx) 1 0 = 3 then s
    else s.setFld (Reg.updStatus u.idx) 1 0 (if (s.unit u).run.isSome then 1 else 0)
  else s

/-- UPD_CTL EN and SHARDS of every engine (Table 6.13). -/
def State.showEngines (s : State) : State :=
  let shards : List Shard := match s.plan with
    | some { update := some u, .. } => u.shards
    | _ => []
  (List.range 16).foldl (fun s n =>
    let k := (shards.filter (·.pile == n)).length
    (s.setBit (Reg.updCtl n) 0 (decide (0 < k))).setFld (Reg.updCtl n) 28 16 k) s

/-! ### The end of a run (R114) -/

/-- The partial sums that wait go, and their reduce buffers are free again (R414, R428). -/
def State.dropPieces (s : State) : State :=
  let s := s.casc.pieces.foldl (fun (s : State) (p : ReducePiece) => s.owe p.port 1 ((36 + p.data.length + 63) / 64)) s
  { s with casc := { s.casc with pieces := [] } }

/-- The writes that wait for holding space go, and the receive buffers that held their data are free again (R350, R414). -/
def State.dropWaits (s : State) : State :=
  let s := s.tier.waits.foldl (fun (s : State) (w : HoldWait) => match w.owe with
    | some (q, vl, n) => s.owe q vl n
    | none => s) s
  { s with tier := { s.tier with waits := [] } }

/-- Everything that a run has received and not used goes, and its buffers are free again (R414). -/
def State.dropFrames (s : State) : State :=
  let s := (s.dropPieces).dropWaits
  let s := s.casc.rxHold.foldl (fun (s : State) (x : Nat × Nat × Nat × Frame) => s.owe x.2.1 x.2.2.2.vl x.2.2.2.units) s
  { s with casc := { s.casc with rxHold := [], mirrorIn := [], refreshDue := [] } }

/-- UPD_STATUS PARTIAL stays as the tags stood when the run ended (R270) (log 96). -/
def State.keepPartial (s : State) : State :=
  (List.range 16).foldl (fun (s : State) (n : Nat) => s.setBit (Reg.updStatus n) 3 (s.partialTag n)) s

/-- The registers show what every core and update engine runs. -/
def State.showRuns (s : State) : State :=
  let s := (List.range 64).foldl (fun (s : State) (l : Nat) => if s.bit (Reg.coreMap l) 7 then s.showCore l else s) s
  (List.range 16).foldl (fun (s : State) (n : Nat) => s.showRun { cls := 7, idx := n }) s

/-- Every plan unit rests (R507), and the registers show it: no core is running, each vector engine's power state, no engine at work. -/
def State.restUnits (s : State) : State :=
  let s := State.showRuns { s with units := s.units.map fun (x : Nat × UnitSt) => (x.1, UnitSt.rest (x.1 / 1024) x.2) }
  (List.range 64).foldl (fun (s : State) (l : Nat) =>
    if s.bit (Reg.coreMap l) 7 then s.showPower (vectorUnit l) (s.unit (vectorUnit l)).power else s) s

/-- The registers of a run return to what they read when none runs; the running slot is LOADED again (R114). BEAT_PERIOD and BEAT_CTL
VERDICT_DELAY keep the values of the run that ended (log 122). -/
def State.endRegs (s : State) : State :=
  let s := match s.runSlot with
    | some f => s.setSlotState f 2
    | none => s
  let s := s.setFld Reg.beatCtl 3 0 0
  let s := s.setFld Reg.fingStatus 7 7 0
  let s := (s.setReg Reg.cascadeInfo 0).showRoles none
  let s := s.setBit Reg.superCtl 9 false
  let s := (s.setFld (Reg.rdcCtl 0) 11 3 0).setFld (Reg.rdcCtl 1) 11 3 0
  -- the cross-port fence is on (Table 11.15)
  (s.showEngines).setBit Reg.xportFence 0 true

/-- What only a run holds goes with it. -/
def State.dropRun (s : State) : State :=
  { s with
    beat := { s.beat with win := none, prev := [], due := [], markers := [], waiting := false, stopNow := false,
                          switchTo := none, stopAt := none, switchedFrom := none }
    host := { s.host with runs := [], asks := s.host.asks.filter fun (x : Nat × HPort) => decide (x.1 < 64) }
    cores := { s.cores with signals := [] }
    casc := { s.casc with reports := [], joins := [], joinDue := [], readys := [], admitted := [], hold := false, lastMark := none, resume := none }
    upd := { s.upd with scanDelta := [], staged := [], stopped := [], ratesNew := none, stepNew := none, refresh := none } }

/-- End the run: no window, no slot, no role; with RUN 0, what waited for a gap takes effect at once (R90, R114). -/
def State.endRun (s : State) : State :=
  let s := (s.keepPartial).endRegs
  let s := (((s.cancelMoves).dropRdc).dropFrames).dropRun
  (s.restUnits.settle).settleRest

/-- A loss that came with the end of a run that another event ends needs no path of its own. -/
def State.clearLoss (s : State) : State := { s with test := { s.test with loss := none } }

/-- The report of the running beat, or with none of the present BEAT_COUNT, with SELF_LOST, sent to master and backup; FAILED sets FAULT
too (R434, R543, R544) (log 125). -/
def State.sendSelfLost (s : State) (fault : Bool) : State :=
  match s.fing with
  | none => s
  | some f =>
    if f.hdr.cascadeSize ≤ 1 then s
    else
      let w := s.beat.win
      let bad := fault || w.any (·.fault)
      s.controlUp
        { kind := 3, flags := 16 + (if bad then 1 else 0), stretch := 0, value := 0, coord := s.self,
          beat := (w.map (·.beat)).getD (s.pair Reg.beatCountLo), offset := 0, margin := (w.map (·.margin)).getD 0,
          planPos := (w.map (·.pos)).getD s.beat.nextPos, issuer := s.memberIdx s.self, lost := none }

/-- The device-loss path for this device's own loss (R543): it stops as a retired device does and enters HOLD; a device that has FAILED
stays so (R544). -/
def State.deviceLoss (s : State) : State :=
  if s.devState = 7 then s.clearLoss
  else
    let s := (((s.sendSelfLost false).endRun).clearLoss).enterHold
    ({ s with casc := { s.casc with retired := true } }).setBit Reg.lostCoord 14 true

/-- Abort a copy run (R482): CE_STATUS, 0x9003, and undefined bytes are left to the caller that knows the range. -/
def State.abortRun (s : State) (r : CopyRun) : State :=
  let s := s.setBit (Reg.ceStatus r.engine) 4 true
  let s := s.bumpSat (Reg.ceStatus r.engine) 31 22 1
  let s := s.setFld (Reg.ceStatus r.engine) 1 0 0
  s.logEntry { code := 0x9003, cls := 0, unit := { typ := 9, idx := r.engine, sub := 0 } }

/-- FAILED (R533, R544): every plan unit stops, every copy run is aborted, and the code stands in LAST_CODE; a device that
has FAILED keeps the code that brought it there (log 98). -/
def State.fail (s : State) (code : Nat) : State :=
  if s.devState = 7 then s.clearLoss
  else
    let s := (((s.host.runs.foldl (fun s r => s.abortRun r) s).sendSelfLost true).endRun).clearLoss
    (s.setDevState 7).setFld Reg.devState 31 16 code

/-- Act on the loss that the changes of a gap have brought (R541, R543) (log 121). -/
def State.takeLoss (s : State) : State :=
  match s.test.loss with
  | none => s
  | some (4, code) => s.fail code
  | some _ => s.deviceLoss

/-- Stop the plan as for STOP and enter HOLD (R114, R448). -/
def State.stopPlan (s : State) : State := ((s.endRun).enterHold).takeLoss

/-! ### Raising an event -/

/-- Codes of class DL that do not name the logging device's own loss (R543) (log 13). -/
def otherLoss (code : Nat) : Bool := code == 0x5043 || code == 0x5044 || code == 0x8043

/-- Log an event and do what its class asks (Table 13.1). -/
def State.raise (s : State) (e : Ev) : State :=
  let s := s.logEntry e
  if e.cls = 1 then s.markFault e
  else if e.cls = 3 then (if otherLoss e.code then s else s.deviceLoss)
  else if e.cls = 4 then s.fail e.code
  else s

/-- Raise an event that its chapter logs once per beat. -/
def State.raiseBeat (s : State) (key : Nat) (e : Ev) : State :=
  if s.beat.onceBeat.contains key then s
  else { s with beat := { s.beat with onceBeat := key :: s.beat.onceBeat } }.raise e

/-- Raise an event that its chapter logs once per step. -/
def State.raiseStep (s : State) (key : Nat) (e : Ev) : State :=
  if s.beat.onceStep.contains key then s
  else { s with beat := { s.beat with onceStep := key :: s.beat.onceStep } }.raise e

/-- Raise an event that its chapter logs once per plan cycle. -/
def State.raiseCycle (s : State) (key : Nat) (e : Ev) : State :=
  if s.beat.onceCycle.contains key then s
  else { s with beat := { s.beat with onceCycle := key :: s.beat.onceCycle } }.raise e

/-! ### Fences asked for outside a gap -/

/-- Take a unit out at the next gap entry, or at once while RUN is 0 (R90) (log 52). -/
def State.fenceLater (s : State) (uc : UnitCode) : State :=
  if s.running then
    if s.test.fences.contains uc then s else { s with test := { s.test with fences := s.test.fences ++ [uc] } }
  else ((s.fenceNow uc).updatePresence).takeLoss

/-- A pile is lost outside a gap (R363): at once. -/
def State.pileGone (s : State) (n : Nat) : State := ((s.losePile n).updatePresence).takeLoss

end Sys2Proof.Machine
end

