-- ==== Sys2Proof/Machine/HwErrs.lean ====
section
/-! DEFINITION. Errors that the hardware finds in its own memories and units while it works: pile codewords, comb, eDRAM,
remote caches, core SRAM, WGA banks and the parity of every unit (R65, R98, R156, R173, R356 to R366, Tables 1.9, 3.14,
5.11, 6.11, 8.10, 9.10, 11.11). -/

namespace Sys2Proof.Machine

open Sys2Proof

/-! ### Reed-Solomon RS(18,16) over GF(2^8), polynomial 0x11D (R360) -/

/-- Multiplication by α = 2. -/
def gfTwo (x : Nat) : Nat := let y := 2 * x; if 256 ≤ y then Nat.xor y 0x11D else y

/-- Multiplication by α^i. -/
def gfPow (x : Nat) : Nat → Nat
  | 0 => x
  | i + 1 => gfPow (gfTwo x) i

/-- The two syndromes of an error pattern: symbol positions and error values (log 50). -/
def syndromes (errs : List (Nat × Nat)) : Nat × Nat :=
  errs.foldl (fun (a : Nat × Nat) (e : Nat × Nat) => (Nat.xor a.1 e.2, Nat.xor a.2 (gfPow e.2 e.1))) (0, 0)

/-- What one of the four codes finds. -/
inductive RsFind where
  | clean
  | one (die value : Nat)
  | bad
deriving DecidableEq, Repr

/-- Decode one code: no error, one error at a die, or more (R361) (log 50). -/
def rsFind (errs : List (Nat × Nat)) : RsFind :=
  let (s0, s1) := syndromes errs
  if s0 = 0 ∧ s1 = 0 then .clean
  else
    match (List.range 18).find? fun i => s0 != 0 && gfPow s0 i == s1 with
    | some i => .one i s0
    | none => .bad

/-- The errors of code `j` of a codeword. -/
def codeErrs (j : Nat) (errs : List (Nat × Nat × Nat)) : List (Nat × Nat) :=
  errs.filterMap fun (e : Nat × Nat × Nat) => if e.2.1 = j && e.2.2 % 256 != 0 then some (e.1, e.2.2 % 256) else none

/-- Outcome of a codeword: clean, corrected in one die, recovered through the retired die, or uncorrectable. -/
inductive CwResult where
  | clean
  | corrected (die : Nat)
  | erased
  | bad
deriving DecidableEq, Repr

/-- Decode a codeword (R361, R362) (log 50). -/
def decodeCw (retired : Option Nat) (errs : List (Nat × Nat × Nat)) : CwResult :=
  let found := (List.range 4).map fun j => rsFind (codeErrs j errs)
  let dies := found.filterMap fun f => match f with
    | .one d _ => some d
    | _ => none
  if found.contains .bad then .bad
  else
    match retired with
    | some r => if dies.all (· == r) then (if dies.isEmpty then .clean else .erased) else .bad
    | none =>
      match dies with
      | [] => .clean
      | d :: rest => if rest.all (· == d) then .corrected d else .bad

/-! ### Lists -/

/-- Key of a listed codeword: piles 0 to 15, combs 16 to 19. -/
abbrev CwKey := Nat × Nat

/-- The entry of a listed codeword (R364). -/
def State.listedAt (s : State) (k : CwKey) : Option ListedCw := s.tier.listed.find? fun x => (x.mem, x.cw) == k

/-- A codeword is listed for repair (R364). -/
def State.isListed (s : State) (k : CwKey) : Bool := (s.listedAt k).isSome

/-- List a codeword, with the window and position of the planned read that failed; a pile's list takes 16 entries. -/
def State.list (s : State) (k : CwKey) (failed : Option (Nat × Nat)) : State :=
  if s.isListed k then
    { s with tier := { s.tier with
        listed := s.tier.listed.map fun x => if (x.mem, x.cw) == k then { x with failed := failed } else x } }
  else if 16 ≤ (s.tier.listed.filter fun x => x.mem == k.1).length then s
  else { s with tier := { s.tier with listed := s.tier.listed ++ [{ mem := k.1, cw := k.2, failed := failed }] } }

/-- Remove a codeword from its list. -/
def State.unlist (s : State) (k : CwKey) : State :=
  { s with tier := { s.tier with listed := s.tier.listed.filter fun x => !((x.mem, x.cw) == k) } }

/-- A window runs again what a window that ended in REPLAY ran (R94). -/
def State.inReplay (s : State) (beat : Nat) : Bool :=
  (s.beat.prev ++ s.beat.win.toList).any fun w => w.beat == beat && decide (0 < w.replays)

/-- The replay of a window has committed: the listed codewords whose reads failed in that window decoded when the replay read them
again, and leave the list (R364) (log 127). -/
def State.unlistReread (s : State) (w : Win) : State :=
  if w.replays = 0 then s
  else
    { s with tier := { s.tier with listed := s.tier.listed.filter fun x => match x.failed with
        | some (b, p) => !(decide (b < w.beat) && p == w.pos)
        | none => true } }

/-- Device address of a pile-local offset under the present group modes, the inverse of Table 8.2. -/
def State.devOf (s : State) (n off : Nat) : Nat :=
  let g := off / 2 ^ 30
  let o := off % 2 ^ 30
  let mode := s.groupMode g
  if mode = 1 then g * 2 ^ 34 + n / 8 * 2 ^ 33 + o / 4096 * 32768 + n % 8 * 4096 + o % 4096
  else if mode = 2 then g * 2 ^ 34 + n * 2 ^ 30 + o
  else g * 2 ^ 34 + o / 4096 * 65536 + n * 4096 + o % 4096

/-- The tensor at a device address and the offset of the address in it. -/
def State.tensorOf (s : State) (dev : Nat) : Option (Tensor × Nat) :=
  match s.fing with
  | none => none
  | some f =>
    f.tensors.findSome? fun t => match s.homeOf t with
      | some h => if h ≤ dev ∧ dev < h + t.size then some (t, dev - h) else none
      | none => none

/-- A tensor that the partner holds a copy of: mirrored, or of class MIRROR (R364). -/
def hasPartnerCopy (t : Tensor) : Bool := t.mirrored || t.cls == 5

/-- Ask the partner for the 4 KiB page that holds a device address (R364). -/
def State.askPage (s : State) (t : Tensor) (off : Nat) : State := s.askTwin t.id (some (off / 4096 * 4096))

/-- Loss of a retained input (R98). -/
def State.retainedLost (s : State) : State := s.raise { code := 0x2027, cls := 3 }

/-! ### Where an error arises -/

/-- The slot that an error arises in: plan unit, physical core, plan position and slot index, window. -/
structure ErrCtx where
  unit : UnitId
  phys : Nat
  place : Option (Nat × Nat)
  beat : Option Nat
deriving DecidableEq, Repr

/-- Unit code of a plan unit that runs on physical core `p` (Table 13.5). -/
def unitCode (u : UnitId) (p : Nat) : UnitCode :=
  match u.cls with
  | 1 => { typ := 4, idx := p, sub := u.idx % 3 }
  | 2 => { typ := 5, idx := p, sub := 0 }
  | 3 => { typ := 8, idx := u.idx, sub := 0 }
  | 4 => { typ := 9, idx := u.idx, sub := 0 }
  | 5 => { typ := 10, idx := u.idx, sub := 255 }
  | 6 => { typ := 11, idx := u.idx / 9, sub := u.idx % 9 }
  | 7 => { typ := 7, idx := u.idx, sub := 0 }
  | _ => { typ := 13, idx := 0, sub := 0 }

/-- Hub that a plan unit's half belongs to. -/
def unitHub (u : UnitId) : Nat :=
  match u.cls with
  | 1 => u.idx / 3 / 32
  | 2 => u.idx / 32
  | 3 => u.idx / 16
  | 4 => u.idx % 12 / 6
  | 5 => u.idx / 16
  | 6 => u.idx / 9
  | 7 => u.idx / 8
  | _ => 0

/-- An event of a unit in a slot. -/
def ErrCtx.ev (c : ErrCtx) (code cls : Nat) (u : UnitCode) : Ev :=
  { code := code, cls := cls, unit := u, place := c.place, beat := c.beat }

/-- Window and plan position of a planned read: `none` outside a slot. -/
def ErrCtx.readIn (c : ErrCtx) : Option (Nat × Nat) :=
  match c.beat, c.place with
  | some b, some p => some (b, p.1)
  | _, _ => none

/-- The read is a replay's, of a codeword whose read failed in an earlier window (R364). -/
def State.rereads (s : State) (c : ErrCtx) (k : CwKey) : Bool :=
  match c.beat, (s.listedAt k).bind (·.failed) with
  | some b, some f => decide (f.1 < b) && s.inReplay b
  | _, _ => false

/-- Core unit code of a context. -/
def ErrCtx.core (c : ErrCtx) : UnitCode := { typ := 5, idx := c.phys, sub := 0 }

/-! ### Piles -/

/-- Window of R362 and R363 in ns of the beat timebase. -/
def eccWindow : Nat := 1073741824

/-- A corrected codeword enters the records that R362 counts. -/
def State.noteCorrected (s : State) (n die : Nat) : State :=
  let recent := s.tier.corrected.filter fun (x : Nat × Nat × Nat) => Nat.blt s.now (x.2.2 + eccWindow)
  let run := match getKey s.tier.streak n with
    | some (d, k) => if d = die then k + 1 else 1
    | none => 1
  { s with tier := { s.tier with corrected := recent ++ [(n, die, s.now)], streak := putKey s.tier.streak n (die, run) } }

/-- The die meets one of the two conditions of R362. -/
def State.dieDue (s : State) (n die : Nat) : Bool :=
  let hits := (s.tier.corrected.filter fun (x : Nat × Nat × Nat) => x.1 == n && x.2.1 == die).length
  let run := ((getKey s.tier.streak n).map fun (x : Nat × Nat) => x.2).getD 0
  Nat.ble 4096 hits || Nat.ble 64 run

/-- A corrected codeword: count, log, and retirement of a die that R362 names. -/
def State.cwCorrected (s : State) (c : ErrCtx) (n die : Nat) : State :=
  let s := (s.bumpSat (Reg.eccCeCnt n) 31 0 1).raise (c.ev 0x6001 0 { typ := 6, idx := n, sub := die })
  let s := s.noteCorrected n die
  if s.dieDue n die && !s.bit (Reg.dieRetired n) 5 then s.fenceLater { typ := 6, idx := n, sub := die } else s

/-- An uncorrectable codeword: logged, captured, listed; 64 within the window lose the pile (R363, R364). -/
def State.cwBad (s : State) (c : ErrCtx) (n cw : Nat) (scrub : Bool) : State :=
  let s := if s.bit (Reg.ueAddr n) 31 then s
    else s.setReg (Reg.ueAddr n) (BitVec.ofNat 32 (cw % 1073741824 + (if scrub then 1073741824 else 0) + 2147483648))
  let s := (s.setBit (Reg.pileState n) 12 true).list (n, cw) c.readIn
  let times := (s.tier.ueTimes.filter fun (x : Nat × Nat) => Nat.blt s.now (x.2 + eccWindow)) ++ [(n, s.now)]
  let s := { s with tier := { s.tier with ueTimes := times } }
  let s := if scrub then s
    else s.raise { c.ev 0x6004 1 { typ := 6, idx := n, sub := 31 } with info1 := cw % 1073741824 }
  if 64 ≤ (times.filter fun (x : Nat × Nat) => x.1 == n).length then s.pileGone n else s

/-- A listed codeword is read again in the replay and does not decode: repaired from the partner, or a retained input is lost. -/
def State.listedBad (s : State) (c : ErrCtx) (k : CwKey) (dev : Nat) (u : UnitCode) : State :=
  match s.tensorOf dev with
  | some (t, off) => if hasPartnerCopy t then ((s.askPage t off).unlist k).raise (c.ev 0x6005 1 u) else s.retainedLost
  | none => s.retainedLost

/-- A planned read meets a codeword with these die errors (R361 to R364). -/
def State.readCw (s : State) (c : ErrCtx) (n cw : Nat) (errs : List (Nat × Nat × Nat)) : State :=
  if !s.pileUp n then s
  else
    let retired := if s.bit (Reg.dieRetired n) 5 then some (s.fld (Reg.dieRetired n) 4 0) else none
    match decodeCw retired errs with
    | .clean => s.unlist (n, cw)
    | .erased => s.unlist (n, cw)
    | .corrected die => (s.unlist (n, cw)).cwCorrected c n die
    | .bad =>
      if s.rereads c (n, cw) then s.listedBad c (n, cw) (s.devOf n (64 * cw)) { typ := 6, idx := n, sub := 31 }
      else s.cwBad c n cw false

/-! ### Comb and eDRAM -/

/-- Device address of a comb offset. -/
def combDev (d off : Nat) : Nat := 0x10000000000 + d * 2 ^ 32 + off

/-- An uncorrectable comb word (R366): in a home it is listed, and handled as a listed codeword when it still fails in the replay. -/
def State.combBad (s : State) (c : ErrCtx) (d off : Nat) : State :=
  let u : UnitCode := { typ := 3, idx := d, sub := 0 }
  let k : CwKey := (16 + d, off / 8)
  if s.rereads c k then s.listedBad c k (combDev d off) u
  else
    (if (s.tensorOf (combDev d off)).isSome then s.list k c.readIn else s).raise
      { c.ev 0x6009 1 u with info1 := off / 64 % 1073741824 }

/-- An uncorrectable eDRAM line (R357). -/
def State.edramBad (s : State) (c : ErrCtx) (n line : Nat) : State :=
  let u : UnitCode := { typ := 6, idx := n, sub := 31 }
  let dirty := s.tier.edram.any fun (x : Nat × Nat × Bool) => x.1 == n && x.2.1 == line && x.2.2
  let gone := { s with tier := { s.tier with edram := s.tier.edram.filter fun (x : Nat × Nat × Bool) => !(x.1 == n && x.2.1 == line) } }
  if !dirty then (gone.setBit (Reg.edramErr n) 16 true).raise (c.ev 0x6002 0 u)
  else
    let dev := s.devOf n (256 * line)
    let s := gone.setBit (Reg.edramErr n) 17 true
    match s.tensorOf dev with
    | some (t, off) =>
      if t.mirrored then (s.askPage t off).raise (c.ev 0x6005 1 u)
      else if (s.hostBiasPage dev).isSome then s.raise (c.ev 0x600B 4 u)
      else s.raise (c.ev 0x600A 3 u)
    | none => if (s.hostBiasPage dev).isSome then s.raise (c.ev 0x600B 4 u) else s.raise (c.ev 0x600A 3 u)

/-! ### Core SRAM and WGA (R132, R173) -/

/-- SRAM_ERR UE and UE_BANK of a physical core: bits [11:6] of the core-local address select the bank (R132). -/
def State.noteUe (s : State) (p off : Nat) : State :=
  (s.setBit (Reg.sramErr p) 16 true).setFld (Reg.sramErr p) 22 17 (off / 64)

/-- A committed read of a logical core's tile was served from the other copy: FALLBACK and 0x3005. A guest's WGA shows nowhere (R174). -/
def State.wgaFallback (s : State) (c : ErrCtx) (l : Nat) : State :=
  (if s.howOf l = 3 then s else s.setBit (Reg.wgaStatus (s.physOf l)) 19 true).raise
    (c.ev 0x3005 0 { typ := 5, idx := s.physOf l, sub := 0 })

/-- The committed SRAM copy of a tile fails: the comb copy serves, or with both copies bad the retained input is lost. A WGA bank is
read 64 bits at a time, and its tiles stand at multiples of 4 KiB, so a byte of a tile lies in the bank of R132 that its offset gives. -/
def State.wgaSramBad (s : State) (c : ErrCtx) (l t off : Nat) : State :=
  let w := s.wgaTile l t
  if w.sramOk then
    let s := (s.noteUe c.phys off).setWga { w with sramOk := false }
    if w.combBad then (s.showWga l).retainedLost else (s.showWga l).wgaFallback c l
  else s

/-- The committed comb copy of a tile fails: the SRAM copy serves while it holds, else the retained input is lost. -/
def State.wgaCombBad (s : State) (c : ErrCtx) (l t : Nat) : State :=
  let w := s.wgaTile l t
  if w.sramOk then (s.setWga { w with combBad := true }).wgaFallback c l else s.retainedLost

/-- The non-committed bank of a tile fails: 0x3006 while it is the working bank, else 0x300D. A guest's banks lie in the comb. -/
def State.wgaWorkBad (s : State) (c : ErrCtx) (l t off : Nat) : State :=
  let s := if s.howOf l = 3 then s else s.noteUe c.phys off
  if (s.wgaTile l t).touch then s.raise (c.ev 0x3006 1 c.core) else s.raise (c.ev 0x300D 0 c.core)

/-! ### Every kind -/

/-- What one hardware error does, for a unit of logical core `l` where it has one. -/
def State.hwErr (s : State) (c : ErrCtx) (l : Nat) (e : HwErr) : State :=
  match e with
  | .sramCe => (s.bumpSat (Reg.sramErr c.phys) 15 0 1).raise (c.ev 0x3001 0 c.core)
  | .sramUe off => (s.noteUe c.phys off).raise (c.ev 0x3002 1 c.core)
  | .weightParity =>
    (s.setBit (Reg.arrayErr c.phys) (4 * (c.unit.idx % 3)) true).raise (c.ev 0x3003 1 (unitCode c.unit c.phys))
  | .sumParity =>
    (s.setBit (Reg.arrayErr c.phys) (4 * (c.unit.idx % 3) + 1) true).raise (c.ev 0x3003 1 (unitCode c.unit c.phys))
  | .vectorParity => (s.setBit (Reg.vecErr c.phys) 0 true).raise (c.ev 0x3004 1 c.core)
  | .sfuParity => (s.setBit (Reg.vecErr c.phys) 1 true).raise (c.ev 0x3004 1 c.core)
  | .wgaSramUe t off => s.wgaSramBad c l t off
  | .wgaCombUe k t => s.wgaCombBad c k t
  | .wgaWorkUe t off => s.wgaWorkBad c l t off
  | .updLane => (s.updCode c.unit.idx 0x5002).raise (c.ev 0x5002 1 (unitCode c.unit c.phys))
  | .ceBuffer => (s.setBit (Reg.ceStatus c.unit.idx) 5 true).raise (c.ev 0x9004 1 (unitCode c.unit c.phys))
  | .foragerUe => (s.forgCode 0x7080).raise (c.ev 0x7080 1 (unitCode c.unit c.phys))
  | .watchBuffer => s.raise (c.ev 0x4001 1 { typ := 1, idx := unitHub c.unit, sub := 0 })
  | .hubBuffer h => s.raise (c.ev 0x1021 1 { typ := 1, idx := h, sub := 0 })
  | .combCe d => s.raise (c.ev 0x6002 0 { typ := 3, idx := d, sub := 0 })
  | .combUe d off => s.combBad c d off
  | .codeword n cw errs => s.readCw c n cw errs
  | .dramFail n => if s.pileUp n then s.pileGone n else s
  | .edramCe n => (s.bumpSat (Reg.edramErr n) 15 0 1).raise (c.ev 0x6002 0 { typ := 6, idx := n, sub := 31 })
  | .edramUe n line => s.edramBad c n line
  | .rdcUe d _ => s.raise (c.ev 0x1020 0 { typ := 3, idx := d, sub := 0 })
  | .superFail => s.raise (c.ev 0x6013 1 (unitCode c.unit c.phys))
  | .watchEntryUe => s.retainedLost
  | .retainedLost => s.retainedLost

/-- What the hardware errors of one slot or op do, in order. -/
def State.hwErrors (s : State) (c : ErrCtx) (l : Nat) (es : List HwErr) : State := es.foldl (fun s e => s.hwErr c l e) s

end Sys2Proof.Machine
end

