-- ==== Sys2Proof/Machine/Num.lean ====
section
/-! DEFINITION. Number formats (04_number_formats) and the arithmetic of the reference order (R217 to R229): exact
values, one rounding to nearest-even, conversions with saturation, and stochastic rounding. -/

namespace Sys2Proof.Machine

open Sys2Proof

/-- The exact value of a code: `m` times two to the `e`, with a sign, an infinity, or NaN. -/
inductive Fp where
  | nan
  | inf (neg : Bool)
  | fin (neg : Bool) (m : Nat) (e : Int)
deriving DecidableEq, Repr

/-- Value of an IEEE code of `ew` exponent and `mw` mantissa bits (R196). -/
def decodeIeee (ew mw : Nat) (c : Nat) : Fp :=
  let neg := decide (c / 2 ^ (ew + mw) % 2 = 1)
  let e := c / 2 ^ mw % 2 ^ ew
  let m := c % 2 ^ mw
  let bias : Int := 2 ^ (ew - 1) - 1
  if e = 2 ^ ew - 1 then (if m = 0 then .inf neg else .nan)
  else if e = 0 then .fin neg m (1 - bias - mw)
  else .fin neg (2 ^ mw + m) (e - bias - mw)

/-- Value of an FP32 code. -/
def fp32 (w : Word) : Fp := decodeIeee 8 23 w.toNat

/-- Value of a BF16 code. -/
def bf16 (c : Nat) : Fp := decodeIeee 8 7 c

/-- Value of an FP16 code. -/
def fp16 (c : Nat) : Fp := decodeIeee 5 10 c

/-- Value of a ZF8 code in a block of scale `s` (R198, R203). -/
def zf8 (s c : Nat) : Fp :=
  if s = 255 ∨ c = 0x80 then .nan
  else
    let neg := decide (c / 128 % 2 = 1)
    let e := c / 8 % 16
    let m := c % 8
    if e = 0 then .fin neg m (-10 + (s - 127)) else .fin neg (8 + m) ((e : Int) - 11 + (s - 127))

/-- Value of a ZF4 code in a block of scale `s` (R199, R203). -/
def zf4 (s c : Nat) : Fp :=
  if s = 255 then .nan
  else if c = 8 then .fin false 0 0
  else
    let neg := decide (c / 8 % 2 = 1)
    let e := c / 2 % 4
    let m := c % 2
    if e = 0 then .fin neg m (-1 + (s - 127)) else .fin neg (2 + m) ((e : Int) - 2 + (s - 127))

/-- Bits of a number. -/
def bitLen (m : Nat) : Nat := if m = 0 then 0 else m.log2 + 1

/-- Round `m * 2^e` to `p` significant bits on a grid no finer than `2^emin`, ties to even (R191). -/
def roundGrid (m : Nat) (e : Int) (p : Nat) (emin : Int) : Nat × Int :=
  let q := max (e + bitLen m - p) emin
  if q ≤ e then (m, e)
  else
    let sh := (q - e).toNat
    let n := m >>> sh
    let r := m - n <<< sh
    let half := 1 <<< (sh - 1)
    (if half < r ∨ (r = half ∧ n % 2 = 1) then n + 1 else n, q)

/-- `m * 2^e < n * 2^f`. -/
def magLt (m : Nat) (e : Int) (n : Nat) (f : Int) : Bool :=
  let b := min e f
  decide (m <<< (e - b).toNat < n <<< (f - b).toNat)

/-- Code of a value that lies on the grid of an IEEE format below its infinity, without the sign bit. -/
def encodeIeee (ew mw : Nat) (m : Nat) (e : Int) : Nat :=
  let bias : Int := 2 ^ (ew - 1) - 1
  let emin : Int := 1 - bias - mw
  if m = 0 then 0
  else
    let len := bitLen m
    let top : Int := e + len
    let q := max (top - (mw + 1)) emin
    let n := if q ≤ e then m <<< (e - q).toNat else m >>> (q - e).toNat
    if n < 2 ^ mw then n else (q - emin + 1).toNat * 2 ^ mw + (n - 2 ^ mw)

/-- Canonical NaN of FP32 (Table 4.2). -/
def nan32 : Word := 0x7FC00000

/-- Infinity of a sign in FP32. -/
def inf32 (neg : Bool) : Word := if neg then 0xFF800000 else 0x7F800000

/-- Zero of a sign in FP32. -/
def zero32 (neg : Bool) : Word := if neg then 0x80000000 else 0

/-- FP32 result of arithmetic with exact value `m * 2^e` (R191, R204): one rounding, overflow to infinity. -/
def arith32 (neg : Bool) (m : Nat) (e : Int) : Word :=
  let (n, q) := roundGrid m e 24 (-149)
  if magLt n q 1 128 then BitVec.ofNat 32 ((if neg then 2147483648 else 0) + encodeIeee 8 23 n q) else inf32 neg

/-- FP32 code of an exact value under arithmetic. -/
def Fp.to32 : Fp → Word
  | .nan => nan32
  | .inf neg => inf32 neg
  | .fin neg m e => arith32 neg m e

/-- A value with its sign turned. -/
def Fp.neg : Fp → Fp
  | .nan => .nan
  | .inf n => .inf !n
  | .fin n m e => .fin (!n) m e

/-- A signed number times a power of two as an exact value; zero takes the sign given. -/
def fpOfInt (x : Int) (e : Int) (zneg : Bool) : Fp :=
  if x = 0 then .fin zneg 0 0 else .fin (decide (x < 0)) x.natAbs e

/-- Signed mantissa at a common exponent. -/
def signedAt (neg : Bool) (m : Nat) (e b : Int) : Int :=
  let v : Int := (m <<< (e - b).toNat : Nat)
  if neg then -v else v

/-- Exact sum of two values (R218): opposite infinities give NaN, a zero sum of nonzero operands +0. -/
def Fp.add : Fp → Fp → Fp
  | .nan, _ => .nan
  | _, .nan => .nan
  | .inf a, .inf b => if a = b then .inf a else .nan
  | .inf a, .fin _ _ _ => .inf a
  | .fin _ _ _, .inf b => .inf b
  | .fin a m e, .fin b n f =>
    let g := min e f
    fpOfInt (signedAt a m e g + signedAt b n f g) g (m == 0 && n == 0 && a && b)

/-- Exact product of two values (R204). -/
def Fp.mul : Fp → Fp → Fp
  | .nan, _ => .nan
  | _, .nan => .nan
  | .inf a, .inf b => .inf (xor a b)
  | .inf a, .fin b n _ => if n = 0 then .nan else .inf (xor a b)
  | .fin a m _, .inf b => if m = 0 then .nan else .inf (xor a b)
  | .fin a m e, .fin b n f => .fin (xor a b) (m * n) (e + f)

/-- FP32 addition, one rounding (R218). -/
def addRne (a b : Word) : Word := ((fp32 a).add (fp32 b)).to32

/-- FP32 subtraction. -/
def subRne (a b : Word) : Word := ((fp32 a).add (fp32 b).neg).to32

/-- FP32 multiplication. -/
def mulRne (a b : Word) : Word := ((fp32 a).mul (fp32 b)).to32

/-- FP32 fused multiply-add, one rounding. -/
def fma32 (a b c : Word) : Word := (((fp32 a).mul (fp32 b)).add (fp32 c)).to32

/-- A NaN code of FP32. -/
def isNan32 (a : Word) : Bool := (fp32 a) == .nan

/-- A finite FP32 code. -/
def isFin32 (a : Word) : Bool :=
  match fp32 a with
  | .fin _ _ _ => true
  | _ => false

/-- The sign bit set. -/
def isNeg32 (a : Word) : Bool := decide (2147483648 ≤ a.toNat)

/-- Sign bit inverted and cleared (R194). -/
def negate32 (a : Word) : Word := a ^^^ 0x80000000
def abs32 (a : Word) : Word := a &&& 0x7FFFFFFF

/-- Order of two non-NaN values, −0 below +0 (R214): a rank that rises with the value. -/
def rank32 (a : Word) : Int := if isNeg32 a then -((a.toNat : Int) - 2147483648) - 1 else a.toNat

/-- Maximum and minimum (R214). -/
def max32 (a b : Word) : Word :=
  if isNan32 a || isNan32 b then nan32 else if rank32 a < rank32 b then b else a
def min32 (a b : Word) : Word :=
  if isNan32 a || isNan32 b then nan32 else if rank32 b < rank32 a then b else a

/-- A value order that takes −0 and +0 as equal. -/
def valRank32 (a : Word) : Int := if a = 0x80000000 then 0 else if isNeg32 a then -((a.toNat : Int) - 2147483648) else a.toNat

/-- Comparison predicates (Table 4.7): 0 EQ, 1 NE, 2 LT, 3 LE, 4 GT, 5 GE, 6 UN. -/
def cmp32 (pred : Nat) (a b : Word) : Bool :=
  let un := isNan32 a || isNan32 b
  let x := valRank32 a
  let y := valRank32 b
  match pred with
  | 0 => !un && decide (x = y)
  | 1 => un || !(decide (x = y))
  | 2 => !un && decide (x < y)
  | 3 => !un && decide (x ≤ y)
  | 4 => !un && decide (y < x)
  | 5 => !un && decide (y ≤ x)
  | _ => un

/-! ### Stochastic rounding (R224 to R227) -/

/-- The hash of R226: 16 random bits from the seed and five words. -/
def srBits (seed : Nat) (ws : List Nat) : Nat :=
  let lo : Word := BitVec.ofNat 32 seed
  let hi : Word := BitVec.ofNat 32 (seed / 4294967296)
  let h := ws.foldl (fun (h : Word) w =>
    let h := (h ^^^ BitVec.ofNat 32 w) * 0x85EBCA6B
    let h := h.rotateLeft 13 ^^^ hi
    h * 0xC2B2AE35) (lo ^^^ 0x9E3779B9)
  let h := (h ^^^ (h >>> 16)) * 0x7FEB352D
  let h := h ^^^ (h >>> 15)
  h.toNat / 65536

/-- add_sr (R225). -/
def addSr (a b : Word) (r : Nat) : Word :=
  match (fp32 a), (fp32 b) with
  | .fin sa m e, .fin sb n f =>
    let g := min e f
    let x := signedAt sa m e g + signedAt sb n f g
    if x = 0 then addRne a b
    else
      let mag := x.natAbs
      let neg := decide (x < 0)
      if !(magLt mag g 1 128) then inf32 neg
      else
        let q := max (g + bitLen mag - 24) (-149)
        if q ≤ g then arith32 neg mag g
        else
          let sh := (q - g).toNat
          let t := mag >>> sh
          let rem := mag - t <<< sh
          let qq := (rem * 65536) >>> sh
          let t2 := if 65536 ≤ qq + r then t + 1 else t
          if magLt t2 q 1 128 then BitVec.ofNat 32 ((if neg then 2147483648 else 0) + encodeIeee 8 23 t2 q)
          else inf32 neg
  | _, _ => addRne a b

/-! ### Conversions (R208 to R213) -/

/-- Target formats of a conversion. -/
inductive Fmt where
  | fp32 | bf16 | fp16 | zf8 | zf4
deriving DecidableEq, Repr

/-- Significant bits, least grid exponent and greatest finite value `m * 2^e` of a format at scale 2^0. -/
def Fmt.shape : Fmt → Nat × Int × Nat × Int
  | .fp32 => (24, -149, 16777215, 104)
  | .bf16 => (8, -133, 255, 120)
  | .fp16 => (11, -24, 2047, 5)
  | .zf8 => (4, -10, 15, 4)
  | .zf4 => (2, -1, 3, 1)

/-- Code of a magnitude on the grid of a format (Tables 4.1, 4.3 and R199). -/
def Fmt.code (f : Fmt) (m : Nat) (e : Int) : Nat :=
  match f with
  | .fp32 => encodeIeee 8 23 m e
  | .bf16 => encodeIeee 8 7 m e
  | .fp16 => encodeIeee 5 10 m e
  | .zf8 =>
    if m = 0 then 0
    else
      let q := max (e + bitLen m - 4) (-10)
      let n := if q ≤ e then m <<< (e - q).toNat else m >>> (q - e).toNat
      if n < 8 then n else (q + 11).toNat * 8 + (n - 8)
  | .zf4 =>
    if m = 0 then 0
    else
      let q := max (e + bitLen m - 2) (-1)
      let n := if q ≤ e then m <<< (e - q).toNat else m >>> (q - e).toNat
      if n < 2 then n else (q + 2).toNat * 2 + (n - 2)

/-- Sign bit of a format. -/
def Fmt.signBit : Fmt → Nat
  | .fp32 => 2147483648
  | .bf16 => 32768
  | .fp16 => 32768
  | .zf8 => 128
  | .zf4 => 8

/-- What a conversion of one element gives: its code and the events of R208 and R211. -/
structure Conv where
  code : Nat
  sat : Bool
  isNan : Bool
  isInf : Bool
  isZero : Bool
deriving DecidableEq, Repr

/-- Conversion of one value to a format; `t` is the unbiased exponent of the target block's scale (0 for the IEEE
formats). NaN and infinities of a ZF4 block are its scale's affair (R209). -/
def convert (f : Fmt) (t : Int) (x : Fp) : Conv :=
  let block := match f with
    | .zf8 => true
    | .zf4 => true
    | _ => false
  match x with
  | .nan =>
    { code := match f with
        | .fp32 => 0x7FC00000
        | .bf16 => 0x7FC0
        | .fp16 => 0x7E00
        | .zf8 => 0x80
        | .zf4 => 0
      sat := false, isNan := true, isInf := false, isZero := false }
  | .inf neg =>
    if block then { code := if f = .zf8 then 0x80 else 0, sat := false, isNan := true, isInf := false, isZero := false }
    else
      let c := match f with
        | .bf16 => 0x7F80
        | .fp16 => 0x7C00
        | _ => 0x7F800000
      { code := c + (if neg then f.signBit else 0), sat := false, isNan := false, isInf := true, isZero := false }
  | .fin neg m e =>
    let (p, emin, gm, ge) := f.shape
    let (n, q) := roundGrid m (e - t) p emin
    let sat := magLt gm ge n q
    let mag := if sat then f.code gm ge else f.code n q
    let c := if mag = 0 then (if neg && !block then f.signBit else 0) else mag + (if neg then f.signBit else 0)
    { code := c, sat := sat, isNan := false, isInf := false, isZero := decide (mag = 0) }

/-- Widening of a value to FP32 by conversion: a finite source never gives an infinity (R208). -/
def widen (x : Fp) : Word := BitVec.ofNat 32 (convert .fp32 0 x).code

/-- Magnitude of a finite value as FP32 for AMAX, `none` when not finite (R233). -/
def finMag (w : Word) : Option Word := if isFin32 w then some (abs32 w) else none

/-- The least integer t with `a ≤ F * 2^t` for a positive FP32 magnitude, F = 240 for ZF8 and 6 for ZF4 (Table 5.7). -/
def leastExp (zf8Target : Bool) (a : Word) : Int :=
  match fp32 a with
  | .fin _ m e =>
    let (gm, ge) := if zf8Target then (15, (4 : Int)) else (3, 1)
    let t0 : Int := e + bitLen m - (ge + bitLen gm)
    if magLt gm (ge + t0) m e then t0 + 1 else t0
  | _ => 0

/-! ### Combining lanes (R228, R229) -/

/-- One round of the lane tree: neighbours combined. -/
def treeRound (op : Word → Word → Word) : List Word → List Word
  | a :: b :: rest => op a b :: treeRound op rest
  | [a] => [a]
  | [] => []

/-- The lane tree of R228 over 128 lanes. -/
def laneTree (op : Word → Word → Word) (v : List Word) : Word :=
  ((List.range 7).foldl (fun v _ => treeRound op v) v).headD 0

end Sys2Proof.Machine
end

