-- ==== Sys2Proof/Machine/Super.lean ====
section
/-! DEFINITION. The super tier's reads and writes on the host ports, and homings (R336, R343 to R346, R351, R352). -/

namespace Sys2Proof.Machine

open Sys2Proof

/-- A port is up (R471, R519): its link is up and its function is in D0. -/
def State.portUp (s : State) (p : HPort) : Bool :=
  (s.hport p).up && decide (s.fld Reg.devState (6 + 2 * portIdx p) (5 + 2 * portIdx p) = 0)

/-- Half of a device address that is no tensor address. -/
def State.halfOf (s : State) (a : Nat) : Option Nat :=
  match s.locate a with
  | some (.dram n _) => some (n / 8)
  | some (.comb d _) => some (d / 2)
  | _ => none

/-! ### The super tier (R343 to R346) -/

/-- First address of the super window. -/
def superBase : Nat := 0x100000000000

/-- The address lies in the super tier. -/
def isSuper (a : Nat) : Bool := decide (superBase ≤ a ∧ a < 0x200000000000)

/-- The port that serves a super entry: the first that its PORT allows and that is up (log 47). -/
def State.superPort (s : State) (e : SuperEntry) : Option HPort :=
  let allowed : List HPort := if e.port = 0 then [.a] else if e.port = 1 then [.b] else if e.port = 2 then [.a, .b] else [.b, .a]
  allowed.find? s.portUp

/-- The parts of a super range: port, host address, bytes; `none` where no allowed port of an entry is up (log 97). -/
def State.superParts (s : State) (a n : Nat) : List (Option HPort × Nat × Nat) :=
  let off := a - superBase
  s.tier.super.filterMap fun e =>
    let lo := max off e.off
    let hi := min (off + n) (e.off + e.length)
    if lo < hi then some (s.superPort e, e.hostAddr + (lo - e.off), hi - lo) else none

/-- Some part of a super range has no port (R346). -/
def State.superDown (s : State) (a n : Nat) : Bool := (s.superParts a n).any fun x => x.1.isNone

/-- Mover `m` waits for completions on these ports. -/
def State.askOn (s : State) (m : Nat) (ps : List HPort) : State :=
  { s with host := { s.host with
    asks := (s.host.asks.filter fun (x : Nat × HPort) => !(x.1 == m)) ++ ps.map fun p => (m, p) } }

/-- Mover `m` waits for no completion any more. -/
def State.dropAsks (s : State) (m : Nat) : State :=
  { s with host := { s.host with asks := s.host.asks.filter fun (x : Nat × HPort) => !(x.1 == m) } }

/-- Read requests of mover `m` for a super range (log 97). -/
def State.superAsk (s : State) (m a n : Nat) : State :=
  let ps := s.superParts a n
  let s := s.askOn m (ps.filterMap (·.1))
  ps.foldl (fun (s : State) (x : Option HPort × Nat × Nat) => match x.1 with
    | some p => s.emit (.hostRead p x.2.1 x.2.2 none)
    | none => s) s

/-- Write requests of mover `m` for a super range, and the flushing read on each port that carried them (R336) (log 97). -/
def State.superPut (s : State) (m a : Nat) (data : Bytes) : State :=
  let ps := s.superParts a data.length
  let s := (ps.foldl (fun (x : State × Bytes) (y : Option HPort × Nat × Nat) => match y.1 with
    | some p => (x.1.emit (.hostWrite p y.2.1 (x.2.take y.2.2)), x.2.drop y.2.2)
    | none => x) (s, data)).1
  let last (p : HPort) : Option Nat := ((ps.filter fun y => y.1 == some p).getLast?).map fun y => y.2.1
  let s := s.askOn m ([HPort.a, HPort.b].filter fun p => (last p).isSome)
  [HPort.a, HPort.b].foldl (fun (s : State) (p : HPort) => match last p with
    | some h => s.emit (.hostRead p h 0 none)
    | none => s) s

/-! ### Homings (R351, R352) -/

/-- BEAT_COUNT of the running window. -/
def State.beatNow (s : State) : Nat := match s.beat.win with
  | some w => w.beat
  | none => s.pair Reg.beatCountLo

/-- A move that has begun and not completed (Table 8.24). -/
def MoveSt.isOpen (m : MoveSt) : Bool := if m.homing then !m.complete else decide (m.progress < m.length)

/-- Put MOVE_STATUS ACTIVE in step with the moves. -/
def State.showMoves (s : State) : State :=
  s.setFld Reg.moveStatus 11 0 (min 0xFFF (s.tier.moves.filter MoveSt.isOpen).length)

/-- The mover that runs the homings of a half: the first of its hub that is not fenced (log 97). -/
def State.homingMover (s : State) (half : Nat) : Nat :=
  16 * half + ((List.range 16).find? fun i => !(s.isFenced { cls := 3, idx := 16 * half + i })).getD 0

/-- The open homing with the lowest tensor number of those whose landing lies in a half: homings run in that order (R351). -/
def State.homingHead (s : State) (half : Nat) : Option MoveSt :=
  (s.tier.moves.filter fun m => m.homing && !m.complete && s.halfOf m.target == some half).foldl
    (fun (b : Option MoveSt) m => match b with
      | none => some m
      | some x => if m.tensor < x.tensor then some m else some x) none

/-- Key under which the requests of a homing are outstanding: past the movers' own. -/
def homingKey (tensor : Nat) : Nat := 64 + tensor

/-- Issue the host reads of the next homing of a half; with no allowed port up the device is lost (R346). -/
def State.askHoming (s : State) (half : Nat) : State :=
  match s.homingHead half with
  | none => s
  | some m =>
    if s.host.asks.any fun (x : Nat × HPort) => x.1 == homingKey m.tensor then s
    else if s.superDown m.source m.length then
      s.raise { code := 0x6014, cls := 3, unit := { typ := 8, idx := s.homingMover half, sub := 0 } }
    else s.superAsk (homingKey m.tensor) m.source m.length

/-- Issue the host reads that the next homing of each half needs. -/
def State.askHomings (s : State) : State := (s.askHoming 0).askHoming 1

/-- Start homing for the state tensors of a shard that rest in the super tier (R351). -/
def State.startHoming (s : State) (h : Shard) : State :=
  let ids := [h.m, h.v, h.master, h.work, h.ema, h.tag, h.freeze, h.pstat, h.pdir]
  let new := ids.filterMap fun id =>
    match s.tensor id with
    | none => none
    | some t =>
      match s.homeOf t with
      | some a =>
        if isSuper a && !(s.tier.moves.any (·.tensor == id)) then
          some { tensor := id, target := t.landing, length := t.size, progress := 0, marked := 0, hist := [],
                 stale := false, homing := true, source := a, begun := s.beatNow, complete := false : MoveSt }
        else none
      | none => none
  let s := { s with tier := { s.tier with moves := s.tier.moves ++ new } }
  (s.showMoves).askHomings

end Sys2Proof.Machine
end

