-- ==== Sys2Proof/Machine/Operands.lean ====
section
/-! DEFINITION. Reading and writing through the rules of the tiers: unmapped accesses, the writes that a rule drops, the eDRAM
caches, holds, mirroring and the gradient scan (R64, R110, R249, R254, R297, R298, R310, R320, R330, R334, R335, R340, R347 to R356,
R364, R485). -/

namespace Sys2Proof.Machine

open Sys2Proof

/-! ### Rules for a write -/

/-- An unmapped access (R320): 0x600C for hosts, peers and copy engines, else the program fault 0x600D. -/
def State.unmapped (s : State) (ag : Agent) : State :=
  if ag.isBus then s.raise { code := 0x600C, cls := 0, unit := ag.unit }
  else s.raise { code := 0x600D, cls := 4, unit := ag.unit }

/-- What the write rules say of one byte. -/
inductive Guard where
  | ok
  | drop (code : Nat)
deriving DecidableEq, Repr

/-- First and past-the-end device addresses of a slot's protected ranges: protection lasts until EVICT (R110). -/
def SlotSt.ranges (x : SlotSt) : List (Nat × Nat) := (x.lo, x.hi) :: x.kept

/-- The byte lies in a protected fingering range (R110) (log 135). -/
def State.inImage (s : State) (dev : Nat) : Bool :=
  (s.slotA.ranges ++ s.slotB.ranges).any fun (r : Nat × Nat) => decide (r.1 ≤ dev ∧ dev < r.2)

/-- The tensor is one of the protected state arrays of a shard (R249). -/
def State.isState (s : State) (id : Nat) : Bool :=
  match s.plan with
  | some { update := some u, .. } =>
    u.shards.any fun h => [h.m, h.v, h.master, h.work, h.ema, h.tag, h.freeze].contains id
  | _ => false

/-- The three sources from which a pile accepts writes to a protected state array: its own engine, a mover that transfers the home, and
the twin mirror path (R249). A link port, a forager and a mover that fills are none of them, and their writes go the way of the
others (log 126). -/
def State.stateWriter (s : State) (ag : Agent) (id : Nat) : Bool :=
  match ag with
  | .update n =>
    (match s.plan with
    | some { update := some u, .. } => u.shards.any fun h => h.pile == n && [h.m, h.v, h.master, h.work, h.ema, h.tag, h.freeze].contains id
    | _ => false)
  | .mover _ mv _ => mv == some id
  | .mirror => true
  | _ => false

/-- Writers that WRITABLE 0 keeps out (R330). -/
def Agent.needsWritable : Agent → Option Nat → Bool
  | .host _, _ => true
  | .peer _, _ => true
  | .cxl _, _ => true
  | .copy _, _ => true
  | .link _ _, _ => true
  | .array _ _, _ => true
  | .vector _, _ => true
  | .mover _ mv _, id => !(mv == id)
  | _, _ => false

/-- The write rules for one byte, in order (R110, R340, R335, R297, R249, R330). During a takeover a mirror tensor is the
home of the partner's tensor and takes writes as one (R308) (logs 70, 126). -/
def State.guard (s : State) (ag : Agent) (pl : Place) : Guard :=
  if ag.isBus && s.inImage pl.dev then .drop 0x200F
  else if s.runSlot.isNone then .ok
  else
    let fill := match ag with
      | .mover _ _ f => f
      | .link _ f => f
      | _ => false
    if (s.windowAt pl.dev).isSome && !fill then .drop 0x600E
    else
      let isMover := match ag with
        | .mover _ _ _ => true
        | _ => false
      if !isMover && s.tier.moves.any (fun m => !m.complete && decide (m.target ≤ pl.dev ∧ pl.dev < m.target + m.length)) then
        .drop 0x600E
      else
        match s.tensorAt pl with
        | none => .ok
        | some t =>
          if t.cls = 5 && !s.casc.takeover then (if ag = .mirror then .ok else .drop 0x5048)
          else if s.isState t.id && !(s.stateWriter ag t.id) then .drop 0x5007
          else if !t.writable && ag.needsWritable (some t.id) then .drop 0x600E
          else .ok

/-- The first rule that drops a byte of a range. -/
def State.guards (s : State) (ag : Agent) : List Place → Guard
  | [] => .ok
  | pl :: rest =>
    match s.guard ag pl with
    | .ok => s.guards ag rest
    | g => g

/-- Ways of an eDRAM set (R354): way 17 of sets 0 to 1,023 belongs to the staging buffers. -/
def edramWays (set : Nat) : Nat := if set < 1024 then 17 else 18

/-- Set of a line: one of 262,144 (R354) (log 7). -/
def edramSetOf (line : Nat) : Nat := Config.edramSet line % 262144

/-- Allocate or touch an eDRAM line (R355, R356): most recently used last; the least recently used line of a full set
goes, and a dirty one is written back as it goes (log 7). -/
def State.edramTouch (s : State) (pile line : Nat) (dirty : Bool) : State :=
  let old := s.tier.edram.any fun (x : Nat × Nat × Bool) => x.1 == pile && x.2.1 == line && x.2.2
  let rest := s.tier.edram.filter fun (x : Nat × Nat × Bool) => !(x.1 == pile && x.2.1 == line)
  let set := edramSetOf line
  let same := rest.filter fun (x : Nat × Nat × Bool) => x.1 == pile && edramSetOf x.2.1 == set
  let rest := if edramWays set ≤ same.length then
      match same with
      | v :: _ => rest.filter fun (x : Nat × Nat × Bool) => !(x == v)
      | [] => rest
    else rest
  { s with tier := { s.tier with edram := rest ++ [(pile, line, dirty || old)] } }

/-- The cache of a pile holds a line. -/
def State.edramHas (s : State) (pile line : Nat) : Bool :=
  s.tier.edram.any fun (x : Nat × Nat × Bool) => x.1 == pile && x.2.1 == line

/-- The eDRAM side of an access to a pile byte (R355, R356): the update engine and host-shared pages allocate and write back; any other
access that hits makes the line most recently used, and a write through it leaves it as dirty or clean as it was. -/
def State.cacheAccess (s : State) (ag : Agent) (pl : Place) (write : Bool) : State :=
  match pl.loc with
  | .dram n off =>
    let upd := match ag with
      | .update _ => true
      | _ => false
    if upd || (s.hostBiasPage pl.dev).isSome then s.edramTouch n (off / 256) write
    else if s.edramHas n (off / 256) then s.edramTouch n (off / 256) false
    else s
  | _ => s

/-- A write to a declared region drops the matching lines of the remote caches of the other half (R64). -/
def State.rdcInvalidate (s : State) (dev : Nat) : State :=
  if s.tier.rdc.isEmpty then s
  else { s with tier := { s.tier with rdc := s.tier.rdc.filter fun x => !(x.line == dev / 256) } }

/-- A write to a tensor whose move is in progress marks the move STALE (R334). -/
def State.markStale (s : State) (ag : Agent) (pl : Place) : State :=
  let isMover := match ag with
    | .mover _ _ _ => true
    | _ => false
  if isMover || s.tier.moves.isEmpty then s
  else
    match s.tensorAt pl with
    | none => s
    | some t =>
      { s with tier := { s.tier with
          moves := s.tier.moves.map fun m => if m.tensor = t.id && !m.homing then { m with stale := true } else m } }

/-- Write one byte with what a write does beside it. -/
def State.writePlace (s : State) (ag : Agent) (pl : Place) (v : Byte) : State :=
  (((s.cacheAccess ag pl true).rdcInvalidate pl.dev).markStale ag pl).poke pl.loc v

/-- Pages in host bias that a range touches. -/
def State.biasPages (s : State) (ps : List Place) : List Nat := (ps.filterMap fun pl => s.hostBiasPage pl.dev).eraseDups

/-- An access to shared pages goes through the coherence agent, which recalls the host's copies (R485); the host's own
CXL.mem access needs no recall. -/
def State.recall (s : State) (ag : Agent) (ps : List Place) : State :=
  match ag with
  | .cxl _ => s
  | _ => (s.biasPages ps).foldl (fun s p => s.emit (.snoop (portOf (s.fld Reg.hdmCtl 25 25)) p)) s

/-- Write the bytes of a range to their places. -/
def State.writePlaces (s : State) (ag : Agent) : List Place → Bytes → State
  | pl :: ps, b :: bs => (s.writePlace ag pl b).writePlaces ag ps bs
  | _, _ => s

/-- Free units of a pile's holding area: the first run of `count` units that no hold uses (R347). -/
def freeUnits (holds : List HoldSt) (pile size count : Nat) : Option Nat :=
  (List.range (size * 16)).find? fun u =>
    decide (u + count ≤ size * 16) &&
      holds.all fun h => !(h.pile == pile) || decide (u + count ≤ h.unit) || decide (h.unit + h.count ≤ u)

/-- HOLD_STATUS of a pile (Table 8.18). -/
def State.showHolds (s : State) (pile : Nat) : State :=
  let hs := s.tier.holds.filter (·.pile == pile)
  let units := (hs.map (·.count)).sum
  (s.setFld (Reg.holdStatus pile) 10 0 ((units + 15) / 16)).setFld (Reg.holdStatus pile) 21 11 hs.length

/-- The shard whose GRAD a tensor is. -/
def State.gradShard (s : State) (id : Nat) : Option Shard :=
  match s.plan with
  | some { update := some u, .. } => u.shards.find? (·.grad == id)
  | _ => none

/-- Its index in UPDATE_CONFIG. -/
def State.gradIndex (s : State) (id : Nat) : Nat :=
  match s.plan with
  | some { update := some u, .. } => (u.shards.findIdx? (·.grad == id)).getD 0
  | _ => 0

/-- Allocate a hold for the first write of a step to a HOLD_GRAD tensor (R348); no change when there is no room. -/
def State.allocHold (s : State) (t : Tensor) : State :=
  match s.gradShard t.id, s.tierCfg with
  | some h, some c =>
    let count := (t.size + 65535) / 65536
    let recs := (s.tier.holds.filter (·.pile == h.pile)).length
    match freeUnits s.tier.holds h.pile c.holdSize count with
    | some u =>
      if recs < 1024 then
        let beat := match s.beat.win with
          | some w => w.beat
          | none => 0
        let x : HoldSt := { pile := h.pile, tensor := t.id, shard := s.gradIndex t.id, unit := u, count := count,
                            step := (s.reg (Reg.updStep h.pile)).toNat + 1, committed := false, beat := beat }
        (({ s with tier := { s.tier with holds := s.tier.holds ++ [x] } }).showHolds h.pile).startHoming h
      else s
    | none => s
  | _, _ => s

/-- The HOLD_GRAD tensor without a hold that a tensor address names. -/
def State.needsHold (s : State) (a : Nat) : Option Tensor :=
  match s.fing with
  | none => none
  | some f =>
    match f.tensors.find? (fun t => decide (t.taddr ≤ a ∧ a < t.taddr + t.size)) with
    | some t => if t.holdGrad && (s.homeOf t).isNone then some t else none
    | none => none

/-- The plan unit that an agent is, when it runs a slot. -/
def State.agentUnit (s : State) (ag : Agent) : Option UnitId :=
  let u : Option UnitId := match ag with
    | .copy e => some { cls := 4, idx := e }
    | .array p a => some (arrayUnit (s.fld (Reg.coreState p) 12 6) a)
    | .vector p => some (vectorUnit (s.fld (Reg.coreState p) 12 6))
    | .mover m _ _ => some { cls := 3, idx := m }
    | .link q _ => some { cls := 5, idx := q }
    | .forager f i => some { cls := 6, idx := 9 * f + i }
    | .update n => some { cls := 7, idx := n }
    | _ => none
  match u with
  | some v => if (s.unit v).run.isSome then some v else none
  | none => none

/-- The window that a write belongs to: that of the slot which the writing unit runs, else the running one. -/
def State.agentBeat (s : State) (ag : Agent) : Nat :=
  match s.agentUnit ag with
  | some u => (match (s.unit u).run with
    | some r => r.beat
    | none => s.beatNow)
  | none => s.beatNow

/-- A write that waits for holding space (R350): 0x6012 once per beat, WAITED, and the data waits with the window that it belongs to.
The unit whose slot makes the write cannot end its slot while the write waits (R99, R100). -/
def State.holdWait (s : State) (ag : Agent) (beat : Nat) (t : Tensor) (off : Nat) (data : Bytes) : State :=
  match s.gradShard t.id with
  | none => s
  | some h =>
    let w : HoldWait := { pile := h.pile, tensor := t.id, off := off, data := data, beat := beat
                          unit := (match ag with
                            | .link _ _ => none
                            | _ => s.agentUnit ag)
                          owe := none }
    let s := s.raiseBeat (0x60120000 + h.pile) { code := 0x6012, cls := 0, unit := { typ := 6, idx := h.pile, sub := 31 } }
    let s := s.setBit (Reg.holdStatus h.pile) 22 true
    { s with tier := { s.tier with waits := s.tier.waits ++ [w] } }

/-- The twin takes mirror frames: a twin is named, and during a takeover only once a spare adopts (R297, R309, R310). -/
def State.twinTakes (s : State) : Bool :=
  s.running && (match s.plan with
    | some { route := some r, .. } => r.twin != 0xFFFFFFFF
    | _ => false) && (!s.casc.takeover || s.casc.spare)

/-- Send one mirror frame with the next sequence number of its window (R298, R301); `lost` says that it is sent for the
role of a lost device (R310). -/
def State.sendMirror (s : State) (lost : Bool) (beat kind shard object off stamp : Nat) (data : Bytes) : State :=
  let n := (getKey s.casc.mirrorTx beat).getD 0
  let s := { s with casc := { s.casc with mirrorTx := putKey s.casc.mirrorTx beat (n + 1) } }
  s.sendTwin { kind := kind, takeover := lost, shard := shard, object := object, offset := off,
               stamp := stamp % 2 ^ 32, seq := n, payload := data }

/-- A tensor whose writes go to the twin: a mirrored tensor, and during a takeover the lost partner's (R298, R310) (log 70). -/
def State.mirrors (s : State) (t : Tensor) : Bool := t.mirrored || (s.casc.takeover && t.cls == 5)

/-- A tensor of the lost partner's role. -/
def State.lostRole (s : State) (id : Nat) : Bool := match s.tensor id with
  | some t => t.cls == 5
  | none => false

/-- The tensor and its offset that a written byte belongs to. -/
def State.tensorPlace (s : State) (pl : Place) : Option (Tensor × Nat) :=
  match s.tensorAt pl with
  | none => none
  | some t =>
    match s.homeOf t with
    | some h => some (t, pl.dev - h)
    | none => none

/-- The mirrored tensor and its offset that a written byte belongs to. -/
def State.mirrorAt (s : State) (pl : Place) : Option (Nat × Nat) :=
  match s.tensorPlace pl with
  | some (t, off) => if s.mirrors t then some (t.id, off) else none
  | none => none

/-- The GRAD tensor of a shard and its offset that a written byte belongs to. -/
def State.gradAt (s : State) (pl : Place) : Option (Nat × Nat) :=
  match s.tensorPlace pl with
  | some (t, off) => if (s.gradShard t.id).isSome then some (t.id, off) else none
  | none => none

/-- The runs of consecutive bytes of one mirrored tensor within a write. -/
def mirrorRuns : List (Option (Nat × Nat) × Byte) → List (Nat × Nat × Bytes)
  | [] => []
  | (none, _) :: rest => mirrorRuns rest
  | (some p, b) :: rest =>
    match mirrorRuns rest with
    | (id, off, data) :: more =>
      if id = p.1 ∧ off = p.2 + 1 then (id, p.2, b :: data) :: more else (p.1, p.2, [b]) :: (id, off, data) :: more
    | [] => [(p.1, p.2, [b])]

/-- Mirror a write of a window to mirrored tensors as PLAIN frames (R298). The update engine's stages travel as frames of their own,
and a mover that transfers a home changes no value. -/
def State.mirrorWrite (s : State) (beat : Nat) (ag : Agent) (ps : List Place) (data : Bytes) : State :=
  let skip := match ag with
    | .update _ => true
    | .mirror => true
    | .mover _ m _ => m.isSome
    | _ => false
  if skip || !s.twinTakes then s
  else
    (mirrorRuns ((ps.map s.mirrorAt).zip data)).foldl
      (fun (s : State) (r : Nat × Nat × Bytes) => s.sendMirror (s.lostRole r.1) beat 1 0 r.1 r.2.1 beat r.2.2) s

/-- NaN or infinite element of a gradient of `w` bytes an element: FP32, or BF16. -/
def gradBad (w v : Nat) : Bool := if w = 4 then decide (v / 2 ^ 23 % 256 = 255) else decide (v / 2 ^ 7 % 256 = 255)

/-- Add to the scan delta of a pile and window. -/
def addScan (pile beat n : Nat) : List (Nat × Nat × Nat) → List (Nat × Nat × Nat)
  | [] => [(pile, beat, n)]
  | x :: rest => if x.1 = pile ∧ x.2.1 = beat then (pile, beat, x.2.2 + n) :: rest else x :: addScan pile beat n rest

/-- The scan of R254 over the elements that a run of written bytes touches. -/
def State.scanRun (s : State) (beat id off len : Nat) : State :=
  match s.tensor id, s.gradShard id with
  | some t, some h =>
    match s.homeOf t with
    | none => s
    | some home =>
      let w := if t.format = 2 then 2 else 4
      let lo := off / w
      let bad := countBelow ((off + len - 1) / w - lo + 1) fun i =>
        gradBad w (leNat ((List.range w).map fun j => match s.locate (home + (lo + i) * w + j) with
          | some l => s.peek l
          | none => 0))
      if bad = 0 then s else { s with upd := { s.upd with scanDelta := addScan h.pile beat bad s.upd.scanDelta } }
  | _, _ => s

/-- The gradient scan of a write (R254). -/
def State.scanGrad (s : State) (beat : Nat) (ps : List Place) (data : Bytes) : State :=
  if s.running then
    (mirrorRuns ((ps.map s.gradAt).zip data)).foldl
      (fun (s : State) (r : Nat × Nat × Bytes) => s.scanRun beat r.1 r.2.1 r.2.2.length) s
  else s

/-- Codeword of a byte, and the byte in it: 64 bytes of a pile, 8 of a comb (R360, R366). -/
def Loc.codeword : Loc → Option (Nat × Nat × Nat)
  | .dram n off => some (n, off / 64, off % 64)
  | .comb d off => some (16 + d, off / 8, off % 8)
  | _ => none

/-- A codeword that a write replaces whole leaves the repair list (R364, R366). -/
def State.unlistWritten (s : State) (ps : List Place) : State :=
  if s.tier.listed.isEmpty then s
  else
    let ks := ps.filterMap fun pl => pl.loc.codeword
    { s with tier := { s.tier with listed := s.tier.listed.filter fun x =>
        !((List.range (if x.mem < 16 then 64 else 8)).all fun i => ks.contains (x.mem, x.cw, i)) } }

/-- Write a byte string to a device address for a window: unmapped (R320), dropped by a rule (logged), or done (logs 11, 55). -/
def State.storeIn (s : State) (beat : Nat) (ag : Agent) (a : Nat) (data : Bytes) : State :=
  let s := match s.needsHold a with
    | some t => if data.isEmpty then s else s.allocHold t
    | none => s
  match s.needsHold a with
  | some t => if data.isEmpty then s else s.holdWait ag beat t (a - t.taddr) data
  | none =>
    match s.placesOf ag true a data.length with
    | none => s.unmapped ag
    | some ps =>
      match s.guards ag ps with
      | .ok =>
        ((((s.recall ag ps).writePlaces ag ps data).mirrorWrite beat ag ps data).scanGrad beat ps data).unlistWritten ps
      | .drop code => s.raise { code := code, cls := 0, unit := ag.unit }

/-- Write a byte string to a device address, in the window of the writing unit's slot (log 11). -/
def State.store (s : State) (ag : Agent) (a : Nat) (data : Bytes) : State := s.storeIn (s.agentBeat ag) ag a data

/-- The eDRAM side of a range read. -/
def State.touchAll (s : State) (ag : Agent) (ps : List Place) : State :=
  ps.foldl (fun s pl => s.cacheAccess ag pl false) s

/-- What a read of a range does beside it: the coherence agent recalls the host's copies, and the pile caches take part (R355, R485). -/
def State.touchRange (s : State) (ag : Agent) (a n : Nat) : State :=
  match s.placesOf ag false a n with
  | some ps => (s.recall ag ps).touchAll ag ps
  | none => s

/-- Read a byte string from a device address; an unmapped read returns zeros (R320) (log 11). -/
def State.fetch (s : State) (ag : Agent) (a n : Nat) : Bytes × State :=
  match s.placesOf ag false a n with
  | none => (zeroBytes n, s.unmapped ag)
  | some ps => (ps.map fun pl => s.peek pl.loc, (s.recall ag ps).touchAll ag ps)

/-- Whether a range can be read by an agent. -/
def State.canRead (s : State) (ag : Agent) (a n : Nat) : Bool := (s.placesOf ag false a n).isSome

end Sys2Proof.Machine
end

