-- ==== Sys2Proof/Machine/Watch.lean ====
section
/-! DEFINITION. The tensor watch: what a unit feeds, how deltas merge, the record in memory, and the scale that a
conversion takes from its record's policy (R209, R232 to R243). -/

namespace Sys2Proof.Machine

open Sys2Proof

/-! ### Deltas -/

/-- A delta with nothing in it. -/
def WDelta.zero : WDelta :=
  { elements := 0, zeros := 0, sats := 0, nans := 0, infs := 0, ovfBlocks := 0, amax := 0, nfKind := 0, nfOp := 0xFFFFFFFF,
    nfCore := 0x7F, nfRow := 0xFFFFFFFF, nfCol := 0xFFFFFFFF, flags := 0, list := [] }

/-- An element as a unit writes it: the FP32 value presented, what the conversion made of it, and its place. -/
structure Elem where
  src : Word
  conv : Conv
  row : Nat
  col : Nat
deriving DecidableEq, Repr

/-- Kind of a written element (FIRST_NF_KIND). -/
def Elem.kind (e : Elem) : Nat :=
  if e.conv.isNan then 1 else if e.conv.isInf then (if isNeg32 e.src then 3 else 2) else 0

/-- Lexicographic order of the coordinates of non-finite elements (R234). -/
def nfLess (a b : Nat × Nat × Nat × Nat) : Bool :=
  decide (a.1 < b.1) || (a.1 == b.1 && (decide (a.2.1 < b.2.1) || (a.2.1 == b.2.1 &&
    (decide (a.2.2.1 < b.2.2.1) || (a.2.2.1 == b.2.2.1 && decide (a.2.2.2 < b.2.2.2))))))

/-- Coordinates of a delta's first non-finite element. -/
def WDelta.nf (d : WDelta) : Nat × Nat × Nat × Nat := (d.nfOp, d.nfCore, d.nfRow, d.nfCol)

/-- Take over the other delta's first non-finite element when it comes first (R234). -/
def WDelta.firstNf (d x : WDelta) : WDelta :=
  if x.nfKind ≠ 0 ∧ (d.nfKind = 0 ∨ nfLess x.nf d.nf) then
    { d with nfKind := x.nfKind, nfOp := x.nfOp, nfCore := x.nfCore, nfRow := x.nfRow, nfCol := x.nfCol }
  else d

/-- Put an index into a rising list without repeats. -/
def insertIdx (i : Nat) : List Nat → List Nat
  | [] => [i]
  | j :: rest => if i < j then i :: j :: rest else if i = j then j :: rest else j :: insertIdx i rest

/-- Union of overflow lists: the 64 lowest indices, and whether more blocks overflowed (R240). -/
def mergeLists (a b : List Nat) : List Nat × Bool :=
  let u := b.foldl (fun l i => insertIdx i l) a
  (u.take 64, decide (64 < u.length))

/-- The larger of two magnitudes. -/
def maxMag (a b : Word) : Word := if a.toNat < b.toNat then b else a

/-- Merge of two deltas (R235); the counts saturate when the record is written (R238). -/
def WDelta.merge (d x : WDelta) : WDelta :=
  let l := mergeLists d.list x.list
  let d := d.firstNf x
  { d with elements := d.elements + x.elements, zeros := d.zeros + x.zeros, sats := d.sats + x.sats,
           nans := d.nans + x.nans, infs := d.infs + x.infs, ovfBlocks := d.ovfBlocks + x.ovfBlocks,
           amax := maxMag d.amax x.amax, flags := (d.flags ||| x.flags) ||| (if l.2 then 2 else 0), list := l.1 }

/-- The contribution of one element. -/
def elemDelta (op core : Nat) (e : Elem) : WDelta :=
  let k := e.kind
  { WDelta.zero with
    elements := 1
    zeros := if e.conv.isZero then 1 else 0
    sats := if e.conv.sat then 1 else 0
    nans := if e.conv.isNan then 1 else 0
    infs := if e.conv.isInf then 1 else 0
    amax := (finMag e.src).getD 0
    nfKind := k
    nfOp := if k = 0 then 0xFFFFFFFF else op
    nfCore := if k = 0 then 0x7F else core
    nfRow := if k = 0 then 0xFFFFFFFF else e.row
    nfCol := if k = 0 then 0xFFFFFFFF else e.col }

/-- The contribution of a list of elements. -/
def elemsDelta (op core : Nat) (es : List Elem) : WDelta :=
  es.foldl (fun d e => d.merge (elemDelta op core e)) WDelta.zero

/-- The contribution of overflowed blocks (R240). -/
def ovfDelta (blocks : List Nat) : WDelta :=
  let l := mergeLists [] blocks
  { WDelta.zero with ovfBlocks := blocks.length, flags := if l.2 then 2 else 0, list := l.1 }

/-! ### Feeding -/

/-- NUMERIC_CONFIG of the running fingering. -/
def State.numeric (s : State) : Option NumCfg :=
  match s.fing with
  | some f => f.numeric
  | none => none

/-- Add to the delta of a hub, window and record. -/
def addDelta (h : Nat) (beat : Option Nat) (r : Nat) (d : WDelta) : List WKey → List WKey
  | [] => [{ hub := h, beat := beat, record := r, delta := d }]
  | k :: ks =>
    if k.hub = h ∧ k.beat = beat ∧ k.record = r then { k with delta := k.delta.merge d } :: ks
    else k :: addDelta h beat r d ks

/-- Feed a delta to the watch under a WATCH_ID (R232, R235, R243): discarded without NUMERIC_CONFIG, to record 0 with
MISDIRECTED and 0x4002 once per beat at or above WATCH_COUNT. -/
def State.feed (s : State) (hub : Nat) (beat : Option Nat) (id : Nat) (d : WDelta) : State :=
  match s.numeric with
  | none => s
  | some c =>
    if id < c.entries.length then { s with watch := addDelta hub beat id d s.watch }
    else
      let s := { s with watch := addDelta hub beat 0 { d with flags := d.flags ||| 4 } s.watch }
      s.raiseBeat 0x40020000 { code := 0x4002, cls := 0, unit := { typ := 1, idx := hub, sub := 0 } }

/-! ### The table in memory -/

/-- Address of watch entry `i` (R237). -/
def State.watchAddr (s : State) (i : Nat) : Option Nat :=
  match s.numeric with
  | none => none
  | some c => (s.tensor c.watchTensor).map fun t => t.taddr + 640 * i

/-- NUMERIC_CONFIG entry that a WATCH_ID takes its policy from (R232, R243). -/
def State.numEntry (s : State) (id : Nat) : NumEntry :=
  match s.numeric with
  | none => { policy := 2, headroom := 0, initScale := 0x7F, endPos := 0xFFFF }
  | some c =>
    (c.entries[if id < c.entries.length then id else 0]?).getD { policy := 2, headroom := 0, initScale := 0x7F, endPos := 0xFFFF }

/-- The record that a WATCH_ID's policy reads. -/
def State.numRecord (s : State) (id : Nat) : Nat :=
  match s.numeric with
  | none => 0
  | some c => if id < c.entries.length then id else 0

/-- BS8 code of an exponent, clamped to −127 to 127 (R241). -/
def bs8 (t : Int) : Nat := (max (-127) (min 127 t) + 127).toNat

/-- The PREVIOUS overflow list of a WATCH_ID's record names block `b`. -/
def State.listedBlock (s : State) (id b : Nat) : Bool :=
  match s.watchAddr (s.numRecord id) with
  | none => false
  | some a =>
    let list := s.view (a + 0x180) 256
    (List.range 64).any fun i => fieldAt list (4 * i) 4 == b && b != 0xFFFFFFFF

/-- The scale that a WATCH_ID's policy gives a block (Table 5.7): `a` is the block's largest finite magnitude, `named` the
scale that the instruction names, `listed` that the block overflowed in the last period. -/
def State.policyScale (s : State) (id : Nat) (z8 : Bool) (a : Word) (named : Option Nat) (listed : Bool) : Nat :=
  let e := s.numEntry id
  if e.policy = 1 then (if a = 0 then bs8 0 else bs8 (leastExp z8 a + e.headroom))
  else if e.policy = 0 then
    match s.watchAddr (s.numRecord id) with
    | none => e.initScale
    | some adr =>
      let prev := s.view (adr + 0x40) 64
      let amax := wordAt prev 0x28
      let base : Option Int :=
        if fieldAt prev 0x3A 2 = 0 ∨ amax = 0 then (if e.initScale = 255 then none else some ((e.initScale : Int) - 127))
        else some (leastExp z8 amax + e.headroom)
      match base with
      | none => 255
      | some t => bs8 (max (-127) (min 127 t) + (if listed then 1 else 0))
  else if e.policy = 3 then named.getD e.initScale
  else e.initScale

/-- Largest finite magnitude of a list of FP32 values; +0 when there is none. -/
def amaxOf (srcs : List Word) : Word := srcs.foldl (fun m w => maxMag m ((finMag w).getD 0)) 0

/-- Target scale of block `b` with FP32 values `srcs` under a WATCH_ID's policy. -/
def State.targetScale (s : State) (id : Nat) (z8 : Bool) (b : Nat) (srcs : List Word) (named : Option Nat) : Nat :=
  s.policyScale id z8 (amaxOf srcs) named ((s.numEntry id).policy == 0 && s.listedBlock id b)

/-- A converted block: element codes, the scale written, what became of each element, whether the block overflowed. -/
structure Block where
  codes : List Nat
  scale : Nat
  convs : List Conv
  ovf : Bool
deriving DecidableEq, Repr

/-- Convert one block to ZF8 or ZF4 at a target scale (R208, R209). -/
def convertBlock (z8 : Bool) (scale : Nat) (srcs : List Fp) : Block :=
  let nanConv : Conv := { code := if z8 then 0x80 else 0, sat := false, isNan := true, isInf := false, isZero := false }
  let bad (x : Fp) : Bool := match x with
    | .nan => true
    | .inf _ => true
    | .fin _ _ _ => false
  if scale = 255 || (!z8 && srcs.any bad) then
    { codes := srcs.map fun _ => nanConv.code, scale := 255, convs := srcs.map fun _ => nanConv, ovf := false }
  else
    let cs := srcs.map (convert (if z8 then .zf8 else .zf4) ((scale : Int) - 127))
    { codes := cs.map (·.code), scale := scale, convs := cs, ovf := cs.any (·.sat) }

/-- Pack ZF4 codes two to a byte, the lower index in the low nibble; an odd row ends with a zero nibble (R200). -/
def packZf4 : List Nat → Bytes
  | a :: b :: rest => BitVec.ofNat 8 (a % 16 + 16 * (b % 16)) :: packZf4 rest
  | [a] => [BitVec.ofNat 8 (a % 16)]
  | [] => []

/-- Bytes of a list of element codes in a format. -/
def packCodes (f : Fmt) (cs : List Nat) : Bytes :=
  match f with
  | .fp32 => cs.flatMap (leBytes 4)
  | .bf16 => cs.flatMap (leBytes 2)
  | .fp16 => cs.flatMap (leBytes 2)
  | .zf8 => cs.flatMap (leBytes 1)
  | .zf4 => packZf4 cs

/-- Chunks of `n` elements. -/
def chunksOf {α : Type} (n : Nat) (l : List α) : List (List α) :=
  if n = 0 then [] else (List.range ((l.length + n - 1) / n)).map fun i => (l.drop (n * i)).take n

/-! ### At the verdict -/

/-- A record as numbers: the 64 bytes of Table 5.6 without the SEQ fields. -/
structure Record where
  seq : Nat
  id : Nat
  period : Nat
  delta : WDelta
deriving DecidableEq, Repr

/-- Read a record and its list from memory. -/
def decodeRecord (r l : Bytes) : Record :=
  let n := min 64 (fieldAt r 0x39 1)
  { seq := fieldAt r 0 4, id := fieldAt r 4 2, period := fieldAt r 0x3A 2
    delta :=
      { elements := fieldAt r 0x08 8, zeros := fieldAt r 0x10 8, sats := fieldAt r 0x18 4, nans := fieldAt r 0x1C 4,
        infs := fieldAt r 0x20 4, ovfBlocks := fieldAt r 0x24 4, amax := wordAt r 0x28, nfKind := fieldAt r 6 1,
        nfOp := fieldAt r 0x34 4, nfCore := fieldAt r 0x38 1, nfRow := fieldAt r 0x2C 4, nfCol := fieldAt r 0x30 4,
        flags := fieldAt r 7 1, list := (List.range n).map fun i => fieldAt l (4 * i) 4 } }

/-- Saturate a count of `n` bytes (R238). -/
def satCount (n v : Nat) : Nat := min v (256 ^ n - 1)

/-- Bytes 0x04 to 0x3B of a record. -/
def encodeRecord (r : Record) : Bytes :=
  let d := r.delta
  leBytes 2 r.id ++ leBytes 1 d.nfKind ++ leBytes 1 d.flags ++ leBytes 8 (satCount 8 d.elements)
    ++ leBytes 8 (satCount 8 d.zeros) ++ leBytes 4 (satCount 4 d.sats) ++ leBytes 4 (satCount 4 d.nans)
    ++ leBytes 4 (satCount 4 d.infs) ++ leBytes 4 (satCount 4 d.ovfBlocks) ++ leBytes 4 d.amax.toNat
    ++ leBytes 4 d.nfRow ++ leBytes 4 d.nfCol ++ leBytes 4 d.nfOp ++ leBytes 1 d.nfCore
    ++ leBytes 1 (min 64 d.list.length) ++ leBytes 2 r.period

/-- The 256 bytes of an overflow list. -/
def encodeList (l : List Nat) : Bytes :=
  ((List.range 64).map fun i => leBytes 4 ((l[i]?).getD 0xFFFFFFFF)).flatten

/-- Write a record with its list: SEQ_BEGIN, the body, SEQ_END, only when the content changes (R238). -/
def State.publish (s : State) (at_ list : Nat) (old new : Record) : State :=
  if encodeRecord old = encodeRecord new ∧ encodeList old.delta.list = encodeList new.delta.list then s
  else
    let q := leBytes 4 (old.seq + 1)
    (s.store .hub at_ (q ++ encodeRecord new ++ q)).store .hub list (encodeList new.delta.list)

/-- The deltas of a window, and those of the foragers, for one record. -/
def State.deltasOf (s : State) (beat r : Nat) : WDelta :=
  (s.watch.filter fun k => k.record == r && (k.beat == none || k.beat == some beat)).foldl
    (fun d k => d.merge k.delta) WDelta.zero

/-- Merge the deltas of a committed window into one record, and end its period when the position is its END_POS
(R235, R236). -/
def State.commitRecord (s : State) (beat pos i : Nat) : State :=
  match s.watchAddr i with
  | none => s
  | some a =>
    let d := s.deltasOf beat i
    let cur := decodeRecord (s.view a 64) (s.view (a + 0x80) 256)
    let prev := decodeRecord (s.view (a + 0x40) 64) (s.view (a + 0x180) 256)
    let got := { cur with delta := cur.delta.merge d }
    if (s.numEntry i).endPos = pos then
      let p := (got.period + 1) % 65536
      (s.publish (a + 0x40) (a + 0x180) prev { got with seq := prev.seq, period := p }).publish a (a + 0x80) cur
        { got with period := p, delta := WDelta.zero }
    else s.publish a (a + 0x80) cur got

/-- COMMIT side of the watch for a window (R235, R236). -/
def State.commitWatch (s : State) (beat pos : Nat) : State :=
  match s.numeric with
  | none => { s with watch := [] }
  | some c =>
    let s := (List.range c.entries.length).foldl (fun s i => s.commitRecord beat pos i) s
    { s with watch := s.watch.filter fun k => !(k.beat == none || k.beat == some beat) }

/-- REPLAY side of the watch: the deltas of the window and of the following one go (R235). -/
def State.dropWatch (s : State) : State := { s with watch := s.watch.filter fun k => k.beat == none }

end Sys2Proof.Machine
end

