-- ==== Sys2Proof/Machine/Cores.lean ====
section
/-! DEFINITION. What the arrays and the vector engine of a core share: the slot that a unit runs, event counters and
signals, program faults (R128 to R136, R156, R157, R227). -/

namespace Sys2Proof.Machine

open Sys2Proof

/-! ### The running slot of a unit -/

/-- The slot that a unit runs and has not ended. -/
def State.runOf (s : State) (u : UnitId) : Option RunSlot :=
  match (s.unit u).run with
  | some r => if r.ended then none else some r
  | none => none

/-- Replace the slot that a unit runs; a unit whose slot has been stopped meanwhile runs none. -/
def State.setRun (s : State) (u : UnitId) (r : RunSlot) : State :=
  if (s.unit u).run.isSome then s.setUnit u { s.unit u with run := some r } else s

/-- The op has ended and the slot waits for its end. -/
def State.endRunOf (s : State) (u : UnitId) (r : RunSlot) : State := s.setRun u { r with ended := true }

/-- Logical core whose plan lists the slot of an array or vector engine: a guest's or the unit's own (R185). -/
def RunSlot.core (r : RunSlot) : Nat := if r.owner.cls = 1 then r.owner.idx / 3 else r.owner.idx

/-- Op code of Table 5.1: plan position, slot index and descriptor ordinal (R227). -/
def RunSlot.opCode (r : RunSlot) : Nat := (r.pos * 1048576 ||| r.slot * 16384 ||| r.ordinal) % 4294967296

/-- Context of an error in a unit's slot. -/
def State.errCtx (s : State) (u : UnitId) (r : RunSlot) : ErrCtx :=
  let p := if u.cls = 1 then s.physOf (u.idx / 3) else if u.cls = 2 then s.physOf u.idx else 0
  { unit := u, phys := p, place := some (r.pos, r.slot), beat := some r.beat }

/-- A program fault: 0x300B against the core, PROG_FAULT in its SRAM_ERR (R131, R136, R157, R179) (log 132). -/
def State.progFault (s : State) (c : ErrCtx) : State :=
  (s.setBit (Reg.sramErr c.phys) 23 true).raise (c.ev 0x300B 4 c.core)

/-! ### Event counters (R136) -/

/-- Event counter of a logical core. -/
def State.counter (s : State) (l c : Nat) : Nat := (getKey s.cores.counters (32 * l + c)).getD 0

/-- Set an event counter. -/
def State.setCounter (s : State) (l c v : Nat) : State :=
  { s with cores := { s.cores with counters := putKey s.cores.counters (32 * l + c) v } }

/-- A signal reaches its counter: one more, or a program fault against the signalling core at 0xFFFF. -/
def State.countSignal (s : State) (ctx : ErrCtx) (dst c : Nat) : State :=
  if s.counter dst c = 0xFFFF then s.progFault ctx else s.setCounter dst c (s.counter dst c + 1)

/-- An op signals: at once on its own core, over the event channel to another (R136). -/
def State.sendSignal (s : State) (ctx : ErrCtx) (src dst c : Nat) : State :=
  if src = dst then s.countSignal ctx dst c
  else { s with cores := { s.cores with signals := s.cores.signals ++ [(src, dst, c)] } }

/-- What a wait does now: start at once, or stand still until the counter is nonzero. -/
def State.tryWait (s : State) (u : UnitId) (r : RunSlot) (c : Nat) : Option (State × RunSlot) :=
  if r.wait = some (c, true) then
    let r := { r with wait := none }
    some (s.setRun u r, r)
  else if 0 < s.counter r.core c then
    let r := { r with wait := none }
    some ((s.setCounter r.core c (s.counter r.core c - 1)).setRun u r, r)
  else none

/-- The op stands at a wait. -/
def State.standWait (s : State) (u : UnitId) (r : RunSlot) (c : Nat) : State := s.setRun u { r with wait := some (c, false) }

/-- The next signal to arrive of those between two dies: the event channel of a connection keeps the order of issue (R33) (log 128). -/
def State.nextSignal (s : State) (src dst : Nat) : Option (Nat × Nat × Nat) :=
  s.cores.signals.find? fun (x : Nat × Nat × Nat) => x.1 / 16 == src / 16 && x.2.1 / 16 == dst / 16

/-- SIGNAL_ARRIVAL: a signal that is under way arrives, after those issued before it on its way (R33, R136) (log 128). -/
def applySignalArrival (src dst c : Nat) (s : State) : State :=
  if s.nextSignal src dst = some (src, dst, c) then
    let s := { s with cores := { s.cores with signals := s.cores.signals.erase (src, dst, c) } }
    s.countSignal { unit := vectorUnit src, phys := s.physOf src, place := none, beat := none } dst c
  else s

def execSignalArrival (src dst counter : Nat) (s : State) : Host.Outcome State Fault Refusal :=
  .next (applySignalArrival src dst counter s)

/-- WAIT_SATISFIED: the counter that a standing op waits for is nonzero; it is decremented and the op may start; a
vector WAIT is thereby done (R136). -/
def applyWaitSatisfied (u : UnitId) (s : State) : State :=
  match s.runOf u with
  | some r =>
    match r.wait with
    | some (c, false) =>
      if 0 < s.counter r.core c then
        let s := s.setCounter r.core c (s.counter r.core c - 1)
        if u.cls = 2 then s.setRun u { r with wait := none, ptr := r.ptr + 8, ordinal := (r.ordinal + 1) % 16384 }
        else s.setRun u { r with wait := some (c, true) }
      else s
    | _ => s
  | none => s

def execWaitSatisfied (u : UnitId) (s : State) : Host.Outcome State Fault Refusal := .next (applyWaitSatisfied u s)

/-! ### WGA access (R171) -/

/-- The verdict of a beat before a slot's own is still to be applied, so its WGA accesses are held (R171) (log 51). -/
def State.wgaHolds (s : State) (beat : Nat) : Bool := s.beat.prev.any fun p => decide (p.beat < beat)

/-- A WGA access of logical core `l` is held: HELD, and 0x3007 once per beat. WGA_STATUS shows no guest's WGA (R174) (log 51). -/
def State.holdWga (s : State) (c : ErrCtx) (l : Nat) : State :=
  (if s.howOf l = 3 then s else s.setBit (Reg.wgaStatus c.phys) 18 true).raiseBeat 0x30070000 (c.ev 0x3007 0 c.core)

/-- SRAM offset of a bank of a tile (Table 3.1). -/
def wgaSram (bank t : Nat) : Nat := 0x1700000 + 0x400000 * bank + 16384 * t

/-- Comb location of a bank of a tile of a logical core (Table 8.4). -/
def wgaComb (l bank t : Nat) : Loc := .comb (l / 16) (combWga + 0x800000 * (l % 16) + 0x400000 * bank + 16384 * t)

/-- Location of byte `i` of a bank in the comb. -/
def wgaCombByte (l bank t i : Nat) : Loc :=
  .comb (l / 16) (combWga + 0x800000 * (l % 16) + 0x400000 * bank + 16384 * t + i)

/-- One FP32 element of a tile's bank: from core SRAM or from the comb. -/
def State.wgaElem (s : State) (l bank t e : Nat) (sram : Bool) : Word :=
  if sram then BitVec.ofNat 32 (leNat (s.coreRead l (wgaSram bank t + 4 * e) 4))
  else BitVec.ofNat 32 (leNat ((List.range 4).map fun i => s.peek (wgaCombByte l bank t (4 * e + i))))

/-- Committed value of a tile's element (R172). -/
def State.wgaCommitted (s : State) (l t e : Nat) : Word :=
  let w := s.wgaTile l t
  s.wgaElem l (if w.ptr then 1 else 0) t e w.sramOk

/-- Runs in comb-only mode (R174). -/
def State.combOnly (s : State) (l : Nat) : Bool := s.howOf l == 3

/-- Write one element of a tile's working bank to the comb, and to core SRAM unless comb-only. -/
def State.wgaPut (s : State) (l bank t e : Nat) (v : Word) : State :=
  let b := leBytes 4 v.toNat
  let s := (List.range 4).foldl (fun s i => s.poke (wgaCombByte l bank t (4 * e + i)) (b.getD i 0)) s
  if s.combOnly l then s else s.coreWrite l (wgaSram bank t + 4 * e) b

/-- First write to a tile in a window: the working bank takes +0 or the committed values, and TOUCH is set (R167). -/
def State.wgaTouch (s : State) (l t : Nat) (init : Bool) : State :=
  let w := s.wgaTile l t
  if w.touch then s
  else
    let work := if w.ptr then 0 else 1
    let s := (List.range 4096).foldl
      (fun s e => s.wgaPut l work t e (if init then 0 else s.wgaCommitted l t e)) s
    (s.setWga { w with touch := true }).showWga l

end Sys2Proof.Machine
end

