-- ==== Sys2Proof/Machine/Arrays.lean ====
section
/-! DEFINITION. Array ops: descriptors, operands, the reference order of sums, the drain and its targets
(R137 to R175, R203 to R206, R217 to R227, R239, R627). -/

namespace Sys2Proof.Machine

open Sys2Proof

/-! ### Descriptors (Table 3.8) -/

/-- An array op descriptor. -/
structure ArrDesc where
  opcode : Nat
  fmt : Nat
  mode : Nat
  out : Nat
  k : Nat
  m : Nat
  n : Nat
  stat : Nat
  strm : Nat
  outA : Nat
  statPitch : Nat
  strmPitch : Nat
  outPitch : Nat
  bias : Nat
  watch : Nat
  wait : Nat
  signal : Nat
  res1 : Nat
  res2 : Nat
deriving DecidableEq, Repr

/-- An address field: with bit 63 a device address in bits [47:0], else core-local (R319, Table 3.8). -/
def addrField (v : Nat) : Nat := if 9223372036854775808 ≤ v then 9223372036854775808 + v % 281474976710656 else v

/-- Read a descriptor from its 64 bytes. -/
def decodeDesc (b : Bytes) : ArrDesc :=
  { opcode := fieldAt b 0 1, fmt := fieldAt b 1 1, mode := fieldAt b 2 1, out := fieldAt b 3 1, k := fieldAt b 4 4,
    m := fieldAt b 8 4, n := fieldAt b 0xC 4, stat := addrField (fieldAt b 0x10 8),
    strm := addrField (fieldAt b 0x18 8), outA := addrField (fieldAt b 0x20 8), statPitch := fieldAt b 0x28 4, strmPitch := fieldAt b 0x2C 4,
    outPitch := fieldAt b 0x30 4, bias := fieldAt b 0x34 4, watch := fieldAt b 0x38 2, wait := fieldAt b 0x3A 1,
    signal := fieldAt b 0x3C 2, res1 := fieldAt b 0x3B 1, res2 := fieldAt b 0x3E 2 }

def ArrDesc.transpose (d : ArrDesc) : Bool := decide (d.mode % 2 = 1)
def ArrDesc.col (d : ArrDesc) : Bool := decide (d.mode / 2 % 2 = 1)
def ArrDesc.hasBias (d : ArrDesc) : Bool := decide (d.mode / 4 % 2 = 1)
def ArrDesc.init (d : ArrDesc) : Bool := decide (d.mode / 8 % 2 = 1)
def ArrDesc.sr (d : ArrDesc) : Bool := decide (d.mode / 16 % 2 = 1)
def ArrDesc.outFmt (d : ArrDesc) : Nat := d.out % 8
def ArrDesc.target (d : ArrDesc) : Nat := d.out / 16 % 4

/-- The checks of R155 and R157. -/
def ArrDesc.valid (d : ArrDesc) : Bool :=
  decide (1 ≤ d.opcode ∧ d.opcode ≤ 3)
    && decide (d.fmt ≤ (if d.opcode = 1 then 3 else if d.opcode = 2 then 1 else 0))
    && decide (d.mode < 32) && decide (d.outFmt ≤ 3) && decide (d.out / 8 % 2 = 0) && decide (d.out < 64)
    && (decide (d.target < 2) || decide (d.outFmt = 0))
    && decide (d.m ≤ 1024) && decide (d.wait / 32 % 4 = 0) && decide (d.signal / 2048 % 16 = 0)
    && decide (d.res1 = 0) && decide (d.res2 = 0)

/-- Rows of the output: 2M for a COMPLEX op (R627). -/
def ArrDesc.outRows (d : ArrDesc) : Nat := if d.opcode = 2 then 2 * d.m else d.m

/-- Passes of an op (Table 3.12). -/
def ArrDesc.passes (d : ArrDesc) : Nat :=
  let nt := (d.n + 63) / 64
  if d.opcode = 1 then (if 2 ≤ d.fmt then nt * ((d.k + 127) / 128) else nt * ((d.k + 63) / 64))
  else if d.opcode = 2 then 4 * nt * ((d.k + 63) / 64)
  else 6 * nt * ((d.k + 63) / 64)

/-! ### Operands -/

/-- A stored operand: its rows as bytes, and its scales. -/
structure Mat where
  rows : List Bytes
  scales : Bytes
deriving DecidableEq, Repr

/-- Bytes of `n` elements of an operand format: 4 FP32, 0 BF16, 1 FP16, 2 ZF8, 3 ZF4. -/
def elemBytes (f n : Nat) : Nat := if f = 4 then 4 * n else if f = 2 then n else if f = 3 then (n + 1) / 2 else 2 * n

/-- Code of element `c` of a stored row. -/
def rowCode (f : Nat) (row : Bytes) (c : Nat) : Nat :=
  if f = 4 then fieldAt row (4 * c) 4
  else if f = 2 then fieldAt row c 1
  else if f = 3 then (if c % 2 = 0 then fieldAt row (c / 2) 1 % 16 else fieldAt row (c / 2) 1 / 16)
  else fieldAt row (2 * c) 2

/-- Value of an element; `s` is its block's scale. -/
def elemValue (f s code : Nat) : Fp :=
  if f = 4 then fp32 (BitVec.ofNat 32 code) else if f = 0 then bf16 code else if f = 1 then fp16 code
  else if f = 2 then zf8 s code else zf4 s code

/-- Value of the element with reduction index `k` and other index `x`. `along` says that the reduction runs along the
stored columns; the scale array follows it (R151). -/
def Mat.value (a : Mat) (f : Nat) (along : Bool) (cols k x : Nat) : Fp :=
  let (r, c) := if along then (x, k) else (k, x)
  let s := if along then x * ((cols + 31) / 32) + k / 32 else k / 32 * cols + x
  elemValue f (a.scales.getD s 0).toNat (rowCode f (a.rows.getD r []) c)

/-- How an operand read can fail: an address in core SRAM that R131 forbids, or an unmapped one (R320). -/
inductive OperandFail where
  | program
  | unmapped
deriving DecidableEq, Repr

/-- Bytes at an operand address: core-local, or a device address when bit 63 is 1. -/
def State.operand (s : State) (ag : Agent) (l a n : Nat) : Except OperandFail Bytes :=
  if n = 0 then .ok []
  else if 9223372036854775808 ≤ a then
    let a := a - 9223372036854775808
    if s.hitsCore false a n then .error .program
    else match s.placesOf ag false a n with
    | some ps => .ok (ps.map fun pl => s.peek pl.loc)
    | none => .error .unmapped
  else if loadForbidden a n then .error .program
  else .ok (s.coreRead l a n)

/-- What a read of a device operand does beside it (R355, R485). -/
def State.touchOperand (s : State) (ag : Agent) (a n : Nat) : State :=
  if 9223372036854775808 ≤ a then s.touchRange ag (a - 9223372036854775808) n else s

/-- Address and bytes of each read of an operand of `r` rows of `c` elements, its scales last when block-scaled (R151). -/
def matReads (a pitch r c f : Nat) (along : Bool) : List (Nat × Nat) :=
  ((List.range r).map fun i => (a + i * pitch, elemBytes f c))
    ++ if f = 2 ∨ f = 3 then [(a + r * pitch, if along then r * ((c + 31) / 32) else (r + 31) / 32 * c)] else []

/-- A whole operand of `r` rows of `c` elements, with its scales when block-scaled (R151). -/
def State.operandMat (s : State) (ag : Agent) (l a pitch r c f : Nat) (along : Bool) : Except OperandFail Mat :=
  match (List.range r).mapM fun i => s.operand ag l (a + i * pitch) (elemBytes f c) with
  | .error e => .error e
  | .ok rows =>
    if f = 2 ∨ f = 3 then
      match s.operand ag l (a + r * pitch) (if along then r * ((c + 31) / 32) else (r + 31) / 32 * c) with
      | .error e => .error e
      | .ok sc => .ok { rows := rows, scales := sc }
    else .ok { rows := rows, scales := [] }

/-! ### Sums -/

/-- The product of a term in BF16, FP16 and ZF8 modes, rounded once (R204, R205). -/
def term (a b : Fp) : Word := (a.mul b).to32

/-- A product of zero and infinity. -/
def zeroInf (a b : Fp) : Bool :=
  match a, b with
  | .fin _ 0 _, .inf _ => true
  | .inf _, .fin _ 0 _ => true
  | _, _ => false

/-- The chain of one group: first term as is, later ones added in order (R142, R217). -/
def chain : List Word → Word
  | [] => 0
  | t :: ts => ts.foldl addRne t

/-- Combination of group sums in ascending order; `add g run p` adds group `g` (R152, R217). -/
def combine (add : Nat → Word → Word → Word) : Nat → Option Word → List Word → Word
  | _, none, [] => 0
  | _, some r, [] => r
  | g, none, p :: ps => combine add (g + 1) (some p) ps
  | g, some r, p :: ps => combine add (g + 1) (some (add g r p)) ps

/-- The reduction of R217 and R221 over passes: each pass is its list of operand pairs in ascending k. -/
def reduceTerms (add : Nat → Word → Word → Word) (passes : List (List (Fp × Fp))) : Word :=
  combine add 0 none (passes.flatMap fun ps =>
    (chunksOf 64 ps).map fun g => chain (g.map fun (x : Fp × Fp) => term x.1 x.2))

/-- The three BF16 pieces of an FP32 value (R160). -/
def splitPieces (w : Word) : Fp × Fp × Fp :=
  let h (x : Word) : Nat := (convert .bf16 0 (fp32 x)).code
  let up (c : Nat) : Word := BitVec.ofNat 32 (c * 65536)
  let a0 := h w
  let r1 := subRne w (up a0)
  let a1 := h r1
  let r2 := subRne r1 (up a1)
  (bf16 a0, bf16 a1, bf16 (h r2))

/-- The operands of an op: planes of both operands (one plane unless COMPLEX). -/
structure Operands where
  stat : List Mat
  strm : List Mat
deriving DecidableEq, Repr

/-- Operand format code of the two operands: FP32 for FP32X6, ZF4 for the stationary operand of FMT 3. -/
def ArrDesc.fmts (d : ArrDesc) : Nat × Nat :=
  if d.opcode = 3 then (4, 4) else if d.fmt = 3 then (3, 2) else (d.fmt, d.fmt)

/-- Stationary element for reduction index `k` and output column `c`, streamed element for row `t` and index `k`. -/
def ArrDesc.statAt (d : ArrDesc) (a : Mat) (k c : Nat) : Fp :=
  a.value d.fmts.1 (!d.transpose) (if d.transpose then d.n else d.k) k c
def ArrDesc.strmAt (d : ArrDesc) (a : Mat) (t k : Nat) : Fp :=
  a.value d.fmts.2 (!d.col) (if d.col then d.m else d.k) k t

/-- The operand pairs of each pass for output row `r` and column `c` (Tables 3.9, 3.10). -/
def ArrDesc.passTerms (d : ArrDesc) (o : Operands) (r c : Nat) : List (List (Fp × Fp)) :=
  let ks := List.range d.k
  let none : Mat := { rows := [], scales := [] }
  let b0 := o.stat.getD 0 none
  let b1 := o.stat.getD 1 none
  let a0 := o.strm.getD 0 none
  let a1 := o.strm.getD 1 none
  if d.opcode = 2 then
    let t := r % d.m
    if r < d.m then
      [ks.map fun k => (d.statAt b0 k c, d.strmAt a0 t k), ks.map fun k => (d.statAt b1 k c, (d.strmAt a1 t k).neg)]
    else
      [ks.map fun k => (d.statAt b1 k c, d.strmAt a0 t k), ks.map fun k => (d.statAt b0 k c, d.strmAt a1 t k)]
  else if d.opcode = 3 then
    let p := ks.map fun k => (splitPieces (d.strmAt a0 r k).to32, splitPieces (d.statAt b0 k c).to32)
    [p.map fun x => (x.1.2.2, x.2.1), p.map fun x => (x.1.2.1, x.2.2.1), p.map fun x => (x.1.1, x.2.2.2),
     p.map fun x => (x.1.2.1, x.2.1), p.map fun x => (x.1.1, x.2.2.1), p.map fun x => (x.1.1, x.2.1)]
  else [ks.map fun k => (d.statAt b0 k c, d.strmAt a0 r k)]

/-- What an op computes: the FP32 value of every output, row by row, and whether a product of zero and infinity fell. -/
structure Product where
  rows : List (List Word)
  zxi : Bool
deriving DecidableEq, Repr

/-- Context of an op that the arithmetic needs: logical core, op code, seed, STEP and the header's SR_ENABLE. -/
structure ArrCtx where
  core : Nat
  opCode : Nat
  seed : Nat
  step : Nat
  srEnable : Bool
deriving DecidableEq, Repr

/-- The drain rounds stochastically (R152). -/
def ArrDesc.drainSr (d : ArrDesc) (x : ArrCtx) : Bool := d.sr && x.srEnable && decide (1048576 ≤ d.k)

/-- Compute every output (R217, R221, R153, R162). -/
def ArrDesc.compute (d : ArrDesc) (x : ArrCtx) (o : Operands) (bias : Bytes) : Product :=
  let rows := (List.range d.outRows).map fun r => (List.range d.n).map fun c =>
    let ps := d.passTerms o r c
    let add (g : Nat) (a b : Word) : Word :=
      if d.drainSr x then
        addSr a b (srBits x.seed [(x.core * 65536 + d.watch) % 4294967296, (r * d.n + c) % 4294967296, g, x.opCode, x.step])
      else addRne a b
    let y := reduceTerms add ps
    let y := if d.hasBias then addRne y (wordAt bias (4 * (if d.opcode = 2 ∧ d.m ≤ r then d.n + c else c))) else y
    (y, ps.any fun p => p.any fun (z : Fp × Fp) => zeroInf z.1 z.2)
  { rows := rows.map fun r => r.map fun (z : Word × Bool) => z.1, zxi := rows.any fun r => r.any fun (z : Word × Bool) => z.2 }

/-! ### The drain -/

/-- The output converted: bytes of each row, the scales, the elements as written and the blocks that overflowed. -/
structure Drained where
  rows : List Bytes
  scales : Bytes
  elems : List Elem
  ovf : List Nat
deriving DecidableEq, Repr

/-- Output format of OUT. -/
def outFormat (f : Nat) : Fmt := if f = 0 then .fp32 else if f = 1 then .bf16 else if f = 2 then .fp16 else .zf8

/-- Convert the outputs to FP32, BF16 or FP16 element by element. -/
def drainPlain (f : Fmt) (rows : List (List Word)) : Drained :=
  let cs := rows.map fun r => r.map fun w => (w, convert f 0 (fp32 w))
  { rows := cs.map fun r => packCodes f (r.map fun (z : Word × Conv) => z.2.code), scales := [],
    elems := (cs.zipIdx.flatMap fun r => r.1.zipIdx.map fun z =>
      { src := z.1.1, conv := z.1.2, row := r.2, col := z.2 : Elem }), ovf := [] }

/-- Convert the outputs to ZF8 in blocks of 32 columns, with the scales of the WATCH_ID's policy (R154, R241). -/
def State.drainZf8 (s : State) (watch n : Nat) (rows : List (List Word)) : Drained :=
  let nb := (n + 31) / 32
  let bs := rows.zipIdx.map fun r => (chunksOf 32 r.1).zipIdx.map fun b =>
    (convertBlock true (s.targetScale watch true (r.2 * nb + b.2) b.1 none) (b.1.map fp32), b.1, r.2 * nb + b.2)
  { rows := bs.map fun r => r.flatMap fun b => packCodes .zf8 b.1.codes
    scales := bs.flatMap fun r => r.map fun b => BitVec.ofNat 8 b.1.scale
    elems := bs.zipIdx.flatMap fun r => r.1.zipIdx.flatMap fun b => (b.1.2.1.zip b.1.1.convs).zipIdx.map fun z =>
      { src := z.1.1, conv := z.1.2, row := r.2, col := 32 * b.2 + z.2 : Elem }
    ovf := bs.flatMap fun r => r.filterMap fun b => if b.1.ovf then some b.2.2 else none }

/-- The drained output of an op. -/
def State.drain (s : State) (d : ArrDesc) (rows : List (List Word)) : Drained :=
  if d.outFmt = 3 then s.drainZf8 d.watch d.n rows else drainPlain (outFormat d.outFmt) rows

/-- The pieces of memory that a drained output goes to: address and bytes. -/
def ArrDesc.pieces (d : ArrDesc) (x : Drained) : List (Nat × Bytes) :=
  let a := d.outA % (if d.target = 1 then 281474976710656 else 9223372036854775808)
  x.rows.zipIdx.map (fun r => (a + r.2 * d.outPitch, r.1))
    ++ (if x.scales.isEmpty then [] else [(a + d.outRows * d.outPitch, x.scales)])

/-- Accumulate one op's output into the WGA (R165, R167). -/
def State.wgaAccumulate (s : State) (d : ArrDesc) (x : ArrCtx) (rows : List (List Word)) : State :=
  let t0 := d.outA % 256
  let nt := (d.n + 63) / 64
  let sr := ((s.coreProg x.core).map (·.wgaSr)).getD false && x.srEnable
  rows.zipIdx.foldl (fun s r => r.1.zipIdx.foldl (fun s z =>
    let t := t0 + r.2 / 64 * nt + z.2 / 64
    let e := r.2 % 64 * 64 + z.2 % 64
    let s := s.wgaTouch x.core t d.init
    let w := s.wgaTile x.core t
    let bank := if w.ptr then 0 else 1
    let old := s.wgaElem x.core bank t e (!s.combOnly x.core)
    let new := if d.init then z.1
      else if sr then
        addSr old z.1 (srBits x.seed [(0x80000000 + x.core * 65536 + t) % 4294967296, e, 0, x.opCode, x.step])
      else addRne old z.1
    s.wgaPut x.core bank t e new) s) s

/-- Last tile of an op with the WGA target (R165). -/
def ArrDesc.lastTile (d : ArrDesc) : Nat := d.outA % 256 + (d.outRows + 63) / 64 * ((d.n + 63) / 64) - 1

/-- Vector engine of a physical core; one that nothing has touched holds zeros (log 86). -/
def VecSt.idle : VecSt := { vregs := [], masks := [], sregs := [], scales := [0, 0, 0, 0], queue := [] }
def State.vec (s : State) (p : Nat) : VecSt := (getKey s.cores.vec p).getD VecSt.idle
def State.setVec (s : State) (p : Nat) (v : VecSt) : State :=
  { s with cores := { s.cores with vec := putKey s.cores.vec p v } }

/-- Feed the watch with an op's final values (R156, R239). -/
def State.feedDrain (s : State) (d : ArrDesc) (x : ArrCtx) (beat : Nat) (y : Drained) (zxi srUsed : Bool) : State :=
  let dl := (elemsDelta x.opCode x.core y.elems).merge (ovfDelta y.ovf)
  let dl := { dl with flags := dl.flags ||| (if zxi then 1 else 0) ||| (if srUsed then 8 else 0) }
  s.feed (x.core / 32) (some beat) d.watch dl

/-- Values that the vector input queue holds: 64 KiB (R177). -/
def queueSize : Nat := 16384

/-- The values of an op in the order in which the array makes them: column tile by column tile, each for all rows (R158) (log 129). -/
def queueOrder (n : Nat) (rows : List (List Word)) : List Word :=
  (List.range ((n + 63) / 64)).flatMap fun t => rows.flatMap fun r => (r.drop (64 * t)).take 64

/-- Values enter the vector input queue as far as it has room; the slot keeps the rest (R177) (log 129). -/
def State.enqueue (s : State) (c : ErrCtx) (u : UnitId) (r : RunSlot) (vs : List Word) : RunSlot × State :=
  let v := s.vec c.phys
  let room := queueSize - v.queue.length
  let r := { r with rest := vs.drop room }
  (r, (s.setVec c.phys { v with queue := v.queue ++ vs.take room }).setRun u r)

/-- Deliver an op's output to its target other than the vector input queue, and say whether the op completes: it does not where its
address is a program fault or unmapped (log 51). -/
def State.deliver (s : State) (c : ErrCtx) (ag : Agent) (d : ArrDesc) (x : ArrCtx) (beat : Nat) (p : Product) : State × Bool :=
  let y := s.drain d p.rows
  let srUsed := d.drainSr x
  if d.target = 2 then
    if s.wgaTiles x.core ≤ d.lastTile ∨ 255 < d.lastTile then (s.progFault c, false)
    else
      let wsr := ((s.coreProg x.core).map (·.wgaSr)).getD false && x.srEnable
      ((s.wgaAccumulate d x p.rows).feedDrain d x beat y p.zxi (srUsed || (wsr && !d.init)), true)
  else
    let ps := d.pieces y
    if d.target = 1 then
      if ps.any fun (z : Nat × Bytes) => s.hitsCore true z.1 z.2.length then (s.progFault c, false)
      else if ps.all fun (z : Nat × Bytes) => (s.placesOf ag true z.1 z.2.length).isSome || (s.needsHold z.1).isSome then
        ((ps.foldl (fun (s : State) (z : Nat × Bytes) => s.store ag z.1 z.2) s).feedDrain d x beat y p.zxi srUsed, true)
      else (s.raise (c.ev 0x600D 4 (unitCode c.unit c.phys)), false)
    else if ps.any fun (z : Nat × Bytes) => storeForbidden z.1 z.2.length then (s.progFault c, false)
    else ((ps.foldl (fun (s : State) (z : Nat × Bytes) => s.coreWrite x.core z.1 z.2) s).feedDrain d x beat y p.zxi srUsed, true)

/-- Make `n` bytes of a logical core's core-local memory undefined (log 5). -/
def State.coreForget (s : State) (l off n : Nat) : State :=
  match s.coreLoc l off with
  | some (.sram p o) =>
    let x := s.draw
    { x.2 with sram := x.2.sram.undefine (Loc.sram p o).key ((Loc.sram p o).key + n) x.1 }
  | some (.comb k o) =>
    let x := s.draw
    { x.2 with comb := x.2.comb.undefine (Loc.comb k o).key ((Loc.comb k o).key + n) x.1 }
  | _ => s

/-- The drain has kept running sums in the partial-sum area of array `a` (R152). Their places there are not stated, so its bytes are
free values (log 130). -/
def State.keepSums (s : State) (l a : Nat) (d : ArrDesc) : State :=
  if d.k = 0 then s else s.coreForget l (0x1640000 + 0x40000 * a) 0x40000

/-- Read the operands and the bias vector of an op. -/
def State.readOperands (s : State) (ag : Agent) (l : Nat) (d : ArrDesc) : Except OperandFail (Operands × Bytes) :=
  let planes := if d.opcode = 2 then 2 else 1
  let (sr, sc) := if d.transpose then (d.k, d.n) else (d.n, d.k)
  let (tr, tc) := if d.col then (d.k, d.m) else (d.m, d.k)
  if d.k = 0 then
    match s.operand ag l (d.bias) (if d.hasBias then 4 * d.n * planes else 0) with
    | .error e => .error e
    | .ok b => .ok ({ stat := [], strm := [] }, b)
  else
    match (List.range planes).mapM fun i =>
        s.operandMat ag l (d.stat + i * (sr * d.statPitch)) d.statPitch sr sc d.fmts.1 (!d.transpose) with
    | .error e => .error e
    | .ok st =>
      match (List.range planes).mapM fun i =>
          s.operandMat ag l (d.strm + i * (tr * d.strmPitch)) d.strmPitch tr tc d.fmts.2 (!d.col) with
      | .error e => .error e
      | .ok sm =>
        match s.operand ag l d.bias (if d.hasBias then 4 * d.n * planes else 0) with
        | .error e => .error e
        | .ok b => .ok ({ stat := st, strm := sm }, b)

/-- The reads of an op's operands and bias (Table 3.8). -/
def ArrDesc.reads (d : ArrDesc) : List (Nat × Nat) :=
  let planes := if d.opcode = 2 then 2 else 1
  let (sr, sc) := if d.transpose then (d.k, d.n) else (d.n, d.k)
  let (tr, tc) := if d.col then (d.k, d.m) else (d.m, d.k)
  if d.k = 0 then []
  else
    ((List.range planes).flatMap fun i => matReads (d.stat + i * (sr * d.statPitch)) d.statPitch sr sc d.fmts.1 (!d.transpose))
      ++ (List.range planes).flatMap fun i => matReads (d.strm + i * (tr * d.strmPitch)) d.strmPitch tr tc d.fmts.2 (!d.col)

/-- The context of an op in a slot. -/
def State.arrCtx (s : State) (r : RunSlot) : ArrCtx :=
  { core := r.core, opCode := r.opCode, seed := ((s.numeric).map (·.seed)).getD 0,
    step := (s.reg (Reg.updStep 0)).toNat, srEnable := ((s.fing).map (·.hdr.srEnable)).getD false }

/-- The descriptor that an array's slot has reached (log 117). -/
def State.descAt (s : State) (r : RunSlot) : ArrDesc := decodeDesc (s.coreRead r.core (0x1F00000 + r.ptr) 64)

/-- An op is done: it signals, and the slot goes on to its next descriptor (R136, R227). -/
def State.opDone (s : State) (c : ErrCtx) (u : UnitId) (r : RunSlot) (d : ArrDesc) : State :=
  let s := if 32768 ≤ d.signal then s.sendSignal c r.core (d.signal / 32 % 64) (d.signal % 32) else s
  s.setRun u { r with ptr := r.ptr + 64, ordinal := r.ordinal + 1, wait := none, rest := [] }

/-- Put the rest of an op's values into the vector input queue; the op completes with the last (R177). -/
def State.fillQueue (s : State) (c : ErrCtx) (u : UnitId) (r : RunSlot) (d : ArrDesc) (vs : List Word) : State :=
  let x := s.enqueue c u r vs
  if x.1.rest.isEmpty then x.2.opDone c u x.1 d else x.2

/-- Run one valid op whose wait is over (R158 to R163) (log 2). An op whose output the vector input queue cannot take whole goes on
when the command is given again (R177). -/
def State.runOp (s : State) (u : UnitId) (r : RunSlot) (d : ArrDesc) : State :=
  let c := s.errCtx u r
  let ag := Agent.array c.phys (u.idx % 3)
  let x := s.arrCtx r
  if d.m = 0 ∨ d.n = 0 then s.opDone c u r d
  else if !r.rest.isEmpty then s.fillQueue c u r d r.rest
  else
    match s.readOperands ag r.core d with
    | .error .program => s.progFault c
    | .error .unmapped => s.raise (c.ev 0x600D 4 (unitCode u c.phys))
    | .ok (o, bias) =>
      let p := d.compute x o bias
      let s := d.reads.foldl (fun (s : State) (z : Nat × Nat) => s.touchOperand ag z.1 z.2) s
      let s := (s.bumpPair (Reg.passCntLo c.phys) d.passes).keepSums r.core (u.idx % 3) d
      let s := if p.zxi then s.setBit (Reg.arrayErr c.phys) (4 * (u.idx % 3) + 2) true else s
      if d.target = 3 then
        (s.feedDrain d x r.beat (s.drain d p.rows) p.zxi (d.drainSr x)).fillQueue c u r d (queueOrder d.n p.rows)
      else
        let y := s.deliver c ag d x r.beat p
        if y.2 then y.1.opDone c u r d else y.1

/-- Run an op that may start, once the verdict of the beat before has been applied where it accesses the WGA (R171); an op that writes
no tile (R165) or has no output accesses none. -/
def State.startOp (s : State) (u : UnitId) (r : RunSlot) (d : ArrDesc) (errs : List HwErr) : State :=
  let c := s.errCtx u r
  let writes := !(d.m == 0 || d.n == 0) && decide (d.lastTile < s.wgaTiles r.core ∧ d.lastTile ≤ 255)
  if d.target = 2 && s.wgaHolds r.beat && writes then
    (s.setRun u { r with wait := if 128 ≤ d.wait then some (d.wait % 32, true) else none }).holdWga c r.core
  else (s.runOp u r d).hwErrors c r.core errs

/-- One array op of the row's opcode: the slot's next descriptor when it has that opcode; a descriptor that R157 calls
invalid is a program fault under any of the three rows. -/
def applyArrayOp (opcode l arr : Nat) (errs : List HwErr) (s : State) : State :=
  let u := arrayUnit l arr
  match s.runOf u with
  | none => s
  | some r =>
    let d := s.descAt r
    let c := s.errCtx u r
    if d.opcode = 0 then s
    else if !d.valid then s.progFault c
    else if d.opcode ≠ opcode then s
    else if 128 ≤ d.wait && r.rest.isEmpty then
      match s.tryWait u r (d.wait % 32) with
      | none => s.standWait u r (d.wait % 32)
      | some (s, r) => s.startOp u r d errs
    else s.startOp u r d errs

/-- REAL. -/
def execReal (l arr : Nat) (errs : List HwErr) (s : State) : Host.Outcome State Fault Refusal :=
  .next (applyArrayOp 1 l arr errs s)

/-- COMPLEX. -/
def execComplex (l arr : Nat) (errs : List HwErr) (s : State) : Host.Outcome State Fault Refusal :=
  .next (applyArrayOp 2 l arr errs s)

/-- FP32X6. -/
def execFp32x6 (l arr : Nat) (errs : List HwErr) (s : State) : Host.Outcome State Fault Refusal :=
  .next (applyArrayOp 3 l arr errs s)

/-- END_OF_SEQUENCE (R157). -/
def applyEndOfSequence (l arr : Nat) (s : State) : State :=
  let u := arrayUnit l arr
  match s.runOf u with
  | none => s
  | some r => if (s.descAt r).opcode = 0 then s.endRunOf u r else s

def execEndOfSequence (l arr : Nat) (s : State) : Host.Outcome State Fault Refusal := .next (applyEndOfSequence l arr s)

end Sys2Proof.Machine
end

