-- ==== Sys2Proof/Machine/Regs.lean ====
section
/-! DEFINITION. Register reads and writes, and the commands that a host gives by writing a control bit (R10 to R23,
R66, R125, R126, R289, R388, R458, R490, R508, R518, R534, R561, R617 to R621). -/

namespace Sys2Proof.Machine

open Sys2Proof

/-! ### Which blocks answer -/

/-- Start-up has not completed: BOOT, TRAIN, or a FAILED state reached during start-up (R534). -/
def State.starting (s : State) : Bool :=
  decide (s.devState = 1 ∨ s.devState = 2) || (decide (s.devState = 7) && decide (s.power.step < 10))

/-- Blocks whose reads return current values before READY (R534). -/
def readableEarly (off : Nat) : Bool :=
  decide (off < 0x100000) || (decide (0x200000 ≤ off) && decide (off < 0x600000)) || decide (0x3C00000 ≤ off)

/-- Blocks that take writes before READY (R534). -/
def writableEarly (off : Nat) : Bool :=
  decide (off = 0x18) || (decide (0x200000 ≤ off) && decide (off < 0x300000)) || decide (0x3C00000 ≤ off)

/-- The unit of the block that an offset lies in is in the package (R618). A die that is fenced stays readable. -/
def State.blockPresent (s : State) (off : Nat) : Bool :=
  let die (p : Nat × Nat) : Bool := s.bit (Reg.dieStep p.1 p.2) 31
  if 0x500000 ≤ off ∧ off < 0x600000 then s.starting || die (1, 0)
  else if 0x1000000 ≤ off ∧ off < 0x1440000 then die (cdiePlace ((off - 0x1000000) / 0x10000 / 17))
  else if 0x2000000 ≤ off ∧ off < 0x2400000 then
    decide (0x200 ≤ off % 0x40000 ∧ off % 0x40000 < 0x220) || die (pilePlace ((off - 0x2000000) / 0x40000))
  else if 0x3000000 ≤ off ∧ off < 0x3080000 then die ((off - 0x3000000) / 0x40000, 0)
  else if 0x3801000 ≤ off ∧ off < 0x3803000 then die ((off - 0x3801000) / 0x1000, 0)
  else true

/-- Half whose hub holds the register at an offset. -/
def regHub (off : Nat) : Nat :=
  if (0x500000 ≤ off ∧ off < 0x600000) ∨ (0x1220000 ≤ off ∧ off < 0x1440000) ∨ (0x2200000 ≤ off ∧ off < 0x2400000)
      ∨ (0x3040000 ≤ off ∧ off < 0x3080000) ∨ (0x3802000 ≤ off ∧ off < 0x3803000) then 1 else 0

/-- Clock domain of the register at an offset (Table 12.6) (log 84). -/
def regDomain (off : Nat) : Nat := if 0x3C00000 ≤ off then 0 else 3 + regHub off

/-- A read of this offset returns the register's current value. -/
def State.readOpen (s : State) (off : Nat) : Bool := (!s.starting || readableEarly off) && s.blockPresent off

/-- A write of this offset is not ignored, and its clock domain runs: a write into a stopped domain is abandoned (R526) (log 84). -/
def State.writeOpen (s : State) (off : Nat) : Bool :=
  (!s.starting || writableEarly off) && s.blockPresent off && !s.power.stopped.contains (regDomain off)

/-! ### Reads -/

/-- FORG_QUEUE of a forager: ready samples that no manifest names, and its long queue (Table 9.22). -/
def State.forgQueueWord (s : State) (f : Nat) : Word :=
  let ready := s.forager.staged.filter fun x => x.forager == f && !x.marker && !x.long && !x.refetch
  let long := s.forager.long.filter fun x => x.forager == f
  BitVec.ofNat 32 (min 0xFFFF ready.length + 65536 * min 64 long.length)

/-- Index of the update engine whose UPD_STATUS lies at an offset. -/
def updStatusOf (off : Nat) : Option Nat :=
  if 0x2000000 ≤ off ∧ off < 0x2400000 ∧ (off - 0x2000000) % 0x40000 = 0x104 then some ((off - 0x2000000) / 0x40000) else none

/-- UPD_STATUS with PARTIAL as the tags stand (Table 6.14), and as they stood at the end of the run while none runs (R270) (log 96). -/
def State.updStatusWord (s : State) (n : Nat) : Word :=
  if s.fing.isNone then s.reg (Reg.updStatus n)
  else withBits (s.reg (Reg.updStatus n)) 3 3 (if s.partialTag n then 1 else 0)

/-- The current value of a register as a read sees it; a reserved offset reads 0 (R617). -/
def State.readReg (s : State) (off : Nat) : Word :=
  if !s.readOpen off then regReset off
  else if off = Reg.errSummary then s.errSummary
  else if off = Reg.portStatusA then s.portStatusWord .a
  else if off = Reg.portStatusB then s.portStatusWord .b
  else if off = Reg.forgQueue 0 then s.forgQueueWord 0
  else if off = Reg.forgQueue 1 then s.forgQueueWord 1
  else
    match updStatusOf off with
    | some n => s.updStatusWord n
    | none => if (regRow? off).isSome then s.reg off else 0

/-- The latch of a requester for a pair (R21). -/
def State.latch (s : State) (r : Req) (lo : Nat) : Option Word :=
  (s.latches.find? fun l => l.req == r && l.lo == lo).map (·.hi)

/-- Load a requester's latch. -/
def State.setLatch (s : State) (r : Req) (lo : Nat) (hi : Word) : State :=
  { s with latches := (s.latches.filter fun l => !(l.req == r && l.lo == lo)) ++ [{ req := r, lo := lo, hi := hi }] }

/-- One DWORD read with its side effects: a LO read loads the latch, a HI read returns it, RC bits clear (R17, R620). A register that
several blocks show is one register (R370). -/
def State.readWord (s : State) (r : Req) (off : Nat) : Word × State :=
  let v := s.readReg off
  let h := regHome off
  if isLoRead off then (v, s.setLatch r h (s.readReg (off + 4)))
  else if 4 ≤ off ∧ isLoRead (off - 4) then ((s.latch r (h - 4)).getD v, s)
  else
    match regRow? off with
    | some row =>
      if row.rc ≠ 0 ∧ s.readOpen off then (v, s.setReg off (s.reg off &&& ~~~(BitVec.ofNat 32 row.rc)))
      else (v, s)
    | none => (v, s)

/-- XING_STATUS DOMAIN takes the domain of the first timeout or unlock (Table 12.18) (log 111). -/
def State.noteDomain (s : State) (d : Nat) : State :=
  if s.bit Reg.xingStatus 0 || s.bit Reg.xingStatus 1 then s else s.setFld Reg.xingStatus 15 8 d

/-- Unit code of a clock domain (Table 13.5). -/
def domainUnit (d : Nat) : UnitCode := { typ := 15, idx := d, sub := 0 }

/-- A crossing into a domain times out (R526) (log 84). -/
def State.crossTimeout (s : State) (d : Nat) : State :=
  ((s.noteDomain d).setBit Reg.xingStatus 0 true).raise { code := 0xA010, cls := 1, unit := domainUnit d, info1 := d }

/-- RC_READ: a read of one register. A read into a clock domain that has stopped times out and returns all ones (R23, R526) (log 84). -/
def applyRcRead (r : Req) (off : Nat) (s : State) : State :=
  if s.power.stopped.contains (regDomain off) then (s.crossTimeout (regDomain off)).emit (.regData r off 0xFFFFFFFF)
  else
    let x := s.readWord r off
    x.2.emit (.regData r off x.1)

def execRcRead (r : Req) (off : Nat) (s : State) : Host.Outcome State Fault Refusal := .next (applyRcRead r off s)

/-- LO_READ: a read of the LO register of a pair, alone or with HI in one two-DWORD read (R457, R620). -/
def applyLoRead (r : Req) (off : Nat) (two : Bool) (s : State) : State :=
  let x := s.readWord r off
  if s.power.stopped.contains (regDomain off) then
    (s.crossTimeout (regDomain off)).emit (if two then .regPair r off 0xFFFFFFFF 0xFFFFFFFF else .regData r off 0xFFFFFFFF)
  else if two then
    let y := x.2.readWord r (off + 4)
    y.2.emit (.regPair r off x.1 y.1)
  else x.2.emit (.regData r off x.1)

def execLoRead (r : Req) (off : Nat) (two : Bool) (s : State) : Host.Outcome State Fault Refusal :=
  .next (applyLoRead r off two s)

/-! ### Plain writes -/

/-- The lock of a row holds (R17 and the fields' descriptions). -/
def State.locked (s : State) (l : RegLock) : Bool :=
  let held (x : SlotSt) : Bool := decide (1 ≤ x.state ∧ x.state ≤ 3)
  match l with
  | .none => false
  | .run => s.running
  | .slotA => held s.slotA
  | .slotB => held s.slotB
  | .bias => s.bit Reg.biasCtl 1
  | .hdm => s.running || s.bit Reg.biasCtl 1
  | .coord => held s.slotA || held s.slotB

/-- The value of a register after a plain write: RW bits take the value, unlocked RWL bits too, a 1 clears a W1C bit (log 43). -/
def State.written (s : State) (row : RegRow) (old v : Word) : Word :=
  let m := BitVec.ofNat 32 (row.rw ||| (if s.locked row.lock then 0 else row.locked))
  ((old &&& ~~~m) ||| (v &&& m)) &&& ~~~(v &&& BitVec.ofNat 32 row.w1c)

/-- Host address of a mailbox or report pair. -/
def State.pageAddr (s : State) (lo : Nat) : Nat := s.pair lo / 4096 * 4096

/-- LO offset of a mailbox or report pair. -/
def pairLo : AddrPair → Nat
  | .mailbox .a => Reg.mailboxAddrLo
  | .mailbox .b => Reg.bMailboxAddrLo
  | .report .a => Reg.reportAddrLo
  | .report .b => Reg.bReportAddrLo

/-- Set the address in use of a pair. -/
def State.setPage (s : State) (p : AddrPair) (v : Option Nat) : State :=
  match p with
  | .mailbox .a => { s with host := { s.host with mailA := v } }
  | .mailbox .b => { s with host := { s.host with mailB := v } }
  | .report .a => { s with host := { s.host with reportA := v } }
  | .report .b => { s with host := { s.host with reportB := v } }

/-- A write of a mailbox or report LO register: with VALID 1 the device takes the pair into use (Tables 2.22, 11.20). -/
def State.writeAddrLo (s : State) (p : AddrPair) (v : Word) : State :=
  let s := s.setReg (pairLo p) (v &&& 0xFFFFF001)
  s.setPage p (if s.bit (pairLo p) 0 then some (s.pageAddr (pairLo p)) else none)

/-- MAILBOX_ADDR_VALID (R126, R491). -/
def applyMailboxAddrValid (p : AddrPair) (v : Word) (s : State) : State :=
  if s.writeOpen (pairLo p) then s.writeAddrLo p v else s

def execMailboxAddrValid (p : AddrPair) (v : Word) (s : State) : Host.Outcome State Fault Refusal :=
  .next (applyMailboxAddrValid p v s)

/-- Cap value as stored: clamped to 600 to 2,000 W (Table 12.14) (log 114). -/
def clampCap (v : Nat) : Nat := max 600 (min 2000 v)

/-- BAR2 size of a port as a power of two; 256 MiB until the host selects one (R456). -/
def State.bar2Log2 (s : State) (p : HPort) : Nat := max 28 (s.hport p).bar2Log2

/-- The device address that BAR2 offset 0 reaches: a multiple of the BAR2 size (R459) (log 114). -/
def State.bar2Base (s : State) (p : HPort) : Nat :=
  let a := s.fld (match p with
    | .a => Reg.bar2BaseA
    | .b => Reg.bar2BaseB) 19 0 * 2 ^ 28
  a / 2 ^ s.bar2Log2 p * 2 ^ s.bar2Log2 p

/-- A write of FING_CTL (Table 2.20). While BUSY any write is refused; the operations 1 to 4 have rows of their own, and without
BUSY the other values of OP are ignored. -/
def State.afterFingWrite (s : State) (v : Word) : State :=
  if (1 ≤ bits v 2 0 ∧ bits v 2 0 ≤ 4) ∨ s.bit Reg.fingStatus 8 = false then s
  else
    ((s.setFld Reg.fingStatus 31 16 0x2012).logEntry { code := 0x2012, cls := 7, unit := { typ := 16, idx := bits v 3 3, sub := 0 } })
      |>.msixBoth 2

/-- A write of ESZ_CMD with a command that Table 14.15 does not list is refused with 0xB021; the four that it lists have rows of
their own. -/
def State.afterEszCmdWrite (s : State) (v : Word) : State :=
  let cmd := bits v 7 0
  if (1 ≤ cmd ∧ cmd ≤ 4) ∨ !s.power.powerOk ∨ s.esz.fw.isNone ∨ s.esz.busy.isSome then s
  else
    (({ s with esz := { s.esz with busy := some (cmd, 0xB021) } }).setBit Reg.eszStatus 4 true).setBit Reg.eszResult 24 false
      |>.logEntry { code := 0xB021, cls := 7, unit := { typ := 17, idx := 0, sub := 0 } }

/-- What follows a plain write of some registers (logs 40, 43, 114). -/
def State.afterWrite (s : State) (r : Req) (off : Nat) (old v : Word) : State :=
  if off = Reg.fingCtl then s.afterFingWrite v
  else if off = Reg.ferrCode then
    -- clearing VALID lets the capture load again, and clears OVERWRITTEN with it (R552)
    if bits old 31 31 = 1 ∧ bits v 31 31 = 1 then s.setBit Reg.ferrCode 29 false else s
  else if off = Reg.bar2BaseA then s.setFld off 19 0 (s.bar2Base .a / 2 ^ 28)
  else if off = Reg.bar2BaseB then s.setFld off 19 0 (s.bar2Base .b / 2 ^ 28)
  else if off = Reg.mailboxAddrLo then s.writeAddrLo (.mailbox .a) v
  else if off = Reg.reportAddrLo then s.writeAddrLo (.report .a) v
  else if off = Reg.bMailboxAddrLo then s.writeAddrLo (.mailbox .b) v
  else if off = Reg.bReportAddrLo then s.writeAddrLo (.report .b) v
  else if off = Reg.eszCmd then s.afterEszCmdWrite v
  else if off = Reg.pwrCapMgmt then
    if r = .eszoja then s.setFld off 11 0 (clampCap (bits v 11 0)) else s
  else
    -- an MSI-X entry that is unmasked with its pending bit set is sent (PRESUMED, PCI)
    let p := (off - 0x210000) / 0x1000
    let e := (off - 0x210000) % 0x1000
    if 0x210000 ≤ off ∧ off < 0x212000 ∧ e < 0x800 ∧ e % 16 = 12 ∧ bits v 0 0 = 0 ∧
        s.bit (Reg.msixPba p (e / 16 / 32)) (e / 16 % 32) ∧ (s.hport (portOf p)).msixOn then
      (s.setBit (Reg.msixPba p (e / 16 / 32)) (e / 16 % 32) false).emit (.msix (portOf p) (e / 16))
    else s

/-- REGISTER_WRITE: a write of the fields that have no row of their own (log 43). -/
def applyRegisterWrite (r : Req) (off : Nat) (v : Word) (s : State) : State :=
  match regRow? off with
  | none => s
  | some row =>
    if s.writeOpen off then
      let old := s.reg off
      (s.setReg off (s.written row old v)).afterWrite r off old v
    else s

def execRegisterWrite (r : Req) (off : Nat) (v : Word) (s : State) : Host.Outcome State Fault Refusal :=
  .next (applyRegisterWrite r off v s)

/-- BAR0_UNSUPPORTED_REQUEST (R457). -/
def applyBar0UnsupportedRequest (r : Req) (s : State) : State :=
  match r with
  | .portA => (s.logEntry { code := 0x9009, cls := 0, unit := { typ := 12, idx := 0, sub := 0 } }).emit (.unsupported .a)
  | .portB => (s.logEntry { code := 0x9009, cls := 0, unit := { typ := 12, idx := 1, sub := 0 } }).emit (.unsupported .b)
  | .eszoja => s.logEntry { code := 0x9009, cls := 0, unit := { typ := 17, idx := 0, sub := 0 } }

def execBar0UnsupportedRequest (r : Req) (_off : Nat) (_isWrite : Bool) (s : State) :
    Host.Outcome State Fault Refusal := .next (applyBar0UnsupportedRequest r s)

/-! ### Control bits -/

/-- MARGIN_RST (R125). -/
def applyMarginRst (s : State) : State :=
  if s.writeOpen Reg.beatCtl then s.setReg Reg.beatMarginMin 0x7FFFFFFF else s

def execMarginRst (s : State) : Host.Outcome State Fault Refusal := .next (applyMarginRst s)

/-- RDC_EN (R59, R66, R90). -/
def applyRdcEn (hub : Nat) (en : Bool) (s : State) : State :=
  if hub < 2 && s.writeOpen (Reg.rdcCtl hub) && s.hasRdc then
    let s := s.setBit (Reg.rdcCtl hub) 0 en
    if s.running then s else s.applyRdcEn
  else s

def execRdcEn (hub : Nat) (en : Bool) (s : State) : Host.Outcome State Fault Refusal := .next (applyRdcEn hub en s)

/-- INV_ALL (R66). -/
def applyInvAll (hub : Nat) (s : State) : State :=
  if s.writeOpen (Reg.rdcCtl hub) then
    { s with tier := { s.tier with rdc := s.tier.rdc.filter fun x => !(dieHub x.die == hub) } }
  else s

def execInvAll (hub : Nat) (s : State) : Host.Outcome State Fault Refusal := .next (applyInvAll hub s)

/-- CHUNK_RST (R289). -/
def applyChunkRst (pile : Nat) (s : State) : State :=
  if pile < 16 && s.writeOpen (Reg.updCtl pile) then s.setPair (Reg.updChunksLo pile) 0 else s

def execChunkRst (pile : Nat) (s : State) : Host.Outcome State Fault Refusal := .next (applyChunkRst pile s)

/-- CACHE_CLR (R388, Table 9.12). -/
def applyCacheClr (s : State) : State :=
  if s.writeOpen Reg.forgCtl && !s.running then
    { s with forager := { s.forager with cache := [] } }
  else s

def execCacheClr (s : State) : Host.Outcome State Fault Refusal := .next (applyCacheClr s)

/-- CTRL (R490). -/
def applyCtrl (via : Req) (target : HPort) (s : State) : State :=
  if s.writeOpen Reg.portCtlA = false ∨ s.host.ctrl = target then s
  else if s.running then
    if (via = .portA ∧ s.host.ctrl = .a) ∨ (via = .portB ∧ s.host.ctrl = .b) then
      { s with host := { s.host with ctrlNext := some target } }
    else s
  else s.setCtrl target

def execCtrl (via : Req) (target : HPort) (s : State) : Host.Outcome State Fault Refusal :=
  .next (applyCtrl via target s)

/-- APPLY (R486, Table 11.16). -/
def applyBiasApply (s : State) : State :=
  if !s.writeOpen Reg.biasCtl || s.bit Reg.biasCtl 1 || !s.hdmCxl then s
  else if s.running then { s with host := { s.host with applyWaits := true } }
  else s.startFlips

def execBiasApply (s : State) : Host.Outcome State Fault Refusal := .next (applyBiasApply s)

/-- BIAS_CTL SHARED and ALL. -/
def State.showBias (s : State) : State :=
  let n := s.host.hostBias.length
  (s.setFld Reg.biasCtl 21 2 n).setBit Reg.biasCtl 22 (decide (n = 524288))

/-- Put a page in a bias; the list of host-bias pages stays rising. -/
def setBias (l : List Nat) (p : Nat) (host : Bool) : List Nat :=
  let rest := l.filter fun x => !(x == p)
  if host then rest.filter (fun x => decide (x < p)) ++ [p] ++ rest.filter (fun x => decide (p < x)) else rest

/-- Write back and clean every dirty eDRAM line of a page (R486). -/
def State.cleanPage (s : State) (p : Nat) : State :=
  let lo := s.hdmBase + p * 2097152
  let inPage (x : Nat × Nat × Bool) : Bool :=
    (List.range 8192).any fun i =>
      match s.locate (lo + 256 * i) with
      | some (.dram n off) => n == x.1 && off / 256 == x.2.1
      | _ => false
  if s.tier.edram.isEmpty then s
  else
    { s with tier := { s.tier with
        edram := s.tier.edram.map fun (x : Nat × Nat × Bool) => if x.2.2 && inPage x then (x.1, x.2.1, false) else x } }

/-- The value that a running flip uses: the one it started with, or a free value once the table's bit has been written otherwise
while BUSY is 1, which R486 leaves undefined (log 10). -/
def State.flipValue (s : State) (page : Nat) (want : Bool) : Bool × State :=
  if tableBit (s.view (s.fld Reg.biasTableBase 31 0 * 65536 + page / 8) 1) (page % 8) = want then (want, s)
  else
    let x := s.draw
    ((Config.freeWord x.1 page).getLsbD 0, x.2)

/-- BIAS_FLIP_COMPLETE: flips complete in ascending order of page (R486). -/
def applyBiasFlipComplete (page : Nat) (s : State) : State :=
  match s.host.flips with
  | [] => s
  | f :: rest =>
    if f.1 = page then
      let v := s.flipValue page f.2
      let s := if v.1 then v.2.cleanPage page else v.2
      let s := { s with host := { s.host with flips := rest, hostBias := setBias s.host.hostBias page v.1 } }
      (if rest.isEmpty then s.setBit Reg.biasCtl 1 false else s).showBias
    else s

def execBiasFlipComplete (page : Nat) (s : State) : Host.Outcome State Fault Refusal :=
  .next (applyBiasFlipComplete page s)

/-- HOLD_REQ (Table 12.13). -/
def applyHoldReq (s : State) : State := if s.devState = 3 then s.enterHold else s

def execHoldReq (s : State) : Host.Outcome State Fault Refusal := .next (applyHoldReq s)

/-- PWR_CAP_WRITE (R508, Table 12.14). -/
def applyPwrCapWrite (v : Word) (s : State) : State := s.setFld Reg.pwrCapHost 11 0 (clampCap (bits v 11 0))

def execPwrCapWrite (_r : Req) (v : Word) (s : State) : Host.Outcome State Fault Refusal :=
  .next (applyPwrCapWrite v s)

/-- TEST_CTL_WRITE: stored, and in effect at the next gap entry, or at once while RUN is 0 (R90, R561). -/
def applyTestCtlWrite (v : Word) (s : State) : State :=
  let atLeast1 (w : Word) (hi lo : Nat) : Word := if bits w hi lo = 0 then withBits w hi lo 1 else w
  let w := atLeast1 (atLeast1 (atLeast1 v 15 4) 23 16) 31 24
  let s := s.setReg Reg.testCtl w
  if s.running then s else { s with test := { s.test with testCtl := w } }

def execTestCtlWrite (v : Word) (s : State) : Host.Outcome State Fault Refusal := .next (applyTestCtlWrite v s)

end Sys2Proof.Machine
end

