-- ==== Sys2Proof/Machine/Parse.lean ====
section
/-! DEFINITION. Reading a fingering image into plain data: header, directory and sections (R103 to R106, R109, R130, R243,
R285, R307, R325, R367, R403, R424, R468). The checks of R111 are in Checks.lean. -/

namespace Sys2Proof.Machine

open Sys2Proof

/-- A directory entry with its section's bytes (Table 2.6). -/
structure Sec where
  typ : Nat
  inst : Nat
  flags : Nat
  off : Nat
  size : Nat
  crc : Nat
  res : Nat
  data : Bytes
deriving DecidableEq, Repr

/-- The section belongs to the takeover plan (R307). -/
def Sec.takeover (x : Sec) : Bool := decide (x.inst / 16384 = 1)

/-- `n` bytes at an offset are 0. -/
def zeroAt (b : Bytes) (off n : Nat) : Bool := fieldAt b off n == 0

/-- `n` records of `size` bytes from an offset on. -/
def records (b : Bytes) (off size n : Nat) : List Bytes := (List.range n).map fun i => (b.drop (off + size * i)).take size

/-- The fingering header (Table 2.5). -/
def parseHeader (b : Bytes) : Header :=
  let flag (i : Nat) : Bool := decide (fieldAt b 0x1C 4 / 2 ^ i % 2 = 1)
  { imageSize := fieldAt b 8 4, sections := fieldAt b 0xC 4, dirOffset := fieldAt b 0x10 4, sigOffset := fieldAt b 0x14 4,
    sigSize := fieldAt b 0x18 4, fullTwin := flag 0, streaming := flag 1, srEnable := flag 2, standbyB := flag 3,
    reqCaps := fieldAt b 0x20 4, reqPresent0 := fieldAt b 0x24 4, reqPresent1 := fieldAt b 0x28 4,
    period := fieldAt b 0x2C 4, planLen := fieldAt b 0x30 2, verdictDelay := fieldAt b 0x32 2,
    longEvery := fieldAt b 0x34 2, cascadeId := fieldAt b 0x38 8, cascadeSize := fieldAt b 0x40 2,
    target := fieldAt b 0x44 4, rollbackVer := fieldAt b 0x48 4, homeDigest := (b.drop 0x50).take 48,
    buildId := (b.drop 0x80).take 16 }

/-- The directory (Table 2.6). -/
def parseDir (b : Bytes) (h : Header) : List Sec :=
  (records b h.dirOffset 32 h.sections).map fun e =>
    { typ := fieldAt e 0 2, inst := fieldAt e 2 2, flags := fieldAt e 4 4, off := fieldAt e 8 8, size := fieldAt e 0x10 8,
      crc := fieldAt e 0x18 4, res := fieldAt e 0x1C 4, data := (b.drop (fieldAt e 8 8)).take (fieldAt e 0x10 8) }

/-- First section of a type in one of the two plans. -/
def findSec (secs : List Sec) (typ : Nat) (takeover : Bool) : Option Sec :=
  secs.find? fun x => x.typ == typ && x.takeover == takeover

/-! ### Plans and programs -/

/-- Slot descriptor (Table 2.8). -/
def parseSlot (b : Bytes) : SlotDesc :=
  { start := fieldAt b 0 4, budget := fieldAt b 4 4, op := fieldAt b 8 4, afterVerdict := decide (fieldAt b 0xC 2 % 2 = 1) }

/-- Offset of the slot descriptors of a plan of `n` positions (R106). -/
def slotBase (n : Nat) : Nat := (16 + 8 * n + 15) / 16 * 16

/-- FIRST and COUNT of position `p`. -/
def planEntry (b : Bytes) (p : Nat) : Nat × Nat := (fieldAt b (16 + 8 * p) 4, fieldAt b (16 + 8 * p + 4) 1)

/-- UNIT_PLAN or LONG_PLAN (Table 2.24). -/
def parsePlan (b : Bytes) (planLen : Nat) : UnitPlan :=
  { cls := fieldAt b 0 1, idx := fieldAt b 2 2
    positions := (List.range planLen).map fun p =>
      (records b (slotBase planLen + 16 * (planEntry b p).1) 16 (planEntry b p).2).map parseSlot }

/-- Entry counts of a CORE_PROGRAM: arrays 0 to 2, vector engine (Table 3.25). -/
def progCounts (b : Bytes) : List Nat := (List.range 4).map fun i => fieldAt b (2 * i) 2

/-- Entry tables from an offset on. -/
def progTables (b : Bytes) : Nat → List Nat → List (List Nat)
  | _, [] => []
  | off, n :: ns => ((List.range n).map fun i => fieldAt b (off + 4 * i) 4) :: progTables b (off + 4 * n) ns

/-- CORE_PROGRAM (R130). -/
def parseProg (x : Sec) : CoreProg :=
  { logical := x.inst % 16384, entries := progTables x.data 0x40 (progCounts x.data), wgaTiles := fieldAt x.data 8 2,
    wgaSr := decide (fieldAt x.data 0xA 1 % 2 = 1), image := x.data }

/-! ### Tensors and stages -/

/-- Tensor table entry (Table 8.5). -/
def parseTensor (b : Bytes) : Tensor :=
  let flag (i : Nat) : Bool := decide (fieldAt b 6 2 / 2 ^ i % 2 = 1)
  { id := fieldAt b 0 4, cls := fieldAt b 4 1, format := fieldAt b 5 1, writable := flag 0, mirrored := flag 1,
    holdGrad := flag 2, hostBias := flag 3, size := fieldAt b 8 8, taddr := fieldAt b 0x10 8, home := fieldAt b 0x18 8,
    landing := fieldAt b 0x20 8 }

/-- Entries of TENSOR_TABLE. -/
def tensorRecords (b : Bytes) : List Bytes := records b 16 48 (fieldAt b 0 4)

/-- Stage entry (Table 2.26). -/
def parseStage (b : Bytes) : Stage :=
  { weight := fieldAt b 0 4, kind := fieldAt b 4 1, trained := decide (fieldAt b 5 1 % 2 = 1), layer := fieldAt b 6 2 }

/-- RDC_REGIONS (Table 1.22). -/
def parseRdc (b : Bytes) : RdcSec :=
  { en := fieldAt b 2 1
    regions := (records b 16 32 (fieldAt b 0 2)).map fun r =>
      { base := fieldAt r 0 8, length := fieldAt r 8 8, lifetime := fieldAt r 0x10 1 } }

/-- NUMERIC_CONFIG (Tables 5.8, 5.9). -/
def parseNumeric (b : Bytes) : NumCfg :=
  { seed := fieldAt b 0 8, watchTensor := fieldAt b 8 4
    entries := (records b 32 8 (fieldAt b 0xC 2)).map fun e =>
      { policy := fieldAt e 0 1 % 4, headroom := fieldAt e 0 1 / 4 % 4, initScale := fieldAt e 1 1, endPos := fieldAt e 2 2 } }

/-! ### Updates -/

/-- SCHEDULE (Table 7.7). -/
def parseSched (b : Bytes) : Sched :=
  { decay := fieldAt b 0 1, warmupEach := decide (fieldAt b 1 1 % 2 = 1), lrPeak := wordAt b 4, lrMin := wordAt b 8,
    lrStart := wordAt b 0xC, warmup := fieldAt b 0x10 4, decayLen := fieldAt b 0x14 4, period := fieldAt b 0x18 4,
    gamma := wordAt b 0x1C }

/-- Group (Table 6.9). -/
def parseGroup (b : Bytes) : Group :=
  let flag (i : Nat) : Bool := decide (fieldAt b 1 1 / 2 ^ i % 2 = 1)
  { rule := fieldAt b 0 1, emaEn := flag 0, emaFp32 := flag 1, gradBf16 := flag 2, watchBase := fieldAt b 2 2,
    beta1 := wordAt b 4, omb1 := wordAt b 8, beta2 := wordAt b 0xC, omb2 := wordAt b 0x10, eps := wordAt b 0x14,
    wd := wordAt b 0x18, emaBeta := wordAt b 0x1C, emaOmb := wordAt b 0x20, gscale := fieldAt b 0x24 4,
    rowWidth := fieldAt b 0x28 4, preCols := fieldAt b 0x2C 4, preF := fieldAt b 0x30 2, newtonIters := fieldAt b 0x32 1,
    epsBase := wordAt b 0x34, epsSing := wordAt b 0x38, pivotRel := wordAt b 0x3C, sched := parseSched (b.drop 0x40) }

/-- Shard (Table 6.9). -/
def parseShard (b : Bytes) : Shard :=
  { group := fieldAt b 0 2, pile := fieldAt b 2 1, count := fieldAt b 4 4, first := fieldAt b 8 8, grad := fieldAt b 0x10 4,
    m := fieldAt b 0x14 4, v := fieldAt b 0x18 4, master := fieldAt b 0x1C 4, work := fieldAt b 0x20 4,
    ema := fieldAt b 0x24 4, tag := fieldAt b 0x28 4, freeze := fieldAt b 0x2C 4, touch := fieldAt b 0x30 4,
    pstat := fieldAt b 0x34 4, pdir := fieldAt b 0x38 4 }

/-- Group, shard and op records of UPDATE_CONFIG. -/
def groupRecords (b : Bytes) : List Bytes := records b 32 128 (fieldAt b 0 2)
def shardRecords (b : Bytes) : List Bytes := records b (32 + 128 * fieldAt b 0 2) 64 (fieldAt b 2 2)
def updRecords (b : Bytes) : List Bytes := records b (32 + 128 * fieldAt b 0 2 + 64 * fieldAt b 2 2) 16 (fieldAt b 4 4)

/-- UPDATE_CONFIG (R285). -/
def parseUpdate (b : Bytes) : UpdCfg :=
  { votePos := fieldAt b 8 2, stepPos := fieldAt b 0xA 2, stepRec := fieldAt b 0xC 4
    groups := (groupRecords b).map parseGroup, shards := (shardRecords b).map parseShard
    ops := (updRecords b).map fun o => { shard := fieldAt o 0 2, firstChunk := fieldAt o 4 4, chunks := fieldAt o 8 4 } }

/-! ### Tiers -/

/-- Records of TIER_PLAN. -/
def streamRecords (b : Bytes) : List Bytes := records b 64 16 (fieldAt b 0x18 2)
def moverRecords (b : Bytes) : List Bytes := records b (64 + 16 * fieldAt b 0x18 2) 32 (fieldAt b 0x10 4)
def refreshRecords (b : Bytes) : List Bytes :=
  records b (64 + 16 * fieldAt b 0x18 2 + 32 * fieldAt b 0x10 4) 8 (fieldAt b 0x14 4)

/-- TIER_PLAN (Table 8.9). -/
def parseTier (b : Bytes) : TierCfg :=
  { groupMode := fieldAt b 0 16, holdSize := fieldAt b 0x1A 2, holdGroup := fieldAt b 0x1C 1
    streams := (streamRecords b).map fun r =>
      { depth := fieldAt r 0 1, die := fieldAt r 1 1, bufSize := fieldAt r 4 4, bufBase := fieldAt r 8 8 }
    ops := (moverRecords b).map fun r =>
      { kind := fieldAt r 0 1, window := fieldAt r 1 1, expClass := fieldAt r 2 1, expCore := fieldAt r 3 1,
        expSlot := fieldAt r 0x14 1, tensor := fieldAt r 4 4, offset := fieldAt r 8 8, length := fieldAt r 0x10 4,
        target := fieldAt r 0x18 8 }
    refresh := (refreshRecords b).map fun r =>
      { pos := fieldAt r 0 2, pile := fieldAt r 2 1, count := fieldAt r 3 1, start := fieldAt r 4 4 } }

/-! ### Foragers -/

/-- Records of FORAGER_CONFIG. -/
def fstreamRecords (b : Bytes) : List Bytes := records b 64 64 (fieldAt b 0 2)
def batchRecords (b : Bytes) : List Bytes := records b (64 + 64 * fieldAt b 0 2) 32 (fieldAt b 2 2)

/-- Stream (Table 9.8). -/
def parseFStream (b : Bytes) : FStream :=
  let flag (i : Nat) : Bool := decide (fieldAt b 2 1 / 2 ^ i % 2 = 1)
  { kind := fieldAt b 0 1, forager := fieldAt b 1 1, cacheFill := flag 0, concealMask := flag 1, outZf8 := flag 2,
    longOk := flag 3, partner := flag 4, intake := decide (fieldAt b 3 1 = 1), port := fieldAt b 4 1,
    watch := fieldAt b 6 2, tgtW := fieldAt b 8 2, tgtH := fieldAt b 0xA 2, longAt := fieldAt b 0xC 4,
    mean := (List.range 3).map fun i => wordAt b (0x10 + 4 * i), scale := (List.range 3).map fun i => wordAt b (0x1C + 4 * i),
    dict := fieldAt b 0x28 4, byteBase := fieldAt b 0x2C 4, bosId := fieldAt b 0x30 4, eosId := fieldAt b 0x34 4,
    padId := fieldAt b 0x38 4 }

/-- FORAGER_CONFIG (R403). -/
def parseForager (b : Bytes) : ForCfg :=
  { retainStep := decide (fieldAt b 4 1 = 1), fixedSteps := fieldAt b 5 1, staging := fieldAt b 8 4,
    manifest := fieldAt b 0xC 4, cache := fieldAt b 0x10 4, configTag := fieldAt b 0x14 4
    streams := (fstreamRecords b).map parseFStream
    ops := (batchRecords b).map fun r =>
      { stream := fieldAt r 0 1, long := decide (fieldAt r 1 1 % 2 = 1), mbIndex := fieldAt r 2 2, budget := fieldAt r 4 4,
        rows := fieldAt r 8 4, seq := fieldAt r 0xC 4, fillMin := fieldAt r 0x10 4, target := fieldAt r 0x14 4 } }

/-! ### Routes and host descriptors -/

/-- Link-op records of ROUTE_TABLE. -/
def linkRecords (b : Bytes) : List Bytes := records b (64 + 4 * fieldAt b 0xC 2 + 32 * fieldAt b 0xE 2) 32 (fieldAt b 0x10 4)

/-- Link op (Table 10.5). -/
def parseLinkOp (b : Bytes) : LinkOp :=
  { kind := fieldAt b 0 1, vl := fieldAt b 1 1, group := fieldAt b 2 2, dest := fieldAt b 4 2, fmt := fieldAt b 6 1,
    window := fieldAt b 7 1, src := fieldAt b 8 8, dst := fieldAt b 0x10 8, length := fieldAt b 0x18 4,
    expClass := fieldAt b 0x1C 1, expCore := fieldAt b 0x1D 1, expSlot := fieldAt b 0x1E 1 }

/-- ROUTE_TABLE (Table 10.4). -/
def parseRoute (b : Bytes) : Route :=
  let n := fieldAt b 0xC 2
  { dx := fieldAt b 0 1, dy := fieldAt b 1 1, dz := fieldAt b 2 1, master := fieldAt b 4 4, twin := fieldAt b 8 4
    roles := (List.range 32).map fun q => fieldAt b (0x14 + q) 1
    members := (List.range n).map fun m => fieldAt b (64 + 4 * m) 4
    groups := (List.range (fieldAt b 0xE 2)).map fun g => fieldAt b (64 + 4 * n + 32 * g) 32
    ops := (linkRecords b).map parseLinkOp }

/-- The route of a standalone image without ROUTE_TABLE (R425). -/
def soloRoute (target : Nat) : Route :=
  { dx := 1, dy := 1, dz := 1, master := target, twin := 0xFFFFFFFF, roles := List.replicate 32 0, members := [target],
    groups := [], ops := [] }

/-- Descriptor (Table 11.4). -/
def parseDescHost (b : Bytes) : CopyDesc :=
  let flag (i : Nat) : Bool := decide (fieldAt b 2 1 / 2 ^ i % 2 = 1)
  { kind := fieldAt b 0 1, port := fieldAt b 1 1, hasRecord := flag 0, flag := flag 1, flagOther := flag 2,
    vector := fieldAt b 3 1, length := fieldAt b 4 4, hostAddr := fieldAt b 8 8, taddr := fieldAt b 0x10 8,
    flagAddr := fieldAt b 0x18 8, flagBase := fieldAt b 0x20 8, recordAddr := fieldAt b 0x28 8, stride := fieldAt b 0x30 4,
    nbuf := fieldAt b 0x34 2 }

/-- HOST_IO (R468). -/
def parseHostIo (b : Bytes) : HostIo :=
  { fenceOff := decide (fieldAt b 4 1 % 2 = 1), needA := decide (fieldAt b 5 1 % 2 = 1),
    needB := decide (fieldAt b 5 1 / 2 % 2 = 1), needCxl := decide (fieldAt b 5 1 / 4 % 2 = 1)
    descs := (records b 32 64 (fieldAt b 0 4)).map parseDescHost }

/-! ### The whole image -/

/-- One of the two plans of an image. -/
def parsePlanSet (h : Header) (secs : List Sec) (takeover : Bool) : PlanSet :=
  let mine := secs.filter fun x => x.takeover == takeover
  let of (t : Nat) : List Sec := mine.filter fun x => x.typ == t
  let route := (findSec secs 5 takeover).map fun x => parseRoute x.data
  { units := (of 1).map fun x => parsePlan x.data h.planLen, longs := (of 12).map fun x => parsePlan x.data h.planLen
    cores := (of 4).map parseProg
    route := match route with
      | some r => some r
      | none => if h.cascadeSize ≤ 1 then some (soloRoute h.target) else none
    update := (findSec secs 7 takeover).map fun x => parseUpdate x.data
    tier := (findSec secs 9 takeover).map fun x => parseTier x.data }

/-- The fingering that an image describes. -/
def parseFing (b : Bytes) (h : Header) (secs : List Sec) : Fing :=
  let data (t : Nat) : Option Bytes := (findSec secs t false).map (·.data)
  { hdr := h, own := parsePlanSet h secs false, takeover := parsePlanSet h secs true
    tensors := match data 2 with
      | some d => (tensorRecords d).map parseTensor
      | none => []
    stages := match data 3 with
      | some d => (records d 16 16 (fieldAt d 0 4)).map parseStage
      | none => []
    rdc := (data 6).map parseRdc, numeric := (data 10).map parseNumeric, forager := (data 8).map parseForager
    hostIo := (data 11).map parseHostIo, digest := sha384 (b.take h.sigOffset)
    key := fieldAt b (h.sigOffset + 7) 1 % 4 }

end Sys2Proof.Machine
end

