-- ==== Sys2Proof/Machine/Checks.lean ====
section
/-! DEFINITION. The ten checks of a fingering image (R111) with the section checks in the order of R625, and Eszoja's
verification of a signature block (R573). `none` is a pass. -/

namespace Sys2Proof.Machine

open Sys2Proof

/-! ### Signature blocks (R569 to R573) -/

/-- Fuse entry that a KEY byte names: 0 and 1 vendor, 2 to 5 customer. -/
def keyEntry (key : Nat) : Option Nat :=
  if 128 ≤ key then some (2 + key % 4) else if key % 4 < 2 then some (key % 4) else none

/-- Key-pair hash of a signature block (R569). -/
def keyPairHash (blk : Bytes) : Bytes := sha384 ((blk.drop 0x10).take 152)

/-- TBS record (R571). -/
def tbsRecord (kind key ver : Nat) (d : Bytes) : Bytes :=
  leBytes 4 0x5A545342 ++ leBytes 1 kind ++ leBytes 1 key ++ leBytes 2 0 ++ leBytes 4 ver ++ leBytes 4 0 ++ d

/-- Steps 1 and 2 of Table 14.4, apart from the block's position. -/
def blockForm (blk : Bytes) (kind : Nat) (customer : Bool) : Option Nat :=
  if fieldAt blk 0 4 ≠ 0x5A534231 ∨ fieldAt blk 4 2 ≠ 1 ∨ !zeroAt blk 8 8 ∨ !zeroAt blk 0x7F4 12
      ∨ fieldAt blk 7 1 / 4 % 32 ≠ 0 ∨ blk.length ≠ 2048 then some 0xB010
  else if fieldAt blk 6 1 ≠ kind ∨ !(decide (128 ≤ fieldAt blk 7 1) == customer) then some 0xB011
  else none

/-- Step 3: the named fuse entry is programmed and not revoked. -/
def EszSt.entryUsable (e : EszSt) (key : Nat) : Bool :=
  match keyEntry key with
  | some i => (e.keyHash.getD i none).isSome && !(e.revoked.contains i)
  | none => false

/-- Step 4: the key-pair hash equals the entry. -/
def EszSt.entryMatches (e : EszSt) (blk : Bytes) : Bool :=
  match keyEntry (fieldAt blk 7 1) with
  | some i => e.keyHash.getD i none == some (keyPairHash blk)
  | none => false

/-- Steps 5 and 6: both signatures over the TBS record. -/
def signaturesBad (blk : Bytes) (kind ver : Nat) (signed : Bytes) : Option Nat :=
  let tbs := tbsRecord kind (fieldAt blk 7 1) ver (sha384 signed)
  if !ecdsaVerify ((blk.drop 0x10).take 96) ((blk.drop 0xA8).take 96) tbs then some 0xB014
  else if !lmsVerify ((blk.drop 0x70).take 56) ((blk.drop 0x108).take 1772) tbs then some 0xB015
  else none

/-- Table 14.4 for a block with its signed bytes and rollback version; `lo` and `hi` bound the version of step 7. -/
def EszSt.verify (e : EszSt) (blk : Bytes) (kind : Nat) (customer : Bool) (ver lo hi : Nat) (signed : Bytes) : Option Nat :=
  match blockForm blk kind customer with
  | some c => some c
  | none =>
    if !e.entryUsable (fieldAt blk 7 1) then some 0xB012
    else if !e.entryMatches blk then some 0xB013
    else
      match signaturesBad blk kind ver signed with
      | some c => some c
      | none => if ver < lo ∨ hi < ver then some 0xB016 else none

/-- Step 3 of R111: the 0xB code of the failed check. -/
def EszSt.verifyFing (e : EszSt) (img : Bytes) (h : Header) : Option Nat :=
  if h.sigSize ≠ 2048 ∨ h.sigOffset + 2048 ≠ h.imageSize then some 0xB010
  else e.verify ((img.drop h.sigOffset).take 2048) 3 true h.rollbackVer e.rbFing 128 (img.take h.sigOffset)

/-- R574: steps 3 and 7 of Table 14.4 again for a loaded fingering. -/
def EszSt.recheck (e : EszSt) (g : Fing) : Bool :=
  e.entryUsable (128 + g.key) && decide (e.rbFing ≤ g.hdr.rollbackVer ∧ g.hdr.rollbackVer ≤ 128)

/-! ### Steps 1, 2 and 4 to 9 of R111 -/

/-- Step 1: constants and the bits that R103 requires to be 0. -/
def headerOk (b : Bytes) : Bool :=
  decide (fieldAt b 0 4 = 0x4656485A) && decide (fieldAt b 4 2 = 1) && decide (fieldAt b 6 2 = 0x100)
    && zeroAt b 0x36 2 && zeroAt b 0x42 2 && zeroAt b 0x4C 4 && zeroAt b 0x90 112
    && decide (fieldAt b 0x1C 4 < 16) && zeroAt b 0x47 1 && decide (fieldAt b 0x20 4 < 16384)
    && decide (fieldAt b 0x24 4 < 2 ^ 29) && decide (fieldAt b 0x28 4 < 2 ^ 25)

/-- Two ranges (start, length) overlap; an empty range overlaps none. -/
def overlap (a b : Nat × Nat) : Bool := decide (0 < a.2 ∧ 0 < b.2 ∧ a.1 < b.1 + b.2 ∧ b.1 < a.1 + a.2)

/-- No two ranges of a list overlap. -/
def disjoint : List (Nat × Nat) → Bool
  | [] => true
  | a :: rest => rest.all (fun b => !overlap a b) && disjoint rest

/-- No two elements are equal. -/
def noRepeat {α : Type} [BEq α] : List α → Bool
  | [] => true
  | a :: rest => !(rest.any (· == a)) && noRepeat rest

/-- Types that describe one unit each (R105). -/
def perUnit (t : Nat) : Bool := t == 1 || t == 4 || t == 12

/-- Types that a takeover plan repeats (R307) (log 64). -/
def takeoverType (t : Nat) : Bool := t == 1 || t == 4 || t == 5 || t == 7 || t == 9 || t == 12

/-- One directory entry (R105, Table 2.6). -/
def Sec.formOk (x : Sec) : Bool :=
  decide (1 ≤ x.typ ∧ x.typ ≤ 12) && decide (x.flags = 0) && decide (x.res = 0) && decide (x.off % 64 = 0)
    && (if perUnit x.typ then decide (x.inst < 32768) && (x.typ != 4 || decide (x.inst % 16384 < 64))
      else x.inst == 0xFFFF || (takeoverType x.typ && x.inst == 0x7FFF))

/-- Step 4: the directory and the required types (R104, R105, R307, Table 2.7) (log 57). -/
def dirOk (h : Header) (secs : List Sec) : Bool :=
  let have_ (t : Nat) (tk : Bool) : Bool := secs.any fun x => x.typ == t && x.takeover == tk
  decide (1 ≤ h.sections ∧ h.sections ≤ 64) && decide (h.dirOffset % 32 = 0)
    && decide (h.dirOffset + 32 * h.sections ≤ h.imageSize) && secs.all Sec.formOk
    && secs.all (fun x => decide (x.off + x.size ≤ h.imageSize))
    && disjoint ((0, 0x100) :: (h.dirOffset, 32 * h.sections) :: (h.sigOffset, h.sigSize)
        :: secs.map fun x => (x.off, x.size))
    && noRepeat ((secs.filter fun x => !perUnit x.typ).map fun x => (x.typ, x.inst))
    && have_ 1 false && have_ 2 false && have_ 3 false && have_ 4 false
    && (decide (h.cascadeSize ≤ 1) || have_ 5 false) && (decide (h.longEvery = 0) || have_ 12 false)
    && (!h.fullTwin || secs.all fun x =>
        x.takeover || !takeoverType x.typ || secs.any fun y =>
          y.takeover && y.typ == x.typ && y.inst % 16384 == x.inst % 16384)

/-- Each field of a presence word of an image is at most the present one (step 7) (log 57). -/
def fieldsLe (fields : List (Nat × Nat)) (need have_ : Nat) : Bool :=
  fields.all fun (x : Nat × Nat) => decide (need / 2 ^ x.1 % 2 ^ x.2 ≤ have_ / 2 ^ x.1 % 2 ^ x.2)

/-- Fields of CAP_PRESENT0 and CAP_PRESENT1: lowest bit and width (Tables 0.4, 0.5). -/
def present0Fields : List (Nat × Nat) :=
  [(0, 7), (7, 3), (10, 3), (13, 5), (18, 2), (20, 5), (25, 2), (27, 1), (28, 1)]
def present1Fields : List (Nat × Nat) := [(0, 6), (6, 2), (8, 5), (13, 5), (18, 6), (24, 1)]

/-- Step 9. -/
def beatOk (h : Header) : Bool :=
  decide (10000 ≤ h.period ∧ h.period ≤ 10000000) && decide (1 ≤ h.planLen ∧ h.planLen ≤ 4096)
    && decide (8 * h.verdictDelay ≤ h.period) && (decide (0 < h.verdictDelay) || decide (h.cascadeSize = 1))
    && (decide (h.longEvery = 0) || decide (h.planLen % h.longEvery = 0))

/-! ### Step 10, row 1: UNIT_PLAN and LONG_PLAN (R106, R107, R623) -/

/-- Units of a class (Table 2.25). -/
def classSize (c : Nat) : Nat := [0, 192, 64, 32, 24, 32, 18, 16, 1].getD c 0

/-- Position `p` is a long beat (R101). -/
def isLong (h : Header) (p : Nat) : Bool := decide (0 < h.longEvery) && decide ((p + 1) % h.longEvery = 0)

/-- Entries that a slot of a unit may name, in the plan's own sections (R623): none where the section is absent. -/
def opCount (p : PlanSet) (g : Fing) (cls idx : Nat) : Nat :=
  let core (l e : Nat) : Nat :=
    ((p.cores.find? (·.logical == l)).map fun c => (c.entries.getD e []).length).getD 0
  match cls with
  | 1 => core (idx / 3) (idx % 3)
  | 2 => core idx 3
  | 3 => (p.tier.map (·.ops.length)).getD 0
  | 4 => (g.hostIo.map (·.descs.length)).getD 0
  | 5 => (p.route.map (·.ops.length)).getD 0
  | 6 => (g.forager.map fun c => if idx % 9 = 8 then c.ops.length else c.streams.length).getD 0
  | 7 => (p.update.map (·.ops.length)).getD 0
  | _ => 0

/-- The slots of one position: each in turn, its 0x200A conditions before its 0x200B. A slot that starts with the one before it, which has
no budget, counts as ascending (log 122). -/
def slotsOk (h : Header) (limit ops : Nat) (sched : Bool) : Nat → List Bytes → Option Nat
  | _, [] => none
  | free, b :: rest =>
    let s := parseSlot b
    if s.start < free ∨ limit < s.start + s.budget ∨ (!sched ∧ ops ≤ s.op) ∨ 2 ≤ fieldAt b 0xC 2 ∨ !zeroAt b 0xE 2 then
      some 0x200A
    else if s.afterVerdict ∧ s.start < h.verdictDelay then some 0x200B
    else slotsOk h limit ops sched (s.start + s.budget) rest

/-- Work window that a plan's slots must fit, in ns (R107, R307). -/
def workLimit (h : Header) (long takeover : Bool) : Nat :=
  (if long then 2 else 1) * (if takeover then 2 else 1) * h.period - 2000

/-- One UNIT_PLAN or LONG_PLAN section. -/
def planOk (h : Header) (p : PlanSet) (g : Fing) (x : Sec) : Option Nat :=
  let b := x.data
  let cls := fieldAt b 0 1
  let idx := fieldAt b 2 2
  let long := x.typ == 12
  let n := h.planLen
  let form := decide (16 + 8 * n ≤ x.size) && zeroAt b 1 1 && zeroAt b 6 10 && decide (idx < classSize cls)
    && decide (x.inst % 16384 = cls * 256 + idx) && decide (fieldAt b 4 2 = n)
  let entries := (List.range n).all fun q =>
    let (first, count) := planEntry b q
    zeroAt b (16 + 8 * q + 5) 3 && decide (count ≤ 64)
      && (decide (count = 0) || (decide (slotBase n + 16 * (first + count) ≤ x.size) && isLong h q == long))
  if !form || !entries then some 0x200A
  else
    (List.range n).findSome? fun q =>
      slotsOk h (workLimit h long x.takeover) (opCount p g cls idx) (cls == 8) 0
        (records b (slotBase n + 16 * (planEntry b q).1) 16 (planEntry b q).2)

/-- Row 1. Two sections of one type and plan for one unit fail at the second of them (log 64). -/
def plansOk (h : Header) (g : Fing) : List Sec → List (Nat × Nat) → Option Nat
  | [], _ => none
  | x :: rest, seen =>
    if x.typ = 1 ∨ x.typ = 12 then
      if seen.contains (x.typ, x.inst) then some 0x200A
      else
        match planOk h (if x.takeover then g.takeover else g.own) g x with
        | some c => some c
        | none => plansOk h g rest ((x.typ, x.inst) :: seen)
    else plansOk h g rest seen

/-! ### Rows 2 and 3 -/

/-- A code when the check fails. -/
def orCode (ok : Bool) (code : Nat) : Option Nat := if ok then none else some code

/-- One CORE_PROGRAM section (R130, R624). -/
def progOk (x : Sec) : Bool :=
  let b := x.data
  let cs := progCounts b
  let tables := progTables b 0x40 cs
  decide (64 ≤ x.size ∧ x.size ≤ 1048576) && decide (0x40 + 4 * cs.sum ≤ x.size) && zeroAt b 0xB 53
    && decide (fieldAt b 0xA 1 < 2) && decide (fieldAt b 8 2 ≤ 256)
    && (tables.take 3).all (fun t => t.all fun e => decide (e % 64 = 0 ∧ e < x.size))
    && (tables.drop 3).all (fun t => t.all fun e => decide (e % 8 = 0 ∧ e < x.size))

/-- All slots of a plan set with their unit and position. -/
def PlanSet.slots (p : PlanSet) : List (UnitId × Nat × SlotDesc) :=
  (p.units ++ p.longs).flatMap fun u =>
    (u.positions.zipIdx).flatMap fun (x : List SlotDesc × Nat) => x.1.map fun d => ({ cls := u.cls, idx := u.idx }, x.2, d)

/-- Row 3 for one plan set: update-engine slots (R248) and the schedule-engine slot (R314). -/
def engineSlotsOk (p : PlanSet) : Bool :=
  let sched := p.slots.filter fun (x : UnitId × Nat × SlotDesc) => x.1.cls == 8
  p.slots.all (fun (x : UnitId × Nat × SlotDesc) => x.1.cls != 7 || x.2.2.afterVerdict)
    && (match p.update with
      | none => true
      | some u => match sched with
        | [x] => x.2.2.afterVerdict && decide (x.2.1 ≤ u.votePos)
        | _ => false)

/-! ### Row 4: tensors (R325 to R327, R296) -/

/-- Modes of the image (R367). -/
def imageModes (p : PlanSet) : Nat := (p.tier.map (·.groupMode)).getD 0

/-- Mode of group `q` in a GROUP_MODE field. -/
def modeOf (modes q : Nat) : Nat := modes / 4 ^ q % 4

/-- The device with the image's group modes (R625). -/
def State.withModes (s : State) (modes : Nat) : State :=
  (List.range 4).foldl (fun s i => s.setReg (Reg.groupMode i) (BitVec.ofNat 32 (modes / 2 ^ (32 * i)))) s

/-- The piles that a range of pile data lies in are present (Table 2.7). -/
def State.pilesUp (s : State) (a n : Nat) : Bool :=
  (List.range 16).all s.pilePresent || decide (n = 0)
    || (List.range ((a + n - 1) / 4096 - a / 4096 + 1)).all fun i =>
      s.pilePresent (pileOf (s.groupMode ((a / 4096 + i) * 4096 / 2 ^ 34)) ((a / 4096 + i) * 4096)).1

/-- A range lies wholly in pile data, in the available comb region of one present die, or (homes) in the super tier. -/
def State.homeRange (s : State) (sup : Bool) (a n : Nat) : Bool :=
  (decide (a + n ≤ 2 ^ 40) && s.pilesUp a n)
    || (sup && decide (0x100000000000 ≤ a ∧ a + n ≤ 0x200000000000))
    || (List.range 4).any fun d =>
      s.combUp d && decide (0x10000000000 + d * 2 ^ 32 ≤ a ∧ a + n ≤ 0x10000000000 + d * 2 ^ 32 + combGuest)

/-- Protected fingering ranges beside a LOAD of `f`: its own and the other slot's (R110). -/
def State.imageRanges (s : State) (f : FSlot) : List (Nat × Nat) :=
  ((s.slot f).ranges ++ (s.slot (otherSlot f)).ranges).map fun (r : Nat × Nat) => (r.1, r.2 - r.1)

/-- Holding areas and window buffers of a TIER_PLAN (R347, R339). -/
def tierRanges (p : PlanSet) : List (Nat × Nat) :=
  match p.tier with
  | none => []
  | some t =>
    ((List.range 16).map fun n => (holdAddr t n 0, t.holdSize * 1048576))
      ++ t.streams.map fun w => (w.bufBase, (w.depth + 1) * w.bufSize)

/-- One tensor entry. -/
def State.tensorOk (s : State) (modes : Nat) (twin : Bool) (b : Bytes) : Bool :=
  let t := parseTensor b
  let sup := decide (0x100000000000 ≤ t.home) && !t.holdGrad
  decide (t.id ≠ 0xFFFFFFFF) && decide (t.cls ≤ 5) && decide (t.format ≤ 5) && decide (fieldAt b 6 2 < 16)
    && zeroAt b 0x28 8 && decide (t.taddr % 4096 = 0) && decide (0x200000000000 ≤ t.taddr)
    && decide (t.taddr + (t.size + 4095) / 4096 * 4096 ≤ 0x400000000000)
    && (if t.holdGrad then decide (t.home = 0) && t.writable && t.cls == 1
      else decide (t.home % 256 = 0) && s.homeRange true t.home t.size)
    && (decide (t.landing = 0) || (sup && decide (t.landing / 2 ^ 34 = (t.landing + t.size - 1) / 2 ^ 34)
      && decide (t.landing < 2 ^ 40) && modeOf modes (t.landing / 2 ^ 34) == 2))
    && (!t.mirrored || (t.cls != 0 && t.cls != 5)) && (!t.hostBias || decide (t.home + t.size ≤ 2 ^ 40 ∧ t.holdGrad = false))
    && (!twin || t.mirrored || t.cls == 0 || t.cls == 5)

/-- Entries of classes 1 to 5 in ascending TENSOR_ID. -/
def insertById (b : Bytes) : List Bytes → List Bytes
  | [] => [b]
  | c :: rest => if fieldAt b 0 4 < fieldAt c 0 4 then b :: c :: rest else c :: insertById b rest

/-- The home map's digest (R327). -/
def homeDigest (modes : Nat) (recs : List Bytes) : Bytes :=
  let kept := recs.filter fun b => decide (1 ≤ fieldAt b 4 1 ∧ fieldAt b 4 1 ≤ 5)
  sha384 (leBytes 16 modes ++ (kept.foldl (fun l b => insertById b l) []).flatten)

/-- Row 4 (log 57). -/
def State.tensorsOk (s : State) (f : FSlot) (h : Header) (g : Fing) (x : Sec) : Bool :=
  let b := x.data
  let n := fieldAt b 0 4
  let recs := tensorRecords b
  let modes := imageModes g.own
  let ts := recs.map parseTensor
  let homes := (ts.filter fun t => !t.holdGrad).map fun t => (t.home, t.size)
  let lands := (ts.filter fun t => t.landing != 0).map fun t => (t.landing, t.size)
  let fixed := s.imageRanges f ++ tierRanges g.own ++ tierRanges g.takeover
  decide (16 ≤ x.size) && decide (1 ≤ n ∧ n ≤ 65536) && decide (16 + 48 * n ≤ x.size) && zeroAt b 4 12
    && noRepeat (ts.map (·.id)) && recs.all (s.tensorOk modes h.fullTwin)
    && disjoint (ts.map fun t => (t.taddr, (t.size + 4095) / 4096 * 4096)) && disjoint (homes ++ lands)
    && (homes ++ lands).all (fun r => fixed.all fun q => !overlap r q)
    && homeDigest modes recs == h.homeDigest

/-! ### Row 5: stages (R108, R109) -/

/-- A stage-table failure: the code, and for 0x200D the tensor and the two lowest stages (log 58). -/
def stageWalk (g : Fing) : Nat → List Nat → List Bytes → Option (Nat × Nat × Nat × Nat)
  | _, _, [] => none
  | i, seen, b :: rest =>
    let w := fieldAt b 0 4
    if !(g.tensors.any (·.id == w)) || fieldAt b 4 1 != 1 || decide (2 ≤ fieldAt b 5 1) || !zeroAt b 8 8 then
      some (0x200C, 0, 0, 0)
    else
      match seen.findIdx? (· == w) with
      | some j => some (0x200D, w, j, i)
      | none => stageWalk g (i + 1) (seen ++ [w]) rest

/-- Row 5 (log 58). -/
def stagesOk (g : Fing) (x : Sec) : Option (Nat × Nat × Nat × Nat) :=
  let n := fieldAt x.data 0 4
  if x.size < 16 ∨ 65536 < n ∨ !zeroAt x.data 4 12 ∨ x.size < 16 + 16 * n then some (0x200C, 0, 0, 0)
  else stageWalk g 0 [] (records x.data 16 16 n)

/-! ### Rows 6 and 7 -/

/-- Row 6 (R63). -/
def State.rdcOk (s : State) (x : Sec) : Bool :=
  let b := x.data
  let n := fieldAt b 0 2
  let rs := records b 16 32 n
  decide (16 + 32 * n ≤ x.size) && decide (n ≤ 256) && decide (fieldAt b 2 1 < 4) && zeroAt b 3 13
    && rs.all (fun r => decide (fieldAt r 8 8 ≠ 0 ∧ fieldAt r 8 8 % 256 = 0 ∧ fieldAt r 0 8 % 256 = 0)
      && s.homeRange false (fieldAt r 0 8) (fieldAt r 8 8) && decide (fieldAt r 0x10 1 ≤ 2) && zeroAt r 0x11 15)
    && disjoint (rs.map fun r => (fieldAt r 0 8, fieldAt r 8 8))

/-- Row 7 (R243). -/
def numericOk (g : Fing) (x : Sec) : Bool :=
  let b := x.data
  let n := fieldAt b 0xC 2
  decide (32 + 8 * n ≤ x.size) && decide (1 ≤ n ∧ n ≤ 4096) && zeroAt b 0xE 18
    && (match g.tensors.find? (·.id == fieldAt b 8 4) with
      | some t => decide (640 * n ≤ t.size)
      | none => false)
    && (records b 32 8 n).all fun e => decide (fieldAt e 0 1 < 16) && zeroAt e 4 4

/-! ### Row 8: updates (R286, R317) -/

/-- FP32 word is finite. -/
def finite32 (w : Word) : Bool := decide (w.toNat / 2 ^ 23 % 256 ≠ 255)

/-- FP32 word lies in [0, 1): +0 up to the last number below 1.0, or −0. -/
def in01 (w : Word) : Bool := decide (w.toNat < 0x3F800000) || decide (w = 0x80000000)

/-- FP32 word is not negative: the sign bit is 0, or it is −0. -/
def notNegative (w : Word) : Bool := decide (w.toNat < 0x80000000) || decide (w = 0x80000000)

/-- One SCHEDULE (R317). -/
def schedOk (b : Bytes) : Bool :=
  let c := parseSched b
  decide (c.decay ≤ 3) && decide (fieldAt b 1 1 < 2) && zeroAt b 2 2 && zeroAt b 0x20 32
    && (decide (c.decay = 0) || decide (0 < c.decayLen)) && (decide (c.period = 0) || decide (c.warmup < c.period))
    && [c.lrPeak, c.lrMin, c.lrStart].all (fun w => finite32 w && notNegative w)
    && finite32 c.gamma && decide (0 < c.gamma.toNat ∧ c.gamma.toNat < 0x80000000)

/-- Lowest and highest tile of a shard (R278): a shard that goes on into a later row of a band reaches its first tile. -/
def tileSpan (cols first count : Nat) : Nat × Nat :=
  let w := cols / 128
  let last := first + count - 1
  let r0 := first / cols
  let rl := last / cols
  let lo := if r0 < rl ∧ (r0 + 1) / 128 = r0 / 128 then r0 / 128 * w else r0 / 128 * w + first % cols / 128
  let hi := if r0 < rl ∧ (rl - 1) / 128 = rl / 128 then rl / 128 * w + w - 1 else rl / 128 * w + last % cols / 128
  (lo, hi)

/-- A tensor lies in a pile's own memory or in the super tier, under the image's modes. -/
def inPileOrSuper (modes pile : Nat) (t : Tensor) : Bool :=
  decide (0x100000000000 ≤ t.home) || t.holdGrad
    || (decide (t.home + t.size ≤ 2 ^ 40) && (decide (t.size = 0)
      || (modeOf modes (t.home / 2 ^ 34) == 2 && t.home / 2 ^ 30 % 16 == pile
        && t.home / 2 ^ 30 == (t.home + t.size - 1) / 2 ^ 30)
      || (List.range ((t.home + t.size - 1) / 4096 - t.home / 4096 + 1)).all fun i =>
        (pileOf (modeOf modes ((t.home / 4096 + i) * 4096 / 2 ^ 34)) ((t.home / 4096 + i) * 4096)).1 == pile))

/-- A tensor named in a role: none where the role may be none, else FORMAT, least SIZE and home. -/
def roleOk (g : Fing) (modes pile : Nat) (required : Bool) (id format least : Nat) : Bool :=
  if id = 0xFFFFFFFF then !required
  else
    match g.tensors.find? (·.id == id) with
    | none => false
    | some t => decide (t.format = format) && decide (least ≤ t.size) && inPileOrSuper modes pile t

/-- One group with its record. -/
def groupOk (g : Fing) (b : Bytes) : Bool :=
  let c := parseGroup b
  decide (1 ≤ c.rule ∧ c.rule ≤ 4) && decide (fieldAt b 1 1 < 8) && zeroAt b 0x33 1 && schedOk (b.drop 0x40)
    && (c.rule == 3 || (in01 c.beta1 && in01 c.beta2))
    && (c.rule != 2 || decide (c.rowWidth % 32 = 0 ∧ 32 ≤ c.rowWidth ∧ c.rowWidth ≤ 2048))
    && (c.rule != 4 || (decide (0 < c.preCols ∧ c.preCols % 128 = 0) && decide (0 < c.preF)
      && decide (1 ≤ c.newtonIters ∧ c.newtonIters ≤ 32)))
    && (c.gscale == 0xFFFFFFFF || match g.tensors.find? (·.id == c.gscale) with
      | some t => decide (t.format = 1) && decide (4 ≤ t.size) && !t.holdGrad
      | none => false)

/-- One shard with its record. -/
def shardOk (g : Fing) (u : UpdCfg) (modes : Nat) (b : Bytes) : Bool :=
  let h := parseShard b
  match u.groups[h.group]? with
  | none => false
  | some c =>
    let n := h.count
    let chunks := (n + 2047) / 2048
    let rows := if c.rule = 2 then n / c.rowWidth else 0
    let span := tileSpan c.preCols h.first n
    let role := roleOk g modes h.pile
    decide (h.pile < 16) && zeroAt b 3 1 && zeroAt b 0x3C 4
      && (c.rule != 2 || (decide (n % c.rowWidth = 0) && h.freeze == 0xFFFFFFFF))
      && role false h.grad (if c.gradBf16 then 2 else 1) (if c.gradBf16 then 2 * n else 4 * n)
      && role true h.m 2 (2 * n) && role (c.rule != 3) h.v 4 (n + (n + 31) / 32) && role true h.master 1 (4 * n)
      && role true h.work 2 (2 * n) && role c.emaEn h.ema (if c.emaFp32 then 1 else 2) (if c.emaFp32 then 4 * n else 2 * n)
      && role true h.tag 0 (if c.rule = 2 then 32 * rows else 32 * chunks)
      && role false h.freeze 0 (((n + 31) / 32 + 7) / 8) && role (c.rule == 2) h.touch 0 (16 + 4 * rows)
      && role (c.rule == 4) h.pstat 0 (if c.rule = 4 ∧ 0 < n then 16 * (span.2 - span.1 + 1) else 0)
      && role (c.rule == 4) h.pdir 1 (4 * n)

/-- Where a HOLD_GRAD tensor may be named: only as the GRAD of one shard. -/
def holdGradUse (g : Fing) (u : UpdCfg) : Bool :=
  let grads := u.shards.map (·.grad)
  let others := (u.shards.flatMap fun h => [h.m, h.v, h.master, h.work, h.ema, h.tag, h.freeze, h.touch, h.pstat, h.pdir])
    ++ [u.stepRec]
  (g.tensors.filter (·.holdGrad)).all fun t =>
    !(others.contains t.id) && decide ((grads.filter (· == t.id)).length ≤ 1)

/-- Row 8 for one section and the plan set that it belongs to. -/
def updateOk (h : Header) (g : Fing) (p : PlanSet) (x : Sec) : Bool :=
  let b := x.data
  let u := parseUpdate b
  let modes := imageModes g.own
  let ng := fieldAt b 0 2
  let ns := fieldAt b 2 2
  let no := fieldAt b 4 4
  decide (32 + 128 * ng + 64 * ns + 16 * no ≤ x.size) && decide (1 ≤ ng ∧ ng ≤ 64) && decide (1 ≤ ns ∧ ns ≤ 4096)
    && decide (1 ≤ no ∧ no ≤ 65536) && zeroAt b 0x10 16 && decide (u.votePos < u.stepPos ∧ u.stepPos < h.planLen)
    && (groupRecords b).all (groupOk g) && (shardRecords b).all (shardOk g u modes)
    && (updRecords b).all (fun o => zeroAt o 2 2 && zeroAt o 0xC 4 && decide (fieldAt o 0 2 < ns))
    && holdGradUse g u
    && (match g.tensors.find? (·.id == u.stepRec) with
      | some t => decide (t.format = 0) && decide (96 ≤ t.size)
      | none => false)
    && p.slots.all fun (y : UnitId × Nat × SlotDesc) =>
      y.1.cls != 7 || (decide (u.votePos < y.2.1 ∧ y.2.1 ≤ u.stepPos)
        && match u.ops[y.2.2.op]? with
          | some o => match u.shards[o.shard]? with
            | some d => d.pile == y.1.idx
            | none => false
          | none => false)

/-! ### Row 9: tiers (R368, R322) -/

/-- One refresh burst in ns (R358). -/
def burstNs : Nat := 1024

/-- Row 9 without R322. -/
def State.tierOk (s : State) (h : Header) (g : Fing) (x : Sec) : Bool :=
  let b := x.data
  let t := parseTier b
  let nw := fieldAt b 0x18 2
  let nm := fieldAt b 0x10 4
  let nr := fieldAt b 0x14 4
  let spans (pos pile : Nat) : List (Nat × Nat) :=
    (t.refresh.filter fun r => r.pos == pos && (r.pile == pile || r.pile == 255)).map fun r => (r.start, burstNs * r.count)
  decide (64 + 16 * nw + 32 * nm + 8 * nr ≤ x.size) && decide (nw ≤ 64 ∧ nm ≤ 65536 ∧ nr ≤ 65536)
    && decide (t.holdSize ≤ 1024 ∧ t.holdGroup ≤ 63) && zeroAt b 0x1D 35
    && (List.range 64).all (fun q => decide (modeOf t.groupMode q ≠ 3))
    && (decide (t.holdSize = 0) || modeOf t.groupMode t.holdGroup == 2)
    && (streamRecords b).all (fun r => zeroAt r 2 2 && decide (1 ≤ fieldAt r 0 1 ∧ fieldAt r 0 1 ≤ 8)
      && decide (fieldAt r 1 1 ≤ 3) && decide (fieldAt r 4 4 % 4096 = 0) && s.combUp (fieldAt r 1 1)
      && decide (0x10000000000 + fieldAt r 1 1 * 2 ^ 32 ≤ fieldAt r 8 8
        ∧ fieldAt r 8 8 + (fieldAt r 0 1 + 1) * fieldAt r 4 4 ≤ 0x10000000000 + fieldAt r 1 1 * 2 ^ 32 + combGuest))
    && (moverRecords b).all (fun r => zeroAt r 0x15 3)
    && t.ops.all (fun o => decide (o.kind = 1 ∨ o.kind = 2) && decide (0 < o.length)
      && match g.tensors.find? (·.id == o.tensor) with
        | none => false
        | some y =>
          if o.kind = 1 then s.homeRange true o.target y.size
          else (match t.streams[o.window]? with
            | some w => decide (o.offset + o.length ≤ y.size ∧ o.length ≤ w.bufSize)
            | none => false) && decide (o.expCore < 64) && (decide (o.expClass ≤ 3) || o.expClass == 255))
    && t.refresh.all (fun r => decide (r.pos < h.planLen) && (decide (r.pile ≤ 15) || r.pile == 255)
      && decide (1 ≤ r.count ∧ r.count ≤ 16)
      && decide (r.start + burstNs * r.count ≤ workLimit h (isLong h r.pos) x.takeover))
    && (t.refresh.map (·.pos)).eraseDups.all fun pos => (List.range 16).all fun n => disjoint (spans pos n)

/-- GROUP_MODE of the device as one number. -/
def State.modes (s : State) : Nat := ((List.range 4).map fun i => (s.reg (Reg.groupMode i)).toNat * 2 ^ (32 * i)).sum

/-- A LOAD that finds no slot LOADED or RUNNING. -/
def State.noneLoaded (s : State) : Bool :=
  !(decide (s.slotA.state = 2 ∨ s.slotA.state = 3)) && !(decide (s.slotB.state = 2 ∨ s.slotB.state = 3))

/-- The refusals of R322. -/
def State.modesOk (s : State) (f : FSlot) (modes : Nat) : Bool :=
  let x := s.slot f
  (x.alone || s.modes == modes)
    && (decide (x.hi ≤ x.lo) || (List.range ((x.hi - 1) / 2 ^ 34 - x.lo / 2 ^ 34 + 1)).all fun i =>
      modeOf s.modes (x.lo / 2 ^ 34 + i) == modeOf modes (x.lo / 2 ^ 34 + i))

/-! ### Row 10: foragers (R404, R385) -/

/-- A dictionary in the trie format of Table 9.3; `d` holds its tensor's bytes. -/
def dictOk (d : Bytes) (byteBase : Nat) : Bool :=
  let nodes := fieldAt d 0 4
  let edges := fieldAt d 4 4
  let ns := records d 0x40 16 nodes
  let es := records d (0x40 + 16 * nodes) 8 edges
  let tok (n : Bytes) : Nat := fieldAt n 0 4
  let named := ns.filter fun n => tok n != 0xFFFFFFFF
  -- depth of every node, parents first: a child's index is greater than its parent's
  let depths := ns.zipIdx.foldl (fun (dep : List (Nat × Nat)) (x : Bytes × Nat) =>
    let here := (getKey dep x.2).getD 0
    (List.range (fieldAt x.1 8 2)).foldl (fun dep k =>
      putKey dep (fieldAt (es.getD (fieldAt x.1 4 4 + k) []) 4 4) (here + 1)) dep) [(0, 0)]
  decide (1 ≤ nodes ∧ nodes ≤ 16777216 ∧ edges + 1 = nodes) && decide (0x40 + 16 * nodes + 8 * edges ≤ d.length)
    && zeroAt d 0x0C 52 && decide (fieldAt d 8 4 = named.length) && decide (1 ≤ named.length ∧ named.length ≤ 262144)
    && named.all (fun n => decide (tok n < 1048576) && !(decide (byteBase ≤ tok n ∧ tok n < byteBase + 256)))
    && ns.zipIdx.all (fun (x : Bytes × Nat) =>
      let first := fieldAt x.1 4 4
      let count := fieldAt x.1 8 2
      zeroAt x.1 0xA 6 && decide (count ≤ 256 ∧ first + count ≤ edges)
        && (List.range count).all fun k =>
          let e := es.getD (first + k) []
          zeroAt e 1 3 && decide (x.2 < fieldAt e 4 4 ∧ fieldAt e 4 4 < nodes)
            && (k == 0 || decide (fieldAt (es.getD (first + k - 1) []) 0 1 < fieldAt e 0 1)))
    && noRepeat (es.map fun e => fieldAt e 4 4)
    && depths.all fun (x : Nat × Nat) => decide (x.2 ≤ 64)

/-- Bytes of a micro-batch (Table 9.5). -/
def batchSize (st : FStream) (o : BatchDesc) : Nat :=
  if st.kind = 2 then 11 * o.budget
  else
    let n := o.budget * st.tgtH * st.tgtW * 3
    -- ZF8 blocks run along the flat index of each image (R380)
    if st.outZf8 then n + o.budget * ((st.tgtH * st.tgtW * 3 + 31) / 32) + o.budget else 2 * n + o.budget

/-- Row 10. -/
def State.foragerOk (s : State) (h : Header) (g : Fing) (x : Sec) : Bool :=
  let b := x.data
  let c := parseForager b
  let ns := fieldAt b 0 2
  let no := fieldAt b 2 2
  let ten (id cls : Nat) : Option Tensor := g.tensors.find? fun t => t.id == id && t.cls == cls
  let inPlan (us : List UnitPlan) (i : Nat) : Bool := us.any fun u =>
    u.cls == 6 && u.idx % 9 == 8 && u.positions.any fun l => l.any fun d => d.op == i
  let used (p : PlanSet) : List Nat := ((List.range no).filter fun i => inPlan p.units i || inPlan p.longs i).map fun i =>
    ((c.ops[i]?).map (·.mbIndex)).getD 0
  decide (64 + 64 * ns + 32 * no ≤ x.size) && decide (1 ≤ ns ∧ ns ≤ 32) && decide (1 ≤ no ∧ no ≤ 4096)
    && decide (fieldAt b 4 1 ≤ 1) && zeroAt b 6 2 && zeroAt b 0x18 40
    && (fstreamRecords b).all (fun r => decide (fieldAt r 0 1 = 1 ∨ fieldAt r 0 1 = 2) && decide (fieldAt r 1 1 ≤ 1)
      && decide (fieldAt r 2 1 < 32) && decide (fieldAt r 3 1 ≤ 1) && decide (fieldAt r 4 1 ≤ 31) && zeroAt r 5 1
      && zeroAt r 0x3C 4)
    && c.streams.zipIdx.all (fun (y : FStream × Nat) =>
      let st := y.1
      (if st.kind = 1 then decide (1 ≤ st.tgtW ∧ st.tgtW ≤ 4096 ∧ 1 ≤ st.tgtH ∧ st.tgtH ≤ 4096)
        else decide (1 ≤ st.longAt ∧ st.longAt ≤ 16777216)
          && match g.tensors.find? (·.id == st.dict) with
            | some t => dictOk (s.view t.home t.size) st.byteBase
            | none => false)
        && (!st.intake || st.port / 16 == st.forager) && (!st.partner || (h.fullTwin && decide (16 ≤ y.2))))
    && (batchRecords b).all (fun r => decide (fieldAt r 1 1 < 2) && zeroAt r 0x18 8)
    && c.ops.zipIdx.all (fun (y : BatchDesc × Nat) =>
      let o := y.1
      match c.streams[o.stream]? with
      | none => false
      | some st =>
        decide (o.budget = o.rows * o.seq) && decide (o.fillMin ≤ o.budget)
          && (if st.kind = 2 then decide (1 ≤ o.rows ∧ o.rows ≤ 4096)
              && (if o.long then decide (o.rows = 1 ∧ st.longAt < o.budget) else decide (st.longAt ≤ o.seq))
            else decide (o.rows = o.budget ∧ o.seq = 1) && !o.long)
          && (if o.long then !(inPlan (g.own.units ++ g.takeover.units) y.2)
            else !(inPlan (g.own.longs ++ g.takeover.longs) y.2))
          && match ten o.target (if st.partner then 5 else 4) with
            | some t => decide (batchSize st o ≤ t.size)
            | none => false)
    && noRepeat (used g.own) && noRepeat (used g.takeover)
    && (ten c.staging 0).isSome
    && (match ten c.manifest 1 with
      | some t => decide (64 + 2 * no * 131136 ≤ t.size)
      | none => false)
    && (c.cache == 0xFFFFFFFF || match ten c.cache 0 with
      | some t => decide (t.size ≤ 2 ^ 38)
      | none => false)

/-! ### Row 11: routes (R425, R423) -/

/-- A port's role fits its place and the torus (Table 10.3, R423). -/
def roleFits (r : Route) (q role : Nat) : Bool :=
  if 12 ≤ q % 16 then role == 0 || role == 7 || role == 8
  else
    let own := q % 16 / 2 + 1
    let dim := if own ≤ 2 then r.dx else if own ≤ 4 then r.dy else r.dz
    role == 0 || role == 8 || (role == own && decide (1 < dim))

/-- Link op (Table 10.5). WINDOW names a stream of the receivers' TIER_PLAN, of which a TIER_PLAN declares at most 64 (R339). -/
def linkOpOk (r : Route) (b : Bytes) : Bool :=
  let o := parseLinkOp b
  decide (1 ≤ o.kind ∧ o.kind ≤ 3) && o.vl == (if o.kind = 3 then 1 else 0) && decide (0 < o.length)
    && (o.kind == 1 || decide (o.group < r.groups.length)) && (o.kind == 2 || decide (o.dest < r.members.length))
    && (o.kind != 3 || (decide (o.fmt ≤ 1) && decide (o.length % 4 = 0))) && zeroAt b 0x1F 1
    && (o.window == 255 || (decide (o.window < 64)
      && (decide (o.expClass ≤ 3) || o.expClass == 255) && decide (o.expCore < 64)))

/-- Row 11. -/
def routeOk (h : Header) (g : Fing) (x : Sec) : Bool :=
  let b := x.data
  let r := parseRoute b
  let n := fieldAt b 0xC 2
  let ng := fieldAt b 0xE 2
  let no := fieldAt b 0x10 4
  let torus := (List.range r.dz).flatMap fun z => (List.range r.dy).flatMap fun y => (List.range r.dx).map fun x =>
    x + 256 * y + 65536 * z
  let twins := (List.range 32).any fun q => decide (12 ≤ q % 16) && r.roles.getD q 0 == 7
  decide (64 + 4 * n + 32 * ng + 32 * no ≤ x.size) && decide (ng ≤ 256 ∧ no ≤ 65536) && zeroAt b 3 1 && zeroAt b 0x34 12
    && decide (1 ≤ r.dx ∧ r.dx ≤ 16 ∧ 1 ≤ r.dy ∧ r.dy ≤ 16 ∧ 1 ≤ r.dz ∧ r.dz ≤ 16)
    && decide (r.dx * r.dy * r.dz = h.cascadeSize) && decide (n = h.cascadeSize)
    && torus.all (fun c => decide ((r.members.filter (· == c)).length = 1))
    && (if r.twin = 0xFFFFFFFF then !h.fullTwin && g.tensors.all fun t => !t.mirrored
      else r.members.contains r.twin && r.twin != h.target)
    && (List.range 32).all (fun q => roleFits r q (r.roles.getD q 0)) && twins == (r.twin != 0xFFFFFFFF)
    && (match g.forager with
      | some c => c.streams.all fun st => !st.intake || r.roles.getD st.port 0 == 8
      | none => true)
    && r.groups.all (fun m => decide (m < 2 ^ n)) && (linkRecords b).all (linkOpOk r)

/-- An image without ROUTE_TABLE has no intake stream and no mirrored tensor (R425). -/
def noRouteOk (g : Fing) : Bool :=
  g.tensors.all (fun t => !t.mirrored) && !g.hdr.fullTwin
    && match g.forager with
      | some c => c.streams.all fun st => !st.intake
      | none => true

/-! ### Row 12: host descriptors (R469, R463) -/

/-- Row 12. -/
def hostIoOk (g : Fing) (x : Sec) : Bool :=
  let b := x.data
  let n := fieldAt b 0 4
  let io := parseHostIo b
  decide (32 + 64 * n ≤ x.size) && decide (1 ≤ n ∧ n ≤ 65535) && decide (fieldAt b 4 1 < 2) && decide (fieldAt b 5 1 < 8)
    && zeroAt b 6 26 && (records b 32 64 n).all (fun r => decide (fieldAt r 2 1 < 8) && zeroAt r 0x36 10)
    && io.descs.all (fun d => decide (1 ≤ d.kind ∧ d.kind ≤ 3) && decide (d.port ≤ 3)
      && (d.vector == 255 || decide (64 ≤ d.vector ∧ d.vector ≤ 127)) && (d.kind == 3 || decide (0 < d.length))
      && decide (d.flagAddr % 8 = 0 ∧ d.recordAddr % 32 = 0 ∧ 1 ≤ d.nbuf)
      && (!d.flagOther || d.flag) && (d.kind != 3 || (d.flag && decide (d.port ≤ 1)))
      && (decide (d.length = 0) || g.tensors.any fun t => decide (t.taddr ≤ d.taddr ∧ d.taddr + d.length ≤ t.taddr + t.size)))
    && (g.own.slots ++ g.takeover.slots).all fun (y : UnitId × Nat × SlotDesc) =>
      y.1.cls != 4 || match io.descs[y.2.2.op]? with
        | some d => if y.1.idx < 12 then d.kind == 1 else d.kind != 1
        | none => false

/-! ### Step 10 and the whole -/

/-- A refusal: the code, the 0xB code beside it, INFO0 and INFO1. -/
structure Refused where
  code : Nat
  detail : Option Nat := none
  info0 : Option Nat := none
  info1 : Nat := 0
deriving DecidableEq, Repr

/-- Step 10 in the order of Table 2.27 (log 57). -/
def State.sectionsBad (s : State) (f : FSlot) (h : Header) (secs : List Sec) (g : Fing) : Option Refused :=
  let of (t : Nat) : List Sec := secs.filter fun x => x.typ == t
  let plan (x : Sec) : PlanSet := if x.takeover then g.takeover else g.own
  let m := s.withModes (imageModes g.own)
  match plansOk h g secs [] with
  | some c => some { code := c }
  | none =>
    if !((of 4).all progOk && noRepeat ((of 4).map (·.inst)) && engineSlotsOk g.own && engineSlotsOk g.takeover) then
      some { code := 0x200A }
    else if !(of 2).all (m.tensorsOk f h g) then some { code := 0x200C }
    else
      match (of 3).findSome? (stagesOk g) with
      | some (code, w, i, j) =>
        some { code := code, info0 := if code = 0x200D then some w else none,
               info1 := if code = 0x200D then i % 65536 + 65536 * (j % 65536) else 0 }
      | none =>
        if (of 6).all m.rdcOk && (of 10).all (numericOk g) && (of 7).all (fun x => updateOk h g (plan x) x)
            && (of 9).all (m.tierOk h g) && s.modesOk f (imageModes g.own) && (of 8).all (m.foragerOk h g)
            && (of 5).all (routeOk h g) && (!(of 5).isEmpty || noRouteOk g)
            && (of 11).all (hostIoOk g) then none
        else some { code := 0x200C }

/-- The ten checks (R111): the first failure, or the fingering (log 57). -/
def State.checkImage (s : State) (f : FSlot) : Except Refused Fing :=
  let base := (s.fld (match f with
    | .a => Reg.fingSlotABase
    | .b => Reg.fingSlotBBase) 27 0) * 4096
  let hb := s.view base 256
  let h := parseHeader hb
  if !headerOk hb then .error { code := 0x2001 }
  else if h.imageSize < 0x900 ∨ 0x20000000 < h.imageSize then .error { code := 0x2002 }
  else
    let img := s.view base h.imageSize
    match s.esz.verifyFing img h with
    | some c => .error { code := 0x2003, detail := some c }
    | none =>
      let secs := parseDir img h
      if !dirOk h secs then .error { code := 0x2004 }
      else if !secs.all (fun x => crc32c x.data == x.crc) then .error { code := 0x2005 }
      else if Nat.land h.reqCaps (s.reg (Reg.capCommon 0)).toNat ≠ h.reqCaps then .error { code := 0x2006 }
      else if !(fieldsLe present0Fields h.reqPresent0 (s.reg Reg.capPresent0).toNat
          && fieldsLe present1Fields h.reqPresent1 (s.reg Reg.capPresent1).toNat) then .error { code := 0x2007 }
      else if !(s.bit Reg.cascadeCoord 31) || !(decide (h.target = s.fld Reg.cascadeCoord 23 0))
          || !(decide (h.cascadeSize = 1 ∨ (4 ≤ h.cascadeSize ∧ h.cascadeSize ≤ 256))) then .error { code := 0x2008 }
      else if !beatOk h then .error { code := 0x2009 }
      else
        let g := parseFing img h secs
        match s.sectionsBad f h secs g with
        | some r => .error r
        | none => .ok g

end Sys2Proof.Machine
end

