-- ==== Sys2Proof/Machine/Fingering.lean ====
section
/-! DEFINITION. FING_CTL: LOAD and its verification, EVICT, START, STOP (R110 to R114, R322, R344, R405, R472, R574, R626). -/

namespace Sys2Proof.Machine

open Sys2Proof

/-- Unit code of a fingering slot (Table 13.5) (log 60). -/
def slotUnit (f : FSlot) : UnitCode := { typ := 16, idx := slotIdx f, sub := 0 }

/-- A refusal's log entry, with the security code behind it when there is one (R549) (log 60). -/
def State.logRefusal (s : State) (u : UnitCode) (r : Refused) : State :=
  if r.code = 0 then s
  else
    let s := s.logEntry { code := r.code, cls := 7, unit := u, info0 := r.info0, info1 := r.info1 }
    match r.detail with
    | some c => s.logEntry { code := c, cls := 7, unit := u }
    | none => s

/-- Outcome of a FING_CTL operation: LAST_CODE, a refusal's log entry and MSI-X vector 2 (R124, R549, Table 11.10). -/
def State.fingCode (s : State) (u : UnitCode) (r : Refused) : State :=
  ((s.setFld Reg.fingStatus 31 16 r.code).logRefusal u r).msixBoth 2

/-- A FING_CTL operation is in progress. -/
def State.fingBusy (s : State) : Bool := s.bit Reg.fingStatus 8

/-- Base address of a slot (Table 2.19). -/
def State.slotBaseAddr (s : State) (f : FSlot) : Nat :=
  (s.fld (match f with
    | .a => Reg.fingSlotABase
    | .b => Reg.fingSlotBBase) 27 0) * 4096

/-! ### LOAD and VERIFY_DONE -/

/-- Length of the protected range: IMAGE_SIZE rounded up to 4 KiB, at most 512 MiB (R110). -/
def protectedLen (imageSize : Nat) : Nat := min ((imageSize + 4095) / 4096 * 4096) 0x20000000

/-- LOAD (R110, R113) (log 102). -/
def applyLoad (f : FSlot) (s : State) : State :=
  if !s.writeOpen Reg.fingCtl then s
  else if s.fingBusy then s.fingCode (slotUnit f) { code := 0x2012 }
  else if (s.slot f).state = 3 then s.fingCode (slotUnit f) { code := 0x200E }
  else
    let s := s.leaveHold
    let base := s.slotBaseAddr f
    let n := protectedLen (fieldAt (s.view (base + 8) 4) 0 4)
    let x := s.slot f
    let kept := if x.lo < x.hi ∧ (x.lo, x.hi) ≠ (base, base + n) then x.kept ++ [(x.lo, x.hi)] else x.kept
    let s := s.setSlot f { state := 1, lo := base, hi := base + n, kept := kept, alone := s.noneLoaded, fing := none }
    (s.setSlotState f 1).setBit Reg.fingStatus 8 true

def execLoad (slot : FSlot) (s : State) : Host.Outcome State Fault Refusal := .next (applyLoad slot s)

/-- Contents of a group whose mode changes become undefined (R322) (log 5). -/
def State.undefineGroup (s : State) (q : Nat) : State :=
  let (st, s) := s.draw
  let piles := (List.range 16).foldl
    (fun m n => m.undefine (n * 2 ^ 36 + q * 2 ^ 30) (n * 2 ^ 36 + (q + 1) * 2 ^ 30) st) s.dram
  { s with dram := piles }

/-- Apply an image's group modes (R322). -/
def State.applyModes (s : State) (modes : Nat) : State :=
  let old := s.modes
  let s := (List.range 64).foldl (fun s q => if modeOf old q = modeOf modes q then s else s.undefineGroup q) s
  s.withModes modes

/-- The slot becomes REFUSED with a code; its write protection stays (R110, R111). -/
def State.refuseSlot (s : State) (f : FSlot) (r : Refused) : State :=
  let s := s.setSlot f { s.slot f with fing := none }
  (s.setSlotState f 4).fingCode (slotUnit f) r

/-- VERIFY_DONE (R111, R322): Eszoja verifies, so it takes its firmware (R566). -/
def applyVerifyDone (f : FSlot) (s : State) : State :=
  if (s.slot f).state ≠ 1 ∨ s.esz.fw.isNone then s
  else
    let first := (s.slot f).alone
    let s := s.setBit Reg.fingStatus 8 false
    match s.checkImage f with
    | .error r => s.refuseSlot f r
    | .ok g =>
      let s := if first then s.applyModes (imageModes g.own) else s
      ((s.setSlot f { s.slot f with fing := some g }).setSlotState f 2).fingCode (slotUnit f) { code := 0 }

def execVerifyDone (slot : FSlot) (s : State) : Host.Outcome State Fault Refusal := .next (applyVerifyDone slot s)

/-! ### EVICT -/

/-- No home record and no hold stands any more (R626). -/
def State.forgetHomes (s : State) : State :=
  let s := { s with tier := { s.tier with homes := [], holds := [], lastDigest := none } }
  (List.range 16).foldl (fun s n => s.showHolds n) s

/-- EVICT (R110, R113); with every slot EMPTY no home record stands any more (R626). -/
def applyEvict (f : FSlot) (s : State) : State :=
  if !s.writeOpen Reg.fingCtl then s
  else if s.fingBusy then s.fingCode (slotUnit f) { code := 0x2012 }
  else if (s.slot f).state = 3 then s.fingCode (slotUnit f) { code := 0x200E }
  else
    let s := (s.setSlot f .reset).setSlotState f 0
    let s := if (s.slot (otherSlot f)).state = 0 then s.forgetHomes else s
    s.fingCode (slotUnit f) { code := 0 }

def execEvict (slot : FSlot) (s : State) : Host.Outcome State Fault Refusal := .next (applyEvict slot s)

/-! ### START -/

/-- Bytes of super table entry `i`. -/
def State.superBytes (s : State) (i : Nat) : Bytes := s.view (s.pair Reg.superBaseLo / 4096 * 4096 % 2 ^ 48 + 32 * i) 32

/-- The super table in memory (Table 8.7) (log 56). -/
def State.superTable (s : State) : List Bytes := (List.range (s.fld Reg.superCtl 8 0)).map s.superBytes

/-- Super-table entry (log 56). -/
def parseSuper (b : Bytes) : SuperEntry :=
  { off := fieldAt b 0 8, length := fieldAt b 8 8, hostAddr := fieldAt b 0x10 8, port := fieldAt b 0x18 1 }

/-- The super-tier blocks of 2 MiB that a range touches are all covered by entries (log 56). -/
def superCovers (es : List SuperEntry) (a n : Nat) : Bool :=
  let off := a - 0x100000000000
  decide (a < 0x100000000000) || decide (n = 0)
    || (List.range ((off + n - 1) / 2097152 - off / 2097152 + 1)).all fun i =>
      let b := (off / 2097152 + i) * 2097152
      es.any fun e => decide (e.off ≤ b ∧ b + 2097152 ≤ e.off + e.length)

/-- R344: the table serves the fingering, both its plans (logs 41, 56). -/
def State.superOk (s : State) (g : Fing) : Bool :=
  let bs := s.superTable
  let es := bs.map parseSuper
  let moves : List MoverOp := ([g.own.tier, g.takeover.tier].filterMap id).flatMap fun t => t.ops.filter (·.kind == 1)
  decide (s.fld Reg.superCtl 8 0 ≤ 256) && bs.all (fun b => zeroAt b 0x19 7)
    && es.all (fun e => decide (e.off % 2097152 = 0 ∧ e.length % 2097152 = 0 ∧ 0 < e.length ∧ e.hostAddr % 4096 = 0
      ∧ e.port ≤ 3 ∧ e.off + e.length ≤ 0x100000000000))
    && disjoint (es.map fun e => (e.off, e.length))
    && g.tensors.all (fun t => t.holdGrad || superCovers es t.home t.size)
    && moves.all fun o => match g.tensors.find? (·.id == o.tensor) with
      | some t => superCovers es o.target t.size
      | none => true

/-- Address of a ring of the forager block. -/
def State.ringAddr (s : State) (lo : Nat) : Nat := s.pair lo % 2 ^ 48 / 64 * 64

/-- R405: the enabled rings lie in pile data and touch nothing else (log 41). -/
def State.ringsOk (s : State) (f : FSlot) (g : Fing) : Bool :=
  let entries := s.fld Reg.forgErrCtl 15 0
  let reqs := s.fld Reg.forgErrCtl 31 16
  let log := s.bit Reg.forgCtl 1
  let rings := (if log then [(s.ringAddr Reg.forgErrBaseLo, 64 * entries)] else [])
    ++ (if 0 < reqs then [(s.ringAddr Reg.forgReqBaseLo, 32 * reqs)] else [])
  let homes := (g.tensors.filter fun t => !t.holdGrad).map fun t =>
    (((s.tier.homes.find? (·.tensor == t.id)).map (·.home)).getD t.home, t.size)
  let lands := (g.tensors.filter fun t => t.landing != 0).map fun t => (t.landing, t.size)
  let taken := homes ++ lands ++ s.imageRanges f ++ tierRanges g.own ++ tierRanges g.takeover
  (!log || decide (0 < entries)) && rings.all fun r =>
    decide (r.1 + r.2 ≤ 2 ^ 40) && taken.all fun q => !overlap r q

/-- R472: the host ports and page biases that the fingering needs (log 41). -/
def State.hostOk (s : State) (g : Fing) : Bool :=
  let needs := match g.hostIo with
    | some io => (!io.needA || s.portUp .a) && (!io.needB || s.portUp .b) && (!io.needCxl || s.hdmCxl)
    | none => true
  let needCxl := (g.hostIo.map (·.needCxl)).getD false
  needs && (g.tensors.filter (·.hostBias)).all fun t =>
    let home := ((s.tier.homes.find? (·.tensor == t.id)).map (·.home)).getD t.home
    needCxl && decide (s.hdmBase ≤ home ∧ home + t.size ≤ s.hdmBase + s.hdmSize)
      && (decide (t.size = 0) || (List.range ((home + t.size - 1 - s.hdmBase) / 2097152 - (home - s.hdmBase) / 2097152 + 1)).all
        fun i => s.host.hostBias.contains ((home - s.hdmBase) / 2097152 + i))

/-- The homes with which a fingering starts, the holds of its HOLD_GRAD tensors among them (R626) (log 133). -/
def State.startHomes (s : State) (g : Fing) : State :=
  if s.tier.lastDigest = some g.hdr.homeDigest then
    { s with tier := { s.tier with
        homes := s.tier.homes.filter fun h => g.tensors.any fun t => t.id == h.tensor && decide (1 ≤ t.cls) } }
  else
    let s := s.forgetHomes
    { s with tier := { s.tier with lastDigest := some g.hdr.homeDigest } }

/-- Slots of a logical core in a plan. -/
def coreHasSlots (p : PlanSet) (l : Nat) : Bool :=
  (p.units ++ p.longs).any fun u =>
    ((u.cls == 1 && u.idx / 3 == l) || (u.cls == 2 && u.idx == l)) && u.positions.any fun x => !x.isEmpty

/-- Guests without a slot in the fingering are dropped (R555). -/
def State.dropGuests (s : State) (g : Fing) : State :=
  let s := (List.range 4).foldl (fun s d =>
    let l := s.fld (Reg.coreSpare d) 15 9
    if s.bit (Reg.coreSpare d) 16 && !(coreHasSlots g.own l) then
      let hp := s.physOf l
      let s := (s.setReg (Reg.coreMap l) 0x7F).setFld (Reg.coreState hp) 19 13 0x7F
      let s := (s.setFld (Reg.coreSpare d) 15 9 0x7F).setBit (Reg.coreSpare d) 16 false
      (List.range 3).foldl (fun s a => s.unmerge (arrayUnit l a)) (s.unmerge (vectorUnit l))
    else s) s
  s.showGuests

/-- Roles and coordinates of a fingering that starts (R425, Tables 2.14, 10.19, 10.21). -/
def State.showCascade (s : State) (g : Fing) : State :=
  match g.own.route with
  | none => s
  | some r =>
    let me := g.hdr.target
    let solo := decide (g.hdr.cascadeSize ≤ 1)
    -- the beat master's twin is the backup master (R425); a fingering names its own device's twin only (log 13)
    let backup : Option Nat :=
      if solo then none
      else if me = r.master then (if r.twin = 0xFFFFFFFF then none else some r.twin)
      else if r.twin = r.master then some me else some (Config.twinOf g.hdr.cascadeId r.master)
    -- a spare that adopts the coordinate of the lost master becomes the backup of the former backup (R451)
    let swapped := s.bit Reg.cascadeCoord 30 && decide (me = r.master) && backup.isSome
    let master := if swapped then backup.getD me else r.master
    let backup := if swapped then some me else backup
    let role := if me = master then 2 else if backup = some me then 3 else 1
    let idx := (r.members.findIdx? (· == me)).getD 0
    let s := (s.setFld Reg.beatCtl 1 0 role).showRoles (some r.roles)
    let s := s.setReg Reg.cascadeInfo
      (BitVec.ofNat 32 (r.dx + 32 * r.dy + 1024 * r.dz + 32768 * g.hdr.cascadeSize + 16777216 * idx))
    let s := s.setReg Reg.masterCoord
      (BitVec.ofNat 32 (coord12 (unpackCoord master) + (match backup with
        | some b => 4096 * coord12 (unpackCoord b)
        | none => 0) + (if solo then 16777216 else 0) + (if swapped then 33554432 else 0)))
    { s with casc := { s.casc with master := some (unpackCoord master), backup := backup.map unpackCoord } }

/-- Bits [31:0] of STEP and SKIPPED in the current copy of the step record (Tables 6.3, 6.15). -/
def State.showStep (s : State) : State :=
  match s.plan with
  | some { update := some u, .. } =>
    match s.tensor u.stepRec with
    | none => s
    | some t =>
      let sel := fieldAt (s.view t.taddr 4) 0 4 % 2
      let c := s.view (t.taddr + 0x20 + 0x20 * sel) 16
      (List.range 16).foldl (fun s n =>
        (s.setReg (Reg.updStep n) (wordAt c 0)).setReg (Reg.updSkipped n) (wordAt c 8)) s
  | _ => s

/-- What the plan of a fingering brings with it, at START and at a SWITCH. -/
def State.adoptPlan (s : State) (g : Fing) : State :=
  let s := s.setFld Reg.beatPeriod 23 0 g.hdr.period
  let s := s.setFld Reg.beatCtl 31 16 g.hdr.verdictDelay
  let s := s.setBit Reg.xportFence 0 (match g.hostIo with
    | some io => !io.fenceOff
    | none => true)
  let regions := (g.rdc.map (·.regions.length)).getD 0
  let s := (s.setFld (Reg.rdcCtl 0) 11 3 (regions % 256 + 256 * (regions / 256))).setFld (Reg.rdcCtl 1) 11 3
    (regions % 256 + 256 * (regions / 256))
  -- the decoded-sample cache is empty (R388)
  let s := { s with forager := { s.forager with cache := [] } }
  let s := { s with beat := { s.beat with cycle := 0, nextPos := 0 } }
  (s.showCascade g).showEngines

/-- The state of a run that begins (R114, R376, R405, R470, R628). -/
def State.clearRun (s : State) : State :=
  let s := (s.setReg Reg.forgErrHead 0).setReg Reg.forgReqHead 0
  let s := (s.setReg Reg.slowRecord 0).setBit Reg.forgStatus 2 false
  let s := s.setFld Reg.lostCoord 14 0 0
  let s := s.setFld Reg.syncStatus 20 16 0
  { s with
    watch := []
    beat := { s.beat with committed := 0, win := none, prev := [], due := [], markers := [], waiting := true,
                          stopNow := false, switchTo := none, stopAt := none, switchedFrom := none, argsNew := none,
                          onceBeat := [], onceStep := [], onceCycle := [] }
    casc := { CascSt.reset with retired := false }
    upd := .reset
    tier := { s.tier with waits := [], moves := [], wins := [] }
    forager := { s.forager with
      expect := [], cycles := 0, refetch := [], manifests := [], queue := [], suspended := [], staged := [], long := [] }
    host := { s.host with runNo := [], runs := [] } }

/-- The device's own JOIN (R437, R450). -/
def State.joinMsg (s : State) : CtlMsg :=
  { kind := 4, flags := if s.bit Reg.cascadeCoord 30 then 1 else 0, stretch := 0, value := 0, coord := s.self,
    beat := s.pair Reg.beatCountLo, offset := 0, margin := 0, planPos := 0,
    issuer := s.fld Reg.cascadeInfo 31 24, lost := none }

/-- After START a cascade member sends JOIN to the master and the backup, as soon as a port can carry it; each of the two holds its own
(R437, R439, R442) (log 134). -/
def State.sendJoin (s : State) (g : Fing) : State :=
  if g.hdr.cascadeSize ≤ 1 then s
  else
    let to_ := (s.casc.master.toList ++ s.casc.backup.toList).eraseDups
    { s with casc := { s.casc with
        joins := if to_.contains s.self then [s.self] else []
        joinDue := to_.filter fun c => !(c == s.self) } }

/-- A frame for a coordinate has a way to go. -/
def State.reachable (s : State) (c : Coord) : Bool :=
  match s.route with
  | some r => (s.egress r (s.aliasOf r c).1).isSome
  | none => false

/-- The JOINs that are due go out where they have a way to go (log 134). -/
def State.sendJoins (s : State) : State :=
  let ds := s.casc.joinDue
  let s := { s with casc := { s.casc with joinDue := ds.filter fun c => !(s.reachable c) } }
  (ds.filter s.reachable).foldl (fun s c => s.controlTo c s.joinMsg) s

/-- Refusal of START for a LOADED slot: the code, and whether the slot becomes REFUSED (log 41). -/
def State.startRefusal (s : State) (f : FSlot) (g : Fing) : Option (Refused × Bool) :=
  if !s.esz.entryUsable (128 + g.key) then some ({ code := 0x2003, detail := some 0xB012 }, true)
  else if !s.esz.recheck g then some ({ code := 0x2003, detail := some 0xB016 }, true)
  else if !s.superOk g then some ({ code := 0x6020 }, false)
  else if !s.ringsOk f g then some ({ code := 0x7020 }, false)
  else if !s.hostOk g then some ({ code := 0x9010 }, false)
  else none

/-- Begin the run of a slot. -/
def State.begin (s : State) (f : FSlot) (g : Fing) : State :=
  let s := { s.clearRun with tier := { s.clearRun.tier with super := s.superTable.map parseSuper } }
  let s := ((s.setSlotState f 3).setFld Reg.fingStatus 6 6 (slotIdx f)).setBit Reg.superCtl 9 true
  ((((s.adoptPlan g).trainAll).dropGuests g).showStep).sendJoin g

/-- START (R113, R114, R344, R405, R472, R574) (log 41). -/
def applyStart (f : FSlot) (t : Nat) (s : State) : State :=
  if !s.writeOpen Reg.fingCtl then s
  else
    let s := s.at t
    if s.fingBusy || s.runSlot.isSome || decide ((s.slot f).state ≠ 2) || decide (s.devState = 7) then
      s.fingCode (slotUnit f) { code := 0x2012 }
    else
      match (s.slot f).fing with
      | none => s.fingCode (slotUnit f) { code := 0x2012 }
      | some g =>
        let s := s.leaveHold
        let h := s.startHomes g
        match h.startRefusal f g with
        | some (r, true) => s.refuseSlot f r
        | some (r, false) => s.fingCode (slotUnit f) r
        | none => ((h.fingCode (slotUnit f) { code := 0 }).begin f g)

def execStart (slot : FSlot) (t : Nat) (s : State) : Host.Outcome State Fault Refusal := .next (applyStart slot t s)

/-! ### STOP -/

/-- STOP: taken at the next verdict applied (R114). -/
def applyStop (s : State) : State :=
  if !s.writeOpen Reg.fingCtl then s
  else if s.fingBusy || s.runSlot.isNone then s.fingCode { typ := 0, idx := 0, sub := 0 } { code := 0x2012 }
  else
    let s := s.fingCode { typ := 0, idx := 0, sub := 0 } { code := 0 }
    { s with beat := { s.beat with stopNow := true } }

def execStop (s : State) : Host.Outcome State Fault Refusal := .next (applyStop s)

end Sys2Proof.Machine
end

