-- ==== Sys2Proof/Machine/Plan.lean ====
section
/-! DEFINITION. What the plan says of a window: its effective period, the slots of each unit with the lists it has
merged, the next known event of a unit and the power state that follows from it (R72, R73, R77, R101, R501 to R507). -/

namespace Sys2Proof.Machine

open Sys2Proof

/-! ### Windows -/

/-- Effective period of a window in ns (R73, R101): rounded down to whole ns before a long beat doubles it (log 122). -/
def effPeriod (h : Header) (stretch pos : Nat) : Nat :=
  h.period * (16 + stretch) / 16 * (if isLong h pos then 2 else 1)

/-- Start of the commit gap of a window (R72). -/
def Win.gapStart (w : Win) : Nat := w.start + w.period - 2000

/-- Instant at which a window's verdict is due: VERDICT_DELAY after the marker that follows it (R85) (log 63). -/
def State.verdictAt (s : State) (w : Win) : Nat := w.start + w.period + s.fld Reg.beatCtl 31 16

/-- The window, running or ended, with this BEAT_COUNT. -/
def State.window (s : State) (beat : Nat) : Option Win :=
  match s.beat.win with
  | some w => if w.beat = beat then some w else s.beat.prev.find? (·.beat == beat)
  | none => s.beat.prev.find? (·.beat == beat)

/-- Change one window, running or ended. -/
def State.setWindow (s : State) (beat : Nat) (f : Win → Win) : State :=
  { s with beat := { s.beat with
      win := s.beat.win.map fun w => if w.beat = beat then f w else w
      prev := s.beat.prev.map fun w => if w.beat = beat then f w else w } }

/-- Every verdict before the running window has been applied (R91). -/
def State.released (s : State) : Bool := s.beat.prev.isEmpty

/-! ### Slots -/

/-- The slots that the running plan lists for a unit at a position (R102, R106). -/
def State.ownSlots (s : State) (u : UnitId) (pos : Nat) : List SlotDesc :=
  match s.plan, s.fing with
  | some p, some g =>
    match (if isLong g.hdr pos then p.longs else p.units).find? fun x => x.cls == u.cls && x.idx == u.idx with
    | some x => x.positions.getD pos []
    | none => []
  | _, _ => []

/-- The units whose lists a unit runs: its own and those that it has merged, its own first (R185, R338, R375, R443,
R467) (log 115). -/
def State.owners (s : State) (u : UnitId) : List UnitId :=
  (if s.executor u = u then [u] else [])
    ++ ((s.test.merges.map fun (m : UnitId × UnitId) => m.1).filter fun x => s.executor x == u)

/-- The slot of an owner's list that starts next in the window. -/
def State.pendingSlot (s : State) (pos : Nat) (o : UnitId) : Option (UnitId × Nat × SlotDesc) :=
  ((s.ownSlots o pos)[(s.unit o).next]?).map fun d => (o, (s.unit o).next, d)

/-- The earlier of two slots by START_NS, the first on a tie. -/
def earlier : Option (UnitId × Nat × SlotDesc) → Option (UnitId × Nat × SlotDesc) → Option (UnitId × Nat × SlotDesc)
  | none, b => b
  | some a, none => some a
  | some a, some b => if b.2.2.start < a.2.2.start then some b else some a

/-- The slot that a unit starts next in the running window: of all the lists that it runs, in order of START_NS, its
own first on a tie (log 115). -/
def State.nextSlot (s : State) (u : UnitId) : Option (UnitId × Nat × SlotDesc) :=
  match s.beat.win with
  | none => none
  | some w => (s.owners u).foldl (fun a o => earlier a (s.pendingSlot w.pos o)) none

/-- START_NS of a unit's first slot at a position. -/
def State.firstStart (s : State) (u : UnitId) (pos : Nat) : Option Nat :=
  (s.owners u).foldl (fun a o =>
    match a, (s.ownSlots o pos).head? with
    | none, some d => some d.start
    | some x, some d => some (min x d.start)
    | a, none => a) none

/-- The smaller of two instants that may be absent. -/
def minOpt : Option Nat → Option Nat → Option Nat
  | none, b => b
  | some a, none => some a
  | some a, some b => some (min a b)

/-- The next known event of a unit (R504) (log 108). -/
def State.nextEvent (s : State) (u : UnitId) : Option Nat :=
  match s.beat.win, s.fing with
  | some w, some g =>
    let slot := if w.inGap then none else (s.nextSlot u).map fun x => w.start + x.2.2.start
    let following := minOpt (s.firstStart u w.pos) (s.firstStart u ((w.pos + 1) % g.hdr.planLen))
    let marker := w.start + w.period + following.getD (g.hdr.period - 2000)
    let verdict : Option Nat :=
      if u.cls = 4 then
        match s.host.runs.find? fun r => r.engine == u.idx && r.complete with
        | some r => (s.window r.beat).map s.verdictAt
        | none => none
      else none
    minOpt slot (minOpt (some marker) verdict)
  | _, _ => none

/-! ### Power states -/

/-- Wake time and break-even of the deeper states in ns: 3 OFF, 2 DROWSE (Table 12.2). -/
def wakeNs (p : Nat) : Nat := if p = 3 then 40000 else if p = 2 then 2000 else 0

/-- Clock of a unit class in units of 100 MHz (Table 12.6). -/
def unitClock (cls : Nat) : Nat := if cls = 1 ∨ cls = 2 then 21 else if cls = 7 then 12 else 16

/-- The state that a unit of a class takes for an idle time (R503): `deep` is its deepest allowed state now. -/
def powerFor (cls deep : Nat) (fast : Bool) (idle : Nat) : Nat :=
  let gate := if fast && (cls == 1 || cls == 2) then 30 else 32
  if deep = 3 ∧ 100000 ≤ idle then 3
  else if 2 ≤ deep ∧ 8000 ≤ idle then 2
  else if 1 ≤ deep ∧ 10 * gate ≤ idle * unitClock cls then 1
  else 0

/-- Deepest state that a unit allows now: a copy engine whose run waits for its verdict goes no deeper than DROWSE
(Table 12.1). -/
def State.deepestNow (s : State) (u : UnitId) : Nat :=
  if u.cls = 4 && s.host.runs.any (fun r => r.engine == u.idx) then 2 else deepest u.cls

/-- A unit that has ended a slot or an access chooses its power state (R503); with RUN 0 it rests in its deepest
allowed state (R507), and a fenced unit stays OFF (log 108). -/
def State.choosePower (s : State) (u : UnitId) (t : Nat) : State :=
  if (s.unit u).fenced then s
  else if !s.running then s.setPower u (s.deepestNow u)
  else
    match s.nextEvent u with
    | none => s.setPower u 0
    | some e => s.setPower u (powerFor u.cls (s.deepestNow u) (s.bit (Reg.capCommon 0) 12) (e - t))

end Sys2Proof.Machine
end

