-- ==== Sys2Proof/Machine/Damage.lean ====
section
/-! DEFINITION. Damage records of the forager (R405, Table 9.9). -/

namespace Sys2Proof.Machine

open Sys2Proof

/-- What a damage record says (Table 9.9); FLAGS without bit 3, which the stream gives. -/
structure Damage where
  code : Nat
  stream : Nat
  flags : Nat
  sampleId : Nat
  srcSeq : Nat
  byteOff : Nat := 0xFFFFFFFFFFFFFFFF
  mcu : Nat := 0xFFFFFFFF
  count : Nat := 0
  total : Nat := 0
  declW : Nat := 0
  declH : Nat := 0
  length : Nat := 0
deriving DecidableEq, Repr

/-- FORAGER_CONFIG of the running fingering. -/
def State.forCfg (s : State) : Option ForCfg :=
  match s.fing with
  | some g => g.forager
  | none => none

/-- A stream of FORAGER_CONFIG. -/
def State.stream (s : State) (i : Nat) : Option FStream :=
  match s.forCfg with
  | some c => c.streams[i]?
  | none => none

/-- The lost partner's MANIFEST during a takeover, a mirror tensor (R402): the first whose size is that of a MANIFEST (log 32). -/
def State.partnerManifest (s : State) : Option Tensor :=
  match s.fing with
  | some g =>
    if s.casc.takeover && ((g.forager.map fun c => c.streams.any (·.partner)).getD false) then
      g.tensors.find? fun t => t.cls == 5 && decide (64 + 2 * 131136 ≤ t.size) && (t.size - 64) % 131136 == 0
    else none
  | none => none

/-- Bytes of a damage record (log 67). -/
def Damage.bytes (d : Damage) (number beat : Nat) (partner : Bool) : Bytes :=
  leBytes 4 number ++ leBytes 2 d.code ++ leBytes 1 d.stream ++ leBytes 1 (d.flags + if partner then 8 else 0)
    ++ leBytes 8 d.sampleId ++ leBytes 8 d.srcSeq ++ leBytes 8 d.byteOff ++ leBytes 4 d.mcu ++ leBytes 4 d.count
    ++ leBytes 4 d.total ++ leBytes 2 d.declW ++ leBytes 2 d.declH ++ leBytes 4 d.length ++ leBytes 4 beat
    ++ zeroBytes 8

/-- Write a damage record into the ring while LOG_EN is 1 (R405). The ring wraps when a record goes to index 0 again (log 67). -/
def State.damage (s : State) (d : Damage) : State :=
  let n := s.fld Reg.forgErrCtl 15 0
  if !s.bit Reg.forgCtl 1 ∨ n = 0 then s
  else
    let head := (s.reg Reg.forgErrHead).toNat
    let st := s.stream d.stream
    let partner := (st.map (·.partner)).getD false
    let f := (st.map (·.forager)).getD 0
    let s := s.store (.forager f 8) (s.ringAddr Reg.forgErrBaseLo + 64 * (head % n))
      (d.bytes head (s.pair Reg.beatCountLo % 2 ^ 32) partner)
    let s := s.setReg Reg.forgErrHead (BitVec.ofNat 32 (head + 1))
    if 0 < head ∧ head % n = 0 then
      ((s.setBit Reg.forgStatus 3 true).forgCode 0x7084).raiseCycle 0x7084
        { code := 0x7084, cls := 0, unit := { typ := 0, idx := 0, sub := 0 } }
    else s

/-- Damage record 0x701C of a staged sample that a SWITCH discards (R401) (log 76). -/
def Staged9.discardRecord (x : Staged9) : Damage :=
  { code := 0x701C, stream := x.stream, flags := 0, sampleId := x.sampleId, srcSeq := x.srcSeq, total := x.total,
    declW := x.declW, declH := x.declH, length := x.length }

end Sys2Proof.Machine
end

