-- ==== Sys2Proof/Machine/Verdict.lean ====
section
/-! DEFINITION. What a verdict does to each part of the device: the actions of Table 2.2 at COMMIT and COMMIT_SKIP, and
the discarding of R94 at REPLAY, one pair of operations for each subsystem. -/

namespace Sys2Proof.Machine

open Sys2Proof

/-! ### WGA (R169, R170) -/

/-- Bring WGA_CTL and WGA_STATUS of every core up to date. -/
def State.showAllWga (s : State) : State :=
  let ls := (s.cores.wga.map (·.core)).eraseDups
  ls.foldl (fun s l => s.showWga l) s

/-- Bank flip of every touched tile. SRAM_OK becomes 1 unless the core runs comb-only or its logical number passed to
another physical core at the entry to the window's gap. The new committed bank has shown no error (R173). -/
def State.commitWga (s : State) (beat : Nat) : State :=
  let moved (l : Nat) : Bool := s.cores.subst.any fun (x : Nat × Nat) => x.1 == l && decide (beat ≤ x.2)
  let flip (w : WgaTile) : WgaTile :=
    if w.touch then
      { w with ptr := !w.ptr, touch := false, sramOk := !(s.combOnly w.core) && !(moved w.core), combBad := false }
    else w
  ({ s with cores := { s.cores with wga := s.cores.wga.map flip
                                    subst := s.cores.subst.filter fun (x : Nat × Nat) => decide (beat < x.2) } }).showAllWga

/-- REPLAY: every TOUCH bit clears and PTR stays. -/
def State.replayWga (s : State) : State :=
  ({ s with cores := { s.cores with wga := s.cores.wga.map fun (w : WgaTile) => { w with touch := false } } }).showAllWga

/-! ### Gradient scan, step record, rates (R254, R256, R257, R314) -/

/-- UPD_STATUS VOTE_NF and SKIP and GRAD_NF of every engine (Tables 6.14, 6.20). -/
def State.showScan (s : State) : State :=
  (List.range 16).foldl (fun s n =>
    let k := (getKey s.upd.scan n).getD 0
    ((s.setBit (Reg.updStatus n) 4 (decide (0 < k))).setBit (Reg.updStatus n) 2 s.upd.skip).setReg (Reg.gradNf n)
      (BitVec.ofNat 32 (min k 0xFFFFFFFF))) s

/-- The scan deltas of a committed window join the committed counts, which clear at the verdict of STEP_POS. -/
def State.commitScan (s : State) (beat pos : Nat) : State :=
  let add (m : Store Nat) (x : Nat × Nat × Nat) : Store Nat :=
    if x.2.1 = beat then putKey m x.1 ((getKey m x.1).getD 0 + x.2.2) else m
  let scan := s.upd.scanDelta.foldl add s.upd.scan
  let ends := decide ((s.updCfg.map (·.stepPos)) = some pos)
  ({ s with upd := { s.upd with
      scan := if ends then [] else scan
      scanDelta := s.upd.scanDelta.filter fun (x : Nat × Nat × Nat) => !(x.2.1 == beat) } }).showScan

/-- COMMIT_SKIP of the VOTE_POS beat: the step is skipped (R256). -/
def State.markSkip (s : State) (kind pos : Nat) : State :=
  if kind = 1 ∧ (s.updCfg.map (·.votePos)) = some pos then
    (({ s with upd := { s.upd with skip := true } }).showScan).raise { code := 0x5009, cls := 0 }
  else s

/-- The STEP_POS verdict: SEL is inverted, the step's own marks go, and the new T shows (R257). -/
def State.commitStep (s : State) (pos : Nat) : State :=
  match s.updCfg with
  | none => s
  | some u =>
    if u.stepPos ≠ pos then s
    else
      let s := match s.upd.stepNew, s.tensor u.stepRec with
        | some _, some t =>
          let sel := fieldAt (s.view t.taddr 4) 0 4 % 2
          s.store .hub t.taddr (leBytes 4 (1 - sel))
        | _, _ => s
      let s := { s with upd := { s.upd with skip := false, stepNew := none, tiles := [], touched := [], restored := [] }
                        beat := { s.beat with onceStep := [] } }
      (s.showStep).showScan

/-- The rate table of a committed window becomes visible (R314). -/
def State.commitRates (s : State) (beat : Nat) : State :=
  match s.upd.ratesNew with
  | some r => if r.1 = beat then { s with upd := { s.upd with rates := r.2, ratesNew := none } } else s
  | none => s

/-- REPLAY: scan deltas, the rate table and the step-record copy of the discarded windows go. -/
def State.replayUpd (s : State) : State :=
  { s with upd := { s.upd with scanDelta := [], ratesNew := none, stepNew := none, staged := [] } }

/-! ### Update-engine self-tests (R560) -/

/-- One engine's due self-test at a STEP_POS verdict. -/
def State.engineTest (s : State) (n : Nat) : State :=
  if !s.pilePresent n || s.isFenced { cls := 7, idx := n } || s.test.updTest.contains n then s
  else
    let far : Bool := match s.nextEvent { cls := 7, idx := n } with
      | some e => decide (s.now + 40000 ≤ e)
      | none => true
    if far then
      let s := { s with test := { s.test with updTest := s.test.updTest ++ [n]
                                              updWait := s.test.updWait.filter fun x => !(x == n) } }
      ((s.setBit (Reg.updCtl n) 2 true).setBit Reg.testStatus 27 true).emit (.selfTest { cls := 7, idx := n } n)
    else
      ({ s with test := { s.test with updWait := if s.test.updWait.contains n then s.test.updWait
                                                 else s.test.updWait ++ [n] } }).setBit Reg.testStatus 28 true

/-- Self-tests at the STEP_POS verdict: of every engine when the new T is a multiple of UPD_EVERY, else of those that
wait. -/
def State.engineTests (s : State) (pos : Nat) : State :=
  if (s.updCfg.map (·.stepPos)) ≠ some pos ∨ s.test.testCtl.getLsbD 1 = false then s
  else
    let every := max 1 (bits s.test.testCtl 23 16)
    let due (n : Nat) : Bool := decide (s.stepT % every = 0) || s.test.updWait.contains n
    (List.range 16).foldl (fun s n => if due n then s.engineTest n else s) s

/-! ### Moves, homing and holds (R332 to R334, R349, R352) -/

/-- Give a tensor a home. -/
def State.setHome (s : State) (tensor home : Nat) : State :=
  { s with tier := { s.tier with
      homes := (s.tier.homes.filter fun h => !(h.tensor == tensor)) ++ [{ tensor := tensor, home := home }] } }

/-- Drop the remote-cache lines of a range. -/
def State.dropRdcRange (s : State) (a n : Nat) : State :=
  { s with tier := { s.tier with
      rdc := s.tier.rdc.filter fun x => !(overlap (x.line * 256, 256) (a, n)) } }

/-- Make a device range undefined, byte by byte (log 5). -/
def State.undefineRange (s : State) (a n : Nat) : State :=
  let d := s.draw
  (List.range n).foldl (fun s i => match s.locate (a + i) with
    | some l => s.unknow l d.1
    | none => s) d.2

/-- Window-buffer copies expire: their buffers become undefined (R341). -/
def State.expireCopies (s : State) (ends : WinCopy → Bool) : State :=
  let out := s.tier.wins.filter ends
  let s := { s with tier := { s.tier with wins := s.tier.wins.filter fun c => !(ends c) } }
  out.foldl (fun (s : State) (c : WinCopy) => match s.tierCfg.bind fun t => t.streams[c.stream]? with
    | some w => s.undefineRange (w.bufBase + c.buffer * w.bufSize) w.bufSize
    | none => s) s

/-- Two records are of one move: a homing and a planned move of its tensor are two (R334, R352). -/
def MoveSt.same (x m : MoveSt) : Bool := x.tensor == m.tensor && x.homing == m.homing

/-- One move at a COMMIT: its progress in the window stands; a complete move transfers the home, or ends STALE. -/
def State.commitMove (s : State) (beat : Nat) (m : MoveSt) : State :=
  if m.homing then
    if m.complete then { s with tier := { s.tier with moves := s.tier.moves.filter fun x => !(x.same m) } }
    else s
  else
    let past := m.hist.filter fun (h : Nat × Nat) => decide (h.1 ≤ beat)
    let marked := past.foldl (fun _ (h : Nat × Nat) => h.2) m.marked
    let s := { s with tier := { s.tier with moves := s.tier.moves.map fun x =>
      if (x.same m) then { x with marked := marked, hist := m.hist.filter fun (h : Nat × Nat) => decide (beat < h.1) }
      else x } }
    if marked < m.length then s
    else
      let source : Option Nat := match s.tensor m.tensor with
        | some t => s.homeOf t
        | none => none
      let s := { s with tier := { s.tier with moves := s.tier.moves.filter fun x => !(x.same m) } }
      if m.stale then (s.bumpSat Reg.moveStatus 27 12 1).raise { code := 0x6010, cls := 0 }
      else (s.setHome m.tensor m.target).dropRdcRange (source.getD 0) m.length

/-- Moves and homings at a COMMIT. -/
def State.commitMoves (s : State) (beat : Nat) : State :=
  (s.tier.moves.foldl (fun s m => s.commitMove beat m) s).showMoves

/-- One move at a REPLAY (R333, R352); `beat` is the first discarded window (log 69). -/
def State.replayMove (s : State) (beat : Nat) (m : MoveSt) : State :=
  let drop (s : State) : State :=
    { s with tier := { s.tier with moves := s.tier.moves.filter fun x => !(x.same m) }
             host := { s.host with asks := s.host.asks.filter fun (x : Nat × HPort) => !(m.homing && x.1 == homingKey m.tensor) } }
  let put (s : State) (y : MoveSt) : State :=
    { s with tier := { s.tier with moves := s.tier.moves.map fun x => if x.same m then y else x } }
  if m.homing then
    let s := if m.complete then (s.setHome m.tensor m.source).undefineRange m.target m.length else s
    if beat ≤ m.begun then drop s
    else put s { m with progress := 0, complete := false }
  else
    let s := if m.marked < m.progress then s.undefineRange (m.target + m.marked) (m.progress - m.marked) else s
    if m.marked = 0 then drop s else put s { m with progress := m.marked, hist := [] }

/-- Moves and homings at a REPLAY; the homings that stay begin again (log 69). -/
def State.replayMoves (s : State) (beat : Nat) : State :=
  ((s.tier.moves.foldl (fun s m => s.replayMove beat m) s).showMoves).askHomings

/-- HOLD_STATUS of every pile. -/
def State.showAllHolds (s : State) : State := (List.range 16).foldl (fun s n => s.showHolds n) s

/-- Holds at a COMMIT: those of the window are committed; STEP_POS frees every hold of the step. -/
def State.commitHolds (s : State) (beat pos : Nat) : State :=
  let ends := decide ((s.updCfg.map (·.stepPos)) = some pos)
  let holds := if ends then s.tier.holds.filter fun h => decide (beat < h.beat)
    else s.tier.holds.map fun h => if h.beat ≤ beat then { h with committed := true } else h
  ({ s with tier := { s.tier with holds := holds } }).showAllHolds

/-- REPLAY frees the holds of the discarded windows, and the writes that waited go with their slots. -/
def State.replayHolds (s : State) (beat : Nat) : State :=
  (State.dropWaits { s with tier := { s.tier with holds := s.tier.holds.filter fun h => h.committed || decide (h.beat < beat) } }).showAllHolds

/-! ### Foragers (R395, R399) -/

/-- Manifests at a COMMIT: those of the window that ran their ops are committed and, by RETAIN, their samples released; CYCLE advances
at position PLAN_LEN − 1. -/
def State.commitManifests (s : State) (beat pos last : Nat) : State :=
  match s.forCfg with
  | none => s
  | some c =>
    let ms := s.forager.manifests.map fun m => if m.beat = beat then { m with committed := true } else m
    let stepEnd := decide (pos = (s.updCfg.map (·.stepPos)).getD last)
    let keep (m : Manifest) : Bool := !m.committed || (c.retainStep && !stepEnd)
    let s := { s with forager := { s.forager with manifests := ms.filter keep } }
    if pos = last then
      ([s.tensor c.manifest, s.partnerManifest].filterMap id).foldl (fun (s : State) (t : Tensor) =>
        s.store (.forager 0 8) t.taddr (leBytes 8 (fieldAt (s.view t.taddr 8) 0 8 + 1))) s
    else s

/-! ### Copy runs (R470, R473 to R478, R482) -/

/-- CE_STATUS STATE of a copy engine (Table 11.22). -/
def State.showCe (s : State) (e : Nat) : State :=
  let rs := s.host.runs.filter (·.engine == e)
  let st := if s.isFenced { cls := 4, idx := e } then 3
    else if rs.any (fun r => !r.complete) then 1 else if rs.isEmpty then 0 else 2
  s.setFld (Reg.ceStatus e) 1 0 st

/-- Send a host write through a port that is up; a write to a port that is down is lost. -/
def State.hostSend (s : State) (p : HPort) (o : Out) : State := if s.portUp p then s.emit o else s

/-- The completion record of a run (Table 11.5) (log 68). -/
def recordBytes (r : CopyRun) (len cycle : Nat) : Bytes :=
  leBytes 8 r.run ++ leBytes 8 r.beat ++ leBytes 4 cycle ++ leBytes 4 len ++ leBytes 2 r.desc
    ++ leBytes 1 (portIdx r.port) ++ zeroBytes 5

/-- Send what stands behind a flushing read, or at once where no fence is needed: the flag and the vector (log 68). -/
def State.sendFlag (s : State) (p : HPort) (d : CopyDesc) (run : Nat) : State :=
  let s := if d.flag then s.hostSend p (.hostWrite p d.flagAddr (leBytes 8 (d.flagBase + run))) else s
  if d.vector = 0xFF then s else s.msix p d.vector

/-- Record, flag and vector of a committed run in the order of Table 11.6 (log 68). -/
def State.commitRun (s : State) (r : CopyRun) : State :=
  match s.fing with
  | some { hostIo := some io, .. } =>
    match io.descs[r.desc]? with
    | none => s
    | some d =>
      let s := { s with host := { s.host with
        runNo := putKey s.host.runNo r.desc ((getKey s.host.runNo r.desc).getD 0 + 1) } }
      let len := if d.kind = 3 then 0 else d.length
      let s := if d.hasRecord then
          s.hostSend r.port (.hostWrite r.port d.recordAddr (recordBytes r len s.beat.cycle))
        else s
      let fp := if d.flagOther then otherPort r.port else r.port
      if d.flagOther && d.kind == 2 && s.bit Reg.xportFence 0 then
        let last := d.hostAddr + (r.run % max 1 d.nbuf) * d.stride + d.length - 4
        let f : Flushing := { id := s.host.nextId, port := fp, run := r.run, desc := d }
        ({ s with host := { s.host with flushing := s.host.flushing ++ [f], nextId := s.host.nextId + 1 } }).hostSend
          r.port (.hostRead r.port last 4 none)
      else s.sendFlag fp d r.run
  | _ => s

/-- Copy runs at a COMMIT: complete runs of the window are made visible; run n counts up (R470). -/
def State.commitRuns (s : State) (beat : Nat) : State :=
  let mine := s.host.runs.filter fun r => decide (r.beat ≤ beat)
  let s := { s with host := { s.host with runs := s.host.runs.filter fun r => decide (beat < r.beat) } }
  let s := mine.foldl (fun s r => if r.complete then s.commitRun r else s) s
  mine.foldl (fun s r => s.showCe r.engine) s

/-- Copy runs at a REPLAY: neither record nor flag; the replay runs the copies again. -/
def State.replayRuns (s : State) : State :=
  let es := s.host.runs.map (·.engine)
  let s := { s with host := { s.host with runs := [] } }
  es.foldl (fun s e => s.showCe e) s

/-! ### The whole -/

/-- Every planned slot stops, as at a REPLAY: what it did in the discarded windows does not count, and its signals on the way go with
it. -/
def State.stopSlots (s : State) : State :=
  let one (x : UnitSt) : UnitSt := { x with run := none, next := 0 }
  State.showRuns { s with
    units := s.units.map fun (x : Nat × UnitSt) => (x.1, one x.2)
    cores := { s.cores with signals := [] } }

/-- Effects of a COMMIT (kind 0) or COMMIT_SKIP (kind 1) for a window (R87, Table 2.2). -/
def State.commitEffects (s : State) (kind : Nat) (w : Win) (last : Nat) : State :=
  let s := (s.unlistReread w).commitWga w.beat
  let s := (s.commitScan w.beat w.pos).markSkip kind w.pos
  let s := ((s.commitStep w.pos).commitRates w.beat).engineTests w.pos
  let s := (s.commitMoves w.beat).commitHolds w.beat w.pos
  let s := s.commitWatch w.beat w.pos
  (s.commitManifests w.beat w.pos last).commitRuns w.beat

/-- Effects of a REPLAY for a window: its uncommitted effects and those of the following windows go (R94). -/
def State.replayEffects (s : State) (w : Win) : State :=
  let s := (s.stopSlots).dropPieces
  let s := s.expireCopies fun c => decide (w.beat ≤ c.beat)
  let s := (s.replayWga).replayUpd
  let s := (s.replayHolds w.beat).replayMoves w.beat
  (s.dropWatch).replayRuns

end Sys2Proof.Machine
end

