-- ==== Sys2Proof/Machine/Window.lean ====
section
/-! DEFINITION. Starting a window at a marker, entering its commit gap, and the beat report (R74, R80 to R83, R90, R99,
R117, R257, R258, R301, R493, R540, R556, R557, Tables 2.1 and 2.2). -/

namespace Sys2Proof.Machine

open Sys2Proof

/-! ### Starting a window -/

/-- FING of a slot. -/
def State.fingOf (s : State) (f : FSlot) : Option Fing := (s.slot f).fing

/-- Cycles completed when the running window's verdict and those before it have committed. -/
def State.pendingEnds (s : State) (last : Nat) : Nat :=
  (s.beat.prev.filter fun w => w.pos == last).length
    + (match s.beat.win with
      | some w => if w.pos = last then 1 else 0
      | none => 0)

/-- A cycle runs in fixed mode (R389). -/
def State.fixedMode (s : State) (g : Fing) (cycles : Nat) : Bool :=
  !g.hdr.streaming || s.bit Reg.forgCtl 0
    || (match g.forager with
      | some c => decide (cycles < c.fixedSteps)
      | none => false)

/-- The first window of a run: RUN, ACTIVE or DEGRADED, the remote caches' EN and the core programs (R66, R114, R130). -/
def State.firstWindow (s : State) (g : Fing) : State :=
  let s := (s.setBit Reg.beatCtl 2 true).setDevState (if s.bit Reg.devState 4 then 6 else 4)
  let en : Nat := (g.rdc.map (·.en)).getD 0
  let s := if s.hasRdc then
      ((s.setBit (Reg.rdcCtl 0) 0 (decide (en % 2 = 1))).setBit (Reg.rdcCtl 1) 0 (decide (en / 2 % 2 = 1))).applyRdcEn
    else s
  let s := { s with beat := { s.beat with waiting := false } }
  (List.range 64).foldl (fun s l => if s.bit (Reg.coreMap l) 7 then s.loadProgram l else s) s

/-- Start the window `beat` at instant `t` with plan position `pos` of slot `f`. The running window joins those that
await their verdict. A window that starts a plan cycle chooses the foragers' mode for it; a replay runs in the mode that its position
ran in first (R389). -/
def State.startWindow (s : State) (f : FSlot) (beat t stretch pos replays : Nat) (replay : Option Bool) (holdAll : Bool) : State :=
  match s.fingOf f with
  | none => s
  | some g =>
    let s := s.at t
    let cycles := s.forager.cycles + s.pendingEnds (g.hdr.planLen - 1)
    let cycle := s.beat.cycle + s.pendingEnds (g.hdr.planLen - 1)
    let prev := s.beat.prev ++ (match s.beat.win with
      | some w => [{ w with inGap := true }]
      | none => [])
    let period := effPeriod g.hdr stretch pos
    let fresh := decide (pos = 0) && replay.isNone
    let fixed := replay.getD (if fresh then s.fixedMode g cycles else s.forager.fixed)
    let w : Win :=
      { beat := beat, pos := pos, start := t, stretch := stretch, long := isLong g.hdr pos, slot := f,
        takeover := s.casc.takeover, fixed := fixed, holdAll := holdAll, replays := replays, period := period, held := false,
        fault := false, rpUnits := [], inGap := false, entered := false, reported := false,
        margin := (period : Int) - 2000, cycle := cycle }
    let s := { s with
      beat := { s.beat with
        win := some w, prev := prev, nextPos := (pos + 1) % g.hdr.planLen, onceBeat := [], onceMsix := [],
        onceCycle := if fresh then [] else s.beat.onceCycle
        args := (match s.beat.argsNew with
          | some a => if a.2 then a.1 else s.beat.args
          | none => s.beat.args)
        argsNew := (match s.beat.argsNew with
          | some a => if a.2 then none else some a
          | none => none) }
      units := s.units.map fun (x : Nat × UnitSt) => (x.1, { x.2 with next := 0 })
      cores := { s.cores with counters := [] }
      upd := { s.upd with stopped := [] } }
    let s := s.setPair Reg.beatCountLo (beat % 2 ^ 48)
    let s := (s.setFld Reg.beatStretch 4 0 stretch).setBit Reg.beatStretch 16 (decide (stretch = 16))
    let s := (List.range 68).foldl (fun (s : State) (p : Nat) =>
      if s.bit (Reg.wgaStatus p) 18 then s.setBit (Reg.wgaStatus p) 18 false else s) s
    let s := (List.range 16).foldl (fun s n => if s.fld (Reg.updStatus n) 1 0 = 3 then s.setFld (Reg.updStatus n) 1 0 0 else s) s
    let s := ({ s with forager := { s.forager with fixed := fixed } }).setBit Reg.forgStatus 0 fixed
    let s := s.clearCrc
    (if s.running then s else s.firstWindow g).emit (.beatOut t)

/-! ### Entering the commit gap -/

/-- Every plan unit of the device (Table 2.25). -/
def allUnits : List UnitId :=
  [(1, 192), (2, 64), (3, 32), (4, 24), (5, 32), (6, 18), (7, 16), (8, 1)].flatMap fun (x : Nat × Nat) =>
    (List.range x.2).map fun i => { cls := x.1, idx := i }

/-- FENCE messages of a gap entry: an ACTIVE unit sends its own, and the hub sends for the others (R82, R506). -/
def State.sendFences (s : State) : State :=
  let awake (u : UnitId) : Bool := decide ((s.unit u).power = 0)
  s.emit (.fences (allUnits.filter awake) (allUnits.filter fun u => !(awake u)))

/-- Remote-cache lines that go at a gap entry (R62, R63): lines in homes of WRITABLE tensors, lines of the beat, and at
position PLAN_LEN − 1 lines of the cycle. -/
def State.gapRdc (s : State) (last : Bool) : State :=
  let writable (a : Nat) : Bool := match s.fing with
    | some g => g.tensors.any fun t => t.writable && (match s.homeOf t with
      | some h => overlap (a, 256) (h, t.size)
      | none => false)
    | none => false
  { s with tier := { s.tier with rdc := s.tier.rdc.filter fun x =>
      !(x.lifetime == 0 || (x.lifetime == 1 && last) || writable (x.line * 256)) } }

/-- Window copies of a beat expire at its gap entry, and their buffers become undefined (R341). -/
def State.gapCopies (s : State) (beat : Nat) : State := s.expireCopies fun c => decide (c.beat ≤ beat)

/-- The step-record copy of the STEP_POS beat: STEP, SKIPPED and LAST in the non-current copy (R257). -/
def State.writeStep (s : State) (beat : Nat) : State :=
  match s.updCfg with
  | none => s
  | some u =>
    match s.tensor u.stepRec with
    | none => s
    | some t =>
      let sel := fieldAt (s.view t.taddr 4) 0 4 % 2
      let cur := s.view (t.taddr + 0x20 + 0x20 * sel) 32
      let skip := s.upd.skip
      let data := leBytes 8 (fieldAt cur 0 8 + if skip then 0 else 1) ++ leBytes 8 (fieldAt cur 8 8 + if skip then 1 else 0)
        ++ leBytes 1 (if skip then 1 else 0) ++ zeroBytes 15
      let s := s.storeIn beat .hub (t.taddr + 0x20 + 0x20 * (1 - sel)) data
      { s with upd := { s.upd with stepNew := some (1 - sel) } }

/-- Number of chunks of a dense shard (R259). -/
def Shard.chunks (h : Shard) : Nat := (h.count + 2047) / 2048

/-- Accepted rows of a touch list: ascending, in range, at most what the tensor holds (R274), with the skipped count. -/
def touchRows (rows : Nat) : Nat → List Nat → List Nat × Nat
  | _, [] => ([], 0)
  | next, r :: rest =>
    if next ≤ r ∧ r < rows then
      let x := touchRows rows (r + 1) rest
      (r :: x.1, x.2)
    else
      let x := touchRows rows next rest
      (x.1, x.2 + 1)

/-- The touch list of a lazy shard: rows and skipped entries. -/
def State.touchList (s : State) (h : Shard) (width : Nat) : List Nat × Nat :=
  match s.tensor h.touch with
  | none => ([], 0)
  | some t =>
    let count := fieldAt (s.view t.taddr 4) 0 4
    let fit := min count ((t.size - 16) / 4)
    let x := touchRows (h.count / width) 0 ((List.range fit).map fun i => fieldAt (s.view (t.taddr + 0x10 + 4 * i) 4) 0 4)
    (x.1, x.2 + (count - fit))

/-- Some chunk of a shard, or some listed row, does not carry CAP_STEP = t (R258). -/
def State.uncapped (s : State) (u : UpdCfg) (h : Shard) : Bool :=
  match s.tensor h.tag with
  | none => false
  | some tag =>
    let t := (s.stepT + 1) % 2 ^ 32
    let lacks (i : Nat) : Bool := fieldAt (s.view (tag.taddr + 32 * i + 4) 4) 0 4 != t
    match u.groups[h.group]? with
    | none => false
    | some g =>
      if g.rule = 2 then (s.touchList h g.rowWidth).1.any lacks else (List.range h.chunks).any lacks

/-- The check of R258 at the gap entry of the STEP_POS beat, engine by engine. -/
def State.checkStep (s : State) (fault : Bool) : State :=
  match s.updCfg with
  | none => s
  | some u =>
    if s.upd.skip || fault then s
    else
      let ns := (List.range 16).filter fun n => u.shards.any fun h => h.pile == n && s.uncapped u h
      let s := ns.foldl (fun (s : State) (n : Nat) =>
        (s.updCode n 0x5008).logEntry { code := 0x5008, cls := 4, unit := { typ := 7, idx := n, sub := 0 } }) s
      if ns.isEmpty then s else s.fail 0x5008

/-- Ascending unit type and index (Table 13.5). -/
def unitBefore (a b : UnitCode) : Bool :=
  decide (a.typ < b.typ) || (a.typ == b.typ && (decide (a.idx < b.idx) || (a.idx == b.idx && decide (a.sub ≤ b.sub))))

def insertUnit (u : UnitCode) : List UnitCode → List UnitCode
  | [] => [u]
  | v :: vs => if unitBefore u v then u :: v :: vs else v :: insertUnit u vs

/-- The third failure of a position: its RP units are fenced at this gap (R97, R540). An array and its core are one
fence (R541). -/
def State.thirdFailure (s : State) (w : Win) : State :=
  if !w.fault || decide (w.replays < 2) then s
  else
    let us := w.rpUnits.foldr insertUnit []
    let s := us.foldl (fun s u => (s.logEntry { code := 0x2021, cls := 2, unit := u }).fenceNow u) s
    s.setWindow w.beat fun w => { w with rpUnits := [] }

/-- Control moves at a gap entry: an accepted move, else a failover (R490, R493, R494) (log 66). -/
def State.gapControl (s : State) : State :=
  match s.host.ctrlNext with
  | some p => s.setCtrl p
  | none =>
    if !s.host.failing then s
    else
      let o := otherPort s.host.ctrl
      let valid := s.bit (match o with
          | .a => Reg.mailboxAddrLo
          | .b => Reg.bMailboxAddrLo) 0
        && s.bit (match o with
          | .a => Reg.reportAddrLo
          | .b => Reg.bReportAddrLo) 0
      let standby := (s.fing.map (·.hdr.standbyB)).getD false
      if standby && s.portUp o && valid then
        let s := s.raise { code := 0x9006, cls := 0, unit := { typ := 12, idx := portIdx o, sub := 0 } }
        (s.setBit (match o with
          | .a => Reg.portStatusA
          | .b => Reg.portStatusB) 13 true).setCtrl o
      else if s.host.orphan then s
      else ({ s with host := { s.host with orphan := true } }).raise
        { code := 0x9007, cls := 0, unit := { typ := 12, idx := portIdx s.host.ctrl, sub := 0 } }

/-- The core that a die tests next, in the order of R556. -/
def State.testTarget (s : State) (d : Nat) : Nat := 17 * d + (getKey s.test.nextCore d).getD 0 % 17

/-- Start a cover of die `d`, or its spare's own test (R184, R556, R558). A core that is fenced is passed over. -/
def State.startCover (s : State) (d : Nat) : State :=
  let order := (List.range 17).map fun i => 17 * d + ((getKey s.test.nextCore d).getD 0 + i) % 17
  match order.find? fun p => !(decide (s.fld (Reg.coreState p) 2 0 = 4)) with
  | none => s
  | some p =>
    let sp := spareOf d
    let s := { s with test := { s.test with
      due := s.test.due.filter fun x => !(x == d)
      testing := putKey s.test.testing d p
      nextCore := putKey s.test.nextCore d ((p - 17 * d + 1) % 17) } }
    let s := s.setFld Reg.testStatus 3 0 (s.fld Reg.testStatus 3 0 ||| 2 ^ d)
    let s := s.emit (.selfTest { cls := 2, idx := s.fld (Reg.coreState p) 12 6 } p)
    if p = sp then s.setFld (Reg.coreState p) 2 0 3
    else
      let l := s.fld (Reg.coreState p) 12 6
      let s := ((s.mapCore l sp 2).setCore sp 1 l).setCore p 3 0x7F
      (s.setFld (Reg.coreSpare d) 8 7 1).wgaMoved l

/-- Covers at a gap entry: those whose core has passed end, and due ones start under R557. -/
def State.gapCovers (s : State) (w : Win) : State :=
  let s := s.endCovers
  s.test.due.foldl (fun (s : State) (d : Nat) =>
    let ok : Bool := decide (w.replays = 0) && !w.fault && !(s.bit Reg.devState 4) && s.test.fences.isEmpty
      && decide (s.spareState d = 0) && s.test.testCtl.getLsbD 0 && (getKey s.test.testing d).isNone
    if ok then s.startCover d else s.setBit Reg.testStatus 28 true) s

/-- Mirror FENCE frame of a window (R301): it declares the frames sent. -/
def State.sendMirrorFence (s : State) (beat : Nat) : State :=
  if !s.twinTakes then s
  else
    let n := (getKey s.casc.mirrorTx beat).getD 0
    let s := s.sendMirror false beat 4 0 0 n beat []
    { s with casc := { s.casc with mirrorTx := delKey s.casc.mirrorTx beat } }

/-- No unit runs a slot of the window. -/
def State.idleIn (s : State) (beat : Nat) : Bool :=
  s.units.all fun (x : Nat × UnitSt) => match x.2.run with
    | some r => decide (r.beat ≠ beat)
    | none => true

/-- An overrun of the window: 0x2022 and the count of consecutive overruns (R99, Table 2.18). -/
def State.gapOverrun (s : State) (w : Win) : State :=
  if w.margin < 0 then (s.raise { code := 0x2022, cls := 0 }).bumpSat Reg.beatStretch 15 8 1
  else s.setFld Reg.beatStretch 15 8 0

/-- The step record and its check at the gap entry of the STEP_POS beat (R257, R258). -/
def State.gapStep (s : State) (w : Win) : State :=
  if decide ((s.updCfg.map (·.stepPos)) = some w.pos) then (s.writeStep w.beat).checkStep w.fault else s

/-- Boundary actions on the device's own state: remote caches, window copies, RDC_CTL EN, TEST_CTL, biases, control. -/
def State.gapState (s : State) (w : Win) : State :=
  let last : Bool := decide (w.pos + 1 = (s.fing.map (·.hdr.planLen)).getD 0)
  let s := (s.gapRdc last).gapCopies w.beat
  let s := if s.hasRdc then s.applyRdcEn else s
  let s := { s with test := { s.test with testCtl := s.reg Reg.testCtl } }
  let s := if s.host.applyWaits then s.startFlips else s
  (s.gapControl).gapStep w

/-- A window enters its gap. -/
def Win.enter (w : Win) : Win := { w with inGap := true, entered := true }

/-- The programs of the cores that have taken logical numbers at this gap, and what the fences have lost (log 121). -/
def State.gapLosses (s : State) : State := (s.loadMoved s.gapBeat).takeLoss

/-- Enter the commit gap of a window (R81, R82, Table 2.2). The FENCE of the mirror stream goes last, behind the step record (R301). A
device that has stopped meanwhile does no more. -/
def State.enterGap (s : State) (w : Win) : State :=
  let s := (s.setWindow w.beat Win.enter).gapOverrun w
  let s := (((s.sendFences).thirdFailure w).gapCovers w).settle
  let s := s.gapLosses
  if s.runSlot.isNone then s
  else
    let s := s.gapState w
    if s.runSlot.isNone then s else s.sendMirrorFence w.beat

/-! ### The beat report -/

/-- The finite-vote bit of a window's report (R255): clear only at VOTE_POS with a nonzero count plus delta. -/
def State.voteBit (s : State) (w : Win) : Bool :=
  if (s.updCfg.map (·.votePos)) = some w.pos then
    s.upd.scan.all (fun (x : Nat × Nat) => decide (x.2 = 0))
      && s.upd.scanDelta.all fun (x : Nat × Nat × Nat) => decide (x.2.1 ≠ w.beat ∨ x.2.2 = 0)
  else true

/-- A window's report as a control message (R83, Table 10.6). -/
def State.reportMsg (s : State) (w : Win) (partner : Option Coord) : CtlMsg :=
  { kind := 3
    flags := (if w.fault then 1 else 0) + (if w.margin < 0 then 2 else 0) + (if s.voteBit w then 4 else 0)
      + (if partner.isSome then 8 else 0)
    stretch := 0, value := 0, coord := s.self, beat := w.beat, offset := 0, margin := w.margin, planPos := w.pos,
    issuer := s.fld Reg.cascadeInfo 31 24, lost := partner }

end Sys2Proof.Machine
end

