-- ==== Sys2Proof/Machine/Report.lean ====
section
/-! DEFINITION. The report page, the end of a plan cycle with its switch or stop, and the application of a verdict
(R85, R94, R97, R114 to R118, R123, R308 to R312, R447 to R449, R542, R628). -/

namespace Sys2Proof.Machine

open Sys2Proof

/-! ### Mailbox commands (R115, R116, R121, Table 2.10) -/

/-- The device has acted on a page: CMD_ACK and CMD_RESULT of the next report (R121), and a refusal's log entry. -/
def State.ack (s : State) (page : Bytes) (u : UnitCode) (r : Refused) : State :=
  let s := { s with beat := { s.beat with
    page := none, cmdAck := fieldAt page 0 4, cmdResult := r.code, ackNew := true } }
  s.logRefusal u r

/-- The unit that a refusal of a page names where no slot is meant: the device (log 60). -/
def wholeDevice : UnitCode := { typ := 0, idx := 0, sub := 0 }

/-- The command code of a page. -/
def pageCmd (page : Bytes) : Nat := fieldAt page 4 2

/-- The CYCLE_COUNT at which a SWITCH or STOP with this target takes effect (R115): 0 names the cycle to which the next
position to run belongs. -/
def State.targetCycle (s : State) (target : Nat) : Nat :=
  if target ≠ 0 then target else s.beat.cycle + s.pendingEnds ((s.fing.map (·.hdr.planLen)).getD 1 - 1) + 1

/-- Refusal of a SWITCH (R116, R574). The Boolean says that the target slot becomes REFUSED. -/
def State.switchRefusal (s : State) (f : FSlot) (target : Nat) : Option (Refused × Bool) :=
  match s.fing, (s.slot f).fing with
  | some old, some g =>
    if (s.slot f).state ≠ 2 then some ({ code := 0x2011 }, false)
    else if old.hdr.homeDigest ≠ g.hdr.homeDigest then some ({ code := 0x2010 }, false)
    else if target ≠ 0 ∧ target ≤ s.beat.cycle then some ({ code := 0x2012 }, false)
    else if !s.esz.entryUsable (128 + g.key) then some ({ code := 0x2003, detail := some 0xB012 }, true)
    else if !s.esz.recheck g then some ({ code := 0x2003, detail := some 0xB016 }, true)
    else none
  | _, _ => some ({ code := 0x2011 }, false)

/-- NOP: CMD_ACK advances (Table 2.10). -/
def State.doNop (s : State) (p : Bytes) : State := s.ack p wholeDevice { code := 0 }

/-- SWITCH (R115, R116). A later SWITCH or STOP takes the place of one still pending (log 93). -/
def State.pageSwitch (s : State) (p : Bytes) : State :=
  let f : FSlot := if fieldAt p 0x10 4 % 2 = 1 then .b else .a
  let target := fieldAt p 8 8
  match s.switchRefusal f target with
  | some (r, refused) =>
    let s := if refused then (s.setSlot f { s.slot f with fing := none }).setSlotState f 4 else s
    s.ack p (slotUnit f) r
  | none =>
    let s := (s.ack p wholeDevice { code := 0 }).setFld Reg.fingStatus 7 7 1
    { s with beat := { s.beat with switchTo := some (f, s.targetCycle target), stopAt := none } }

/-- STOP (Table 2.10). -/
def State.pageStop (s : State) (p : Bytes) : State :=
  let target := fieldAt p 8 8
  if target ≠ 0 ∧ target ≤ s.beat.cycle then s.ack p wholeDevice { code := 0x2012 }
  else
    let s := (s.ack p wholeDevice { code := 0 }).setFld Reg.fingStatus 7 7 0
    { s with beat := { s.beat with stopAt := some (s.targetCycle target), switchTo := none } }

/-- ARGS: the page's arguments take effect at the first marker after the next commit (Table 2.10). -/
def State.pageArgs (s : State) (p : Bytes) : State :=
  let s := s.ack p wholeDevice { code := 0 }
  { s with beat := { s.beat with argsNew := some ((p.drop 0x100).take 3840, false) } }

/-- Act on the page that waits, whatever its command: no window starts before it (R121). A command that is not in Table 2.10 is refused. -/
def State.actOnPage (s : State) : State :=
  match s.beat.page with
  | none => s
  | some p =>
    match pageCmd p with
    | 0 => s.doNop p
    | 1 => s.pageSwitch p
    | 2 => s.pageStop p
    | 3 => s.pageArgs p
    | _ => s.ack p wholeDevice { code := 0x2012 }

/-! ### The report page -/

/-- Content of the report page from 0x000 to 0x0FB (Table 2.11) (log 62). -/
def State.reportPage (s : State) (w : Win) (d : Due) (cycle seq : Nat) (hold : Bool) : Bytes :=
  let running := s.fld Reg.fingStatus 6 6
  let pend := s.fld Reg.fingStatus 7 7
  let flags := running + (if w.long then 2 else 0) + (if w.margin < 0 then 4 else 0) + (if w.held || hold then 8 else 0)
    + 16 * pend
  leBytes 4 seq ++ zeroBytes 4 ++ leBytes 8 w.beat ++ leBytes 8 s.beat.committed ++ leBytes 4 cycle
    ++ leBytes 2 w.pos ++ leBytes 1 d.kind ++ leBytes 1 flags ++ leBytes 4 (int32 w.margin).toNat
    ++ leBytes 4 (int32 d.margin).toNat ++ leBytes 4 (packCoord d.coord) ++ leBytes 1 w.stretch ++ leBytes 1 w.replays
    ++ zeroBytes 2 ++ leBytes 4 s.beat.cmdAck ++ leBytes 2 s.beat.cmdResult ++ zeroBytes 2
    ++ leBytes 4 (s.reg Reg.devState).toNat ++ leBytes 4 s.errSummary.toNat ++ zeroBytes 184 ++ leBytes 4 seq

/-- The three writes of a report to one page: SEQ_BEGIN, bytes 0x008 to 0x0F7, SEQ_END. -/
def State.writePage (s : State) (p : HPort) (a : Nat) (page : Bytes) : State :=
  ((s.emit (.hostWrite p a (page.take 4))).emit (.hostWrite p (a + 8) ((page.drop 8).take 240))).emit
    (.hostWrite p (a + 0xF8) (page.drop 0xF8))

/-- Report address in use of a port. -/
def State.reportAt (s : State) (p : HPort) : Option Nat :=
  match p with
  | .a => s.host.reportA
  | .b => s.host.reportB

/-- Write the report page (R122, R123, R126, R491, R494): on the controlling port, then its vectors, and with STANDBY_B on the other port
too, whether or not the controlling port's page is in use (logs 62, 122). SEQ counts the windows for which a page is written. -/
def State.report (s : State) (w : Win) (d : Due) (cycle : Nat) (standby hold : Bool) : State :=
  if s.host.orphan then s
  else
    let seq := (s.beat.reportSeq + 1) % 2 ^ 32
    let p := s.host.ctrl
    let page := s.reportPage w d cycle seq hold
    let second := if standby && s.portUp (otherPort p) then s.reportAt (otherPort p) else none
    let s := if (s.reportAt p).isSome || second.isSome then { s with beat := { s.beat with reportSeq := seq } } else s
    let s := match s.reportAt p with
      | none => s
      | some a =>
        if s.portUp p then
          let s := (s.writePage p a page).msix p 0
          if s.beat.ackNew then ({ s with beat := { s.beat with ackNew := false } }).msix p 1 else s
        else s.raise { code := 0x2026, cls := 0, unit := { typ := 12, idx := portIdx p, sub := 0 } }
    match second with
    | some a => s.writePage (otherPort p) a page
    | none => s

/-! ### The end of a cycle -/

/-- The pending switch or stop takes effect at a verdict that brings CYCLE_COUNT to `cycle` (R115) (log 59). -/
def State.switchDue (s : State) (cycle : Nat) : Option FSlot :=
  match s.beat.switchTo with
  | some (f, c) => if c ≤ cycle then some f else none
  | none => none

def State.stopDue (s : State) (cycle : Nat) : Bool :=
  match s.beat.stopAt with
  | some c => decide (c ≤ cycle)
  | none => false

/-- Undefine every tensor of class 0 of the fingering that ends (R117) (log 5). -/
def State.undefineClass0 (s : State) (g : Fing) : State :=
  (g.tensors.filter fun t => t.cls == 0 && !t.holdGrad).foldl (fun s t =>
    match s.homeOf t with
    | some h => s.undefineRange h t.size
    | none => s) s

/-- The staged samples that no manifest names are discarded at a SWITCH (R401). -/
def State.discardStaged (s : State) : State :=
  let all := (s.forager.staged ++ s.forager.long).filter fun x => !x.marker
  let s := all.foldl (fun (s : State) (x : Staged9) => s.damage x.discardRecord) s
  { s with forager := { s.forager with staged := [], long := [] } }

/-- The switch to slot `f` (R117, R401, R555, R626): `held` says that the first window of the new fingering waits (log 59). -/
def State.doSwitch (s : State) (f : FSlot) (g : Fing) (held : Bool) : State :=
  let s := s.discardStaged
  let s := match s.fing with
    | some old => (s.cancelMoves).undefineClass0 old
    | none => s
  let s := match s.runSlot with
    | some o => s.setSlotState o 2
    | none => s
  let s := (s.setSlotState f 3).setFld Reg.fingStatus 7 6 (slotIdx f)
  let s := { s with beat := { s.beat with switchTo := none, switchedFrom := none }
                    upd := .reset }
  let s := ((s.dropRdc).startHomes g).adoptPlan g
  let s := (s.dropGuests g).showStep
  let en : Nat := (g.rdc.map (·.en)).getD 0
  let s := if s.hasRdc then
      ((s.setBit (Reg.rdcCtl 0) 0 (decide (en % 2 = 1))).setBit (Reg.rdcCtl 1) 0 (decide (en / 2 % 2 = 1))).applyRdcEn
    else s
  let s := (List.range 64).foldl (fun s l => if s.bit (Reg.coreMap l) 7 then s.loadProgram l else s) s
  { s with beat := { s.beat with nextPos := if held then 1 % max 1 g.hdr.planLen else 0 } }

/-- A switch whose target is no longer LOADED at the boundary is dropped, and the plan goes on (log 59). -/
def State.dropSwitch (s : State) : State :=
  ({ s with beat := { s.beat with switchTo := none, switchedFrom := none } }).setFld Reg.fingStatus 7 7 0

/-- The cycle's end at a COMMIT: a stop, a switch, or neither (log 59). -/
def State.cycleEnd (s : State) : State :=
  let held : Bool := match s.beat.win with
    | some w => w.holdAll
    | none => false
  if s.stopDue s.beat.cycle then s.stopPlan
  else
    match s.switchDue s.beat.cycle with
    | none => s
    | some f =>
      match (s.slot f).state, (s.slot f).fing with
      | 2, some g => if held || s.beat.win.isNone then s.doSwitch f g held else s
      | _, _ => s.dropSwitch

/-! ### Verdicts -/

/-- A held first window may start its slots now that the verdict has been applied (R117). -/
def State.releaseWindow (s : State) : State :=
  { s with beat := { s.beat with win := s.beat.win.map fun w => { w with holdAll := false } } }

/-- BEAT_MARGIN_MIN over committed beats (Table 2.17). -/
def State.noteMargin (s : State) (m : Int) : State :=
  if m < (s.reg Reg.beatMarginMin).toInt then s.setReg Reg.beatMarginMin (int32 m) else s

/-- Remove a judged window. -/
def State.dropWindow (s : State) (beat : Nat) : State :=
  { s with beat := { s.beat with
      prev := s.beat.prev.filter fun w => !(w.beat == beat)
      win := match s.beat.win with
        | some w => if w.beat = beat then none else some w
        | none => none } }

/-- The spare that adopts the coordinate of the former master becomes the backup once it is back (R451). -/
def State.backupReturns (s : State) : State :=
  match s.route with
  | none => s
  | some r =>
    let c := unpackCoord r.master
    if s.bit Reg.masterCoord 25 && s.casc.lost.contains c then
      let s := { s with casc := { s.casc with backup := some c } }
      (s.setFld Reg.masterCoord 23 12 (coord12 c)).setBit Reg.masterCoord 24 false
    else s

/-- The lost set clears: every member of the cascade is back (R449, R450) (log 90). -/
def State.allBack (s : State) : State :=
  let s := s.backupReturns
  let s := { s with casc := { s.casc with
    takeover := false, lost := [], readys := [], copied := [], partner := false, spare := false, copyEnd := none,
    stretch := 0, raise := false, lower := false } }
  ((s.setBit Reg.forgStatus 1 false).setFld Reg.lostCoord 13 0 0).setBit Reg.cascadeCoord 30 false

/-- Hand-back at a STEP_POS COMMIT (R311, R450): the twin returns to its own plan, an adopting spare begins to run, and
the lost set clears. -/
def State.handBack (s : State) : State :=
  let twin := s.casc.takeover
  let s := s.allBack
  if twin then
    let s := s.raise { code := 0x5046, cls := 0 }
    (List.range 64).foldl (fun s l => if s.bit (Reg.coreMap l) 7 then s.loadProgram l else s) s.showEngines
  else s

/-- A takeover lasts in the cascade: a member is lost and the cascade does not hold (R308, R440). -/
def State.takeoverOn (s : State) : Bool := !s.casc.lost.isEmpty && !s.casc.hold

/-- The twin's copy has reached the spare (R311) (log 90). -/
def State.copySent (s : State) : Bool := match s.casc.copyEnd with
  | some n => s.twinSent n
  | none => false

/-- The STEP_POS verdict hands back once the copy is complete: the spare, the master and the backup know that from READY, and the twin
from what it has sent (R311) (log 90). -/
def State.tryHandBack (s : State) (pos : Nat) : State :=
  let ready := !s.casc.readys.isEmpty || (s.casc.takeover && s.copySent)
  if (s.updCfg.map (·.stepPos)) = some pos ∧ ready ∧ s.takeoverOn then s.handBack else s

/-- Apply a COMMIT (kind 0) or COMMIT_SKIP (kind 1) to a window. -/
def State.applyCommit (s : State) (d : Due) (w : Win) : State :=
  let last : Nat := (s.fing.map (·.hdr.planLen)).getD 1 - 1
  let standby : Bool := (s.fing.map (·.hdr.standbyB)).getD false
  let s := s.commitEffects d.kind w last
  let ends := decide (w.pos = last)
  let s := { s with
    beat := { s.beat with
      committed := s.beat.committed + 1
      cycle := s.beat.cycle + (if ends then 1 else 0)
      argsNew := s.beat.argsNew.map (fun (a : Bytes × Bool) => (a.1, true)) },
    forager := { s.forager with cycles := s.forager.cycles + (if ends then 1 else 0) } }
  let s := (s.noteMargin w.margin).dropWindow w.beat
  let cycle := s.beat.cycle
  let s := if s.beat.stopNow then s.stopPlan else if ends then s.cycleEnd else s
  let s := (s.releaseWindow).tryHandBack w.pos
  s.report w d cycle standby false

/-- LOST_COORD for a coordinate that joins the lost set (Table 10.24). -/
def State.noteLost (s : State) (c : Coord) (flags : Nat) : State :=
  let mode := if flags / 8 % 2 = 1 then 3 else if flags / 2 % 2 = 1 then 1 else 2
  let s := { s with casc := { s.casc with lost := if s.casc.lost.contains c then s.casc.lost else s.casc.lost ++ [c] } }
  (s.setFld Reg.lostCoord 11 0 (coord12 c)).setFld Reg.lostCoord 13 12 mode

/-- Every tensor of classes STATE, MASTER and EMA is mirrored: step replay can recover a lost device (R306, R447).
Classes: 1 STATE, 2 MASTER, 3 EMA. -/
def Fing.stateMirrored (g : Fing) : Bool := g.tensors.all fun t => !(decide (1 ≤ t.cls ∧ t.cls ≤ 3)) || t.mirrored

/-- A REPLAY with TAKEOVER makes the lost device's twin run its takeover plan (R308, R447) (logs 64, 70). -/
def State.takeOver (s : State) (c : Coord) : State :=
  match s.route with
  | some r =>
    if r.twin = packCoord c then
      let s := ({ s with casc := { s.casc with takeover := true } }).setBit Reg.forgStatus 1 true
      (List.range 64).foldl (fun s l => if s.bit (Reg.coreMap l) 7 then s.loadProgram l else s) s.showEngines
    else s
  | none => s

/-- What the flags of a REPLAY verdict ask beside the replay: lost set, takeover, hold, retirement. -/
def State.replayFlags (s : State) (d : Due) : State :=
  let s := match d.lost with
    | some c => s.noteLost c d.flags
    | none => s
  let s := match d.lost with
    | some c => if d.flags / 2 % 2 = 1 then s.takeOver c else s
    | none => s
  if d.flags / 4 % 2 = 1 then
    let s := { s with casc := { s.casc with hold := true } }
    if d.lost.isSome && (s.fing.map Fing.stateMirrored).getD false then
      s.raise { code := 0x5044, cls := 3, unit := { typ := 18, idx := (d.lost.map s.memberIdx).getD 0, sub := 0 } }
    else s
  else s

/-- This device is retired by the verdict (R448). -/
def State.retiredBy (s : State) (d : Due) : Bool := d.flags / 8 % 2 = 1 ∧ d.lost = some s.self

/-- Retire: the plan stops as for STOP (R448). -/
def State.retireSelf (s : State) : State :=
  let s := (s.stopPlan.setBit Reg.lostCoord 14 true)
  ({ s with casc := { s.casc with retired := true } }).raise { code := 0x8043, cls := 3 }

/-- The master goes on counting from the replay window as it started (R435). -/
def State.masterCounts (s : State) (d : Due) (beat : Nat) : State :=
  { s with casc := { s.casc with lastMark := s.casc.lastMark.map fun m =>
      if m.at_ = d.at_ ∧ m.epoch = d.epoch then { m with beat := beat } else m } }

/-- What a REPLAY does on the twin lane: the frames of the discarded windows count no further, and a shard that met a stamp fault is
refreshed from its owner (R301, R302) (log 55). -/
def State.replayMirror (s : State) : State :=
  let due := s.casc.refreshDue
  due.foldl (fun (s : State) (id : Nat) => s.askTwin id none)
    { s with casc := { s.casc with rxOpen := [], mirrorTx := [], refreshDue := [] } }

/-- Apply a REPLAY to a window: its effects and those of the following windows go, and the replay window starts at once
(R85, R94, R97, R435, R542). -/
def State.applyReplay (s : State) (d : Due) (w : Win) : State :=
  let standby : Bool := (s.fing.map (·.hdr.standbyB)).getD false
  let s := (s.replayEffects w).replayMirror
  let s := { s with beat := { s.beat with win := none, prev := [] } }
  let s := s.bumpPair Reg.replayCntLo 1
  let s := if w.fault then s.bumpSat Reg.ownReplays 31 0 1 else s
  let s := s.logEntry { code := 0x2020, cls := 1 }
  let s := { s with casc := { s.casc with epoch := d.epoch } }
  let cycle := s.beat.cycle
  let hold := decide (d.flags / 4 % 2 = 1)
  if s.retiredBy d then ((s.noteLost s.self d.flags).retireSelf).report w d cycle standby false
  else
    let s := s.replayFlags d
    if s.beat.stopNow then s.stopPlan.report w d cycle standby hold
    else
      let count := if hold ∨ d.flags / 2 % 2 = 1 ∨ 2 ≤ w.replays then 0 else w.replays + 1
      let s := if hold then { s with beat := { s.beat with nextPos := w.pos } } else s
      let s := s.report w d cycle standby hold
      if hold then s
      else
        match s.runSlot with
        | none => s
        | some f =>
          let n := s.pair Reg.beatCountLo + 1
          (s.actOnPage.startWindow f n d.at_ d.stretch w.pos count (some w.fixed) false).masterCounts d n

/-- The window that the next verdict judges: the oldest that awaits one. -/
def State.judged (s : State) : Option Win :=
  match s.beat.prev with
  | w :: _ => some w
  | [] => s.beat.win

/-- Apply the earliest due verdict of a kind whose instant has come, when it judges the oldest window (log 2). -/
def applyVerdict (kind t : Nat) (s : State) : State :=
  match s.beat.due.find? (fun d => d.kind == kind && decide (d.at_ ≤ t)), s.judged with
  | some d, some w =>
    if d.beat ≠ w.beat ∨ (kind ≠ 2 ∧ !w.reported) then s
    else
      let s := (s.at t)
      let s := { s with
        beat := { s.beat with due := s.beat.due.filter fun x => decide (w.beat < x.beat ∧ kind ≠ 2) }
        casc := { s.casc with
          reports := s.casc.reports.filter fun x => decide (w.beat < x.beat)
          fences := s.casc.fences.filter fun (x : Nat × Nat) => !(x.1 == w.beat % 2 ^ 32)
          mirrorRx := s.casc.mirrorRx.filter fun (x : Nat × Nat) => !(x.1 == w.beat % 2 ^ 32) } }
      if kind = 2 then s.applyReplay d w else s.applyCommit d w
  | _, _ => s

/-- COMMIT (R87). -/
def execCommit (t : Nat) (s : State) : Host.Outcome State Fault Refusal := .next (applyVerdict 0 t s)

/-- COMMIT_SKIP (R256). -/
def execCommitSkip (t : Nat) (s : State) : Host.Outcome State Fault Refusal := .next (applyVerdict 1 t s)

/-- REPLAY (R94). -/
def execReplay (t : Nat) (s : State) : Host.Outcome State Fault Refusal := .next (applyVerdict 2 t s)

end Sys2Proof.Machine
end

