-- ==== Sys2Proof/Machine/Judge.lean ====
section
/-! DEFINITION. The beat master: the broadcast tree, the choice of the stretch step, and the verdict of a beat from the
reports it holds (R84 to R86, R99, R309, R431, R433, R435, R436, R439 to R441, R446 to R448, R628). -/

namespace Sys2Proof.Machine

open Sys2Proof

/-! ### Broadcast -/

/-- This device is the acting master: ROLE reads 0b10. -/
def State.isMaster (s : State) : Bool := decide (s.fld Reg.beatCtl 1 0 = 2)

/-- Member index of this device. -/
def State.myIdx (s : State) : Nat := s.fld Reg.cascadeInfo 31 24

/-- Members of the cascade in member order. -/
def State.members (s : State) : List Coord :=
  match s.route with
  | some r => r.members.map unpackCoord
  | none => [s.self]

/-- Flags of a message that the master issues: BACKUP after R451, and the epoch (R628). -/
def State.issueFlags (s : State) : Nat := (if s.bit Reg.masterCoord 25 then 1 else 0) + 16 * s.casc.issueEpoch

/-- A message without content. -/
def State.blankMsg (s : State) (kind : Nat) : CtlMsg :=
  { kind := kind, flags := 0, stretch := 0, value := 0, coord := { x := 0, y := 0, z := 0 }, beat := 0, offset := 0,
    margin := 0, planPos := 0, issuer := s.myIdx, lost := none }

/-! ### Stretch -/

/-- The stretch step of the next marker (R440, R308): 16 while a takeover lasts, else one more, one less or unchanged (log 63). -/
def State.chooseStretch (s : State) : Nat × State :=
  let k := s.casc.stretch
  let s' := { s with casc := { s.casc with raise := false, lower := false } }
  if s.takeoverOn then (16, { s' with casc := { s'.casc with stretch := 16 } })
  else if s.casc.raise && decide (k < 16) then
    (k + 1, ({ s' with casc := { s'.casc with stretch := k + 1 } }).raise { code := 0x8020, cls := 0 })
  else if s.casc.lower && !s.casc.raise && decide (0 < k) then
    (k - 1, ({ s' with casc := { s'.casc with stretch := k - 1 } }).raise { code := 0x8021, cls := 0 })
  else (k, s')

/-- The master's counts over the verdicts that it issues (R440, R441). -/
def State.countVerdict (s : State) (kind : Nat) (margin : Int) (coord : Coord) : State :=
  let period : Int := ((s.fing.map (·.hdr.period)).getD 0 : Nat)
  if margin < 0 then
    let n := s.casc.overs + 1
    let k := packCoord coord
    let c := (getKey s.casc.overrun k).getD 0 + 1
    let s := { s with casc := { s.casc with
      overs := n, calm := 0, raise := s.casc.raise || decide (4 ≤ n), overrun := putKey s.casc.overrun k c } }
    if s.fld Reg.slowRecord 27 12 < min c 0xFFFF ∨ !s.bit Reg.slowRecord 28 ∨ s.fld Reg.slowRecord 11 0 = coord12 coord then
      s.setReg Reg.slowRecord (BitVec.ofNat 32 (coord12 coord + 4096 * min c 0xFFFF + 268435456))
    else s
  else
    let calm := if kind < 2 ∧ period ≤ 16 * margin then s.casc.calm + 1 else 0
    let full := decide (1024 ≤ calm)
    { s with casc := { s.casc with
        overs := 0, calm := if full then 0 else calm, lower := s.casc.lower || full } }

/-! ### Verdicts -/

/-- BEAT_COUNT of the replay window: one more than the last window that starts before its instant (R435). -/
def State.replayBeat (s : State) (inst : Nat) : Nat :=
  s.beat.markers.foldl (fun n m => if m.at_ < inst ∧ m.epoch = s.casc.epoch then max n (m.beat + 1) else n)
    (s.pair Reg.beatCountLo + 1)

/-- The window that a REPLAY verdict starts, as the master will count from it (R435). -/
def State.noteReplay (s : State) (w : Win) (inst stretch ep : Nat) : State :=
  let period : Nat := ((s.fingOf w.slot).map fun g => effPeriod g.hdr stretch w.pos).getD 0
  { s with casc := { s.casc with
      lastMark := some { beat := s.replayBeat inst, at_ := inst, stretch := stretch, planPos := w.pos, epoch := ep }
      lastPeriod := period, lastSlot := w.slot } }

/-- Issue the verdict for a window (R84, R85, R436): to the cascade and to this device itself. A verdict whose instant
has passed takes effect at once (log 63). -/
def State.issueVerdict (s : State) (w : Win) (t kind flags stretch : Nat) (margin : Int) (coord : Coord)
    (lost : Option Coord) : State :=
  let ep := if kind = 2 then (s.casc.issueEpoch + 1) % 16 else s.casc.issueEpoch
  let inst := max t (s.verdictAt w)
  let s := { s with casc := { s.casc with
    issueEpoch := ep, dead := [], reports := s.casc.reports.filter fun x => decide (w.beat < x.beat) } }
  let m : CtlMsg := { s.blankMsg 2 with
    flags := flags + s.issueFlags, stretch := stretch, value := kind, coord := coord, beat := w.beat
    offset := (inst : Int) - (t : Int), margin := margin, lost := lost }
  let d : Due := { kind := kind, beat := w.beat, at_ := inst, flags := m.flags % 16, stretch := stretch, margin := margin,
                   coord := coord, lost := lost, epoch := ep }
  let s := (s.spread m).countVerdict kind margin coord
  let s := { s with beat := { s.beat with due := s.beat.due ++ [d] } }
  if kind ≠ 2 then s
  else if flags / 4 % 2 = 1 then { s with casc := { s.casc with lastMark := none } }
  else s.noteReplay w inst stretch ep

/-- The least margin among the reports and who reported it, the first in member order on a tie. -/
def leastMargin (rs : List HeldReport) : List Coord → Option (Int × Coord)
  | [] => none
  | c :: cs =>
    match rs.find? (fun r => r.coord == c), leastMargin rs cs with
    | some r, some x => if r.margin ≤ x.1 then some (r.margin, c) else some x
    | some r, none => some (r.margin, c)
    | none, x => x

/-- The member of a pair with a lost twin link that is retired (R446). -/
def State.linkLoser (s : State) (a b : Coord) : Coord :=
  if a = s.self then b
  else if b = s.self then a
  else if s.memberIdx a < s.memberIdx b then b else a

/-- Members whose twin links are lost alone: a PARTNER_LOST report whose partner has reported too (R446). -/
def State.linkLosses (s : State) (rs : List HeldReport) : List Coord :=
  rs.filterMap fun r => match r.partner with
    | some m => if rs.any fun x => x.coord == m then some (s.linkLoser r.coord m) else none
    | none => none

/-- A list without repeats, first occurrences kept. -/
def dedupe : List Coord → List Coord
  | [] => []
  | c :: cs => c :: (dedupe cs).filter fun x => !(x == c)

/-- The lost coordinate's twin has been lost before: no copy of its state is left (R309) (log 13). -/
def State.twinGone (s : State) (c : Coord) : Bool :=
  match s.fing with
  | some g => s.casc.lost.any fun x => Config.twinOf g.hdr.cascadeId (packCoord x) == packCoord c
  | none => false

/-- Issue the REPLAY verdict for one lost or retired device (R447) (log 94). -/
def State.judgeLoss (s : State) (w : Win) (t : Nat) (margin : Int) (coord c : Coord) (retired : Bool) : State :=
  let full : Bool := (s.fing.map (·.hdr.fullTwin)).getD false && !(s.twinGone c)
  let kept : Bool := (s.fing.map Fing.stateMirrored).getD false && !(s.twinGone c)
  let r := if retired then 8 else 0
  if full then
    let s := { s with casc := { s.casc with stretch := 16, raise := false, lower := false } }
    s.issueVerdict w t 2 (2 + r) 16 margin coord (some c)
  else
    let s := s.issueVerdict w t 2 (4 + r) s.casc.stretch margin coord (some c)
    if kept then s else s.raise { code := 0x5045, cls := 4, unit := { typ := 18, idx := s.memberIdx c, sub := 0 } }

/-- Give the verdict for a window from its reports `rs`; `gone` are the members declared lost. -/
def State.judge (s : State) (w : Win) (t : Nat) (rs : List HeldReport) (gone : List Coord) : State :=
  let live := rs.filter fun r => !(gone.contains r.coord)
  let links := s.linkLosses live
  let s := if links.isEmpty then s else s.raise { code := 0x8042, cls := 0 }
  let asked := s.casc.retire
  let s := if asked.isSome then { s with casc := { s.casc with retire := none } }.raise { code := 0x8044, cls := 0 } else s
  let losses := dedupe (gone ++ links ++ asked.toList)
  let least := (leastMargin rs s.members).getD (w.margin, s.self)
  match losses with
  | [] =>
    if live.any (·.fault) then
      let k := s.chooseStretch
      k.2.issueVerdict w t 2 0 k.1 least.1 least.2 none
    else s.issueVerdict w t (if live.any (·.voteClear) then 1 else 0) 0 0 least.1 least.2 none
  | [c] => s.judgeLoss w t least.1 least.2 c (!(gone.contains c))
  | c :: _ => (s.issueVerdict w t 2 4 s.casc.stretch least.1 least.2 (some c)).raise { code := 0x8045, cls := 4 }

/-- The oldest window without a verdict; none while a REPLAY is on its way, which discards the windows after it (log 63). -/
def State.unjudged (s : State) : Option Win :=
  if s.beat.due.any fun d => d.kind == 2 then none
  else (s.beat.prev ++ s.beat.win.toList).find? fun w => !(s.beat.due.any fun d => d.beat == w.beat)

/-- Members that have sent SELF_LOST for a beat, or that the master has declared lost for it. -/
def State.goneFor (s : State) (beat : Nat) : List Coord :=
  dedupe (s.casc.dead ++ (s.casc.reports.filter fun r => r.beat == beat && r.selfLost).map (·.coord))

/-- Members whose report for a beat is still missing. -/
def State.missing (s : State) (beat : Nat) : List Coord :=
  s.members.filter fun c =>
    !(s.casc.lost.contains c) && !((s.goneFor beat).contains c)
      && !(s.casc.reports.any fun r => r.beat == beat && r.coord == c)

/-- The master issues the verdict as soon as it holds every report (R436). -/
def State.tryJudge (s : State) (t : Nat) : State :=
  if !s.isMaster then s
  else
    match s.unjudged with
    | none => s
    | some w =>
      if w.reported && (s.missing w.beat).isEmpty then
        s.judge w t (s.casc.reports.filter fun r => r.beat == w.beat) (s.goneFor w.beat)
      else s

/-- A REPORT as it is held (R436). -/
def heldReport (m : CtlMsg) (t : Nat) : HeldReport :=
  { coord := m.coord, beat := m.beat, fault := decide (m.flags % 2 = 1), voteClear := decide (m.flags / 4 % 2 = 0),
    margin := m.margin, selfLost := decide (m.flags / 16 % 2 = 1),
    partner := if m.flags / 8 % 2 = 1 then m.lost else none, at_ := t }

/-- Hold a report, one of each device and beat. -/
def State.holdReport (s : State) (h : HeldReport) : State :=
  { s with casc := { s.casc with
      reports := (s.casc.reports.filter fun r => !(r.coord == h.coord && r.beat == h.beat)) ++ [h] } }

/-- Send the device's report to master and backup, or hold it as one of them (R83, R436). -/
def State.sendReport (s : State) (m : CtlMsg) (t : Nat) : State :=
  let send (s : State) (c : Option Coord) : State := match c with
    | some c => if c = m.coord then s.holdReport (heldReport m t) else s.controlTo c m
    | none => s
  (send (send s s.casc.master) s.casc.backup).tryJudge t

end Sys2Proof.Machine
end

