-- ==== Sys2Proof/Machine/Beat.lean ====
section
/-! DEFINITION. The commands of the beat: markers, the commit gap, reports, late verdicts, slots and the mailbox (R77 to
R100, R115, R116, R119 to R122, R432 to R434, R436, R439, R451). -/

namespace Sys2Proof.Machine

open Sys2Proof

/-! ### Markers -/

/-- Earlier of the due markers whose instant has come (log 63). -/
def dueMarker (t : Nat) : List DueMarker → Option DueMarker
  | [] => none
  | m :: ms =>
    match dueMarker t ms with
    | none => if m.at_ ≤ t then some m else none
    | some n => if m.at_ ≤ t ∧ m.at_ ≤ n.at_ then some m else some n

/-- The switch or stop that the verdict of the window now ending decides (R115, R117): the slot whose position 0 the
next window runs, with every slot of it held (logs 93, 117). -/
def State.boundary (s : State) (f : FSlot) : FSlot × Bool :=
  match s.beat.win, s.fing with
  | some w, some g =>
    let last := g.hdr.planLen - 1
    let cycle := s.beat.cycle + s.pendingEnds last
    if w.pos ≠ last then (f, false)
    else if s.stopDue cycle then (f, true)
    else match s.switchDue cycle with
      | some x => if (s.slot x).state = 2 then (x, true) else (f, false)
      | none => (f, false)
  | _, _ => (f, false)

/-- A device that adopts starts its fingering at position 0 after hand-back: the first marker with S 0 after its copy is
complete ends the adoption (R311, R450). While it runs no window it answers `false` and only pulses BEAT_OUT at the marker's instant once
it is SYNCED (R438). -/
def State.adoptMarker (s : State) (m : DueMarker) : State × Bool :=
  if s.casc.adopting.isNone then (s, !(s.bit Reg.cascadeCoord 30))
  else
    let s := if s.bit Reg.cascadeCoord 30 && !s.casc.readys.isEmpty && m.stretch == 0 then s.handBack else s
    if s.bit Reg.cascadeCoord 30 || decide (m.planPos ≠ 0) then (if s.bit Reg.beatCtl 3 then s.emit (.beatOut m.at_) else s, false)
    else ({ s with casc := { s.casc with adopting := none } }, true)

/-- Run a marker's window (R434) (log 119). -/
def State.runMarker (s : State) (f : FSlot) (m : DueMarker) (t : Nat) : State :=
  let s := (s.at t).actOnPage
  let s := if m.stretch = 0 ∧ s.takeoverOn then s.handBack else s
  let b := s.boundary f
  let pos := if b.2 then 0 else s.beat.nextPos
  if m.planPos ≠ pos then s.raise { code := 0x8024, cls := 4 }
  else (s.setBit Reg.beatCtl 3 true).startWindow b.1 m.beat m.at_ m.stretch pos 0 none b.2

/-- MARKER: the earliest marker whose instant has come starts its window (R434). A marker of an old epoch, of a window
not after BEAT_COUNT, or of a run that has stopped, holds or adopts, is discarded (log 2). -/
def applyMarker (t : Nat) (s : State) : State :=
  match dueMarker t s.beat.markers with
  | none => s
  | some m =>
    let s := { s with beat := { s.beat with markers := s.beat.markers.filter fun x => !(x == m) } }
    match s.runSlot with
    | none => s
    | some f =>
      if s.casc.hold || decide (m.beat ≤ s.pair Reg.beatCountLo) || m.epoch != s.casc.epoch then s
      else
        let x := s.adoptMarker m
        if x.2 then x.1.runMarker f m t else x.1

def execMarker (t : Nat) (s : State) : Host.Outcome State Fault Refusal := .next (applyMarker t s)

/-- STANDALONE_FIRST_MARKER (R439): 20,000 ns after START a device of a cascade of one issues its first marker. -/
def applyStandaloneFirstMarker (t : Nat) (s : State) : State :=
  match s.fing with
  | none => s
  | some g =>
    if g.hdr.cascadeSize ≤ 1 && s.beat.waiting && s.beat.markers.isEmpty then
      let m : DueMarker := { beat := s.pair Reg.beatCountLo + 1, at_ := t, stretch := 0, planPos := 0, epoch := 0 }
      let s := { s with
        beat := { s.beat with markers := [m] }
        casc := { s.casc with
          lastMark := some m, lastPeriod := effPeriod g.hdr 0 0, lastSlot := (s.runSlot).getD .a } }
      (s.setBit Reg.beatCtl 3 true).at t
    else s

def execStandaloneFirstMarker (t : Nat) (s : State) : Host.Outcome State Fault Refusal :=
  .next (applyStandaloneFirstMarker t s)

/-! ### The commit gap and the report -/

/-- GAP_START: the work window of the running window ends (R72, R81). -/
def applyGapStart (t : Nat) (s : State) : State :=
  match s.beat.win with
  | some w =>
    if w.gapStart ≤ t && !w.inGap then (s.at t).setWindow w.beat fun w => { w with inGap := true } else s
  | none => s

def execGapStart (t : Nat) (s : State) : Host.Outcome State Fault Refusal := .next (applyGapStart t s)

/-- The oldest window whose gap has started, which the device has not entered, and of which no slot still runs. -/
def State.enterable (s : State) : Option Win :=
  (s.beat.prev ++ s.beat.win.toList).find? fun w => w.inGap && !w.entered && s.idleIn w.beat

/-- GAP_ENTRY: the device enters the commit gap when its last unit does (R81, R82, Table 2.2). -/
def applyGapEntry (t : Nat) (s : State) : State :=
  match s.enterable with
  | some w => (s.at t).enterGap w
  | none => s

def execGapEntry (t : Nat) (s : State) : Host.Outcome State Fault Refusal := .next (applyGapEntry t s)

/-- The twin sends mirror frames to this device: a twin is named and has not been lost (R301). -/
def State.expectsMirror (s : State) : Bool :=
  match s.route with
  | some r => r.twin != 0xFFFFFFFF && !(s.casc.lost.contains (unpackCoord r.twin)) && !s.casc.takeover
  | none => false

/-- The twin's check at its report: the partner's FENCE has come and no frame is missing (R301). -/
def State.checkMirror (s : State) (w : Win) : State :=
  let b := w.beat % 2 ^ 32
  let ok : Bool := match s.casc.fences.find? fun (x : Nat × Nat) => x.1 == b with
    | some x => decide (x.2 ≤ ((s.casc.mirrorRx.find? fun (y : Nat × Nat) => y.1 == b).map (·.2)).getD 0)
    | none => false
  if s.expectsMirror && !ok then s.raise { code := 0x5041, cls := 1, beat := some w.beat } else s

/-- A third failure that shows only between the entry to the gap and the report, as 0x5041 does, is acted on at the report, in the same
gap (R97, R540). -/
def State.lateFailure (s : State) (w : Win) : State :=
  if w.rpUnits.isEmpty || decide (w.replays < 2) then s else ((s.thirdFailure w).settle).gapLosses

/-- BEAT_REPORT (R83, R301, R436). -/
def applyBeatReport (t : Nat) (s : State) : State :=
  match (s.beat.prev ++ s.beat.win.toList).find? fun w => w.entered && !w.reported with
  | none => s
  | some w =>
    let s := (s.at t).checkMirror w
    let s := match s.window w.beat with
      | some w => s.lateFailure w
      | none => s
    match s.window w.beat with
    | none => s
    | some w =>
      let s := s.setWindow w.beat fun w => { w with reported := true }
      let lost := match s.route with
        | some r => if s.casc.partner then some (unpackCoord r.twin) else none
        | none => none
      s.sendReport (s.reportMsg w lost) t

def execBeatReport (t : Nat) (s : State) : Host.Outcome State Fault Refusal := .next (applyBeatReport t s)

/-! ### Control messages of the master -/

/-- Member index of the current master. -/
def State.masterIdx (s : State) : Nat := (s.casc.master.map s.memberIdx).getD 0

/-- The issuer of the first message with BACKUP is master from then on (R451); the cascade then has no backup (log 89). -/
def State.newMaster (s : State) (idx : Nat) : State :=
  let c := s.memberAt idx
  let s := { s with casc := { s.casc with master := some c, backup := none } }
  ((s.setFld Reg.masterCoord 23 0 (coord12 c)).setBit Reg.masterCoord 24 true).setBit Reg.masterCoord 25 true

/-- Take a MARKER, VERDICT or RESUME from the master, the backup that has assumed the role among them; `none` when the
message comes from another member. -/
def State.heed (s : State) (m : CtlMsg) : Option State :=
  if m.issuer = s.masterIdx then some s
  else if m.flags % 2 = 1 ∧ (m.kind = 1 ∨ m.kind = 2) then some (s.newMaster m.issuer)
  else none

/-- A message that is late acts at once and is logged (R432). -/
def State.noteLate (s : State) (m : CtlMsg) : State :=
  if m.offset < 0 then (s.setBit Reg.syncStatus 22 true).raise { code := 0x8022, cls := 0 } else s

/-- Instant of a message that arrives at `t` with this remaining OFFSET (R432). -/
def dueAt (m : CtlMsg) (t : Nat) : Nat := t + m.offset.toNat

/-- A VERDICT message is scheduled for its instant (R85), once however many ways it comes. A device that adopts runs no window and only
follows the epoch of a REPLAY (R628) (log 88). -/
def State.takeVerdict (s : State) (m : CtlMsg) (t : Nat) : State :=
  if s.bit Reg.cascadeCoord 30 then
    if m.value = 2 then { s with casc := { s.casc with epoch := m.flags / 16 } } else s
  else if s.beat.due.any fun d => d.beat == m.beat && d.epoch == m.flags / 16 then s
  else
    let d : Due := { kind := m.value, beat := m.beat, at_ := dueAt m t, flags := m.flags % 16, stretch := m.stretch,
                     margin := m.margin, coord := m.coord, lost := m.lost, epoch := m.flags / 16 }
    { s with beat := { s.beat with due := s.beat.due ++ [d] }, casc := { s.casc with masterGone := none } }

/-- VERDICT_LATE: the marker that follows plus VERDICT_DELAY has passed without the verdict (R92). -/
def applyVerdictLate (t : Nat) (s : State) : State :=
  match s.beat.prev, s.beat.win with
  | w :: _, some cur =>
    if w.start + w.period + s.fld Reg.beatCtl 31 16 < t ∧ !(s.beat.due.any fun d => d.beat == w.beat && decide (d.at_ ≤ t)) then
      ((s.at t).setWindow cur.beat fun w => { w with held := true }).raiseBeat 0x2024
        { code := 0x2024, cls := 0 }
    else s
  | _, _ => s

def execVerdictLate (t : Nat) (s : State) : Host.Outcome State Fault Refusal := .next (applyVerdictLate t s)

/-! ### Slots -/

/-- Program-region offset at which a slot of an array or vector engine starts (R130). -/
def State.entryOf (s : State) (u o : UnitId) (op : Nat) : Nat :=
  let core := if o.cls = 1 then o.idx / 3 else o.idx
  let table := if u.cls = 1 then o.idx % 3 else 3
  match s.coreProg core with
  | some c => (c.entries.getD table []).getD op 0
  | none => 0

/-- A slot may start: its offset has passed, the work window has not ended, and no verdict holds it (R77, R81, R91,
R117). -/
def State.mayStart (s : State) (w : Win) (d : SlotDesc) (t : Nat) : Bool :=
  decide (w.start + d.start ≤ t) && !w.inGap && !w.holdAll && (!d.afterVerdict || s.released)

/-- The GSCALE word of the group that an update op works for, as the engine reads it when the slot starts: 1.0 where the group names none
(R271). -/
def State.slotScale (s : State) (n op : Nat) : Word × State :=
  let tensor : Option Tensor := match s.updCfg with
    | some c =>
      (((c.ops[op]?).bind fun o => c.shards[o.shard]?).bind fun h => c.groups[h.group]?).bind fun g => s.tensor g.gscale
    | none => none
  match tensor with
  | some x => (BitVec.ofNat 32 (fieldAt (s.view x.taddr 4) 0 4), s.touchRange (.update n) x.taddr 4)
  | none => (0x3F800000, s)

/-- SLOT_START: a unit starts the next slot of the lists that it runs (R77). An update engine's slot in a skipped step,
or after a fault of the window, has nothing to do (R256, R265) (log 116). A link slot whose role has neither a port nor a detour left makes the
device report FAULT (R444). -/
def applySlotStart (u : UnitId) (t : Nat) (s : State) : State :=
  match s.beat.win, s.nextSlot u with
  | some w, some (o, i, d) =>
    if (s.unit u).run.isSome || (s.unit u).fenced || !s.mayStart w d t then s
    else
      let idle := u.cls == 7 && (s.upd.skip || s.upd.stopped.contains u.idx)
      let g := if u.cls = 7 then s.slotScale u.idx d.op else (0, s)
      let s := g.2
      let r : RunSlot :=
        { owner := o, slot := i, pos := w.pos, beat := w.beat, op := d.op, plannedEnd := w.start + d.start + d.budget,
          started := t, ptr := s.entryOf u o d.op, ordinal := 0, wait := none, prog := 0, rest := [], gs := g.1, ended := idle }
      let s := (s.at t).setUnit o { s.unit o with next := i + 1 }
      let s := ((s.setUnit u { s.unit u with run := some r }).setPower u 0).showRun u
      if u.cls = 5 && s.roleStuck (s.portRole o.idx) then
        s.raise { code := 0x8010, cls := 1, unit := { typ := 10, idx := o.idx, sub := 255 }, place := some (r.pos, r.slot)
                  beat := some r.beat }
      else s
  | _, _ => s

def execSlotStart (u : UnitId) (t : Nat) (s : State) : Host.Outcome State Fault Refusal := .next (applySlotStart u t s)

/-- A slot ends at `t`: its window's margin, its window copies, its power state (R80, R341, R503) (log 116). -/
def State.endSlot (s : State) (u : UnitId) (r : RunSlot) (t : Nat) : State :=
  let s := s.setUnit u { s.unit u with run := none }
  let s := s.setWindow r.beat fun w => { w with margin := min w.margin ((w.gapStart : Int) - (t : Int)) }
  let s := s.expireCopies fun c => c.expires == some (r.owner, r.slot, r.beat)
  (s.showRun u).choosePower u t

/-- These errors mark the window FAULT, whether or not it is marked already. -/
def State.meetsFault (s : State) (c : ErrCtx) (beat : Nat) (errs : List HwErr) : Bool :=
  let s := (s.setWindow beat fun w => { w with fault := false }).hwErrors c 0 errs
  ((s.window beat).map (·.fault)).getD false

/-- Stop an engine after a fault: it starts no further chunk in the window and its slot ends (R265) (log 95). -/
def State.stopEngine (s : State) (n : Nat) : State :=
  let u : UnitId := { cls := 7, idx := n }
  let s := { s with upd := { s.upd with
    stopped := if s.upd.stopped.contains n then s.upd.stopped else n :: s.upd.stopped
    staged := s.upd.staged.filter fun x => !(x.eng == n) } }
  let s := s.setFld (Reg.updStatus n) 1 0 3
  match s.runOf u with
  | some r => s.endRunOf u r
  | none => s

/-- SLOT_END: the op of the slot has ended; a forager lane's slot ends with its budget, its sample suspended (R77,
R373). A slot whose write still waits for holding space has not ended (R99, R350). The errors that the unit met in the slot act first,
and a fault among them stops an update engine for the window (R265) (logs 2, 116). -/
def applySlotEnd (u : UnitId) (t : Nat) (errs : List HwErr) (s : State) : State :=
  match (s.unit u).run with
  | none => s
  | some r =>
    let lane := u.cls == 6 && decide (u.idx % 9 < 8)
    if !r.ended && !lane || s.tier.waits.any (·.unit == some u) then s
    else
      let c := s.errCtx u r
      let bad := u.cls == 7 && s.meetsFault c r.beat errs
      let s := (s.at t).hwErrors c r.core errs
      let s := if bad then s.stopEngine u.idx else s
      if (s.unit u).run.isSome then s.endSlot u r t else s

def execSlotEnd (u : UnitId) (t : Nat) (errs : List HwErr) (s : State) : Host.Outcome State Fault Refusal :=
  .next (applySlotEnd u t errs s)

/-- SLOT_HUNG: a slot still running one effective period after its planned end is stopped (R100, R264). -/
def applySlotHung (u : UnitId) (t : Nat) (s : State) : State :=
  match (s.unit u).run with
  | none => s
  | some r =>
    let period : Nat := match s.window r.beat with
      | some w => w.period
      | none => 0
    if t < r.plannedEnd + period then s
    else
      let c := s.errCtx u r
      let s := (s.at t).raise (c.ev 0x2023 1 (unitCode u c.phys))
      let s := { s with
        upd := { s.upd with staged := s.upd.staged.filter fun x => !(u.cls == 7 && x.eng == u.idx) }
        tier := { s.tier with waits := s.tier.waits.filter fun x => !(x.unit == some u) }
        host := { s.host with runs := s.host.runs.filter fun x => !(u.cls == 4 && x.engine == u.idx && !x.complete) } }
      let s := if u.cls = 4 then s.showCe u.idx else s
      if (s.unit u).run.isSome then s.endSlot u r t else s

def execSlotHung (u : UnitId) (t : Nat) (s : State) : Host.Outcome State Fault Refusal := .next (applySlotHung u t s)

/-! ### The mailbox -/

/-- Mailbox address in use of a port. -/
def State.mailAt (s : State) (p : HPort) : Option Nat :=
  match p with
  | .a => s.host.mailA
  | .b => s.host.mailB

/-- A read of the mailbox page: a CXL.cache read in CXL mode, else a plain one (R120, R488). -/
def State.readMailbox (s : State) (p : HPort) (a n : Nat) : State :=
  s.emit (if (s.hport p).cxl then .cxlRead p a n else .hostRead p a n none)

/-- MAILBOX_READ: CMD_SEQ, on the controlling port (R119, R120, R126, R494). -/
def applyMailboxRead (t : Nat) (s : State) : State :=
  let p := s.host.ctrl
  match s.mailAt p with
  | none => s
  | some a =>
    if s.running && !s.host.orphan && s.portUp p && s.beat.reading == 0 && s.beat.page.isNone then
      State.readMailbox { s.at t with beat := { s.beat with reading := 1 } } p a 4
    else s

def execMailboxRead (t : Nat) (s : State) : Host.Outcome State Fault Refusal := .next (applyMailboxRead t s)

/-- A mailbox read has failed; 64 failures in a row are an event of R493 (R122) (log 66). -/
def State.mailboxFails (s : State) : State :=
  let n := s.host.mailFails + 1
  let s := { s with beat := { s.beat with reading := 0 }
                    host := { s.host with mailFails := n, failing := s.host.failing || decide (64 ≤ n) } }
  s.raise { code := 0x2025, cls := 0, unit := { typ := 12, idx := portIdx s.host.ctrl, sub := 0 } }

/-- CMD_SEQ has come: the read of the rest of the page follows, where the mailbox is still in use (R120, R126). -/
def State.mailboxSeq (s : State) (b : Bytes) : State :=
  match s.mailAt s.host.ctrl with
  | some a => State.readMailbox { s with beat := { s.beat with reading := 2, cmdSeq := b } } s.host.ctrl (a + 4) 4092
  | none => { s with beat := { s.beat with reading := 0 } }

/-- The rest of the page has come: a CMD_SEQ that the device has not acted on waits for the next boundary (R121) (log 93). -/
def State.mailboxPage (s : State) (b : Bytes) : State :=
  let page := s.beat.cmdSeq ++ b
  let s := { s with beat := { s.beat with reading := 0 }, host := { s.host with mailFails := 0 } }
  if fieldAt page 0 4 = s.beat.cmdAck then s else { s with beat := { s.beat with page := some page } }

/-- MAILBOX_READ_COMPLETE: what the request under way has returned, or a failed read (R120 to R122). Of the bytes returned, those that
were asked for count: 4, then 4,092 (log 66). -/
def applyMailboxReadComplete (page : Option Bytes) (s : State) : State :=
  if s.beat.reading = 0 then s
  else
    match page with
    | none => s.mailboxFails
    | some b => if s.beat.reading = 1 then s.mailboxSeq (b.take 4) else s.mailboxPage (b.take 4092)

def execMailboxReadComplete (page : Option Bytes) (s : State) : Host.Outcome State Fault Refusal :=
  .next (applyMailboxReadComplete page s)

/-- The page that waits, when it holds this command and the device stands at a beat boundary: the running window has entered its gap and
the next has not started (R121) (log 93). -/
def State.pageFor (s : State) (cmd : Nat) : Option Bytes :=
  match s.beat.page, s.beat.win with
  | some p, some w => if pageCmd p = cmd ∧ s.running ∧ w.entered then some p else none
  | _, _ => none

/-- NOP: CMD_ACK advances (Table 2.10). -/
def applyNop (s : State) : State :=
  match s.pageFor 0 with
  | some p => s.doNop p
  | none => s

def execNop (s : State) : Host.Outcome State Fault Refusal := .next (applyNop s)

/-- SWITCH (R115, R116). -/
def applySwitch (s : State) : State :=
  match s.pageFor 1 with
  | some p => s.pageSwitch p
  | none => s

def execSwitch (s : State) : Host.Outcome State Fault Refusal := .next (applySwitch s)

/-- MAILBOX_STOP (Table 2.10). -/
def applyMailboxStop (s : State) : State :=
  match s.pageFor 2 with
  | some p => s.pageStop p
  | none => s

def execMailboxStop (s : State) : Host.Outcome State Fault Refusal := .next (applyMailboxStop s)

/-- ARGS: the page's arguments take effect at the first marker after the next commit (Table 2.10). -/
def applyArgs (s : State) : State :=
  match s.pageFor 3 with
  | some p => s.pageArgs p
  | none => s

def execArgs (s : State) : Host.Outcome State Fault Refusal := .next (applyArgs s)

end Sys2Proof.Machine
end

