-- ==== Sys2Proof/Machine/Master.lean ====
section
/-! DEFINITION. The commands of the cascade: marker issue, reports, lost members, synchronisation, adoption, hold and
resume, the loss of a master, and the receipt of control messages (R92, R312, R430 to R451, R609, R628). -/

namespace Sys2Proof.Machine

open Sys2Proof

/-! ### Issuing markers -/

/-- Header of a slot's fingering. -/
def State.hdrOf (s : State) (f : FSlot) : Option Header := (s.fingOf f).map (·.hdr)

/-- Cycles that will be complete when the window of the last marker has committed. -/
def State.cycleAfter (s : State) (last : Nat) : Nat :=
  s.beat.cycle + s.pendingEnds last + (s.beat.markers.filter fun m => m.planPos == last && m.epoch == s.casc.epoch).length

/-- Slot and position that follow the last marker issued, and the slot's header: a switch at the boundary counts from
position 0 of its target (R115, R117). -/
def State.following (s : State) (m : DueMarker) : Option (FSlot × Nat × Header) :=
  match s.hdrOf s.casc.lastSlot with
  | none => none
  | some h =>
    if m.planPos + 1 < h.planLen then some (s.casc.lastSlot, m.planPos + 1, h)
    else
      match s.switchDue (s.cycleAfter m.planPos) with
      | some f => if (s.slot f).state = 2 then (s.hdrOf f).map fun g => (f, 0, g) else some (s.casc.lastSlot, 0, h)
      | none => some (s.casc.lastSlot, 0, h)

/-- Issue a marker: to the cascade and to this device (R433). -/
def State.sendMarker (s : State) (m : DueMarker) (slot : FSlot) (period t : Nat) : State :=
  let msg : CtlMsg := { s.blankMsg 1 with
    flags := s.issueFlags, stretch := m.stretch, beat := m.beat, offset := (m.at_ : Int) - (t : Int), planPos := m.planPos }
  let s := s.spread msg
  { s with
    beat := { s.beat with markers := s.beat.markers ++ [m] }
    casc := { s.casc with lastMark := some m, lastPeriod := period, lastSlot := slot } }

/-- MARKER_ISSUE: 20,000 ns before its instant, one effective period after the last window start (R433, R435). -/
def applyMarkerIssue (t : Nat) (s : State) : State :=
  match s.casc.lastMark with
  | none => s
  | some last =>
    let inst := last.at_ + s.casc.lastPeriod
    if !s.isMaster || s.runSlot.isNone || s.casc.hold || decide (t + 20000 < inst) then s
    else
      match s.following last with
      | none => s
      | some x =>
        let k := (s.at t).chooseStretch
        let m : DueMarker :=
          { beat := last.beat + 1, at_ := inst, stretch := k.1, planPos := x.2.1, epoch := s.casc.issueEpoch }
        k.2.sendMarker m x.1 (effPeriod x.2.2 k.1 x.2.1) t

def execMarkerIssue (t : Nat) (s : State) : Host.Outcome State Fault Refusal := .next (applyMarkerIssue t s)

/-! ### Reports and losses -/

/-- A REPORT arrives: master and backup hold it; the master judges once it holds all (R436). -/
def State.takeReport (s : State) (m : CtlMsg) (t : Nat) : State :=
  let role := s.fld Reg.beatCtl 1 0
  if (role ≠ 2 ∧ role ≠ 3) ∨ s.runSlot.isNone ∨ s.casc.lost.contains m.coord ∨ !(s.members.contains m.coord) then s
  else ((s.at t).holdReport (heldReport m t)).tryJudge t

/-- A member's report is overdue (R446): two effective periods from the gap start, or, when its twin reports
PARTNER_LOST and every other report is there, 2,000 ns after the last of them. -/
def State.overdue (s : State) (w : Win) (c : Coord) (t : Nat) : Bool :=
  let rs := s.casc.reports.filter fun r => r.beat == w.beat
  decide (w.gapStart + 2 * w.period ≤ t)
    || ((rs.any fun r => r.partner == some c) && decide (s.missing w.beat = [c]) && rs.all fun r => decide (r.at_ + 2000 ≤ t))

/-- MEMBER_LOST_TIMEOUT (R446). -/
def applyMemberLostTimeout (member t : Nat) (s : State) : State :=
  let c := s.memberAt member
  match s.unjudged with
  | none => s
  | some w =>
    if s.isMaster && decide (c ≠ s.self) && (s.missing w.beat).contains c && s.overdue w c t then
      ({ s.at t with casc := { (s.at t).casc with dead := s.casc.dead ++ [c] } }).tryJudge t
    else s

def execMemberLostTimeout (member t : Nat) (s : State) : Host.Outcome State Fault Refusal :=
  .next (applyMemberLostTimeout member t s)

/-- RETIRE (R448): at the next verdict, or ignored with 0x8052; a device that is not the master ignores it. -/
def applyRetire (c : Coord) (s : State) : State :=
  if !s.writeOpen Reg.cascadeCmd || !s.isMaster then s
  else if !(s.members.contains c) || decide (c = s.self) || s.casc.lost.contains c || s.casc.retire.isSome then
    s.raise { code := 0x8052, cls := 0 }
  else { s with casc := { s.casc with retire := some c } }

def execRetire (coord : Coord) (s : State) : Host.Outcome State Fault Refusal := .next (applyRetire coord s)

/-- PARTNER_LOST (R308, R445): no frame from the twin for 2,000 ns. -/
def applyPartnerLost (t : Nat) (s : State) : State :=
  match s.route, s.beat.win with
  | some r, some w =>
    if decide (r.twin = 0xFFFFFFFF) || s.casc.partner || s.casc.lost.contains (unpackCoord r.twin) then s
    else
      let s := (s.at t).setWindow w.beat fun w => { w with fault := true }
      ({ s with casc := { s.casc with partner := true } }).raise { code := 0x5043, cls := 3 }
  | _, _ => s

def execPartnerLost (t : Nat) (s : State) : Host.Outcome State Fault Refusal := .next (applyPartnerLost t s)

/-- The verdict that a window waits for has not come. -/
def State.waitsFor (s : State) (w : Win) : Bool := !(s.beat.due.any fun d => d.beat == w.beat)

/-- MASTER_LOST (R92): two effective periods after the marker that follows a window, its verdict has not come. The periods are those of
the window that waits for its verdict (log 122). -/
def applyMasterLost (t : Nat) (s : State) : State :=
  match s.beat.prev with
  | w :: _ =>
    if !s.isMaster && s.casc.masterGone.isNone && s.waitsFor w && decide (w.start + 3 * w.period ≤ t) then
      { s.at t with casc := { (s.at t).casc with masterGone := some t } }
    else s
  | [] => s

def execMasterLost (t : Nat) (s : State) : Host.Outcome State Fault Refusal := .next (applyMasterLost t s)

/-- The backup takes the role of master (R451) (log 89). -/
def State.assumeMaster (s : State) : State :=
  let s := s.setFld Reg.beatCtl 1 0 2
  let s := (s.newMaster s.myIdx).raise { code := 0x8040, cls := 0 }
  { s with casc := { s.casc with issueEpoch := s.casc.epoch, masterGone := none } }

/-- BACKUP_ASSUMES_MASTERSHIP (R451): the master is lost as the backup's partner and its verdict is 1,000 ns late, or the
backup meets R92. The verdict names the former master. -/
def applyBackupAssumesMastership (t : Nat) (s : State) : State :=
  match s.judged, s.casc.master with
  | some w, some old =>
    let late := s.casc.partner && s.waitsFor w && decide (s.verdictAt w + 1000 ≤ t)
    if decide (s.fld Reg.beatCtl 1 0 = 3) && (late || s.casc.masterGone.isSome) then
      let s := (s.at t).assumeMaster
      let least := (leastMargin (s.casc.reports.filter fun r => r.beat == w.beat) s.members).getD (w.margin, s.self)
      s.judgeLoss w t least.1 least.2 old false
    else s
  | _, _ => s

def execBackupAssumesMastership (t : Nat) (s : State) : Host.Outcome State Fault Refusal :=
  .next (applyBackupAssumesMastership t s)

/-- MASTER_AND_BACKUP_LOST (R451): two more effective periods without a message of the backup end the run in a hold (log 89). -/
def applyMasterAndBackupLost (t : Nat) (s : State) : State :=
  match s.casc.masterGone, s.judged with
  | some g, some w =>
    if decide (g + 2 * w.period ≤ t) then
      let s := (s.at t).replayEffects w
      let s := s.raise { code := 0x8041, cls := 4 }
      { s with casc := { s.casc with hold := true } }
    else s
  | _, _ => s

def execMasterAndBackupLost (t : Nat) (s : State) : Host.Outcome State Fault Refusal :=
  .next (applyMasterAndBackupLost t s)

/-! ### Synchronisation -/

/-- Start the SYNC sequence: 16 messages with instants 50,000 ns apart, the first 50,000 ns away (R437) (log 65). -/
def State.startSync (s : State) (t : Nat) : State :=
  let s := (List.range 16).foldl (fun (s : State) (i : Nat) =>
    s.spread { s.blankMsg 5 with offset := ((50000 * (i + 1) : Nat) : Int) }) s
  { s with casc := { s.casc with
      results := [], past := [], edges := [], instants := (List.range 16).map fun i => t + 50000 * (i + 1) } }

/-- A JOIN arrives (R437, R450): the master acts on it, and the backup notes it. -/
def State.takeJoin (s : State) (m : CtlMsg) (t : Nat) : State :=
  if !s.isMaster then
    if s.fld Reg.beatCtl 1 0 = 3 ∧ m.flags % 2 = 0 ∧ s.members.contains m.coord ∧ !(s.casc.joins.contains m.coord) then
      { s with casc := { s.casc with joins := s.casc.joins ++ [m.coord] } }
    else s
  else if m.flags % 2 = 1 then
    if s.casc.lost.contains m.coord then
      let s := ((s.at t).raise { code := 0x8051, cls := 0 }).controlTo m.coord (s.blankMsg 8)
      let s := { s with casc := { s.casc with admitted := m.coord :: s.casc.admitted.filter fun c => !(c == m.coord) } }
      if s.casc.hold then s.startSync t else s
    else s
  else if s.beat.waiting && s.members.contains m.coord && !(s.casc.joins.contains m.coord) then
    let s := { s.at t with casc := { (s.at t).casc with joins := s.casc.joins ++ [m.coord] } }
    if s.members.all fun c => s.casc.joins.contains c then s.startSync t else s
  else s

/-- JOIN_TIMEOUT (R437): the master goes on waiting (log 91). -/
def applyJoinTimeout (t : Nat) (s : State) : State :=
  if s.isMaster && s.beat.waiting && !(s.members.all fun c => s.casc.joins.contains c) then
    (s.at t).raise { code := 0x8030, cls := 0 }
  else s

def execJoinTimeout (t : Nat) (s : State) : Host.Outcome State Fault Refusal := .next (applyJoinTimeout t s)

/-- The first marker after a synchronisation (R437). -/
def State.firstMarker (s : State) (t : Nat) : State :=
  match s.runSlot with
  | none => s
  | some f =>
    match s.hdrOf f with
    | none => s
    | some h =>
      let m : DueMarker :=
        { beat := s.pair Reg.beatCountLo + 1, at_ := t + 20000, stretch := 0, planPos := 0, epoch := s.casc.issueEpoch }
      s.sendMarker m f (effPeriod h 0 0) t

/-- The master holds a SYNC_RESULT; with all of them it issues the first marker, or repeats up to three times (R437). -/
def State.noteResult (s : State) (c : Coord) (ok : Bool) (t : Nat) : State :=
  let rs := (s.casc.results.filter fun (x : Coord × Bool) => !(x.1 == c)) ++ [(c, ok)]
  let s := { s with casc := { s.casc with results := rs } }
  if !(s.members.all fun c => rs.any fun x => x.1 == c) then s
  else if rs.all fun (x : Coord × Bool) => x.2 then
    ({ s with casc := { s.casc with results := [], tries := 0 } }).firstMarker t
  else
    let n := s.casc.tries + 1
    let s := { s with casc := { s.casc with tries := n, results := [] } }
    if 4 ≤ n then s.raise { code := 0x8032, cls := 4 }
    else (s.raise { code := 0x8031, cls := 0 }).startSync t

/-- Send SYNC_RESULT to master and backup, or hold it as the master; a device with a mismatch measures its port latencies again (R437). -/
def State.sendResult (s : State) (ok : Bool) (t : Nat) : State :=
  let s := { s with casc := { s.casc with past := [], edges := [] } }
  let s := if ok then s
    else (List.range 32).foldl (fun s q => if s.portUsable q then s.emit (.frame q (s.linkFrame 6 0 0 [])) else s)
      (s.setBit Reg.syncStatus 21 true)
  let m : CtlMsg := { s.blankMsg 6 with flags := if ok then 1 else 0, coord := s.self }
  if s.isMaster then (s.controlUp m).noteResult s.self ok t else s.controlUp m

/-- Two instants differ by at most 200 ns. -/
def near (a b : Int) : Bool := decide (a - b ≤ 200) && decide (b - a ≤ 200)

/-- SB_DELAY. -/
def State.sbDelay (s : State) : Nat := s.fld Reg.cascadeCtl 15 4

/-- Every edge, less SB_DELAY, lies at its instant (log 65). -/
def State.edgesMatch (s : State) : Bool :=
  (s.casc.past.zip s.casc.edges).all fun (x : Nat × Nat) => near x.1 ((x.2 : Int) - (s.sbDelay : Int))

/-- After the sixteenth SYNC: the result, once the edges have come or cannot come any more. Without SB_REQ it is OK
without a comparison (log 65). -/
def State.finishSync (s : State) (t : Nat) : State :=
  if s.casc.past.length < 16 || !s.casc.instants.isEmpty || s.bit Reg.cascadeCoord 30 || !s.beat.waiting then s
  else if !s.bit Reg.cascadeCtl 0 then s.sendResult true t
  else if 16 ≤ s.casc.edges.length then s.sendResult s.edgesMatch t
  else if s.casc.past.getLast?.getD 0 + 4295 ≤ t then s.sendResult false t
  else s

/-- SYNC: at a SYNC instant the device pulses BEAT_OUT (R437). -/
def applySync (t : Nat) (s : State) : State :=
  match s.casc.instants with
  | i :: rest =>
    if i ≤ t then
      let s := (s.at t).emit (.beatOut i)
      ({ s with casc := { s.casc with instants := rest, past := s.casc.past ++ [i] } }).finishSync t
    else s
  | [] => (s.at t).finishSync t

def execSync (t : Nat) (s : State) : Host.Outcome State Fault Refusal := .next (applySync t s)

/-- An adopting spare whose copy is complete and whose beat is matched sends READY once (R450) (log 90). -/
def State.tryReady (s : State) : State :=
  let full : Bool := match s.fing with
    | some g => g.tensors.all fun t => !t.mirrored || decide (t.size ≤ (getKey s.casc.copied t.id).getD 0)
    | none => false
  if s.casc.adopting.isSome && s.bit Reg.cascadeCoord 30 && s.bit Reg.beatCtl 3 && full && s.casc.readys.isEmpty then
    let s := { s with casc := { s.casc with readys := [s.self] } }
    s.controlUp { s.blankMsg 9 with coord := s.self }
  else s

/-- A BEAT_IN edge of an adopting spare against its marker and SYNC instants (R450). -/
def State.adoptEdge (s : State) (e : Int) : State :=
  let hit := (s.casc.past ++ s.casc.instants).any fun i => near i e
  let n := if hit then min 16 (s.fld Reg.syncStatus 20 16 + 1) else 0
  let s := s.setFld Reg.syncStatus 20 16 n
  let s := if hit then s else s.setBit Reg.syncStatus 21 true
  if n = 16 then (s.setBit Reg.beatCtl 3 true).tryReady else s

/-- A BEAT_IN edge during synchronisation (R437) (logs 65, 94). -/
def State.syncEdge (s : State) (t : Nat) : State :=
  let i := s.casc.edges.length - 1
  let hit : Bool := match (s.casc.past ++ s.casc.instants)[i]? with
    | some inst => near inst ((t : Int) - (s.sbDelay : Int))
    | none => false
  let s := s.setFld Reg.syncStatus 20 16 (if hit then min 16 (s.fld Reg.syncStatus 20 16 + 1) else 0)
  (if hit then s else s.setBit Reg.syncStatus 21 true).finishSync t

/-- BEAT_IN_EDGE (R437, R438, R609): after SYNCED it is ignored, except while the device adopts a coordinate (R438). -/
def applyBeatInEdge (t : Nat) (s : State) : State :=
  let soon : Bool := match s.casc.edges.getLast? with
    | some e => decide (t < e + 200)
    | none => false
  if soon || (s.bit Reg.beatCtl 3 && !s.bit Reg.cascadeCoord 30) || s.runSlot.isNone
      || decide (s.members.length ≤ 1) || !s.bit Reg.cascadeCtl 0 then s
  else
    let s := { s.at t with casc := { (s.at t).casc with edges := s.casc.edges ++ [t] } }
    if s.bit Reg.cascadeCoord 30 then
      if s.casc.adopting.isSome then s.adoptEdge ((t : Int) - (s.sbDelay : Int)) else s
    else if (s.casc.past ++ s.casc.instants).isEmpty then { s with casc := { s.casc with edges := [] } }
    else s.syncEdge t

def execBeatInEdge (t : Nat) (s : State) : Host.Outcome State Fault Refusal := .next (applyBeatInEdge t s)

/-- A SYNC_RESULT arrives (R437). -/
def State.takeResult (s : State) (m : CtlMsg) (t : Nat) : State :=
  if !s.isMaster ∨ !s.beat.waiting ∨ !(s.members.contains m.coord) then s
  else (s.at t).noteResult m.coord (decide (m.flags % 2 = 1)) t

/-! ### Adoption, hold and resume -/

/-- An ADMIT arrives (R450): the spare begins to match BEAT_IN edges and takes its epoch from the next MARKER or RESUME (R628). -/
def State.takeAdmit (s : State) (t : Nat) : State :=
  if !s.bit Reg.cascadeCoord 30 ∨ s.runSlot.isNone then s
  else
    let s := (s.at t).setFld Reg.syncStatus 20 16 0
    { s with casc := { s.casc with adopting := some s.self, admitted := [s.self], edges := [], past := [], instants := [] } }

/-- Resume position (R312): the lost beat's position when the VOTE_POS verdict of the cycle has applied, else 0 (log 92). -/
def State.resumePos (s : State) : Nat :=
  match s.updCfg with
  | some u => if u.votePos < s.beat.nextPos then s.beat.nextPos else 0
  | none => 0

/-- The master ends the hold with RESUME (R449) (log 90). -/
def State.sendResume (s : State) (t : Nat) : State :=
  match s.runSlot.bind s.hdrOf with
  | none => s
  | some h =>
    let pos := s.resumePos
    let s := { s with casc := { s.casc with issueEpoch := (s.casc.issueEpoch + 1) % 16 } }
    let m : DueMarker :=
      { beat := s.pair Reg.beatCountLo + 1, at_ := t + 20000, stretch := 0, planPos := pos, epoch := s.casc.issueEpoch }
    let s := s.spread { s.blankMsg 7 with
      flags := 16 * s.casc.issueEpoch, beat := m.beat, offset := 20000, planPos := pos }
    { s with casc := { s.casc with
        resume := some m, lastMark := some m, lastPeriod := effPeriod h 0 pos, lastSlot := (s.runSlot).getD .a } }

/-- A READY arrives at the master or the backup (R450): under hold the master answers with RESUME once every lost coordinate is ready;
under takeover the next STEP_POS verdict hands back (log 90). -/
def State.takeReady (s : State) (m : CtlMsg) (t : Nat) : State :=
  if s.fld Reg.beatCtl 1 0 < 2 ∨ !(s.casc.lost.contains m.coord) ∨ s.casc.readys.contains m.coord then s
  else
    let s := { s.at t with casc := { (s.at t).casc with readys := s.casc.readys ++ [m.coord] } }
    if s.isMaster && s.casc.hold && s.casc.lost.all (fun c => s.casc.readys.contains c) then s.sendResume t else s

/-- Clear TOUCH of every WGA tile (R312). -/
def State.clearTouch (s : State) : State :=
  { s with cores := { s.cores with wga := s.cores.wga.map fun (w : WgaTile) => { w with touch := false } } }

/-- RESUME: at its instant the device leaves the hold and starts the named window (R312, R449). -/
def applyResume (t : Nat) (s : State) : State :=
  match s.casc.resume, s.runSlot with
  | some m, some f =>
    if t < m.at_ then s
    else
      let s := { s.at t with casc := { (s.at t).casc with resume := none, hold := false, epoch := m.epoch, adopting := none } }
      let s := (s.allBack).clearTouch
      let s := { s with beat := { s.beat with nextPos := m.planPos, prev := [], win := none, due := [] } }
      (s.setBit Reg.beatCtl 3 true).startWindow f m.beat t 0 m.planPos 0 none false
  | _, _ => s

def execResume (t : Nat) (s : State) : Host.Outcome State Fault Refusal := .next (applyResume t s)

/-! ### Receipt of control messages -/

/-- An adopting spare takes its epoch from the first MARKER or RESUME after ADMIT (R628), and keeps the instants of
markers to match edges with (R450) (log 90). -/
def State.adoptEpoch (s : State) (m : CtlMsg) (inst : Nat) : State :=
  if s.casc.adopting.isNone then s
  else
    let s := if s.casc.admitted.isEmpty then s
      else { s with casc := { s.casc with epoch := m.flags / 16, admitted := [] } }
    { s with casc := { s.casc with past := s.casc.past ++ [inst] } }

/-- A MARKER as received (R433, R434): the control path, and the window that it will start, once however many ways it comes. -/
def State.takeMarker (s : State) (m : CtlMsg) (t : Nat) : State :=
  let path := (20000 - m.offset).toNat
  let first := !s.bit Reg.beatCtl 3 && !s.bit Reg.cascadeCoord 30
  let s := s.setFld Reg.syncStatus 15 0 (min path 0xFFFF)
  if first && decide (16000 < path) then s.raise { code := 0x8023, cls := 4, info1 := path }
  else
    let d : DueMarker :=
      { beat := m.beat, at_ := dueAt m t, stretch := m.stretch, planPos := m.planPos, epoch := m.flags / 16 }
    if s.beat.markers.any fun x => x.beat == d.beat && x.epoch == d.epoch then s
    else
      let s := s.adoptEpoch m (dueAt m t)
      { s with beat := { s.beat with markers := s.beat.markers ++ [d] }, casc := { s.casc with masterGone := none } }

/-- What a received message schedules (log 88). -/
def State.takeMessage (s : State) (m : CtlMsg) (t : Nat) : State :=
  if m.kind = 1 then s.takeMarker m t
  else if m.kind = 2 then s.takeVerdict m t
  else if m.kind = 5 then { s with casc := { s.casc with instants := s.casc.instants ++ [dueAt m t] } }
  else
    let d : DueMarker :=
      { beat := m.beat, at_ := dueAt m t, stretch := 0, planPos := m.planPos, epoch := m.flags / 16 }
    let s := s.adoptEpoch m (dueAt m t)
    { s with casc := { s.casc with resume := some d } }

/-- A message of the broadcast tree has come for place `place`, its OFFSET less the ingress latency: it goes on less the residence time
(R432), and this device acts on it when its own place is among those that it fills from there (logs 87, 88). -/
def State.takeTreeMsg (s : State) (r : Route) (place : Coord) (m : CtlMsg) (residence t : Nat) : State :=
  let on : CtlMsg := { m with offset := m.offset - (residence : Int) }
  if (s.treeNodes r (s.memberAt m.issuer) 3 place).contains s.self then
    match s.heed m with
    | none => s
    | some s => (((s.at t).spreadFrom place on).noteLate m).takeMessage m t
  else s.spreadFrom place on

/-- A message to one coordinate has come to it (R436, R437, R450). -/
def State.takeUnicast (s : State) (m : CtlMsg) (t : Nat) : State :=
  match m.kind with
  | 3 => s.takeReport m t
  | 4 => s.takeJoin m t
  | 6 => s.takeResult m t
  | 8 => s.takeAdmit t
  | 9 => s.takeReady m t
  | _ => s

end Sys2Proof.Machine
end

