-- ==== Sys2Proof/Machine/Sfu.lean ====
section
/-! DEFINITION. The reference special functions of R231: exp, log, rcp, rsqrt, sin and cos, with the tables of
Table 5.3. The table entries are the roundings that Table 5.3 defines, worked out from those definitions. -/

namespace Sys2Proof.Machine

open Sys2Proof

/-- TE[i] = rne(2^(i/64)). -/
def sfuTE : List Word := [
  0x3F800000, 0x3F8164D2, 0x3F82CD87, 0x3F843A29, 0x3F85AAC3, 0x3F871F62, 0x3F88980F, 0x3F8A14D5,
  0x3F8B95C2, 0x3F8D1ADF, 0x3F8EA43A, 0x3F9031DC, 0x3F91C3D3, 0x3F935A2B, 0x3F94F4F0, 0x3F96942D,
  0x3F9837F0, 0x3F99E046, 0x3F9B8D3A, 0x3F9D3EDA, 0x3F9EF532, 0x3FA0B051, 0x3FA27043, 0x3FA43516,
  0x3FA5FED7, 0x3FA7CD94, 0x3FA9A15B, 0x3FAB7A3A, 0x3FAD583F, 0x3FAF3B79, 0x3FB123F6, 0x3FB311C4,
  0x3FB504F3, 0x3FB6FD92, 0x3FB8FBAF, 0x3FBAFF5B, 0x3FBD08A4, 0x3FBF179A, 0x3FC12C4D, 0x3FC346CD,
  0x3FC5672A, 0x3FC78D75, 0x3FC9B9BE, 0x3FCBEC15, 0x3FCE248C, 0x3FD06334, 0x3FD2A81E, 0x3FD4F35B,
  0x3FD744FD, 0x3FD99D16, 0x3FDBFBB8, 0x3FDE60F5, 0x3FE0CCDF, 0x3FE33F89, 0x3FE5B907, 0x3FE8396A,
  0x3FEAC0C7, 0x3FED4F30, 0x3FEFE4BA, 0x3FF28177, 0x3FF5257D, 0x3FF7D0DF, 0x3FFA83B3, 0x3FFD3E0C ]

/-- TL[j] = rne(ln c_j), c_j = 1 + (2j + 1)/128. -/
def sfuTL : List Word := [
  0x3BFF0153, 0x3CBDC8D8, 0x3D1CF43E, 0x3D5A16EC, 0x3D8B29B7, 0x3DA8D83A, 0x3DC61A2F, 0x3DE2F2A4,
  0x3DFF648A, 0x3E0DB957, 0x3E1B8FE1, 0x3E29372F, 0x3E36B07F, 0x3E43FD03, 0x3E511DE1, 0x3E5E1434,
  0x3E6AE10B, 0x3E77856E, 0x3E82012D, 0x3E882C60, 0x3E8E44C6, 0x3E944AD1, 0x3E9A3EED, 0x3EA02184,
  0x3EA5F2FD, 0x3EABB3B9, 0x3EB16418, 0x3EB70475, 0x3EBC952B, 0x3EC2168F, 0x3EC788F4, 0x3ECCECAC,
  0x3ED24205, 0x3ED7894A, 0x3EDCC2C5, 0x3EE1EEBD, 0x3EE70D78, 0x3EEC1F39, 0x3EF12441, 0x3EF61CCF,
  0x3EFB0920, 0x3EFFE970, 0x3F025EFD, 0x3F04C37A, 0x3F07224C, 0x3F097B8D, 0x3F0BCF56, 0x3F0E1DC1,
  0x3F1066E7, 0x3F12AADE, 0x3F14E9C0, 0x3F1723A2, 0x3F19589A, 0x3F1B88BE, 0x3F1DB422, 0x3F1FDADC,
  0x3F21FCFF, 0x3F241A9F, 0x3F2633CD, 0x3F28489E, 0x3F2A5923, 0x3F2C656E, 0x3F2E6D8F, 0x3F307198 ]

/-- TR[j] = rne(1/c_j). -/
def sfuTR : List Word := [
  0x3F7E03F8, 0x3F7A232D, 0x3F76603E, 0x3F72B9D6, 0x3F6F2EB7, 0x3F6BBDB3, 0x3F6865AC, 0x3F652598,
  0x3F61FC78, 0x3F5EE95C, 0x3F5BEB62, 0x3F5901B2, 0x3F562B81, 0x3F53680D, 0x3F50B6A0, 0x3F4E168A,
  0x3F4B8728, 0x3F4907DA, 0x3F46980C, 0x3F443730, 0x3F41E4BC, 0x3F3FA030, 0x3F3D6910, 0x3F3B3EE7,
  0x3F392144, 0x3F370FBB, 0x3F3509E7, 0x3F330F63, 0x3F311FD4, 0x3F2F3ADE, 0x3F2D602B, 0x3F2B8F6A,
  0x3F29C84A, 0x3F280A81, 0x3F2655C4, 0x3F24A9CF, 0x3F23065E, 0x3F216B31, 0x3F1FD80A, 0x3F1E4CAD,
  0x3F1CC8E1, 0x3F1B4C70, 0x3F19D723, 0x3F1868C8, 0x3F17012E, 0x3F15A025, 0x3F144581, 0x3F12F114,
  0x3F11A2B4, 0x3F105A38, 0x3F0F177A, 0x3F0DDA52, 0x3F0CA29C, 0x3F0B7034, 0x3F0A42F8, 0x3F091AC7,
  0x3F07F781, 0x3F06D905, 0x3F05BF37, 0x3F04A9FA, 0x3F039930, 0x3F028CC0, 0x3F01848E, 0x3F008081 ]

/-- TQ[j] = rne(1/(1 + (2j + 1)/256)), j below 64. -/
def sfuTQ0 : List Word := [
  0x3F7F00FF, 0x3F7D08E5, 0x3F7B1885, 0x3F792FB2, 0x3F774E40, 0x3F757404, 0x3F73A0D5, 0x3F71D48C,
  0x3F700F01, 0x3F6E500F, 0x3F6C9791, 0x3F6AE564, 0x3F693965, 0x3F679373, 0x3F65F36D, 0x3F645933,
  0x3F62C4A7, 0x3F6135AA, 0x3F5FAC1F, 0x3F5E27EB, 0x3F5CA8F1, 0x3F5B2F17, 0x3F59BA42, 0x3F584A5A,
  0x3F56DF44, 0x3F5578E9, 0x3F541733, 0x3F52BA08, 0x3F516154, 0x3F500D01, 0x3F4EBCF9, 0x3F4D7127,
  0x3F4C2978, 0x3F4AE5D8, 0x3F49A634, 0x3F486A79, 0x3F473294, 0x3F45FE74, 0x3F44CE08, 0x3F43A13E,
  0x3F427806, 0x3F415250, 0x3F40300C, 0x3F3F112B, 0x3F3DF59D, 0x3F3CDD53, 0x3F3BC841, 0x3F3AB656,
  0x3F39A786, 0x3F389BC3, 0x3F379301, 0x3F368D31, 0x3F358A48, 0x3F348A3A, 0x3F338CFA, 0x3F32927C,
  0x3F319AB6, 0x3F30A59B, 0x3F2FB322, 0x3F2EC33E, 0x3F2DD5E6, 0x3F2CEB10, 0x3F2C02B0, 0x3F2B1CBE ]

/-- TQ[j], j from 64. -/
def sfuTQ1 : List Word := [
  0x3F2A392F, 0x3F2957FB, 0x3F287917, 0x3F279C7B, 0x3F26C21E, 0x3F25E9F7, 0x3F2513FD, 0x3F244029,
  0x3F236E72, 0x3F229ECF, 0x3F21D13A, 0x3F2105A9, 0x3F203C17, 0x3F1F747A, 0x3F1EAECD, 0x3F1DEB07,
  0x3F1D2922, 0x3F1C6917, 0x3F1BAADF, 0x3F1AEE73, 0x3F1A33CD, 0x3F197AE7, 0x3F18C3BB, 0x3F180E41,
  0x3F175A75, 0x3F16A850, 0x3F15F7CC, 0x3F1548E5, 0x3F149B93, 0x3F13EFD2, 0x3F13459C, 0x3F129CEC,
  0x3F11F5BD, 0x3F115009, 0x3F10ABCC, 0x3F100901, 0x3F0F67A2, 0x3F0EC7AB, 0x3F0E2918, 0x3F0D8BE3,
  0x3F0CF009, 0x3F0C5584, 0x3F0BBC51, 0x3F0B246B, 0x3F0A8DCD, 0x3F09F874, 0x3F09645C, 0x3F08D181,
  0x3F083FDE, 0x3F07AF70, 0x3F072033, 0x3F069223, 0x3F06053C, 0x3F05797C, 0x3F04EEDD, 0x3F04655E,
  0x3F03DCF9, 0x3F0355AD, 0x3F02CF75, 0x3F024A4E, 0x3F01C636, 0x3F014328, 0x3F00C122, 0x3F004020 ]

/-- TS[j] = rne((1 + (2j + 1)/64)^(-1/2)). -/
def sfuTS : List Word := [
  0x3F7E05EC, 0x3F7A33F9, 0x3F768CDC, 0x3F730D8A, 0x3F6FB345, 0x3F6C7B90, 0x3F69642A, 0x3F666B02,
  0x3F638E39, 0x3F60CC16, 0x3F5E2305, 0x3F5B9193, 0x3F59166B, 0x3F56B051, 0x3F545E22, 0x3F521ED0,
  0x3F4FF162, 0x3F4DD4ED, 0x3F4BC89B, 0x3F49CBA2, 0x3F47DD45, 0x3F45FCD6, 0x3F4429AF, 0x3F426337,
  0x3F40A8DE, 0x3F3EFA1C, 0x3F3D5671, 0x3F3BBD67, 0x3F3A2E8C, 0x3F38A975, 0x3F372DBF, 0x3F35BB09,
  0x3F3450FC, 0x3F32EF41, 0x3F319589, 0x3F304387, 0x3F2EF8F2, 0x3F2DB587, 0x3F2C7904, 0x3F2B432A,
  0x3F2A13C0, 0x3F28EA8C, 0x3F27C759, 0x3F26A9F4, 0x3F25922C, 0x3F247FD3, 0x3F2372BD, 0x3F226ABE,
  0x3F2167AF, 0x3F206968, 0x3F1F6FC4, 0x3F1E7AA0, 0x3F1D89D9, 0x3F1C9D4E, 0x3F1BB4E1, 0x3F1AD073,
  0x3F19EFE6, 0x3F191320, 0x3F183A05, 0x3F17647C, 0x3F16926C, 0x3F15C3BC, 0x3F14F857, 0x3F143026,
  0x3F136B13, 0x3F12A90B, 0x3F11E9F9, 0x3F112DCA, 0x3F10746D, 0x3F0FBDCE, 0x3F0F09DD, 0x3F0E5889,
  0x3F0DA9C2, 0x3F0CFD79, 0x3F0C539F, 0x3F0BAC25, 0x3F0B06FD, 0x3F0A641A, 0x3F09C36D, 0x3F0924EC,
  0x3F088889, 0x3F07EE37, 0x3F0755ED, 0x3F06BF9E, 0x3F062B40, 0x3F0598C7, 0x3F05082A, 0x3F04795F,
  0x3F03EC5C, 0x3F036117, 0x3F02D788, 0x3F024FA6, 0x3F01C967, 0x3F0144C4, 0x3F00C1B4, 0x3F004030 ]

/-- TSIN[i] = rne(sin(i pi/32)). -/
def sfuTSin : List Word := [
  0x00000000, 0x3DC8BD36, 0x3E47C5C2, 0x3E94A031, 0x3EC3EF15, 0x3EF15AEA, 0x3F0E39DA, 0x3F226799,
  0x3F3504F3, 0x3F45E403, 0x3F54DB31, 0x3F61C598, 0x3F6C835E, 0x3F74FA0B, 0x3F7B14BE, 0x3F7EC46D,
  0x3F800000, 0x3F7EC46D, 0x3F7B14BE, 0x3F74FA0B, 0x3F6C835E, 0x3F61C598, 0x3F54DB31, 0x3F45E403,
  0x3F3504F3, 0x3F226799, 0x3F0E39DA, 0x3EF15AEA, 0x3EC3EF15, 0x3E94A031, 0x3E47C5C2, 0x3DC8BD36,
  0x00000000, 0xBDC8BD36, 0xBE47C5C2, 0xBE94A031, 0xBEC3EF15, 0xBEF15AEA, 0xBF0E39DA, 0xBF226799,
  0xBF3504F3, 0xBF45E403, 0xBF54DB31, 0xBF61C598, 0xBF6C835E, 0xBF74FA0B, 0xBF7B14BE, 0xBF7EC46D,
  0xBF800000, 0xBF7EC46D, 0xBF7B14BE, 0xBF74FA0B, 0xBF6C835E, 0xBF61C598, 0xBF54DB31, 0xBF45E403,
  0xBF3504F3, 0xBF226799, 0xBF0E39DA, 0xBEF15AEA, 0xBEC3EF15, 0xBE94A031, 0xBE47C5C2, 0xBDC8BD36 ]

/-- TCOS[i] = rne(cos(i pi/32)). -/
def sfuTCos : List Word := [
  0x3F800000, 0x3F7EC46D, 0x3F7B14BE, 0x3F74FA0B, 0x3F6C835E, 0x3F61C598, 0x3F54DB31, 0x3F45E403,
  0x3F3504F3, 0x3F226799, 0x3F0E39DA, 0x3EF15AEA, 0x3EC3EF15, 0x3E94A031, 0x3E47C5C2, 0x3DC8BD36,
  0x00000000, 0xBDC8BD36, 0xBE47C5C2, 0xBE94A031, 0xBEC3EF15, 0xBEF15AEA, 0xBF0E39DA, 0xBF226799,
  0xBF3504F3, 0xBF45E403, 0xBF54DB31, 0xBF61C598, 0xBF6C835E, 0xBF74FA0B, 0xBF7B14BE, 0xBF7EC46D,
  0xBF800000, 0xBF7EC46D, 0xBF7B14BE, 0xBF74FA0B, 0xBF6C835E, 0xBF61C598, 0xBF54DB31, 0xBF45E403,
  0xBF3504F3, 0xBF226799, 0xBF0E39DA, 0xBEF15AEA, 0xBEC3EF15, 0xBE94A031, 0xBE47C5C2, 0xBDC8BD36,
  0x00000000, 0x3DC8BD36, 0x3E47C5C2, 0x3E94A031, 0x3EC3EF15, 0x3EF15AEA, 0x3F0E39DA, 0x3F226799,
  0x3F3504F3, 0x3F45E403, 0x3F54DB31, 0x3F61C598, 0x3F6C835E, 0x3F74FA0B, 0x3F7B14BE, 0x3F7EC46D ]

/-- pi as a fraction of 2^640, rounded down: bits enough for every reduction of R231 (log 12). -/
def sfuPi : Nat := 0x3243F6A8885A308D313198A2E03707344A4093822299F31D0082EFA98EC4E6C89452821E638D01377BE5466CF34E90C6CC0AC29B7C97C50DD3F84D5B5B54709179216D5D98979FB1BD1310BA698DFB5AC

/-- C_E, L1, L2, LN2H and LN2L of Table 5.3. -/
def sfuCE : Word := 0x42B8AA3B
def sfuL1 : Word := 0x3C317218
def sfuL2 : Word := 0xAE02E308
def sfuLn2H : Word := 0x3F317218
def sfuLn2L : Word := 0xB102E308

/-- The remaining constants of Table 5.3. -/
def f32One : Word := 0x3F800000
def f32Half : Word := 0x3F000000
def f32NegOne : Word := 0xBF800000
def sfuC3 : Word := 0x3E2AAAAB
def sfuE2 : Word := 0xBF000000
def sfuE3 : Word := 0x3EAAAAAB
def sfuE4 : Word := 0xBE800000
def sfuE5 : Word := 0x3E4CCCCD
def sfuE6 : Word := 0xBE2AAAAB
def sfuE7 : Word := 0x3E124925
def sfuA3 : Word := 0xBE2AAAAB
def sfuA5 : Word := 0x3C088889
def sfuB2 : Word := 0xBF000000
def sfuB4 : Word := 0x3D2AAAAB

/-- Nearest integer of `m / 2^sh`, ties to even. -/
def nearestShift (m : Nat) (sh : Nat) : Nat :=
  if sh = 0 then m
  else
    let n := m >>> sh
    let r := m - n <<< sh
    let half := 1 <<< (sh - 1)
    if half < r ∨ (r = half ∧ n % 2 = 1) then n + 1 else n

/-- Nearest-even integer of an exact value. -/
def nearestInt (neg : Bool) (m : Nat) (e : Int) : Int :=
  let v : Int := if 0 ≤ e then ((m <<< e.toNat : Nat) : Int) else (nearestShift m (-e).toNat : Nat)
  if neg then -v else v

/-- FP32 code of an integer (exact for the integers of R231). -/
def ofInt32 (i : Int) : Word := (fpOfInt i 0 false).to32

/-- scale(a, b, e) = rne(a * b * 2^e), one rounding. -/
def scale32 (a b : Word) (k : Int) : Word :=
  match (fp32 a).mul (fp32 b) with
  | .fin n m e => arith32 n m (e + k)
  | x => x.to32

/-- Table entry. -/
def entry (t : List Word) (i : Nat) : Word := t.getD i 0

/-- exp (R231, Table 5.4). -/
def sfuExp (x : Word) : Word :=
  match fp32 x with
  | .nan => nan32
  | .inf neg => if neg then 0 else inf32 false
  | .fin neg m e =>
    if !neg && !(magLt m e 128 0) then inf32 false
    else if neg && !(magLt m e 160 0) then 0
    else
      let n := match fp32 (mulRne x sfuCE) with
        | .fin ng mm ee => nearestInt ng mm ee
        | _ => 0
      let nn := ofInt32 (-n)
      let r := fma32 nn sfuL2 (fma32 nn sfuL1 x)
      let p := fma32 (fma32 (fma32 sfuC3 r f32Half) r f32One) r f32One
      scale32 (entry sfuTE (n % 64).toNat) p (n / 64)

/-- The split of a finite positive value: `f` in [1, 2) as a FP32 code, and the exponent. -/
def split32 (m : Nat) (e : Int) : Int × Word :=
  let len := bitLen m
  (e + len - 1, arith32 false m (1 - (len : Int)))

/-- floor((f - 1) * n) of a value f in [1, 4). -/
def tableIndex (f : Word) (n : Nat) : Nat :=
  match fp32 f with
  | .fin _ m e =>
    let sh := (-e).toNat
    ((m - 1 <<< sh) * n) >>> sh
  | _ => 0

/-- log (R231, Table 5.4). -/
def sfuLog (x : Word) : Word :=
  match fp32 x with
  | .nan => nan32
  | .inf neg => if neg then nan32 else inf32 false
  | .fin neg m e =>
    if m = 0 then inf32 true
    else if neg then nan32
    else
      let d := (fp32 x).add (fp32 f32NegOne)
      let near := match d with
        | .fin _ dm de => magLt dm de 1 (-5)
        | _ => false
      if near then
        let r := d.to32
        let p := fma32 (fma32 (fma32 (fma32 (fma32 sfuE7 r sfuE6) r sfuE5) r sfuE4) r sfuE3) r sfuE2
        fma32 (mulRne p r) r r
      else
        let (k, f) := split32 m e
        let j := tableIndex f 64
        let r := fma32 f (entry sfuTR j) f32NegOne
        let p := fma32 (fma32 (fma32 sfuE4 r sfuE3) r sfuE2) r f32One
        let s := addRne (entry sfuTL j) (mulRne p r)
        let kk := ofInt32 k
        fma32 kk sfuLn2H (fma32 kk sfuLn2L s)

/-- TQ of Table 5.3. -/
def sfuTQ : List Word := sfuTQ0 ++ sfuTQ1

/-- rcp (R231, Table 5.4). -/
def sfuRcp (x : Word) : Word :=
  match fp32 x with
  | .nan => nan32
  | .inf neg => zero32 neg
  | .fin neg m e =>
    if m = 0 then inf32 neg
    else
      let (k, f) := split32 m e
      let nf := negate32 f
      let y0 := entry sfuTQ (tableIndex f 128)
      let y1 := fma32 y0 (fma32 nf y0 f32One) y0
      let y2 := fma32 y1 (fma32 nf y1 f32One) y1
      let y := scale32 y2 f32One (-k)
      if neg then negate32 y else y

/-- rsqrt (R231, Table 5.4). -/
def sfuRsqrt (x : Word) : Word :=
  match fp32 x with
  | .nan => nan32
  | .inf neg => if neg then nan32 else 0
  | .fin neg m e =>
    if m = 0 then inf32 neg
    else if neg then nan32
    else
      let (k, f) := split32 m e
      let odd := decide (k % 2 = 1)
      let f := if odd then scale32 f f32One 1 else f
      let k := if odd then k - 1 else k
      let y0 := entry sfuTS (tableIndex f 32)
      let nh := negate32 (mulRne f32Half f)
      let y1 := fma32 y0 (fma32 nh (mulRne y0 y0) f32Half) y0
      let y2 := fma32 y1 (fma32 nh (mulRne y1 y1) f32Half) y1
      scale32 y2 f32One (-(k / 2))

/-- The reduction of sin and cos: k mod 64 and r. The nearest integer of x * 32/pi, and the rounded real difference. -/
def sfuReduce (neg : Bool) (m : Nat) (e : Int) : Nat × Word :=
  let den := sfuPi
  let num := if 0 ≤ e then m * 32 <<< (640 + e.toNat) else m * 32 <<< 640
  let den := if 0 ≤ e then den else den <<< (-e).toNat
  let q := num / den
  let r := num - q * den
  let k : Nat := if den < 2 * r ∨ (2 * r = den ∧ q % 2 = 1) then q + 1 else q
  let b : Int := min (e + 645) 0
  let diff : Int := ((m <<< (e + 645 - b).toNat : Nat) : Int) - ((k * sfuPi <<< (-b).toNat : Nat) : Int)
  let sd := if neg then -diff else diff
  let kk : Int := if neg then -(k : Int) else k
  ((kk % 64).toNat, (fpOfInt sd (b - 645) false).to32)

/-- sin and cos polynomials of R231 after the reduction. -/
def sfuPolys (r : Word) : Word × Word :=
  let z := mulRne r r
  (fma32 (mulRne (fma32 sfuA5 z sfuA3) z) r r, fma32 (fma32 sfuB4 z sfuB2) z f32One)

/-- sin (R231, Table 5.4) (log 12). -/
def sfuSin (x : Word) : Word :=
  match fp32 x with
  | .nan => nan32
  | .inf _ => nan32
  | .fin neg m e =>
    if m = 0 then x
    else
      let (i, r) := sfuReduce neg m e
      let (ps, pc) := sfuPolys r
      fma32 (entry sfuTSin i) pc (mulRne (entry sfuTCos i) ps)

/-- cos (R231, Table 5.4) (log 12). -/
def sfuCos (x : Word) : Word :=
  match fp32 x with
  | .nan => nan32
  | .inf _ => nan32
  | .fin neg m e =>
    if m = 0 then f32One
    else
      let (i, r) := sfuReduce neg m e
      let (ps, pc) := sfuPolys r
      fma32 (entry sfuTCos i) pc (negate32 (mulRne (entry sfuTSin i) ps))

end Sys2Proof.Machine
end

