-- ==== Sys2Proof/Machine/Update.lean ====
section
/-! DEFINITION. The update engines and the schedule engine: capping, recovery, the optimizer rules, the write stages and
their mirroring, and the rate table (R245 to R289, R299, R300, R303, R314 to R316). -/

namespace Sys2Proof.Machine

open Sys2Proof

/-! ### Schedule (R316) -/

/-- FP32 of a number. -/
def f32Nat (n : Nat) : Word := arith32 false n 0

/-- PI_F = rne(π). -/
def piF : Word := 0x40490FDB

/-- `p × γ^n`, rounded at each piece. -/
def pieceFrom (p gamma : Word) : Nat → Word
  | 0 => p
  | n + 1 => pieceFrom (mulRne p gamma) gamma n

/-- Restart j and tau of step `t` (R316). -/
def Sched.phase (c : Sched) (t : Nat) : Nat × Nat :=
  if c.period = 0 then (0, t) else ((t - 1) / c.period, (t - 1) % c.period + 1)

/-- Rate of step `t` with the peak `p` of its restart (R316). -/
def Sched.rate (c : Sched) (p : Word) (t : Nat) : Word :=
  let j := (c.phase t).1
  let tau := (c.phase t).2
  let w := if j = 0 ∨ c.warmupEach then c.warmup else 0
  if tau ≤ w then
    let a := mulRne (f32Nat tau) (sfuRcp (f32Nat c.warmup))
    fma32 (subRne p c.lrStart) a c.lrStart
  else
    let x := f32Nat (tau - w)
    let r := sfuRcp (f32Nat c.decayLen)
    let f := min32 (mulRne x r) f32One
    if c.decay = 0 then p
    else if c.decay = 1 then
      fma32 (subRne p c.lrMin) (mulRne f32Half (addRne f32One (sfuCos (mulRne piF f)))) c.lrMin
    else if c.decay = 2 then fma32 (subRne p c.lrMin) (subRne f32One f) c.lrMin
    else mulRne p (sfuRsqrt (fma32 x r f32One))

/-- Peak of restart `j` of group `i`, from the piece that the engine keeps. -/
def State.peak (s : State) (i : Nat) (c : Sched) (j : Nat) : Word :=
  match getKey s.upd.pieces i with
  | some (k, p) => if k ≤ j then pieceFrom p c.gamma (j - k) else pieceFrom c.lrPeak c.gamma j
  | none => pieceFrom c.lrPeak c.gamma j

/-- Rate of a group for a step. -/
def State.groupRate (s : State) (i t : Nat) (g : Group) : Word := g.sched.rate (s.peak i g.sched (g.sched.phase t).1) t

/-- The rate table of a step. -/
def State.rateTable (s : State) (u : UpdCfg) (t : Nat) : List Word :=
  (List.range u.groups.length).map fun i => match u.groups[i]? with
    | some g => s.groupRate i t g
    | none => 0

/-- The pieces that the engine keeps after the table of a step. -/
def State.keepPieces (s : State) (u : UpdCfg) (t : Nat) : State :=
  (List.range u.groups.length).foldl (fun (s : State) (i : Nat) => match u.groups[i]? with
    | some g =>
      let j := (g.sched.phase t).1
      { s with upd := { s.upd with pieces := putKey s.upd.pieces i (j, s.peak i g.sched j) } }
    | none => s) s

/-- SCHEDULE_SLOT (R314): the rate table for step T + 1, visible at the verdict of the slot's window. -/
def applyScheduleSlot (t : Nat) (s : State) : State :=
  let u : UnitId := { cls := 8, idx := 0 }
  match s.runOf u, s.updCfg with
  | some r, some c =>
    let s := s.at t
    let table := s.rateTable c (s.stepT + 1)
    let s := s.keepPieces c (s.stepT + 1)
    ({ s with upd := { s.upd with ratesNew := some (r.beat, table) } }).endRunOf u r
  | some r, none => (s.at t).endRunOf u r
  | none, _ => s

def execScheduleSlot (t : Nat) (s : State) : Host.Outcome State Fault Refusal := .next (applyScheduleSlot t s)

/-! ### Reading a shard -/

/-- Bytes of a tensor as engine `n` reads them. -/
def State.tget (s : State) (n id off len : Nat) : Bytes × State :=
  match s.tensor id with
  | some t => s.fetch (.update n) (t.taddr + off) len
  | none => (zeroBytes len, s)

/-- Words, halfwords and bytes of a byte string. -/
def words (n : Nat) (b : Bytes) : List Nat := (List.range (b.length / n)).map fun i => fieldAt b (n * i) n

/-- A tag's index, MOM_STEP and CAP_STEP. -/
structure TagRef where
  idx : Nat
  mom : Nat
  cap : Nat
deriving DecidableEq, Repr

/-- Tag `i` of a shard. -/
def State.tagRef (s : State) (h : Shard) (i : Nat) : TagRef :=
  let a := ((s.tensor h.tag).map (·.taddr)).getD 0 + 32 * i
  let b := s.view a 8
  { idx := i, mom := fieldAt b 0 4, cap := fieldAt b 4 4 }

/-- Rows that the accepted entries of a touch list give, by list position (R274): `none` where the entry is skipped. -/
def acceptRows (rows : Nat) : Nat → List Nat → List (Option Nat)
  | _, [] => []
  | next, r :: rest =>
    if next ≤ r ∧ r < rows then some r :: acceptRows rows (r + 1) rest else none :: acceptRows rows next rest

/-- The touch list of a lazy shard by position. -/
def State.listRows (s : State) (h : Shard) (width : Nat) : List (Option Nat) :=
  match s.tensor h.touch with
  | none => []
  | some t =>
    let fit := min (fieldAt (s.view t.taddr 4) 0 4) ((t.size - 16) / 4)
    acceptRows (h.count / width) 0 ((List.range fit).map fun i => fieldAt (s.view (t.taddr + 0x10 + 4 * i) 4) 0 4)

/-- Chunks of a shard: of its parameters, or of its touch list (R259, R275). -/
def State.chunkCount (s : State) (h : Shard) (g : Group) : Nat :=
  if g.rule = 2 then
    let per := 2048 / g.rowWidth
    ((s.listRows h g.rowWidth).length + per - 1) / per
  else h.chunks

/-- Tags of a chunk: its own, or those of its rows (R259, R275). -/
def State.chunkTags (s : State) (h : Shard) (g : Group) (c : Nat) : List TagRef :=
  if g.rule = 2 then
    let per := 2048 / g.rowWidth
    (((s.listRows h g.rowWidth).drop (per * c)).take per).filterMap fun r => r.map (s.tagRef h)
  else [s.tagRef h c]

/-- The pile's cache takes part when the engine reads a range of a tensor (R355). -/
def State.touchTensor (s : State) (n id off len : Nat) : State :=
  match s.tensor id with
  | some t => s.touchRange (.update n) (t.taddr + off) len
  | none => s

/-- The cache's part in what the engine reads of a chunk before its passes: tags, the freeze mask, the touch list (R355). -/
def State.touchChunk (s : State) (n : Nat) (h : Shard) (g : Group) (c : Nat) (tags : List TagRef) : State :=
  let s := tags.foldl (fun (s : State) (x : TagRef) => s.touchTensor n h.tag (32 * x.idx) 32) s
  if g.rule = 2 then
    let per := 2048 / g.rowWidth
    s.touchTensor n h.touch (0x10 + 4 * (per * c)) (4 * min per ((s.listRows h g.rowWidth).length - per * c))
  else s.touchTensor n h.freeze (8 * c) ((min 2048 (h.count - 2048 * c) + 255) / 256)

/-! ### Capping (Table 6.5) -/

/-- State of a tag: 0 not started, 1 moments written, 2 capped, 3 hard fault. `t` and `m` are the target step and T,
modulo 2^32. -/
def tagState (lazy : Bool) (tt t1 : Nat) (x : TagRef) : Nat :=
  let before (v : Nat) : Bool := let d := (t1 + 2 ^ 32 - v) % 2 ^ 32; decide (1 ≤ d ∧ d ≤ 2 ^ 31)
  if x.mom = t1 ∧ x.cap = t1 then 2
  else if lazy then
    if x.mom = x.cap ∧ before x.mom then 0 else if x.mom = t1 ∧ before x.cap then 1 else 3
  else if x.mom = tt ∧ x.cap = tt then 0
  else if x.mom = t1 ∧ x.cap = tt then 1
  else 3

/-! ### Arithmetic of the rules -/

/-- FP32 of a BF16 code and of a ZF8 code in a block of scale `sv`. -/
def ofBf16 (c : Nat) : Word := widen (bf16 c)
def ofZf8 (sv c : Nat) : Word := widen (zf8 sv c)

/-- What a group computes with in step t (R271). -/
structure UpdCtx where
  g : Group
  gs : Word
  lr : Word
  lrwd : Word
deriving DecidableEq, Repr

/-- k1 or k2 of a step or row count (R271, R276). -/
def debias (beta : Word) (t : Nat) : Word :=
  sfuRcp (subRne f32One (sfuExp (mulRne (f32Nat t) (sfuLog beta))))

/-- Moments of one element (R272, R277): mf and vf. -/
def moments (x : UpdCtx) (grad m v : Word) : Word × Word :=
  let g := mulRne x.gs grad
  if x.g.rule = 3 then (fma32 x.g.beta1 m g, 0)
  else (fma32 x.g.beta1 m (mulRne x.g.omb1 g), fma32 x.g.beta2 v (mulRne x.g.omb2 (mulRne g g)))

/-- Direction of the diagonal update (R272): `v` is a stored V code in a block of scale `sv`. -/
def diagDir (x : UpdCtx) (k1 k2 : Word) (m sv v : Nat) : Word :=
  let vs := if v = 0 then arith32 false 1 ((sv : Int) - 138) else ofZf8 sv v
  let vk := mulRne vs k2
  mulRne (mulRne (ofBf16 m) k1) (sfuRcp (addRne (mulRne vk (sfuRsqrt vk)) x.g.eps))

/-- New weight from a direction (R272, R277, R279). -/
def newWeight (x : UpdCtx) (w dir : Word) : Word :=
  fma32 (negate32 x.lr) dir (fma32 (negate32 x.lrwd) w w)

/-- Scale of policy BLOCK with HEADROOM 0 over the vf of a block (R272, Table 5.7). -/
def blockScale (vfs : List Word) : Nat :=
  let a := amaxOf vfs
  if a = 0 then bs8 0 else bs8 (leastExp true a)

/-! ### Parts -/

/-- A run of parameters under one tag: a dense chunk, or a row. `k` is the count in k1 and k2: the step as a whole, or the row's
count; FROZEN by block. -/
structure Piece where
  tag : Nat
  i0 : Nat
  n : Nat
  k : Nat
  recover : Bool
  frozen : List Bool
deriving DecidableEq, Repr

/-- Blocks of a piece. -/
def Piece.blocks (p : Piece) : Nat := (p.n + 31) / 32

/-- Every block is frozen (R282). -/
def Piece.allFrozen (p : Piece) : Bool := (List.range p.blocks).all fun b => p.frozen.getD b false

/-- Blocks of a piece that are not frozen. -/
def Piece.live (p : Piece) : List Nat := (List.range p.blocks).filter fun b => !(p.frozen.getD b false)

/-- Elements of block `b` of a piece. -/
def Piece.len (p : Piece) (b : Nat) : Nat := min 32 (p.n - 32 * b)

/-- A piece for a tag (R259, R273, R276, R281). -/
def State.piece (s : State) (h : Shard) (g : Group) (t : Nat) (recover : Bool) (i : Nat) : Piece :=
  if g.rule = 2 then
    let a := ((s.tensor h.tag).map (·.taddr)).getD 0 + 32 * i
    let n := fieldAt (s.view (a + 8) 4) 0 4
    { tag := i, i0 := g.rowWidth * i, n := g.rowWidth, k := if recover then n else (n + 1) % 2 ^ 32, recover := recover,
      frozen := [] }
  else
    let n := min 2048 (h.count - 2048 * i)
    let fr : List Bool := match s.tensor h.freeze with
      | some x => (List.range ((n + 31) / 32)).map fun b =>
          decide ((fieldAt (s.view (x.taddr + (64 * i + b) / 8) 1) 0 1) / 2 ^ ((64 * i + b) % 8) % 2 = 1)
      | none => []
    { tag := i, i0 := 2048 * i, n := n, k := t, recover := recover, frozen := fr }

/-- Writes of a stage: tensor, byte offset, data, in the order of Table 6.4. -/
abbrev Writes := List (Nat × Nat × Bytes)

/-- New moments of one block: M codes, V codes, V scale, saturations of M, AMAX of mf and vf. -/
structure Moments where
  block : Nat
  m : List Nat
  v : List Nat
  scale : Nat
  sats : Nat
  amaxM : Word
  amaxV : Word
deriving DecidableEq, Repr

/-- Passes A and B of one block (R261, R272, R277). -/
def State.blockMoments (s : State) (n : Nat) (h : Shard) (x : UpdCtx) (p : Piece) (b : Nat) : Moments × State :=
  let i := p.i0 + 32 * b
  let len := p.len b
  let gw := if x.g.gradBf16 then 2 else 4
  let (gb, s) := s.tget n h.grad (gw * i) (gw * len)
  let (mb, s) := s.tget n h.m (2 * i) (2 * len)
  let hasV := x.g.rule != 3
  let (vb, s) := if hasV then s.tget n h.v i len else ([], s)
  let (sb, s) := if hasV then s.tget n h.v (h.count + i / 32) 1 else ([], s)
  let sv := fieldAt sb 0 1
  let fs := (List.range len).map fun j =>
    let grad := if x.g.gradBf16 then ofBf16 (fieldAt gb (2 * j) 2) else wordAt gb (4 * j)
    moments x grad (ofBf16 (fieldAt mb (2 * j) 2)) (if hasV then ofZf8 sv (fieldAt vb j 1) else 0)
  let cs := fs.map fun f => convert .bf16 0 (fp32 f.1)
  let vfs := fs.map (·.2)
  let scale := blockScale vfs
  let vc := if hasV then (convertBlock true scale (vfs.map fp32)).codes else []
  ({ block := b, m := cs.map (·.code), v := vc, scale := scale, sats := (cs.filter (·.sat)).length,
     amaxM := amaxOf (fs.map (·.1)), amaxV := if hasV then amaxOf vfs else 0 }, s)

/-- Thread the state through a list of computations. -/
def mapState {α β : Type} (f : State → α → β × State) : State → List α → List β × State
  | s, [] => ([], s)
  | s, a :: as =>
    let r := f s a
    let rest := mapState f r.2 as
    (r.1 :: rest.1, rest.2)

/-- Stage M of a piece (Table 6.4, R250, R282). -/
def State.stageM (s : State) (n : Nat) (h : Shard) (x : UpdCtx) (t1 : Nat) (p : Piece) : Writes × State :=
  let (ms, s) := mapState (fun s b => s.blockMoments n h x p b) s p.live
  let at_ (b : Nat) : Nat := p.i0 + 32 * b
  let old := (s.tget n h.tag (32 * p.tag) 32).1
  let tag := leBytes 4 t1 ++ (old.drop 4).take 4 ++ leBytes 4 (if x.g.rule = 2 then p.k else 0)
    ++ leBytes 2 (min 0xFFFF ((ms.map (·.sats)).sum)) ++ (old.drop 14).take 1 ++ zeroBytes 1
    ++ leBytes 4 (ms.foldl (fun a m => maxMag a m.amaxM) 0).toNat
    ++ leBytes 4 (ms.foldl (fun a m => maxMag a m.amaxV) 0).toNat ++ zeroBytes 8
  let wm : Writes := ms.map fun m => (h.m, 2 * at_ m.block, m.m.flatMap (leBytes 2))
  let wv : Writes := if x.g.rule = 3 then []
    else (ms.map fun m => (h.v, at_ m.block, m.v.flatMap (leBytes 1)))
      ++ ms.map fun m => (h.v, h.count + at_ m.block / 32, leBytes 1 m.scale)
  (wm ++ wv ++ [(h.tag, 32 * p.tag, tag)], s)

/-- Tile of a flat group index, and the first tile of a shard (R278). -/
def tileOf (cols f : Nat) : Nat := f / cols / 128 * (cols / 128) + f % cols / 128

/-- The least tile in which a parameter of the shard lies: that of its first parameter, or, when the shard goes on in the
band's next row, the first tile of the band or of the columns it reaches. -/
def firstTile (cols first count : Nat) : Nat :=
  let last := first + count - 1
  let row := first / cols
  let base := tileOf cols first
  let next := (row + 1) * cols
  if next ≤ last ∧ (row + 1) / 128 = row / 128 then min base (tileOf cols next) else base

/-- The element's tile takes the diagonal update (R279). -/
def State.tileFalls (s : State) (h : Shard) (cols t1 tile : Nat) : Bool :=
  match s.tensor h.pstat with
  | some t =>
    let b := s.view (t.taddr + 16 * (tile - firstTile cols h.first h.count)) 8
    decide (fieldAt b 0 4 = 0 ∨ fieldAt b 4 4 = t1)
  | none => true

/-- New values of one block in stage W: weights, and EMA values before conversion; and the tiles that fell back. -/
structure Weights where
  block : Nat
  m : List Nat
  v : List Nat
  scale : Nat
  w : List Word
  ema : List Word
  tiles : List Nat
deriving DecidableEq, Repr

/-- Stage W of one block from the stored moments (R263, R268, R272, R277, R279, R283). -/
def State.blockWeights (s : State) (n : Nat) (h : Shard) (x : UpdCtx) (t1 : Nat) (k : Word × Word) (p : Piece) (b : Nat) :
    Weights × State :=
  let i := p.i0 + 32 * b
  let len := p.len b
  let hasV := x.g.rule != 3
  let (mb, s) := s.tget n h.m (2 * i) (2 * len)
  let (vb, s) := if hasV then s.tget n h.v i len else ([], s)
  let (sb, s) := if hasV then s.tget n h.v (h.count + i / 32) 1 else ([], s)
  let (wb, s) := s.tget n h.master (4 * i) (4 * len)
  let ew := if x.g.emaFp32 then 4 else 2
  let (eb, s) := if x.g.emaEn then s.tget n h.ema (ew * i) (ew * len) else ([], s)
  let (pb, s) := if x.g.rule = 4 then s.tget n h.pdir (4 * i) (4 * len) else ([], s)
  let sv := fieldAt sb 0 1
  let tile (j : Nat) : Nat := tileOf x.g.preCols (h.first + i + j)
  let falls (j : Nat) : Bool := x.g.rule = 4 && s.tileFalls h x.g.preCols t1 (tile j)
  let js := List.range len
  let s := if x.g.rule = 4 then
      ((js.map tile).eraseDups).foldl (fun (s : State) (y : Nat) =>
        s.touchTensor n h.pstat (16 * (y - firstTile x.g.preCols h.first h.count)) 16) s
    else s
  let ws := js.map fun j =>
    let m := fieldAt mb (2 * j) 2
    let dir := if x.g.rule = 3 then ofBf16 m
      else if x.g.rule = 4 && !(falls j) then wordAt pb (4 * j)
      else diagDir x k.1 k.2 m sv (fieldAt vb j 1)
    newWeight x (wordAt wb (4 * j)) dir
  let es := if x.g.emaEn then
      (js.zip ws).map fun (y : Nat × Word) =>
        let e := if x.g.emaFp32 then wordAt eb (4 * y.1) else ofBf16 (fieldAt eb (2 * y.1) 2)
        fma32 x.g.emaBeta e (mulRne x.g.emaOmb y.2)
    else []
  ({ block := b, m := words 2 mb, v := words 1 vb, scale := sv, w := ws, ema := es,
     tiles := ((js.filter falls).map tile).eraseDups }, s)

/-- A stored element as the watch counts it: its value, and what its code is. -/
def storedElem (flat : Nat) (src : Word) (c : Conv) : Elem :=
  { src := src, conv := c, row := flat / 2 ^ 32, col := flat % 2 ^ 32 }

/-- What a stored code of value `x` is. -/
def codeConv (code : Nat) (x : Fp) : Conv :=
  { code := code, sat := false
    isNan := match x with
      | .nan => true
      | _ => false
    isInf := match x with
      | .inf _ => true
      | _ => false
    isZero := match x with
      | .fin _ m _ => decide (m = 0)
      | _ => false }

/-- Watch deltas of a piece (R268, R284): M, V, MASTER, WORK, EMA. M and V come from the stored codes, with SAT_M, AMAX_M
and AMAX_V of the tag. -/
def pieceDeltas (n : Nat) (h : Shard) (x : UpdCtx) (p : Piece) (tag : Bytes) (ws : List Weights) : List (Nat × WDelta) :=
  let flat (b j : Nat) : Nat := h.first + p.i0 + 32 * b + j
  let elems (f : Weights → List (Word × Conv)) : WDelta :=
    elemsDelta 0xFFFFFFFF (0x40 + n) (ws.flatMap fun w =>
      ((List.range (p.len w.block)).zip (f w)).map fun (y : Nat × Word × Conv) => storedElem (flat w.block y.1) y.2.1 y.2.2)
  let dm := elems fun w => w.m.map fun c => (ofBf16 c, codeConv c (bf16 c))
  let dv := elems fun w => w.v.map fun c => (ofZf8 w.scale c, codeConv c (zf8 w.scale c))
  let dw := elems fun w => w.w.map fun c => (c, convert .fp32 0 (fp32 c))
  let dk := elems fun w => w.w.map fun c => (c, convert .bf16 0 (fp32 c))
  let de := elems fun w => w.ema.map fun c => (c, convert (if x.g.emaFp32 then .fp32 else .bf16) 0 (fp32 c))
  let base := x.g.watchBase
  [(base, { dm with sats := fieldAt tag 0x0C 2, amax := wordAt tag 0x10 })]
    ++ (if x.g.rule = 3 then [] else [(base + 1, { dv with amax := wordAt tag 0x14 })])
    ++ [(base + 2, dw), (base + 3, dk)] ++ (if x.g.emaEn then [(base + 4, de)] else [])

/-- Stage W of a piece (Table 6.4): its writes, its watch deltas and the tiles that fell back. -/
def State.stageW (s : State) (n : Nat) (h : Shard) (x : UpdCtx) (t1 : Nat) (p : Piece) :
    (Writes × List (Nat × WDelta) × List Nat) × State :=
  let k := if x.g.rule = 3 then (0, 0) else (debias x.g.beta1 p.k, debias x.g.beta2 p.k)
  let (ws, s) := mapState (fun s b => s.blockWeights n h x t1 k p b) s p.live
  let at_ (b : Nat) : Nat := p.i0 + 32 * b
  let old := (s.tget n h.tag (32 * p.tag) 32).1
  let tiles := (ws.flatMap (·.tiles)).eraseDups
  let flags := (if tiles.isEmpty then 0 else 1) + (if p.allFrozen then 2 else 0) + (if p.recover then 4 else 0)
  let tag := old.take 4 ++ leBytes 4 t1 ++ (old.drop 8).take 6 ++ leBytes 1 flags ++ old.drop 15
  let bf (c : Word) : Bytes := leBytes 2 (convert .bf16 0 (fp32 c)).code
  let fw (c : Word) : Bytes := leBytes 4 (convert .fp32 0 (fp32 c)).code
  let ew := if x.g.emaFp32 then 4 else 2
  let wr : Writes := (ws.map fun w => (h.master, 4 * at_ w.block, w.w.flatMap fun c => leBytes 4 c.toNat))
    ++ (ws.map fun w => (h.work, 2 * at_ w.block, w.w.flatMap bf))
    ++ (if x.g.emaEn then ws.map fun w => (h.ema, ew * at_ w.block, w.ema.flatMap (if x.g.emaFp32 then fw else bf)) else [])
    ++ [(h.tag, 32 * p.tag, tag)]
  ((wr, if p.allFrozen then [] else pieceDeltas n h x p old ws, tiles), s)

/-! ### Writing and mirroring -/

/-- Carry out the writes of a stage. -/
def State.doWrites (s : State) (n : Nat) (ws : Writes) : State :=
  ws.foldl (fun (s : State) (w : Nat × Nat × Bytes) => match s.tensor w.1 with
    | some t => s.store (.update n) (t.taddr + w.2.1) w.2.2
    | none => s) s

/-- A stage frame's payload: each write as tensor, offset, length and data (log 30). -/
def packWrites (ws : Writes) : Bytes :=
  ws.flatMap fun (w : Nat × Nat × Bytes) => leBytes 4 w.1 ++ leBytes 8 w.2.1 ++ leBytes 4 w.2.2.length ++ w.2.2

/-- The twin holds a mirror of a tensor, or of the lost role's (R297, R310). -/
def State.mirrorsId (s : State) (id : Nat) : Bool := match s.tensor id with
  | some t => s.mirrors t
  | none => false

/-- A stage writes a mirrored tensor (R266, R298). -/
def State.stageMirrors (s : State) (ws : Writes) : Bool := ws.any fun (w : Nat × Nat × Bytes) => s.mirrorsId w.1

/-- Send a stage of one piece to the twin, tag included: its writes to mirrored tensors (R266, R298, R299) (log 30). -/
def State.sendStage (s : State) (beat kind shard tag t1 : Nat) (h : Shard) (ws : Writes) : State :=
  if s.stageMirrors ws && s.twinTakes then
    s.sendMirror (s.lostRole h.tag) beat kind shard tag 0 t1
      (packWrites (ws.filter fun (w : Nat × Nat × Bytes) => w.1 == h.tag || s.mirrorsId w.1))
  else s

/-! ### An engine's op -/

/-- Tensors of a shard. -/
def Shard.ids (h : Shard) : List Nat :=
  [h.grad, h.m, h.v, h.master, h.work, h.ema, h.tag, h.freeze, h.touch, h.pstat, h.pdir]

/-- STATE, MASTER and EMA tensors of a shard (R302, R303): classes 1, 2 and 3. -/
def State.copySet (s : State) (h : Shard) : List Tensor :=
  h.ids.filterMap fun id => match s.tensor id with
    | some t => if 1 ≤ t.cls ∧ t.cls ≤ 3 then some t else none
    | none => none

/-- The shard's classes are mirrored (R269). -/
def State.shardMirrored (s : State) (h : Shard) : Bool := !(s.copySet h).isEmpty && (s.copySet h).all (·.mirrored)

/-- Ask the twin for a mirrored shard after a hard capping fault (R269, R303) (log 95). -/
def State.askShard (s : State) (i : Nat) (h : Shard) : State :=
  let ts := s.copySet h
  let s := { s with upd := { s.upd with
    restored := i :: s.upd.restored
    restore := (s.upd.restore.filter fun (x : Nat × Nat) => !(ts.any fun t => t.id == x.1))
      ++ ts.map fun t => (t.id, t.size) } }
  ts.foldl (fun s t => s.askTwin t.id none) s

/-- A hard capping fault (R269, R303, Tables 6.16, 6.17). A first fault that software has not cleared keeps its place, and MORE stays until
software clears it (R18). -/
def State.hardCap (s : State) (r : RunSlot) (n i : Nat) (h : Shard) (lazy : Bool) (x : TagRef) : State :=
  let mirrored := s.shardMirrored h
  let s := if s.bit (Reg.capFault n) 0 then s.setBit (Reg.capFault n) 1 true
    else
      let more := if s.bit (Reg.capFault n) 1 then 2 else 0
      let w := 1 + more + (if mirrored then 4 else 0) + (if lazy then 8 else 0) + 65536 * i
      (((s.setReg (Reg.capFault n) (BitVec.ofNat 32 w)).setReg (Reg.capFaultChunk n) (BitVec.ofNat 32 x.idx)).setReg
        (Reg.capFaultMom n) (BitVec.ofNat 32 x.mom)).setReg (Reg.capFaultCap n) (BitVec.ofNat 32 x.cap)
  let ev (code cls : Nat) : Ev :=
    { code := code, cls := cls, unit := { typ := 7, idx := n, sub := 0 }, place := some (r.pos, r.slot)
      beat := some r.beat, info1 := i }
  let s := s.stopEngine n
  if !mirrored then (s.updCode n 0x5004).raise (ev 0x5004 3)
  else if s.upd.restored.contains i then s.raise { ev 0x5042 3 with info1 := 0 }
  else ((s.updCode n 0x5003).raise (ev 0x5003 1)).askShard i h

/-- Count the tiles that took the diagonal update, each once per step (R279). -/
def State.countTiles (s : State) (c : ErrCtx) (n group : Nat) (tiles : List Nat) : State :=
  let new := tiles.filter fun t => !(s.upd.tiles.contains (64 * n + group, t))
  if new.isEmpty then s
  else
    let s := { s with upd := { s.upd with tiles := s.upd.tiles ++ new.map fun t => (64 * n + group, t) } }
    ((s.bumpSat (Reg.updEvents n) 23 16 new.length).updCode n 0x5005).raiseStep (0x50050000 + n)
      (c.ev 0x5005 0 { typ := 7, idx := n, sub := 0 })

/-- Stage W of the pieces of a chunk, with its counts (R261, R268, R284, Tables 6.18, 6.19). -/
def State.weightPass (s : State) (c : ErrCtx) (r : RunSlot) (n i : Nat) (h : Shard) (x : UpdCtx) (t1 : Nat) (ps : List Piece) : State :=
  let (res, s) := mapState (fun s p => s.stageW n h x t1 p) s ps
  let s := s.doWrites n ((res.flatMap fun y => y.1.dropLast) ++ res.flatMap fun y => y.1.drop (y.1.length - 1))
  let s := (ps.zip res).foldl (fun (s : State) (y : Piece × Writes × List (Nat × WDelta) × List Nat) =>
    s.sendStage r.beat 3 i y.1.tag t1 h y.2.1) s
  let s := res.foldl (fun (s : State) (y : Writes × List (Nat × WDelta) × List Nat) =>
    y.2.1.foldl (fun (s : State) (d : Nat × WDelta) => s.feed (unitHub c.unit) (some r.beat) d.1 d.2) s) s
  let s := s.countTiles c n h.group (res.flatMap fun y => y.2.2).eraseDups
  let s := s.bumpPair (Reg.updChunksLo n) 1
  if ps.any (·.recover) then
    ((s.bumpSat (Reg.updEvents n) 15 0 1).updCode n 0x5001).raise (c.ev 0x5001 0 { typ := 7, idx := n, sub := 0 })
  else s

/-- Stage M of the pieces that are not in recovery: written and sent to the twin (R262, R266). -/
def State.momentPass (s : State) (r : RunSlot) (n i : Nat) (h : Shard) (x : UpdCtx) (t1 : Nat) (ps : List Piece) : State :=
  let (res, s) := mapState (fun s p => s.stageM n h x t1 p) s ps
  let s := s.doWrites n ((res.flatMap fun y => y.dropLast) ++ res.flatMap fun y => y.drop (y.length - 1))
  (ps.zip res).foldl (fun (s : State) (y : Piece × Writes) => s.sendStage r.beat 2 i y.1.tag t1 h y.2) s

/-- What a group computes with in this step, with the GSCALE word that the slot read when it started (R271). -/
def State.updCtx (s : State) (gi : Nat) (g : Group) (gs : Word) (t : Nat) : UpdCtx :=
  let lr := (s.upd.rates[gi]?).getD (s.groupRate gi t g)
  { g := g, gs := gs, lr := lr, lrwd := mulRne lr g.wd }

/-- The chunks of an op, from list position `c` on: a capped chunk is skipped, one in recovery takes stage W, and one that
takes stage M waits for its acknowledgement (R260 to R262, R267, R268). -/
def State.runChunks (s : State) (u : UnitId) (r : RunSlot) (i : Nat) (h : Shard) (x : UpdCtx) (first : Nat) : List Nat → State
  | [] => s.endRunOf u r
  | j :: js =>
    let t := s.stepT + 1
    let t1 := t % 2 ^ 32
    let lazy := decide (x.g.rule = 2)
    let tags := s.chunkTags h x.g (first + j)
    let s := s.touchChunk u.idx h x.g (first + j) tags
    let st := tagState lazy (s.stepT % 2 ^ 32) t1
    match tags.find? fun y => st y == 3 with
    | some bad => s.hardCap r u.idx i h lazy bad
    | none =>
      let full := (tags.filter fun y => st y == 0).map fun y => s.piece h x.g t false y.idx
      let rec_ := (tags.filter fun y => st y == 1).map fun y => s.piece h x.g t true y.idx
      if full.isEmpty then
        let s := if rec_.isEmpty then s else s.weightPass (s.errCtx u r) r u.idx i h x t1 rec_
        s.runChunks u r i h x first js
      else
        let twin := (s.mirrorsId h.m || s.mirrorsId h.tag || (x.g.rule != 3 && s.mirrorsId h.v)) && s.twinTakes
        let s := s.momentPass r u.idx i h x t1 full
        let y : Staged :=
          { eng := u.idx, shard := i, chunk := first + j, recovered := rec_.map (·.tag), fresh := full.map (·.tag),
            needTwin := twin, ackPile := false, ackTwin := false }
        let s := { s with upd := { s.upd with staged := s.upd.staged ++ [y] } }
        s.setRun u { r with prog := j + 1 }

/-- The op that an engine's slot names, with its shard and group. -/
def State.updOp (s : State) (r : RunSlot) : Option (UpdOp × Shard × Group) :=
  match s.updCfg with
  | none => none
  | some c =>
    match c.ops[r.op]? with
    | none => none
    | some o =>
      match c.shards[o.shard]? with
      | none => none
      | some h => (c.groups[h.group]?).map fun g => (o, h, g)

/-- Go on with an engine's op from the slot's progress. -/
def State.goOn (s : State) (u : UnitId) (r : RunSlot) : State :=
  match s.updOp r with
  | none => s.endRunOf u r
  | some (o, h, g) =>
    let x := s.updCtx h.group g r.gs (s.stepT + 1)
    let count := min o.chunks (s.chunkCount h g - o.firstChunk)
    s.runChunks u r o.shard h x o.firstChunk ((List.range count).drop r.prog)

/-- Some state array of the shard is homed elsewhere than in the pile of its engine (R247): in the super tier, on its way, or where a move
has put it. The engine waits until it is there (log 95). -/
def State.shardAway (s : State) (h : Shard) : Bool :=
  h.ids.any fun id => match s.tensor id with
    | some t => match s.homeOf t with
      | some a => !(match s.locate a with
        | some (.dram n _) => n == h.pile
        | _ => false)
      | none => false
    | none => false

/-- The twin's copy of a tensor of the shard has not come in full (R303) (log 95). -/
def State.shardRestoring (s : State) (h : Shard) : Bool := s.upd.restore.any fun (x : Nat × Nat) => h.ids.contains x.1

/-- A refresh that the twin has asked for is still on its way (R302): no update slot goes on before its frames have gone and been
acknowledged. -/
def State.refreshing (s : State) : Bool := match s.upd.refresh with
  | some n => !(s.twinSent n)
  | none => false

/-- Skipped entries of a lazy shard's touch list, counted once per step (R274). -/
def State.countSkips (s : State) (c : ErrCtx) (n i : Nat) (h : Shard) (g : Group) : State :=
  if g.rule ≠ 2 ∨ s.upd.touched.contains i then s
  else
    let k := (s.touchList h g.rowWidth).2
    let s := { s with upd := { s.upd with touched := i :: s.upd.touched } }
    if k = 0 then s
    else ((s.bumpSat (Reg.updEvents n) 31 24 k).updCode n 0x5006).raiseStep (0x50060000 + n)
      (c.ev 0x5006 0 { typ := 7, idx := n, sub := 0 })

/-- The errors that an engine meets before its next stage; a fault of the engine interrupts its chunk (R264, R265) (log 95). -/
def State.engineErrors (s : State) (c : ErrCtx) (r : RunSlot) (n : Nat) (errs : List HwErr) : State :=
  let bad := s.meetsFault c r.beat errs
  let s := s.hwErrors c 0 errs
  if bad then s.stopEngine n else s

/-- UPDATE_OP (R260, R261): the op of the engine's slot runs up to its next stage M. It waits while its shard is away or
being restored, while a refresh of the twin is under way, and while a stage M awaits its acknowledgement. -/
def applyUpdateOp (n t : Nat) (errs : List HwErr) (s : State) : State :=
  let u : UnitId := { cls := 7, idx := n }
  match s.runOf u with
  | none => s
  | some r =>
    let c := s.errCtx u r
    let s := (s.at t).engineErrors c r n errs
    match s.runOf u, s.updOp r with
    | none, _ => s
    | some r, none => s.endRunOf u r
    | some r, some (o, h, g) =>
      if s.upd.staged.any (fun x => x.eng == n) || s.shardRestoring h || s.refreshing then s
      else if s.upd.skip || s.upd.stopped.contains n then s.endRunOf u r
      else if s.shardAway h then s.setFld (Reg.updStatus n) 1 0 2
      else ((s.setFld (Reg.updStatus n) 1 0 1).countSkips c n o.shard h g).goOn u r

def execUpdateOp (n t : Nat) (errs : List HwErr) (s : State) : Host.Outcome State Fault Refusal :=
  .next (applyUpdateOp n t errs s)

/-- Both acknowledgements of a stage M are there: stage W follows, and the op goes on to the next chunk unless the engine meets a fault
before that chunk's stage M (R261 to R265, R300). -/
def State.afterAck (s : State) (u : UnitId) (r : RunSlot) (y : Staged) (errs : List HwErr) : State :=
  let s := { s with upd := { s.upd with staged := s.upd.staged.filter fun x => !(x.eng == y.eng) } }
  match s.updOp r with
  | none => s
  | some (_, h, g) =>
    let t := s.stepT + 1
    let x := s.updCtx h.group g r.gs t
    let ps := (y.recovered.map fun i => s.piece h g t true i)
      ++ y.fresh.map fun i => { s.piece h g t true i with recover := false }
    let c := s.errCtx u r
    let s := (s.weightPass c r u.idx y.shard h x (t % 2 ^ 32) ps).engineErrors c r u.idx errs
    match s.runOf u with
    | some r => s.goOn u r
    | none => s

/-- STAGE_M_ACK (R262, R300). The errors are those that the engine meets before its next stage: of the next chunk once stage W has gone,
else of this one (R263, R264). -/
def applyStageMAck (n : Nat) (fromTwin : Bool) (errs : List HwErr) (s : State) : State :=
  let u : UnitId := { cls := 7, idx := n }
  match s.runOf u, s.upd.staged.find? fun x => x.eng == n with
  | some r, some y =>
    let y := if fromTwin then { y with ackTwin := true } else { y with ackPile := true }
    if y.ackPile && (y.ackTwin || !y.needTwin) then s.afterAck u r y errs
    else
      State.engineErrors { s with upd := { s.upd with staged := s.upd.staged.map fun x => if x.eng = n then y else x } }
        (s.errCtx u r) r n errs
  | _, _ => s

def execStageMAck (n : Nat) (x : StageAck) (s : State) : Host.Outcome State Fault Refusal :=
  .next (applyStageMAck n x.fromTwin x.errs s)

end Sys2Proof.Machine
end

