-- ==== Sys2Proof/Machine/FieldTest.lean ====
section
/-! DEFINITION. Online tests of cores and update engines (R184, R556 to R560). -/

namespace Sys2Proof.Machine

open Sys2Proof

/-- COVER_DUE (R556): CORE_GAP_MS after the last core of the die returned; the cover starts at a gap entry. -/
def applyCoverDue (die : Nat) (s : State) : State :=
  if s.running && s.test.testCtl.getLsbD 0 && s.cdiePresent die && (getKey s.test.testing die).isNone
      && !(s.test.due.contains die) && decide (die < 4) && decide (s.spareState die = 0) then
    { s with test := { s.test with due := s.test.due ++ [die] } }
  else s

def execCoverDue (die : Nat) (s : State) : Host.Outcome State Fault Refusal := .next (applyCoverDue die s)

/-- ARRAY_ERR A_TEST of the arrays of a core that failed its self-test (Table 3.17). -/
def State.noteArrays (s : State) (p : Nat) (arrays : List Nat) : State :=
  arrays.foldl (fun (s : State) (a : Nat) => if a < 3 then s.setBit (Reg.arrayErr p) (4 * a + 3) true else s) s

/-- CORE_SELF_TEST_DONE (R556, R558): a pass returns the core at the next gap entry, a failure fences it there, and both at once while RUN
is 0 (R90). `arrays` are the arrays that failed (log 52). -/
def applyCoreSelfTestDone (p : Nat) (pass : Bool) (arrays : List Nat) (s : State) : State :=
  let d := p / 17
  if getKey s.test.testing d ≠ some p ∨ s.test.passed.contains d then s
  else
    let s := (s.setFld Reg.testStatus 10 4 p).bumpWrap Reg.testStatus 26 11 1
    let uc : UnitCode := { typ := 5, idx := p, sub := 0 }
    if pass then
      let s := { s with test := { s.test with passed := s.test.passed ++ [d] } }
      if s.running then s else (s.endCovers).updatePresence
    else ((s.noteArrays p arrays).logEntry { code := 0x300C, cls := 2, unit := uc }).fenceLater uc

def execCoreSelfTestDone (p : Nat) (x : TestEnd) (s : State) : Host.Outcome State Fault Refusal :=
  .next (applyCoreSelfTestDone p x.pass x.arrays s)

/-- UPD_SELFTEST_DONE (R560): a failure fences the engine. -/
def applyUpdSelftestDone (n : Nat) (pass : Bool) (s : State) : State :=
  if !(s.test.updTest.contains n) then s
  else
    let left := s.test.updTest.filter fun x => !(x == n)
    let s := ({ s with test := { s.test with updTest := left } }).setBit (Reg.updCtl n) 2 false
    let s := s.setBit Reg.testStatus 27 (!left.isEmpty)
    if pass then s else s.fenceLater { typ := 7, idx := n, sub := 0 }

def execUpdSelftestDone (n : Nat) (pass : Bool) (s : State) : Host.Outcome State Fault Refusal :=
  .next (applyUpdSelftestDone n pass s)

end Sys2Proof.Machine
end

