-- ==== Sys2Proof/Machine/Tiers.lean ====
section
/-! DEFINITION. Memory tiers: moves, window fills, homing, holds, refresh, scrub, the pile cache and the remote caches
(R60 to R66, R331 to R366). -/

namespace Sys2Proof.Machine

open Sys2Proof

/-! ### Moves (R331 to R336) -/

/-- The mover op of kind `k` that a mover's slot names. -/
def State.moverOp (s : State) (k : Nat) (r : RunSlot) : Option MoverOp :=
  match s.tierCfg with
  | none => none
  | some c =>
    match c.ops[r.op]? with
    | some o => if o.kind = k then some o else none
    | none => none

/-- Ranges that no move target may overlap (R335), but other moves' targets. -/
def State.heldRanges (s : State) : List (Nat × Nat) :=
  let images := (s.slotA.ranges ++ s.slotB.ranges).map fun (r : Nat × Nat) => (r.1, r.2 - r.1)
  match s.fing with
  | none => images
  | some g =>
    images ++ tierRanges g.own ++ tierRanges g.takeover
      ++ (g.tensors.filterMap fun t => (s.homeOf t).map fun h => (h, t.size))
      ++ (g.tensors.filter fun t => t.landing != 0).map fun t => (t.landing, t.size)

/-- A move is in progress: a homing until its provisional transfer, a planned move until its verdict (R334). -/
def MoveSt.inProgress (m : MoveSt) : Bool := !(m.homing && m.complete)

/-- The part conflicts with another move or is out of sequence (R331, R335). -/
def State.moveConflict (s : State) (o : MoverOp) (t : Tensor) : Bool :=
  let moves := s.tier.moves.filter MoveSt.inProgress
  let target := (o.target, t.size)
  let order : Bool := match moves.find? fun m => m.tensor == t.id with
    | none => decide (o.offset = 0)
    | some m => !m.homing && decide (m.target = o.target ∧ m.progress = o.offset)
  !order || s.heldRanges.any (overlap target)
    || moves.any fun m => !(m.tensor == t.id) && overlap target (m.target, m.length)

/-- A mover's event. -/
def moverEv (r : RunSlot) (m code cls : Nat) : Ev :=
  { code := code, cls := cls, unit := { typ := 8, idx := m, sub := 0 }, place := some (r.pos, r.slot), beat := some r.beat }

/-- A part has ended: the move's progress advances (R331) (log 69). -/
def State.movePart (s : State) (u : UnitId) (r : RunSlot) (o : MoverOp) : State :=
  let p := o.offset + o.length
  let s := { s with tier := { s.tier with moves := s.tier.moves.map fun (m : MoveSt) =>
    if m.tensor = o.tensor ∧ !m.homing then
      { m with progress := p, hist := (m.hist.filter fun (x : Nat × Nat) => !(x.1 == r.beat)) ++ [(r.beat, p)] }
    else m } }
  (s.showMoves).endRunOf u r

/-- Write the bytes of a part to its target: a super target ends with flushing reads (R336). -/
def State.moveWrite (s : State) (u : UnitId) (r : RunSlot) (m : Nat) (o : MoverOp) (data : Bytes) : State :=
  let a := o.target + o.offset
  if isSuper a then
    if s.superDown a o.length then s.raise (moverEv r m 0x6014 3)
    else (s.superPut m a data).setRun u { r with prog := 2 }
  else (s.store (.mover m (some o.tensor) false) a data).movePart u r o

/-- The bytes that a mover op reads: at once from a pile or comb, or with the data that the host has returned; `none`
while they are on their way or when the access has failed. -/
def State.moverRead (s : State) (u : UnitId) (r : RunSlot) (m a n : Nat) (fill : Bool) (tensor : Nat) (superData : Option Bytes) :
    Option Bytes × State :=
  if isSuper a then
    if s.superDown a n then (none, s.raise (moverEv r m 0x6014 3))
    else
      let s := if r.prog = 0 then s.superAsk m a n else s
      match superData with
      | none => (none, s.setRun u { r with prog := 1 })
      | some d =>
        let s := s.dropAsks m
        if d.length = n then (some d, s) else (none, (s.raise (moverEv r m 0x6013 1)).endRunOf u r)
  else
    let x := s.fetch (.mover m (if fill then none else some tensor) fill) a n
    (some x.1, x.2)

/-- Begin a move with its first part. -/
def State.beginMove (s : State) (o : MoverOp) (t : Tensor) (beat : Nat) : State :=
  if s.tier.moves.any fun m => m.tensor == t.id && !m.homing then s
  else
    let m : MoveSt := { tensor := t.id, target := o.target, length := t.size, progress := 0, marked := 0, hist := [],
                        stale := false, homing := false, source := (s.homeOf t).getD 0, begun := beat, complete := false }
    ({ s with tier := { s.tier with moves := s.tier.moves ++ [m] } }).showMoves

/-- MOVE (R331): one part. `superData` is what a host read or the flushing read of the part has returned; data of another
length stands for an access that failed (R346); a flushing read returns none. A tensor without a home, as a HOLD_GRAD tensor without a
hold, is unmapped (R320, R348) (log 97). -/
def applyMove (m : Nat) (superData : Option Bytes) (s : State) : State :=
  let u : UnitId := { cls := 3, idx := m }
  match s.runOf u with
  | none => s
  | some r =>
    match s.moverOp 1 r with
    | none => s
    | some o =>
      match s.tensor o.tensor with
      | none => s
      | some t =>
        if r.prog = 2 then
          match superData with
          | some d =>
            let s := s.dropAsks m
            if d.isEmpty then s.movePart u r o else (s.raise (moverEv r m 0x6013 1)).endRunOf u r
          | none => s
        else if (s.homeOf t).isNone then s.raise (moverEv r m 0x600D 4)
        else if r.prog = 0 && s.moveConflict o t then s.raise (moverEv r m 0x6011 4)
        else
          let s := s.beginMove o t r.beat
          let x := s.moverRead u r m ((s.homeOf t).getD 0 + o.offset) o.length false t.id superData
          match x.1 with
          | none => x.2
          | some d => x.2.moveWrite u r m o d

def execMove (m : Nat) (superData : Option Bytes) (s : State) : Host.Outcome State Fault Refusal :=
  .next (applyMove m superData s)

/-! ### Window fills (R339 to R342) -/

/-- The slot whose end expires a copy: EXP_CLASS 0 to 2 array, 3 vector engine, 0xFF the commit gap. -/
def expiry (cls core slot beat : Nat) : Option (UnitId × Nat × Nat) :=
  if cls < 3 then some (arrayUnit core cls, slot, beat) else if cls = 3 then some (vectorUnit core, slot, beat) else none

/-- A copy in a window buffer. -/
def State.addCopy (s : State) (stream buffer layer : Nat) (exp : Option (UnitId × Nat × Nat)) (beat : Nat) : State :=
  { s with tier := { s.tier with wins := s.tier.wins ++
      [{ stream := stream, buffer := buffer, layer := layer, expires := exp, beat := beat }] } }

/-- FETCH (R339 to R342): a fill waits for the previous copy of its buffer to expire (log 97). -/
def applyFetch (m : Nat) (superData : Option Bytes) (s : State) : State :=
  let u : UnitId := { cls := 3, idx := m }
  match s.runOf u with
  | none => s
  | some r =>
    match s.moverOp 2 r with
    | none => s
    | some o =>
      match s.tensor o.tensor, s.tierCfg.bind fun c => c.streams[o.window]? with
      | some t, some w =>
        let buf := o.target % (w.depth + 1)
        if s.windowLive (o.window, buf) then s
        else
          match s.homeOf t with
          | none => s.raise (moverEv r m 0x600D 4)
          | some h =>
            let x := s.moverRead u r m (h + o.offset) o.length true t.id superData
            match x.1 with
            | none => x.2
            | some d =>
              let s := x.2.store (.mover m none true) (w.bufBase + buf * w.bufSize) d
              (s.addCopy o.window buf o.target (expiry o.expClass o.expCore o.expSlot r.beat) r.beat).endRunOf u r
      | _, _ => s

def execFetch (m : Nat) (superData : Option Bytes) (s : State) : Host.Outcome State Fault Refusal :=
  .next (applyFetch m superData s)

/-! ### Holds and homing (R350 to R352) -/

/-- One waiting write: it proceeds in its own window when its tensor has, or now gets, a hold, and the receive buffer that held its data
is free again; else it waits on. -/
def State.retryWait (s : State) (w : HoldWait) : State :=
  let free (s : State) : State := match w.owe with
    | some (q, vl, n) => s.owe q vl n
    | none => s
  match s.tensor w.tensor with
  | none => free s
  | some t =>
    let s := if (s.homeOf t).isNone then s.allocHold t else s
    if (s.homeOf t).isSome then free (s.storeIn w.beat .hub (t.taddr + w.off) w.data)
    else { s with tier := { s.tier with waits := s.tier.waits ++ [w] } }

/-- HOLD_SPACE_FREED (R350): the waiting writes of a pile go on, oldest first. -/
def applyHoldSpaceFreed (pile : Nat) (s : State) : State :=
  let ws := s.tier.waits.filter fun w => w.pile == pile
  let s := { s with tier := { s.tier with waits := s.tier.waits.filter fun w => !(w.pile == pile) } }
  ws.foldl (fun s w => s.retryWait w) s

def execHoldSpaceFreed (pile : Nat) (s : State) : Host.Outcome State Fault Refusal := .next (applyHoldSpaceFreed pile s)

/-- HOMING_COMPLETE (R346, R351, R352): the reads of a half's next homing have ended. Its tensor's bytes have come from the super tier to
the landing, and its home transfers provisionally; data of another length stands for an access that failed. The half's next homing then
asks (log 97). -/
def applyHomingComplete (tensor : Nat) (data : Bytes) (s : State) : State :=
  match s.tier.moves.find? fun m => m.tensor == tensor && m.homing && !m.complete with
  | none => s
  | some m =>
    match s.halfOf m.target with
    | none => s
    | some half =>
      if (s.homingHead half).map (·.tensor) ≠ some tensor ∨ !(s.host.asks.any fun (x : Nat × HPort) => x.1 == homingKey tensor) then s
      else
        let s := s.dropAsks (homingKey tensor)
        let mv := s.homingMover half
        if data.length ≠ m.length then s.raise { code := 0x6013, cls := 1, unit := { typ := 8, idx := mv, sub := 0 } }
        else
          let s := s.store (.mover mv (some tensor) false) m.target data
          let s := { s with tier := { s.tier with moves := s.tier.moves.map fun (x : MoveSt) =>
            if (x.same m) then { x with complete := true, progress := x.length } else x } }
          ((s.setHome tensor m.target).showMoves).askHoming half

def execHomingComplete (tensor : Nat) (data : Bytes) (s : State) : Host.Outcome State Fault Refusal :=
  .next (applyHomingComplete tensor data s)

/-! ### Refresh (R358, R359) -/

/-- Refresh debt of a pile. -/
def State.debtOf (s : State) (n : Nat) : Int := (getKey s.tier.debt n).getD 0

/-- Set the debt, clamped to −8 to +8, with REFRESH_STATUS DEBT. -/
def State.setDebt (s : State) (n : Nat) (d : Int) : State :=
  let d := max (-8) (min 8 d)
  let s := { s with tier := { s.tier with debt := if d = 0 then delKey s.tier.debt n else putKey s.tier.debt n d } }
  s.setFld (Reg.refreshStatus n) 4 0 (int32 d).toNat

/-- The pile refreshes: it is active and not in self-refresh. -/
def State.refreshes (s : State) (n : Nat) : Bool :=
  decide (n < 16) && (s.fld (Reg.pileState n) 2 0 == 2 || s.fld (Reg.pileState n) 2 0 == 4)

/-- Bursts that TIER_PLAN places for a pile in the running window up to an instant (R359). -/
def burstsDue (c : TierCfg) (w : Win) (pile t : Nat) : Nat :=
  ((c.refresh.filter fun e => e.pos == w.pos && (e.pile == pile || e.pile == 255) && decide (w.start + e.start ≤ t)).map (·.count)).sum

/-- Planned bursts that a pile has run or skipped in the running window. -/
def State.burstsRun (s : State) (w : Win) (pile : Nat) : Nat := match getKey s.tier.bursts pile with
  | some (b, n) => if b = w.beat then n else 0
  | none => 0

/-- PLANNED_BURST (R359): the next burst that TIER_PLAN places for the pile in the running window, skipped at debt −8. -/
def applyPlannedBurst (pile t : Nat) (s : State) : State :=
  match s.beat.win, s.tierCfg with
  | some w, some c =>
    let n := s.burstsRun w pile
    if decide (n < burstsDue c w pile t) && s.refreshes pile then
      let s := s.at t
      let s := { s with tier := { s.tier with bursts := putKey s.tier.bursts pile (w.beat, n + 1) } }
      if -8 < s.debtOf pile then s.setDebt pile (s.debtOf pile - 1) else s
    else s
  | _, _ => s

def execPlannedBurst (x : Burst) (s : State) : Host.Outcome State Fault Refusal := .next (applyPlannedBurst x.pile x.t s)

/-- REFRESH_INTERVAL (R359): the debt rises; at +8 an unplanned burst follows. -/
def applyRefreshInterval (pile : Nat) (s : State) : State :=
  if !s.refreshes pile then s
  else
    let d := s.debtOf pile + 1
    if d < 8 then s.setDebt pile d
    else
      let s := (s.setDebt pile 7).bumpSat (Reg.refreshStatus pile) 20 5 1
      s.raise { code := 0x6008, cls := 0, unit := { typ := 6, idx := pile, sub := 31 } }

def execRefreshInterval (pile : Nat) (s : State) : Host.Outcome State Fault Refusal := .next (applyRefreshInterval pile s)

/-! ### Patrol scrub (R363, R365) -/

/-- Context of scrub: no slot. -/
def scrubCtx (n : Nat) : ErrCtx := { unit := { cls := 7, idx := n }, phys := 0, place := none, beat := none }

/-- Progress of the pass, its end, and the fast rate of SCRUB_V2 (Table 8.19). -/
def State.scrubStep (s : State) (n cw : Nat) : State :=
  if cw + 1 < 1073741824 then s.setFld (Reg.scrubStatus n) 9 0 ((cw + 1) / 1048576)
  else
    let many := decide (1024 < (getKey s.tier.scrub n).getD 0)
    let s := (s.setFld (Reg.scrubStatus n) 9 0 0).bumpWrap (Reg.scrubStatus n) 25 10 1
    let s := s.setBit (Reg.scrubStatus n) 26 (many && s.bit (Reg.capCommon 0) 13)
    { s with tier := { s.tier with scrub := delKey s.tier.scrub n } }

/-- An uncorrectable codeword that scrub finds (R365). -/
def State.scrubBad (s : State) (n cw : Nat) : State :=
  let s := s.cwBad (scrubCtx n) n cw true
  let u : UnitCode := { typ := 6, idx := n, sub := 31 }
  match s.tensorOf (s.devOf n (64 * cw)) with
  | some (t, off) =>
    if t.mirrored then ((s.askPage t off).unlist (n, cw)).raise { code := 0x6006, cls := 0, unit := u }
    else s.raise { code := 0x6007, cls := 0, unit := u }
  | none => s.raise { code := 0x6007, cls := 0, unit := u }

/-- PATROL_SCRUB (R365): one codeword, while TEST_CTL SCRUB_EN is in effect; a DRAM interface that fails loses the pile, whatever
TEST_CTL says (R363). -/
def applyPatrolScrub (pile cw : Nat) (errs : List (Nat × Nat × Nat)) (interfaceOk : Bool) (s : State) : State :=
  if !interfaceOk then (if s.pileUp pile then s.pileGone pile else s)
  else if !s.refreshes pile || !s.test.testCtl.getLsbD 3 || decide (1073741824 ≤ cw) then s
  else
    let retired := if s.bit (Reg.dieRetired pile) 5 then some (s.fld (Reg.dieRetired pile) 4 0) else none
    let s := match decodeCw retired errs with
      | .clean => s
      | .erased => s
      | .corrected die =>
        let s := { s with tier := { s.tier with scrub := putKey s.tier.scrub pile ((getKey s.tier.scrub pile).getD 0 + 1) } }
        s.cwCorrected (scrubCtx pile) pile die
      | .bad => s.scrubBad pile cw
    s.scrubStep pile cw

def execPatrolScrub (pile cw : Nat) (errs : List (Nat × Nat × Nat)) (interfaceOk : Bool) (s : State) :
    Host.Outcome State Fault Refusal := .next (applyPatrolScrub pile cw errs interfaceOk s)

/-- EDRAM_WRITE_BACK (R356): a dirty line becomes clean. -/
def applyEdramWriteBack (pile line : Nat) (s : State) : State :=
  { s with tier := { s.tier with edram := s.tier.edram.map fun (x : Nat × Nat × Bool) =>
      if x.1 = pile ∧ x.2.1 = line then (x.1, x.2.1, false) else x } }

def execEdramWriteBack (pile line : Nat) (s : State) : Host.Outcome State Fault Refusal :=
  .next (applyEdramWriteBack pile line s)

/-! ### Remote caches (R60 to R66) -/

/-- The declared region that covers an address (R63). -/
def State.rdcRegion (s : State) (a : Nat) : Option RdcRegion :=
  match s.fing with
  | some g => (g.rdc.map (·.regions)).getD [] |>.find? fun x => decide (x.base ≤ a ∧ a < x.base + x.length)
  | none => none

/-- Fill a line of a die's remote cache: a full set loses the way that the free value of log 7 names. -/
def State.rdcFill (s : State) (die line lifetime : Nat) : State :=
  let d := s.draw
  let s := d.2
  let set := Config.rdcSet (line * 256)
  let same := s.tier.rdc.filter fun x => x.die == die && Config.rdcSet (x.line * 256) == set
  let rdc := if 16 ≤ same.length then
      match same[Config.rdcVictim d.1 % 16]? with
      | some v => s.tier.rdc.filter fun x => !(x == v)
      | none => s.tier.rdc
    else s.tier.rdc
  { s with tier := { s.tier with rdc := rdc ++ [{ die := die, line := line, lifetime := lifetime, order := d.1 }] } }

/-- One line of a remote read: a hit, or a miss that fills. -/
def State.rdcLook (s : State) (die hub line lifetime : Nat) : State :=
  if s.tier.rdc.any fun x => x.die == die && x.line == line then s.bumpPair (Reg.rdcHitLo hub) 1
  else (s.bumpPair (Reg.rdcMissLo hub) 1).rdcFill die line lifetime

/-- The part of a read that lies in a 256-byte line: looked up and filled when it is in the other half and in a declared region, which
are whole lines (R61, R63). -/
def State.rdcPart (s : State) (die addr line : Nat) : State :=
  let a := max addr (256 * line)
  match s.halfOf a, s.rdcRegion a with
  | some half, some g => if half = dieHub die then s else s.rdcLook die (dieHub die) line g.lifetime
  | _, _ => s

/-- REMOTE_READ (R61, R65): a core's read of home addresses. A line in error goes before it is looked up again. -/
def applyRemoteRead (l addr len : Nat) (errs : List HwErr) (s : State) : State :=
  let die := s.physOf l / 17
  if len = 0 ∨ !s.bit (Reg.coreMap l) 7 ∨ !(s.tier.rdcOn.contains (dieHub die)) then s
  else
    let c : ErrCtx := { unit := vectorUnit l, phys := s.physOf l, place := none, beat := none }
    let bad (x : RdcLine) : Bool := errs.any fun e => e == .rdcUe x.die x.line
    let s := s.hwErrors c l errs
    let s := { s with tier := { s.tier with rdc := s.tier.rdc.filter fun x => !(bad x) } }
    (List.range ((addr + len - 1) / 256 - addr / 256 + 1)).foldl (fun s i => s.rdcPart die addr (addr / 256 + i)) s

def execRemoteRead (l addr len : Nat) (errs : List HwErr) (s : State) : Host.Outcome State Fault Refusal :=
  .next (applyRemoteRead l addr len errs s)

end Sys2Proof.Machine
end

