-- ==== Sys2Proof/Machine/Host.lean ====
section
/-! DEFINITION. Host ports: copy runs, flushing reads, and what happens to a port (R454, R462 to R482, R487, R495,
R496). -/

namespace Sys2Proof.Machine

open Sys2Proof

/-! ### Copy runs -/

/-- The descriptor that an engine's slot names, when it has this kind. -/
def State.copyDesc (s : State) (kind : Nat) (r : RunSlot) : Option CopyDesc :=
  match s.fing with
  | some { hostIo := some io, .. } =>
    match io.descs[r.op]? with
    | some d => if d.kind = kind then some d else none
    | none => none
  | _ => none

/-- Run number of the next run of a descriptor (R470): committed runs, and complete ones that await their verdict. -/
def State.nextRun (s : State) (desc : Nat) : Nat :=
  (getKey s.host.runNo desc).getD 0 + (s.host.runs.filter fun r => decide (r.desc = desc)).length

/-- The port of a run: the first that the PORT policy allows and that is up (R471) (log 47). -/
def State.copyPort (s : State) (d : CopyDesc) : Option HPort :=
  let allowed : List HPort := if d.port = 0 then [.a] else if d.port = 1 then [.b] else if d.port = 2 then [.a, .b] else [.b, .a]
  allowed.find? s.portUp

/-- Host address of a run's buffer (R470). -/
def runBuffer (d : CopyDesc) (run : Nat) : Nat := d.hostAddr + (run % max 1 d.nbuf) * d.stride

/-- Requests that a port keeps outstanding (R464): 14-bit tags in Flit mode, else 10-bit tags (log 73). -/
def State.readLimit (s : State) (p : HPort) : Nat := if (s.hport p).flit then 1536 else 768

/-- Replace the run in progress of an engine. -/
def State.setCopy (s : State) (r : CopyRun) : State :=
  { s with host := { s.host with runs := s.host.runs.map fun (x : CopyRun) =>
    if x.engine = r.engine && !x.complete then r else x } }

/-- The run in progress of an engine. -/
def State.copyOf (s : State) (e : Nat) : Option CopyRun := s.host.runs.find? fun r => r.engine == e && !r.complete

/-- The descriptor of a run. -/
def State.descOf (s : State) (r : CopyRun) : Option CopyDesc :=
  match s.fing with
  | some { hostIo := some io, .. } => io.descs[r.desc]?
  | _ => none

/-- Issue further read requests of an H2D run, as many as the port takes (R464) (log 73). -/
def State.askMore (s : State) (r : CopyRun) (d : CopyDesc) : State :=
  let piece := max 1 (min 4096 (s.hport r.port).maxRead)
  let room := s.readLimit r.port - s.outstanding r.port
  let n := min room ((d.length - r.done + piece - 1) / piece)
  let parts := (List.range n).map fun i => (r.done + i * piece, min piece (d.length - (r.done + i * piece)))
  let s := parts.foldl (fun (s : State) (x : Nat × Nat) =>
    s.emit (.hostRead r.port (runBuffer d r.run + x.1) x.2 (some r.engine))) s
  s.setCopy { r with done := min d.length (r.done + n * piece), outstanding := r.outstanding ++ parts }

/-- A byte of the run's data has arrived (log 98). -/
def CopyRun.arrived (r : CopyRun) (i : Nat) : Bool :=
  decide (i < r.done) && !(r.outstanding.any fun (x : Nat × Nat) => decide (x.1 ≤ i ∧ i < x.1 + x.2))

/-- Abort a run (R482): what an H2D run has written at its destination is undefined, and its slot ends at once (log 98). -/
def State.abortCopy (s : State) (r : CopyRun) : State :=
  let s := { s with host := { s.host with runs := s.host.runs.filter fun x => !(x == r) } }
  let s := match s.descOf r with
    | some d =>
      if d.kind = 1 then
        let x := s.draw
        (List.range d.length).foldl (fun (s : State) (i : Nat) =>
          if r.arrived i then
            match s.resolve (d.taddr + i) with
            | some pl => s.unknow pl.loc x.1
            | none => s
          else s) x.2
      else s
    | none => s
  let s := s.abortRun r
  let u : UnitId := { cls := 4, idx := r.engine }
  let s := match s.runOf u with
    | some x => if r.complete then s else s.endRunOf u x
    | none => s
  s.showCe r.engine

/-- Start the run of a copy engine's slot on its port; no allowed port up aborts it (R471, R482) (log 47). -/
def State.startCopy (s : State) (e : Nat) (r : RunSlot) (d : CopyDesc) : Option (CopyRun × State) × State :=
  let u : UnitId := { cls := 4, idx := e }
  let run (p : HPort) : CopyRun :=
    { engine := e, desc := r.op, run := s.nextRun r.op, beat := r.beat, port := p, done := 0, outstanding := [], complete := false }
  match s.copyPort d with
  | none => (none, ((s.setFld (Reg.ceStatus e) 21 6 r.op).abortRun (run .a)).endRunOf u r)
  | some p =>
    let s := (s.setFld (Reg.ceStatus e) 21 6 r.op).setBit (Reg.ceStatus e) 3 (p == .b)
    let s := s.setRun u { r with prog := 1 }
    let c := run p
    let s := { s with host := { s.host with runs := s.host.runs ++ [c] } }
    (some (c, s.showCe e), s)

/-- The run has moved its bytes and awaits its verdict. -/
def State.completeCopy (s : State) (c : CopyRun) : State :=
  let u : UnitId := { cls := 4, idx := c.engine }
  let s := s.setCopy { c with complete := true, outstanding := [] }
  let s := match s.runOf u with
    | some r => s.endRunOf u r
    | none => s
  s.showCe c.engine

/-- A copy engine that starts its slot's descriptor of this kind: the run and what it moves. -/
def State.beginCopy (s : State) (e kind : Nat) (go : CopyDesc → CopyRun → State → State) : State :=
  match s.runOf { cls := 4, idx := e } with
  | none => s
  | some r =>
    match s.copyDesc kind r with
    | none => s
    | some d =>
      if r.prog ≠ 0 then s
      else
        match s.startCopy e r d with
        | (some (c, s'), _) => go d c s'
        | (none, s') => s'

/-- H2D (R464): read requests go out; the data comes with its completions. -/
def applyH2d (e : Nat) (s : State) : State :=
  s.beginCopy e 1 fun d c s => s.askMore c d

def execH2d (e : Nat) (s : State) : Host.Outcome State Fault Refusal := .next (applyH2d e s)

/-- Posted writes of a byte string from a host address on, of at most Max_Payload_Size each (R465). -/
def State.postWrites (s : State) (p : HPort) (addr : Nat) (data : Bytes) : State :=
  let piece := max 1 (s.hport p).maxPayload
  (List.range ((data.length + piece - 1) / piece)).foldl (fun (s : State) (i : Nat) =>
    s.emit (.hostWrite p (addr + i * piece) ((data.drop (i * piece)).take piece))) s

/-- D2H (R465). -/
def applyD2h (e : Nat) (s : State) : State :=
  s.beginCopy e 2 fun d c s =>
    let x := s.fetch (.copy e) d.taddr d.length
    ((x.2.postWrites c.port (runBuffer d c.run) x.1)).completeCopy { c with done := d.length }

def execD2h (e : Nat) (s : State) : Host.Outcome State Fault Refusal := .next (applyD2h e s)

/-- NOTIFY (R478): no data moves; commands take effect whole, so at the verdict every write of the window has already
reached memory. -/
def applyNotify (e : Nat) (s : State) : State := s.beginCopy e 3 fun _ c s => s.completeCopy c

def execNotify (e : Nat) (s : State) : Host.Outcome State Fault Refusal := .next (applyNotify e s)

/-- What stays outstanding of a request when bytes `[off, off + n)` of it arrive (log 73). -/
def cutAsk (off n : Nat) (x : Nat × Nat) : List (Nat × Nat) :=
  if x.1 ≤ off ∧ off + n ≤ x.1 + x.2 then
    (if x.1 < off then [(x.1, off - x.1)] else []) ++ (if off + n < x.1 + x.2 then [(off + n, x.1 + x.2 - (off + n))] else [])
  else [x]

/-- READ_COMPLETION (R464, R482): data goes to its place; an error or poisoned data aborts the run. A completion that
answers no outstanding request is discarded (logs 2, 73). -/
def applyReadCompletion (e : Nat) (c : CompletionKind) (s : State) : State :=
  match s.copyOf e with
  | none => s
  | some r =>
    match s.descOf r with
    | none => s
    | some d =>
      if r.outstanding.isEmpty then s
      else
        match c with
        | .error => s.abortCopy r
        | .poisoned => s.abortCopy r
        | .data off bytes =>
          let hit := r.outstanding.any fun (x : Nat × Nat) => decide (x.1 ≤ off ∧ off + bytes.length ≤ x.1 + x.2)
          if !hit || bytes.isEmpty then s
          else
            let s := s.store (.copy e) (d.taddr + off) bytes
            let r := { r with outstanding := r.outstanding.flatMap (cutAsk off bytes.length) }
            let s := s.setCopy r
            if r.outstanding.isEmpty && decide (r.done = d.length) then s.completeCopy r
            else s.askMore r d

def execReadCompletion (e : Nat) (c : CompletionKind) (s : State) : Host.Outcome State Fault Refusal :=
  .next (applyReadCompletion e c s)

/-- FLUSHING_READ_COMPLETE (R475, R476): the flag and the vector follow on the other port. -/
def applyFlushingReadComplete (id : Nat) (s : State) : State :=
  match s.host.flushing.find? fun f => f.id == id with
  | none => s
  | some f =>
    let s := { s with host := { s.host with flushing := s.host.flushing.filter fun x => !(x.id == id) } }
    (s.bumpSat Reg.xportFence 31 16 1).sendFlag f.port f.desc f.run

def execFlushingReadComplete (run : Nat) (s : State) : Host.Outcome State Fault Refusal :=
  .next (applyFlushingReadComplete run s)

/-- COMPLETION_TIMEOUT (R482): a read of the engine's run has been outstanding past the timeout. -/
def applyCompletionTimeout (e : Nat) (s : State) : State :=
  match s.copyOf e with
  | none => s
  | some r => if r.outstanding.isEmpty then s else s.abortCopy r

def execCompletionTimeout (e : Nat) (s : State) : Host.Outcome State Fault Refusal := .next (applyCompletionTimeout e s)

/-! ### Ports -/

/-- Replace a host port's own state. -/
def State.setHport (s : State) (p : HPort) (x : HostPort) : State :=
  match p with
  | .a => { s with host := { s.host with portA := x } }
  | .b => { s with host := { s.host with portB := x } }

/-- PORT_STATUS of a port. -/
def portStatus : HPort → Nat
  | .a => Reg.portStatusA
  | .b => Reg.portStatusB

/-- With RUN 0 and neither port in D0 with its link up, the device enters HOLD (R519) (log 109). -/
def State.holdIfAlone (s : State) : State :=
  if s.devState = 3 ∧ !s.running ∧ !s.portUp .a ∧ !s.portUp .b then s.enterHold else s

/-- A one-sided reset flushes the crossings of a domain (R528) (log 111). -/
def State.flushCrossing (s : State) (domain n : Nat) : State :=
  let s := (s.setBit Reg.xingStatus 2 true).bumpSat Reg.xingFlush 15 0 n
  (s.setFld Reg.xingFlush 23 16 domain).logEntry { code := 0xA013, cls := 0, unit := { typ := 15, idx := domain, sub := 0 } }

/-- Clear a port's reset domain (Table 12.8): its configuration, MSI-X table and CXL component registers (log 74). -/
def State.clearPortDomain (s : State) (p : HPort) : State :=
  let i := portIdx p
  let s := { s with regs := s.regs.filter fun (x : Nat × Word) =>
    !(decide (0x210000 + 0x1000 * i ≤ x.1) && decide (x.1 < 0x211000 + 0x1000 * i))
      && !(decide (0x220000 + 0x10000 * i ≤ x.1) && decide (x.1 < 0x230000 + 0x10000 * i)) }
  let s := s.setFld Reg.devState (6 + 2 * i) (5 + 2 * i) 0
  s.setHport p { HostPort.reset with up := (s.hport p).up, cxl := (s.hport p).cxl, flit := (s.hport p).flit }

/-- The port's link is down: it shows no width, exposes nothing, and every page returns to device bias with the HDM
port's coherence (R483, R484) (log 74). -/
def State.linkDown (s : State) (p : HPort) : State :=
  let s := ((s.setHport p { s.hport p with up := false, cxl := false, flit := false }).setFld (portStatus p) 10 0 0).setBit
    (portStatus p) 11 true
  match s.host.hdm with
  | some (q, _, _) =>
    if q = p then
      let s := { s with host := { s.host with hdm := none, hostBias := [], flips := [] } }
      (s.setBit Reg.biasCtl 1 false).showBias
    else s
  | none => s

/-- Reads that the port will not answer: copy runs abort, movers' accesses fail, flushing reads and a mailbox read end
(R346, R482, R496). -/
def State.retireReads (s : State) (p : HPort) : State :=
  let s := (s.host.runs.filter fun r => r.port == p).foldl (fun (s : State) (r : CopyRun) => s.abortCopy r) s
  let ms := (s.host.asks.filter fun (x : Nat × HPort) => x.2 == p).map (·.1)
  let s := { s with host := { s.host with
    asks := s.host.asks.filter fun (x : Nat × HPort) => !(x.2 == p)
    flushing := s.host.flushing.filter fun f => !(otherPort f.port == p) } }
  let s := ms.foldl (fun (s : State) (m : Nat) =>
    -- a homing's requests stand under a key past the movers' own
    if 64 ≤ m then
      match s.tier.moves.find? fun x => x.tensor == m - 64 && x.homing && !x.complete with
      | some x => s.raise { code := 0x6013, cls := 1
                            unit := { typ := 8, idx := s.homingMover ((s.halfOf x.target).getD 0), sub := 0 } }
      | none => s
    else
    let u : UnitId := { cls := 3, idx := m }
    match s.runOf u with
    | some r => if r.prog = 1 ∨ r.prog = 2 then (s.raise (moverEv r m 0x6013 1)).endRunOf u r else s
    | none => s) s
  if s.host.ctrl == p then applyMailboxReadComplete none s else s

/-- The port event can happen: PERST at any time with power, the others on a link that is up (logs 66, 74). -/
def State.portEvent (s : State) (p : HPort) (k : PortResetKind) : Bool :=
  s.power.powerOk && match k with
    | .perst => true
    | _ => (s.hport p).up

/-- PORT_RESET (R496, R493, R528, Table 12.8): `flushed` transfers were under way across the port's crossings (log 74). -/
def applyPortReset (p : HPort) (k : PortResetKind) (flushed : Nat) (s : State) : State :=
  if !s.portEvent p k then s
  else
    let up := (s.hport p).up
    let s := s.retireReads p
    let s := s.logEntry { code := 0x9002, cls := 0, unit := { typ := 12, idx := portIdx p, sub := 0 } }
    let s := s.clearPortDomain p
    let s := match k with
      | .linkDown => s
      | _ => s.setBit (portStatus p) 12 true
    let s := match k with
      | .flr => s
      | _ => if up then s.linkDown p else s
    let s := s.flushCrossing (1 + portIdx p) flushed
    let s := if s.host.ctrl = p then { s with host := { s.host with failing := true } } else s
    let s := match k with
      | .flr => s
      | _ => if up && (s.hport (otherPort p)).up then s.msix (otherPort p) 9 else s
    s.holdIfAlone

def execPortReset (p : HPort) (kind : PortResetKind) (flushed : Nat) (s : State) : Host.Outcome State Fault Refusal :=
  .next (applyPortReset p kind flushed s)

/-- Field code of a link speed in GT/s × 1: 1 for 2.5 to 6 for 64 (Table 11.14). -/
def linkWidthOk (w : Nat) : Bool := w == 1 || w == 2 || w == 4 || w == 8 || w == 16

/-- PCIE_LINK_UP (R454, R456, R481, R483): a port trains, in CXL mode when both sides offer it. The HDM range is taken
from HDM_CTL at this training (logs 74, 99). -/
def applyPcieLinkUp (p : HPort) (l : PortLink) (s : State) : State :=
  if !s.power.powerOk || s.pkg.testMode || (s.hport p).up || !linkWidthOk l.width || l.speed = 0 || 6 < l.speed then s
  else
    let allow := s.bit (match p with
      | .a => Reg.portCtlA
      | .b => Reg.portCtlB) 1
    let cxl := l.cxlOffered && allow && s.bit Reg.capPresent1 24
    -- at 64 GT/s a port runs in Flit mode (R454)
    let flit := l.flit || decide (l.speed = 6)
    let s := s.setHport p { up := true, bar2Log2 := l.bar2Log2, maxPayload := l.maxPayload, maxRead := l.maxRead,
                            msixOn := l.msixOn, cxl := cxl, flit := flit }
    let s := s.setFld (portStatus p) 10 0 ((if cxl then 3 else 2) + 4 * l.width + 128 * l.speed + (if flit then 1024 else 0))
    let mine := decide (s.fld Reg.hdmCtl 25 25 = portIdx p)
    let s := if cxl && mine && s.bit Reg.hdmCtl 26 && decide (0 < s.fld Reg.hdmCtl 24 12) then
        { s with host := { s.host with hdm := some (p, s.hdmBase, s.hdmSize) } }
      else s
    if (s.hport (otherPort p)).up then s.msix (otherPort p) 9 else s

def execPcieLinkUp (p : HPort) (link : PortLink) (s : State) : Host.Outcome State Fault Refusal :=
  .next (applyPcieLinkUp p link s)

/-- LINK_RECOVERY (R495): nothing is lost. -/
def applyLinkRecovery (p : HPort) (s : State) : State :=
  if (s.hport p).up then s.logEntry { code := 0x9001, cls := 0, unit := { typ := 12, idx := portIdx p, sub := 0 } } else s

def execLinkRecovery (p : HPort) (s : State) : Host.Outcome State Fault Refusal := .next (applyLinkRecovery p s)

/-- CXL_CACHE_TIMEOUT (R487): a request of the coherence agent of a hub, which makes them only in CXL mode. -/
def applyCxlCacheTimeout (hub : Nat) (s : State) : State :=
  if (s.host.portA.cxl || s.host.portB.cxl) && decide (hub < 2) then
    s.raise { code := 0x900B, cls := 1, unit := { typ := 14, idx := hub, sub := 0 } }
  else s

def execCxlCacheTimeout (hub : Nat) (s : State) : Host.Outcome State Fault Refusal := .next (applyCxlCacheTimeout hub s)

end Sys2Proof.Machine
end

