-- ==== Sys2Proof/Machine/Jpeg.lean ====
section
/-! DEFINITION. The decode lanes: ISO/IEC 10918-1 for 8-bit samples with Huffman coding, baseline and progressive, with the
reconstruction of R379, the colour conversion of R380 and the concealment of R381. -/

namespace Sys2Proof.Machine

open Sys2Proof

/-! ### Headers (R378) -/

/-- A payload as numbers. -/
abbrev JData := Array Nat

/-- Byte of a payload. -/
def jByte (b : JData) (p : Nat) : Nat := b.getD p 0

/-- Big-endian 16-bit field. -/
def jWord (b : JData) (p : Nat) : Nat := 256 * jByte b p + jByte b (p + 1)

/-- The marker at a position, fill bytes skipped: its code and the position after it. -/
def jMarker (b : JData) : Nat → Nat → Option (Nat × Nat)
  | 0, _ => none
  | n + 1, p =>
    if b.size ≤ p + 1 ∨ jByte b p ≠ 255 then none
    else if jByte b (p + 1) = 255 then jMarker b n (p + 1)
    else some (jByte b (p + 1), p + 2)

/-- Markers without a segment: TEM, RSTm, SOI. -/
def jBare (m : Nat) : Bool := m == 1 || (decide (0xD0 ≤ m) && decide (m ≤ 0xD8))

/-- Markers of frame headers: SOF0 to SOF15, without DHT, JPG and DAC. -/
def jSof (m : Nat) : Bool := decide (0xC0 ≤ m) && decide (m ≤ 0xCF) && m != 0xC4 && m != 0xC8 && m != 0xCC

/-- The segment at a position lies in the payload. -/
def jSegOk (b : JData) (p : Nat) : Bool := decide (2 ≤ jWord b p) && decide (p + jWord b p ≤ b.size)

/-- A component of the frame header. -/
structure JComp where
  id : Nat
  h : Nat
  v : Nat
  tq : Nat
deriving DecidableEq, Repr

/-- The frame header. -/
structure JFrame where
  sof : Nat
  prec : Nat
  height : Nat
  width : Nat
  comps : List JComp
deriving DecidableEq, Repr

/-- Read a frame header segment whose length field is at `p`. -/
def jFrame (b : JData) (m p : Nat) : Option JFrame :=
  let n := jByte b (p + 7)
  if jWord b p ≠ 8 + 3 * n then none
  else some
    { sof := m, prec := jByte b (p + 2), height := jWord b (p + 3), width := jWord b (p + 5)
      comps := (List.range n).map fun i =>
        let q := p + 8 + 3 * i
        { id := jByte b q, h := jByte b (q + 1) / 16, v := jByte b (q + 1) % 16, tq := jByte b (q + 2) } }

/-- Quantisation tables of a DQT segment body from `p` to `e`: precision, number and 64 values in zigzag order; `none`
for a table that leaves the segment. -/
def jDqt (b : JData) (e : Nat) : Nat → Nat → Option (List (Nat × Nat × List Nat))
  | 0, _ => some []
  | n + 1, p =>
    if e ≤ p then some []
    else
      let pq := jByte b p / 16
      let w := if pq = 0 then 1 else 2
      if e < p + 1 + 64 * w then none
      else
        let t := (List.range 64).map fun i => if pq = 0 then jByte b (p + 1 + i) else jWord b (p + 1 + 2 * i)
        (jDqt b e n (p + 1 + 64 * w)).map fun l => (pq, jByte b p % 16, t) :: l

/-- What the headers before the first SOS hold: the frame, and whether some quantisation table is not 8-bit. -/
def jHeaders (b : JData) : Nat → Nat → Option JFrame → Bool → Option (JFrame × Bool)
  | 0, _, _, _ => none
  | n + 1, p, fr, wide =>
    match jMarker b b.size p with
    | none => none
    | some (m, q) =>
      if m = 0xDA then fr.map fun f => (f, wide)
      else if m = 0xD9 then none
      else if jBare m then jHeaders b n q fr wide
      else if !jSegOk b q then none
      else if jSof m then
        if 0xC2 < m ∨ fr.isSome then none
        else
          match jFrame b m q with
          | some f => jHeaders b n (q + jWord b q) (some f) wide
          | none => none
      else if m = 0xDB then
        match jDqt b (q + jWord b q) b.size (q + 2) with
        | some l => jHeaders b n (q + jWord b q) fr (wide || l.any fun t => t.1 != 0)
        | none => none
      else jHeaders b n (q + jWord b q) fr wide

/-- The component factors that R378 takes: luma 1 or 2, chroma 1. -/
def jFactorsOk (l : List JComp) : Bool :=
  (l.length == 1 || l.length == 3) && l.zipIdx.all fun c =>
    if c.2 = 0 then (c.1.h == 1 || c.1.h == 2) && (c.1.v == 1 || c.1.v == 2) else c.1.h == 1 && c.1.v == 1

/-- Checks 1 to 4 of R378: the frame, or the code of the refusal with the declared size where a frame gives one (log 80). -/
def jCheck (b : JData) : Except (Nat × Nat × Nat) JFrame :=
  if jByte b 0 ≠ 255 ∨ jByte b 1 ≠ 0xD8 then .error (0x7013, 0, 0)
  else
    match jHeaders b b.size 2 none false with
    | none => .error (0x7013, 0, 0)
    | some (f, wide) =>
      let px := f.width * f.height
      if px = 0 ∨ 16384 < f.width ∨ 16384 < f.height ∨ 134217728 < px then .error (0x7010, f.width, f.height)
      else if 1024 * b.size < px then .error (0x7011, f.width, f.height)
      else if f.prec ≠ 8 ∨ wide ∨ !jFactorsOk f.comps then .error (0x7013, f.width, f.height)
      else .ok f

/-! ### Entropy-coded data -/

/-- Entropy-coded bytes between markers with the payload offset of each, the number of the RSTm before them, and the offset at
which they end. -/
structure JSeg where
  rst : Option Nat
  start : Nat
  data : Array (Nat × Nat)
  stop : Nat
deriving DecidableEq, Repr

/-- The segments of a scan from `p` on, and the position of the marker that ends it (log 80). -/
def jSegments (b : JData) : Nat → Nat → JSeg → List JSeg → List JSeg × Nat
  | 0, p, cur, acc => ((({ cur with stop := p } : JSeg) :: acc).reverse, p)
  | n + 1, p, cur, acc =>
    if b.size ≤ p then ((({ cur with stop := p } : JSeg) :: acc).reverse, p)
    else
      let x := jByte b p
      if x ≠ 255 then jSegments b n (p + 1) { cur with data := cur.data.push (p, x) } acc
      else
        let y := jByte b (p + 1)
        if p + 1 < b.size ∧ y = 0 then jSegments b n (p + 2) { cur with data := cur.data.push (p, 255) } acc
        else if p + 1 < b.size ∧ y = 255 then jSegments b n (p + 1) cur acc
        else if p + 1 < b.size ∧ 0xD0 ≤ y ∧ y ≤ 0xD7 then
          jSegments b n (p + 2) { rst := some (y - 0xD0), start := p, data := #[], stop := p + 2 } (({ cur with stop := p } : JSeg) :: acc)
        else ((({ cur with stop := p } : JSeg) :: acc).reverse, p)

/-- One bit; an error carries the bit position at which the data went wrong. -/
def JSeg.bit (g : JSeg) (i : Nat) : Except Nat Nat :=
  match g.data[i / 8]? with
  | some x => .ok (x.2 / 2 ^ (7 - i % 8) % 2)
  | none => .error i

/-- Payload offset of a bit position. -/
def JSeg.offset (g : JSeg) (i : Nat) : Nat :=
  match g.data[i / 8]? with
  | some x => x.1
  | none => g.stop

/-- A number of `n` bits, highest first, and the position after it. -/
def JSeg.take (g : JSeg) : Nat → Nat → Nat → Except Nat (Nat × Nat)
  | 0, i, acc => .ok (acc, i)
  | n + 1, i, acc =>
    match g.bit i with
    | .ok x => g.take n (i + 1) (2 * acc + x)
    | .error e => .error e

/-- The value of an amplitude of `n` bits. -/
def jExtend (v n : Nat) : Int := if n = 0 then 0 else if v < 2 ^ (n - 1) then (v : Int) - 2 ^ n + 1 else v

/-- A Huffman table: codes of each length 1 to 16, and the values in order of their codes. -/
structure JHuff where
  counts : List Nat
  vals : List Nat
deriving DecidableEq, Repr

/-- One Huffman code: its value and the position after it; `s` is where the code starts. -/
def jHuffGo (g : JSeg) (vals : List Nat) (s : Nat) : List Nat → Nat → Nat → Nat → Nat → Except Nat (Nat × Nat)
  | [], _, _, _, _ => .error s
  | c :: cs, i, code, first, idx =>
    match g.bit i with
    | .error e => .error e
    | .ok x =>
      let code := 2 * code + x
      if first ≤ code ∧ code < first + c then
        (match vals[idx + (code - first)]? with
        | some v => .ok (v, i + 1)
        | none => .error s)
      else jHuffGo g vals s cs (i + 1) code (2 * (first + c)) (idx + c)

def JHuff.next (h : JHuff) (g : JSeg) (i : Nat) : Except Nat (Nat × Nat) := jHuffGo g h.vals i h.counts i 0 0 0

/-- Huffman tables of a DHT segment body: class and number as 16 · class + number. -/
def jDht (b : JData) (e : Nat) : Nat → Nat → Option (List (Nat × JHuff))
  | 0, _ => some []
  | n + 1, p =>
    if e ≤ p then some []
    else if e < p + 17 then none
    else
      let cs := (List.range 16).map fun i => jByte b (p + 1 + i)
      let k := cs.sum
      if e < p + 17 + k then none
      else (jDht b e n (p + 17 + k)).map fun l =>
        (jByte b p % 32, { counts := cs, vals := (List.range k).map fun i => jByte b (p + 17 + i) }) :: l

/-- What one scan codes of a block: spectral band and bit planes. -/
structure JBand where
  progressive : Bool
  ss : Nat
  se : Nat
  ah : Nat
  al : Nat
deriving DecidableEq, Repr

/-- Coefficients of a component, 64 a block in zigzag order. -/
abbrev JCoefs := Array Int

/-- The DC coefficient of a block in the first scan that codes it: the difference to the one before. -/
def jDc (h : JHuff) (g : JSeg) (al : Nat) (co : JCoefs) (base : Nat) (pred : Int) (i : Nat) :
    Except Nat (JCoefs × Int × Nat) :=
  match h.next g i with
  | .error e => .error e
  | .ok (n, j) =>
    if 11 < n then .error i
    else
      match g.take n j 0 with
      | .error e => .error e
      | .ok (v, j) =>
        let p := pred + jExtend v n
        let x := p * 2 ^ al
        if x < -1024 ∨ 1023 < x then .error i else .ok (co.setIfInBounds base x, p, j)

/-- AC coefficients from `k` to `se` of a block: in a sequential scan, or in the first scan of a band. The third result counts
the blocks after this one that an end-of-band run covers. -/
def jAc (h : JHuff) (g : JSeg) (d : JBand) (base : Nat) : Nat → Nat → Nat → JCoefs → Except Nat (JCoefs × Nat × Nat)
  | 0, _, i, co => .ok (co, i, 0)
  | f + 1, k, i, co =>
    if d.se < k then .ok (co, i, 0)
    else
      match h.next g i with
      | .error e => .error e
      | .ok (rs, j) =>
        let r := rs / 16
        let n := rs % 16
        if n = 0 then
          if r = 15 then (if d.se < k + 15 then .error i else jAc h g d base f (k + 16) j co)
          else if !d.progressive then (if r = 0 then .ok (co, j, 0) else .error i)
          else
            (match g.take r j 0 with
            | .error e => .error e
            | .ok (x, j) => .ok (co, j, 2 ^ r + x - 1))
        else if 10 < n ∨ d.se < k + r then .error i
        else
          match g.take n j 0 with
          | .error e => .error e
          | .ok (v, j) =>
            let x := jExtend v n * 2 ^ d.al
            if x < -1023 ∨ 1023 < x then .error i
            else jAc h g d base f (k + r + 1) j (co.setIfInBounds (base + k + r) x)

/-- A nonzero coefficient with its next bit. -/
def jCorrect (x : Int) (al bit : Nat) : Int := if bit = 0 then x else if x < 0 then x - 2 ^ al else x + 2 ^ al

/-- Correct the nonzero coefficients from `k` on and pass `r` zero ones: the place of the next zero one. -/
def jPass (g : JSeg) (d : JBand) (base : Nat) : Nat → Nat → Nat → Nat → JCoefs → Except Nat (Nat × JCoefs × Nat)
  | 0, k, _, i, co => .ok (k, co, i)
  | f + 1, k, r, i, co =>
    if d.se < k then .ok (k, co, i)
    else
      let x := co.getD (base + k) 0
      if x ≠ 0 then
        match g.bit i with
        | .error e => .error e
        | .ok y => jPass g d base f (k + 1) r (i + 1) (co.setIfInBounds (base + k) (jCorrect x d.al y))
      else if r = 0 then .ok (k, co, i)
      else jPass g d base f (k + 1) (r - 1) i co

/-- AC coefficients of a block in a later scan of a band. -/
def jAcRefine (h : JHuff) (g : JSeg) (d : JBand) (base : Nat) : Nat → Nat → Nat → JCoefs → Except Nat (JCoefs × Nat × Nat)
  | 0, _, i, co => .ok (co, i, 0)
  | f + 1, k, i, co =>
    if d.se < k then .ok (co, i, 0)
    else
      match h.next g i with
      | .error e => .error e
      | .ok (rs, j) =>
        let r := rs / 16
        let n := rs % 16
        if n = 0 ∧ r < 15 then
          match g.take r j 0 with
          | .error e => .error e
          | .ok (x, j) =>
            (match jPass g d base 64 k 64 j co with
            | .error e => .error e
            | .ok (_, co, j) => .ok (co, j, 2 ^ r + x - 1))
        else if 1 < n then .error i
        else
          match g.take n j 0 with
          | .error e => .error e
          | .ok (x, j) =>
            match jPass g d base 64 k r j co with
            | .error e => .error e
            | .ok (k, co, j) =>
              if d.se < k then .error i
              else
                let v : Int := if x = 1 then 2 ^ d.al else -(2 ^ d.al)
                jAcRefine h g d base f (k + 1) j (if n = 0 then co else co.setIfInBounds (base + k) v)

/-- State of an interval: bit position, end-of-band run, DC predictions by component of the scan, coefficients. -/
structure JRun where
  pos : Nat
  eob : Nat
  pred : List Int
  co : List JCoefs
deriving DecidableEq, Repr

/-- Tables of one component of a scan. -/
structure JTab where
  dc : JHuff
  ac : JHuff
deriving DecidableEq, Repr

/-- One block of component `c` of the scan. -/
def jBlock (d : JBand) (t : JTab) (g : JSeg) (c base : Nat) (x : JRun) : Except Nat JRun :=
  let co := x.co.getD c #[]
  let put (co : JCoefs) (i eob : Nat) (p : Int) : JRun :=
    { pos := i, eob := eob, pred := setAt x.pred c p, co := setAt x.co c co }
  let p := x.pred.getD c 0
  if !d.progressive then
    match jDc t.dc g 0 co base p x.pos with
    | .error e => .error e
    | .ok (co, p, i) =>
      (match jAc t.ac g d base 64 1 i co with
      | .error e => .error e
      | .ok (co, i, _) => .ok (put co i 0 p))
  else if d.ss = 0 then
    if d.ah = 0 then
      match jDc t.dc g d.al co base p x.pos with
      | .error e => .error e
      | .ok (co, p, i) => .ok (put co i 0 p)
    else
      match g.bit x.pos with
      | .error e => .error e
      | .ok y => .ok (put (co.setIfInBounds base (co.getD base 0 + y * 2 ^ d.al)) (x.pos + 1) 0 p)
  else if d.ah = 0 then
    if 0 < x.eob then .ok (put co x.pos (x.eob - 1) p)
    else
      match jAc t.ac g d base 64 d.ss x.pos co with
      | .error e => .error e
      | .ok (co, i, eob) => .ok (put co i eob p)
  else if 0 < x.eob then
    match jPass g d base 64 d.ss 64 x.pos co with
    | .error e => .error e
    | .ok (_, co, i) => .ok (put co i (x.eob - 1) p)
  else
    match jAcRefine t.ac g d base 64 d.ss x.pos co with
    | .error e => .error e
    | .ok (co, i, eob) => .ok (put co i eob p)

/-- The blocks of one unit of a scan in order. -/
def jUnit (d : JBand) (ts : List JTab) (g : JSeg) : List (Nat × Nat) → JRun → Except Nat JRun
  | [], x => .ok x
  | (c, blk) :: rest, x =>
    match ts[c]? with
    | none => .error x.pos
    | some t =>
      match jBlock d t g c (64 * blk) x with
      | .error e => .error e
      | .ok y => jUnit d ts g rest y

/-- The units `u` to `u + n − 1` of an interval: the state after them, and the unit and bit position of an error. What the unit
in error has decoded does not matter: it is concealed. -/
def jInterval (d : JBand) (ts : List JTab) (g : JSeg) (blocks : Nat → List (Nat × Nat)) : Nat → Nat → JRun → JRun × Option (Nat × Nat)
  | 0, _, x => (x, none)
  | n + 1, u, x =>
    match jUnit d ts g (blocks u) x with
    | .error e => (x, some (u, e))
    | .ok y => jInterval d ts g blocks n (u + 1) y

/-! ### The image -/

/-- A component while it decodes: factors, blocks a row and rows of blocks (whole MCUs), blocks of its own extent, its table
and its coefficients. -/
structure JPlane where
  id : Nat
  h : Nat
  v : Nat
  bw : Nat
  bh : Nat
  nbw : Nat
  nbh : Nat
  tq : Nat
  q : Option (List Nat)
  co : JCoefs
deriving DecidableEq, Repr

/-- The decoder between segments. -/
structure JDec where
  mw : Nat
  mh : Nat
  planes : List JPlane
  qt : Store (List Nat)
  huff : Store JHuff
  ri : Nat
  hidden : Array Bool
  errAt : Option Nat
deriving DecidableEq, Repr

/-- Quotient rounded up. -/
def jCeil (a b : Nat) : Nat := (a + b - 1) / b

/-- The decoder at the start of an image. A 1-component image has MCUs of one block. -/
def jStart (f : JFrame) : JDec :=
  let solo := f.comps.length == 1
  let hm := if solo then 1 else ((f.comps.map (·.h)).foldl max 1)
  let vm := if solo then 1 else ((f.comps.map (·.v)).foldl max 1)
  let mw := jCeil f.width (8 * hm)
  let mh := jCeil f.height (8 * vm)
  { mw := mw, mh := mh, qt := [], huff := [], ri := 0, errAt := none, hidden := Array.replicate (mw * mh) false
    planes := f.comps.map fun c =>
      let h := if solo then 1 else c.h
      let v := if solo then 1 else c.v
      { id := c.id, h := h, v := v, bw := mw * h, bh := mh * v, nbw := jCeil (jCeil (f.width * h) hm) 8
        nbh := jCeil (jCeil (f.height * v) vm) 8, tq := c.tq, q := none, co := Array.replicate (64 * mw * h * mh * v) 0 } }

/-- Note an error at a payload offset: the first one counts. -/
def JDec.note (x : JDec) (off : Nat) : JDec := if x.errAt.isSome then x else { x with errAt := some off }

/-- Conceal MCUs (log 80). -/
def JDec.hide (x : JDec) (ms : List Nat) : JDec :=
  { x with hidden := ms.foldl (fun h m => h.setIfInBounds m true) x.hidden }

/-- Blocks of unit `u` of a scan over components: component of the scan and block number. -/
def jUnitBlocks (mw : Nat) (ps : List JPlane) (u : Nat) : List (Nat × Nat) :=
  match ps with
  | [p] => [(0, u / max 1 p.nbw * p.bw + u % max 1 p.nbw)]
  | _ => ps.zipIdx.flatMap fun p => (List.range (p.1.h * p.1.v)).map fun i =>
      (p.2, (u / max 1 mw * p.1.v + i / p.1.h) * p.1.bw + u % max 1 mw * p.1.h + i % p.1.h)

/-- MCU of unit `u` of a scan. -/
def jUnitMcu (mw : Nat) (ps : List JPlane) (u : Nat) : Nat :=
  match ps with
  | [p] => u / max 1 p.nbw / p.v * mw + u % max 1 p.nbw / p.h
  | _ => u

/-- Units of a scan. -/
def jUnits (mw mh : Nat) (ps : List JPlane) : Nat :=
  match ps with
  | [p] => p.nbw * p.nbh
  | _ => mw * mh

/-- The units `lo` to `hi − 1` of a scan are concealed (log 80). -/
def JDec.hideUnits (x : JDec) (ps : List JPlane) (lo hi : Nat) : JDec :=
  x.hide ((List.range (hi - lo)).map fun i => jUnitMcu x.mw ps (lo + i))

/-- One interval after another. `e` is the number that the RSTm before an interval must carry. A marker with the number of the
interval after shows that one is missing; any other wrong number is a misnumbered marker (log 80). -/
def jIntervals (d : JBand) (ts : List JTab) (ps : List JPlane) (total per last : Nat) :
    Nat → Nat → List JSeg → List JCoefs → JDec → List JCoefs × JDec
  | 0, _, _, co, x => (co, x)
  | f + 1, k, segs, co, x =>
    let lo := k * per
    let hi := min total (lo + per)
    match segs with
    | [] => jIntervals d ts ps total per last f (k + 1) [] co ((x.note last).hideUnits ps lo hi)
    | g :: rest =>
      let want := if k = 0 then none else some ((k - 1) % 8)
      if g.rst = want then
        let st : JRun := { pos := 0, eob := 0, pred := List.replicate ts.length 0, co := co }
        let y := jInterval d ts g (jUnitBlocks x.mw ps) (hi - lo) lo st
        let x := match y.2 with
          | some (u, e) => (x.note (g.offset e)).hideUnits ps u hi
          | none => x
        jIntervals d ts ps total per last f (k + 1) rest y.1.co x
      else
        let missing := decide (g.rst = some (k % 8))
        jIntervals d ts ps total per last f (k + 1) (if missing then segs else rest) co ((x.note g.start).hideUnits ps lo hi)

/-- A scan's components and their table numbers, from its header at `p`. -/
def jScanComps (b : JData) (x : JDec) (p : Nat) : Option (List (JPlane × Nat × Nat)) :=
  (List.range (jByte b (p + 2))).mapM fun i =>
    let q := p + 3 + 2 * i
    (x.planes.find? fun c => c.id == jByte b q).map fun c => (c, jByte b (q + 1) / 16, jByte b (q + 1) % 16)

/-- Tables that a scan needs are there, and its band is one that the process codes. -/
def jBandOk (d : JBand) (n : Nat) : Bool :=
  if !d.progressive then d.ss == 0 && d.se == 63 && d.ah == 0 && d.al == 0
  else decide (d.ss ≤ d.se) && decide (d.se ≤ 63) && decide (d.al ≤ 13) && (d.ah == 0 || d.ah == d.al + 1)
    && (if d.ss = 0 then d.se == 0 else n == 1)

def JHuff.empty : JHuff := { counts := [], vals := [] }

/-- One scan whose header's length field is at `p`; the position of the marker after it. A header that cannot be used is an error in
the first unit of a scan without restart intervals. -/
def jScan (b : JData) (progressive : Bool) (p : Nat) (x : JDec) : JDec × Nat :=
  let ns := jByte b (p + 2)
  let q := p + 3 + 2 * ns
  let d : JBand := { progressive := progressive, ss := jByte b q, se := jByte b (q + 1), ah := jByte b (q + 2) / 16,
                     al := jByte b (q + 2) % 16 }
  let y := jSegments b b.size (p + jWord b p) { rst := none, start := p + jWord b p, data := #[], stop := 0 } []
  let all : JDec := (x.note p).hide (List.range (x.mw * x.mh))
  match jScanComps b x p with
  | none => (all, y.2)
  | some cs =>
    let needDc := !progressive || (d.ss == 0 && d.ah == 0)
    let needAc := !progressive || d.ss != 0
    let ps := cs.map (·.1)
    let has (k : Nat) : Bool := (getKey x.huff k).isSome
    let ok := jWord b p == 6 + 2 * ns && decide (0 < ns) && jBandOk d ns
      && cs.all (fun c => (!needDc || has c.2.1) && (!needAc || has (16 + c.2.2))
        && (c.1.q.isSome || (getKey x.qt c.1.tq).isSome))
    if !ok then (if ps.isEmpty then all else (x.note p).hideUnits ps 0 (jUnits x.mw x.mh ps), y.2)
    else
      let ts : List JTab := cs.map fun c =>
        { dc := (getKey x.huff c.2.1).getD JHuff.empty, ac := (getKey x.huff (16 + c.2.2)).getD JHuff.empty }
      let total := jUnits x.mw x.mh ps
      let per := if x.ri = 0 then total else x.ri
      let z := jIntervals d ts ps total (max 1 per) y.2 (jCeil total (max 1 per)) 0 y.1 (ps.map (·.co)) x
      let planes := z.2.planes.map fun c =>
        match ps.findIdx? (fun p => p.id == c.id) with
        | some i => { c with co := z.1.getD i c.co, q := match c.q with
            | some t => some t
            | none => getKey x.qt c.tq }
        | none => c
      ({ z.2 with planes := planes }, y.2)

/-- The segments of the image in order. -/
def jWalk (b : JData) (progressive : Bool) : Nat → Nat → JDec → JDec
  | 0, _, x => x
  | n + 1, p, x =>
    match jMarker b b.size p with
    | none => x
    | some (m, q) =>
      if m = 0xD9 then x
      else if jBare m then jWalk b progressive n q x
      else if !jSegOk b q then x
      else
        let e := q + jWord b q
        if m = 0xDA then
          let y := jScan b progressive q x
          jWalk b progressive n y.2 y.1
        else if m = 0xDB then
          let l := ((jDqt b e b.size (q + 2)).getD []).filter fun t => t.1 == 0
          jWalk b progressive n e { x with qt := l.foldl (fun s t => putKey s t.2.1 t.2.2) x.qt }
        else if m = 0xC4 then
          let l := (jDht b e b.size (q + 2)).getD []
          jWalk b progressive n e { x with huff := l.foldl (fun s t => putKey s t.1 t.2) x.huff }
        else if m = 0xDD then jWalk b progressive n e { x with ri := jWord b (q + 2) }
        else jWalk b progressive n e x

/-! ### Reconstruction (R379) -/

/-- K[x][u] of R379. -/
def idctK : List (List Word) :=
  [[0x3EB504F3, 0x3EFB14BE, 0x3EEC835E, 0x3ED4DB31, 0x3EB504F3, 0x3E8E39DA, 0x3E43EF15, 0x3DC7C5C2],
   [0x3EB504F3, 0x3ED4DB31, 0x3E43EF15, 0xBDC7C5C2, 0xBEB504F3, 0xBEFB14BE, 0xBEEC835E, 0xBE8E39DA],
   [0x3EB504F3, 0x3E8E39DA, 0xBE43EF15, 0xBEFB14BE, 0xBEB504F3, 0x3DC7C5C2, 0x3EEC835E, 0x3ED4DB31],
   [0x3EB504F3, 0x3DC7C5C2, 0xBEEC835E, 0xBE8E39DA, 0x3EB504F3, 0x3ED4DB31, 0xBE43EF15, 0xBEFB14BE],
   [0x3EB504F3, 0xBDC7C5C2, 0xBEEC835E, 0x3E8E39DA, 0x3EB504F3, 0xBED4DB31, 0xBE43EF15, 0x3EFB14BE],
   [0x3EB504F3, 0xBE8E39DA, 0xBE43EF15, 0x3EFB14BE, 0xBEB504F3, 0xBDC7C5C2, 0x3EEC835E, 0xBED4DB31],
   [0x3EB504F3, 0xBED4DB31, 0x3E43EF15, 0x3DC7C5C2, 0xBEB504F3, 0x3EFB14BE, 0xBEEC835E, 0x3E8E39DA],
   [0x3EB504F3, 0xBEFB14BE, 0x3EEC835E, 0xBED4DB31, 0x3EB504F3, 0xBE8E39DA, 0x3E43EF15, 0xBDC7C5C2]]

/-- Places of the zigzag order: row-major place of coefficient `k`. -/
def zigzag : List Nat :=
  [0, 1, 8, 16, 9, 2, 3, 10, 17, 24, 32, 25, 18, 11, 4, 5, 12, 19, 26, 33, 40, 48, 41, 34, 27, 20, 13, 6, 7, 14, 21, 28] ++
  [35, 42, 49, 56, 57, 50, 43, 36, 29, 22, 15, 23, 30, 37, 44, 51, 58, 59, 52, 45, 38, 31, 39, 46, 53, 60, 61, 54, 47, 55, 62, 63]

/-- Sum of R379: it starts with its first term. -/
def idctSum : List Word → Word
  | [] => 0
  | t :: ts => ts.foldl addRne t

/-- Nearest-even integer of an FP32 value. -/
def nearest32 (w : Word) : Int :=
  match fp32 w with
  | .fin neg m e => nearestInt neg m e
  | _ => 0

/-- Clamp to 0 to 255. -/
def clamp255 (i : Int) : Nat := if i < 0 then 0 else if 255 < i then 255 else i.toNat

/-- One block of 64 samples, row by row, from its coefficients and its table in zigzag order. -/
def idctBlock (co : List Int) (q : List Nat) : Array Nat :=
  let f : Array Word := ((co.zip q).zip zigzag).foldl (fun a z => a.setIfInBounds z.2 (ofInt32 (z.1.1 * z.1.2)))
    (Array.replicate 64 0)
  let k (x u : Nat) : Word := (idctK.getD x []).getD u 0
  let r : Array Word := ((List.range 64).map fun i =>
    idctSum ((List.range 8).map fun u => mulRne (k (i % 8) u) (f.getD (i / 8 * 8 + u) 0))).toArray
  ((List.range 64).map fun i =>
    let c := idctSum ((List.range 8).map fun v => mulRne (k (i / 8) v) (r.getD (v * 8 + i % 8) 0))
    clamp255 (nearest32 (addRne c (ofInt32 128)))).toArray

/-- The samples of a component, block by block. -/
def JPlane.blocks (p : JPlane) : Array (Array Nat) :=
  ((List.range (p.bw * p.bh)).map fun b =>
    idctBlock ((List.range 64).map fun k => p.co.getD (64 * b + k) 0) (p.q.getD (List.replicate 64 0))).toArray

/-- MCU of a block of a component. -/
def JPlane.mcu (p : JPlane) (mw blk : Nat) : Nat := blk / max 1 p.bw / max 1 p.v * mw + blk % max 1 p.bw / max 1 p.h

/-- Nearest-even quotient of naturals. -/
def nearestDiv (a b : Nat) : Nat :=
  let q := a / b
  let r := a % b
  if b < 2 * r ∨ (2 * r = b ∧ q % 2 = 1) then q + 1 else q

/-- A component with its concealed MCUs filled with its mean over the others (R381). -/
def JPlane.filled (p : JPlane) (mw : Nat) (hidden : Array Bool) : Array (Array Nat) :=
  let bs := p.blocks
  let good := (List.range bs.size).filter fun b => !(hidden.getD (p.mcu mw b) false)
  let sum := (good.map fun b => (bs.getD b #[]).foldl (· + ·) 0).sum
  let mean := if good.isEmpty then 128 else nearestDiv sum (64 * good.length)
  ((List.range bs.size).map fun b =>
    if hidden.getD (p.mcu mw b) false then Array.replicate 64 mean else bs.getD b #[]).toArray

/-! ### Colour and size (R380) -/

/-- Sample of a component at (x, y). -/
def sampleAt (bw : Nat) (bs : Array (Array Nat)) (x y : Nat) : Nat :=
  (bs.getD (y / 8 * bw + x / 8) #[]).getD (y % 8 * 8 + x % 8) 0

/-- What a decoded image is: its size, its pixels as R, G and B at a place, and what R381 says of it. -/
structure JImage where
  width : Nat
  height : Nat
  total : Nat
  concealed : Nat
  firstMcu : Option Nat
  errAt : Option Nat
  planes : List (Nat × Nat × Nat × Array (Array Nat))
deriving DecidableEq, Repr

/-- A colour channel of a pixel: 0 R, 1 G, 2 B. -/
def JImage.pixel (m : JImage) (x y ch : Nat) : Nat :=
  match m.planes with
  | [(_, _, bw, bs)] => sampleAt bw bs x y
  | (h, v, bw, bs) :: (_, _, cw, cb) :: (_, _, dw, cr) :: _ =>
    let yy := ofInt32 (sampleAt bw bs x y)
    let db := subRne (ofInt32 (sampleAt cw cb (x / max 1 h) (y / max 1 v))) (ofInt32 128)
    let dr := subRne (ofInt32 (sampleAt dw cr (x / max 1 h) (y / max 1 v))) (ofInt32 128)
    let c := if ch = 0 then addRne yy (mulRne 0x3FB374BC dr)
      else if ch = 1 then subRne (subRne yy (mulRne 0x3EB03298 db)) (mulRne 0x3F36D19E dr)
      else addRne yy (mulRne 0x3FE2D0E5 db)
    clamp255 (nearest32 c)
  | _ => 0

/-- rne of a quotient of naturals. -/
def quotient32 (a b : Nat) : Word :=
  let n := a <<< 96
  arith32 false (2 * (n / b) + if n % b = 0 then 0 else 1) (-97)

/-- A source coordinate of R380: the two places and the fraction between them. -/
def resizeAt (j : Nat) (r : Word) (size : Nat) : Nat × Nat × Word :=
  let s := fma32 (addRne (ofInt32 j) 0x3F000000) r 0xBF000000
  let top := ofInt32 ((size : Int) - 1)
  let s := if cmp32 2 s 0 then 0 else if cmp32 4 s top then top else s
  let x0 := match fp32 s with
    | .fin _ m e => if 0 ≤ e then m <<< e.toNat else m >>> (-e).toNat
    | _ => 0
  (x0, min (x0 + 1) (size - 1), subRne s (ofInt32 x0))

/-- The FP32 outputs of an image in the order height, width, channel (R380). -/
def JImage.outputs (m : JImage) (w h : Nat) (mean scale : List Word) : List Word :=
  let rx := quotient32 m.width w
  let ry := quotient32 m.height h
  (List.range h).flatMap fun i =>
    let (y0, y1, ay) := resizeAt i ry m.height
    (List.range w).flatMap fun j =>
      let (x0, x1, ax) := resizeAt j rx m.width
      (List.range 3).map fun ch =>
        let p (x y : Nat) : Word := ofInt32 (m.pixel x y ch)
        let lerp (a b t : Word) : Word := fma32 t (subRne b a) a
        let o := lerp (lerp (p x0 y0) (p x1 y0) ax) (lerp (p x0 y1) (p x1 y1) ax) ay
        mulRne (subRne o (mean.getD ch 0)) (scale.getD ch 0)

/-- A record's image, or its refusal: the code, with what a damage record says of it (R378, R381). -/
structure JRefusal where
  code : Nat
  width : Nat
  height : Nat
  errAt : Option Nat
  firstMcu : Option Nat
  concealed : Nat
  total : Nat
deriving DecidableEq, Repr

/-- Decode a payload (R378 to R381). -/
def jpegDecode (payload : Bytes) : Except JRefusal JImage :=
  let b : JData := (payload.map fun x => x.toNat).toArray
  match jCheck b with
  | .error (c, w, h) => .error { code := c, width := w, height := h, errAt := none, firstMcu := none, concealed := 0, total := 0 }
  | .ok f =>
    let x := jWalk b (f.sof == 0xC2) b.size 2 (jStart f)
    let total := x.mw * x.mh
    let hidden := (List.range total).filter fun m => x.hidden.getD m false
    if total < 20 * hidden.length then
      .error { code := 0x7012, width := f.width, height := f.height, errAt := x.errAt, firstMcu := hidden.head?
               concealed := hidden.length, total := total }
    else
      .ok { width := f.width, height := f.height, total := total, concealed := hidden.length, firstMcu := hidden.head?
            errAt := x.errAt, planes := x.planes.map fun p => (p.h, p.v, p.bw, p.filled x.mw x.hidden) }

end Sys2Proof.Machine
end

