-- ==== Sys2Proof/Machine/Tokens.lean ====
section
/-! DEFINITION. The tokenizer lanes: UTF-8 validation by maximal subparts and the longest-match walk of the dictionary (R383 to
R385). -/

namespace Sys2Proof.Machine

open Sys2Proof

/-- Range of the second byte of a UTF-8 sequence with this lead, and the sequence's length; `none` for a byte that leads none. -/
def utf8Lead (b : Nat) : Option (Nat × Nat × Nat) :=
  if b < 0x80 then some (0x80, 0xBF, 1)
  else if b < 0xC2 then none
  else if b < 0xE0 then some (0x80, 0xBF, 2)
  else if b = 0xE0 then some (0xA0, 0xBF, 3)
  else if b = 0xED then some (0x80, 0x9F, 3)
  else if b < 0xF0 then some (0x80, 0xBF, 3)
  else if b = 0xF0 then some (0x90, 0xBF, 4)
  else if b < 0xF4 then some (0x80, 0xBF, 4)
  else if b = 0xF4 then some (0x80, 0x8F, 4)
  else none

/-- How many further bytes of a sequence are well formed, at most `n`; the first lies in `lo` to `hi`. -/
def utf8Tail (lo hi : Nat) : Nat → List Nat → Nat
  | 0, _ => 0
  | _ + 1, [] => 0
  | n + 1, b :: rest => if lo ≤ b ∧ b ≤ hi then 1 + utf8Tail 0x80 0xBF n rest else 0

/-- For each byte, whether it lies in an ill-formed subpart (R383). -/
def utf8Bad : Nat → List Nat → List Bool
  | 0, _ => []
  | _ + 1, [] => []
  | n + 1, b :: rest =>
    match utf8Lead b with
    | none => true :: utf8Bad n rest
    | some (lo, hi, len) =>
      let k := utf8Tail lo hi (len - 1) rest
      List.replicate (k + 1) (decide (k + 1 < len)) ++ utf8Bad n (rest.drop k)

/-- A dictionary in memory (Table 9.3): how its fields are read, and its number of nodes. -/
structure Trie where
  read : Nat → Nat → Nat
  nodes : Nat

/-- Token of a node. -/
def Trie.token (t : Trie) (n : Nat) : Option Nat :=
  let v := t.read (0x40 + 16 * n) 4
  if v = 0xFFFFFFFF then none else some v

/-- Child of a node on a byte. -/
def Trie.child (t : Trie) (n b : Nat) : Option Nat :=
  let first := t.read (0x40 + 16 * n + 4) 4
  let count := t.read (0x40 + 16 * n + 8) 2
  let edge (i : Nat) : Nat := 0x40 + 16 * t.nodes + 8 * (first + i)
  ((List.range count).find? fun i => t.read (edge i) 1 == b).map fun i => t.read (edge i + 4) 4

/-- The walk from a node: the longest match so far, as token and bytes used. -/
def Trie.walk (t : Trie) : Nat → Nat → List (Nat × Bool) → Option (Nat × Nat) → Option (Nat × Nat)
  | _, _, [], best => best
  | n, k, (b, bad) :: rest, best =>
    if bad then best
    else
      match t.child n b with
      | none => best
      | some c =>
        t.walk c (k + 1) rest (match t.token c with
          | some v => some (v, k + 1)
          | none => best)

/-- Tokens of a payload (R384). -/
def Trie.tokens (t : Trie) (byteBase : Nat) : Nat → List (Nat × Bool) → List Nat
  | 0, _ => []
  | _ + 1, [] => []
  | n + 1, (b, bad) :: rest =>
    if bad then (byteBase + b) :: t.tokens byteBase n rest
    else
      match t.walk 0 0 ((b, bad) :: rest) none with
      | some (v, k) => v :: t.tokens byteBase n (((b, bad) :: rest).drop k)
      | none => (byteBase + b) :: t.tokens byteBase n rest

/-- What a text payload becomes: its tokens with BOS and EOS, the first invalid byte and the number of invalid bytes. -/
structure TextOut where
  tokens : List Nat
  firstBad : Option Nat
  bad : Nat
deriving DecidableEq, Repr

/-- Tokenize a payload. -/
def tokenizeText (t : Trie) (byteBase bos eos : Nat) (payload : Bytes) : TextOut :=
  let bs := payload.map fun x => x.toNat
  let bad := utf8Bad bs.length bs
  let body := t.tokens byteBase bs.length (bs.zip bad)
  { tokens := (if bos = 0xFFFFFFFF then [] else [bos]) ++ body ++ (if eos = 0xFFFFFFFF then [] else [eos])
    firstBad := bad.findIdx? id, bad := (bad.filter id).length }

end Sys2Proof.Machine
end

