-- ==== Sys2Proof/Machine/Forager.lean ====
section
/-! DEFINITION. The forager: records, lanes, the cache and the batcher (R371 to R404). -/

namespace Sys2Proof.Machine

open Sys2Proof

/-! ### Damage, refusals and counters -/

/-- Replace the forager state. -/
def State.setFor (s : State) (f : ForSt) : State := { s with forager := f }

/-- Samples refused or dropped (Table 9.20). -/
def State.countRefused (s : State) (f n : Nat) : State := s.bumpSat (Reg.forgRefused f) 15 0 n

/-- A record that is dropped (log 67). -/
def State.dropRecord (s : State) (f stream : Nat) (r : SampleRec) : State :=
  (s.damage { code := 0x701A, stream := stream, flags := 0, sampleId := r.sampleId, srcSeq := r.srcSeq
              total := if r.kind = 2 then r.payload.length else 0, length := r.length }).countRefused f 1

/-- What a staged sample starts from. -/
def stagedOf (f stream : Nat) (r : SampleRec) : Staged9 :=
  { forager := f, stream := stream, sampleId := r.sampleId, srcSeq := r.srcSeq, refetch := r.refetch, long := false, flags := 0
    data := [], units := 0, order := 0, crc := r.crc.toNat, total := if r.kind = 2 then r.payload.length else 0, declW := 0
    declH := 0, length := r.length, byteOff := 0xFFFFFFFFFFFFFFFF, mcu := 0xFFFFFFFF, count := 0, marker := false }

/-- Put a sample among the staged ones, the latest in ready order. -/
def State.putStaged (s : State) (x : Staged9) : State :=
  s.setFor { s.forager with staged := s.forager.staged ++ [{ x with order := s.forager.order }], order := s.forager.order + 1 }

/-- The damage record of a sample. -/
def Staged9.damage (x : Staged9) (code flags : Nat) : Damage :=
  { code := code, stream := x.stream, flags := flags, sampleId := x.sampleId, srcSeq := x.srcSeq, byteOff := x.byteOff
    mcu := x.mcu, count := x.count, total := x.total, declW := x.declW, declH := x.declH, length := x.length }

/-- A refused sample (R376, R378, R392): its damage record, the counter, and the mark that fixed mode meets in its row. -/
def State.refuseSample (s : State) (x : Staged9) (code : Nat) : State :=
  let s := (s.damage (x.damage code 2)).countRefused x.forager 1
  s.putStaged { x with flags := 2, data := [], units := 0, crc := 0, marker := true }

/-! ### Staging and the cache (R377, R387, R388) -/

/-- Bytes that the staged, long and retained samples hold. -/
def State.stagedBytes (s : State) : Nat :=
  ((s.forager.staged ++ s.forager.long ++ s.forager.manifests.flatMap (·.samples)).map fun x => x.data.length).sum

/-- STAGING has space for a sample of `n` bytes (log 75). -/
def State.stagingFits (s : State) (c : ForCfg) (n : Nat) : Bool :=
  match s.tensor c.staging with
  | some t => decide (s.stagedBytes + n ≤ t.size)
  | none => false

/-- The layout of STAGING is the forager's own: its bytes are undefined to everyone else (log 75). -/
def State.scratchStaging (s : State) (c : ForCfg) : State :=
  match (s.tensor c.staging).bind fun t => (s.homeOf t).map fun h => (h, t.size) with
  | some (h, n) => s.undefineRange h n
  | none => s

/-- Room in a forager's long queue moves waiting long samples into it, in ready order (R396). -/
def State.fillLong (s : State) (f : Nat) : State :=
  let waits := s.forager.staged.filter fun x => x.forager == f && x.long && !x.marker && !x.refetch
  let room := 64 - (s.forager.long.filter fun x => x.forager == f).length
  let go := waits.take room
  let marks := go.map fun x => { x with flags := 4, data := [], units := 0, crc := x.crc, marker := true }
  s.setFor { s.forager with
    staged := (s.forager.staged.filter fun x => !(go.contains x)) ++ marks
    long := s.forager.long ++ go }

/-- Stage a sample and write the damage record that it carries: 0x7001 for a concealed image, 0x7002 for invalid text. -/
def State.stage (s : State) (c : ForCfg) (x : Staged9) : State :=
  let fwd := 1 + (if x.flags / 16 % 2 = 1 then 4 else 0)
  let s := if x.flags % 2 = 1 then
      (s.damage (x.damage 0x7001 fwd)).bumpSat (Reg.forgRefused x.forager) 31 16 1
    else if x.flags / 8 % 2 = 1 then s.damage (x.damage 0x7002 1) else s
  ((s.scratchStaging c).putStaged x).fillLong x.forager

/-- The cached result of a record; a refetched record is decoded again (R400) (log 76). -/
def State.cached (s : State) (c : ForCfg) (stream : Nat) (r : SampleRec) : Option Staged9 :=
  if c.cache = 0xFFFFFFFF ∨ (r.refetch && r.kind != 3) then none
  else (s.forager.cache.find? fun e => e.1 == stream && e.2.1 == r.sampleId && e.2.2.1 == c.configTag).map fun e => e.2.2.2

/-- The layout of CACHE is the forager's own: its bytes are undefined to everyone else (log 75). -/
def State.scratchCache (s : State) (c : ForCfg) : State :=
  match (s.tensor c.cache).bind fun t => (s.homeOf t).map fun h => (h, t.size) with
  | some (h, n) => s.undefineRange h n
  | none => s

/-- Insert a staged sample into the cache (R387); a sample decoded again takes the place of its own entry. -/
def State.cacheFill (s : State) (c : ForCfg) (st : FStream) (x : Staged9) : State :=
  if !st.cacheFill || c.cache = 0xFFFFFFFF then s
  else
    let rest := s.forager.cache.filter fun e => !(e.1 == x.stream && e.2.1 == x.sampleId && e.2.2.1 == c.configTag)
    let used := (rest.map fun e => e.2.2.2.data.length).sum
    let size := ((s.tensor c.cache).map (·.size)).getD 0
    if used + x.data.length ≤ size then
      (s.setFor { s.forager with cache := rest ++ [(x.stream, x.sampleId, c.configTag, x)] }).scratchCache c
    else
      let s := (s.bumpSat (Reg.forgCache x.forager) 31 16 1).setBit Reg.forgStatus 2 true
      (s.forgCode 0x7083).raiseCycle 0x7083 { code := 0x7083, cls := 0, unit := { typ := 11, idx := x.forager, sub := 8 } }

/-- Stage a record from the cache (R388): the cached result under the record's own place in its stream (log 76). -/
def State.stageCached (s : State) (c : ForCfg) (f stream : Nat) (r : SampleRec) (e : Staged9) : State :=
  let x := { e with forager := f, stream := stream, sampleId := r.sampleId, srcSeq := r.srcSeq, refetch := r.refetch,
                    length := r.length, crc := r.crc.toNat }
  (s.stage c x).bumpSat (Reg.forgCache f) 15 0 1

/-- Records of the queue that the cache holds and STAGING has space for are staged without a lane (log 76). -/
def State.drainCached (s : State) : State :=
  match s.forCfg with
  | none => s
  | some c =>
    s.forager.queue.foldl (fun (s : State) (q : Queued) =>
      match s.stream q.stream, s.cached c q.stream q.sample with
      | some st, some e =>
        if s.stagingFits c e.data.length then
          let s := s.setFor { s.forager with queue := s.forager.queue.filter fun y => !(y == q) }
          s.stageCached c st.forager q.stream q.sample e
        else s
      | _, _ => s) s

/-! ### Records (R376) -/

/-- The stream of a record by its COORD: the device's own role, or the lost partner's during a takeover. -/
def State.recordStream (s : State) (r : SampleRec) : Option Nat :=
  if r.coord = s.self then (if r.stream < 16 then some r.stream else none)
  else if s.casc.takeover && (match s.plan with
      | some { route := some t, .. } => t.twin != 0xFFFFFFFF && unpackCoord t.twin == r.coord
      | _ => false) then
    (if r.stream < 16 then some (r.stream + 16) else none)
  else none

/-- An accepted record (R376 rules 5 and 6, R388): refused, staged from the cache, or queued. -/
def State.acceptRecord (s : State) (c : ForCfg) (st : FStream) (f stream : Nat) (r : SampleRec) : State :=
  let x := stagedOf f stream r
  let suits := (r.kind == 1 && st.kind == 1) || (r.kind == 2 && st.kind == 2) || r.kind == 3
  if !suits then s.refuseSample x 0x701D
  else if crc32c r.payload ≠ r.crc.toNat then s.refuseSample x 0x7014
  else
    match s.cached c stream r with
    | none =>
      if r.kind = 3 then s.refuseSample x 0x7017
      else s.setFor { s.forager with queue := s.forager.queue ++ [{ stream := stream, sample := r }] }
    | some e =>
      if s.stagingFits c e.data.length then s.stageCached c f stream r e
      else s.setFor { s.forager with queue := s.forager.queue ++ [{ stream := stream, sample := r }] }

/-- Skipped SRC_SEQ values (R376 rule 4): one damage record, and a mark for each in fixed mode (log 67). -/
def State.skipped (s : State) (f stream want got : Nat) : State :=
  let s := (s.damage { code := 0x7018, stream := stream, flags := 2, sampleId := 0, srcSeq := want, count := got - want }).countRefused f
    (got - want)
  (List.range (got - want)).foldl (fun (s : State) (i : Nat) =>
    let r : SampleRec := { length := 0, kind := 0, stream := stream % 16, refetch := false, coord := s.self, crc := 0, sampleId := 0,
                           srcSeq := want + i, payload := [] }
    s.putStaged { stagedOf f stream r with flags := 2, marker := true }) s

/-- SAMPLE_RECORD: a whole record reaches forager `f`, from an intake port or the host path (R376). Without a FORAGER_CONFIG it is
dropped without a trace (R403). -/
def applySampleRecord (f : Nat) (r : SampleRec) (s : State) : State :=
  match s.forCfg with
  | none => s
  | some c =>
    match s.recordStream r with
    | none => s.dropRecord f (r.stream % 32) r
    | some stream =>
      match s.stream stream with
      | none => s.dropRecord f stream r
      | some st =>
        if st.forager ≠ f ∨ (st.partner && !s.casc.takeover) then s.dropRecord f stream r
        else if r.refetch then
          let key := (stream, r.sampleId, r.srcSeq)
          if s.forager.refetch.contains key then
            (s.setFor { s.forager with refetch := s.forager.refetch.filter fun y => !(y == key) }).acceptRecord c st f stream r
          else s.dropRecord f stream r
        else
          let want := (getKey s.forager.expect stream).getD 0
          if r.srcSeq < want then s.dropRecord f stream r
          else
            let s := if want < r.srcSeq then s.skipped f stream want r.srcSeq else s
            let s := s.setFor { s.forager with expect := putKey s.forager.expect stream (r.srcSeq + 1) }
            s.acceptRecord c st f stream r

def execSampleRecord (f : Nat) (_q : Option Nat) (smp : SampleRec) (s : State) : Host.Outcome State Fault Refusal :=
  .next (applySampleRecord f smp s)

/-! ### Lanes (R373, R378 to R386) -/

/-- The oldest queued record of a stream. -/
def State.nextRecord (s : State) (stream : Nat) : Option Queued := s.forager.queue.find? fun q => q.stream == stream

/-- The record that a lane works on for a stream: the sample that it suspended in an earlier slot of that stream, else the oldest queued
record (R373). -/
def State.laneRecord (s : State) (lane stream : Nat) : Option Queued :=
  match s.forager.suspended.find? fun x => x.1 == lane && x.2.stream == stream with
  | some x => some x.2
  | none => s.nextRecord stream

/-- A record leaves the queue, or the lane that suspended it. -/
def State.takeRecord (s : State) (lane : Nat) (q : Queued) : State :=
  if s.forager.suspended.contains (lane, q) then
    s.setFor { s.forager with suspended := s.forager.suspended.filter fun x => !(x == (lane, q)) }
  else s.setFor { s.forager with queue := s.forager.queue.filter fun y => !(y == q) }

/-- The slot's budget ends with the sample in progress: the lane suspends it (R373). -/
def State.suspend (s : State) (lane : Nat) (q : Queued) : State :=
  let s := s.takeRecord lane q
  s.setFor { s.forager with suspended := s.forager.suspended ++ [(lane, q)] }

/-- The converted output of an image: bytes of the elements, then of the scales, and what the watch counts (R380, R232). -/
def State.imageOut (s : State) (st : FStream) (m : JImage) : Bytes × WDelta :=
  let vals := m.outputs st.tgtW st.tgtH st.mean st.scale
  let y := if st.outZf8 then s.drainZf8 st.watch vals.length [vals] else drainPlain .bf16 [vals]
  let x := (elemsDelta 0xFFFFFFFF (0x50 + st.forager) y.elems).merge (ovfDelta y.ovf)
  (y.rows.flatten ++ y.scales, x)

/-- JPEG_DECODE: a decode lane goes on with the sample that it suspended, or takes the next record of its slot's stream, and stages the
result, or suspends the sample when the slot's budget ends first (`ends` is false) (R373, R378 to R382) (log 75). -/
def applyJpegDecode (f lane : Nat) (ends : Bool) (s : State) : State :=
  let u := 9 * f + lane
  match s.runOf { cls := 6, idx := u }, s.forCfg with
  | some r, some c =>
    let s := s.drainCached
    match s.stream r.op, s.laneRecord u r.op with
    | some st, some q =>
      if 4 ≤ lane ∨ st.kind ≠ 1 ∨ st.forager ≠ f ∨ q.sample.kind ≠ 1 then s
      else
        let x := stagedOf f q.stream q.sample
        match jpegDecode q.sample.payload with
        | .error e =>
          if !ends then s.suspend u q
          else
            (s.takeRecord u q).refuseSample { x with declW := e.width, declH := e.height, total := e.total, count := e.concealed
                                                     byteOff := e.errAt.getD 0xFFFFFFFFFFFFFFFF, mcu := e.firstMcu.getD 0xFFFFFFFF }
              e.code
        | .ok m =>
          let y := s.imageOut st m
          if !s.stagingFits c y.1.length then s
          else if !ends then s.suspend u q
          else
            let hide := decide (0 < m.concealed)
            let x := { x with
              data := y.1, units := 1, total := m.total, declW := m.width, declH := m.height, count := m.concealed
              byteOff := m.errAt.getD 0xFFFFFFFFFFFFFFFF, mcu := m.firstMcu.getD 0xFFFFFFFF
              flags := if hide then (if st.concealMask then 17 else 1) else 0 }
            let s := (s.takeRecord u q).feed f none st.watch y.2
            (s.stage c x).cacheFill c st x
    | _, _ => s
  | _, _ => s

def execJpegDecode (f : Nat) (x : LaneTurn) (s : State) : Host.Outcome State Fault Refusal :=
  .next (applyJpegDecode f x.lane x.ends s)

/-- The dictionary of a stream as the device reads it. -/
def State.trie (s : State) (st : FStream) : Trie :=
  let base : Nat := match (s.tensor st.dict).bind s.homeOf with
    | some h => h
    | none => 0
  { read := fun off n => leNat (s.view (base + off) n), nodes := leNat (s.view base 4) }

/-- Largest BUDGET of the long ops of a stream; `none` without one (R396). -/
def ForCfg.longBudget (c : ForCfg) (stream : Nat) : Option Nat :=
  (c.ops.filter fun o => o.long && o.stream == stream).foldl (fun m o => some (max (m.getD 0) o.budget)) none

/-- TOKENIZE: a tokenizer lane (`lane` 0 to 3) goes on with the sample that it suspended, or takes the next record of its slot's stream,
and stages the result, or suspends the sample when the slot's budget ends first (`ends` is false) (R373, R383, R384, R396) (log 75). -/
def applyTokenize (f lane : Nat) (ends : Bool) (s : State) : State :=
  let u := 9 * f + 4 + lane
  match s.runOf { cls := 6, idx := u }, s.forCfg with
  | some r, some c =>
    let s := s.drainCached
    match s.stream r.op, s.laneRecord u r.op with
    | some st, some q =>
      if 4 ≤ lane ∨ st.kind ≠ 2 ∨ st.forager ≠ f ∨ q.sample.kind ≠ 2 then s
      else
        let x := stagedOf f q.stream q.sample
        let refuse (code : Nat) : State := if ends then (s.takeRecord u q).refuseSample x code else s.suspend u q
        if 67108864 < q.sample.payload.length then refuse 0x7019
        else
          let y := tokenizeText (s.trie st) st.byteBase st.bosId st.eosId q.sample.payload
          let n := y.tokens.length
          let long := decide (st.longAt < n)
          let room : Bool := match c.longBudget q.stream with
            | some b => st.longOk && decide (n ≤ b)
            | none => false
          if long && !room then refuse 0x7016
          else
            let data := y.tokens.flatMap fun v => leBytes 4 v
            if !s.stagingFits c data.length then s
            else if !ends then s.suspend u q
            else
              let x := { x with data := data, units := n, long := long, count := y.bad
                                byteOff := y.firstBad.getD 0xFFFFFFFFFFFFFFFF, flags := if 0 < y.bad then 8 else 0 }
              ((s.takeRecord u q).stage c x).cacheFill c st x
    | _, _ => s
  | _, _ => s

def execTokenize (f : Nat) (x : LaneTurn) (s : State) : Host.Outcome State Fault Refusal :=
  .next (applyTokenize f x.lane x.ends s)

/-! ### Batches (R389 to R400) -/

/-- An entry of a micro-batch: the sample or the mark in it, its first token or image and its length. -/
structure Pick where
  sample : Staged9
  start : Nat
  len : Nat
deriving DecidableEq, Repr

/-- The ready samples of a stream for an op: regular or long, in ready order. -/
def State.readyFor (s : State) (o : BatchDesc) : List Staged9 :=
  if o.long then s.forager.long.filter fun x => x.stream == o.stream
  else s.forager.staged.filter fun x => x.stream == o.stream && !x.marker && !x.long && !x.refetch

/-- The scan of streaming mode (R391): samples that fit, in ready order. It stops at a full budget, at 4,096 entries, and after `limit`
samples, past which it goes on only while the placed tokens lie below `fill` (log 77). -/
def scanPicks (budget fill limit : Nat) : Nat → Nat → Nat → List Staged9 → List Pick
  | _, _, _, [] => []
  | seen, placed, used, x :: rest =>
    if budget ≤ used ∨ 4096 ≤ placed ∨ (limit ≤ seen ∧ fill ≤ used) then []
    else if used + x.units ≤ budget then
      { sample := x, start := used, len := x.units } :: scanPicks budget fill limit (seen + 1) (placed + 1) (used + x.units) rest
    else scanPicks budget fill limit (seen + 1) placed used rest

/-- Tokens or images that picks place. -/
def usedBy (ps : List Pick) : Nat := (ps.map (·.len)).sum

/-- Fresh picks in streaming mode; `none` while the op waits for FILL_MIN (log 77). -/
def State.streamPicks (s : State) (st : FStream) (o : BatchDesc) : Option (List Pick) :=
  let ready := s.readyFor o
  let ps := scanPicks o.budget o.fillMin (if st.kind = 2 then 64 else 4096) 0 0 0 ready
  if usedBy ps < o.fillMin then none else some ps

/-- SRC_SEQ values of a stream's records that no lane has finished: queued or suspended. -/
def State.undecoded (s : State) (stream : Nat) : List Nat :=
  ((s.forager.suspended.map (·.2) ++ s.forager.queue).filter fun q => q.stream == stream && !q.sample.refetch).map fun q => q.sample.srcSeq

/-- SRC_SEQ values of a stream that wait to be batched, lowest first (log 77). -/
def State.waitingSeqs (s : State) (stream : Nat) : List Nat :=
  let a := s.undecoded stream
  let b := (s.forager.staged.filter fun x => x.stream == stream && !x.refetch).map (·.srcSeq)
  (a ++ b).foldl (fun l i => insertIdx i l) []

/-- The sample or mark with a SRC_SEQ, once it is ready. -/
def State.seqReady (s : State) (stream seq : Nat) : Option Staged9 :=
  s.forager.staged.find? fun x => x.stream == stream && x.srcSeq == seq && !x.refetch && (x.marker || !x.long)

/-- Samples by ascending SRC_SEQ. -/
def bySeq : List Staged9 → List Staged9
  | [] => []
  | x :: rest => ((bySeq rest).filter fun y => decide (y.srcSeq < x.srcSeq)) ++ x :: (bySeq rest).filter fun y => !decide (y.srcSeq < x.srcSeq)

/-- One sample a row. -/
def rowPicks (o : BatchDesc) (xs : List Staged9) : List Pick :=
  xs.zipIdx.map fun (x : Staged9 × Nat) => { sample := x.1, start := x.2 * o.seq, len := x.1.units }

/-- Fresh picks of a long op in fixed mode (R392, R397): the next long samples of the stream in SRC_SEQ order. The op waits while a row has
no sample, or an earlier record could still become a long sample (log 77). -/
def State.longPicks (s : State) (o : BatchDesc) : Option (List Pick) :=
  let xs := (bySeq ((s.readyFor o).filter fun x => decide (x.units ≤ o.seq))).take o.rows
  let open_ := s.undecoded o.stream
    ++ (s.forager.staged.filter fun x => x.stream == o.stream && x.long && !x.marker && !x.refetch).map (·.srcSeq)
  let early : Bool := xs.any fun x => open_.any fun i => decide (i < x.srcSeq)
  if xs.length < o.rows ∨ early then none else some (rowPicks o xs)

/-- Fresh picks in fixed mode (R392): one row each in SRC_SEQ order; `none` while a row's sample is not ready (log 77). -/
def State.fixedPicks (s : State) (o : BatchDesc) : Option (List Pick) :=
  if o.long then s.longPicks o
  else
    let seqs := (s.waitingSeqs o.stream).take o.rows
    if seqs.length < o.rows then none else (seqs.mapM fun i => s.seqReady o.stream i).map (rowPicks o)

/-- The bytes of a micro-batch: text (Table 9.5). -/
def textBatch (st : FStream) (o : BatchDesc) (ps : List Pick) : Bytes :=
  let at_ (i : Nat) : Option (Nat × Nat × Nat) :=
    (ps.zipIdx.find? fun p => decide (p.1.start ≤ i ∧ i < p.1.start + p.1.len)).map fun p =>
      (p.2, i - p.1.start, fieldAt p.1.sample.data (4 * (i - p.1.start)) 4)
  let cells := (List.range o.budget).map at_
  let field (n : Nat) (pad : Nat) (g : Nat × Nat × Nat → Nat) : Bytes := cells.flatMap fun c => leBytes n (match c with
    | some x => g x
    | none => pad)
  field 4 st.padId (·.2.2) ++ field 2 0xFFFF (·.1) ++ field 4 0 (·.2.1) ++ field 1 0 (fun _ => 1)

/-- Bytes of elements and of scales of one image of a stream. -/
def FStream.imageBytes (st : FStream) : Nat × Nat :=
  let n := st.tgtW * st.tgtH * 3
  if st.outZf8 then (n, (n + 31) / 32) else (2 * n, 0)

/-- The bytes of a micro-batch: images (Table 9.5). The scales of a padding image are free values (log 31); NaN blocks would not be
the +0 that R393 asks for. -/
def imageBatch (st : FStream) (o : BatchDesc) (ps : List Pick) (stamp : Nat) : Bytes :=
  let (ne, ns) := st.imageBytes
  let at_ (i : Nat) : Option Staged9 := (ps.find? fun p => decide (p.start = i ∧ p.len = 1)).map (·.sample)
  let pad (i j : Nat) : Byte := if Config.freeByte stamp (i * ns + j) = 0xFF then 0xFE else Config.freeByte stamp (i * ns + j)
  let imgs := List.range o.budget
  let elems (i : Nat) : Bytes := match at_ i with
    | some x => x.data.take ne
    | none => zeroBytes ne
  let scales (i : Nat) : Bytes := match at_ i with
    | some x => x.data.drop ne
    | none => (List.range ns).map (pad i)
  let mask (i : Nat) : Byte := match at_ i with
    | some x => if x.flags / 16 % 2 = 1 then 0 else 1
    | none => 0
  imgs.flatMap elems ++ imgs.flatMap scales ++ imgs.map mask

/-- Write a micro-batch to its target. -/
def State.writeBatch (s : State) (f : Nat) (st : FStream) (o : BatchDesc) (ps : List Pick) : State :=
  match s.tensor o.target with
  | none => s
  | some t =>
    let x := s.draw
    x.2.store (.forager f 8) t.taddr (if st.kind = 2 then textBatch st o ps else imageBatch st o ps x.1)

/-- A manifest entry (Table 9.7). -/
def Pick.entry (p : Pick) : Bytes :=
  leBytes 8 p.sample.sampleId ++ leBytes 8 p.sample.srcSeq ++ leBytes 4 p.start ++ leBytes 4 p.len ++ leBytes 1 p.sample.stream
    ++ leBytes 1 p.sample.flags ++ zeroBytes 2 ++ leBytes 4 (if p.sample.flags / 2 % 2 = 1 then 0 else p.sample.crc)

/-- A manifest (Table 9.7). -/
def manifestBytes (cycle k : Nat) (o : BatchDesc) (ps : List Pick) (fixed partner : Bool) (pos : Nat) : Bytes :=
  leBytes 8 cycle ++ leBytes 2 o.mbIndex ++ leBytes 2 k ++ leBytes 2 ps.length ++ leBytes 1 (if fixed then 1 else 0)
    ++ leBytes 1 ((if o.long then 1 else 0) + (if partner then 2 else 0)) ++ leBytes 2 pos ++ zeroBytes 2
    ++ leBytes 4 (usedBy ps) ++ zeroBytes 40 ++ ps.flatMap Pick.entry

/-- The manifest place of op `k`: tensor address. The partner's manifests lie in a mirror tensor (R402), whose op numbers are the
partner's: its place there is the one that last held the op's MB_INDEX in a cycle of the same parity (log 32). -/
def State.manifestAt (s : State) (c : ForCfg) (k : Nat) (o : BatchDesc) (partner : Bool) (cycle : Nat) : Option Nat :=
  let own := (s.tensor c.manifest).map fun t => t.taddr + 64 + (2 * k + cycle % 2) * 131136
  let other := if partner then (s.partnerManifest.bind fun t =>
      ((List.range ((t.size - 64) / 131136)).find? fun j => decide (j % 2 = cycle % 2)
        && fieldAt (s.view (t.taddr + 64 + j * 131136) 16) 8 2 == o.mbIndex
        && fieldAt (s.view (t.taddr + 64 + j * 131136) 16) 12 2 != 0).map fun j => t.taddr + 64 + j * 131136)
    else none
  match other with
  | some a => some a
  | none => own

/-- CYCLE of the MANIFEST tensor (R395). -/
def State.manifestCycle (s : State) (c : ForCfg) : Nat :=
  match s.tensor c.manifest with
  | some t => leNat (s.view t.taddr 8)
  | none => 0

/-- A manifest of the op for the cycle stands at an address: its header names them, and it holds an entry or this run wrote it (log 78). -/
def State.manifestStands (s : State) (a k : Nat) (o : BatchDesc) (cycle : Nat) : Bool :=
  let h := s.view a 64
  fieldAt h 0 8 == cycle && fieldAt h 8 2 == o.mbIndex
    && (fieldAt h 12 2 != 0 || s.forager.manifests.any fun m => m.op == k && m.cycle == cycle)

/-- An entry read back: identifiers, place, length, flags and CRC. -/
structure MEntry where
  sampleId : Nat
  srcSeq : Nat
  start : Nat
  len : Nat
  stream : Nat
  flags : Nat
  crc : Nat
deriving DecidableEq, Repr

/-- The entries of a manifest. -/
def State.manifestEntries (s : State) (a : Nat) : List MEntry :=
  (List.range (min 4096 (fieldAt (s.view a 64) 12 2))).map fun i =>
    let b := s.view (a + 64 + 32 * i) 32
    { sampleId := fieldAt b 0 8, srcSeq := fieldAt b 8 8, start := fieldAt b 16 4, len := fieldAt b 20 4, stream := fieldAt b 24 1
      flags := fieldAt b 25 1, crc := fieldAt b 28 4 }

/-- The retained sample of an entry. -/
def State.retained (s : State) (e : MEntry) (stream : Nat) : Option Staged9 :=
  (s.forager.manifests.flatMap (·.samples)).find? fun x => x.sampleId == e.sampleId && x.srcSeq == e.srcSeq && x.stream == stream

/-- The answer to an entry's refetch. -/
def State.answer (s : State) (e : MEntry) (stream : Nat) : Option Staged9 :=
  s.forager.staged.find? fun x => x.refetch && x.sampleId == e.sampleId && x.srcSeq == e.srcSeq && x.stream == stream

/-- A refetched sample has been asked for, or its answer waits for a lane. -/
def State.asked (s : State) (key : Nat × Nat × Nat) : Bool :=
  s.forager.refetch.contains key
    || (s.forager.suspended.map (·.2) ++ s.forager.queue).any fun q => q.sample.refetch && (q.stream, q.sample.sampleId, q.sample.srcSeq) == key

/-- A refetch request (R400): SAMPLE_ID, SRC_SEQ, STREAM and the COORD of the role (log 79). -/
def State.requestBytes (s : State) (st : FStream) (stream : Nat) (e : MEntry) : Bytes :=
  let who : Nat := match s.plan with
    | some { route := some r, .. } => if st.partner then r.twin else packCoord s.self
    | _ => packCoord s.self
  leBytes 8 e.sampleId ++ leBytes 8 e.srcSeq ++ leBytes 4 (stream % 16) ++ leBytes 4 who ++ zeroBytes 8

/-- Request an entry's sample from its source (R400, R429): in a REQUEST frame on the stream's intake port, which must carry frames, or
through the request ring (log 79). -/
def State.requestSample (s : State) (st : FStream) (stream : Nat) (e : MEntry) : State :=
  let key := (stream, e.sampleId, e.srcSeq)
  if s.asked key || (st.intake && !s.portUsable st.port) then s
  else
    let b := s.requestBytes st stream e
    let s := s.setFor { s.forager with refetch := s.forager.refetch ++ [key] }
    if st.intake then s.askSource st.port b
    else
      let n := s.fld Reg.forgErrCtl 31 16
      let head := (s.reg Reg.forgReqHead).toNat
      let s := s.store (.forager st.forager 8) (s.ringAddr Reg.forgReqBaseLo + 32 * (head % max 1 n)) b
      s.setReg Reg.forgReqHead (BitVec.ofNat 32 (head + 1))

/-- What stands for an entry in a rebuild: its sample, padding, or nothing yet. -/
inductive Rebuilt where
  | sample (x : Staged9)
  | padding
  | differs (x : Staged9)
  | waits

/-- An entry holds a sample. -/
def MEntry.live (e : MEntry) : Bool := e.flags / 2 % 4 == 0

/-- Look an entry up (R398, R400). A host stream without a request ring pads. -/
def State.rebuild (s : State) (st : FStream) (stream : Nat) (e : MEntry) : Rebuilt :=
  if !e.live then .padding
  else
    match s.retained e stream with
    | some x => .sample x
    | none =>
      match s.answer e stream with
      | some x => if x.marker || x.crc != e.crc then .differs x else .sample x
      | none => if !st.intake && s.fld Reg.forgErrCtl 31 16 == 0 then .differs (stagedOf st.forager stream
          { length := 0, kind := 0, stream := 0, refetch := true, coord := s.self, crc := 0, sampleId := e.sampleId, srcSeq := e.srcSeq,
            payload := [] })
        else .waits

/-- Entry `i` is waiting for its source. -/
def Rebuilt.isWait : Rebuilt → Bool
  | .waits => true
  | _ => false

/-- Bookkeeping of a rebuilt micro-batch: its samples are retained, its answers used up (log 78). -/
def State.keepRebuilt (s : State) (k beat cycle : Nat) (o : BatchDesc) (ps : List Pick) (es : List MEntry) (stream : Nat) : State :=
  let mine (x : Staged9) : Bool := x.stream == stream && es.any fun e => e.sampleId == x.sampleId && e.srcSeq == x.srcSeq
  s.setFor { s.forager with
    staged := s.forager.staged.filter fun x => !(x.refetch && mine x)
    refetch := s.forager.refetch.filter fun (y : Nat × Nat × Nat) =>
      !(y.1 == stream && es.any fun e => e.sampleId == y.2.1 && e.srcSeq == y.2.2)
    manifests := (s.forager.manifests.filter fun m => !(m.op == k && m.cycle == cycle)) ++
      [{ op := k, mb := o.mbIndex, cycle := cycle, beat := beat, samples := ps.map (·.sample), committed := false }] }

/-- Rebuild a micro-batch from its manifest (R398, R400): requests for what is missing, or the batch once nothing is. -/
def State.rebuildBatch (s : State) (u : UnitId) (r : RunSlot) (f : Nat) (st : FStream) (o : BatchDesc) (a cycle : Nat) : State :=
  let es := s.manifestEntries a
  let rs := es.map fun e => (e, s.rebuild st o.stream e)
  if rs.any fun x => x.2.isWait then
    let s := rs.foldl (fun (s : State) (x : MEntry × Rebuilt) => if x.2.isWait then s.requestSample st o.stream x.1 else s) s
    s.setBit Reg.forgStatus 4 true
  else
    let s := rs.foldl (fun (s : State) (x : MEntry × Rebuilt) => match x.2 with
      | .differs y =>
        let s := s.damage (({ y with sampleId := x.1.sampleId, srcSeq := x.1.srcSeq } : Staged9).damage 0x701B 4)
        (s.forgCode 0x7085).raise
          { code := 0x7085, cls := 0, unit := { typ := 11, idx := f, sub := 8 }, place := some (r.pos, r.slot), beat := some r.beat }
      | _ => s) s
    -- a row that pads keeps its entry index for SEG
    let ps : List Pick := rs.map fun x => match x.2 with
      | .sample y => { sample := y, start := x.1.start, len := x.1.len }
      | _ => { sample := stagedOf f o.stream { length := 0, kind := 0, stream := 0, refetch := false, coord := s.self, crc := 0,
                                               sampleId := x.1.sampleId, srcSeq := x.1.srcSeq, payload := [] }, start := x.1.start, len := 0 }
    let live := ps.filter fun p => decide (0 < p.len)
    let s := (s.writeBatch f st o ps).keepRebuilt r.op r.beat cycle o live es o.stream
    (s.setBit Reg.forgStatus 4 false).endRunOf u r

/-- Write a fresh micro-batch with its manifest (R394, R395, R398): its samples leave the ready queue. -/
def State.freshBatch (s : State) (u : UnitId) (r : RunSlot) (f : Nat) (st : FStream) (o : BatchDesc) (a cycle : Nat)
    (fixed : Bool) (ps : List Pick) : State :=
  let s := s.writeBatch f st o ps
  let s := s.store (.forager f 8) a (manifestBytes cycle r.op o ps fixed st.partner r.pos)
  let taken (x : Staged9) : Bool := ps.any fun p => p.sample == x
  let gone (x : Staged9) : Bool := taken x || (!fixed && x.marker && x.stream == o.stream)
  let real := (ps.filter fun p => !p.sample.marker).map (·.sample)
  let s := s.setFor { s.forager with
    staged := s.forager.staged.filter fun x => !(gone x)
    long := s.forager.long.filter fun x => !(taken x)
    manifests := (s.forager.manifests.filter fun m => !(m.op == r.op && m.cycle == cycle)) ++
      [{ op := r.op, mb := o.mbIndex, cycle := cycle, beat := r.beat, samples := real, committed := false }] }
  ((s.bumpPair (Reg.forgSamplesLo f) real.length).fillLong f).endRunOf u r

/-- BATCH_OP: the batcher of forager `f` builds the micro-batch of its slot's op (R389 to R398). Nothing happens while the op
waits for samples. -/
def applyBatchOp (f : Nat) (s : State) : State :=
  let u : UnitId := { cls := 6, idx := 9 * f + 8 }
  match s.runOf u, s.forCfg with
  | some r, some c =>
    let s := s.drainCached
    match c.ops[r.op]? with
    | none => s
    | some o =>
      match s.stream o.stream with
      | none => s
      | some st =>
        let cycle := s.manifestCycle c
        match s.manifestAt c r.op o st.partner cycle with
        | none => s
        | some a =>
          if s.manifestStands a r.op o cycle then s.rebuildBatch u r f st o a cycle
          else
            let fixed := ((s.window r.beat).map (·.fixed)).getD s.forager.fixed
            match (if fixed then s.fixedPicks o else s.streamPicks st o) with
            | none => s
            | some ps => s.freshBatch u r f st o a cycle fixed ps
  | _, _ => s

def execBatchOp (f : Nat) (s : State) : Host.Outcome State Fault Refusal := .next (applyBatchOp f s)

end Sys2Proof.Machine
end

