-- ==== Sys2Proof/Machine/Mirror.lean ====
section
/-! DEFINITION. The twin's side of mirroring, COPY frames and requests for them (R297 to R304, R310, R364, R450). -/

namespace Sys2Proof.Machine

open Sys2Proof

/-! ### Sending -/

/-- Send a range of a tensor as COPY frames of at most 4 KiB, each read when it is issued (R304) (log 55). -/
def State.sendCopy (s : State) (lost : Bool) (t : Tensor) (off len : Nat) : State :=
  (List.range ((len + 4095) / 4096)).foldl (fun (s : State) (i : Nat) =>
    let o := off + 4096 * i
    let n := min 4096 (off + len - o)
    s.sendMirror lost s.beatNow 5 0 t.id o s.beatNow (s.view (t.taddr + o) n)) s

/-- The shard of the running plan that a tensor belongs to. -/
def State.shardOf (s : State) (id : Nat) : Option Shard :=
  match s.updCfg with
  | some u => u.shards.find? fun h => h.ids.contains id
  | none => none

/-- Update slots wait until the frames sent so far have been acknowledged (R302). -/
def State.holdUpdates (s : State) : State := { s with upd := { s.upd with refresh := some s.twinNext } }

/-- A request of the twin (R302, R303, R364): a 4 KiB page, the STATE, MASTER and EMA tensors of the tensor's shard, for which this
device's update slots then wait, or, where no shard of this device holds it, the tensor itself. -/
def State.takeRequest (s : State) (tensor : Nat) (off : Option Nat) : State :=
  match s.tensor tensor with
  | none => s
  | some t =>
    if !(s.mirrors t) && t.cls != 5 then s
    else
      match off with
      | some o =>
        let base := o / 4096 * 4096
        if base < t.size then s.sendCopy false t base (min 4096 (t.size - base)) else s
      | none =>
        match s.shardOf tensor with
        | some h => ((s.copySet h).foldl (fun s t => s.sendCopy false t 0 t.size) s).holdUpdates
        | none => s.sendCopy false t 0 t.size

/-- The copy to an adopting spare begins (R310): every mirror tensor, then every mirrored tensor of this device. The place behind its last
frame is kept: the copy has come once everything before it has been acknowledged (R311) (log 90). -/
def State.startSpare (s : State) : State :=
  if s.casc.spare then s
  else
    let s := { s with casc := { s.casc with spare := true } }
    match s.fing with
    | none => s
    | some g =>
      let s := (g.tensors.filter fun t => t.cls == 5).foldl (fun s t => s.sendCopy true t 0 t.size) s
      let s := (g.tensors.filter fun t => t.mirrored).foldl (fun s t => s.sendCopy false t 0 t.size) s
      { s with casc := { s.casc with copyEnd := some s.twinNext } }

/-! ### Receiving -/

/-- A mirror frame counts towards its window's FENCE (R301): a frame with SEQ 0 opens a window, and one with SEQ n is the next of a
window of which n have come (log 55). -/
def noteSeq (n : Nat) : List Nat → List Nat
  | [] => if n = 0 then [1] else []
  | k :: ks => if n ≠ 0 ∧ k = n then (n + 1) :: ks else k :: noteSeq n ks

/-- A mirror frame other than FENCE is counted. -/
def State.countFrame (s : State) (f : MirrorFrame) : State :=
  { s with casc := { s.casc with rxOpen := noteSeq f.seq s.casc.rxOpen } }

/-- A mirror-path write to a range of a tensor of the running fingering that has a copy at the twin (R297, R303). -/
def State.mirrorPut (s : State) (id off : Nat) (data : Bytes) : State :=
  match s.tensor id with
  | some t => if (t.cls = 5 ∨ t.mirrored) ∧ off + data.length ≤ t.size then s.store .mirror (t.taddr + off) data else s
  | none => s

/-- The writes that a stage frame's payload holds (log 30); the fuel bounds their number. -/
def unpackWrites : Nat → Bytes → Writes
  | 0, _ => []
  | n + 1, b =>
    if b.length < 16 then []
    else
      let len := fieldAt b 12 4
      (fieldAt b 0 4, fieldAt b 4 8, (b.drop 16).take len) :: unpackWrites n (b.drop (16 + len))

/-- MOM_STEP and CAP_STEP of the mirror tag that a stage writes last (log 30). -/
def State.mirrorTag (s : State) (ws : Writes) : Option (Nat × Nat × Nat) :=
  match ws.getLast? with
  | some w => (s.tensor w.1).map fun t =>
      let b := s.view (t.taddr + w.2.1) 8
      (w.1, fieldAt b 0 4, fieldAt b 4 4)
  | none => none

/-- A stage frame at the twin (Table 7.3): applied whole, ignored as a duplicate, or a stamp fault, whose shard is refreshed during the
replay (R302). -/
def State.stageFrame (s : State) (weights : Bool) (f : MirrorFrame) : State :=
  let ws := unpackWrites f.payload.length f.payload
  match s.mirrorTag ws with
  | none => s
  | some (id, mom, cap) =>
    let fits := if weights then mom == f.stamp && cap != f.stamp else mom == cap && mom != f.stamp
    let dup := if weights then cap == f.stamp else mom == f.stamp
    if fits then ws.foldl (fun (s : State) (w : Nat × Nat × Bytes) => s.mirrorPut w.1 w.2.1 w.2.2) s
    else if dup then s.raise { code := 0x5040, cls := 0 }
    else
      let due := if s.casc.refreshDue.contains id then s.casc.refreshDue else s.casc.refreshDue ++ [id]
      State.raise { s with casc := { s.casc with refreshDue := due } } { code := 0x5047, cls := 1 }

/-- FENCE (R301): the window's frame count as declared, and as received. -/
def State.takeFence (s : State) (f : MirrorFrame) : State :=
  let got := if s.casc.rxOpen.contains f.offset then f.offset else (s.casc.rxOpen.filter fun k => decide (k < f.offset)).foldl max 0
  { s with casc := { s.casc with
      fences := s.casc.fences ++ [(f.stamp, f.offset)], mirrorRx := s.casc.mirrorRx ++ [(f.stamp, got)]
      rxOpen := s.casc.rxOpen.erase got } }

/-- Bytes of a tensor that have come in COPY frames, from its start without a hole. -/
def State.noteCopied (s : State) (id off len : Nat) : State :=
  let got := (getKey s.casc.copied id).getD 0
  if off ≤ got ∧ got < off + len then { s with casc := { s.casc with copied := putKey s.casc.copied id (off + len) } } else s

/-- Bytes of a tensor under restoration that are still to come (R303) (log 95). -/
def State.noteRestored (s : State) (id len : Nat) : State :=
  { s with upd := { s.upd with restore := s.upd.restore.filterMap fun (x : Nat × Nat) =>
      (if x.1 ≠ id then some x else if x.2 ≤ len then none else some (x.1, x.2 - len)) } }

/-- COPY (R304, R303, R310, R364, R450): a mirror-path write; a page of a listed codeword repairs it. -/
def State.takeCopy (s : State) (f : MirrorFrame) : State :=
  let s := s.mirrorPut f.object f.offset f.payload
  let s := (s.noteRestored f.object f.payload.length).noteCopied f.object f.offset f.payload.length
  s.tryReady

/-- What a whole mirror frame does at the twin, by its KIND (R298, R299, R301, R304). -/
def State.takeMirror (s : State) (f : MirrorFrame) : State :=
  match f.kind with
  | 1 => (s.countFrame f).mirrorPut f.object f.offset f.payload
  | 2 => (s.countFrame f).stageFrame false f
  | 3 => (s.countFrame f).stageFrame true f
  | 4 => s.takeFence f
  | 5 => (s.countFrame f).takeCopy f
  | _ => s

end Sys2Proof.Machine
end

