-- ==== Sys2Proof/Machine/Links.lean ====
section
/-! DEFINITION. Tlararel frames: delivery, forwarding, the link ops, the loss and the training of ports (R411 to R431, R442 to
R444). -/

namespace Sys2Proof.Machine

open Sys2Proof

/-! ### Delivery (R427, R428, R339 to R342) -/

/-- TADDR of a window frame: the window, its expiry, the layer index and the 4 KiB page of the copy (log 33). -/
def windowTaddr (o : LinkOp) (off : Nat) : Nat :=
  2 ^ 63 + (o.window % 64) * 2 ^ 57 + (min o.expClass 7) * 2 ^ 54 + (o.expCore % 64) * 2 ^ 48 + (o.expSlot % 256) * 2 ^ 40
    + (o.dst % 2 ^ 20) * 2 ^ 20 + off / 4096

/-- Place the data of a window frame: it waits while the previous copy in its buffer has not expired (R342). The copy stands with
its last frame (log 33). -/
def State.fillWindow (s : State) (q : Nat) (f : Frame) : Option State :=
  let a := f.taddr
  let w := a / 2 ^ 57 % 64
  let layer := a / 2 ^ 20 % 2 ^ 20
  match s.tierCfg.bind fun c => c.streams[w]? with
  | none => some s
  | some st =>
    let buf := layer % (st.depth + 1)
    if s.windowLive (w, buf) then none
    else
      let beat := s.agentBeat (.link q true)
      let s := s.store (.link q true) (st.bufBase + buf * st.bufSize + 4096 * (a % 2 ^ 20)) f.payload
      if f.flags % 2 = 1 then
        let cls := a / 2 ^ 54 % 8
        some (s.addCopy w buf layer (expiry (if cls = 7 then 255 else cls) (a / 2 ^ 48 % 64) (a / 2 ^ 40 % 256) beat) beat)
      else some s

/-- Write what port `q` has received, or its own slot has made when `from_` is 32, and free the receive buffer of port `from_`. A write that
waits for holding space keeps the buffer, or the slot, until it is done (R350). -/
def State.storeLink (s : State) (q from_ : Nat) (f : Frame) (a : Nat) (data : Bytes) : State :=
  let x := s.store (.link q false) a data
  if x.tier.waits.length ≤ s.tier.waits.length then x.owe from_ f.vl f.units
  else
    { x with tier := { x.tier with waits := x.tier.waits.dropLast ++ x.tier.waits.getLast?.toList.map fun w =>
        { w with unit := if from_ = 32 then some { cls := 5, idx := q } else none, owe := some (from_, f.vl, f.units) } } }

/-- The link op that a reduce frame names. -/
def State.linkOp (s : State) (i : Nat) : Option LinkOp :=
  match s.route with
  | some r => r.ops[i]?
  | none => none

/-- Element-wise sum of two pieces, the running sum first (R291). -/
def addPieces (a b : Bytes) : Bytes :=
  (List.range (a.length / 4)).flatMap fun i => leBytes 4 (addRne (wordAt a (4 * i)) (wordAt b (4 * i))).toNat

/-- A result piece as DEST writes it: FP32, or BF16 when FMT is 1 (R428, R208). -/
def finalPiece (fmt : Nat) (d : Bytes) : Bytes :=
  if fmt = 1 then (List.range (d.length / 4)).flatMap fun i => leBytes 2 (convert .bf16 0 (fp32 (wordAt d (4 * i)))).code
  else d

/-- Where a result piece is written: FP32, or half as far for BF16 (log 82). -/
def LinkOp.finalAt (o : LinkOp) (off : Nat) : Nat := o.dst + (if o.fmt = 1 then off / 2 else off)

/-! ### Roles in a takeover (R308, R447) -/

/-- The lost coordinate that a device answers for. -/
def State.lostOf (s : State) (r : Route) (c : Coord) : Option Coord := s.casc.lost.find? fun l => decide ((s.aliasOf r l).1 = c)

/-- The coordinate for whose role a frame was sent: with TAKEOVER the lost one that its sender answers for, unless the flag says that the
frame is meant for a lost one (Table 10.1, R447) (log 82). -/
def State.senderRole (s : State) (r : Route) (f : Frame) : Coord :=
  if f.isTakeover && !(s.casc.lost.contains f.dest) then (s.lostOf r f.src).getD f.src else f.src

/-- The op works for the lost partner's role: its source is a mirror tensor, the home of the partner's (R308) (log 82). -/
def State.opLost (s : State) (o : LinkOp) : Bool :=
  s.casc.takeover && (match s.fing with
    | some g => g.tensors.any fun t => t.cls == 5 && decide (t.taddr ≤ o.src ∧ o.src < t.taddr + t.size)
    | none => false)

/-- The coordinate for whose role an op works. -/
def State.opRole (s : State) (r : Route) (o : LinkOp) : Coord := if s.opLost o then unpackCoord r.twin else s.self

/-- TAKEOVER on what an op sends for the lost role (R447). -/
def State.roleFlag (s : State) (o : LinkOp) : Nat := if s.opLost o then 4 else 0

/-- The place of the chain that a REDUCE op fills: that of its role, or the lost partner's when only that one belongs to the group. -/
def State.chainPlace (s : State) (r : Route) (o : LinkOp) : Option Nat :=
  let me := r.indexOf (s.opRole r o)
  if r.inGroup o.group me then some me
  else if s.casc.takeover && r.inGroup o.group (r.indexOf (unpackCoord r.twin)) then some (r.indexOf (unpackCoord r.twin))
  else none

/-- Two REDUCE ops run one chain (log 82). -/
def LinkOp.sameReduce (a b : LinkOp) : Bool :=
  a.kind == 3 && b.kind == 3 && a.group == b.group && a.dest == b.dest && a.fmt == b.fmt && a.dst == b.dst && a.length == b.length

/-- A reduce frame that carries the result: it goes to the op's DEST, and not from that place's predecessor in the chain (log 82). -/
def State.isFinal (s : State) (r : Route) (o : LinkOp) (f : Frame) : Bool :=
  let p := r.indexOf f.dest
  let before := ((r.group o.group).filter fun i => decide (i < p)).getLast?
  decide (p = o.dest) && (!(r.inGroup o.group p) || (match before with
    | some i => !(r.coord i == s.senderRole r f)
    | none => true))

/-- Deliver one frame to this device: agent port `q`, and the port whose buffer holds it, 32 for this device's own slot and 33 for a copy
of a frame that goes on; `none` when it must wait. -/
def State.deliver9 (s : State) (q from_ : Nat) (f : Frame) : Option State :=
  if f.isReduce then
    let i := f.taddr / 2 ^ 32
    let off := f.taddr % 2 ^ 32
    match s.linkOp i, s.route with
    | some o, some r =>
      if s.isFinal r o f then some (s.storeLink q from_ f (o.finalAt off) (finalPiece o.fmt f.payload))
      else
        some { s with casc := { s.casc with pieces := s.casc.pieces ++
          [{ port := from_, op := i, place := r.indexOf f.dest, offset := off, data := f.payload }] } }
    | _, _ => some (s.owe from_ f.vl f.units)
  else if 2 ^ 63 ≤ f.taddr then (s.fillWindow q f).map fun s => s.owe from_ f.vl f.units
  else some (s.storeLink q from_ f f.taddr f.payload)

/-! ### Forwarding (R426, R427, R431) -/

/-- Send a frame on toward another device, waiting for credit at its port if need be. -/
def State.forward (s : State) (r : Route) (q : Nat) (d : Coord) (f : Frame) : State :=
  match s.egress r d with
  | none => s.owe q f.vl f.units
  | some k =>
    match s.launch k false 0 f with
    | some x => x.owe q f.vl f.units
    | none => (s.launch k true (q + 1) f).getD (s.owe q f.vl f.units)

/-- Send a frame of a tree on to the places that follow. The ingress buffer of port `q` is free with the last of them (log 33). -/
def State.forwardTree (s : State) (r : Route) (q g : Nat) (f : Frame) : List Coord → State
  | [] => s.owe q f.vl f.units
  | [c] => s.forward r q (s.aliasOf r c).1 { f with dest := treeDest g c }
  | c :: rest =>
    let s := match s.egress r (s.aliasOf r c).1 with
      | some k => (s.launch k true 0 { f with dest := treeDest g c }).getD s
      | none => s
    s.forwardTree r q g f rest

/-- Coordinate at which the tree of a frame begins: the role that sent it (R427, R447). -/
def State.treeRoot (s : State) (r : Route) (f : Frame) : Coord :=
  if f.isTakeover then (s.lostOf r f.src).getD f.src else f.src

/-- A member of a group other than the sender is among these places of the tree. -/
def treeMember (r : Route) (g : Nat) (root : Coord) (nodes : List Coord) : Bool :=
  nodes.any fun c => !(c == root) && r.inGroup g (r.indexOf c)

/-- Take a frame of a broadcast tree: this device delivers it when a place that it fills from there on belongs to a member, and sends it
on (R427). The twin of a lost device fills that one's place too. -/
def State.takeTree (s : State) (r : Route) (q g : Nat) (f : Frame) : Option State :=
  let root := s.treeRoot r f
  let nodes := s.treeNodes r root 3 (treeNode f.dest)
  let next := s.treeNext r root nodes
  if treeMember r g root nodes then (s.deliver9 q 33 f).map fun s => s.forwardTree r q g f next
  else some (s.forwardTree r q g f next)

/-- Take one frame of a bulk or reduce lane that is next in order: deliver it, send it on, or both for a broadcast; `none` when it must
wait. The twin takes what is meant for the coordinate that it answers for (R447). -/
def State.takeData (s : State) (q : Nat) (f : Frame) : Option State :=
  match s.route with
  | none => some (s.owe q f.vl f.units)
  | some r =>
    match treeGroup f.dest with
    | some g => s.takeTree r q g f
    | none =>
      let d := s.aliasOf r f.dest
      if d.1 = s.self then s.deliver9 q q f
      else some (s.forward r q d.1 (if d.2 then { f with flags := f.flags ||| 4 } else f))

/-! ### The link level (R415, R417) -/

/-- Answer a frame that fails its CRC with a NAK of the frame expected (R415). -/
def State.sendNak (s : State) (q : Nat) : State :=
  let p := s.port q
  (s.setPort q { p with nakSent := true }).emit (.frame q (s.linkFrame 3 0 p.rxLseq []))

/-- Answer a gap in LSEQ with a NAK, once for each frame expected (R415) (log 34). -/
def State.nakGap (s : State) (q : Nat) : State := if (s.port q).nakSent then s else s.sendNak q

/-- Acknowledge everything accepted so far. -/
def State.sendAck (s : State) (q : Nat) : State :=
  let p := s.port q
  (s.setPort q { p with ackDue := 0 }).emit (.frame q (s.linkFrame 2 0 ((p.rxLseq + 4294967295) % 4294967296) []))

/-- The link level of a received frame (R415): the state, and whether the frame is accepted. An LSEQ behind the expected one is a
frame that came before. -/
def State.linkAccept (s : State) (q : Nat) (f : Frame) : State × Bool :=
  let p := s.port q
  if !f.good then (s.sendNak q, false)
  else
    let ahead := (f.lseq + 4294967296 - p.rxLseq % 4294967296) % 4294967296
    if ahead = 0 then
      let s := s.setPort q { p with rxLseq := (p.rxLseq + 1) % 4294967296, nakSent := false, ackDue := p.ackDue + 1 }
      (if 64 ≤ p.ackDue + 1 then s.sendAck q else s, true)
    else if ahead < 2147483648 then (s.nakGap q, false)
    else (s.setPort q { p with ackDue := p.ackDue + 1 }, false)

/-- The drop of a frame of another cascade: it is counted and logged once per beat (R417). -/
def State.noteForeign (s : State) (q : Nat) : State :=
  (s.bumpSat (Reg.linkPeer q) 30 19 1).raiseBeat 0x8050 { code := 0x8050, cls := 0, unit := { typ := 10, idx := q, sub := 255 } }

/-- Records that stand whole at the front of an intake byte stream: 32 bytes of header, the payload, padding to 32 bytes (Table 9.1). -/
def intakeRecords : Nat → Bytes → List SampleRec × Bytes
  | 0, b => ([], b)
  | n + 1, b =>
    let len := fieldAt b 0 4
    let total := 32 + (len + 31) / 32 * 32
    if b.length < 32 ∨ b.length < total then ([], b)
    else
      let r : SampleRec :=
        { length := len, kind := fieldAt b 4 1, stream := fieldAt b 5 1, refetch := decide (fieldAt b 6 2 % 2 = 1)
          coord := unpackCoord (fieldAt b 8 4 % 16777216), crc := wordAt b 12, sampleId := fieldAt b 16 8, srcSeq := fieldAt b 24 8
          payload := (b.drop 32).take len }
      let x := intakeRecords n (b.drop total)
      (r :: x.1, x.2)

/-- Bytes of an intake port join its stream; whole records go to the forager of the port's hub, and the buffer is free (R429). -/
def State.intakeFrame (s : State) (q : Nat) (f : Frame) : State :=
  let b := (getKey s.forager.intake q).getD [] ++ f.payload
  let x := intakeRecords (b.length / 32 + 1) b
  let s := s.setFor { s.forager with intake := putKey s.forager.intake q x.2 }
  (x.1.foldl (fun (s : State) (r : SampleRec) => applySampleRecord (q / 16) r s) s).owe q f.vl f.units

/-- Bytes that a queued record will take in STAGING. -/
def State.stagedSize (s : State) (st : FStream) (q : Queued) : Nat :=
  if st.kind = 1 then st.imageBytes.1 + st.imageBytes.2
  else 4 * (tokenizeText (s.trie st) st.byteBase st.bosId st.eosId q.sample.payload).tokens.length

/-- STAGING lacks space for a forager's next sample: that of its oldest queued record, or, with none queued, any at all. The intake then
withholds credit (R377) (log 75). -/
def State.intakeHolds (s : State) (fg : Nat) : Bool :=
  match s.forCfg with
  | none => false
  | some c =>
    let next := s.forager.queue.findSome? fun q => match s.stream q.stream with
      | some st => if st.forager = fg then some (s.stagedSize st q) else none
      | none => none
    !(s.stagingFits c (next.getD 1))

/-! ### Port loss (R443, R444) -/

/-- Lanes in use: width code, and LANE_SEL of LINK_WIDTH (R422, Table 10.11). -/
def laneUse (l : List Bool) : Nat × Nat :=
  let ok (i : Nat) : Bool := l.getD i false
  if ok 0 && ok 1 && ok 2 && ok 3 then (4, 0)
  else if ok 0 && ok 1 then (2, 0)
  else if ok 2 && ok 3 then (2, 1)
  else match (List.range 4).find? ok with
    | some i => (1, i)
    | none => (0, 0)

/-- LINK_WIDTH of a port. -/
def State.showWidth (s : State) (q width sel : Nat) : State :=
  let ok := ((List.range 4).map fun i => if (s.port q).lanes.getD i false then 2 ^ i else 0).sum
  let s := s.setFld (Reg.linkWidth q) 8 0 (width + 8 * ok + 128 * sel)
  if width = 1 ∨ width = 2 then s.setBit (Reg.linkWidth q) 9 true else s

/-- Send a frame of a port that has gone down on the other ports of its role, or by a detour (R443, R444). -/
def State.resend (s : State) (role : Nat) (f : Frame) : State :=
  match (s.portsOf role).head? with
  | some q =>
    match (s.portsOf role).findSome? fun p => if ((s.port p).waiting f.vl).isNone then s.trySend p f else none with
    | some x => x
    | none => s.setPort q { s.port q with sendWait := (s.port q).sendWait ++ [(0, f)] }
  | none =>
    match s.route with
    | some r =>
      (match s.egress r (s.aliasOf r (treeNode f.dest)).1 with
      | some k => (s.launch k true 0 f).getD s
      | none => s)
    | none => s

/-- The running plan lists slots for a unit, or for one whose list the unit has merged. -/
def State.hasSlots (s : State) (u : UnitId) : Bool :=
  let owners := u :: (s.test.merges.filter fun (m : UnitId × UnitId) => m.2 == u).map (·.1)
  match s.plan with
  | some p => (p.units ++ p.longs).any fun x =>
      owners.any (fun o => x.cls == o.cls && x.idx == o.idx) && x.positions.any fun l => !l.isEmpty
  | none => false

/-- A port goes down (R443): its frames move, its slots merge, and it retrains (log 118). -/
def State.portDown (s : State) (q : Nat) : State :=
  let u : UnitId := { cls := 5, idx := q }
  let role := s.portRole q
  let p := s.port q
  let s := (s.portOut q 0).setBit (Reg.linkState q) 10 true
  let s := (s.setFld (Reg.linkWidth q) 2 0 0).logEntry { code := 0x8002, cls := 0, unit := { typ := 10, idx := q, sub := 255 } }
  let s := ((p.replay ++ p.sendWait.map (·.2)).filter Frame.travels).foldl (fun (s : State) (f : Frame) => s.resend role f) s
  let s := p.sendWait.foldl (fun (s : State) (x : Nat × Frame) => if x.1 = 0 then s else s.owe (x.1 - 1) x.2.vl x.2.units) s
  let s := match (s.heirs u).head? with
    | some v => s.merge u { cls := 5, idx := v }
    | none =>
      if s.running && s.hasSlots u && s.roleStuck role then
        s.raise { code := 0x8010, cls := 1, unit := { typ := 10, idx := q, sub := 255 } }
      else s
  if p.lanes.all (fun l => !l) then s else s.beginTraining q 3

/-- PORT_DOWN (R443). -/
def applyPortDown (q : Nat) (cause : PortDownCause) (s : State) : State :=
  if !s.portActive q then s
  else
    let s := match cause with
      | .uncorrectable => s.bumpSat (Reg.fecCnt q) 31 24 1024
      | _ => s
    s.portDown q

def execPortDown (q : Nat) (cause : PortDownCause) (s : State) : Host.Outcome State Fault Refusal := .next (applyPortDown q cause s)

/-- A lane is dropped (R422): the port retrains narrower (log 118). -/
def State.dropLane (s : State) (q lane : Nat) : State :=
  if !s.portActive q || !((s.port q).lanes.getD lane false) then s
  else
    let s := s.setPort q { s.port q with lanes := setAt (s.port q).lanes lane false }
    let s := (s.logEntry { code := 0x8001, cls := 0, unit := { typ := 10, idx := q, sub := lane } }).setBit (Reg.linkWidth q) 9 true
    (s.portDown q).showWidth q 0 0

/-- LANE_DROP (R422). -/
def applyLaneDrop (q lane : Nat) (s : State) : State := s.dropLane q lane

def execLaneDrop (q lane : Nat) (s : State) : Host.Outcome State Fault Refusal := .next (applyLaneDrop q lane s)

/-- Take a lane's margin (R421): below 1.0 dB it is logged, at 0 the lane is dropped (log 118). -/
def State.noteLane (s : State) (q lane margin : Nat) : State :=
  if 4 ≤ lane then s
  else
    let s := s.setFld (Reg.laneMargin q) (8 * lane + 7) (8 * lane) (min 255 margin)
    let s := if margin < 10 then s.logEntry { code := 0x8004, cls := 0, unit := { typ := 10, idx := q, sub := lane } } else s
    if margin = 0 then s.dropLane q lane else s

/-- LANE_MARGIN_MEASURE (R421, R561): while MARGIN_EN is in effect, on a port that carries traffic. -/
def applyLaneMarginMeasure (q lane margin : Nat) (s : State) : State :=
  if s.portActive q && decide (bits s.test.testCtl 2 2 = 1) then s.noteLane q lane margin else s

def execLaneMarginMeasure (q lane margin : Nat) (s : State) : Host.Outcome State Fault Refusal :=
  .next (applyLaneMarginMeasure q lane margin s)

/-- MARGIN_NOW (Table 10.14): all four lanes, ignored while RUN is 1. -/
def applyMarginNow (q : Nat) (margins : List Nat) (s : State) : State :=
  if s.running || !s.writeOpen (Reg.linkCtl q) || !s.portActive q then s
  else margins.zipIdx.foldl (fun (s : State) (m : Nat × Nat) => s.noteLane q m.2 m.1) (s.emit (.measurePort q))

def execMarginNow (q : Nat) (margins : List Nat) (s : State) : Host.Outcome State Fault Refusal := .next (applyMarginNow q margins s)

/-! ### Retry, credit and timers -/

/-- An ACK arrives: frames up to its LSEQ leave the replay buffer (R415) (logs 2, 34). -/
def State.takeAck (s : State) (q : Nat) (f : Frame) : State :=
  let p := s.port q
  match p.replay.findIdx? fun x => x.lseq == f.lseq with
  | some i => (s.setPort q { p with replay := p.replay.drop (i + 1), failures := 0 }).flushWait q p.sendWait.length
  | none => s

/-- A NAK arrives: the frames before its LSEQ have arrived, and every frame from it on is sent again; eight NAKs in a row for one frame
take the port down (R415) (log 34). -/
def State.takeNak (s : State) (q : Nat) (f : Frame) : State :=
  let p := s.port q
  match p.replay.findIdx? fun x => x.lseq == f.lseq with
  | none => s
  | some i =>
    let fails := if p.nakLseq = f.lseq then p.failures + 1 else 1
    let again := p.replay.drop i
    let s := s.setPort q { p with replay := again, nakLseq := f.lseq, failures := fails }
    if 8 ≤ fails then s.portDown q
    else again.foldl (fun (s : State) (x : Frame) => s.emit (.frame q x)) s

/-- A CREDIT arrives (R414): the payload counts 64-byte units of the frame's lane (log 34). -/
def State.takeCredit (s : State) (q : Nat) (f : Frame) : State :=
  let p := s.port q
  let n := min (laneUnits (s.portRole q) f.vl) (p.credit.getD f.vl 0 + leNat f.payload)
  ((s.setPort q { p with credit := setAt p.credit f.vl n }).showCredit q).flushWait q p.sendWait.length

/-- IDLE_TIMER: a port with nothing else to send (R417). -/
def applyIdleTimer (q : Nat) (s : State) : State :=
  if s.portActive q && (s.port q).sendWait.isEmpty then s.emit (.frame q (s.linkFrame 0 0 0 [])) else s

def execIdleTimer (q : Nat) (s : State) : Host.Outcome State Fault Refusal := .next (applyIdleTimer q s)

/-- ACK_TIMER (R415). -/
def applyAckTimer (q : Nat) (s : State) : State :=
  if s.portActive q && decide (0 < (s.port q).ackDue) then s.sendAck q else s

def execAckTimer (q : Nat) (s : State) : Host.Outcome State Fault Refusal := .next (applyAckTimer q s)

/-- Send the credit that a port owes, lane by lane, as far as its replay buffer has room (R414, R415). -/
def State.returnCredit (s : State) (q : Nat) : State :=
  (List.range 4).foldl (fun (s : State) (v : Nat) =>
    let p := s.port q
    let n := p.owed.getD v 0
    let f := s.linkFrame 4 v 0 (leBytes 4 n)
    if n = 0 || !p.fits f then s else (s.setPort q { p with owed := setAt p.owed v 0 }).sendKept q f) s

/-! ### Identity, training and latency (R418 to R420) -/

/-- The image whose identity rules a port's peer must meet: the running fingering, else a loaded one (log 83). -/
def State.identFing (s : State) : Option Fing :=
  match s.fing with
  | some g => some g
  | none => if s.slotA.state = 2 then s.slotA.fing else if s.slotB.state = 2 then s.slotB.fing else none

/-- The opposite torus role. -/
def opposite (role : Nat) : Nat := if role % 2 = 1 then role + 1 else role - 1

/-- The peer is accepted (R419). KIND: 1 cascade device, 2 intake source, 3 adopting device (log 83). -/
def State.identOk (s : State) (q : Nat) (i : Ident) : Bool :=
  match s.identFing with
  | none => true
  | some g =>
    match g.own.route with
    | none => false
    | some r =>
      let role := r.roles.getD q 0
      if role = 8 then i.kind == 2
      else if role = 0 then false
      else
        let me := unpackCoord g.hdr.target
        let place := if role = 7 then unpackCoord r.twin else neighbour r me role
        let port := if role = 7 then i.port == q else defaultRole i.port == opposite role
        i.cascade == g.hdr.cascadeId && decide (i.coord = place) && port
          && (i.kind == 1 || (i.kind == 3 && s.casc.lost.contains i.coord))

/-- LINK_PEER of a port from an IDENT; DROPPED keeps its count. -/
def State.showPeer (s : State) (q : Nat) (i : Ident) : State :=
  let kind := if i.kind = 1 then 1 else if i.kind = 2 then 2 else 3
  (s.setFld (Reg.linkPeer q) 18 0 (coord12 i.coord + 4096 * (i.port % 32) + 131072 * kind)).setBit (Reg.linkPeer q) 31 true

/-- Accept or refuse a port's peer (R419). An adopting device starts the direction's order anew, and on a twin port its copy
begins (R310) (log 83). -/
def State.takeIdent (s : State) (q : Nat) (i : Ident) : State :=
  let s := s.showPeer q i
  if !s.identOk q i then
    let s := (s.portOut q 0).setBit (Reg.linkState q) 11 true
    s.logEntry { code := 0x8050, cls := 0, unit := { typ := 10, idx := q, sub := 255 } }
  else
    let s := (s.setBit (Reg.linkState q) 7 true).sendJoins
    if i.kind = 3 ∧ s.runSlot.isSome then
      let role := s.portRole q
      let clear (m : Store Nat) : Store Nat := m.filter fun (x : Nat × Nat) => !(x.1 / 4 == role)
      let s := { s with casc := { s.casc with txSeq := clear s.casc.txSeq, rxSeq := clear s.casc.rxSeq } }
      if role = 7 then s.startSpare else s
    else s

/-- Latency from PROBE round trips: half of the least one less its turnaround (R420). -/
def probeLatency (l : List (Nat × Nat)) : Nat :=
  let best := l.foldl (fun (b : Option (Nat × Nat)) (x : Nat × Nat) => match b with
    | none => some x
    | some y => if x.1 < y.1 then some x else some y) none
  match best with
  | some x => (x.1 - x.2) / 2
  | none => 0

/-- LINK_LATENCY of a port. -/
def State.showLatency (s : State) (q : Nat) (l : List (Nat × Nat)) : State :=
  s.setFld (Reg.linkLatency q) 15 0 (min 0xFFFF (probeLatency l))

/-- A PROBE arrives (R420): an empty one is answered with this port's turnaround, a free value (log 10); the 64th answer to the port's own
ends a measurement. `roundTrip` is what the port has measured for an answer (log 120). -/
def State.takeProbe (s : State) (q : Nat) (f : Frame) (roundTrip : Nat) : State :=
  if f.payload.isEmpty then
    let x := s.draw
    x.2.emit (.frame q (s.linkFrame 6 0 0 (leBytes 4 (Config.freeWord x.1 0).toNat)))
  else
    let l := (s.port q).probes ++ [(roundTrip, leNat f.payload)]
    if l.length < 64 then s.setPort q { s.port q with probes := l }
    else (s.setPort q { s.port q with probes := [] }).showLatency q l

/-- LATENCY_REMEASURE (R420): 64 round trips on a port in use. -/
def applyLatencyRemeasure (q : Nat) (l : List (Nat × Nat)) (s : State) : State :=
  if s.portActive q && l.length == 64 then (s.emit (.frame q (s.linkFrame 6 0 0 []))).showLatency q l else s

def execLatencyRemeasure (q : Nat) (roundTrips : List (Nat × Nat)) (s : State) : Host.Outcome State Fault Refusal :=
  .next (applyLatencyRemeasure q roundTrips s)

/-- TRAIN (R418, Table 10.14): ignored while RUN is 1. -/
def applyTrain (q : Nat) (s : State) : State :=
  if s.running || !s.writeOpen (Reg.linkCtl q) || decide (32 ≤ q) || decide (s.fld (Reg.linkState q) 2 0 = 4) then s
  else s.beginTraining q 1

def execTrain (q : Nat) (s : State) : Host.Outcome State Fault Refusal := .next (applyTrain q s)

/-- Training failed: a retrain counts, the third in a row fences the port, and one that is not fenced retrains (R443) (log 71). -/
def State.trainFailed (s : State) (q : Nat) : State :=
  if s.fld (Reg.linkState q) 2 0 = 1 then s.setFld (Reg.linkState q) 2 0 0
  else
    let n := s.fld (Reg.linkState q) 9 8 + 1
    let s := s.setFld (Reg.linkState q) 9 8 (min 3 n)
    if 3 ≤ n then (s.setFld (Reg.linkState q) 2 0 0).fenceLater { typ := 10, idx := q, sub := 255 } else s.beginTraining q 3

/-- The port is ACTIVE with these lanes: full credit of every lane, sequences from 0. While RUN is 1 it returns to service at the
next commit gap, else at once, its slots with it (R90, R443) (log 71). -/
def State.trainActive (s : State) (q : Nat) (lanes : List Bool) (l : List (Nat × Nat)) : State :=
  let role := s.portRole q
  let s := s.setPort q { PortSt.idle with
    active := !s.running, lanes := lanes, credit := (List.range 4).map fun v => laneUnits role v }
  let s := if s.running then s else s.unmerge { cls := 5, idx := q }
  let s := (s.setFld (Reg.linkState q) 2 0 2).setFld (Reg.linkState q) 9 8 0
  let u := laneUse lanes
  ((s.showWidth q u.1 u.2).showLatency q l).showCredit q

/-- Lanes that training has brought up, of those that have not been dropped (R422). -/
def State.lanesUp (s : State) (q : Nat) (lanes : List Bool) : List Bool :=
  (List.range 4).map fun i => lanes.getD i false && (s.port q).lanes.getD i false

/-- LINK_TRAINING_DONE (R418, R419). The device sends its own IDENT in the exchange. -/
def applyLinkTrainingDone (q : Nat) (r : TrainResult) (s : State) : State :=
  let st := s.fld (Reg.linkState q) 2 0
  if st ≠ 1 ∧ st ≠ 3 then s
  else
    match r with
    | .failed => s.trainFailed q
    | .active lanes i l =>
      let me : Ident := { coord := s.self, port := q, cascade := (s.identFing.map (·.hdr.cascadeId)).getD 0
                          kind := if s.bit Reg.cascadeCoord 30 then 3 else 1 }
      let s := s.emit (.frame q (s.linkFrame 5 0 0 me.bytes))
      let up := s.lanesUp q lanes
      if (laneUse up).1 = 0 then s.trainFailed q else (s.trainActive q up l).takeIdent q i

def execLinkTrainingDone (q : Nat) (r : TrainResult) (s : State) : Host.Outcome State Fault Refusal :=
  .next (applyLinkTrainingDone q r s)

/-! ### Link ops (R427, R428) -/

/-- The op of a kind that a link port's slot names. -/
def State.slotLinkOp (s : State) (q kind : Nat) : Option (RunSlot × LinkOp × Route) :=
  match s.runOf { cls := 5, idx := q }, s.route with
  | some r, some t =>
    match t.ops[r.op]? with
    | some o => if o.kind = kind then some (r, o, t) else none
    | none => none
  | _, _ => none

/-- A DATA frame of an op. -/
def State.dataFrame (s : State) (o : LinkOp) (dest : Coord) (flags taddr : Nat) (payload : Bytes) : Frame :=
  { typ := 1, vl := o.vl, flags := flags, len := payload.length, dest := dest, src := s.self, lseq := 0, dseq := 0
    cascade := s.cascade32, taddr := taddr, payload := payload, crc := 0 }

/-- TADDR of the frame at an offset of an op. -/
def LinkOp.taddr (o : LinkOp) (off : Nat) : Nat := if o.window = 255 then o.dst + off else windowTaddr o off

/-- Bytes of a piece from an offset on, and LAST with the final one. -/
def pieceLen (o : LinkOp) (off : Nat) : Nat := min 4096 (o.length - off)
def lastFlag (o : LinkOp) (off : Nat) : Nat := if off + pieceLen o off = o.length then 1 else 0

/-- What sending one piece comes to: sent, no credit, or no route. -/
inductive Sent where
  | ok (s : State)
  | blocked
  | noRoute

/-- Send a frame to a coordinate: its alias when it is lost (R426), this device itself without a link. -/
def State.sendTo (s : State) (q : Nat) (t : Route) (f : Frame) : Sent :=
  let d := s.aliasOf t f.dest
  let f := if d.2 then { f with flags := f.flags ||| 4 } else f
  if d.1 = s.self then (match s.deliver9 q 32 f with
    | some s => .ok s
    | none => .blocked)
  else
    match s.egress t d.1 with
    | none => .noRoute
    | some k => (match s.launch k false 0 f with
      | some s => .ok s
      | none => .blocked)

/-- Send a piece to the places of a tree that follow this device's own. -/
def State.sendTree (s : State) (t : Route) (g : Nat) (f : Frame) : List Coord → Sent
  | [] => .ok s
  | c :: rest =>
    match s.egress t (s.aliasOf t c).1 with
    | none => .noRoute
    | some k =>
      match s.launch k false 0 { f with dest := treeDest g c } with
      | none => .blocked
      | some s => s.sendTree t g f rest

/-- Send a piece of an MCAST op to its group: along the tree of its role, and to this device itself where that one fills a member's place
as well (R427, R447) (log 33). -/
def State.sendGroup (s : State) (q : Nat) (t : Route) (o : LinkOp) (f : Frame) : Sent :=
  let root := s.opRole t o
  let nodes := s.treeNodes t root 3 root
  let f := { f with dest := treeDest o.group root }
  match (if treeMember t o.group root nodes then s.deliver9 q 32 f else some s) with
  | none => .blocked
  | some s => s.sendTree t o.group f (s.treeNext t root nodes)

/-- No usable route to a destination of the plan (R444). -/
def State.noRoute (s : State) (q : Nat) (r : RunSlot) : State :=
  (s.raise { code := 0x8010, cls := 1, unit := { typ := 10, idx := q, sub := 255 }, place := some (r.pos, r.slot)
             beat := some r.beat }).endRunOf { cls := 5, idx := q } r

/-- Send the pieces of an op from the slot's progress on, until credit ends; the op ends with its last piece (log 81). -/
def State.sendPieces (s : State) (q : Nat) (o : LinkOp) (go : State → Nat → Bytes → Sent) : Nat → RunSlot → State
  | 0, r => s.setRun { cls := 5, idx := q } r
  | n + 1, r =>
    if o.length ≤ r.prog then s.endRunOf { cls := 5, idx := q } r
    else
      let x := s.fetch (.link q false) (o.src + r.prog) (pieceLen o r.prog)
      match go x.2 r.prog x.1 with
      | .ok s => s.sendPieces q o go n { r with prog := r.prog + pieceLen o r.prog }
      | .blocked => s.setRun { cls := 5, idx := q } r
      | .noRoute => s.noRoute q r

/-- SEND (R427): as many pieces as credit allows; the command may be given again for the rest (log 81). -/
def applySend (q : Nat) (s : State) : State :=
  match s.slotLinkOp q 1 with
  | none => s
  | some (r, o, t) =>
    s.sendPieces q o (fun s off d => s.sendTo q t (s.dataFrame o (t.coord o.dest) (lastFlag o off + s.roleFlag o) (o.taddr off) d))
      (o.length / 4096 + 2) r

def execSend (q : Nat) (s : State) : Host.Outcome State Fault Refusal := .next (applySend q s)

/-- MCAST (R427). -/
def applyMcast (q : Nat) (s : State) : State :=
  match s.slotLinkOp q 2 with
  | none => s
  | some (r, o, t) =>
    s.sendPieces q o (fun s off d => s.sendGroup q t o (s.dataFrame o s.self (lastFlag o off + s.roleFlag o) (o.taddr off) d))
      (o.length / 4096 + 2) r

def execMcast (q : Nat) (s : State) : Host.Outcome State Fault Refusal := .next (applyMcast q s)

/-- The running sum that has arrived for a piece of an op at a place of its chain. -/
def State.pieceFor (s : State) (op : Nat) (o : LinkOp) (place off : Nat) : Option ReducePiece :=
  s.casc.pieces.find? fun p => p.offset == off && p.place == place
    && (p.op == op || ((s.linkOp p.op).map (·.sameReduce o)).getD false)

/-- A piece has left the reduce buffer. -/
def State.usePiece (s : State) (p : ReducePiece) : State :=
  State.owe { s with casc := { s.casc with pieces := s.casc.pieces.filter fun x => !(x == p) } } p.port 1
    ((36 + p.data.length + 63) / 64)

/-- Index under which the pieces of an op travel: for the lost role that of the first op of the same chain, which is the one that other
devices know (log 82). -/
def State.reduceIndex (s : State) (t : Route) (i : Nat) (o : LinkOp) : Nat :=
  if s.opLost o then (t.ops.findIdx? (·.sameReduce o)).getD i else i

/-- One piece of a REDUCE op with the contribution `d` of the place that it fills (R291, R428) (log 82). -/
def State.reducePiece (s : State) (q : Nat) (r : RunSlot) (o : LinkOp) (t : Route) (me : Nat) (off : Nat) (d : Bytes) : Sent :=
  let g := t.group o.group
  let first := g.head? == some me
  let next := (g.filter fun i => decide (me < i)).head?
  let frame (s : State) (m : Nat) (x : Bytes) : Frame :=
    s.dataFrame o (t.coord m) (3 + s.roleFlag o) (s.reduceIndex t r.op o * 2 ^ 32 + off) x
  let send (s : State) (x : Bytes) : Sent :=
    match next with
    | some m => s.sendTo q t (frame s m x)
    | none =>
      if (s.aliasOf t (t.coord o.dest)).1 = s.self then .ok (s.storeLink q 32 (frame s o.dest x) (o.finalAt off) (finalPiece o.fmt x))
      else s.sendTo q t (frame s o.dest x)
  if first then send s d
  else
    match s.pieceFor r.op o me off with
    | none => .blocked
    | some p => send (s.usePiece p) (addPieces p.data d)

/-- REDUCE (R428): the pieces whose running sums have arrived. -/
def applyReduce (q : Nat) (s : State) : State :=
  match s.slotLinkOp q 3 with
  | none => s
  | some (r, o, t) =>
    match s.chainPlace t o with
    | none => s.endRunOf { cls := 5, idx := q } r
    | some me => s.sendPieces q o (fun s off d => s.reducePiece q r o t me off d) (o.length / 4096 + 2) r

def execReduce (q : Nat) (s : State) : Host.Outcome State Fault Refusal := .next (applyReduce q s)

end Sys2Proof.Machine
end

