-- ==== Sys2Proof/Machine/Arrivals.lean ====
section
/-! DEFINITION. Frames that arrive at a link port: retry, the cascade check, order per direction and lane, and what each kind of frame
does (R298 to R304, R377, R400, R414 to R420, R426 to R437, R450). -/

namespace Sys2Proof.Machine

open Sys2Proof

/-! ### What a frame in order does -/

/-- A control frame that is next in order: a message of the tree goes to the places from its DEST on, any other to its DEST; what is meant for
a coordinate that this device does not answer for goes on. The ingress latency and the residence time leave the OFFSET of a tree message
(R426, R431, R432, R447, R450) (logs 87, 88). -/
def State.takeControl (s : State) (q : Nat) (f : Frame) (residence t : Nat) : State :=
  match s.route with
  | none => s.owe q f.vl f.units
  | some r =>
    let m := ctlOf f.payload
    if m.isTree then
      let m := { m with offset := m.offset - (s.fld (Reg.linkLatency q) 15 0 : Int) }
      if s.answersFor r f.dest then (s.owe q f.vl f.units).takeTreeMsg r f.dest m residence t
      else
        let on : CtlMsg := { m with offset := m.offset - (residence : Int) }
        s.sendControl { f with payload := on.bytes } (q + 1)
    else if f.dest = s.self ∨ (s.answersFor r f.dest ∧ !s.casc.spare) then (s.owe q f.vl f.units).takeUnicast m t
    else s.sendControl f (q + 1)

/-- A link frame of the twin lane: with the last one a mirror frame is whole and acts (R298). -/
def State.takeTwin (s : State) (q : Nat) (f : Frame) : State :=
  let s := s.owe q f.vl f.units
  let b := s.casc.mirrorIn ++ f.payload
  if f.flags % 2 = 1 then State.takeMirror { s with casc := { s.casc with mirrorIn := [] } } (mirrorOf b)
  else { s with casc := { s.casc with mirrorIn := b } }

/-- A frame that is next in the order of its direction and lane, by TYPE and VL (Tables 10.1, 10.2); `none` when it must wait. What no
lane carries is dropped. -/
def State.takeFrame (s : State) (q : Nat) (f : Frame) (residence t : Nat) : Option State :=
  let twin := s.portRole q == 7
  match f.typ, f.vl with
  | 7, 2 => some (s.takeControl q f residence t)
  | 1, 3 => some (if twin then s.takeTwin q f else s.owe q f.vl f.units)
  | 8, 3 =>
    let s := s.owe q f.vl f.units
    some (if twin then s.takeRequest (askOf f.payload).1 (askOf f.payload).2 else s)
  | 1, 0 => if twin then some (s.owe q f.vl f.units) else s.takeData q f
  | 1, 1 => if twin then some (s.owe q f.vl f.units) else s.takeData q f
  | _, vl => some (s.owe q vl f.units)

/-! ### Order (R416) -/

/-- Take the held frames of a direction and lane that have become next in order; one that has been held has been here since it came
(R432) (log 88). -/
def State.drainHeld (s : State) (key residence : Nat) : Nat → State
  | 0 => s
  | n + 1 =>
    let want := (getKey s.casc.rxSeq key).getD 0
    match s.casc.rxHold.find? fun x => x.1 == key && x.2.2.2.dseq == want with
    | none => s
    | some x =>
      match s.takeFrame x.2.1 x.2.2.2 (s.now - x.2.2.1 + residence) s.now with
      | none => s
      | some s =>
        State.drainHeld { s with casc := { s.casc with
          rxHold := s.casc.rxHold.filter fun y => !(y == x)
          rxSeq := putKey s.casc.rxSeq key ((want + 1) % 4294967296) } } key residence n

/-- Take the held records of an intake port while STAGING has space for the next sample (R377). -/
def State.drainIntake (s : State) (q : Nat) : Nat → State
  | 0 => s
  | n + 1 =>
    match s.casc.rxHold.find? fun x => x.1 == orderKey 8 q 0 with
    | none => s
    | some x =>
      if s.intakeHolds (q / 16) then s
      else
        State.drainIntake ({ s with casc := { s.casc with rxHold := dropFirst (· == x) s.casc.rxHold } }.intakeFrame q x.2.2.2) q n

/-- Hold a frame in its port's receive buffer. -/
def State.holdFrame (s : State) (key q : Nat) (f : Frame) : State :=
  { s with casc := { s.casc with rxHold := s.casc.rxHold ++ [(key, q, s.now, f)] } }

/-- A DATA, CONTROL or REQUEST frame that the link level has accepted: in the order of its direction and lane. One that came before is
dropped, and without a run nothing is taken (R416, R448). -/
def State.inOrder (s : State) (q : Nat) (f : Frame) (residence : Nat) : State :=
  if s.portRole q = 8 then (s.holdFrame (orderKey 8 q 0) q f).drainIntake q (s.casc.rxHold.length + 1)
  else if s.runSlot.isNone then s.owe q f.vl f.units
  else
    let key := orderKey (s.portRole q) q f.vl
    let want := (getKey s.casc.rxSeq key).getD 0
    if 2147483648 ≤ (f.dseq + 4294967296 - want) % 4294967296 then s.owe q f.vl f.units
    else (s.holdFrame key q f).drainHeld key residence (s.casc.rxHold.length + 1)

/-! ### Receipt -/

/-- The frame belongs to another cascade than the running fingering's (R417); intake ports and IDENT frames are not asked (log 83). -/
def State.foreign (s : State) (q : Nat) (f : Frame) : Bool :=
  s.runSlot.isSome && decide (s.portRole q ≠ 8) && decide (f.typ ≠ 5) && decide (f.cascade ≠ s.cascade32)

/-- What an accepted or unnumbered frame does by its TYPE (Table 10.1). -/
def State.takeKind (s : State) (q : Nat) (f : Frame) (residence roundTrip : Nat) : State :=
  match f.typ with
  | 0 => s
  | 2 => s.takeAck q f
  | 3 => s.takeNak q f
  | 4 => s.takeCredit q f
  | 5 => s.takeIdent q (identOf f.payload)
  | 6 => s.takeProbe q f roundTrip
  | _ => s.inOrder q f residence

/-- A frame arrives at a port at `t` (R412, R415, R417, R442): a port that is not active carries none, a frame that fails its CRC is
answered with a NAK, and one of another cascade is dropped. -/
def State.arrive (s : State) (q : Nat) (f : Frame) (residence roundTrip t : Nat) : State :=
  if !s.portActive q then s
  else
    let s := s.at t
    let x := if f.unnumbered then (if f.good then (s, true) else (s.sendNak q, false)) else s.linkAccept q f
    if !x.2 then x.1
    else if x.1.foreign q f then
      (if f.unnumbered || f.typ == 4 then x.1 else x.1.owe q f.vl f.units).noteForeign q
    else x.1.takeKind q f residence roundTrip

/-- A frame that carries no instant of its own arrives now. -/
def State.arriveNow (s : State) (q : Nat) (f : Frame) : State := s.arrive q f 0 0 s.now

/-! ### Frames of the link itself -/

/-- DATA_FRAME (R427). -/
def applyDataFrame (q : Nat) (f : Frame) (s : State) : State :=
  if f.typ = 1 ∧ f.vl ≠ 3 ∧ !f.isReduce then s.arriveNow q f else s

def execDataFrame (q : Nat) (f : Frame) (s : State) : Host.Outcome State Fault Refusal := .next (applyDataFrame q f s)

/-- REDUCE_FRAME (R428). -/
def applyReduceFrame (q : Nat) (f : Frame) (s : State) : State :=
  if f.typ = 1 ∧ f.vl ≠ 3 ∧ f.isReduce then s.arriveNow q f else s

def execReduceFrame (q : Nat) (f : Frame) (s : State) : Host.Outcome State Fault Refusal := .next (applyReduceFrame q f s)

/-- ACK (R415) (log 2). -/
def applyAck (q : Nat) (f : Frame) (s : State) : State := if f.typ = 2 then s.arriveNow q f else s

def execAck (q : Nat) (f : Frame) (s : State) : Host.Outcome State Fault Refusal := .next (applyAck q f s)

/-- NAK (R415). -/
def applyNak (q : Nat) (f : Frame) (s : State) : State := if f.typ = 3 then s.arriveNow q f else s

def execNak (q : Nat) (f : Frame) (s : State) : Host.Outcome State Fault Refusal := .next (applyNak q f s)

/-- CREDIT (R414). -/
def applyCredit (q : Nat) (f : Frame) (s : State) : State := if f.typ = 4 then s.arriveNow q f else s

def execCredit (q : Nat) (f : Frame) (s : State) : Host.Outcome State Fault Refusal := .next (applyCredit q f s)

/-- IDENT (R419). -/
def applyIdent (q : Nat) (f : Frame) (s : State) : State := if f.typ = 5 then s.arriveNow q f else s

def execIdent (q : Nat) (f : Frame) (s : State) : Host.Outcome State Fault Refusal := .next (applyIdent q f s)

/-- PROBE (R420): `roundTrip` is what the port has measured for an answer (log 10). -/
def applyProbe (q : Nat) (f : Frame) (roundTrip : Nat) (s : State) : State :=
  if f.typ = 6 then s.arrive q f 0 roundTrip s.now else s

def execProbe (x : Arrival) (roundTrip : Nat) (s : State) : Host.Outcome State Fault Refusal :=
  .next (applyProbe x.port x.frame roundTrip s)

/-- CREDIT_RETURN (R377, R414): frames that waited for a window buffer, and intake records that waited for STAGING, are tried again, and
owed credit goes out. -/
def applyCreditReturn (q : Nat) (s : State) : State :=
  if !s.portActive q then s
  else
    let s := if s.portRole q = 8 then s.drainIntake q s.casc.rxHold.length
      else (List.range 4).foldl (fun (s : State) (v : Nat) =>
        s.drainHeld (orderKey (s.portRole q) q v) 0 s.casc.rxHold.length) s
    s.returnCredit q

def execCreditReturn (q : Nat) (s : State) : Host.Outcome State Fault Refusal := .next (applyCreditReturn q s)

/-! ### Mirror frames (R298 to R304) -/

/-- The frame belongs to a mirror frame of this KIND, or is not the next one, whose KIND its first byte alone cannot tell. -/
def State.mirrorFits (s : State) (kind q : Nat) (f : Frame) : Bool :=
  decide (f.typ = 1 ∧ f.vl = 3)
    && (decide (f.dseq ≠ (getKey s.casc.rxSeq (orderKey (s.portRole q) q 3)).getD 0) || fieldAt (s.casc.mirrorIn ++ f.payload) 0 1 == kind)

/-- PLAIN (R298). -/
def applyPlain (q : Nat) (f : Frame) (s : State) : State := if s.mirrorFits 1 q f then s.arriveNow q f else s

def execPlain (x : Arrival) (s : State) : Host.Outcome State Fault Refusal := .next (applyPlain x.port x.frame s)

/-- STAGE_M (R299). -/
def applyStageM (q : Nat) (f : Frame) (s : State) : State := if s.mirrorFits 2 q f then s.arriveNow q f else s

def execStageM (x : Arrival) (s : State) : Host.Outcome State Fault Refusal := .next (applyStageM x.port x.frame s)

/-- STAGE_W (R299). -/
def applyStageW (q : Nat) (f : Frame) (s : State) : State := if s.mirrorFits 3 q f then s.arriveNow q f else s

def execStageW (x : Arrival) (s : State) : Host.Outcome State Fault Refusal := .next (applyStageW x.port x.frame s)

/-- FENCE (R301). -/
def applyFence (q : Nat) (f : Frame) (s : State) : State := if s.mirrorFits 4 q f then s.arriveNow q f else s

def execFence (x : Arrival) (s : State) : Host.Outcome State Fault Refusal := .next (applyFence x.port x.frame s)

/-- COPY (R304). -/
def applyCopy (q : Nat) (f : Frame) (s : State) : State := if s.mirrorFits 5 q f then s.arriveNow q f else s

def execCopy (x : Arrival) (s : State) : Host.Outcome State Fault Refusal := .next (applyCopy x.port x.frame s)

/-- COPY_REQUEST (R302, R303, R364): a REQUEST frame on a twin port (log 120). -/
def applyCopyRequest (q : Nat) (f : Frame) (s : State) : State := if f.typ = 8 ∧ f.vl = 3 then s.arriveNow q f else s

def execCopyRequest (q : Nat) (f : Frame) (s : State) : Host.Outcome State Fault Refusal := .next (applyCopyRequest q f s)

/-! ### Control messages (R430 to R437) -/

/-- VERDICT (R85, R432). -/
def applyVerdictMsg (q : Nat) (f : Frame) (residence t : Nat) (s : State) : State :=
  if f.isCtl 2 then s.arrive q f residence 0 t else s

def execVerdict (x : Relayed) (t : Nat) (s : State) : Host.Outcome State Fault Refusal :=
  .next (applyVerdictMsg x.port x.frame x.residence t s)

/-- REPORT (R436). -/
def applyReport (q : Nat) (f : Frame) (t : Nat) (s : State) : State := if f.isCtl 3 then s.arrive q f 0 0 t else s

def execReport (x : Arrival) (t : Nat) (s : State) : Host.Outcome State Fault Refusal :=
  .next (applyReport x.port x.frame t s)

/-- JOIN (R437, R450). -/
def applyJoin (q : Nat) (f : Frame) (t : Nat) (s : State) : State := if f.isCtl 4 then s.arrive q f 0 0 t else s

def execJoin (x : Arrival) (t : Nat) (s : State) : Host.Outcome State Fault Refusal :=
  .next (applyJoin x.port x.frame t s)

/-- SYNC_RESULT (R437). -/
def applySyncResult (q : Nat) (f : Frame) (t : Nat) (s : State) : State := if f.isCtl 6 then s.arrive q f 0 0 t else s

def execSyncResult (x : Arrival) (t : Nat) (s : State) : Host.Outcome State Fault Refusal :=
  .next (applySyncResult x.port x.frame t s)

/-- ADMIT_DEVICE (R450). -/
def applyAdmitDevice (q : Nat) (f : Frame) (t : Nat) (s : State) : State := if f.isCtl 8 then s.arrive q f 0 0 t else s

def execAdmitDevice (x : Arrival) (t : Nat) (s : State) : Host.Outcome State Fault Refusal :=
  .next (applyAdmitDevice x.port x.frame t s)

/-- READY (R450). -/
def applyReady (q : Nat) (f : Frame) (t : Nat) (s : State) : State := if f.isCtl 9 then s.arrive q f 0 0 t else s

def execReady (x : Arrival) (t : Nat) (s : State) : Host.Outcome State Fault Refusal :=
  .next (applyReady x.port x.frame t s)

/-- CONTROL_MESSAGE_RECEIPT (R432): any CONTROL frame, the MARKER, SYNC and RESUME messages among them. -/
def applyControlMessageReceipt (q : Nat) (f : Frame) (residence t : Nat) (s : State) : State :=
  if f.typ = 7 then s.arrive q f residence 0 t else s

def execControlMessageReceipt (q : Nat) (f : Frame) (residence t : Nat) (s : State) : Host.Outcome State Fault Refusal :=
  .next (applyControlMessageReceipt q f residence t s)

end Sys2Proof.Machine
end

