-- ==== Sys2Proof/Machine/Bus.lean ====
section
/-! DEFINITION. Host and peer accesses to device memory: BAR2 and CXL.mem (R361, R459 to R461, R483 to R485, R489). -/

namespace Sys2Proof.Machine

open Sys2Proof

/-- The core whose SRAM a device address reaches. -/
def State.coreAt (s : State) (a : Nat) : Option Nat :=
  match s.locate a with
  | some (.sram p _) => some p
  | _ => none

/-- The hardware errors that a read or write by a host or a peer meets in the memory that it reaches (R361, R364, R366): those of a core's
SRAM only where it reaches one. -/
def State.busErrors (s : State) (a : Nat) (errs : List HwErr) : State :=
  let p := s.coreAt a
  s.hwErrors { unit := { cls := 0, idx := 0 }, phys := p.getD 0, place := none, beat := none } 0
    (errs.filter fun e => match e with
      | .sramCe => p.isSome
      | .sramUe _ => p.isSome
      | .wgaCombUe _ _ | .hubBuffer _ | .combCe _ | .combUe _ _ | .codeword _ _ _ | .dramFail _ | .edramCe _ | .edramUe _ _ => true
      | _ => false)

/-- A read or write of device memory by a host or a peer, after R461 has let it through. The errors are those of the words that it
reads (R361, R364, R366). -/
def State.busAccess (s : State) (ag : Agent) (p : HPort) (base : Nat) (acc : Access) (errs : List HwErr) : State :=
  let s := s.leaveHold
  match acc with
  | .read off len =>
    let x := (s.busErrors (base + off) errs).fetch ag (base + off) len
    x.2.emit (.busData p x.1)
  | .write off data poisoned =>
    -- a poisoned or malformed write is dropped in full (R461)
    if poisoned then s.raise { code := 0x9008, cls := 0, unit := { typ := 12, idx := portIdx p, sub := 0 } }
    else (s.busErrors (base + off) errs).store ag (base + off) data

/-- Last byte of an access, counted from its base. -/
def accessEnd : Access → Nat
  | .read off len => off + len
  | .write off data _ => off + data.length

/-- BAR2_ACCESS (R459, R489). An access that leaves the BAR does not belong to it and changes nothing. -/
def applyBar2Access (p : HPort) (src : BusSource) (acc : Access) (errs : List HwErr) (s : State) : State :=
  if 2 ^ s.bar2Log2 p < accessEnd acc then s
  else
    s.busAccess (match src with
      | .host => .host p
      | .peer => .peer p) p (s.bar2Base p) acc errs

def execBar2Access (p : HPort) (src : BusSource) (x : MetAccess) (s : State) : Host.Outcome State Fault Refusal :=
  .next (applyBar2Access p src x.acc x.errs s)

/-- CXL_MEM_ACCESS: only the port that exposes the range serves it (R483, R485). -/
def applyCxlMemAccess (p : HPort) (acc : Access) (errs : List HwErr) (s : State) : State :=
  match s.host.hdm with
  | some (q, base, size) =>
    if q = p ∧ (s.hport p).cxl ∧ accessEnd acc ≤ size then s.busAccess (.cxl p) p base acc errs else s
  | none => s

def execCxlMemAccess (p : HPort) (x : MetAccess) (s : State) : Host.Outcome State Fault Refusal :=
  .next (applyCxlMemAccess p x.acc x.errs s)

end Sys2Proof.Machine
end

