-- ==== Sys2Proof/Machine/Eszoja.lean ====
section
/-! DEFINITION. Eszoja: key derivation, firmware verification and boot, and the ESZ_CMD commands (R564 to R588, R593). -/

namespace Sys2Proof.Machine

open Sys2Proof

/-! ### Key generation and signing (R584, FIPS 186-5) -/

/-- Exclusive or of every byte with a constant. -/
def xorBytes (c : Byte) (b : Bytes) : Bytes := b.map (· ^^^ c)

/-- HMAC-SHA-384. -/
def hmac384 (key msg : Bytes) : Bytes :=
  let k := if 128 < key.length then sha384 key else key
  let k := k ++ zeroBytes (128 - k.length)
  sha384 (xorBytes 0x5C k ++ sha384 (xorBytes 0x36 k ++ msg))

/-- HMAC_DRBG state: key and value. -/
abbrev Drbg := Bytes × Bytes

/-- Update of HMAC_DRBG. -/
def drbgUpdate (d : Drbg) (data : Bytes) : Drbg :=
  let k := hmac384 d.1 (d.2 ++ leBytes 1 0 ++ data)
  let v := hmac384 k d.2
  if data.isEmpty then (k, v)
  else
    let k := hmac384 k (v ++ leBytes 1 1 ++ data)
    (k, hmac384 k v)

/-- HMAC_DRBG seeded with a secret. -/
def drbgSeed (seed : Bytes) : Drbg := drbgUpdate (zeroBytes 48, List.replicate 48 1) seed

/-- Private key by rejection sampling: the first 384-bit draw `c` with c ≤ n − 2 gives c + 1 (log 8 bounds the draws). -/
def keyGenFrom : Nat → Drbg → Nat
  | 0, _ => 1
  | n + 1, d =>
    let v := hmac384 d.1 d.2
    let c := beNat v
    if c ≤ p384N - 2 then c + 1 else keyGenFrom n (drbgUpdate (d.1, v) [])

/-- KeyGen: the private key. -/
def keyGen (seed : Bytes) : Nat := keyGenFrom 256 (drbgSeed seed)

/-- Public key of a private key: X then Y, 48 bytes each. -/
def publicKey (d : Nat) : Bytes :=
  match ecMul 384 d (some p384G) none with
  | some (x, y) => beBytes 48 x ++ beBytes 48 y
  | none => zeroBytes 96

/-- ECDSA P-384 signature over a message with a per-message secret (log 8). -/
def ecdsaSign (d k : Nat) (msg : Bytes) : Bytes :=
  match ecMul 384 k (some p384G) none with
  | some (x, _) =>
    let r := x % p384N
    beBytes 48 r ++ beBytes 48 (invMod p384N k * (beNat (sha384 msg) + r * d) % p384N)
  | none => zeroBytes 96

/-- Text as bytes. -/
def textBytes (t : List Nat) : Bytes := t.map (BitVec.ofNat 8)

/-- "ZT1024-DEVICEID" and "ZT1024-ALIAS". -/
def devidLabel : Bytes := textBytes [0x5A, 0x54, 0x31, 0x30, 0x32, 0x34, 0x2D, 0x44, 0x45, 0x56, 0x49, 0x43, 0x45, 0x49, 0x44]
def aliasLabel : Bytes := textBytes [0x5A, 0x54, 0x31, 0x30, 0x32, 0x34, 0x2D, 0x41, 0x4C, 0x49, 0x41, 0x53]

/-- The unique device secret (R568) (log 8). -/
def udsBytes : Bytes := (List.range 48).map Config.uds

/-- Random bytes of the true random number generator (log 6). -/
def State.random (s : State) (n : Nat) : Bytes × State :=
  let x := s.draw
  ((List.range n).map (Config.randomByte x.1), x.2)

/-! ### Security state and status registers -/

/-- A set of entry numbers as bits. -/
def entryBits (l : List Nat) : Nat := (List.range 6).foldl (fun a i => a + (if l.contains i then 2 ^ i else 0)) 0

/-- Entries that hold a key. -/
def EszSt.programmed (e : EszSt) : List Nat := (List.range 6).filter fun i => (e.keyHash.getD i none).isSome

/-- Security-state value, measurement 4 of Table 14.8 (log 35): one byte each, zeros to 16 bytes. -/
def EszSt.secState (e : EszSt) (copy : Nat) : Bytes :=
  leBytes 1 e.rbEsz ++ leBytes 1 e.rbHub ++ leBytes 1 e.rbFing ++ leBytes 1 (entryBits e.programmed) ++ leBytes 1 (entryBits e.revoked)
    ++ leBytes 1 (if e.vendorDebugBlocked then 1 else 0) ++ leBytes 1 e.debug ++ leBytes 1 copy ++ zeroBytes 8

/-- Eszoja runs its firmware and serves commands and attestation (R566). -/
def State.eszServes (s : State) : Bool := s.power.powerOk && s.esz.fw.isSome

/-- ESZ_STATUS and ESZ_VER from the fuses and the firmware (Tables 14.13, 14.14); BUSY stays. -/
def State.showEsz (s : State) : State :=
  let e := s.esz
  let r := Reg.eszStatus
  let s := (s.setFld r 3 3 ((e.fw.map (·.copy)).getD 0)).setFld r 6 5 e.debug
  let s := (s.setFld r 11 8 (entryBits e.programmed / 4)).setFld r 15 12 (entryBits e.revoked / 4)
  let s := ((s.setFld r 17 16 (entryBits e.revoked)).setBit r 18 e.vendorDebugBlocked).setFld r 26 19 e.rbFing
  s.setReg Reg.eszVer (BitVec.ofNat 32 (match e.fw with
    | some f => f.eszVer + 128 * f.hubVer + 16384 * e.rbEsz + 2097152 * e.rbHub
    | none => 16384 * e.rbEsz + 2097152 * e.rbHub))

/-- Unit code of the controller (Table 13.5). -/
def eszUnit : UnitCode := { typ := 17, idx := 0, sub := 0 }

/-- Show the current nonce, zeros for none (Table 14.19). -/
def State.setNonce (s : State) (n : Option Bytes) : State :=
  let s := { s with esz := { s.esz with nonce := n } }
  (List.range 8).foldl (fun (s : State) (i : Nat) => s.setReg (Reg.eszNonce i) (match n with
    | some b => wordAt b (4 * i)
    | none => 0)) s

/-- Set the debug level (R582). -/
def State.setDebug (s : State) (n : Nat) : State :=
  ({ s with esz := { s.esz with debug := n } }).setFld Reg.eszStatus 6 5 n

/-! ### Firmware (R575 to R579) -/

/-- The bytes of a flash copy (log 101). -/
def FlashCopy.get : FlashCopy → Bytes
  | .bytes b => b
  | .undefined st => (List.range 0x1000000).map (Config.freeByte st)

/-- Header of a firmware image: VERSION, FLAGS and SIZE, when it is well formed (R576). -/
def fwHeader (kind : Nat) (b : Bytes) : Option (Nat × Nat × Nat) :=
  let size := fieldAt b 12 4
  if fieldAt b 0 4 = 0x4557465A ∧ fieldAt b 4 1 = kind ∧ fieldAt b 5 1 < 4 ∧ zeroAt b 6 2 ∧ zeroAt b 16 48 ∧ fieldAt b 8 4 ≤ 64
      ∧ size % 64 = 0 ∧ 64 ≤ size ∧ size ≤ (if kind = 1 then 0x200000 else 0x800000) then
    some (fieldAt b 8 4, fieldAt b 5 1, size)
  else none

/-- What a verified firmware image says: VERSION, FLAGS, signing entry, D. -/
structure FwImage where
  ver : Nat
  flags : Nat
  entry : Nat
  digest : Bytes
deriving DecidableEq, Repr

/-- Verify a firmware image under Table 14.4: the image, or the code of the failed check. -/
def EszSt.verifyFw (e : EszSt) (kind : Nat) (img : Bytes) : Except Nat FwImage :=
  match fwHeader kind (img.take 64) with
  | none => .error 0xB010
  | some (ver, flags, size) =>
    let blk := (img.drop size).take 2048
    match e.verify blk kind false ver (if kind = 1 then e.rbEsz else e.rbHub) 64 (img.take size) with
    | some c => .error c
    | none => .ok { ver := ver, flags := flags, entry := fieldAt blk 7 1, digest := sha384 (img.take size) }

/-- Verify both images of a firmware copy. -/
def EszSt.verifyCopy (e : EszSt) (c : Nat) (b : Bytes) : Except Nat FwSt :=
  match e.verifyFw 1 b with
  | .error c => .error c
  | .ok x =>
    match e.verifyFw 2 (b.drop 0x400000) with
    | .error c => .error c
    | .ok y => .ok { copy := c, eszVer := x.ver, hubVer := y.ver, eszFlags := x.flags, hubFlags := y.flags, eszEntry := x.entry,
                     eszDigest := x.digest, hubDigest := y.digest }

/-- A copy of the flash. -/
def EszSt.copyBytes (e : EszSt) (c : Nat) : Bytes :=
  match e.flash[c]? with
  | some x => x.get
  | none => []

/-- The copy that the boot ROM tries first (R577). -/
def EszSt.firstCopy (e : EszSt) : Nat :=
  if fieldAt (e.copyBytes 0) 8 4 < fieldAt (e.copyBytes 1) 8 4 then 1 else 0

/-- Firmware that boots, and whether the first copy failed (R577). -/
def EszSt.choose (e : EszSt) : Option FwSt × Bool :=
  let a := e.firstCopy
  match e.verifyCopy a (e.copyBytes a) with
  | .ok f => (some f, false)
  | .error _ =>
    match e.verifyCopy (1 - a) (e.copyBytes (1 - a)) with
    | .ok f => (some f, true)
    | .error _ => (none, true)

/-- Identity of the device (R584, R585, R587): DEVID, the Alias key and the certificate chain. -/
def State.deriveIdentity (s : State) (f : FwSt) : State :=
  let pub := publicKey (keyGen (hmac384 udsBytes devidLabel))
  let id := (sha384 (leBytes 1 4 ++ pub)).take 8
  let cdi := hmac384 udsBytes (f.eszDigest ++ s.esz.secState f.copy)
  let x := s.draw
  let s := { x.2 with esz := { s.esz with devid := id, alias_ := some (keyGen (hmac384 cdi aliasLabel)),
                                           chain := if s.pkg.certOk then some x.1 else none } }
  let s := s.setPair Reg.eszDevidLo (leNat id)
  if s.pkg.certOk then s else s.logEntry { code := 0xB031, cls := 0, unit := eszUnit }

/-- Firmware runs: STAGE 2 and the status registers. -/
def State.runFw (s : State) (f : FwSt) : State :=
  (({ s with esz := { s.esz with fw := some f } }).setFld Reg.eszStatus 2 0 2).showEsz

/-- Fuses and flash as they came from manufacture, on the first power-on; from then on they keep their contents (R567) (log 44). -/
def State.loadFuses (s : State) : State :=
  if !s.esz.keyHash.isEmpty || !s.esz.flash.isEmpty then s
  else
    let v (i : Nat) : Option Bytes := s.pkg.vendorKeys[i]?
    { s with esz := { s.esz with keyHash := [v 0, v 1, none, none, none, none], flash := s.pkg.flash.map FlashCopy.bytes } }

/-- Step 5 of start-up (R577): firmware is verified and runs, or boot stops with 0xB002. -/
def State.bootFw (s : State) : State :=
  match s.esz.choose with
  | (some f, other) =>
    let s := if other then s.logEntry { code := 0xB001, cls := 0, unit := eszUnit } else s
    (s.deriveIdentity f).runFw f
  | (none, _) => (s.setFld Reg.eszStatus 2 0 3).raise { code := 0xB002, cls := 4, unit := eszUnit }

/-- Blow fuses, and log that they have been blown (0xB024). -/
def State.blow (s : State) (e : EszSt) : State :=
  ({ s with esz := e }).logEntry { code := 0xB024, cls := 0, unit := eszUnit }

/-- RB_ESZ follows an Eszoja firmware that asks for it. -/
def State.rollEsz (s : State) (f : FwSt) : State :=
  if f.eszFlags % 2 = 1 ∧ s.esz.rbEsz < f.eszVer then s.blow { s.esz with rbEsz := f.eszVer } else s

/-- RB_HUB follows a hub firmware that asks for it. -/
def State.rollHub (s : State) (f : FwSt) : State :=
  if f.hubFlags % 2 = 1 ∧ s.esz.rbHub < f.hubVer then s.blow { s.esz with rbHub := f.hubVer } else s

/-- Vendor entry 0 is revoked by a firmware that entry 1 signed and that asks for it. -/
def State.dropVendor (s : State) (f : FwSt) : State :=
  if 2 ≤ f.eszFlags ∧ f.eszEntry = 1 ∧ !s.esz.revoked.contains 0 then s.blow { s.esz with revoked := s.esz.revoked ++ [0] } else s

/-- The changes of R578 when DEV_STATE first reads READY after a power-on reset. -/
def State.rollFuses (s : State) : State :=
  match s.esz.fw with
  | none => s
  | some f =>
    if s.esz.rolled then s
    else (((({ s with esz := { s.esz with rolled := true } }).rollEsz f).rollHub f).dropVendor f).showEsz

/-! ### ESZ_CMD -/

/-- A write of ESZ_CMD starts a command: Eszoja serves, and no command is in progress (R593). -/
def State.eszIdle (s : State) : Bool := s.eszServes && s.esz.busy.isNone

/-- Start a command that will end with a code. -/
def State.eszBegin (s : State) (cmd code : Nat) : State :=
  let s := (({ s with esz := { s.esz with busy := some (cmd, code) } }).setBit Reg.eszStatus 4 true).setBit Reg.eszResult 24 false
  if code = 0 then s else s.logEntry { code := code, cls := 7, unit := eszUnit }

/-- GET_NONCE (R580). -/
def applyGetNonce (s : State) : State :=
  if !s.eszIdle then s
  else
    let x := s.random 32
    (x.2.setNonce (some x.1)).eszBegin 1 0

def execGetNonce (s : State) : Host.Outcome State Fault Refusal := .next (applyGetNonce s)

/-- Address of a command's argument (Table 14.17). -/
def State.eszArg (s : State) : Nat := s.fld Reg.eszArgLo 31 0 + 2 ^ 32 * s.fld Reg.eszArgHi 15 0

/-- A request as read from device memory: 128 bytes of body and its signature block. -/
def State.request (s : State) : Bytes := s.view s.eszArg 2176

/-- OP, ARG and KEY_HASH of a request. -/
def reqOp (b : Bytes) : Nat := fieldAt b 4 1
def reqArg (b : Bytes) : Nat := fieldAt b 5 1
def reqHash (b : Bytes) : Bytes := (b.drop 0x30).take 48

/-- Every customer entry is empty. -/
def EszSt.noCustomer (e : EszSt) : Bool := (List.range 4).all fun i => (e.keyHash.getD (2 + i) none).isNone

/-- The signature of a request under Table 14.4 with the signer that Table 14.6 allows. -/
def EszSt.requestSigned (e : EszSt) (b : Bytes) : Option Nat :=
  let blk := b.drop 128
  if reqOp b = 1 ∧ e.noCustomer then
    match blockForm blk 4 true with
    | some c => some c
    | none => if keyPairHash blk = reqHash b then signaturesBad blk 4 0 (b.take 128) else some 0xB013
  else e.verify blk 4 (decide (reqOp b ≠ 6)) 0 0 0 (b.take 128)

/-- The preconditions of Table 14.6 (R581, R583) (log 100). -/
def State.requestAllowed (s : State) (b : Bytes) : Bool :=
  let e := s.esz
  let arg := reqArg b
  match reqOp b with
  | 1 => decide (arg < 4) && decide ((List.range 4).find? (fun i => (e.keyHash.getD (2 + i) none).isNone) = some arg)
  | 2 => decide (arg < 4) && !(keyEntry (fieldAt (b.drop 128) 7 1) == some (2 + arg))
  | 3 => decide (e.rbFing < fieldAt b 0x60 4) && decide (fieldAt b 0x60 4 ≤ 128)
  | 4 => true
  | 5 => true
  | 6 => !e.vendorDebugBlocked && !s.running
  | _ => false

/-- The code that refuses a request, in the order form, device and nonce, signature, preconditions (R580, R581) (log 100). -/
def State.requestCode (s : State) (b : Bytes) : Option Nat :=
  if fieldAt b 0 4 ≠ 0x5A455351 ∨ !zeroAt b 6 2 ∨ !zeroAt b 0x64 28 ∨ reqOp b = 0 ∨ 6 < reqOp b then some 0xB021
  else if (b.drop 8).take 8 ≠ s.esz.devid ∨ some ((b.drop 0x10).take 32) ≠ s.esz.nonce then some 0xB020
  else
    match s.esz.requestSigned b with
    | some c => some c
    | none => if s.requestAllowed b then none else some 0xB021

/-- The effect of an accepted request (Table 14.6, R581, R583) (log 100). -/
def State.requestEffect (s : State) (b : Bytes) : State :=
  let e := s.esz
  let arg := reqArg b
  let fuse (s : State) : State :=
    s.logEntry { code := 0xB023, cls := 0, unit := eszUnit, info0 := some (reqOp b + 256 * arg) }
  let unlock (n : Nat) (s : State) : State :=
    (s.setDebug n).logEntry { code := 0xB022, cls := 0, unit := eszUnit, info0 := some n }
  match reqOp b with
  | 1 =>
    let h := if (reqHash b).all (· == 0) then none else some (reqHash b)
    fuse { s with esz := { e with keyHash := setAt e.keyHash (2 + arg) h } }
  | 2 => fuse { s with esz := { e with revoked := if e.revoked.contains (2 + arg) then e.revoked else e.revoked ++ [2 + arg] } }
  | 3 => fuse { s with esz := { e with rbFing := fieldAt b 0x60 4 } }
  | 4 => fuse { s with esz := { e with vendorDebugBlocked := true } }
  | 5 => unlock 1 s
  | 6 =>
    let s := unlock 2 s
    let s := ({ s with esz := { s.esz with alias_ := none } }).setBit Reg.eszStatus 7 true
    s.logEntry { code := 0xB025, cls := 0, unit := eszUnit }
  | _ => s

/-- A request attempt: it consumes the nonce, and an accepted request has its effect (R580) (logs 100, 102). -/
def State.attempt (s : State) : State :=
  let s := s.leaveHold
  let b := s.request
  match s.requestCode b with
  | some code => (s.setNonce none).eszBegin 2 code
  | none => ((s.setNonce none).requestEffect b).eszBegin 2 0

/-- An attempt of a request with this OP; the command of another OP is not this one. -/
def State.attemptOp (s : State) (op : Nat) : State :=
  if s.eszIdle && decide (reqOp s.request = op) then s.attempt else s

/-- SIGNED_REQUEST (R580, R581). -/
def applySignedRequest (s : State) : State := if s.eszIdle then s.attempt else s

def execSignedRequest (s : State) : Host.Outcome State Fault Refusal := .next (applySignedRequest s)

/-- PROVISION_KEY: the request of OP 1. -/
def applyProvisionKey (s : State) : State := s.attemptOp 1

def execProvisionKey (s : State) : Host.Outcome State Fault Refusal := .next (applyProvisionKey s)

/-- REVOKE_KEY: the request of OP 2. -/
def applyRevokeKey (s : State) : State := s.attemptOp 2

def execRevokeKey (s : State) : Host.Outcome State Fault Refusal := .next (applyRevokeKey s)

/-- ADVANCE_FING: the request of OP 3. -/
def applyAdvanceFing (s : State) : State := s.attemptOp 3

def execAdvanceFing (s : State) : Host.Outcome State Fault Refusal := .next (applyAdvanceFing s)

/-- BLOCK_VENDOR_DEBUG: the request of OP 4. -/
def applyBlockVendorDebug (s : State) : State := s.attemptOp 4

def execBlockVendorDebug (s : State) : Host.Outcome State Fault Refusal := .next (applyBlockVendorDebug s)

/-- DEBUG_L1: the request of OP 5. -/
def applyDebugL1 (s : State) : State := s.attemptOp 5

def execDebugL1 (s : State) : Host.Outcome State Fault Refusal := .next (applyDebugL1 s)

/-- DEBUG_L2: the request of OP 6. -/
def applyDebugL2 (s : State) : State := s.attemptOp 6

def execDebugL2 (s : State) : Host.Outcome State Fault Refusal := .next (applyDebugL2 s)

/-- DEBUG_LOCK (R582). -/
def applyDebugLock (s : State) : State := if s.eszIdle then (s.setDebug 0).eszBegin 3 0 else s

def execDebugLock (s : State) : Host.Outcome State Fault Refusal := .next (applyDebugLock s)

/-- FW_UPDATE (R579): both images verify, and the copy that did not boot takes all 16 MiB (logs 101, 102). -/
def applyFwUpdate (s : State) : State :=
  match s.esz.fw with
  | none => s
  | some f =>
    if !s.eszIdle then s
    else
      let s := s.leaveHold
      let b := s.view s.eszArg 0x1000000
      let put (s : State) (x : FlashCopy) : State := { s with esz := { s.esz with flash := setAt s.esz.flash (1 - f.copy) x } }
      match s.esz.verifyCopy (1 - f.copy) b with
      | .ok _ => (put s (.bytes b)).eszBegin 4 0
      | .error c =>
        let x := s.draw
        (put x.2 (.undefined x.1)).eszBegin 4 c

def execFwUpdate (s : State) : Host.Outcome State Fault Refusal := .next (applyFwUpdate s)

/-- ESZ_CMD_DONE (R581, Table 14.16). -/
def applyEszCmdDone (s : State) : State :=
  match s.esz.busy with
  | none => s
  | some (cmd, code) =>
    let s := { s with esz := { s.esz with busy := none } }
    ((s.setReg Reg.eszResult (BitVec.ofNat 32 (code + 65536 * cmd + 16777216))).setBit Reg.eszStatus 4 false).showEsz

def execEszCmdDone (s : State) : Host.Outcome State Fault Refusal := .next (applyEszCmdDone s)

end Sys2Proof.Machine
end

