-- ==== Sys2Proof/Machine/Power.lean ====
section
/-! DEFINITION. Power cap, throttling, temperatures, wakes, HOLD, D-states, crossings and PLLs (R501 to R528). -/

namespace Sys2Proof.Machine

open Sys2Proof

/-! ### Power cap and throttle (R508 to R512) -/

/-- The effective cap (R508). -/
def State.effectiveCap (s : State) : Nat := min (s.fld Reg.pwrCapHost 11 0) (s.fld Reg.pwrCapMgmt 11 0)

/-- Thermal step of a compute die. -/
def State.thermStep (s : State) (n : Nat) : Nat := s.fld Reg.throttle (4 * n + 7) (4 * n + 4)

/-- Effective step of a compute die (R511); an absent die has none. -/
def State.effStep (s : State) (n : Nat) : Nat :=
  if s.cdiePresent n then max (s.fld Reg.throttle 3 0) (s.thermStep n) else 0

/-- DEV_STATE THROTTLED and HOT, and THROTTLE SEEN, after a change of steps, warnings or the clamp (R516, Tables 12.11, 12.17). -/
def State.showThrottle (s before : State) : State :=
  let dies := List.range 4
  let s := if dies.any (fun n => decide (before.effStep n = 0 ∧ 0 < s.effStep n)) then s.setBit Reg.throttle 21 true else s
  let s := s.setBit Reg.devState 9 (dies.any fun n => decide (0 < s.effStep n))
  s.setBit Reg.devState 10 (s.bit Reg.throttle 20 || (List.range 22).any fun d => s.bit (Reg.temp d) 9)

/-- POWER_SAMPLE (R509, R512): the averages, the energy, and the fast clamp (log 106). -/
def applyPowerSample (p : PowerSample) (s : State) : State :=
  if !s.power.powerOk then s
  else
    let before := s
    let s := s.setReg Reg.pwrNow (BitVec.ofNat 32 (min 65535 p.p10 + 65536 * min 65535 p.p1m))
    let s := s.bumpPair Reg.energyLo p.energy
    let s :=
      if 2400 < p.p10 then
        let t := (s.setFld Reg.throttle 3 0 8).setBit Reg.throttle 20 true
        if s.bit Reg.throttle 20 then t else t.logEntry { code := 0xA002, cls := 0 }
      else if p.p10 ≤ s.effectiveCap then s.setBit Reg.throttle 20 false
      else s
    s.showThrottle before

def execPowerSample (p : PowerSample) (s : State) : Host.Outcome State Fault Refusal := .next (applyPowerSample p s)

/-- Log 0xA001: at most once per beat while one runs (R511) (log 106). -/
def State.logStepRaised (s : State) : State :=
  let e : Ev := { code := 0xA001, cls := 0 }
  if s.beat.win.isSome then s.raiseBeat 0xA001 e else s.logEntry e

/-- POWER_STEP_UPDATE (R511): `below` says that P1M has stayed below 15/16 of the cap for the last 1 ms. The clamp holds the
step until it clears (R512) (log 106). -/
def applyPowerStepUpdate (below : Bool) (s : State) : State :=
  if !s.power.powerOk then s
  else
    let step := s.fld Reg.throttle 3 0
    let t :=
      if s.effectiveCap < s.fld Reg.pwrNow 31 16 then (s.setFld Reg.throttle 3 0 (min 8 (step + 1))).logStepRaised
      else if below && !s.bit Reg.throttle 20 then s.setFld Reg.throttle 3 0 (step - 1)
      else s
    t.showThrottle s

def execPowerStepUpdate (belowFor1ms : Bool) (s : State) : Host.Outcome State Fault Refusal :=
  .next (applyPowerStepUpdate belowFor1ms s)

/-! ### Temperatures (R513 to R516) -/

/-- Hub and `d` of the die that TEMP[d] shows (Table 12.22). -/
def tempDie (d : Nat) : Nat × Nat := if d < 4 then cdiePlace d else if d < 6 then (d - 4, 0) else pilePlace (d - 6)

/-- Unit code of that die. -/
def tempUnit (d : Nat) : UnitCode :=
  if d < 4 then { typ := 3, idx := d, sub := 0 } else if d < 6 then { typ := 1, idx := d - 4, sub := 0 }
  else { typ := 6, idx := d - 6, sub := 31 }

/-- Set a die's thermal step; leaving 0 logs 0xA003 (R515). -/
def State.setTherm (s : State) (n k : Nat) : State :=
  let old := s.thermStep n
  let s := s.setFld Reg.throttle (4 * n + 7) (4 * n + 4) k
  if old = 0 ∧ 0 < k then s.logEntry { code := 0xA003, cls := 0, unit := { typ := 3, idx := n, sub := 0 } } else s

/-- A threshold with hysteresis: reached at `hi`, released below `lo`. -/
def warned (on : Bool) (t hi lo : Nat) : Bool := decide (hi ≤ t) || (on && decide (lo ≤ t))

/-- One die's junction reading (R513, R515, Table 12.22) (log 107). -/
def State.readDie (s : State) (d : Nat) (r : Option Nat) : State :=
  let off := Reg.temp d
  match r with
  | none =>
    let s := s.setBit off 8 false
    let s := if s.power.invalid.contains d then s
      else ({ s with power := { s.power with invalid := s.power.invalid ++ [d] } }).logEntry { code := 0xA006, cls := 0, unit := tempUnit d }
    if d < 4 then s.setTherm d (max 4 (s.thermStep d)) else s
  | some t =>
    let t := min 255 t
    let w := warned (s.bit off 9) t 100 97
    let s := { s with power := { s.power with invalid := s.power.invalid.filter fun x => !(x == d) } }
    let s := ((s.setFld off 7 0 t).setBit off 8 true).setBit off 9 w
    let s := if w then s.setBit off 10 true else s
    s.setFld off 18 11 (max t (s.fld off 18 11))

/-- The reading of a pile's hottest DRAM die: hot refresh above 85 °C (R358) and the access limit (R514) (log 107). -/
def State.readDram (s : State) (n t : Nat) : State :=
  let t := min 255 t
  let off := Reg.pileState n
  let s := (s.setFld off 11 4 t).setBit off 3 (decide (85 < t))
  let was := s.power.limited.contains n
  let on := warned was t 95 92
  let s := { s with power := { s.power with
    limited := if on then (if was then s.power.limited else s.power.limited ++ [n]) else s.power.limited.filter fun x => !(x == n) } }
  if on && !was then s.logEntry { code := 0xA004, cls := 0, unit := { typ := 6, idx := n, sub := 31 } } else s

/-- The first sensor at or above its trip threshold. -/
def State.tripUnit (s : State) (temps : Temps) : Option UnitCode :=
  match (List.range 22).find? fun d => s.diePresent (tempDie d).1 (tempDie d).2 && match temps.dies[d]? with
    | some (some t) => decide (110 ≤ t)
    | _ => false with
  | some d => some (tempUnit d)
  | none =>
    match (List.range 16).find? fun n => s.pilePresent n && decide (105 ≤ temps.dram.getD n 0) with
    | some n => some { typ := 6, idx := n, sub := 31 }
    | none => none

/-- Every clock domain apart from the management clock (Table 12.6). -/
def otherDomains : List Nat :=
  [1, 2, 3, 4] ++ (List.range 4).map (0x10 + ·) ++ (List.range 16).map (0x20 + ·) ++ [0x30] ++ (List.range 32).map (0x40 + ·) ++ [0x60]

/-- A thermal trip (R516) (log 105). -/
def State.trip (s : State) (u : UnitCode) : State :=
  { s with power := { s.power with thermtrip := true, stopped := otherDomains } }.raise { code := 0xA005, cls := 4, unit := u }

/-- THERMAL_READ (R513 to R516) (log 107). -/
def applyThermalRead (temps : Temps) (s : State) : State :=
  if !s.power.powerOk || s.power.thermtrip then s
  else
    let before := s
    let s := (List.range 22).foldl (fun (s : State) (d : Nat) =>
      match temps.dies[d]? with
      | some r => if s.diePresent (tempDie d).1 (tempDie d).2 then s.readDie d r else s
      | none => s) s
    let s := (List.range 16).foldl (fun (s : State) (n : Nat) =>
      match temps.dram[n]? with
      | some t => if s.pilePresent n then s.readDram n t else s
      | none => s) s
    let s := s.showThrottle before
    match s.tripUnit temps with
    | some u => s.trip u
    | none => s

def execThermalRead (temps : Temps) (s : State) : Host.Outcome State Fault Refusal := .next (applyThermalRead temps s)

/-- THERMAL_STEP_TICK (R515): the step of a compute die rises at or above 100 °C and falls below 97 °C; a die whose sensor gives
no valid reading stays where it is. -/
def applyThermalStepTick (die : Nat) (s : State) : State :=
  if 3 < die ∨ !s.cdiePresent die ∨ !s.bit (Reg.temp die) 8 then s
  else
    let t := s.fld (Reg.temp die) 7 0
    let k := s.thermStep die
    let x := if 100 ≤ t then s.setTherm die (min 8 (k + 1)) else if t < 97 then s.setTherm die (k - 1) else s
    x.showThrottle s

def execThermalStepTick (die : Nat) (s : State) : Host.Outcome State Fault Refusal := .next (applyThermalStepTick die s)

/-! ### Wakes (R505, R507) -/

/-- WAKE_START (R505): at its next known event minus its wake time a unit in a low power state starts to wake (log 108). -/
def applyWakeStart (u : UnitId) (t : Nat) (s : State) : State :=
  let x := s.unit u
  if x.fenced || decide (x.power = 0) || !s.running then s
  else
    match s.nextEvent u with
    | some e => if e ≤ t + (if x.power = 1 then 4 else wakeNs x.power) then (s.at t).setPower u 0 else s
    | none => s

def execWakeStart (u : UnitId) (t : Nat) (s : State) : Host.Outcome State Fault Refusal := .next (applyWakeStart u t s)

/-- UNPLANNED_WAKE (R507): the access waits the wake time, and afterwards the unit decides its state again (log 108). -/
def applyUnplannedWake (u : UnitId) (t : Nat) (s : State) : State :=
  let x := s.unit u
  if x.fenced || decide (x.power = 0) then s
  else ((s.at t).bumpSat Reg.wakeCnt 15 0 1).choosePower u (t + wakeNs x.power)

def execUnplannedWake (u : UnitId) (t : Nat) (s : State) : Host.Outcome State Fault Refusal := .next (applyUnplannedWake u t s)

/-! ### HOLD and D-states (R518, R519) -/

/-- AUTO_HOLD (R518): 1 s has passed without an access and with no slot VERIFYING. -/
def applyAutoHold (s : State) : State :=
  if s.devState = 3 ∧ s.bit Reg.pwrCtl 1 ∧ s.slotA.state ≠ 1 ∧ s.slotB.state ≠ 1 then s.enterHold else s

def execAutoHold (s : State) : Host.Outcome State Fault Refusal := .next (applyAutoHold s)

/-- HOLD_EXIT (R518). -/
def applyHoldExit (s : State) : State := s.leaveHold

def execHoldExit (s : State) : Host.Outcome State Fault Refusal := .next (applyHoldExit s)

/-- D_STATE_CHANGE (R519). -/
def applyDStateChange (p : HPort) (d3hot : Bool) (s : State) : State :=
  if (s.hport p).up then (s.setFld Reg.devState (6 + 2 * portIdx p) (5 + 2 * portIdx p) (if d3hot then 3 else 0)).holdIfAlone else s

def execDStateChange (p : HPort) (d3hot : Bool) (s : State) : Host.Outcome State Fault Refusal := .next (applyDStateChange p d3hot s)

/-! ### Crossings and PLLs (R526, R527) -/

/-- CROSSING_TIMEOUT (R526): a register read that is abandoned returns all ones. -/
def applyCrossingTimeout (d : Nat) (reader : Option (Req × Nat)) (s : State) : State :=
  let s := s.crossTimeout d
  match reader with
  | some (r, off) => s.emit (.regData r off 0xFFFFFFFF)
  | none => s

def execCrossingTimeout (domain : Nat) (reader : Option (Req × Nat)) (s : State) : Host.Outcome State Fault Refusal :=
  .next (applyCrossingTimeout domain reader s)

/-- Domains that a PLL clocks (Table 12.6): all but the timebase counters and the recovered receive clocks. -/
def pllDomain (d : Nat) : Bool :=
  decide (d ≤ 4) || decide (0x10 ≤ d ∧ d < 0x14) || decide (0x20 ≤ d ∧ d < 0x30) || decide (d = 0x60)

/-- PLL_UNLOCK (R527): the domain stops. -/
def applyPllUnlock (d : Nat) (s : State) : State :=
  if !s.power.powerOk || !pllDomain d || s.power.stopped.contains d then s
  else ((({ s with power := { s.power with stopped := s.power.stopped ++ [d] } }).noteDomain d).setBit Reg.xingStatus 1 true)

def execPllUnlock (domain : Nat) (s : State) : Host.Outcome State Fault Refusal := .next (applyPllUnlock domain s)

/-- PLL_RELOCK (R527): 0xA011, and the beat replays. -/
def applyPllRelock (d : Nat) (s : State) : State :=
  if s.power.stopped.contains d && !s.power.thermtrip then
    ({ s with power := { s.power with stopped := s.power.stopped.filter fun x => !(x == d) } }).raise
      { code := 0xA011, cls := 1, unit := domainUnit d }
  else s

def execPllRelock (domain : Nat) (s : State) : Host.Outcome State Fault Refusal := .next (applyPllRelock domain s)

/-- PLL_RELOCK_TIMEOUT (R527): 0xA012 and the device-loss path; during start-up boot stops with 0xA020 (log 110). -/
def applyPllRelockTimeout (d : Nat) (s : State) : State :=
  if s.power.stopped.contains d && !s.power.thermtrip then
    if s.devState = 1 ∨ s.devState = 2 then s.raise { code := 0xA020, cls := 4, unit := domainUnit d }
    else s.raise { code := 0xA012, cls := 3, unit := domainUnit d, info1 := d }
  else s

def execPllRelockTimeout (domain : Nat) (s : State) : Host.Outcome State Fault Refusal := .next (applyPllRelockTimeout domain s)

end Sys2Proof.Machine
end

