-- ==== Sys2Proof/Machine/Startup.lean ====
section
/-! DEFINITION. Start-up, device reset, power-on reset and the watchdog (R37 to R40, R52, R57, R58, R181, R528 to R534, R559,
R566, R578, R605, R612). -/

namespace Sys2Proof.Machine

open Sys2Proof

/-! ### Dies and their connections -/

/-- Unit code of a die (Table 13.5). -/
def dieUnit (h d : Nat) : UnitCode :=
  if d = 0 then { typ := 1, idx := h, sub := 0 } else if d ≤ 2 then { typ := 3, idx := 2 * h + d - 1, sub := 0 }
  else { typ := 6, idx := 8 * h + d - 3, sub := 31 }

/-- The die at the far end of a hub's module (Table 1.4): its hub and `d` of R69. -/
def farDie (h n : Nat) : Nat × Nat :=
  if n < 24 then (h, 1) else if n < 48 then (h, 2) else if n < 96 then (h, 3 + (n - 48) / 6) else (1 - h, 0)

/-- Step `f` unless boot has stopped. -/
def State.onward (s : State) (f : State → State) : State := if s.devState = 2 then f s else s

/-- A start-up step is reached. -/
def State.reach (s : State) (n : Nat) : State := { s with power := { s.power with step := n } }

/-- The block that a die has sent. -/
def State.blockOf (s : State) (x : Nat × Nat) : Option ParamBlock :=
  (s.pkg.blocks.find? fun b => b.hub == x.1 && b.die == x.2).map (·.block)

/-- Every die of the package has sent its block. -/
def State.allBlocks (s : State) : Bool := s.pkg.dies.all fun x => (s.blockOf x).isSome

/-- DIE_STEP and DIE_CAP of a die (Tables 1.19, 1.20). -/
def State.showDie (s : State) (x : Nat × Nat) : State :=
  match s.blockOf x with
  | some b =>
    (s.setReg (Reg.dieStep x.1 x.2) (BitVec.ofNat 32 (b.dieType % 16 + 16 * (b.stepping % 256) + 2147483648))).setReg
      (Reg.dieCap x.1 x.2) b.caps
  | none => s

/-! ### Steps 6 to 9 of Table 12.9 -/

/-- Step 6: PLLs and self-tests (R527, R559). -/
def State.selfTests (s : State) : State :=
  let s := s.reach 6
  match s.pkg.pllFails with
  | some d => s.raise { code := 0xA020, cls := 4, unit := domainUnit d }
  | none =>
    if s.pkg.hubTestFails then s.raise { code := 0x1030, cls := 4, unit := { typ := 1, idx := 0, sub := 0 } }
    else if s.pkg.eszTestFails then s.raise { code := 0x1031, cls := 4, unit := eszUnit }
    else
      let s := s.pkg.failedArrays.foldl (fun (s : State) (x : Nat × Nat) => s.noteArrays x.1 [x.2]) s
      s.pkg.failedCores.foldl (fun (s : State) (p : Nat) =>
      s.logEntry { code := 0x300C, cls := 2, unit := { typ := 5, idx := p, sub := 0 } }) s

/-- X32_DEGRADE while modules train, before CAP_COMMON can be complete: every die has given a block with POWER_OK, and each block has the bit
(R47) (log 110). -/
def State.x32Given (s : State) : Bool := s.pkg.dies.all fun x => match s.blockOf x with
  | some b => b.caps.getLsbD 11
  | none => false

/-- Train one module of a hub: the lane test, lane repair, half width or a fence; the far die of a module that has trained has sent its
block when the package gives one (R37, R38, R46, R47, R52) (logs 44, 49). -/
def State.trainModule (s : State) (h n : Nat) : State :=
  if !(s.pkg.dies.contains (farDie h n)) then s
  else
    let r := s.pkg.modules.find? fun m => m.hub == h && m.module == n
    let trained := (r.map (·.trained)).getD true
    let failed := (r.map (·.failed)).getD []
    if !trained then s.fenceModule h n 0x1003 0
    else
      match s.applyLanes h n (laneFix [] failed s.x32Given) with
      | some s => (s.setModState h n 2).showDie (farDie h n)
      | none => s.fenceModule h n 0x1003 0

/-- Modules that a hub trains: its own, and hub 0 the seam for both ends. -/
def State.trainedMods (s : State) (h : Nat) : List Nat :=
  if s.pkg.dies.contains (h, 0) then List.range (if h = 0 then 120 else 96) else []

/-- Step 7: modules trained and the blocks that have arrived shown; each hub knows its own (R37, R38, R55). -/
def State.trainModules (s : State) : State :=
  let s := s.reach 7
  let s := (s.showDie (0, 0)).showDie (1, 0)
  let one (h : Nat) (s : State) : State := (s.trainedMods h).foldl (fun s n => s.onward fun s => s.trainModule h n) s
  (one 1 (one 0 s)).showCaps

/-- A present die lacks a required bit of its type (R57). -/
def State.missingCaps (s : State) (x : Nat × Nat) : Nat :=
  ((requiredCaps (s.dieType x)).filter fun b => !s.bit (Reg.dieCap x.1 x.2) b).foldl (fun a b => a + 2 ^ b) 0

/-- Capability and stepping checks (R57, R58) (log 110). -/
def State.checkDies (s : State) : State :=
  let s := if s.mixed (hubDies 0 ++ hubDies 1) then (s.setBit Reg.devStep 8 true).logEntry { code := 0x1010, cls := 0 } else s
  match s.pkg.dies.find? fun x => decide (0 < s.missingCaps x) with
  | some x =>
    s.raise { code := 0x1011, cls := 4, unit := dieUnit x.1 x.2, info0 := some (256 * x.1 + x.2), info1 := s.missingCaps x }
  | none => s

/-- Step 8: piles trained and zeroed (R532); comb and core-local SRAM keep what the self-tests left, which no rule gives. -/
def State.trainPiles (s : State) : State :=
  let s := s.reach 8
  let x := s.draw
  let s := { x.2 with dram := .empty, sram := Mem.empty.undefine 0 (68 * 2 ^ 25) x.1 }
  (List.range 16).foldl (fun (s : State) (n : Nat) => if s.pilePresent n then s.setFld (Reg.pileState n) 2 0 2 else s) s

/-- The home mapping of a compute die (R181). -/
def State.mapDie (s : State) (d : Nat) : State :=
  let s := (List.range 16).foldl (fun (s : State) (i : Nat) =>
    let p := 17 * d + i
    (s.mapCore (16 * d + i) p 0).setReg (Reg.coreState p) (BitVec.ofNat 32 (1 + 16 + 64 * (16 * d + i) + 0x7F * 8192 + d * 1048576))) s
  let p := 17 * d + 16
  let s := s.setReg (Reg.coreState p) (BitVec.ofNat 32 (5 + 16 + 32 + 0x7F * 64 + 0x7F * 8192 + d * 1048576))
  s.setReg (Reg.coreSpare d) (BitVec.ofNat 32 (p + 0x7F * 512))

/-- Presence discovery (R6, R181, R559): core mapping, failed cores out, forager lanes, CAP_PRESENT (log 112). -/
def State.discover (s : State) : State :=
  let s := s.setFld Reg.devStep 7 0 s.pkg.pkgRev
  let s := (List.range 4).foldl (fun (s : State) (d : Nat) => if s.cdiePresent d then s.mapDie d else s) s
  let s := s.pkg.failedCores.foldl (fun (s : State) (p : Nat) => if s.cdiePresent (p / 17) then s.fenceCore p else s) s
  let s := [0, 1].foldl (fun (s : State) (f : Nat) => if s.hubPresent f then s.setReg (Reg.forgLanes f) 0x1FF else s) s
  (s.showRoles none).showPresence 0

/-- Step 9: DEV_STATE READY, and the changes of R578 when it is the first since the power-on reset (log 109). -/
def State.ready (s : State) : State :=
  let s := (s.reach 9).discover
  s.onward fun s => (((s.setDevState 3).reach 10).rollFuses).holdIfAlone

/-- Start-up from the blocks on: checks, piles, presence. The capability check of R57 runs once every die has sent its block, so a block that
never comes stops boot with 0x1012 (log 110). -/
def State.afterBlocks (s : State) : State :=
  if s.allBlocks then ((s.checkDies).onward State.trainPiles).onward State.ready else s

/-- Start-up from step 6 on (R530, R532) (log 110). -/
def State.fromStep6 (s : State) : State := ((s.selfTests).onward State.trainModules).onward State.afterBlocks

/-! ### Power -/

/-- POWER_OK_ASSERT (R532): start-up with the package's physical facts. TEST_MODE keeps the device in BOOT (R612) (log 44). -/
def applyPowerOkAssert (pkg : Package) (s : State) : State :=
  if s.power.powerOk then s
  else
    let s := { s with pkg := pkg, power := { s.power with powerOk := true } }
    if pkg.testMode then s.reach 2
    else if pkg.pllFails = some 0 then (s.reach 1).raise { code := 0xA020, cls := 4, unit := domainUnit 0 }
    else
      let s := ((s.reach 5).loadFuses).bootFw
      if s.devState = 7 then s else ((s.setDevState 2).fromStep6)

def execPowerOkAssert (pkg : Package) (s : State) : Host.Outcome State Fault Refusal := .next (applyPowerOkAssert pkg s)

/-- POWER_OK_DEASSERT (R605, Table 12.8): a power-on reset. Fuses and the boot flash keep their contents; every memory loses its (log 113). -/
def applyPowerOkDeassert (s : State) : State :=
  if !s.power.powerOk then s
  else
    let x := s.draw
    let e := s.esz
    { State.reset with
      pending := s.pending, free := x.2.free, out := s.out
      dram := Mem.empty.undefine 0 (16 * 2 ^ 36) x.1
      comb := Mem.empty.undefine 0 (4 * 2 ^ 32) x.1
      sram := Mem.empty.undefine 0 (68 * 2 ^ 25) x.1
      esz := { EszSt.reset with rbEsz := e.rbEsz, rbHub := e.rbHub, rbFing := e.rbFing, vendorDebugBlocked := e.vendorDebugBlocked,
                                keyHash := e.keyHash, revoked := e.revoked, flash := e.flash } }

def execPowerOkDeassert (s : State) : Host.Outcome State Fault Refusal := .next (applyPowerOkDeassert s)

/-- STARTUP_STEP_TIMEOUT (R533): a step that has not ended by its bound (log 110). -/
def applyStartupStepTimeout (n : Nat) (s : State) : State :=
  if s.power.powerOk && s.devState == 2 && decide (s.power.step ≤ n) && decide (6 ≤ n ∧ n ≤ 9) then
    s.raise { code := 0xA021, cls := 4 }
  else s

def execStartupStepTimeout (stepNo : Nat) (s : State) : Host.Outcome State Fault Refusal := .next (applyStartupStepTimeout stepNo s)

/-! ### Parameter blocks (R38 to R40) -/

/-- PARAMETER_BLOCK: the first block of a connection is the die's; a module that brings another is fenced with 0x1006. -/
def applyParameterBlock (h n d : Nat) (b : ParamBlock) (s : State) : State :=
  let x := farDie h n
  if 2 ≤ h ∨ 120 ≤ n ∨ x.2 ≠ d ∨ !(s.pkg.dies.contains x) ∨ s.modState h n ≠ 2 then s
  else
    match s.blockOf x with
    | some a => if a = b then s else s.fenceModule h n 0x1006 2
    | none =>
      if s.devState = 2 ∧ s.power.step = 7 then
        let y : DieBlock := { hub := x.1, die := x.2, block := b }
        let s := { s with pkg := { s.pkg with blocks := s.pkg.blocks ++ [y] } }
        ((s.showDie x).showCaps).afterBlocks
      else s

def execParameterBlock (hub module die : Nat) (b : ParamBlock) (s : State) : Host.Outcome State Fault Refusal :=
  .next (applyParameterBlock hub module die b s)

/-- PARAMETER_BLOCK_TIMEOUT (R40). -/
def applyParameterBlockTimeout (h d : Nat) (s : State) : State :=
  if s.devState = 2 ∧ s.power.step = 7 ∧ s.pkg.dies.contains (h, d) ∧ (s.blockOf (h, d)).isNone then
    s.raise { code := 0x1012, cls := 4, unit := dieUnit h d }
  else s

def execParameterBlockTimeout (hub die : Nat) (s : State) : Host.Outcome State Fault Refusal :=
  .next (applyParameterBlockTimeout hub die s)

/-! ### Device reset (R529, R530) -/

/-- Registers outside the device domain: the management domain's, the MSI-X tables and the CXL component registers (Table 12.8). -/
def outsideDevice (off : Nat) : Bool :=
  decide (0x3C00000 ≤ off) || decide (0x210000 ≤ off ∧ off < 0x212000) || decide (0x220000 ≤ off ∧ off < 0x240000)

/-- Every register and all state of the device domain at its reset value; piles, combs and core-local SRAM undefined. The dies'
parameter blocks count as received in the start-up that follows (R40) (logs 110, 112). -/
def State.clearDevice (s : State) : State :=
  let x := s.draw
  let dstate := s.fld Reg.devState 8 5
  let ports (p : Nat) : Nat := s.fld p 10 0
  let linkA := ports Reg.portStatusA
  let linkB := ports Reg.portStatusB
  let t := { State.reset with
    pending := s.pending, free := x.2.free, out := s.out
    regs := s.regs.filter fun (r : Nat × Word) => outsideDevice r.1
    latches := s.latches.filter fun l => outsideDevice l.lo
    dram := Mem.empty.undefine 0 (16 * 2 ^ 36) x.1
    comb := Mem.empty.undefine 0 (4 * 2 ^ 32) x.1
    sram := Mem.empty.undefine 0 (68 * 2 ^ 25) x.1
    host := { HostSt.reset with portA := s.host.portA, portB := s.host.portB }
    power := { s.power with step := 5, stopped := [] }
    test := { TestSt.reset with testCtl := s.reg Reg.testCtl }
    esz := s.esz
    pkg := s.pkg }
  ((t.setFld Reg.devState 8 5 dstate).setFld Reg.portStatusA 10 0 linkA).setFld Reg.portStatusB 10 0 linkB

/-- TEST_STATUS is in the management domain; no test is in progress after a device reset. -/
def State.noTests (s : State) : State := (s.setFld Reg.testStatus 3 0 0).setBit Reg.testStatus 27 false

/-- DEV_RESET (R530): `flushed` transfers were under way across the crossings of the device domain (R528). A device after a
thermal trip leaves FAILED only by a power-on reset (R544) (logs 110, 111). -/
def applyDevReset (v : Word) (flushed : Nat) (s : State) : State :=
  if bits v 0 0 = 0 ∨ bits v 15 8 ≠ 0x5A ∨ !s.power.powerOk ∨ s.power.thermtrip ∨ s.devState = 1 then s
  else
    let before := s
    let s := s.host.runs.foldl (fun (s : State) (r : CopyRun) => s.abortCopy r) s
    let s := ((s.clearDevice).noTests).flushCrossing 3 flushed
    let s := ((s.setNonce none).setDebug 0).setDevState 2
    let s := s.showThrottle before
    if s.esz.fw.isSome then s.fromStep6 else s

def execDevReset (v : Word) (flushed : Nat) (s : State) : Host.Outcome State Fault Refusal := .next (applyDevReset v flushed s)

/-! ### Watchdog (R566) -/

/-- The registers of the management domain at their reset values; the tests under way stay visible (logs 103, 105). -/
def State.clearManagement (s : State) : State :=
  let s := { s with
    regs := s.regs.filter fun (r : Nat × Word) => decide (r.1 < 0x3C00000)
    latches := s.latches.filter fun l => decide (l.lo < 0x3C00000)
    power := { s.power with limited := [], invalid := [] } }
  let dies := (List.range 4).filter fun d => (getKey s.test.testing d).isSome
  let s := s.setFld Reg.testStatus 3 0 (dies.foldl (fun a d => a + 2 ^ d) 0)
  let s := s.setBit Reg.testStatus 27 (!s.test.updTest.isEmpty)
  if s.running then s else { s with test := { s.test with testCtl := s.reg Reg.testCtl } }

/-- Eszoja restarts: no command, nonce, debug level, connection or dynamic address stands (log 103). -/
def EszSt.restart (e : EszSt) : EszSt :=
  { e with nonce := none, debug := 0, busy := none, fw := none, epA := .idle, epB := .idle, epBus := .idle, address := none }

/-- A LOAD that is VERIFYING ends REFUSED with 0x2003 (R566). -/
def State.dropVerify (s : State) (f : FSlot) : State :=
  if (s.slot f).state = 1 then (s.setBit Reg.fingStatus 8 false).refuseSlot f { code := 0x2003 } else s

/-- The firmware restarts from a copy, or Eszoja stays without (0xB003) (log 103). -/
def State.restartFw (s : State) (c : Nat) : State :=
  match s.esz.verifyCopy c (s.esz.copyBytes c) with
  | .ok g => s.runFw g
  | .error _ => ((s.setFld Reg.eszStatus 2 0 3).showEsz).logEntry { code := 0xB003, cls := 0, unit := eszUnit }

/-- WATCHDOG: the firmware restarts from the copy that booted, or Eszoja serves nothing (0xB003) (logs 103, 111). -/
def applyWatchdog (flushed : Nat) (s : State) : State :=
  match s.esz.fw with
  | none => s
  | some f =>
    if !s.power.powerOk then s
    else
      let x := s.clearManagement
      let x := ({ x with esz := x.esz.restart }).logEntry { code := 0xB030, cls := 0, unit := eszUnit }
      let x := (x.flushCrossing 0 flushed).setPair Reg.eszDevidLo (leNat x.esz.devid)
      let x := ((x.setBit Reg.eszStatus 7 x.esz.alias_.isNone).dropVerify .a).dropVerify .b
      (x.showThrottle s).restartFw f.copy

def execWatchdog (flushed : Nat) (s : State) : Host.Outcome State Fault Refusal := .next (applyWatchdog flushed s)

end Sys2Proof.Machine
end

