-- ==== Sys2Proof/Machine/Mgmt.lean ====
section
/-! DEFINITION. Attestation, telemetry, the power cap over the management messages, test access and the management bus
(R582, R586, R588 to R591, R612). -/

namespace Sys2Proof.Machine

open Sys2Proof

/-! ### Endpoints (R586, R590) -/

/-- Eszoja answers on an endpoint: its firmware runs and, for a port's endpoint, the link is up. -/
def State.epOpen (s : State) (ep : MgmtEp) : Bool :=
  s.eszServes && match ep with
    | .portA => (s.hport .a).up
    | .portB => (s.hport .b).up
    | .bus => true

/-- Connection state of an endpoint. -/
def State.spdmEp (s : State) : MgmtEp → SpdmEp
  | .portA => s.esz.epA
  | .portB => s.esz.epB
  | .bus => s.esz.epBus

/-- Replace an endpoint's connection state. -/
def State.setSpdm (s : State) (ep : MgmtEp) (x : SpdmEp) : State :=
  match ep with
  | .portA => { s with esz := { s.esz with epA := x } }
  | .portB => { s with esz := { s.esz with epB := x } }
  | .bus => { s with esz := { s.esz with epBus := x } }

/-- Note what an endpoint has exchanged, which a later signature covers (log 36). -/
def State.note (s : State) (ep : MgmtEp) (b : Bytes) : State :=
  s.setSpdm ep { s.spdmEp ep with transcript := (s.spdmEp ep).transcript ++ b }

/-- Refuse a request with an error response (log 104). -/
def State.spdmError (s : State) (ep : MgmtEp) : State := s.emit (.spdm ep .error)

/-- NEGOTIATE_ALGORITHMS (R586): versions 1.2 and 1.3, certificates, challenges and signed measurements, no key exchange and no
mutual authentication. -/
def applyNegotiateAlgorithms (ep : MgmtEp) (s : State) : State :=
  if s.epOpen ep then (s.setSpdm ep { negotiated := true, transcript := [] }).emit (.spdm ep (.algorithms [0x12, 0x13] true true true false false))
  else s

def execNegotiateAlgorithms (ep : MgmtEp) (s : State) : Host.Outcome State Fault Refusal := .next (applyNegotiateAlgorithms ep s)

/-- The certificate chain of slot 0 (R585, R586) (log 8). -/
def State.certChain (s : State) : Option Bytes :=
  s.esz.chain.map fun n => (List.range (Config.certLen n)).map (Config.certChain n)

/-- GET_CERTIFICATE (R586) (log 104). -/
def applyGetCertificate (ep : MgmtEp) (off len : Nat) (s : State) : State :=
  if !s.epOpen ep then s
  else if !(s.spdmEp ep).negotiated then s.spdmError ep
  else
    match s.certChain with
    | none => s.spdmError ep
    | some c =>
      let part := (c.drop off).take len
      (s.note ep part).emit (.spdm ep (.certificate part (c.length - (off + part.length))))

def execGetCertificate (ep : MgmtEp) (off len : Nat) (s : State) : Host.Outcome State Fault Refusal :=
  .next (applyGetCertificate ep off len s)

/-- A fresh responder nonce and an Alias signature over a message; the per-message secret is random (log 36). -/
def State.sign (s : State) (key : Nat) (msg : Bytes) : (Bytes × Bytes) × State :=
  let n := s.random 32
  let k := n.2.random 48
  ((n.1, ecdsaSign key (1 + beNat k.1 % (p384N - 1)) (msg ++ n.1)), k.2)

/-- CHALLENGE (R583, R586): refused once the Alias key is erased, and without a certificate chain (logs 36, 104). -/
def applyChallenge (ep : MgmtEp) (nonce : Bytes) (s : State) : State :=
  if !s.epOpen ep then s
  else
    match s.esz.alias_, s.certChain, (s.spdmEp ep).negotiated with
    | some key, some c, true =>
      let x := s.sign key ((s.spdmEp ep).transcript ++ nonce ++ sha384 c)
      x.2.emit (.spdm ep (.challengeAuth (sha384 c) x.1.1 x.1.2))
    | _, _, _ => s.spdmError ep

def execChallenge (ep : MgmtEp) (nonce : Bytes) (s : State) : Host.Outcome State Fault Refusal := .next (applyChallenge ep nonce s)

/-- Measurement of a fingering slot (Table 14.8): state, customer entry, ROLLBACK_VER, D and HOME_MAP_DIGEST; zeros unless LOADED
or RUNNING (log 35). -/
def slotMeasure (x : SlotSt) : Bytes :=
  match x.fing with
  | some g =>
    if x.state = 2 ∨ x.state = 3 then
      leBytes 1 x.state ++ leBytes 1 g.key ++ leBytes 2 0 ++ leBytes 4 g.hdr.rollbackVer ++ g.digest ++ g.hdr.homeDigest
    else leBytes 1 x.state ++ zeroBytes 103
  | none => leBytes 1 x.state ++ zeroBytes 103

/-- A measurement block (Table 14.8) (log 35). -/
def State.measure (s : State) (f : FwSt) (i : Nat) : Bytes :=
  match i with
  | 1 => (List.range 48).map Config.romDigest
  | 2 => f.eszDigest
  | 3 => f.hubDigest
  | 4 => s.esz.secState f.copy
  | 5 => slotMeasure s.slotA
  | 6 => slotMeasure s.slotB
  | _ => [Reg.devStep, Reg.capCommon 0, Reg.capPresent0, Reg.capPresent1, Reg.cascadeCoord].flatMap fun r => leBytes 4 (s.readReg r).toNat

/-- GET_MEASUREMENTS (R583, R588): the number of blocks, one block, or all of them (logs 36, 104). -/
def applyGetMeasurements (ep : MgmtEp) (index : Nat) (signed : Bool) (nonce : Bytes) (s : State) : State :=
  match s.esz.fw with
  | none => s
  | some f =>
    if !s.epOpen ep then s
    else if !(s.spdmEp ep).negotiated || (decide (7 < index) && decide (index ≠ 255)) then s.spdmError ep
    else if index = 0 then s.emit (.spdm ep (.count 7))
    else
      let blocks := (if index = 255 then [1, 2, 3, 4, 5, 6, 7] else [index]).map fun i => (i, s.measure f i)
      let content := blocks.flatMap fun (x : Nat × Bytes) => leBytes 1 x.1 ++ x.2
      if signed then
        match s.esz.alias_ with
        | none => s.spdmError ep
        | some key =>
          let x := s.sign key ((s.spdmEp ep).transcript ++ nonce ++ content)
          (x.2.setSpdm ep { x.2.spdmEp ep with transcript := [] }).emit (.spdm ep (.measurements blocks (some x.1)))
      else (s.note ep content).emit (.spdm ep (.measurements blocks none))

def execGetMeasurements (ep : MgmtEp) (index : Nat) (signed : Bool) (nonce : Bytes) (s : State) : Host.Outcome State Fault Refusal :=
  .next (applyGetMeasurements ep index signed nonce s)

/-! ### Management commands (R590, R591) -/

/-- The hottest die of TEMP[d]: its temperature and number, the lowest number on a tie. -/
def State.hottest (s : State) : Nat × Nat :=
  (List.range 22).foldl (fun a d => let t := s.fld (Reg.temp d) 7 0; if a.1 < t then (t, d) else a) (0, 0)

/-- A telemetry page (Table 14.10). -/
def State.telemetryPage (s : State) : Bytes :=
  leBytes 4 (s.readReg Reg.devState).toNat ++ leBytes 4 (s.reg Reg.pwrNow).toNat ++ leBytes 2 s.effectiveCap
    ++ leBytes 1 s.hottest.1 ++ leBytes 1 s.hottest.2 ++ leBytes 4 (s.readReg Reg.errSummary).toNat ++ leBytes 8 (s.pair Reg.energyLo)
    ++ leBytes 4 (s.reg Reg.throttle).toNat ++ leBytes 4 (s.reg Reg.beatCountLo).toNat
    ++ (List.range 22).flatMap (fun d => leBytes 1 (s.fld (Reg.temp d) 7 0)) ++ zeroBytes 10

/-- READ_TELEMETRY (R591). -/
def applyReadTelemetry (ep : MgmtEp) (s : State) : State :=
  if s.epOpen ep then s.emit (.telemetry ep s.telemetryPage) else s

def execReadTelemetry (ep : MgmtEp) (s : State) : Host.Outcome State Fault Refusal := .next (applyReadTelemetry ep s)

/-- SET_CAP (R590): on the management bus only. -/
def applySetCap (ep : MgmtEp) (w : Nat) (s : State) : State :=
  if !s.epOpen ep then s
  else if ep = .bus then
    (s.setFld Reg.pwrCapMgmt 11 0 (clampCap (w % 65536))).emit (.capSet ep true (clampCap (w % 65536)))
  else s.emit (.capSet ep false (s.fld Reg.pwrCapMgmt 11 0))

def execSetCap (ep : MgmtEp) (w : Nat) (s : State) : Host.Outcome State Fault Refusal := .next (applySetCap ep w s)

/-- GET_CAP (R590). -/
def applyGetCap (ep : MgmtEp) (s : State) : State :=
  if s.epOpen ep then s.emit (.caps ep (s.fld Reg.pwrCapMgmt 11 0) (s.fld Reg.pwrCapHost 11 0) s.effectiveCap) else s

def execGetCap (ep : MgmtEp) (s : State) : Host.Outcome State Fault Refusal := .next (applyGetCap ep s)

/-! ### Test access (R582) and the management bus (R612) -/

/-- The debug level opens a test access (Table 14.7). -/
def State.tapOpens (s : State) : TapOp → Bool
  | .bypass => true
  | .idcode => true
  | .samplePreload => true
  | .extest => !s.running
  | .scan => decide (s.esz.debug = 2) && !s.running
  | .instrument _ => decide (1 ≤ s.esz.debug)
  | .instrumentOther => decide (1 ≤ s.esz.debug)
  | .eszojaDebug => decide (s.esz.debug = 2)

/-- IDCODE (R582) (log 9). -/
def State.idcode (s : State) : Nat :=
  1 + 2 * (Config.jep106 % 2048) + 4096 * 0x7A24 + 268435456 * (s.fld Reg.devStep 3 0)

/-- TAP_ACCESS (R582): an access that the debug level does not open changes nothing; an instrument access wakes its unit (log 9). -/
def applyTapAccess (op : TapOp) (s : State) : State :=
  if !s.power.powerOk then s
  else if !s.tapOpens op then s.emit (.tap none)
  else
    match op with
    | .bypass => s.emit (.tap (some [0]))
    | .idcode => s.emit (.tap (some (leBytes 4 s.idcode)))
    | .instrument u =>
      let x := (applyUnplannedWake u s.now s).draw
      x.2.emit (.tap (some ((List.range 4).map (Config.tapData x.1))))
    | _ =>
      let x := s.draw
      x.2.emit (.tap (some ((List.range 4).map (Config.tapData x.1))))

def execTapAccess (op : TapOp) (s : State) : Host.Outcome State Fault Refusal := .next (applyTapAccess op s)

/-- DYNAMIC_ADDRESS (R612): a 7-bit address. -/
def applyDynamicAddress (addr : Nat) (s : State) : State :=
  if s.power.powerOk && decide (addr < 128) then { s with esz := { s.esz with address := some addr } } else s

def execDynamicAddress (addr : Nat) (s : State) : Host.Outcome State Fault Refusal := .next (applyDynamicAddress addr s)

end Sys2Proof.Machine
end

