-- ==== Sys2Proof/Machine/Modules.lean ====
section
/-! DEFINITION. The commands of the Serrin modules: failed flits and the outcome of a retraining (R35, R42 to R48, R51). -/

namespace Sys2Proof.Machine

open Sys2Proof

/-- FLIT_CRC_FAIL: the `nth` consecutive failure of one flit (R35, R42, R45) (log 48). -/
def applyFlitCrcFail (hub n nth : Nat) (s : State) : State :=
  if s.modState hub n = 2 ∧ n < 120 ∧ hub < 2 then
    let m := s.modSt hub n
    let crc := m.crc + 1
    let last := decide (8 ≤ nth)
    let s := s.setMod hub n { m with crc := crc }
    let h := s.modShared hub n
    let s := s.setShared hub n { h with want := h.want || last || decide (32 ≤ crc) }
    let s := if last then s.raise { code := 0x1004, cls := 1, unit := modUnit hub n }
      else s.bumpSat (Reg.d2dModStatus hub n) 23 8 1
    s.modulesNow
  else s

def execFlitCrcFail (hub module nth : Nat) (s : State) : Host.Outcome State Fault Refusal :=
  .next (applyFlitCrcFail hub module nth s)

/-- MODULE_RETRAIN_DONE (R44, R46, R47). -/
def applyModuleRetrainDone (hub n : Nat) (failed : List Nat) (s : State) : State :=
  if s.modState hub n = 1 ∧ n < 120 ∧ hub < 2 then
    match s.applyLanes hub n (laneFix (s.modShared hub n).mapped failed (s.bit (Reg.capCommon 0) 11)) with
    | some s => (s.setShared hub n { s.modShared hub n with back := true }).modulesNow
    | none => ((s.fenceModule hub n 0x1003 0).modulesNow).takeLoss
  else s

def execModuleRetrainDone (hub module : Nat) (failed : List Nat) (s : State) : Host.Outcome State Fault Refusal :=
  .next (applyModuleRetrainDone hub module failed s)

/-- MODULE_RETRAIN_TIMEOUT (R47). -/
def applyModuleRetrainTimeout (hub n : Nat) (s : State) : State :=
  if s.modState hub n = 1 ∧ n < 120 ∧ hub < 2 then
    ((s.fenceModule hub n 0x1003 0).modulesNow).takeLoss
  else s

def execModuleRetrainTimeout (hub module : Nat) (s : State) : Host.Outcome State Fault Refusal :=
  .next (applyModuleRetrainTimeout hub module s)

end Sys2Proof.Machine
end

