-- ==== Sys2Proof/Machine/Vector.lean ====
section
/-! DEFINITION. The vector engine and its scalar control unit: one meaning for each instruction of Table 3.27 (R176 to
R180, R194, R208 to R216, R228, R231, R241). An instruction is fetched from the program region of the core; a row's
meaning applies when the routine has reached an instruction of that opcode. -/

namespace Sys2Proof.Machine

open Sys2Proof

/-! ### Instruction words (Table 3.26) -/

/-- A vector instruction word. -/
structure VInstr where
  opc : Nat
  d : Nat
  a : Nat
  b : Nat
  c : Nat
  fmt : Nat
  mkr : Nat
  masked : Bool
  res : Bool
  imm : Nat
deriving DecidableEq, Repr

/-- Read an instruction word from its number. -/
def decodeVec (w : Nat) : VInstr :=
  { opc := w % 256, d := w / 2 ^ 8 % 64, a := w / 2 ^ 14 % 64, b := w / 2 ^ 20 % 64, c := w / 2 ^ 26 % 64,
    fmt := w / 2 ^ 32 % 8, mkr := w / 2 ^ 35 % 8, masked := decide (w / 2 ^ 38 % 2 = 1), res := decide (w / 2 ^ 39 % 2 = 1),
    imm := w / 2 ^ 40 % 2 ^ 24 }

/-- Sign extension of the immediate. -/
def VInstr.simm (i : VInstr) : Int := if i.imm < 8388608 then i.imm else (i.imm : Int) - 16777216

/-- Opcodes whose D, A, B or C names a scalar register; the rest of the used fields name vector registers. -/
def scalarD : List Nat := [0x49, 0x80, 0x81, 0x82, 0x83, 0x84, 0x85, 0x86, 0x87, 0x88, 0x89, 0x8A, 0x8B, 0x8D]
def scalarA : List Nat :=
  [0x42, 0x43, 0x48, 0x4B, 0x82, 0x83, 0x84, 0x85, 0x86, 0x87, 0x88, 0x89, 0x8A, 0x8B, 0x8C, 0x91, 0x92, 0x93, 0x94]
def scalarB : List Nat := [0x29, 0x48, 0x49, 0x82, 0x84, 0x85, 0x86, 0x87, 0x88, 0x8C, 0x93]
def scalarC : List Nat := [0x49]

/-- Opcodes of Table 3.27. -/
def vecOpcodes : List Nat :=
  [0x01, 0x02, 0x03, 0x04, 0x05, 0x06, 0x10, 0x11, 0x12, 0x13, 0x20, 0x28, 0x29, 0x30, 0x31, 0x32, 0x38, 0x39, 0x3A,
    0x3B, 0x3C, 0x3D, 0x40, 0x41, 0x42, 0x43, 0x48, 0x49, 0x4A, 0x4B, 0x80, 0x81, 0x82, 0x83, 0x84, 0x85, 0x86, 0x87,
    0x88, 0x89, 0x8A, 0x8B, 0x8C, 0x8D, 0x90, 0x91, 0x92, 0x93, 0x94, 0x98, 0x99, 0x9F]

/-- No reserved opcode and no reserved field value (R179). -/
def VInstr.valid (i : VInstr) : Bool :=
  vecOpcodes.contains i.opc && !i.res && decide (i.fmt ≤ 4)
    && (!scalarD.contains i.opc || decide (i.d < 32)) && (!scalarA.contains i.opc || decide (i.a < 32))
    && (!scalarB.contains i.opc || decide (i.b < 32)) && (!scalarC.contains i.opc || decide (i.c < 32))
    && (i.opc != 0x12 || (decide (i.d < 8) && decide (i.imm % 8 ≠ 7)))
    && (i.opc != 0x13 || !i.masked)
    && (i.opc != 0x29 || decide (i.fmt = 3 ∨ i.fmt = 4))
    && (i.opc != 0x4B || decide (i.imm % 4096 % 128 = 0))

/-! ### Registers (R179) -/

/-- A vector register: 128 lanes, zeros where nothing has been written. -/
def VecSt.vreg (v : VecSt) (n : Nat) : List Word := (getKey v.vregs n).getD (List.replicate 128 0)

/-- A mask register: register 0 reads all ones. -/
def VecSt.mask (v : VecSt) (n : Nat) : BitVec 128 := if n = 0 then BitVec.allOnes 128 else (getKey v.masks n).getD 0

/-- A scalar register: register 0 reads 0. -/
def VecSt.sreg (v : VecSt) (n : Nat) : DWord := if n = 0 then 0 else (getKey v.sregs n).getD 0

/-- Write a scalar register: register 0 ignores writes. -/
def VecSt.setS (v : VecSt) (n : Nat) (x : DWord) : VecSt := if n = 0 then v else { v with sregs := putKey v.sregs n x }

/-- Write a mask register: register 0 ignores writes. -/
def VecSt.setM (v : VecSt) (n : Nat) (x : BitVec 128) : VecSt := if n = 0 then v else { v with masks := putKey v.masks n x }

/-- Lane `i` of an instruction with this word is written. -/
def VecSt.lane (v : VecSt) (i : VInstr) (n : Nat) : Bool := !i.masked || (v.mask i.mkr).getLsbD n

/-- Write a vector register under the instruction's mask. -/
def VecSt.setV (v : VecSt) (i : VInstr) (x : List Word) : VecSt :=
  let old := v.vreg i.d
  let new := (List.range 128).map fun n => if v.lane i n then x.getD n 0 else old.getD n 0
  { v with vregs := putKey v.vregs i.d new }

/-- The scale code of the block that lane `n` belongs to. -/
def VecSt.scaleOf (v : VecSt) (n : Nat) : Nat := (v.scales.getD (n / 32) 0).toNat

/-! ### Fetch and the common step -/

/-- Where an instruction runs: unit, slot, instruction, error context. -/
structure VecCtx where
  u : UnitId
  r : RunSlot
  i : VInstr
  c : ErrCtx
deriving DecidableEq, Repr

/-- The instruction that a vector engine's slot has reached (log 117). -/
def State.instrAt (s : State) (r : RunSlot) : VInstr := decodeVec (leNat (s.coreRead r.core (0x1F00000 + r.ptr) 8))

/-- Rank in the routine of the instruction at a program-region offset, counted from the routine's entry modulo 2^14, the width of the
ordinal in an op code (R227, R234) (log 131). -/
def RunSlot.rankAt (r : RunSlot) (target : Int) : Nat := (((r.ordinal : Int) + (target - r.ptr) / 8) % 16384).toNat

/-- Go on to the instruction at a program-region offset; a target outside the region is a program fault (R179). -/
def State.jump (s : State) (x : VecCtx) (target : Int) : State :=
  if 0 ≤ target ∧ target < 0x100000 then
    s.setRun x.u { x.r with ptr := target.toNat, ordinal := x.r.rankAt target, wait := none }
  else s.progFault x.c

/-- Go on to the next instruction. -/
def State.nextInstr (s : State) (x : VecCtx) : State := s.jump x (x.r.ptr + 8)

/-- Run the reached instruction when it has the row's opcode; an invalid one is a program fault under every row (log 2). -/
def vecStep (opc l : Nat) (body : VecCtx → State → State) (s : State) : State :=
  let u := vectorUnit l
  match s.runOf u with
  | none => s
  | some r =>
    let i := s.instrAt r
    let c := s.errCtx u r
    if !i.valid then s.progFault c
    else if i.opc = opc then body { u := u, r := r, i := i, c := c } s
    else s

/-- An instruction that only changes the engine's registers. -/
def regStep (opc l : Nat) (f : VInstr → VecSt → VecSt) (s : State) : State :=
  vecStep opc l (fun x s => (s.setVec x.c.phys (f x.i (s.vec x.c.phys))).nextInstr x) s

/-- Lane `n` of a vector register. -/
def VecSt.at (v : VecSt) (r n : Nat) : Word := (v.vreg r).getD n 0

/-- Lane by lane on one, two or three vector registers. -/
def lanes1 (f : Word → Word) (i : VInstr) (v : VecSt) : VecSt :=
  v.setV i ((List.range 128).map fun n => f (v.at i.a n))
def lanes2 (f : Word → Word → Word) (i : VInstr) (v : VecSt) : VecSt :=
  v.setV i ((List.range 128).map fun n => f (v.at i.a n) (v.at i.b n))
def lanes3 (f : Word → Word → Word → Word) (i : VInstr) (v : VecSt) : VecSt :=
  v.setV i ((List.range 128).map fun n => f (v.at i.a n) (v.at i.b n) (v.at i.c n))

/-- Scalar operation on A and B. -/
def scalar2 (f : DWord → DWord → DWord) (i : VInstr) (v : VecSt) : VecSt := v.setS i.d (f (v.sreg i.a) (v.sreg i.b))

/-! ### Memory -/

/-- Address of a scalar register plus a displacement, modulo 2^64. -/
def vecAddr (base : DWord) (off : Int) : Nat := (base + BitVec.ofInt 64 off).toNat

/-- A vector address is a device address: bit 63 (R179). -/
def isDevice (a : Nat) : Bool := decide (9223372036854775808 ≤ a)

/-- Read bytes at a vector address; `none` where R131 or R320 forbids the address, which R179 makes 0x300B (log 132). -/
def State.vecRead (s : State) (x : VecCtx) (a n : Nat) : Option (Bytes × State) :=
  if isDevice a then
    let d := a % 281474976710656
    if s.canRead (.vector x.c.phys) d n && !(s.hitsCore false d n) then some (s.fetch (.vector x.c.phys) d n) else none
  else if loadForbidden a n then none
  else some (s.coreRead x.r.core a n, s)

/-- Whether bytes at a vector address can be written. -/
def State.vecCanWrite (s : State) (x : VecCtx) (a n : Nat) : Bool :=
  if isDevice a then
    let d := a % 281474976710656
    ((s.placesOf (.vector x.c.phys) true d n).isSome && !(s.hitsCore true d n)) || (s.needsHold d).isSome
  else !storeForbidden a n

/-- Write bytes at a vector address that can be written. -/
def State.vecWrite (s : State) (x : VecCtx) (a : Nat) (b : Bytes) : State :=
  if isDevice a then s.store (.vector x.c.phys) (a % 281474976710656) b else s.coreWrite x.r.core a b

/-- Operand format code of FMT: 0 FP32, 1 BF16, 2 FP16, 3 ZF8, 4 ZF4 to the codes of array operands. -/
def operandFmt (f : Nat) : Nat := if f = 0 then 4 else f - 1

/-- Target format of FMT. -/
def vecFmt (f : Nat) : Fmt := if f = 0 then .fp32 else if f = 1 then .bf16 else if f = 2 then .fp16
  else if f = 3 then .zf8 else .zf4

/-- FMT is block-scaled. -/
def isBlockFmt (f : Nat) : Bool := decide (f = 3 ∨ f = 4)

/-- An element as a lane takes it: an FP32 code as it is (R194), a narrower one widened (Table 4.6). -/
def laneOf (f scale code : Nat) : Word :=
  if f = 0 then BitVec.ofNat 32 code else widen (elemValue (operandFmt f) scale code)

/-- The 128 elements of a packed row, widened (Table 4.6). -/
def widenRow (v : VecSt) (f : Nat) (row : Bytes) : List Word :=
  (List.range 128).map fun n => laneOf f (v.scaleOf n) (rowCode (operandFmt f) row n)

/-- One block of lanes converted at the scale register's code. -/
def VecSt.block (v : VecSt) (f k : Nat) (w : List Word) : Block :=
  convertBlock (f == 3) (v.scales.getD k 0).toNat (((w.drop (32 * k)).take 32).map fp32)

/-- Flat element index of a vector store: counted from the start of the tensor that its address lies in, else from
address 0 (log 20). -/
def State.flatIndex (s : State) (a f : Nat) : Nat :=
  let off :=
    if isDevice a then
      match s.resolve (a % 281474976710656) with
      | some pl => match s.tensorAt pl with
        | some t => match s.homeOf t with
          | some h => pl.dev - h
          | none => pl.dev
        | none => pl.dev
      | none => 0
    else a
  if f = 0 then off / 4 else if f = 3 then off else if f = 4 then 2 * off else off / 2

/-- The events of a vector store for the watch (log 20). -/
def vecElems (v : VecSt) (i : VInstr) (base : Nat) (w : List Word) (convs : List Conv) : List Elem :=
  (w.zip convs).zipIdx.filterMap fun z =>
    let n := base + z.2
    if v.lane i z.2 then some { src := z.1.1, conv := z.1.2, row := n / 4294967296, col := n % 4294967296 } else none

/-- Blocks of a store that overflow: those of which a written lane saturates (R240); the blocks are numbered from `base` on. -/
def vecOvf (v : VecSt) (i : VInstr) (base : Nat) (bs : List Block) : List Nat :=
  bs.zipIdx.filterMap fun z =>
    if z.1.convs.zipIdx.any fun c => c.1.sat && v.lane i (32 * z.2 + c.2) then some (base + z.2) else none

/-- Bytes of a store: masked lanes keep what memory holds. -/
def mergeMasked (v : VecSt) (i : VInstr) (new old : Bytes) : Bytes :=
  let f := i.fmt
  (List.range new.length).map fun n =>
    let b := new.getD n 0
    let o := old.getD n 0
    if f = 4 then
      (if v.lane i (2 * n) then b &&& 0x0F else o &&& 0x0F) ||| (if v.lane i (2 * n + 1) then b &&& 0xF0 else o &&& 0xF0)
    else
      let size := if f = 0 then 4 else if f = 3 then 1 else 2
      if v.lane i (n / size) then b else o

/-! ### Arithmetic, compare and select -/

/-- VADD. -/
def applyVadd (l : Nat) (s : State) : State := regStep 0x01 l (lanes2 addRne) s

def execVadd (l : Nat) (s : State) : Host.Outcome State Fault Refusal := .next (applyVadd l s)

/-- VSUB. -/
def applyVsub (l : Nat) (s : State) : State := regStep 0x02 l (lanes2 subRne) s

def execVsub (l : Nat) (s : State) : Host.Outcome State Fault Refusal := .next (applyVsub l s)

/-- VMUL. -/
def applyVmul (l : Nat) (s : State) : State := regStep 0x03 l (lanes2 mulRne) s

def execVmul (l : Nat) (s : State) : Host.Outcome State Fault Refusal := .next (applyVmul l s)

/-- VFMA: one rounding. -/
def applyVfma (l : Nat) (s : State) : State := regStep 0x04 l (lanes3 fma32) s

def execVfma (l : Nat) (s : State) : Host.Outcome State Fault Refusal := .next (applyVfma l s)

/-- VNEG (R194). -/
def applyVneg (l : Nat) (s : State) : State := regStep 0x05 l (lanes1 negate32) s

def execVneg (l : Nat) (s : State) : Host.Outcome State Fault Refusal := .next (applyVneg l s)

/-- VABS (R194). -/
def applyVabs (l : Nat) (s : State) : State := regStep 0x06 l (lanes1 abs32) s

def execVabs (l : Nat) (s : State) : Host.Outcome State Fault Refusal := .next (applyVabs l s)

/-- VMAX (R214). -/
def applyVmax (l : Nat) (s : State) : State := regStep 0x10 l (lanes2 max32) s

def execVmax (l : Nat) (s : State) : Host.Outcome State Fault Refusal := .next (applyVmax l s)

/-- VMIN (R214). -/
def applyVmin (l : Nat) (s : State) : State := regStep 0x11 l (lanes2 min32) s

def execVmin (l : Nat) (s : State) : Host.Outcome State Fault Refusal := .next (applyVmin l s)

/-- The mask that a comparison gives: bits of lanes that MASKED leaves out keep their old value (R215). -/
def compareLanes (i : VInstr) (v : VecSt) : VecSt :=
  let old := v.mask i.d
  v.setM i.d (BitVec.ofNat 128 ((List.range 128).foldl (fun (m : Nat) n =>
    let bit := if v.lane i n then cmp32 (i.imm % 8) (v.at i.a n) (v.at i.b n) else old.getLsbD n
    if bit then m + 2 ^ n else m) 0))

/-- VCMP (Table 4.7). -/
def applyVcmp (l : Nat) (s : State) : State := regStep 0x12 l (compareLanes) s

def execVcmp (l : Nat) (s : State) : Host.Outcome State Fault Refusal := .next (applyVcmp l s)

/-- VSEL: A where the mask bit is 1, else B. -/
def applyVsel (l : Nat) (s : State) : State := regStep 0x13 l (fun i v => v.setV i ((List.range 128).map fun n =>
    if (v.mask i.mkr).getLsbD n then v.at i.a n else v.at i.b n)) s

def execVsel (l : Nat) (s : State) : Host.Outcome State Fault Refusal := .next (applyVsel l s)

/-! ### Convert and block -/

/-- The FP32 values of lanes converted to FMT and back (R208 to R211). -/
def convertLanes (i : VInstr) (v : VecSt) : VecSt :=
  let w := (List.range 128).map fun n => v.at i.a n
  v.setV i (if isBlockFmt i.fmt then
    (List.range 4).flatMap fun k =>
      let b := v.block i.fmt k w
      b.codes.map fun c => widen (elemValue (operandFmt i.fmt) b.scale c)
  else w.map fun x => widen (elemValue (operandFmt i.fmt) 0 (convert (vecFmt i.fmt) 0 (fp32 x)).code))

/-- VCVT. -/
def applyVcvt (l : Nat) (s : State) : State := regStep 0x20 l (convertLanes) s

def execVcvt (l : Nat) (s : State) : Host.Outcome State Fault Refusal := .next (applyVcvt l s)

/-- VAMAX: the largest finite magnitude of each block in its first lane. -/
def applyVamax (l : Nat) (s : State) : State := regStep 0x28 l (fun i v => v.setV i ((List.range 128).map fun n =>
    if n % 32 = 0 then amaxOf (((v.vreg i.a).drop n).take 32) else 0)) s

def execVamax (l : Nat) (s : State) : Host.Outcome State Fault Refusal := .next (applyVamax l s)

/-- VSCALE: the instruction names no block of the tensor, so whether one is listed is a free value (log 10). -/
def applyVscale (l : Nat) (s : State) : State :=
  vecStep 0x29 l (fun x s =>
    let v := s.vec x.c.phys
    let id := (v.sreg x.i.b).toNat % 65536
    let (st, s) := s.draw
    let codes := (List.range 4).map fun k =>
      let listed := (List.range 64).any (fun j => match s.watchAddr (s.numRecord id) with
        | some a => leNat (s.view (a + 0x180 + 4 * j) 4) != 0xFFFFFFFF
        | none => false) && (Config.freeWord st k).getLsbD 0
      BitVec.ofNat 8 (s.policyScale id (x.i.fmt == 3) ((v.vreg x.i.a).getD (32 * k) 0)
        (some (v.scales.getD k 0).toNat) listed)
    (s.setVec x.c.phys { v with scales := codes }).nextInstr x) s

def execVscale (l : Nat) (s : State) : Host.Outcome State Fault Refusal := .next (applyVscale l s)

/-! ### Reduce and SFU -/

/-- A reduction leaves its result in lane 0 and +0 elsewhere (R228). -/
def reduceLanes (op : Word → Word → Word) (i : VInstr) (v : VecSt) : VecSt :=
  v.setV i (laneTree op (v.vreg i.a) :: List.replicate 127 0)

/-- VRSUM. -/
def applyVrsum (l : Nat) (s : State) : State := regStep 0x30 l (reduceLanes addRne) s

def execVrsum (l : Nat) (s : State) : Host.Outcome State Fault Refusal := .next (applyVrsum l s)

/-- VRMAX (R216). -/
def applyVrmax (l : Nat) (s : State) : State := regStep 0x31 l (reduceLanes max32) s

def execVrmax (l : Nat) (s : State) : Host.Outcome State Fault Refusal := .next (applyVrmax l s)

/-- VRMIN (R216). -/
def applyVrmin (l : Nat) (s : State) : State := regStep 0x32 l (reduceLanes min32) s

def execVrmin (l : Nat) (s : State) : Host.Outcome State Fault Refusal := .next (applyVrmin l s)

/-- VEXP (R231). -/
def applyVexp (l : Nat) (s : State) : State := regStep 0x38 l (lanes1 sfuExp) s

def execVexp (l : Nat) (s : State) : Host.Outcome State Fault Refusal := .next (applyVexp l s)

/-- VLOG (R231). -/
def applyVlog (l : Nat) (s : State) : State := regStep 0x39 l (lanes1 sfuLog) s

def execVlog (l : Nat) (s : State) : Host.Outcome State Fault Refusal := .next (applyVlog l s)

/-- VRCP (R231). -/
def applyVrcp (l : Nat) (s : State) : State := regStep 0x3A l (lanes1 sfuRcp) s

def execVrcp (l : Nat) (s : State) : Host.Outcome State Fault Refusal := .next (applyVrcp l s)

/-- VRSQRT (R231). -/
def applyVrsqrt (l : Nat) (s : State) : State := regStep 0x3B l (lanes1 sfuRsqrt) s

def execVrsqrt (l : Nat) (s : State) : Host.Outcome State Fault Refusal := .next (applyVrsqrt l s)

/-- VSIN (R231). -/
def applyVsin (l : Nat) (s : State) : State := regStep 0x3C l (lanes1 sfuSin) s

def execVsin (l : Nat) (s : State) : Host.Outcome State Fault Refusal := .next (applyVsin l s)

/-- VCOS (R231). -/
def applyVcos (l : Nat) (s : State) : State := regStep 0x3D l (lanes1 sfuCos) s

def execVcos (l : Nat) (s : State) : Host.Outcome State Fault Refusal := .next (applyVcos l s)

/-! ### Data movement -/

/-- VPERM. -/
def applyVperm (l : Nat) (s : State) : State := regStep 0x40 l (fun i v =>
  v.setV i ((List.range 128).map fun n => v.at i.a ((v.at i.b n).toNat % 128))) s

def execVperm (l : Nat) (s : State) : Host.Outcome State Fault Refusal := .next (applyVperm l s)

/-- VBCAST. -/
def applyVbcast (l : Nat) (s : State) : State := regStep 0x41 l (fun i v => v.setV i (List.replicate 128 (v.at i.a (i.imm % 128)))) s

def execVbcast (l : Nat) (s : State) : Host.Outcome State Fault Refusal := .next (applyVbcast l s)

/-- VMOVS. -/
def applyVmovs (l : Nat) (s : State) : State := regStep 0x42 l (fun i v => v.setV i (List.replicate 128 ((v.sreg i.a).setWidth 32))) s

def execVmovs (l : Nat) (s : State) : Host.Outcome State Fault Refusal := .next (applyVmovs l s)

/-- Address and bytes of the element that lane `n` of a gather reads; ZF4 elements share a byte. -/
def gatherAt (v : VecSt) (i : VInstr) (n : Nat) : Nat × Nat :=
  let j := ((v.vreg i.b).getD n 0).toNat
  let base := (v.sreg i.a).toNat
  if i.fmt = 4 then ((base + j / 2) % 18446744073709551616, 1)
  else
    let size := if i.fmt = 0 then 4 else if i.fmt = 3 then 1 else 2
    ((base + j * size) % 18446744073709551616, size)

/-- VGATH: lanes that the mask leaves out read nothing. -/
def applyVgath (l : Nat) (s : State) : State :=
  vecStep 0x43 l (fun x s =>
    let v := s.vec x.c.phys
    let ok := (List.range 128).all fun n => !v.lane x.i n ||
      !loadForbidden (gatherAt v x.i n).1 (gatherAt v x.i n).2
    if ok then
      let w := (List.range 128).map fun n =>
        let at_ := gatherAt v x.i n
        let b := s.coreRead x.r.core at_.1 at_.2
        let odd := ((v.vreg x.i.b).getD n 0).toNat % 2
        laneOf x.i.fmt (v.scaleOf n) (rowCode (operandFmt x.i.fmt) b (if x.i.fmt = 4 then odd else 0))
      (s.setVec x.c.phys (v.setV x.i w)).nextInstr x
    else s.progFault x.c) s

def execVgath (l : Nat) (s : State) : Host.Outcome State Fault Refusal := .next (applyVgath l s)

/-- VLD: for ZF8 and ZF4 the four scales at scalar B are loaded first. -/
def applyVld (l : Nat) (s : State) : State :=
  vecStep 0x48 l (fun x s =>
    let v := s.vec x.c.phys
    let a := vecAddr (v.sreg x.i.a) x.i.simm
    let scales := if isBlockFmt x.i.fmt then s.vecRead x (v.sreg x.i.b).toNat 4 else some (v.scales, s)
    match scales with
    | none => s.progFault x.c
    | some (sc, s) =>
      match s.vecRead x a (elemBytes (operandFmt x.i.fmt) 128) with
      | none => s.progFault x.c
      | some (row, s) =>
        let v := { v with scales := sc }
        (s.setVec x.c.phys (v.setV x.i (widenRow v x.i.fmt row))).nextInstr x) s

def execVld (l : Nat) (s : State) : Host.Outcome State Fault Refusal := .next (applyVld l s)

/-- VST: converts, writes the elements and, for ZF8 and ZF4, the scales, and feeds the watch. -/
def applyVst (l : Nat) (s : State) : State :=
  vecStep 0x49 l (fun x s =>
    let v := s.vec x.c.phys
    let w := v.vreg x.i.a
    let f := x.i.fmt
    let a := vecAddr (v.sreg x.i.b) x.i.simm
    let sa := (v.sreg x.i.c).toNat
    let bs := if isBlockFmt f then (List.range 4).map fun k => v.block f k w else []
    let codes := if isBlockFmt f then bs.flatMap (·.codes) else w.map fun y => (convert (vecFmt f) 0 (fp32 y)).code
    let convs := if isBlockFmt f then bs.flatMap (·.convs) else w.map fun y => convert (vecFmt f) 0 (fp32 y)
    let new := packCodes (vecFmt f) codes
    if s.vecCanWrite x a new.length && (!isBlockFmt f || s.vecCanWrite x sa 4) then
      let old := if x.i.masked then (match s.vecRead x a new.length with
        | some (b, _) => b
        | none => new) else new
      let idx := s.flatIndex a f
      let dl := (elemsDelta x.r.opCode x.r.core (vecElems v x.i idx w convs)).merge (ovfDelta (vecOvf v x.i (idx / 32) bs))
      let s := s.vecWrite x a (mergeMasked v x.i new old)
      let s := if isBlockFmt f then s.vecWrite x sa (bs.map fun b => BitVec.ofNat 8 b.scale) else s
      (s.feed (x.r.core / 32) (some x.r.beat) ((v.sreg x.i.d).toNat % 65536) dl).nextInstr x
    else s.progFault x.c) s

def execVst (l : Nat) (s : State) : Host.Outcome State Fault Refusal := .next (applyVst l s)

/-- VQPOP: waits while the queue holds fewer than 128 values (R177). -/
def applyVqpop (l : Nat) (s : State) : State :=
  vecStep 0x4A l (fun x s =>
    let v := s.vec x.c.phys
    if v.queue.length < 128 then s
    else
      (s.setVec x.c.phys { v.setV x.i (v.queue.take 128) with queue := v.queue.drop 128 }).nextInstr x) s

def execVqpop (l : Nat) (s : State) : Host.Outcome State Fault Refusal := .next (applyVqpop l s)

/-- VWGA: 128 elements of a tile's committed bank; held until the verdict of the previous beat (R171, R172). -/
def applyVwga (l : Nat) (s : State) : State :=
  vecStep 0x4B l (fun x s =>
    if s.wgaHolds x.r.beat then s.holdWga x.c x.r.core
    else
      let v := s.vec x.c.phys
      let t := (v.sreg x.i.a).toNat % 256
      let w := (List.range 128).map fun n => s.wgaCommitted x.r.core t (x.i.imm % 4096 + n)
      (s.setVec x.c.phys (v.setV x.i w)).nextInstr x) s

def execVwga (l : Nat) (s : State) : Host.Outcome State Fault Refusal := .next (applyVwga l s)

/-! ### Scalar unit -/

/-- SLI. -/
def applySli (l : Nat) (s : State) : State := regStep 0x80 l (fun i v => v.setS i.d (BitVec.ofInt 64 i.simm)) s

def execSli (l : Nat) (s : State) : Host.Outcome State Fault Refusal := .next (applySli l s)

/-- SLUI: bits [47:24] only. -/
def applySlui (l : Nat) (s : State) : State := regStep 0x81 l (fun i v => v.setS i.d (BitVec.ofNat 64
    ((v.sreg i.d).toNat - (v.sreg i.d).toNat / 2 ^ 24 % 2 ^ 24 * 2 ^ 24 + i.imm * 2 ^ 24))) s

def execSlui (l : Nat) (s : State) : Host.Outcome State Fault Refusal := .next (applySlui l s)

/-- SADD. -/
def applySadd (l : Nat) (s : State) : State := regStep 0x82 l (scalar2 (· + ·)) s

def execSadd (l : Nat) (s : State) : Host.Outcome State Fault Refusal := .next (applySadd l s)

/-- SADDI. -/
def applySaddi (l : Nat) (s : State) : State := regStep 0x83 l (fun i v => v.setS i.d (v.sreg i.a + BitVec.ofInt 64 i.simm)) s

def execSaddi (l : Nat) (s : State) : Host.Outcome State Fault Refusal := .next (applySaddi l s)

/-- SSUB. -/
def applySsub (l : Nat) (s : State) : State := regStep 0x84 l (scalar2 (· - ·)) s

def execSsub (l : Nat) (s : State) : Host.Outcome State Fault Refusal := .next (applySsub l s)

/-- SMUL. -/
def applySmul (l : Nat) (s : State) : State := regStep 0x85 l (scalar2 (· * ·)) s

def execSmul (l : Nat) (s : State) : Host.Outcome State Fault Refusal := .next (applySmul l s)

/-- SAND. -/
def applySand (l : Nat) (s : State) : State := regStep 0x86 l (scalar2 (· &&& ·)) s

def execSand (l : Nat) (s : State) : Host.Outcome State Fault Refusal := .next (applySand l s)

/-- SOR. -/
def applySor (l : Nat) (s : State) : State := regStep 0x87 l (scalar2 (· ||| ·)) s

def execSor (l : Nat) (s : State) : Host.Outcome State Fault Refusal := .next (applySor l s)

/-- SXOR. -/
def applySxor (l : Nat) (s : State) : State := regStep 0x88 l (scalar2 (· ^^^ ·)) s

def execSxor (l : Nat) (s : State) : Host.Outcome State Fault Refusal := .next (applySxor l s)

/-- SSHL by IMM[5:0]. -/
def applySshl (l : Nat) (s : State) : State := regStep 0x89 l (fun i v => v.setS i.d (v.sreg i.a <<< (i.imm % 64))) s

def execSshl (l : Nat) (s : State) : Host.Outcome State Fault Refusal := .next (applySshl l s)

/-- SSHR by IMM[5:0], logical. -/
def applySshr (l : Nat) (s : State) : State := regStep 0x8A l (fun i v => v.setS i.d (v.sreg i.a >>> (i.imm % 64))) s

def execSshr (l : Nat) (s : State) : Host.Outcome State Fault Refusal := .next (applySshr l s)

/-- SLD. -/
def applySld (l : Nat) (s : State) : State :=
  vecStep 0x8B l (fun x s =>
    let v := s.vec x.c.phys
    match s.vecRead x (vecAddr (v.sreg x.i.a) x.i.simm) 8 with
    | none => s.progFault x.c
    | some (b, s) => (s.setVec x.c.phys (v.setS x.i.d (BitVec.ofNat 64 (leNat b)))).nextInstr x) s

def execSld (l : Nat) (s : State) : Host.Outcome State Fault Refusal := .next (applySld l s)

/-- SST. -/
def applySst (l : Nat) (s : State) : State :=
  vecStep 0x8C l (fun x s =>
    let v := s.vec x.c.phys
    let a := vecAddr (v.sreg x.i.a) x.i.simm
    if s.vecCanWrite x a 8 then (s.vecWrite x a (leBytes 8 (v.sreg x.i.b).toNat)).nextInstr x else s.progFault x.c) s

def execSst (l : Nat) (s : State) : Host.Outcome State Fault Refusal := .next (applySst l s)

/-- VEXT. -/
def applyVext (l : Nat) (s : State) : State := regStep 0x8D l (fun i v => v.setS i.d ((v.at i.a (i.imm % 128)).setWidth 64)) s

def execVext (l : Nat) (s : State) : Host.Outcome State Fault Refusal := .next (applyVext l s)

/-! ### Branches, synchronisation, end -/

/-- Branch to this instruction + 8 × sext(IMM) when the condition holds. -/
def State.branch (s : State) (x : VecCtx) (taken : Bool) : State :=
  if taken then s.jump x (x.r.ptr + 8 * x.i.simm) else s.nextInstr x

/-- BR. -/
def applyBr (l : Nat) (s : State) : State :=
  vecStep 0x90 l (fun x s =>
    s.branch x true) s

def execBr (l : Nat) (s : State) : Host.Outcome State Fault Refusal := .next (applyBr l s)

/-- BEQZ. -/
def applyBeqz (l : Nat) (s : State) : State :=
  vecStep 0x91 l (fun x s =>
    s.branch x ((s.vec x.c.phys).sreg x.i.a == 0)) s

def execBeqz (l : Nat) (s : State) : Host.Outcome State Fault Refusal := .next (applyBeqz l s)

/-- BNEZ. -/
def applyBnez (l : Nat) (s : State) : State :=
  vecStep 0x92 l (fun x s =>
    s.branch x ((s.vec x.c.phys).sreg x.i.a != 0)) s

def execBnez (l : Nat) (s : State) : Host.Outcome State Fault Refusal := .next (applyBnez l s)

/-- BLT, signed. -/
def applyBlt (l : Nat) (s : State) : State :=
  vecStep 0x93 l (fun x s =>
    s.branch x (((s.vec x.c.phys).sreg x.i.a).slt ((s.vec x.c.phys).sreg x.i.b))) s

def execBlt (l : Nat) (s : State) : Host.Outcome State Fault Refusal := .next (applyBlt l s)

/-- LOOP: decrement, then branch while the result is not 0. -/
def applyLoop (l : Nat) (s : State) : State :=
  vecStep 0x94 l (fun x s =>
    let v := s.vec x.c.phys
    let n := v.sreg x.i.a - 1
    (s.setVec x.c.phys (v.setS x.i.a n)).branch x (n != 0)) s

def execLoop (l : Nat) (s : State) : Host.Outcome State Fault Refusal := .next (applyLoop l s)

/-- WAIT on counter IMM[4:0] of the own core (R136). -/
def applyWait (l : Nat) (s : State) : State :=
  vecStep 0x98 l (fun x s =>
    match s.tryWait x.u x.r (x.i.imm % 32) with
    | none => s.standWait x.u x.r (x.i.imm % 32)
    | some (s, r) => s.nextInstr { x with r := r }) s

def execWait (l : Nat) (s : State) : Host.Outcome State Fault Refusal := .next (applyWait l s)

/-- SIGNAL to counter IMM[4:0] of logical core IMM[10:5] (R136). -/
def applySignal (l : Nat) (s : State) : State :=
  vecStep 0x99 l (fun x s =>
    (s.sendSignal x.c x.r.core (x.i.imm / 32 % 64) (x.i.imm % 32)).nextInstr x) s

def execSignal (l : Nat) (s : State) : Host.Outcome State Fault Refusal := .next (applySignal l s)

/-- END: the slot has completed its routine. -/
def applyEndRoutine (l : Nat) (s : State) : State :=
  vecStep 0x9F l (fun x s =>
    s.endRunOf x.u x.r) s

def execEndRoutine (l : Nat) (s : State) : Host.Outcome State Fault Refusal := .next (applyEndRoutine l s)

end Sys2Proof.Machine
end

