-- ==== Sys2Proof/Machine/Dispatch.lean ====
section
/-! DEFINITION. One arm for each command of the opcode table: a call of its meaning. -/

namespace Sys2Proof.Machine

open Sys2Proof

def exec (i : Instr) (s : State) : Host.Outcome State Fault Refusal :=
  match i with
  | .registerWrite r off v => Sys2Proof.Machine.execRegisterWrite r off v s
  | .rcRead r off => Sys2Proof.Machine.execRcRead r off s
  | .loRead r off two => Sys2Proof.Machine.execLoRead r off two s
  | .bar0UnsupportedRequest r off isWrite => Sys2Proof.Machine.execBar0UnsupportedRequest r off isWrite s
  | .bar2Access p src x => Sys2Proof.Machine.execBar2Access p src x s
  | .cxlMemAccess p x => Sys2Proof.Machine.execCxlMemAccess p x s
  | .load slot => Sys2Proof.Machine.execLoad slot s
  | .verifyDone slot => Sys2Proof.Machine.execVerifyDone slot s
  | .evict slot => Sys2Proof.Machine.execEvict slot s
  | .start slot t => Sys2Proof.Machine.execStart slot t s
  | .stop => Sys2Proof.Machine.execStop s
  | .marginRst => Sys2Proof.Machine.execMarginRst s
  | .mailboxAddrValid pair v => Sys2Proof.Machine.execMailboxAddrValid pair v s
  | .rdcEn hub en => Sys2Proof.Machine.execRdcEn hub en s
  | .invAll hub => Sys2Proof.Machine.execInvAll hub s
  | .chunkRst pile => Sys2Proof.Machine.execChunkRst pile s
  | .cacheClr => Sys2Proof.Machine.execCacheClr s
  | .train q => Sys2Proof.Machine.execTrain q s
  | .marginNow q margins => Sys2Proof.Machine.execMarginNow q margins s
  | .retire coord => Sys2Proof.Machine.execRetire coord s
  | .ctrl via target => Sys2Proof.Machine.execCtrl via target s
  | .biasApply => Sys2Proof.Machine.execBiasApply s
  | .biasFlipComplete page => Sys2Proof.Machine.execBiasFlipComplete page s
  | .holdReq => Sys2Proof.Machine.execHoldReq s
  | .pwrCapWrite r v => Sys2Proof.Machine.execPwrCapWrite r v s
  | .devReset v flushed => Sys2Proof.Machine.execDevReset v flushed s
  | .testCtlWrite v => Sys2Proof.Machine.execTestCtlWrite v s
  | .getNonce => Sys2Proof.Machine.execGetNonce s
  | .signedRequest => Sys2Proof.Machine.execSignedRequest s
  | .provisionKey => Sys2Proof.Machine.execProvisionKey s
  | .revokeKey => Sys2Proof.Machine.execRevokeKey s
  | .advanceFing => Sys2Proof.Machine.execAdvanceFing s
  | .blockVendorDebug => Sys2Proof.Machine.execBlockVendorDebug s
  | .debugL1 => Sys2Proof.Machine.execDebugL1 s
  | .debugL2 => Sys2Proof.Machine.execDebugL2 s
  | .debugLock => Sys2Proof.Machine.execDebugLock s
  | .fwUpdate => Sys2Proof.Machine.execFwUpdate s
  | .mailboxRead t => Sys2Proof.Machine.execMailboxRead t s
  | .mailboxReadComplete page => Sys2Proof.Machine.execMailboxReadComplete page s
  | .nop => Sys2Proof.Machine.execNop s
  | .switch => Sys2Proof.Machine.execSwitch s
  | .mailboxStop => Sys2Proof.Machine.execMailboxStop s
  | .args => Sys2Proof.Machine.execArgs s
  | .marker t => Sys2Proof.Machine.execMarker t s
  | .gapStart t => Sys2Proof.Machine.execGapStart t s
  | .gapEntry t => Sys2Proof.Machine.execGapEntry t s
  | .beatReport t => Sys2Proof.Machine.execBeatReport t s
  | .verdict x t => Sys2Proof.Machine.execVerdict x t s
  | .commit t => Sys2Proof.Machine.execCommit t s
  | .commitSkip t => Sys2Proof.Machine.execCommitSkip t s
  | .replay t => Sys2Proof.Machine.execReplay t s
  | .verdictLate t => Sys2Proof.Machine.execVerdictLate t s
  | .masterLost t => Sys2Proof.Machine.execMasterLost t s
  | .backupAssumesMastership t => Sys2Proof.Machine.execBackupAssumesMastership t s
  | .slotStart u t => Sys2Proof.Machine.execSlotStart u t s
  | .slotEnd u t errs => Sys2Proof.Machine.execSlotEnd u t errs s
  | .slotHung u t => Sys2Proof.Machine.execSlotHung u t s
  | .markerIssue t => Sys2Proof.Machine.execMarkerIssue t s
  | .report x t => Sys2Proof.Machine.execReport x t s
  | .memberLostTimeout member t => Sys2Proof.Machine.execMemberLostTimeout member t s
  | .join x t => Sys2Proof.Machine.execJoin x t s
  | .joinTimeout t => Sys2Proof.Machine.execJoinTimeout t s
  | .sync t => Sys2Proof.Machine.execSync t s
  | .beatInEdge t => Sys2Proof.Machine.execBeatInEdge t s
  | .syncResult x t => Sys2Proof.Machine.execSyncResult x t s
  | .standaloneFirstMarker t => Sys2Proof.Machine.execStandaloneFirstMarker t s
  | .admitDevice x t => Sys2Proof.Machine.execAdmitDevice x t s
  | .ready x t => Sys2Proof.Machine.execReady x t s
  | .resume t => Sys2Proof.Machine.execResume t s
  | .dataFrame q f => Sys2Proof.Machine.execDataFrame q f s
  | .reduceFrame q f => Sys2Proof.Machine.execReduceFrame q f s
  | .ack q f => Sys2Proof.Machine.execAck q f s
  | .nak q f => Sys2Proof.Machine.execNak q f s
  | .credit q f => Sys2Proof.Machine.execCredit q f s
  | .ident q f => Sys2Proof.Machine.execIdent q f s
  | .probe x roundTrip => Sys2Proof.Machine.execProbe x roundTrip s
  | .idleTimer q => Sys2Proof.Machine.execIdleTimer q s
  | .ackTimer q => Sys2Proof.Machine.execAckTimer q s
  | .creditReturn q => Sys2Proof.Machine.execCreditReturn q s
  | .linkTrainingDone q r => Sys2Proof.Machine.execLinkTrainingDone q r s
  | .latencyRemeasure q roundTrips => Sys2Proof.Machine.execLatencyRemeasure q roundTrips s
  | .laneMarginMeasure q lane margin => Sys2Proof.Machine.execLaneMarginMeasure q lane margin s
  | .laneDrop q lane => Sys2Proof.Machine.execLaneDrop q lane s
  | .portDown q cause => Sys2Proof.Machine.execPortDown q cause s
  | .partnerLost t => Sys2Proof.Machine.execPartnerLost t s
  | .send q => Sys2Proof.Machine.execSend q s
  | .mcast q => Sys2Proof.Machine.execMcast q s
  | .reduce q => Sys2Proof.Machine.execReduce q s
  | .plain x => Sys2Proof.Machine.execPlain x s
  | .stageM x => Sys2Proof.Machine.execStageM x s
  | .stageW x => Sys2Proof.Machine.execStageW x s
  | .fence x => Sys2Proof.Machine.execFence x s
  | .copy x => Sys2Proof.Machine.execCopy x s
  | .updateOp n t errs => Sys2Proof.Machine.execUpdateOp n t errs s
  | .stageMAck n x => Sys2Proof.Machine.execStageMAck n x s
  | .updSelftestDone n pass => Sys2Proof.Machine.execUpdSelftestDone n pass s
  | .scheduleSlot t => Sys2Proof.Machine.execScheduleSlot t s
  | .move m superData => Sys2Proof.Machine.execMove m superData s
  | .fetch m superData => Sys2Proof.Machine.execFetch m superData s
  | .holdSpaceFreed pile => Sys2Proof.Machine.execHoldSpaceFreed pile s
  | .homingComplete tensor data => Sys2Proof.Machine.execHomingComplete tensor data s
  | .h2d e => Sys2Proof.Machine.execH2d e s
  | .d2h e => Sys2Proof.Machine.execD2h e s
  | .notify e => Sys2Proof.Machine.execNotify e s
  | .readCompletion e c => Sys2Proof.Machine.execReadCompletion e c s
  | .flushingReadComplete run => Sys2Proof.Machine.execFlushingReadComplete run s
  | .completionTimeout e => Sys2Proof.Machine.execCompletionTimeout e s
  | .endOfSequence l arr => Sys2Proof.Machine.execEndOfSequence l arr s
  | .real l arr errs => Sys2Proof.Machine.execReal l arr errs s
  | .complex l arr errs => Sys2Proof.Machine.execComplex l arr errs s
  | .fp32x6 l arr errs => Sys2Proof.Machine.execFp32x6 l arr errs s
  | .vadd l => Sys2Proof.Machine.execVadd l s
  | .vsub l => Sys2Proof.Machine.execVsub l s
  | .vmul l => Sys2Proof.Machine.execVmul l s
  | .vfma l => Sys2Proof.Machine.execVfma l s
  | .vneg l => Sys2Proof.Machine.execVneg l s
  | .vabs l => Sys2Proof.Machine.execVabs l s
  | .vmax l => Sys2Proof.Machine.execVmax l s
  | .vmin l => Sys2Proof.Machine.execVmin l s
  | .vcmp l => Sys2Proof.Machine.execVcmp l s
  | .vsel l => Sys2Proof.Machine.execVsel l s
  | .vcvt l => Sys2Proof.Machine.execVcvt l s
  | .vamax l => Sys2Proof.Machine.execVamax l s
  | .vscale l => Sys2Proof.Machine.execVscale l s
  | .vrsum l => Sys2Proof.Machine.execVrsum l s
  | .vrmax l => Sys2Proof.Machine.execVrmax l s
  | .vrmin l => Sys2Proof.Machine.execVrmin l s
  | .vexp l => Sys2Proof.Machine.execVexp l s
  | .vlog l => Sys2Proof.Machine.execVlog l s
  | .vrcp l => Sys2Proof.Machine.execVrcp l s
  | .vrsqrt l => Sys2Proof.Machine.execVrsqrt l s
  | .vsin l => Sys2Proof.Machine.execVsin l s
  | .vcos l => Sys2Proof.Machine.execVcos l s
  | .vperm l => Sys2Proof.Machine.execVperm l s
  | .vbcast l => Sys2Proof.Machine.execVbcast l s
  | .vmovs l => Sys2Proof.Machine.execVmovs l s
  | .vgath l => Sys2Proof.Machine.execVgath l s
  | .vld l => Sys2Proof.Machine.execVld l s
  | .vst l => Sys2Proof.Machine.execVst l s
  | .vqpop l => Sys2Proof.Machine.execVqpop l s
  | .vwga l => Sys2Proof.Machine.execVwga l s
  | .sli l => Sys2Proof.Machine.execSli l s
  | .slui l => Sys2Proof.Machine.execSlui l s
  | .sadd l => Sys2Proof.Machine.execSadd l s
  | .saddi l => Sys2Proof.Machine.execSaddi l s
  | .ssub l => Sys2Proof.Machine.execSsub l s
  | .smul l => Sys2Proof.Machine.execSmul l s
  | .sand l => Sys2Proof.Machine.execSand l s
  | .sor l => Sys2Proof.Machine.execSor l s
  | .sxor l => Sys2Proof.Machine.execSxor l s
  | .sshl l => Sys2Proof.Machine.execSshl l s
  | .sshr l => Sys2Proof.Machine.execSshr l s
  | .sld l => Sys2Proof.Machine.execSld l s
  | .sst l => Sys2Proof.Machine.execSst l s
  | .vext l => Sys2Proof.Machine.execVext l s
  | .br l => Sys2Proof.Machine.execBr l s
  | .beqz l => Sys2Proof.Machine.execBeqz l s
  | .bnez l => Sys2Proof.Machine.execBnez l s
  | .blt l => Sys2Proof.Machine.execBlt l s
  | .loop l => Sys2Proof.Machine.execLoop l s
  | .wait l => Sys2Proof.Machine.execWait l s
  | .signal l => Sys2Proof.Machine.execSignal l s
  | .endRoutine l => Sys2Proof.Machine.execEndRoutine l s
  | .signalArrival src dst counter => Sys2Proof.Machine.execSignalArrival src dst counter s
  | .waitSatisfied u => Sys2Proof.Machine.execWaitSatisfied u s
  | .sampleRecord f q smp => Sys2Proof.Machine.execSampleRecord f q smp s
  | .jpegDecode f x => Sys2Proof.Machine.execJpegDecode f x s
  | .tokenize f x => Sys2Proof.Machine.execTokenize f x s
  | .batchOp f => Sys2Proof.Machine.execBatchOp f s
  | .plannedBurst x => Sys2Proof.Machine.execPlannedBurst x s
  | .refreshInterval pile => Sys2Proof.Machine.execRefreshInterval pile s
  | .patrolScrub pile cw errs interfaceOk => Sys2Proof.Machine.execPatrolScrub pile cw errs interfaceOk s
  | .edramWriteBack pile line => Sys2Proof.Machine.execEdramWriteBack pile line s
  | .flitCrcFail hub module nth => Sys2Proof.Machine.execFlitCrcFail hub module nth s
  | .moduleRetrainDone hub module failed => Sys2Proof.Machine.execModuleRetrainDone hub module failed s
  | .moduleRetrainTimeout hub module => Sys2Proof.Machine.execModuleRetrainTimeout hub module s
  | .parameterBlock hub module die b => Sys2Proof.Machine.execParameterBlock hub module die b s
  | .parameterBlockTimeout hub die => Sys2Proof.Machine.execParameterBlockTimeout hub die s
  | .remoteRead l addr len errs => Sys2Proof.Machine.execRemoteRead l addr len errs s
  | .powerSample p => Sys2Proof.Machine.execPowerSample p s
  | .powerStepUpdate belowFor1ms => Sys2Proof.Machine.execPowerStepUpdate belowFor1ms s
  | .thermalRead temps => Sys2Proof.Machine.execThermalRead temps s
  | .thermalStepTick die => Sys2Proof.Machine.execThermalStepTick die s
  | .wakeStart u t => Sys2Proof.Machine.execWakeStart u t s
  | .unplannedWake u t => Sys2Proof.Machine.execUnplannedWake u t s
  | .autoHold => Sys2Proof.Machine.execAutoHold s
  | .holdExit => Sys2Proof.Machine.execHoldExit s
  | .dStateChange p d3hot => Sys2Proof.Machine.execDStateChange p d3hot s
  | .crossingTimeout domain reader => Sys2Proof.Machine.execCrossingTimeout domain reader s
  | .pllUnlock domain => Sys2Proof.Machine.execPllUnlock domain s
  | .pllRelock domain => Sys2Proof.Machine.execPllRelock domain s
  | .pllRelockTimeout domain => Sys2Proof.Machine.execPllRelockTimeout domain s
  | .powerOkAssert pkg => Sys2Proof.Machine.execPowerOkAssert pkg s
  | .powerOkDeassert => Sys2Proof.Machine.execPowerOkDeassert s
  | .startupStepTimeout stepNo => Sys2Proof.Machine.execStartupStepTimeout stepNo s
  | .portReset p kind flushed => Sys2Proof.Machine.execPortReset p kind flushed s
  | .pcieLinkUp p link => Sys2Proof.Machine.execPcieLinkUp p link s
  | .linkRecovery p => Sys2Proof.Machine.execLinkRecovery p s
  | .cxlCacheTimeout hub => Sys2Proof.Machine.execCxlCacheTimeout hub s
  | .watchdog flushed => Sys2Proof.Machine.execWatchdog flushed s
  | .getCertificate ep off len => Sys2Proof.Machine.execGetCertificate ep off len s
  | .challenge ep nonce => Sys2Proof.Machine.execChallenge ep nonce s
  | .getMeasurements ep index signed nonce => Sys2Proof.Machine.execGetMeasurements ep index signed nonce s
  | .readTelemetry ep => Sys2Proof.Machine.execReadTelemetry ep s
  | .setCap ep w => Sys2Proof.Machine.execSetCap ep w s
  | .getCap ep => Sys2Proof.Machine.execGetCap ep s
  | .coverDue die => Sys2Proof.Machine.execCoverDue die s
  | .coreSelfTestDone p x => Sys2Proof.Machine.execCoreSelfTestDone p x s
  | .controlMessageReceipt q f residence t => Sys2Proof.Machine.execControlMessageReceipt q f residence t s
  | .masterAndBackupLost t => Sys2Proof.Machine.execMasterAndBackupLost t s
  | .copyRequest q f => Sys2Proof.Machine.execCopyRequest q f s
  | .eszCmdDone => Sys2Proof.Machine.execEszCmdDone s
  | .tapAccess op => Sys2Proof.Machine.execTapAccess op s
  | .negotiateAlgorithms ep => Sys2Proof.Machine.execNegotiateAlgorithms ep s
  | .dynamicAddress addr => Sys2Proof.Machine.execDynamicAddress addr s

end Sys2Proof.Machine
end

