-- ==== Sys2Proof/Safety.lean ====
section
/-! DEFINITION. What counts as a safe run, in the terms that claims use: what a command leaves alone, the canonical form of the
memories, and the fuses, which only blow. -/

namespace Sys2Proof.Machine

open Sys2Proof

/-! ### Frames -/

/-- The cell that a location names: its memory and the key in it. -/
def cellOf : Loc → Nat × Nat
  | .dram n off => (0, (Loc.dram n off).key)
  | .comb d off => (1, (Loc.comb d off).key)
  | .sram p off => (2, (Loc.sram p off).key)
  | .super off => (3, off)

/-- Every byte of device memory outside the listed places reads as before. -/
def memoryKeptBut (ls : List Loc) (s t : State) : Prop := ∀ l : Loc, cellOf l ∉ ls.map cellOf → t.peek l = s.peek l

/-- Every byte of device memory reads as before. -/
def memoryKept (s t : State) : Prop := ∀ l : Loc, t.peek l = s.peek l

/-- Every register outside the listed ones reads as before; an offset stands for all offsets of its register (R619). -/
def regsKeptBut (offs : List Nat) (s t : State) : Prop :=
  ∀ o, regHome o ∉ offs.map regHome → t.reg o = s.reg o

/-- Only the listed registers can have changed; every other part of the machine is the same. -/
def onlyRegs (offs : List Nat) (s t : State) : Prop := t = { s with regs := t.regs } ∧ regsKeptBut offs s t

/-- Registers whose plain write does more than the access types of Table 0.8 say. -/
def sideEffectRegs : List Nat :=
  [Reg.ferrCode, Reg.bar2BaseA, Reg.bar2BaseB, Reg.mailboxAddrLo, Reg.reportAddrLo, Reg.bMailboxAddrLo, Reg.bReportAddrLo,
    Reg.eszCmd, Reg.pwrCapMgmt, Reg.fingCtl]

/-- Registers whose value a read computes (R622, Tables 6.14, 9.22 and 11.14), UPD_STATUS of the piles apart. -/
def computedRegs : List Nat := [Reg.errSummary, Reg.portStatusA, Reg.portStatusB, Reg.forgQueue 0, Reg.forgQueue 1]

/-! ### What logging an event does (R498, R550 to R554) -/

/-- Registers that logging an event can write: the error log, its counters and capture, and the MSI-X pending bits. -/
def logReg (o : Nat) : Bool :=
  (decide (0x3C00000 ≤ o) && decide (o < 0x3C00018)) || (decide (0x3C00024 ≤ o) && decide (o < 0x3C00058))
    || (decide (0x3C01000 ≤ o) && decide (o < 0x3C02000)) || (decide (0x210800 ≤ o) && decide (o < 0x210810))
    || (decide (0x211800 ≤ o) && decide (o < 0x211810))

/-- Everything but the error log, MSI-X and the listed registers is the same. -/
def onlyLog (offs : List Nat) (s t : State) : Prop :=
  t = { s with regs := t.regs, out := t.out, beat := { s.beat with onceMsix := t.beat.onceMsix } } ∧
    (∀ o, logReg (regHome o) = false → regHome o ∉ offs.map regHome → t.reg o = s.reg o) ∧
    ∃ ms, t.out = s.out ++ ms ∧ ∀ m ∈ ms, ∃ p v, m = Out.msix p v

/-- From `s` to `t` one event has been logged, and nothing else has happened: the ring entry at HEAD, the class and subsystem
bits, the saturating class counter and the first-error capture follow R550 to R554. -/
structure Logged (e : Ev) (s t : State) : Prop where
  frame : onlyLog [] s t
  head : t.reg Reg.errLogHead = s.reg Reg.errLogHead + 1
  code : t.reg (Reg.errLog ((s.reg Reg.errLogHead).toNat % 256) 0) = BitVec.ofNat 32 (e.code % 65536 + 65536 * (e.cls % 8))
  unit : t.reg (Reg.errLog ((s.reg Reg.errLogHead).toNat % 256) 1) = unitWord e.unit
  beat : t.reg (Reg.errLog ((s.reg Reg.errLogHead).toNat % 256) 2) = s.reg Reg.beatCountLo
  info : t.reg (Reg.errLog ((s.reg Reg.errLogHead).toNat % 256) 3) = e.word0
  older : ∀ i w, i < 256 → w < 4 → i ≠ (s.reg Reg.errLogHead).toNat % 256 → t.reg (Reg.errLog i w) = s.reg (Reg.errLog i w)
  sticky : t.bit Reg.errStickyClass (if e.cls = 7 then 8 else e.cls) = true
  count : (t.reg (classCounter e.cls)).toNat = min ((s.reg (classCounter e.cls)).toNat + 1) (2 ^ 32 - 1)
  captured : e.cls ≠ 0 → s.bit Reg.ferrCode 31 = false →
    t.fld Reg.ferrCode 15 0 = e.code % 65536 ∧ t.fld Reg.ferrCode 18 16 = e.cls % 8 ∧ t.bit Reg.ferrCode 31 = true ∧
      t.reg Reg.ferrUnit = unitWord e.unit ∧ t.reg Reg.ferrInfo0 = e.word0 ∧ t.reg Reg.ferrInfo1 = BitVec.ofNat 32 e.info1

/-- The agent that a BAR2 access acts as. -/
def busAgent : BusSource → HPort → Agent
  | .host, p => .host p
  | .peer, p => .peer p

/-! ### Invariants -/

/-- The three memories are in canonical form: keys rising, no entry that reads as an unlisted byte. -/
def State.memoryOk (s : State) : Bool := s.dram.wf && s.comb.wf && s.sram.wf

/-- From `s` to `t` the fuses have only blown: no rollback counter has fallen, no revocation and no block has been taken back,
and no programmed key entry has changed (R568, R581). -/
def fusesKept (s t : State) : Prop :=
  s.esz.rbEsz ≤ t.esz.rbEsz ∧ s.esz.rbHub ≤ t.esz.rbHub ∧ s.esz.rbFing ≤ t.esz.rbFing ∧
    (∀ e ∈ s.esz.revoked, e ∈ t.esz.revoked) ∧ (s.esz.vendorDebugBlocked = true → t.esz.vendorDebugBlocked = true) ∧
    (∀ (i : Nat) (h : Bytes), s.esz.keyHash.getD i none = some h → t.esz.keyHash.getD i none = some h)

/-! ### Parts of the machine -/

/-- The parts of a state that a command may or may not change: the clock, the registers, the HI latches, device memory, the two
fingering slots, and the state of each chapter's own machinery. -/
inductive StatePart where
  | now | regs | latches | memory | slots | beat | units | cores | watch | upd | tier | forager | mods | ports | casc | host
  | power | test | esz | pkg
deriving DecidableEq, Repr

/-- A part is the same in two states. -/
def samePart (p : StatePart) (s t : State) : Prop :=
  match p with
  | .now => t.now = s.now
  | .regs => t.regs = s.regs
  | .latches => t.latches = s.latches
  | .memory => (t.dram, t.comb, t.sram) = (s.dram, s.comb, s.sram)
  | .slots => (t.slotA, t.slotB) = (s.slotA, s.slotB)
  | .beat => t.beat = s.beat
  | .units => t.units = s.units
  | .cores => t.cores = s.cores
  | .watch => t.watch = s.watch
  | .upd => t.upd = s.upd
  | .tier => t.tier = s.tier
  | .forager => t.forager = s.forager
  | .mods => t.mods = s.mods
  | .ports => t.ports = s.ports
  | .casc => t.casc = s.casc
  | .host => t.host = s.host
  | .power => t.power = s.power
  | .test => t.test = s.test
  | .esz => t.esz = s.esz
  | .pkg => t.pkg = s.pkg

/-- The parts that a command can change. Every command may log events, and events of class RP, DL and FT mark the window, stop
the plan or bring the device to FAILED (Table 13.1), so many commands name the parts of the plan. -/
def changes : Instr → List StatePart
  | .marginNow .. | .retire .. | .mailboxReadComplete .. | .linkTrainingDone .. | .laneMarginMeasure .. | .laneDrop ..
  | .portDown .. | .updSelftestDone .. | .d2h .. | .vadd .. | .vsub .. | .vmul .. | .vfma .. | .vneg .. | .vabs ..
  | .vmax .. | .vmin .. | .vcmp .. | .vsel .. | .vcvt .. | .vamax .. | .vscale .. | .vrsum .. | .vrmax .. | .vrmin ..
  | .vexp .. | .vlog .. | .vrcp .. | .vrsqrt .. | .vsin .. | .vcos .. | .vperm .. | .vbcast .. | .vmovs .. | .vgath ..
  | .vld .. | .vqpop .. | .vwga .. | .sli .. | .slui .. | .sadd .. | .saddi .. | .ssub .. | .smul .. | .sand .. | .sor ..
  | .sxor .. | .sshl .. | .sshr .. | .sld .. | .vext .. | .br .. | .beqz .. | .bnez .. | .blt .. | .loop .. | .wait ..
  | .signal .. | .endRoutine .. | .signalArrival .. | .refreshInterval .. | .patrolScrub .. | .flitCrcFail ..
  | .moduleRetrainDone .. | .moduleRetrainTimeout .. | .parameterBlockTimeout .. | .remoteRead .. | .powerStepUpdate ..
  | .crossingTimeout .. | .pllRelockTimeout .. | .startupStepTimeout .. | .cxlCacheTimeout .. | .coreSelfTestDone .. =>
    [.regs, .slots, .beat, .units, .cores, .upd, .tier, .forager, .mods, .ports, .casc, .host, .test]
  | .marker .. | .gapEntry .. | .beatReport .. | .verdict .. | .slotEnd .. | .slotHung .. | .report .. | .join ..
  | .syncResult .. | .admitDevice .. | .ready .. | .dataFrame .. | .reduceFrame .. | .ack .. | .nak .. | .credit ..
  | .ident .. | .probe .. | .creditReturn .. | .plain .. | .stageM .. | .stageW .. | .fence .. | .copy ..
  | .controlMessageReceipt .. | .copyRequest .. =>
    [.now, .regs, .memory, .slots, .beat, .units, .cores, .upd, .tier, .forager, .mods, .ports, .casc, .host, .test]
  | .bar2Access .. | .cxlMemAccess .. | .send .. | .mcast .. | .reduce .. | .move .. | .fetch .. | .holdSpaceFreed ..
  | .homingComplete .. | .readCompletion .. | .sst .. | .sampleRecord .. | .tokenize .. | .batchOp .. | .portReset .. =>
    [.regs, .memory, .slots, .beat, .units, .cores, .upd, .tier, .forager, .mods, .ports, .casc, .host, .test]
  | .verdictLate .. | .backupAssumesMastership .. | .slotStart .. | .markerIssue .. | .memberLostTimeout ..
  | .joinTimeout .. | .sync .. | .beatInEdge .. | .partnerLost .. =>
    [.now, .regs, .slots, .beat, .units, .cores, .upd, .tier, .forager, .mods, .ports, .casc, .host, .test]
  | .bar0UnsupportedRequest .. | .stop .. | .nop .. | .mailboxStop .. | .args .. | .powerSample .. | .thermalStepTick ..
  | .linkRecovery .. => [.regs, .beat]
  | .signedRequest .. | .provisionKey .. | .revokeKey .. | .advanceFing .. | .blockVendorDebug .. | .debugL1 ..
  | .debugL2 .. | .fwUpdate .. => [.regs, .beat, .tier, .esz]
  | .stageMAck .. | .real .. | .complex .. | .fp32x6 .. | .vst .. | .jpegDecode .. =>
    [.regs, .memory, .slots, .beat, .units, .cores, .watch, .upd, .tier, .forager, .mods, .ports, .casc, .host, .test]
  | .marginRst .. | .chunkRst .. | .pwrCapWrite .. | .latencyRemeasure .. | .setCap .. => [.regs]
  | .mailboxAddrValid .. | .ctrl .. | .biasApply .. | .flushingReadComplete .. | .pcieLinkUp .. => [.regs, .host]
  | .rdcEn .. | .holdReq .. | .autoHold .. | .holdExit .. | .dStateChange .. => [.regs, .tier]
  | .commit .. | .commitSkip .. | .replay .. | .updateOp .. | .masterAndBackupLost .. =>
    [.now, .regs, .memory, .slots, .beat, .units, .cores, .watch, .upd, .tier, .forager, .mods, .ports, .casc, .host, .test]
  | .idleTimer .. | .challenge .. | .readTelemetry .. | .getCap .. => []
  | .getCertificate .. | .getMeasurements .. | .negotiateAlgorithms .. | .dynamicAddress .. => [.esz]
  | .wakeStart .. | .unplannedWake .. | .tapAccess .. => [.now, .regs, .units]
  | .rcRead .. | .loRead .. =>
    [.regs, .latches, .slots, .beat, .units, .cores, .upd, .tier, .forager, .mods, .ports, .casc, .host, .test]
  | .load .. | .evict .. => [.regs, .slots, .beat, .tier]
  | .invAll .. | .edramWriteBack .. => [.tier]
  | .devReset .. | .powerOkDeassert .. =>
    [.now, .regs, .latches, .memory, .slots, .beat, .units, .cores, .watch, .upd, .tier, .forager, .mods, .ports, .casc,
      .host, .power, .test, .esz, .pkg]
  | .getNonce .. | .debugLock .. => [.regs, .beat, .esz]
  | .mailboxRead .. | .gapStart .. => [.now, .beat]
  | .h2d .. | .notify .. => [.regs, .beat, .units, .host]
  | .parameterBlock .. | .powerOkAssert .. =>
    [.regs, .memory, .slots, .beat, .units, .cores, .upd, .tier, .forager, .mods, .ports, .casc, .host, .power, .test, .esz,
      .pkg]
  | .thermalRead .. | .pllRelock .. =>
    [.regs, .slots, .beat, .units, .cores, .upd, .tier, .forager, .mods, .ports, .casc, .host, .power, .test]
  | .registerWrite .. => [.regs, .beat, .host, .esz]
  | .verifyDone .. => [.regs, .memory, .slots, .beat]
  | .start .. => [.now, .regs, .slots, .beat, .watch, .upd, .tier, .forager, .ports, .casc, .host, .test]
  | .cacheClr .. => [.forager]
  | .train .. => [.regs, .ports]
  | .biasFlipComplete .. => [.regs, .tier, .host]
  | .testCtlWrite .. => [.regs, .test]
  | .switch .. => [.regs, .slots, .beat]
  | .masterLost .. => [.now, .casc]
  | .standaloneFirstMarker .. => [.now, .regs, .beat, .casc]
  | .resume .. => [.now, .regs, .memory, .beat, .units, .cores, .upd, .tier, .forager, .mods, .casc]
  | .ackTimer .. => [.ports]
  | .scheduleSlot .. => [.now, .units, .upd]
  | .completionTimeout .. => [.regs, .memory, .beat, .units, .host]
  | .endOfSequence .. => [.units]
  | .waitSatisfied .. => [.units, .cores]
  | .plannedBurst .. => [.now, .regs, .tier]
  | .pllUnlock .. => [.regs, .power]
  | .watchdog .. => [.regs, .latches, .slots, .beat, .power, .test, .esz]
  | .coverDue .. => [.test]
  | .eszCmdDone .. => [.regs, .esz]

/-- What a command respects that may change only the parts that `P` allows: the waiting commands, the traffic already sent, the
canonical form of memory, the fuses, the count of free values drawn, and every other part. -/
structure Keeps (P : StatePart → Bool) (s t : State) : Prop where
  pending : t.pending = s.pending
  out : s.out <+: t.out
  free : s.free ≤ t.free
  memory : s.memoryOk = true → t.memoryOk = true
  fuses : fusesKept s t
  parts : ∀ p, P p = false → samePart p s t

end Sys2Proof.Machine
end

