-- ==== Sys2Proof/Claims.lean ====
section
/-! DEFINITION. Words that the statements use about the cores and their numbers: an engine that has reached an instruction, what
a lane-wise write leaves alone, and the order of exact values. -/

namespace Sys2Proof.Machine

open Sys2Proof

/-! ### Exact values -/

/-- The number that a finite value stands for. -/
def Fp.rat : Fp → ℚ
  | .fin neg m e => (if neg then -1 else 1) * (m : ℚ) * (2 : ℚ) ^ e
  | _ => 0

/-- One value is less than another; NaN is ordered with nothing. -/
def Fp.lt : Fp → Fp → Prop
  | .nan, _ => False
  | _, .nan => False
  | .inf a, .inf b => a = true ∧ b = false
  | .inf a, .fin .. => a = true
  | .fin .., .inf b => b = false
  | .fin a m e, .fin b n f => (Fp.fin a m e).rat < (Fp.fin b n f).rat

/-- Two values are equal as numbers: −0 equals +0, and NaN equals nothing. -/
def Fp.same : Fp → Fp → Prop
  | .inf a, .inf b => a = b
  | .fin a m e, .fin b n f => (Fp.fin a m e).rat = (Fp.fin b n f).rat
  | _, _ => False

/-- Table 4.4: the magnitude at which a finite source saturates, and the greatest that becomes zero. -/
def Fmt.saturatesAt : Fmt → ℚ
  | .fp32 => 2 ^ 128 - 2 ^ 103
  | .bf16 => 2 ^ 128 - 2 ^ 119
  | .fp16 => 65520
  | .zf8 => 248
  | .zf4 => 7
def Fmt.zeroUpTo : Fmt → ℚ
  | .fp32 => 1 / 2 ^ 150
  | .bf16 => 1 / 2 ^ 134
  | .fp16 => 1 / 2 ^ 25
  | .zf8 => 1 / 2 ^ 11
  | .zf4 => 1 / 4

/-! ### The vector engine -/

/-- The vector engine of core `l` runs slot `r`, has reached the valid instruction `i` of opcode `opc`, and the program region
goes on after it. -/
def State.atVec (s : State) (l opc : Nat) (r : RunSlot) (i : VInstr) : Prop :=
  s.runOf (vectorUnit l) = some r ∧ s.instrAt r = i ∧ i.valid = true ∧ i.opc = opc ∧ r.ptr + 8 < 0x100000

/-- The slot goes on at an offset of the program region, with the rank of the instruction there as its OP number (log 131); nothing else
changes. -/
def State.goesTo (s : State) (l : Nat) (r : RunSlot) (ptr : Nat) : State :=
  s.setUnit (vectorUnit l)
    { s.unit (vectorUnit l) with run := some { r with ptr := ptr, ordinal := r.rankAt ptr, wait := none } }

/-- The engine's registers become `v` and the slot goes on to its next instruction; nothing else changes. -/
def State.vecDone (s : State) (l : Nat) (r : RunSlot) (v : VecSt) : State := (s.setVec (s.physOf l) v).goesTo l r (r.ptr + 8)

/-- The context in which an instruction of core `l` runs. -/
def State.vecCtx (s : State) (l : Nat) (r : RunSlot) (i : VInstr) : VecCtx :=
  { u := vectorUnit l, r := r, i := i, c := s.errCtx (vectorUnit l) r }

/-- From `v` to `w`, vector register D takes `f n` in every lane that the mask lets through and keeps the others; every other
vector register, the masks, the scalar registers, the scales and the queue are the same. -/
def laneWrite (i : VInstr) (f : Nat → Word) (v w : VecSt) : Prop :=
  w = { v with vregs := w.vregs } ∧ (∀ k, k ≠ i.d → w.vreg k = v.vreg k) ∧
    ∀ n, n < 128 → w.at i.d n = if i.masked = false ∨ (v.mask i.mkr).getLsbD n = true then f n else v.at i.d n

/-- From `v` to `w`, scalar register `d` takes `x`, unless it is register 0, which ignores writes; nothing else changes. -/
def scalarWrite (d : Nat) (x : DWord) (v w : VecSt) : Prop :=
  w = { v with sregs := w.sregs } ∧ ∀ k, w.sreg k = if k = d ∧ d ≠ 0 then x else v.sreg k

/-- The vector instructions of core `l`: the command of each opcode of Table 3.27. -/
def vectorCommands (l : Nat) : List (Instr × Nat) :=
  [(.vadd l, 0x01), (.vsub l, 0x02), (.vmul l, 0x03), (.vfma l, 0x04), (.vneg l, 0x05), (.vabs l, 0x06), (.vmax l, 0x10),
    (.vmin l, 0x11), (.vcmp l, 0x12), (.vsel l, 0x13), (.vcvt l, 0x20), (.vamax l, 0x28), (.vscale l, 0x29), (.vrsum l, 0x30),
    (.vrmax l, 0x31), (.vrmin l, 0x32), (.vexp l, 0x38), (.vlog l, 0x39), (.vrcp l, 0x3A), (.vrsqrt l, 0x3B), (.vsin l, 0x3C),
    (.vcos l, 0x3D), (.vperm l, 0x40), (.vbcast l, 0x41), (.vmovs l, 0x42), (.vgath l, 0x43), (.vld l, 0x48), (.vst l, 0x49),
    (.vqpop l, 0x4A), (.vwga l, 0x4B), (.sli l, 0x80), (.slui l, 0x81), (.sadd l, 0x82), (.saddi l, 0x83), (.ssub l, 0x84),
    (.smul l, 0x85), (.sand l, 0x86), (.sor l, 0x87), (.sxor l, 0x88), (.sshl l, 0x89), (.sshr l, 0x8A), (.sld l, 0x8B),
    (.sst l, 0x8C), (.vext l, 0x8D), (.br l, 0x90), (.beqz l, 0x91), (.bnez l, 0x92), (.blt l, 0x93), (.loop l, 0x94),
    (.wait l, 0x98), (.signal l, 0x99), (.endRoutine l, 0x9F)]

/-! ### Gaps -/

/-- No fence, module, cover or loss waits for a gap. -/
def State.nothingWaits (s : State) : Prop := s.test.fences = [] ∧ s.mods = [] ∧ s.test.passed = [] ∧ s.test.loss = none

/-! ### Frames -/

/-- A DATA, CONTROL or REQUEST frame comes at an active port, passes its CRC, is the one that the link expects, belongs to the running
cascade, and is the next in the order of its direction and lane, in which no frame waits. -/
def State.nextFrame (s : State) (q : Nat) (f : Frame) : Prop :=
  s.portActive q = true ∧ f.good = true ∧ f.lseq = (s.port q).rxLseq ∧ f.cascade = s.cascade32 ∧ s.portRole q ≠ 8 ∧
    s.runSlot.isSome = true ∧ f.dseq = (getKey s.casc.rxSeq (orderKey (s.portRole q) q f.vl)).getD 0 ∧
    ∀ x ∈ s.casc.rxHold, x.1 ≠ orderKey (s.portRole q) q f.vl

/-- The state in which such a frame acts: the link has accepted it at `t`, and it stands in the receive buffer. -/
def State.accepted (s : State) (q : Nat) (f : Frame) (t : Nat) : State :=
  ((s.at t).linkAccept q f).1.holdFrame (orderKey (s.portRole q) q f.vl) q f

/-- The state once the frame that came in `s` has acted and left `u`: it is out of the buffer, the order counts on, and what has waited
for it follows. -/
def State.afterFrame (s : State) (q : Nat) (f : Frame) (residence t : Nat) (u : State) : State :=
  let key := orderKey (s.portRole q) q f.vl
  State.drainHeld { u with casc := { u.casc with
    rxHold := u.casc.rxHold.filter fun y => !(y == (key, q, max s.now t, f))
    rxSeq := putKey u.casc.rxSeq key ((f.dseq + 1) % 4294967296) } } key residence s.casc.rxHold.length

/-- From `s` to `v` a CONTROL frame with this message for `c` has gone out at a port of the role toward it, or waits at one: where such a
port is usable and the device has not been retired. -/
def State.sends (s v : State) (c : Coord) (m : CtlMsg) : Prop :=
  ∀ r k, s.route = some r → s.casc.retired = false → (s.aliasOf r c).1 ≠ s.self → s.egress r (s.aliasOf r c).1 = some k →
    ∃ q f, s.portRole q = k ∧ f.typ = 7 ∧ f.vl = 2 ∧ f.dest = c ∧ f.payload = m.bytes ∧
      (Out.frame q f ∈ v.out ∨ ∃ n, (n, f) ∈ (v.port q).sendWait)

/-- The coordinates to which a message of this device's own goes first on the broadcast tree. -/
def State.ownTree (s : State) : List Coord :=
  match s.route with
  | some r => s.treeNext r (s.memberAt s.myIdx) (s.treeNodes r (s.memberAt s.myIdx) 3 s.self)
  | none => []

/-! ### Core memory -/

/-- The places of a core-local range. -/
def State.corePlaces (s : State) (l off n : Nat) : List (Option Loc) := (List.range n).map fun k => s.coreLoc l (off + k)

/-- From `s` to `t`, a core-local range has taken these bytes and no other byte of device memory has changed. -/
def coreStored (l off : Nat) (b : Bytes) (s t : State) : Prop :=
  (∀ k x, k < b.length → s.coreLoc l (off + k) = some x → t.peek x = b.getD k 0) ∧
    memoryKeptBut ((s.corePlaces l off b.length).filterMap id) s t

end Sys2Proof.Machine
end

