-- ==== Sys2Proof/WellFormed.lean ====
section
/-! DEFINITION. Which commands are well formed: their operands name registers, units and lanes that the part has. -/

namespace Sys2Proof

/-- Units of each class of Table 2.25: arrays, vector engines, movers, copy engines, link ports, forager lanes, update
engines and the schedule engine. -/
def unitCount (cls : Nat) : Nat := [0, 192, 64, 32, 24, 32, 18, 16, 1].getD cls 0

/-- The unit exists in the part. -/
def UnitId.wf (u : UnitId) : Bool := decide (u.idx < unitCount u.cls)

/-- A register offset of BAR0: a DWORD of its 64 MiB (R11, Table 16.1). -/
def offsetOk (off : Nat) : Bool := decide (off % 4 = 0) && decide (off < 0x4000000)

/-- The coordinate lies in a cascade: four bits each of x, y and z (R423). -/
def Coord.wf (c : Coord) : Bool := decide (c.x < 16) && decide (c.y < 16) && decide (c.z < 16)

/-- A frame's payload has the length that its header gives, and the header fields fit (Table 10.1). -/
def Frame.wf (f : Frame) : Bool :=
  decide (f.typ < 16) && decide (f.payload.length = f.len) && decide (f.len ≤ 4096) && decide (f.vl < 4) && decide (f.lseq < 2 ^ 32)

/-- Every error names units and lanes that the part has. -/
def HwErr.wf : HwErr → Bool
  | .hubBuffer hub => decide (hub < 2)
  | .combCe d => decide (d < 4)
  | .combUe d _ => decide (d < 4)
  | .dramFail p => decide (p < 16)
  | .codeword p _ _ => decide (p < 16)
  | .edramCe p => decide (p < 16)
  | .edramUe p _ => decide (p < 16)
  | .rdcUe d _ => decide (d < 4)
  | .wgaCombUe core _ => decide (core < 64)
  | .sramUe _ | .wgaSramUe _ _ | .wgaWorkUe _ _ => true
  | .sramCe | .weightParity | .sumParity | .vectorParity | .sfuParity | .updLane | .ceBuffer | .foragerUe | .watchBuffer
  | .superFail | .watchEntryUe | .retainedLost => true

/-- A Serrin module of a hub. -/
def moduleOk (hub module : Nat) : Bool := decide (hub < 2) && decide (module < 120)

/-- A command is well formed. -/
def Instr.wf : Instr → Bool
  | .registerWrite _ off _ | .rcRead _ off => offsetOk off
  | .loRead _ off _ => offsetOk off && decide (off % 8 = 0)
  | .bar0UnsupportedRequest _ off _ => decide (off < 0x4000000)
  | .rdcEn hub _ | .invAll hub | .cxlCacheTimeout hub => decide (hub < 2)
  | .chunkRst n | .holdSpaceFreed n | .plannedBurst ⟨n, _⟩ | .refreshInterval n | .edramWriteBack n _
  | .updSelftestDone n _ => decide (n < 16)
  | .patrolScrub n _ _ _ => decide (n < 20)
  | .train q | .idleTimer q | .ackTimer q | .creditReturn q | .send q | .mcast q | .reduce q | .portDown q _
  | .latencyRemeasure q _ => decide (q < 32)
  | .linkTrainingDone q r => decide (q < 32) && (match r with
    | .active lanes i _ => decide (lanes.length = 4) && i.coord.wf
    | .failed => true)
  | .marginNow q ms => decide (q < 32) && decide (ms.length = 4)
  | .dataFrame q f | .reduceFrame q f | .ack q f | .nak q f | .credit q f | .ident q f | .probe ⟨q, f⟩ _ | .verdict ⟨q, f, _⟩ _
  | .report ⟨q, f⟩ _ | .join ⟨q, f⟩ _ | .syncResult ⟨q, f⟩ _ | .admitDevice ⟨q, f⟩ _ | .ready ⟨q, f⟩ _ | .plain ⟨q, f⟩ | .stageM ⟨q, f⟩
  | .stageW ⟨q, f⟩ | .fence ⟨q, f⟩ | .copy ⟨q, f⟩ | .controlMessageReceipt q f _ _ | .copyRequest q f => decide (q < 32) && f.wf
  | .laneMarginMeasure q lane _ | .laneDrop q lane => decide (q < 32) && decide (lane < 4)
  | .retire c => c.wf
  | .mailboxReadComplete page => match page with
    | some b => decide (b.length = 4096)
    | none => true
  | .slotStart u _ | .slotHung u _ | .wakeStart u _ | .unplannedWake u _ | .waitSatisfied u => u.wf
  | .slotEnd u _ errs => u.wf && errs.all HwErr.wf
  | .updateOp n _ errs | .stageMAck n ⟨_, errs⟩ => decide (n < 16) && errs.all HwErr.wf
  | .bar2Access _ _ ⟨_, errs⟩ | .cxlMemAccess _ ⟨_, errs⟩ => errs.all HwErr.wf
  | .move m _ | .fetch m _ => decide (m < 32)
  | .h2d e | .d2h e | .notify e | .readCompletion e _ | .completionTimeout e => decide (e < 24)
  | .endOfSequence l a => decide (l < 64) && decide (a < 3)
  | .real l a errs | .complex l a errs | .fp32x6 l a errs => decide (l < 64) && decide (a < 3) && errs.all HwErr.wf
  | .vadd l | .vsub l | .vmul l | .vfma l | .vneg l | .vabs l | .vmax l | .vmin l | .vcmp l | .vsel l | .vcvt l | .vamax l
  | .vscale l | .vrsum l | .vrmax l | .vrmin l | .vexp l | .vlog l | .vrcp l | .vrsqrt l | .vsin l | .vcos l | .vperm l
  | .vbcast l | .vmovs l | .vgath l | .vld l | .vst l | .vqpop l | .vwga l | .sli l | .slui l | .sadd l | .saddi l | .ssub l
  | .smul l | .sand l | .sor l | .sxor l | .sshl l | .sshr l | .sld l | .sst l | .vext l | .br l | .beqz l | .bnez l | .blt l
  | .loop l | .wait l | .signal l | .endRoutine l => decide (l < 64)
  | .signalArrival a b c => decide (a < 64) && decide (b < 64) && decide (c < 32)
  | .sampleRecord f q _ => decide (f < 2) && (match q with
    | some p => decide (p < 32)
    | none => true)
  | .jpegDecode f ⟨lane, _⟩ | .tokenize f ⟨lane, _⟩ => decide (f < 2) && decide (lane < 4)
  | .batchOp f => decide (f < 2)
  | .flitCrcFail hub m _ | .moduleRetrainDone hub m _ | .moduleRetrainTimeout hub m => moduleOk hub m
  | .parameterBlock hub m die _ => moduleOk hub m && decide (die < 11)
  | .parameterBlockTimeout hub die => decide (hub < 2) && decide (die < 11)
  | .remoteRead l _ _ errs => decide (l < 64) && errs.all HwErr.wf
  | .thermalRead temps => decide (temps.dies.length = 22) && decide (temps.dram.length = 16)
  | .thermalStepTick die | .coverDue die => decide (die < 4)
  | .coreSelfTestDone p ⟨_, arrays⟩ => decide (p < 68) && arrays.all fun a => decide (a < 3)
  | .startupStepTimeout n => decide (1 ≤ n ∧ n ≤ 10)
  | .biasFlipComplete page => decide (page < 524288)
  | .memberLostTimeout m _ => decide (m < 4096)
  | .dynamicAddress a => decide (a < 128)
  | .load _ | .verifyDone _ | .evict _ | .start _ _ | .stop | .marginRst
  | .mailboxAddrValid _ _ | .cacheClr | .ctrl _ _ | .biasApply | .holdReq | .pwrCapWrite _ _ | .devReset _ _ | .testCtlWrite _
  | .getNonce | .signedRequest | .provisionKey | .revokeKey | .advanceFing | .blockVendorDebug | .debugL1 | .debugL2 | .debugLock
  | .fwUpdate | .mailboxRead _ | .nop | .switch | .mailboxStop | .args | .marker _ | .gapStart _ | .gapEntry _ | .beatReport _
  | .commit _ | .commitSkip _ | .replay _ | .verdictLate _ | .masterLost _ | .backupAssumesMastership _
  | .markerIssue _ | .joinTimeout _ | .sync _ | .beatInEdge _ 
  | .standaloneFirstMarker _ | .resume _ | .partnerLost _ | .scheduleSlot _ | .homingComplete _ _ | .flushingReadComplete _
  | .powerSample _ | .powerStepUpdate _
  | .autoHold | .holdExit | .dStateChange _ _ | .crossingTimeout _ _ | .pllUnlock _ | .pllRelock _ | .pllRelockTimeout _
  | .powerOkAssert _ | .powerOkDeassert | .portReset _ _ _ | .pcieLinkUp _ _ | .linkRecovery _ | .watchdog _
  | .getCertificate _ _ _ | .challenge _ _ | .getMeasurements _ _ _ _ | .readTelemetry _ | .setCap _ _ | .getCap _
  | .masterAndBackupLost _ | .eszCmdDone | .tapAccess _ | .negotiateAlgorithms _ => true

end Sys2Proof
end

