-- ==== Sys2Proof/Certificates/Slice0/Obligations.lean ====
section
/-! DEFINITION. The statements for the provers. -/

open Sys2Proof Sys2Proof.Machine

/-! ### The queue -/

/-- A step runs the command at the front of the queue, on the state with the queue's rest. With no command waiting the block idles
(DESIGN CHOICE, log 1). -/
def Obligations.StepRunsFrontCommand : Prop :=
  (∀ (c : Instr) (rest : List Instr) (s : State), s.pending = c :: rest → step s = exec c { s with pending := rest }) ∧
  (∀ s : State, s.pending = [] → step s = .next s)

/-! ### Reset -/

/-- The registers whose reset values the manual gives and that no start-up event has changed yet: BOOT, nothing loaded, no beat,
both ports' CTRL as Tables 11.12 and 11.13 give it, an empty log, and Table 16.1's DEV_ID. -/
def Obligations.ResetRegisters : Prop :=
  State.reset.reg Reg.devId = 0x7A241F9C ∧ State.reset.fld Reg.devState 3 0 = 1 ∧ State.reset.reg Reg.beatMarginMin = 0x7FFFFFFF ∧
    State.reset.reg Reg.portCtlA = 3 ∧ State.reset.reg Reg.portCtlB = 2 ∧ State.reset.reg Reg.xportFence = 1 ∧
    State.reset.reg Reg.cascadeCtl = 1 ∧ State.reset.reg Reg.testCtl = 0x3C403E8F ∧ State.reset.reg Reg.testStatus = 0x7F0 ∧
    State.reset.reg Reg.pwrCapHost = 0x7D0 ∧ State.reset.reg Reg.pwrCapMgmt = 0x7D0 ∧ State.reset.reg Reg.errLogHead = 0 ∧
    State.reset.errSummary = 0

/-- After reset nothing waits, nothing has been sent, no slot holds an image, memory is in canonical form, and every byte reads as
an unlisted byte does (DESIGN CHOICE, log 4). -/
def Obligations.ResetStateEmpty : Prop :=
  State.reset.pending = [] ∧ State.reset.out = [] ∧ State.reset.slotA.fing = none ∧ State.reset.slotB.fing = none ∧
    State.reset.memoryOk = true ∧ ∀ l : Loc, State.reset.peek l = 0

/-! ### What every command respects -/

/-- Every command of the table has an effect: none stops the block. It leaves the commands that wait as they are, takes nothing
back that it or an earlier command has sent, draws fresh free values only, and changes no part of the machine but those that
`changes` lists for it. -/
def Obligations.CommandsChangeOnlyTheirParts : Prop :=
  ∀ (c : Instr) (s : State), ∃ t, exec c s = .next t ∧ t.pending = s.pending ∧ s.out <+: t.out ∧ s.free ≤ t.free ∧
    ∀ p : StatePart, p ∉ changes c → samePart p s t

/-- The canonical form of the three memories is kept by every step, from every state that has it. -/
def Obligations.EveryStepKeepsMemoryForm : Prop :=
  ∀ s t : State, s.memoryOk = true → step s = .next t → t.memoryOk = true

/-- A fuse that has blown stays blown: no rollback counter falls, no revocation and no block is taken back, and a programmed key
entry keeps its hash, whatever step runs, from every state. -/
def Obligations.FusesOnlyBlow : Prop :=
  ∀ s t : State, step s = .next t → fusesKept s t

/-! ### Registers -/

/-- A plain write follows the access types of Table 0.8, bit by bit: W1C bits clear where 1 is written, RW bits and unlocked bits
take the value, every other bit keeps its own; no other register and nothing else changes. (The registers of `sideEffectRegs`
and the MSI-X control words have statements of their own.) Writing 1 to FERR_CODE VALID clears OVERWRITTEN with it;
PWR_CAP_MGMT takes 600 to 2,000 W from Eszoja and nothing from others; BAR2_BASE keeps a multiple of the BAR's size; an
operation that FING_CTL does not list is refused with 0x2012 while BUSY and ignored otherwise; a command code that ESZ_CMD
does not know is taken with the result 0xB021; unmasking an MSI-X entry whose pending bit is set sends its message (PRESUMED,
log 40). -/
def Obligations.RegisterWriteFollowsAccessTypes : Prop :=
  (∀ (r : Req) (off : Nat) (v : Word) (s : State) (row : RegRow), regRow? off = some row → s.writeOpen off = true →
    off ∉ sideEffectRegs → ¬(0x210000 ≤ off ∧ off < 0x212000 ∧ off % 16 = 12) →
    ∃ t, exec (.registerWrite r off v) s = .next t ∧ onlyRegs [off] s t ∧
      ∀ i, i < 32 → (t.reg off).getLsbD i =
        if row.w1c.testBit i ∧ v.getLsbD i = true then false
        else if row.rw.testBit i ∨ (row.locked.testBit i ∧ s.locked row.lock = false) then v.getLsbD i
        else (s.reg off).getLsbD i) ∧
  ((∀ r v s, s.writeOpen Reg.ferrCode = true → s.bit Reg.ferrCode 31 = true → BitVec.getLsbD v 31 = true → 
      ∃ t, exec (.registerWrite r Reg.ferrCode v) s = .next t ∧ onlyRegs [Reg.ferrCode] s t ∧
        t.bit Reg.ferrCode 31 = false ∧ t.bit Reg.ferrCode 29 = false) ∧
  (∀ r v s, s.writeOpen Reg.pwrCapMgmt = true → ∃ t, exec (.registerWrite r Reg.pwrCapMgmt v) s = .next t ∧ onlyRegs [Reg.pwrCapMgmt] s t ∧
      t.fld Reg.pwrCapMgmt 11 0 = if r = .eszoja then max 600 (min 2000 (bits v 11 0)) else s.fld Reg.pwrCapMgmt 11 0) ∧
  (∀ r p v s, s.writeOpen Reg.bar2BaseA = true → ∃ t, exec (.registerWrite r (match p with
        | .a => Reg.bar2BaseA
        | .b => Reg.bar2BaseB) v) s = .next t ∧
      onlyRegs [Reg.bar2BaseA, Reg.bar2BaseB] s t ∧ t.bar2Base p = bits v 19 0 * 2 ^ 28 / 2 ^ s.bar2Log2 p * 2 ^ s.bar2Log2 p) ∧
  (∀ r v s, s.writeOpen Reg.eszCmd = true → (bits v 7 0 = 0 ∨ 4 < bits v 7 0) → s.power.powerOk = true → s.esz.fw.isSome = true → s.esz.busy = none →
      ∃ t, exec (.registerWrite r Reg.eszCmd v) s = .next t ∧ t.esz = { s.esz with busy := some (bits v 7 0, 0xB021) } ∧
        t.bit Reg.eszStatus 4 = true ∧ t.reg Reg.errLogHead = s.reg Reg.errLogHead + 1) ∧
  (∀ r p n s, p < 2 → n < 128 → s.writeOpen (Reg.msix p n 3) = true → s.bit (Reg.msixPba p (n / 32)) (n % 32) = true → (s.hport (portOf p)).msixOn = true →
      ∃ t, exec (.registerWrite r (Reg.msix p n 3) 0) s = .next t ∧ t.out = s.out ++ [.msix (portOf p) n] ∧
        t.bit (Reg.msixPba p (n / 32)) (n % 32) = false) ∧
  (∀ r v s, s.writeOpen Reg.fingCtl = true → (bits v 2 0 = 0 ∨ 4 < bits v 2 0) →
    (s.bit Reg.fingStatus 8 = false → ∃ t, exec (.registerWrite r Reg.fingCtl v) s = .next t ∧ onlyRegs [] s t) ∧
    (s.bit Reg.fingStatus 8 = true → ∃ t, exec (.registerWrite r Reg.fingCtl v) s = .next t ∧ t.fld Reg.fingStatus 31 16 = 0x2012 ∧
      t.slotA = s.slotA ∧ t.slotB = s.slotB ∧ t.reg Reg.errLogHead = s.reg Reg.errLogHead + 1 ∧
      t.reg (Reg.errLog ((s.reg Reg.errLogHead).toNat % 256) 0) = BitVec.ofNat 32 (0x2012 + 65536 * 7))))

/-- R617: a read of a reserved offset returns 0 and changes nothing, and a write to one is ignored, as is a write to a block that
takes none in the present state. Requests of other shapes follow R457 at any offset: Unsupported Request and 0x9009. -/
def Obligations.ReservedOffsetsAreInert : Prop :=
  (∀ (r : Req) (off : Nat) (v : Word) (s : State), regRow? off = none →
    (s.power.stopped.contains (regDomain off) = false → exec (.rcRead r off) s = .next (s.emit (.regData r off 0))) ∧
    exec (.registerWrite r off v) s = .next s) ∧
  (∀ (r : Req) (off : Nat) (v : Word) (s : State), s.writeOpen off = false → exec (.registerWrite r off v) s = .next s) ∧
  ∀ (p : HPort) (off : Nat) (w : Bool) (s : State),
    ∃ u t, exec (.bar0UnsupportedRequest (match p with
        | .a => .portA
        | .b => .portB) off w) s = .next t ∧ t = u.emit (.unsupported p) ∧
      Logged { code := 0x9009, cls := 0, unit := { typ := 12, idx := portIdx p, sub := 0 } } s u

/-- A read returns the register's current value and clears its RC bits; a reserved offset reads 0, and before READY a block that
does not answer reads its reset value. Nothing else changes. R21, R22: a LO read, alone or with its HI half, takes both halves
of one value; whatever happens to the register afterwards, the same requester's reads of HI return that half until it reads LO
again, and every other latch stays as it is. A HI read with no LO read before it returns the HI half of the current value.
R23: a read that cannot complete because its clock domain has stopped returns all ones, sets XING_STATUS TIMEOUT with the
domain of the first such event, and adds one log entry. -/
def Obligations.ReadsReturnAndLatch : Prop :=
  (∀ (r : Req) (off : Nat) (s : State), isLoRead off = false → ¬(4 ≤ off ∧ isLoRead (off - 4) = true) →
    s.power.stopped.contains (regDomain off) = false →
    ∃ t, exec (.rcRead r off) s = .next t ∧ t.out = s.out ++ [.regData r off (s.readReg off)] ∧
      t = { s with regs := t.regs, out := t.out } ∧ regsKeptBut [off] s t ∧
      (regRow? off = none → s.readReg off = 0) ∧ (s.readOpen off = false → s.readReg off = regReset off) ∧
      (s.readOpen off = true → (regRow? off).isSome = true → off ∉ computedRegs → updStatusOf off = none → s.readReg off = s.reg off) ∧
      (off = Reg.errSummary → s.readReg off = s.errSummary) ∧
      (∀ row, regRow? off = some row → s.readOpen off = true → ∀ i, i < 32 →
        (t.reg off).getLsbD i = ((s.reg off).getLsbD i && !(row.rc.testBit i)))) ∧
  (∀ (r : Req) (off : Nat) (s : State), isLoRead off = true → s.power.stopped.contains (regDomain off) = false →
    (∃ t, exec (.loRead r off true) s = .next t ∧ t.out = s.out ++ [.regPair r off (s.readReg off) (s.readReg (off + 4))] ∧
      t = { s with latches := t.latches, out := t.out }) ∧
    (∃ t, exec (.loRead r off false) s = .next t ∧ t.out = s.out ++ [.regData r off (s.readReg off)] ∧
      t = { s with latches := t.latches, out := t.out } ∧
      (∀ q o, ¬(q = r ∧ o = regHome off) → t.latch q o = s.latch q o) ∧
      ∀ u : State, u.latches = t.latches → u.power.stopped.contains (regDomain (off + 4)) = false →
        exec (.rcRead r (off + 4)) u = .next (u.emit (.regData r (off + 4) (s.readReg (off + 4))))) ∧
    (s.latch r (regHome off) = none → s.power.stopped.contains (regDomain (off + 4)) = false →
      exec (.rcRead r (off + 4)) s = .next (s.emit (.regData r (off + 4) (s.readReg (off + 4)))))) ∧
  (∀ (r : Req) (off : Nat) (s : State), s.power.stopped.contains (regDomain off) = true →
    (∃ t, exec (.rcRead r off) s = .next t ∧ Out.regData r off 0xFFFFFFFF ∈ t.out ∧ t.bit Reg.xingStatus 0 = true ∧
      (s.bit Reg.xingStatus 0 = false → s.bit Reg.xingStatus 1 = false → t.fld Reg.xingStatus 15 8 = regDomain off) ∧
      t.reg Reg.errLogHead = s.reg Reg.errLogHead + 1) ∧
    ∀ two, ∃ t, exec (.loRead r off two) s = .next t ∧
      (if two then Out.regPair r off 0xFFFFFFFF 0xFFFFFFFF else Out.regData r off 0xFFFFFFFF) ∈ t.out ∧
      t.bit Reg.xingStatus 0 = true ∧ t.reg Reg.errLogHead = s.reg Reg.errLogHead + 1)

/-! ### Control bits, ports and bias -/

/-- MARGIN_RST, CHUNK_RST, CACHE_CLR, INV_ALL and RDC_EN: what each clears or sets, and nothing more. PWR_CAP_HOST stores 600 to
2,000 W. TEST_CTL stores its counts as at least 1; the value is in effect at once while RUN is 0, and from the next gap entry
while RUN is 1. A write of a mailbox or report LO register stores its address and VALID, and the device takes the pair into
use, 4 KiB aligned, exactly while VALID is 1; REGISTER_WRITE to that offset does the same. -/
def Obligations.ControlBitsAct : Prop :=
  ((∀ s : State, s.writeOpen Reg.beatCtl = true →
    ∃ t, exec .marginRst s = .next t ∧ t.reg Reg.beatMarginMin = 0x7FFFFFFF ∧ onlyRegs [Reg.beatMarginMin] s t) ∧
  (∀ (n : Nat) (s : State), n < 16 → s.writeOpen (Reg.updCtl n) = true →
    ∃ t, exec (.chunkRst n) s = .next t ∧ t.pair (Reg.updChunksLo n) = 0 ∧ onlyRegs [Reg.updChunksLo n, Reg.updChunksHi n] s t) ∧
  (∀ s : State, s.writeOpen Reg.forgCtl = true → s.running = false →
    exec .cacheClr s = .next { s with forager := { s.forager with cache := [] } }) ∧
  (∀ (hub : Nat) (s : State), s.writeOpen (Reg.rdcCtl hub) = true →
    ∃ t, exec (.invAll hub) s = .next t ∧ t = { s with tier := { s.tier with rdc := t.tier.rdc } } ∧
      ∀ x, x ∈ t.tier.rdc ↔ x ∈ s.tier.rdc ∧ dieHub x.die ≠ hub) ∧
  (∀ (hub : Nat) (en : Bool) (s : State), hub < 2 → s.writeOpen (Reg.rdcCtl hub) = true → s.hasRdc = true →
    ∃ t, exec (.rdcEn hub en) s = .next t ∧ t.bit (Reg.rdcCtl hub) 0 = en ∧ regsKeptBut [Reg.rdcCtl hub] s t ∧
      t = { s with tier := t.tier, regs := t.regs } ∧
      (s.running = true → t.tier = s.tier) ∧
      (s.running = false → ∀ x, x ∈ t.tier.rdc ↔ x ∈ s.tier.rdc ∧ dieHub x.die < 2 ∧ t.bit (Reg.rdcCtl (dieHub x.die)) 0 = true))) ∧
  (∀ (r : Req) (v : Word) (s : State), ∃ t, exec (.pwrCapWrite r v) s = .next t ∧
    t.fld Reg.pwrCapHost 11 0 = max 600 (min 2000 (bits v 11 0)) ∧ onlyRegs [Reg.pwrCapHost] s t) ∧
  (∀ (v : Word) (s : State), ∃ t, exec (.testCtlWrite v) s = .next t ∧
    t.fld Reg.testCtl 3 0 = bits v 3 0 ∧ t.fld Reg.testCtl 15 4 = max 1 (bits v 15 4) ∧
    t.fld Reg.testCtl 23 16 = max 1 (bits v 23 16) ∧ t.fld Reg.testCtl 31 24 = max 1 (bits v 31 24) ∧
    regsKeptBut [Reg.testCtl] s t ∧ t = { s with regs := t.regs, test := t.test } ∧
    t.test = (if s.running then s.test else { s.test with testCtl := t.reg Reg.testCtl })) ∧
  (∀ (p : AddrPair) (r : Req) (v : Word) (s : State), s.writeOpen (pairLo p) = true →
    (∃ t, exec (.mailboxAddrValid p v) s = .next t ∧ t.reg (pairLo p) = v &&& 0xFFFFF001 ∧ regsKeptBut [pairLo p] s t ∧
      t = { s with host := t.host, regs := t.regs } ∧
      (match p with
        | .mailbox .a => t.host.mailA
        | .mailbox .b => t.host.mailB
        | .report .a => t.host.reportA
        | .report .b => t.host.reportB) =
          if v.getLsbD 0 = true then some ((s.reg (pairLo p + 4)).toNat * 2 ^ 32 + v.toNat / 4096 * 4096) else none) ∧
    ∃ t u, exec (.mailboxAddrValid p v) s = .next t ∧ exec (.registerWrite r (pairLo p) v) s = .next u ∧ u.host = t.host ∧
      u.reg (pairLo p) = t.reg (pairLo p))

/-- CTRL moves control at once while RUN is 0, and both CTRL fields follow; while RUN is 1 only a write through the controlling
port is accepted, and it waits for the commit gap. APPLY, while RUN is 0 and no flip runs, starts a flip for every page whose
bit in the bias table differs from its bias, in ascending order, and BUSY reads 1 until there is none; while RUN is 1 it waits
for the gap; while BUSY it changes nothing. When the page whose flip runs completes it, the page takes its new bias, unless
the table has been written otherwise meanwhile (log 10), and every other page keeps its own; SHARED counts the pages in host
bias, and BUSY ends with the last flip. -/
def Obligations.ControlAndBiasChange : Prop :=
  (∀ (via : Req) (target : HPort) (s : State), s.writeOpen Reg.portCtlA = true → s.host.ctrl ≠ target →
    (s.running = false → ∃ t, exec (.ctrl via target) s = .next t ∧
      t.host = { s.host with ctrl := target, ctrlNext := none, failing := false, orphan := false, mailFails := 0 } ∧
      t.bit Reg.portCtlA 0 = decide (target = .a) ∧ t.bit Reg.portCtlB 0 = decide (target = .b) ∧
      onlyLog [Reg.portCtlA, Reg.portCtlB] { s with host := t.host } t) ∧
    (s.running = true → (via = .portA ∧ s.host.ctrl = .a) ∨ (via = .portB ∧ s.host.ctrl = .b) →
      exec (.ctrl via target) s = .next { s with host := { s.host with ctrlNext := some target } }) ∧
    (s.running = true → ¬((via = .portA ∧ s.host.ctrl = .a) ∨ (via = .portB ∧ s.host.ctrl = .b)) →
      exec (.ctrl via target) s = .next s)) ∧
  (∀ s : State, s.writeOpen Reg.biasCtl = true → s.hdmCxl = true →
    (s.bit Reg.biasCtl 1 = false → s.running = false →
      ∃ t, exec .biasApply s = .next t ∧
        (∀ p b, (p, b) ∈ t.host.flips ↔
          p < s.hdmPages ∧ b = tableBit (s.view (s.fld Reg.biasTableBase 31 0 * 65536) ((s.hdmPages + 7) / 8)) p ∧
            b ≠ s.host.hostBias.contains p) ∧
        (t.host.flips.map Prod.fst).Pairwise (· < ·) ∧ t.host.hostBias = s.host.hostBias ∧
        t.bit Reg.biasCtl 1 = !t.host.flips.isEmpty ∧ regsKeptBut [Reg.biasCtl] s t) ∧
    (s.bit Reg.biasCtl 1 = false → s.running = true →
      exec .biasApply s = .next { s with host := { s.host with applyWaits := true } }) ∧
    (s.bit Reg.biasCtl 1 = true → exec .biasApply s = .next s)) ∧
  (∀ (page : Nat) (b : Bool) (rest : List (Nat × Bool)) (s : State), s.host.flips = (page, b) :: rest →
    ∃ t c, exec (.biasFlipComplete page) s = .next t ∧ t.host.flips = rest ∧ t.host.hostBias.contains page = c ∧
      (tableBit (s.view (s.fld Reg.biasTableBase 31 0 * 65536 + page / 8) 1) (page % 8) = b → c = b) ∧
      (∀ p, p ≠ page → t.host.hostBias.contains p = s.host.hostBias.contains p) ∧
      t.fld Reg.biasCtl 21 2 = t.host.hostBias.length % 2 ^ 20 ∧
      (rest = [] → t.bit Reg.biasCtl 1 = false) ∧ regsKeptBut [Reg.biasCtl] s t)

/-! ### Accesses to device memory -/

/-- A write through BAR2 or CXL.mem that no rule drops stores each of its bytes at its place, and no other byte of memory changes.
A read through BAR2 answers with the bytes of its places, in order, and changes no byte; a poisoned write is dropped in full
and logged as 0x9008; a read of an address that does not exist answers zeros and logs 0x600C. APPLY runs its flips while RUN
is 0 and waits for the gap while it is 1; the page whose flip has completed leaves the flips. -/
def Obligations.BusAccessesReadAndStore : Prop :=
  (∀ (p : HPort) (off : Nat) (data : Bytes) (ps : List Place) (s : State), s.devState ≠ 5 →
    (ps.map fun pl => cellOf pl.loc).Nodup →
    (∀ src : BusSource, off + data.length ≤ 2 ^ s.bar2Log2 p → s.needsHold (s.bar2Base p + off) = none →
      s.placesOf (busAgent src p) true (s.bar2Base p + off) data.length = some ps → s.guards (busAgent src p) ps = .ok →
      ∃ t, exec (.bar2Access p src ⟨.write off data false, []⟩) s = .next t ∧ memoryKeptBut (ps.map (·.loc)) s t ∧
        ∀ (i : Nat) (h : i < ps.length), t.peek ps[i].loc = data.getD i 0) ∧
    (∀ base size : Nat, s.host.hdm = some (p, base, size) → (s.hport p).cxl = true → off + data.length ≤ size →
      s.needsHold (base + off) = none → s.placesOf (.cxl p) true (base + off) data.length = some ps →
      s.guards (.cxl p) ps = .ok →
      ∃ t, exec (.cxlMemAccess p ⟨.write off data false, []⟩) s = .next t ∧ memoryKeptBut (ps.map (·.loc)) s t ∧
        ∀ (i : Nat) (h : i < ps.length), t.peek ps[i].loc = data.getD i 0)) ∧
  (∀ (p : HPort) (src : BusSource) (off len : Nat) (s : State), s.devState ≠ 5 → off + len ≤ 2 ^ s.bar2Log2 p →
    (∀ ps, s.placesOf (busAgent src p) false (s.bar2Base p + off) len = some ps →
      ∃ t, exec (.bar2Access p src ⟨.read off len, []⟩) s = .next t ∧ memoryKept s t ∧
        ∃ ms, t.out = s.out ++ ms ++ [.busData p (ps.map fun pl => s.peek pl.loc)] ∧ ∀ m ∈ ms, ∃ q n, m = .snoop q n) ∧
    (s.placesOf (busAgent src p) false (s.bar2Base p + off) len = none →
      ∃ u t, exec (.bar2Access p src ⟨.read off len, []⟩) s = .next t ∧ t = u.emit (.busData p (zeroBytes len)) ∧
        Logged { code := 0x600C, cls := 0, unit := (busAgent src p).unit } s u) ∧
    ∀ data : Bytes, data.length = len → ∃ t, exec (.bar2Access p src ⟨.write off data true, []⟩) s = .next t ∧
      Logged { code := 0x9008, cls := 0, unit := { typ := 12, idx := portIdx p, sub := 0 } } s t) ∧
  ((∀ s : State, s.writeOpen Reg.biasCtl = true → s.hdmCxl = true → s.bit Reg.biasCtl 1 = false →
    ∃ v, exec .biasApply s = .next v ∧ v.host.applyWaits = s.running ∧ v.host.hostBias = s.host.hostBias ∧ memoryKept s v ∧
      (s.running = false → v.bit Reg.biasCtl 1 = !v.host.flips.isEmpty)) ∧
  ∀ (page : Nat) (b : Bool) (rest : List (Nat × Bool)) (s : State), s.host.flips = (page, b) :: rest →
    ∃ v, exec (.biasFlipComplete page) s = .next v ∧ v.host.flips = rest ∧ (rest = [] → v.bit Reg.biasCtl 1 = false))

/-! ### Serrin modules -/

/-- A flit that fails CRC counts against its module, which wants repair at 32 failures or at the eighth failure of one flit; a
shorter run of failures adds to the module's count and logs nothing. (RUN 1: removal waits for the gap.) A module that
retrained with at most four failed data lanes and its repair lanes sound maps each of them to a repair lane of its own, keeps
the mappings that it had, and waits to return at full width (RUN 1); one that did not retrain in time is fenced, with
LINK_DEGRADED and one log entry. -/
def Obligations.SerrinModulesRepair : Prop :=
  (∀ (hub n nth : Nat) (s : State), hub < 2 → n < 120 → s.modState hub n = 2 → s.running = true →
    ∃ t, exec (.flitCrcFail hub n nth) s = .next t ∧ (t.modSt hub n).crc = (s.modSt hub n).crc + 1 ∧
      (t.modShared hub n).want = ((s.modShared hub n).want || decide (8 ≤ nth) || decide (32 ≤ (s.modSt hub n).crc + 1)) ∧
      (nth < 8 → onlyRegs [Reg.d2dModStatus hub n] { s with mods := t.mods } t ∧
        t.fld (Reg.d2dModStatus hub n) 23 8 = min (s.fld (Reg.d2dModStatus hub n) 23 8 + 1) 65535) ∧
      (8 ≤ nth → t.reg Reg.errLogHead = s.reg Reg.errLogHead + 1)) ∧
  ((∀ (hub n : Nat) (failed : List Nat) (s : State), hub < 2 → n < 96 → s.modState hub n = 1 → s.running = true →
      (∀ l ∈ failed, l < 64) → ((List.range 64).filter failed.contains).length ≤ 4 →
      ((s.modSt hub n).mapped.map Prod.fst).Nodup → ((s.modSt hub n).mapped.map Prod.snd).Nodup →
      ∃ t, exec (.moduleRetrainDone hub n failed) s = .next t ∧ (t.modSt hub n).back = true ∧
        (∀ x, x ∈ (t.modSt hub n).mapped.map Prod.fst ↔ x ∈ failed) ∧ ((t.modSt hub n).mapped.map Prod.snd).Nodup ∧
        (∀ x ∈ (t.modSt hub n).mapped, 64 ≤ x.2 ∧ x.2 ≤ 67) ∧
        (∀ x ∈ (s.modSt hub n).mapped, x.1 ∈ failed → 64 ≤ x.2 → x.2 ≤ 67 → x ∈ (t.modSt hub n).mapped) ∧ t.modState hub n = 1 ∧
        t.bit (Reg.d2dModStatus hub n) 2 = false ∧
        t.fld (Reg.d2dModStatus hub n) 6 4 = ((List.range 64).filter failed.contains).length) ∧
  (∀ (hub n : Nat) (s : State), hub < 2 → n < 96 → s.modState hub n = 1 → s.running = true → s.test.loss = none →
      (∃ m ∈ connMods n, m ≠ n ∧ s.modState hub m ≠ 3) →
      ∃ t, exec (.moduleRetrainTimeout hub n) s = .next t ∧ t.modState hub n = 3 ∧
        t.reg Reg.errLogHead = s.reg Reg.errLogHead + 1 ∧
        ((s.modSt hub n).degraded = false → t.bit (Reg.d2dModStatus hub n) 7 = true ∧ t.bit (Reg.d2dSummary hub) 22 = true)))

/-! ### The vector engine -/

/-- Each lane-wise instruction of Table 3.27 writes its value to every lane of D that its mask lets through, keeps every other
register, and goes on to the next instruction; nothing else in the machine changes. -/
def Obligations.VectorLanesAreWritten : Prop :=
  ∀ (l opc : Nat) (c : Instr) (f : Nat → Word) (r : RunSlot) (i : VInstr) (s : State), s.atVec l opc r i →
    (let v := s.vec (s.physOf l)
     let a := v.at i.a
     let b := v.at i.b
     (c, opc, f) ∈ ([
      (.vadd l, 0x01, fun n => addRne (a n) (b n)), (.vsub l, 0x02, fun n => subRne (a n) (b n)),
      (.vmul l, 0x03, fun n => mulRne (a n) (b n)), (.vfma l, 0x04, fun n => fma32 (a n) (b n) (v.at i.c n)),
      (.vneg l, 0x05, fun n => a n ^^^ 0x80000000), (.vabs l, 0x06, fun n => a n &&& 0x7FFFFFFF),
      (.vmax l, 0x10, fun n => max32 (a n) (b n)), (.vmin l, 0x11, fun n => min32 (a n) (b n)),
      (.vsel l, 0x13, fun n => if (v.mask i.mkr).getLsbD n then a n else b n),
      (.vamax l, 0x28, fun n => if n % 32 = 0 then amaxOf (((v.vreg i.a).drop n).take 32) else 0),
      (.vrsum l, 0x30, fun n => if n = 0 then laneTree addRne (v.vreg i.a) else 0),
      (.vrmax l, 0x31, fun n => if n = 0 then laneTree max32 (v.vreg i.a) else 0),
      (.vrmin l, 0x32, fun n => if n = 0 then laneTree min32 (v.vreg i.a) else 0),
      (.vexp l, 0x38, fun n => sfuExp (a n)), (.vlog l, 0x39, fun n => sfuLog (a n)), (.vrcp l, 0x3A, fun n => sfuRcp (a n)),
      (.vrsqrt l, 0x3B, fun n => sfuRsqrt (a n)), (.vsin l, 0x3C, fun n => sfuSin (a n)), (.vcos l, 0x3D, fun n => sfuCos (a n)),
      (.vperm l, 0x40, fun n => a ((b n).toNat % 128)), (.vbcast l, 0x41, fun _ => a (i.imm % 128)),
      (.vmovs l, 0x42, fun _ => (v.sreg i.a).setWidth 32)] : List (Instr × Nat × (Nat → Word)))) →
    ∃ w, exec c s = .next (s.vecDone l r w) ∧ laneWrite i f (s.vec (s.physOf l)) w

/-- VCVT writes each lane's value converted to FMT and widened again; VCMP writes the mask bits of its lanes and nothing else;
VSCALE takes its four codes from the scale policy, in which only whether a block is listed is open (log 10); VQPOP takes 128
values from the queue, or waits while it holds fewer. -/
def Obligations.ConvertCompareScaleAndPop : Prop :=
  ∀ (l : Nat) (r : RunSlot) (i : VInstr) (s : State),
    (s.atVec l 0x20 r i → ∃ w, exec (.vcvt l) s = .next (s.vecDone l r w) ∧
      laneWrite i (fun n =>
        let v := s.vec (s.physOf l)
        let x := (List.range 128).map (v.at i.a)
        if i.fmt ≤ 2 then widen (elemValue (operandFmt i.fmt) 0 (convert (vecFmt i.fmt) 0 (fp32 (v.at i.a n))).code)
        else
          let k := convertBlock (i.fmt == 3) (v.scales.getD (n / 32) 0).toNat (((x.drop (32 * (n / 32))).take 32).map fp32)
          widen (elemValue (operandFmt i.fmt) k.scale (k.codes.getD (n % 32) 0))) (s.vec (s.physOf l)) w) ∧
    (s.atVec l 0x12 r i → ∃ w, exec (.vcmp l) s = .next (s.vecDone l r w) ∧
      w = { s.vec (s.physOf l) with masks := w.masks } ∧
      ∀ k n, n < 128 → (w.mask k).getLsbD n =
        if k = i.d ∧ k ≠ 0 ∧ (i.masked = false ∨ ((s.vec (s.physOf l)).mask i.mkr).getLsbD n = true)
        then cmp32 (i.imm % 8) ((s.vec (s.physOf l)).at i.a n) ((s.vec (s.physOf l)).at i.b n)
        else ((s.vec (s.physOf l)).mask k).getLsbD n) ∧
    (s.atVec l 0x29 r i → ∃ (w : VecSt) (listed : Nat → Bool),
      exec (.vscale l) s = .next (({ s with free := s.free + 1 } : State).vecDone l r w) ∧
      w = { s.vec (s.physOf l) with scales := w.scales } ∧ w.scales.length = 4 ∧
      ∀ k, k < 4 → w.scales.getD k 0 = BitVec.ofNat 8
        (s.policyScale (((s.vec (s.physOf l)).sreg i.b).toNat % 65536) (i.fmt == 3) ((s.vec (s.physOf l)).at i.a (32 * k))
          (some ((s.vec (s.physOf l)).scales.getD k 0).toNat) (listed k))) ∧
    (s.atVec l 0x4A r i → (s.vec (s.physOf l)).queue.length < 128 → exec (.vqpop l) s = .next s) ∧
    (s.atVec l 0x4A r i → 128 ≤ (s.vec (s.physOf l)).queue.length →
      ∃ w, exec (.vqpop l) s = .next (s.vecDone l r w) ∧
        w.queue = (s.vec (s.physOf l)).queue.drop 128 ∧
        laneWrite i (fun n => (s.vec (s.physOf l)).queue.getD n 0) (s.vec (s.physOf l))
          { w with queue := (s.vec (s.physOf l)).queue })

/-- Each scalar instruction writes scalar register D, except register 0, modulo 2^64; SLUI changes bits [47:24] only, SSHL and
SSHR shift by IMM[5:0], VEXT takes a lane with zeros above. -/
def Obligations.ScalarRegistersAreWritten : Prop :=
  ∀ (l opc : Nat) (c : Instr) (x : DWord) (r : RunSlot) (i : VInstr) (s : State), s.atVec l opc r i →
    (let v := s.vec (s.physOf l)
     let a := v.sreg i.a
     let b := v.sreg i.b
     (c, opc, x) ∈ ([
      (.sli l, 0x80, BitVec.ofInt 64 i.simm),
      (.slui l, 0x81, (v.sreg i.d &&& ~~~0xFFFFFF000000#64) ||| (BitVec.ofNat 64 i.imm <<< 24)),
      (.sadd l, 0x82, a + b), (.saddi l, 0x83, a + BitVec.ofInt 64 i.simm), (.ssub l, 0x84, a - b), (.smul l, 0x85, a * b),
      (.sand l, 0x86, a &&& b), (.sor l, 0x87, a ||| b), (.sxor l, 0x88, a ^^^ b), (.sshl l, 0x89, a <<< (i.imm % 64)),
      (.sshr l, 0x8A, a >>> (i.imm % 64)), (.vext l, 0x8D, (v.at i.a (i.imm % 128)).setWidth 64)] :
        List (Instr × Nat × DWord))) →
    ∃ w, exec c s = .next (s.vecDone l r w) ∧ scalarWrite i.d x (s.vec (s.physOf l)) w

/-- The loads: VGATH and VWGA write their lanes from core memory and the committed bank, VLD and SLD from the bytes at their
address, FP32 codes as they are and others widened; a core-local load changes nothing but the engine, any load leaves every
byte of memory alone, and an address that may not be read is a program fault. A WGA access whose predecessor's verdict is
still due is held. A core's read of remote homes, while its hub's remote cache is on, looks up each line of the read that lies
in a declared region of the other half: where all of them are there it changes the hits only, and at least one miss is counted
where one is not. -/
def Obligations.VectorLoadsRead : Prop :=
  (∀ (l : Nat) (r : RunSlot) (i : VInstr) (s : State),
    let v := s.vec (s.physOf l)
    let x := s.vecCtx l r i
    (s.atVec l 0x43 r i →
      ((∀ n, n < 128 → v.lane i n = true → loadForbidden (gatherAt v i n).1 (gatherAt v i n).2 = false) →
        ∃ w, exec (.vgath l) s = .next (s.vecDone l r w) ∧
          laneWrite i (fun n => laneOf i.fmt (v.scaleOf n)
            (rowCode (operandFmt i.fmt) (s.coreRead r.core (gatherAt v i n).1 (gatherAt v i n).2)
              (if i.fmt = 4 then (v.at i.b n).toNat % 2 else 0))) v w) ∧
      (∀ n, n < 128 → v.lane i n = true → loadForbidden (gatherAt v i n).1 (gatherAt v i n).2 = true →
        exec (.vgath l) s = .next (s.progFault x.c))) ∧
    (s.atVec l 0x48 r i → i.fmt ≤ 2 → ∀ n, n = elemBytes (operandFmt i.fmt) 128 →
      (∀ b t, s.vecRead x (vecAddr (v.sreg i.a) i.simm) n = some (b, t) → ∃ w, exec (.vld l) s = .next (t.vecDone l r w) ∧
        laneWrite i (fun k => laneOf i.fmt 0 (rowCode (operandFmt i.fmt) b k)) v w) ∧
      (s.vecRead x (vecAddr (v.sreg i.a) i.simm) n = none → exec (.vld l) s = .next (s.progFault x.c))) ∧
    (s.atVec l 0x48 r i → 3 ≤ i.fmt → ∀ sc t b u, s.vecRead x (v.sreg i.b).toNat 4 = some (sc, t) →
      t.vecRead x (vecAddr (v.sreg i.a) i.simm) (elemBytes (operandFmt i.fmt) 128) = some (b, u) →
      ∃ w, exec (.vld l) s = .next (u.vecDone l r w) ∧ w.scales = sc ∧
        laneWrite i (fun k => widen (elemValue (operandFmt i.fmt) (sc.getD (k / 32) 0).toNat (rowCode (operandFmt i.fmt) b k)))
          { v with scales := sc } w) ∧
    (s.atVec l 0x8B r i →
      (∀ b t, s.vecRead x (vecAddr (v.sreg i.a) i.simm) 8 = some (b, t) → ∃ w, exec (.sld l) s = .next (t.vecDone l r w) ∧
        scalarWrite i.d (BitVec.ofNat 64 (leNat b)) v w) ∧
      (s.vecRead x (vecAddr (v.sreg i.a) i.simm) 8 = none → exec (.sld l) s = .next (s.progFault x.c))) ∧
    (s.atVec l 0x4B r i →
      (s.wgaHolds r.beat = false → ∃ w, exec (.vwga l) s = .next (s.vecDone l r w) ∧
        laneWrite i (fun n => s.wgaCommitted r.core ((v.sreg i.a).toNat % 256) (i.imm % 4096 + n)) v w) ∧
      (s.wgaHolds r.beat = true → exec (.vwga l) s = .next (s.holdWga x.c r.core))) ∧
    ∀ a n, (isDevice a = false → loadForbidden a n = false → s.vecRead x a n = some (s.coreRead r.core a n, s)) ∧
      (isDevice a = false → loadForbidden a n = true → s.vecRead x a n = none) ∧
      ∀ b t, s.vecRead x a n = some (b, t) → b.length = n ∧ memoryKept s t) ∧
  (∀ (l addr len half hub die : Nat) (g : RdcRegion) (s : State), die = s.physOf l / 17 → hub = dieHub die → 0 < len →
    addr % 256 + len ≤ 256 → s.bit (Reg.coreMap l) 7 = true → hub ∈ s.tier.rdcOn → s.halfOf addr = some half →
    s.rdcRegion addr = some g →
    (half = hub → exec (.remoteRead l addr len []) s = .next s) ∧
    (half ≠ hub → ∃ v, exec (.remoteRead l addr len []) s = .next v ∧ memoryKept s v ∧
      ((∃ x ∈ s.tier.rdc, x.die = die ∧ x.line = addr / 256) → v.tier.rdc = s.tier.rdc ∧
        v.pair (Reg.rdcHitLo hub) = (s.pair (Reg.rdcHitLo hub) + 1) % 2 ^ 64) ∧
      ((∀ x ∈ s.tier.rdc, ¬(x.die = die ∧ x.line = addr / 256)) →
        (∃ x ∈ v.tier.rdc, x.die = die ∧ x.line = addr / 256 ∧ x.lifetime = g.lifetime) ∧
        v.pair (Reg.rdcMissLo hub) = (s.pair (Reg.rdcMissLo hub) + 1) % 2 ^ 64)))

/-- The stores: SST writes the eight bytes of scalar B; VST writes its lanes converted to FMT, lanes that the mask leaves out
keeping what memory holds, then its four scales for ZF8 and ZF4, and feeds the watch. In core memory no other byte changes,
the engine's registers stay, and the slot goes on; a core-local range past scratch is a program fault. -/
def Obligations.VectorStoresWrite : Prop :=
  ∀ (l : Nat) (r : RunSlot) (i : VInstr) (s : State),
    let v := s.vec (s.physOf l)
    let x := s.vecCtx l r i
    (s.atVec l 0x8C r i → ∀ a, a = vecAddr (v.sreg i.a) i.simm → isDevice a = false →
      (storeForbidden a 8 = false → ∃ t, exec (.sst l) s = .next t ∧
        coreStored r.core a (leBytes 8 (v.sreg i.b).toNat) s t ∧
        t = { s.goesTo l r (r.ptr + 8) with dram := t.dram, comb := t.comb, sram := t.sram }) ∧
      (storeForbidden a 8 = true → exec (.sst l) s = .next (s.progFault x.c))) ∧
    (s.atVec l 0x8C r i → ∀ a, a = vecAddr (v.sreg i.a) i.simm → isDevice a = true → s.vecCanWrite x a 8 = true →
      exec (.sst l) s = .next
        (((s.store (.vector (s.physOf l)) (a % 2 ^ 48) (leBytes 8 (v.sreg i.b).toNat))).nextInstr x)) ∧
    (s.atVec l 0x49 r i → ∀ a, a = vecAddr (v.sreg i.b) i.simm → isDevice a = false → i.fmt ≤ 2 →
      ∀ b : Bytes, b = packCodes (vecFmt i.fmt) ((v.vreg i.a).map fun y => (convert (vecFmt i.fmt) 0 (fp32 y)).code) →
      (storeForbidden a b.length = false → ∃ t, exec (.vst l) s = .next t ∧
        coreStored r.core a (if i.masked then mergeMasked v i b (s.coreRead r.core a b.length) else b) s t ∧
        t.vec (s.physOf l) = v ∧ t.runOf (vectorUnit l) = some { r with ptr := r.ptr + 8, ordinal := r.rankAt (r.ptr + 8), wait := none }) ∧
      (storeForbidden a b.length = true → exec (.vst l) s = .next (s.progFault x.c))) ∧
    (s.atVec l 0x49 r i → ∀ a, a = vecAddr (v.sreg i.b) i.simm →
      (i.fmt ≤ 2 → ∀ b : Bytes, b = packCodes (vecFmt i.fmt) ((v.vreg i.a).map fun y => (convert (vecFmt i.fmt) 0 (fp32 y)).code) →
        i.masked = false → s.vecCanWrite x a b.length = true →
        ∃ dl, exec (.vst l) s =
          .next (((s.vecWrite x a b).feed (r.core / 32) (some r.beat) ((v.sreg i.d).toNat % 65536) dl).nextInstr x)) ∧
      (3 ≤ i.fmt → ∀ bs : List Block, bs = (List.range 4).map (fun k => v.block i.fmt k (v.vreg i.a)) →
        ∀ b : Bytes, b = packCodes (vecFmt i.fmt) (bs.flatMap (·.codes)) →
        i.masked = false → s.vecCanWrite x a b.length = true → s.vecCanWrite x (v.sreg i.c).toNat 4 = true →
        ∃ dl, exec (.vst l) s =
          .next ((((s.vecWrite x a b).vecWrite x (v.sreg i.c).toNat (bs.map fun k => BitVec.ofNat 8 k.scale)).feed
            (r.core / 32) (some r.beat) ((v.sreg i.d).toNat % 65536) dl).nextInstr x)))

/-- Branches go to the instruction at this one plus eight times the immediate when their condition holds, else to the next; LOOP
writes its counter first. A target outside the program region is a program fault. WAIT takes one from its counter or stands;
SIGNAL raises a counter of its own core at once and sends the signal to another; END ends the routine. The oldest signal under
way between two dies raises its counter by one, from 0 to 0xFFFE; at 0xFFFF the counter stays and the signalling core takes a
program fault. A standing op whose counter is nonzero takes one from it and may start. -/
def Obligations.VectorControlFlow : Prop :=
  ((∀ (l opc : Nat) (c : Instr) (taken : Bool) (r : RunSlot) (i : VInstr) (s : State), s.atVec l opc r i →
    (let v := s.vec (s.physOf l)
     (c, opc, taken) ∈ ([(.br l, 0x90, true), (.beqz l, 0x91, decide (v.sreg i.a = 0)), (.bnez l, 0x92, decide (v.sreg i.a ≠ 0)),
      (.blt l, 0x93, decide ((v.sreg i.a).toInt < (v.sreg i.b).toInt))] : List (Instr × Nat × Bool))) →
    (taken = false → exec c s = .next (s.goesTo l r (r.ptr + 8))) ∧
    ∀ k : Int, k = r.ptr + 8 * i.simm → taken = true →
      (0 ≤ k → k < 0x100000 → exec c s = .next (s.goesTo l r k.toNat)) ∧
      (k < 0 ∨ 0x100000 ≤ k → exec c s = .next (s.progFault (s.vecCtx l r i).c))) ∧
  (∀ (l : Nat) (r : RunSlot) (i : VInstr) (s : State), s.atVec l 0x94 r i →
    ∃ w, scalarWrite i.a ((s.vec (s.physOf l)).sreg i.a - 1) (s.vec (s.physOf l)) w ∧
      ((s.vec (s.physOf l)).sreg i.a = 1 → exec (.loop l) s = .next (s.vecDone l r w)) ∧
      ∀ k : Int, k = r.ptr + 8 * i.simm → (s.vec (s.physOf l)).sreg i.a ≠ 1 → 0 ≤ k → k < 0x100000 →
        exec (.loop l) s = .next ((s.setVec (s.physOf l) w).goesTo l r k.toNat)) ∧
  (∀ (l : Nat) (r : RunSlot) (i : VInstr) (s : State), s.atVec l 0x98 r i →
    r.wait ≠ some (i.imm % 32, true) →
    (0 < s.counter r.core (i.imm % 32) → ∃ t, exec (.wait l) s = .next t ∧
      t.counter r.core (i.imm % 32) = s.counter r.core (i.imm % 32) - 1 ∧
      t = { s.goesTo l r (r.ptr + 8) with cores := t.cores } ∧
      ∀ d k, k < 32 → ¬(d = r.core ∧ k = i.imm % 32) → t.counter d k = s.counter d k) ∧
    (s.counter r.core (i.imm % 32) = 0 →
      exec (.wait l) s = .next (s.setUnit (vectorUnit l)
        { s.unit (vectorUnit l) with run := some { r with wait := some (i.imm % 32, false) } }))) ∧
  (∀ (l : Nat) (r : RunSlot) (i : VInstr) (s : State), s.atVec l 0x99 r i → ∀ d k, d = i.imm / 32 % 64 → k = i.imm % 32 →
    (d ≠ r.core → exec (.signal l) s = .next (({ s with cores := { s.cores with
      signals := s.cores.signals ++ [(r.core, d, k)] } } : State).goesTo l r (r.ptr + 8))) ∧
    (d = r.core → s.counter d k < 0xFFFF → exec (.signal l) s =
      .next ((s.setCounter d k (s.counter d k + 1)).goesTo l r (r.ptr + 8)))) ∧
  (∀ (l : Nat) (r : RunSlot) (i : VInstr) (s : State), s.atVec l 0x9F r i →
    exec (.endRoutine l) s = .next (s.setUnit (vectorUnit l) { s.unit (vectorUnit l) with run := some { r with ended := true } }))) ∧
  ((∀ (src dst c : Nat) (s : State), c < 32 → s.nextSignal src dst = some (src, dst, c) → s.counter dst c < 0xFFFF →
      ∃ t, exec (.signalArrival src dst c) s = .next t ∧ t.counter dst c = s.counter dst c + 1 ∧
        t.cores.signals = s.cores.signals.erase (src, dst, c) ∧
        (∀ l k, k < 32 → ¬(l = dst ∧ k = c) → t.counter l k = s.counter l k) ∧ t = { s with cores := t.cores }) ∧
  (∀ (src dst c : Nat) (s : State), s.nextSignal src dst = some (src, dst, c) → s.counter dst c = 0xFFFF →
      exec (.signalArrival src dst c) s = .next ((({ s with cores := { s.cores with
          signals := s.cores.signals.erase (src, dst, c) } } : State)).progFault
            { unit := vectorUnit src, phys := s.physOf src, place := none, beat := none })) ∧
  (∀ (u : UnitId) (r : RunSlot) (c : Nat) (s : State), s.runOf u = some r → r.wait = some (c, false) → c < 32 →
      0 < s.counter r.core c →
      ∃ t, exec (.waitSatisfied u) s = .next t ∧ t.counter r.core c = s.counter r.core c - 1 ∧
        t.runOf u = some (if u.cls = 2 then { r with wait := none, ptr := r.ptr + 8, ordinal := (r.ordinal + 1) % 16384 }
          else { r with wait := some (c, true) }) ∧
        t = { s with cores := t.cores, units := t.units }))

/-- An instruction with a reserved opcode or field value is a program fault under every row, a valid one does nothing under the
rows of other opcodes, and a program fault sets PROG_FAULT and brings the device to FAILED with code 0x300B. -/
def Obligations.InvalidInstructionsFault : Prop :=
  (∀ (l opc : Nat) (c : Instr) (r : RunSlot) (s : State), (c, opc) ∈ vectorCommands l → s.runOf (vectorUnit l) = some r →
    ((s.instrAt r).valid = false → exec c s = .next (s.progFault (s.errCtx (vectorUnit l) r))) ∧
    ((s.instrAt r).valid = true → (s.instrAt r).opc ≠ opc → exec c s = .next s)) ∧
  ∀ (s : State) (c : ErrCtx), s.devState ≠ 7 →
    (s.progFault c).devState = 7 ∧ (s.progFault c).fld Reg.devState 31 16 = 0x300B ∧ memoryKept s (s.progFault c) ∧
      (c.phys < 128 → s.host.runs = [] → s.nothingWaits → (s.progFault c).bit (Reg.sramErr c.phys) 23 = true)

/-! ### Numbers -/

/-- Maximum and minimum of any two FP32 codes: NaN when either is NaN, otherwise the greater or lesser by value with −0 below +0,
in either operand order. The seven predicates of Table 4.7 on any two FP32 codes, by the exact values of the codes. -/
def Obligations.MaxMinAndPredicates : Prop :=
  (∀ a b : Word,
    ((fp32 a = .nan ∨ fp32 b = .nan) → max32 a b = 0x7FC00000 ∧ min32 a b = 0x7FC00000) ∧
    (fp32 a ≠ .nan → fp32 b ≠ .nan →
      ((fp32 a).lt (fp32 b) → max32 a b = b ∧ max32 b a = b ∧ min32 a b = a ∧ min32 b a = a) ∧
      (a = 0x80000000 → b = 0 → max32 a b = b ∧ max32 b a = b ∧ min32 a b = a ∧ min32 b a = a) ∧
      max32 a a = a ∧ min32 a a = a)) ∧
  (∀ a b : Word,
    (cmp32 0 a b = true ↔ (fp32 a).same (fp32 b)) ∧ (cmp32 1 a b = true ↔ ¬(fp32 a).same (fp32 b)) ∧
    (cmp32 2 a b = true ↔ (fp32 a).lt (fp32 b)) ∧ (cmp32 3 a b = true ↔ (fp32 a).lt (fp32 b) ∨ (fp32 a).same (fp32 b)) ∧
    (cmp32 4 a b = true ↔ (fp32 b).lt (fp32 a)) ∧ (cmp32 5 a b = true ↔ (fp32 b).lt (fp32 a) ∨ (fp32 a).same (fp32 b)) ∧
    (cmp32 6 a b = true ↔ fp32 a = .nan ∨ fp32 b = .nan))

/-- A finite source saturates exactly from the threshold of Table 4.4 on, becomes zero exactly up to the other one, and never
gives NaN or an infinity, in every target format and at every target scale. Special inputs of the SFU, as Table 5.4 lists
them. -/
def Obligations.ConversionThresholds : Prop :=
  (∀ (f : Fmt) (t : Int) (neg : Bool) (m : Nat) (e : Int),
    let x := (m : ℚ) * (2 : ℚ) ^ (e - t)
    let c := convert f t (.fin neg m e)
    (c.sat = true ↔ f.saturatesAt ≤ x) ∧ (c.isZero = true ↔ x ≤ f.zeroUpTo) ∧ c.isNan = false ∧ c.isInf = false) ∧
  ((∀ x : Word, fp32 x = .nan → ∀ f ∈ [sfuExp, sfuLog, sfuRcp, sfuRsqrt, sfuSin, sfuCos], f x = 0x7FC00000) ∧
  (∀ x : Word, ((Fp.fin false 128 0).lt (fp32 x) ∨ (Fp.fin false 128 0).same (fp32 x)) → sfuExp x = 0x7F800000) ∧
  (∀ x : Word, ((fp32 x).lt (Fp.fin true 160 0) ∨ (fp32 x).same (Fp.fin true 160 0)) → sfuExp x = 0) ∧
  (∀ x : Word, (fp32 x).lt (Fp.fin false 0 0) → sfuLog x = 0x7FC00000 ∧ sfuRsqrt x = 0x7FC00000) ∧
  sfuLog 0 = 0xFF800000 ∧ sfuLog 0x80000000 = 0xFF800000 ∧ sfuLog 0x7F800000 = 0x7F800000 ∧
  sfuRcp 0 = 0x7F800000 ∧ sfuRcp 0x80000000 = 0xFF800000 ∧ sfuRcp 0x7F800000 = 0 ∧ sfuRcp 0xFF800000 = 0x80000000 ∧
  sfuRsqrt 0 = 0x7F800000 ∧ sfuRsqrt 0x80000000 = 0xFF800000 ∧ sfuRsqrt 0x7F800000 = 0 ∧
  sfuSin 0x7F800000 = 0x7FC00000 ∧ sfuSin 0xFF800000 = 0x7FC00000 ∧ sfuSin 0 = 0 ∧ sfuSin 0x80000000 = 0x80000000 ∧
  sfuCos 0x7F800000 = 0x7FC00000 ∧ sfuCos 0xFF800000 = 0x7FC00000 ∧ sfuCos 0 = 0x3F800000 ∧ sfuCos 0x80000000 = 0x3F800000)

/-! ### Array ops -/

/-- An array op computes its product from its operands, counts its passes, marks a product of zero and infinity, drains to its
target and goes on to its next descriptor. With its output in core memory it stores the converted rows at their pitch and the
scales of ZF8 after them; with the vector input queue it appends the product as far as the queue has room, and goes on once
all of it is in; an empty op only signals. No other byte of memory changes but those of the array's partial-sum area, which
hold free values afterwards (DESIGN CHOICE, log 130). A descriptor of opcode 0 ends the list; one that R157 calls invalid is a
program fault under every row; an op whose counter is 0 stands at its wait. -/
def Obligations.ArrayOpsComplete : Prop :=
  (∀ (l arr opc : Nat) (c : Instr) (r : RunSlot) (d : ArrDesc) (s : State),
    (c, opc) ∈ [(Instr.real l arr [], 1), (.complex l arr [], 2), (.fp32x6 l arr [], 3)] →
    s.runOf (arrayUnit l arr) = some r → r.rest = [] → s.descAt r = d → d.valid = true → d.opcode = opc → d.wait < 128 →
    (let x := s.errCtx (arrayUnit l arr) r
     let ag : Agent := .array x.phys ((3 * l + arr) % 3)
     let area := (s.corePlaces r.core (0x1640000 + 0x40000 * ((3 * l + arr) % 3)) 0x40000).filterMap id
     let next : RunSlot := { r with ptr := r.ptr + 64, ordinal := r.ordinal + 1, wait := none }
     (d.m = 0 ∨ d.n = 0 → d.signal < 32768 → exec c s = .next (s.setRun (arrayUnit l arr) next)) ∧
     (d.m = 0 ∨ d.n = 0 → 32768 ≤ d.signal →
       exec c s = .next ((s.sendSignal x r.core (d.signal / 32 % 64) (d.signal % 32)).setRun (arrayUnit l arr) next)) ∧
     ∀ (o : Operands) (bias : Bytes) (p : Product) (b u : State), d.m ≠ 0 → d.n ≠ 0 → d.signal < 32768 →
      s.readOperands ag r.core d = .ok (o, bias) → p = d.compute (s.arrCtx r) o bias →
      b = ((d.reads.foldl (fun (v : State) z => v.touchOperand ag z.1 z.2) s).bumpPair (Reg.passCntLo x.phys) d.passes).keepSums
            r.core ((3 * l + arr) % 3) d →
      u = (if p.zxi then b.setBit (Reg.arrayErr x.phys) (4 * ((3 * l + arr) % 3) + 2) true else b) →
      (d.target = 0 → ∀ ps : List (Nat × Bytes), ps = d.pieces (u.drain d p.rows) →
        (∀ z ∈ ps, storeForbidden z.1 z.2.length = false) → (d.outRows = 1 ∨ ∀ z ∈ (u.drain d p.rows).rows, z.length ≤ d.outPitch) →
        ∃ t, exec c s = .next t ∧ t.pair (Reg.passCntLo x.phys) = (s.pair (Reg.passCntLo x.phys) + d.passes) % 2 ^ 64 ∧
          t.runOf (arrayUnit l arr) = some next ∧
          (∀ z ∈ ps, ∀ k y, k < z.2.length → s.coreLoc r.core (z.1 + k) = some y → t.peek y = z.2.getD k 0) ∧
          memoryKeptBut (area ++ ps.flatMap fun z => (s.corePlaces r.core z.1 z.2.length).filterMap id) s t) ∧
      (d.target = 1 → ∀ ps : List (Nat × Bytes), ps = d.pieces (u.drain d p.rows) →
        (∀ z ∈ ps, (u.placesOf ag true z.1 z.2.length).isSome = true ∧ u.hitsCore true z.1 z.2.length = false) →
        exec c s = .next (((ps.foldl (fun (v : State) z => v.store ag z.1 z.2) u).feedDrain d
          (s.arrCtx r) r.beat (u.drain d p.rows) p.zxi (d.drainSr (s.arrCtx r))).setRun (arrayUnit l arr) next)) ∧
      (d.target = 2 → s.wgaHolds r.beat = true → d.lastTile < s.wgaTiles r.core → d.lastTile < 256 →
        exec c s = .next ((s.setRun (arrayUnit l arr) { r with wait := none }).holdWga x r.core)) ∧
      (d.target = 2 → s.wgaHolds r.beat = false → d.lastTile < s.wgaTiles r.core → d.lastTile < 256 →
        ∃ v t, v = u.wgaAccumulate d (s.arrCtx r) p.rows ∧ exec c s = .next t ∧ t.runOf (arrayUnit l arr) = some next ∧
          memoryKept v t ∧ t.cores.vec = s.cores.vec) ∧
      (d.target = 3 → (s.vec x.phys).queue.length + (queueOrder d.n p.rows).length ≤ 16384 →
        ∃ t, exec c s = .next t ∧ memoryKeptBut area s t ∧ t.runOf (arrayUnit l arr) = some next ∧
          (t.vec x.phys).queue = (s.vec x.phys).queue ++ queueOrder d.n p.rows) ∧
      (d.target = 3 → (s.vec x.phys).queue.length ≤ 16384 → 16384 < (s.vec x.phys).queue.length + (queueOrder d.n p.rows).length →
        ∃ t q, exec c s = .next t ∧ memoryKeptBut area s t ∧ t.runOf (arrayUnit l arr) = some q ∧ q.ptr = r.ptr ∧
          (t.vec x.phys).queue.length = 16384 ∧
          (t.vec x.phys).queue ++ q.rest = (s.vec x.phys).queue ++ queueOrder d.n p.rows))) ∧
  (∀ (l arr : Nat) (errs : List HwErr) (r : RunSlot) (s : State), s.runOf (arrayUnit l arr) = some r →
    ((s.descAt r).opcode = 0 →
      exec (.endOfSequence l arr) s = .next (s.setUnit (arrayUnit l arr)
        { s.unit (arrayUnit l arr) with run := some { r with ended := true } }) ∧
      ∀ c ∈ [Instr.real l arr errs, .complex l arr errs, .fp32x6 l arr errs], exec c s = .next s) ∧
    ((s.descAt r).opcode ≠ 0 → exec (.endOfSequence l arr) s = .next s ∧ ((s.descAt r).valid = false →
      ∀ c ∈ [Instr.real l arr errs, .complex l arr errs, .fp32x6 l arr errs],
        exec c s = .next (s.progFault (s.errCtx (arrayUnit l arr) r)))) ∧
    ((s.descAt r).valid = true → r.rest = [] → 128 ≤ (s.descAt r).wait → r.wait ≠ some ((s.descAt r).wait % 32, true) →
      s.counter r.core ((s.descAt r).wait % 32) = 0 →
      ∀ z ∈ [(Instr.real l arr errs, 1), (.complex l arr errs, 2), (.fp32x6 l arr errs, 3)], (s.descAt r).opcode = z.2 →
        exec z.1 s = .next (s.setUnit (arrayUnit l arr)
          { s.unit (arrayUnit l arr) with run := some { r with wait := some ((s.descAt r).wait % 32, false) } })))

/-- The order of a sum: the terms of one group of 64 in ascending k form a chain, the first taken as it is; the groups are added
in ascending order; a bias is added last, in one rounding. -/
def Obligations.SumsFollowTheReferenceOrder : Prop :=
  ∀ (d : ArrDesc) (x : ArrCtx) (o : Operands) (bias : Bytes) (i j : Nat), d.opcode = 1 → d.drainSr x = false → i < d.m → j < d.n →
    let t (k : Nat) : Word :=
      term (d.statAt (o.stat.getD 0 { rows := [], scales := [] }) k j) (d.strmAt (o.strm.getD 0 { rows := [], scales := [] }) i k)
    let group (g : Nat) : Word :=
      ((List.range (min 64 (d.k - 64 * g) - 1)).foldl (fun y k => addRne y (t (64 * g + k + 1))) (t (64 * g)))
    let y : Word := (List.range ((d.k + 63) / 64 - 1)).foldl (fun y g => addRne y (group (g + 1))) (if d.k = 0 then 0 else group 0)
    (((d.compute x o bias).rows.getD i []).getD j 0) = if d.hasBias then addRne y (wordAt bias (4 * j)) else y

/-! ### The fingering -/

/-- LOAD makes a slot VERIFYING with BUSY, protects IMAGE_SIZE bytes rounded up to 4 KiB from its base, and forgets the image that
stood there, while what earlier LOADs protected stays protected; VERIFY_DONE ends BUSY and makes the slot LOADED with the
image, or REFUSED with the code of the first check that fails, with its protection; EVICT makes a slot EMPTY. The other slot
and every byte of memory stay, except that the first image to be loaded sets the group modes. START of a LOADED slot that the
checks of START let pass begins its run: the slot is RUNNING, the period and the verdict delay are the header's, the watch is
empty, and the plan stands before position 0; a check that fails is the refusal's code. STOP while a slot runs is taken at the
next verdict. In FAILED a START is refused with 0x2012 (DESIGN CHOICE, log 41). -/
def Obligations.SlotsAndRunsBegin : Prop :=
  (∀ (f : FSlot) (s : State),
    (s.writeOpen Reg.fingCtl = true → s.fingBusy = false → (s.slot f).state ≠ 3 → ∀ u, u = s.leaveHold →
      (∃ t, exec (.load f) s = .next t ∧ t.slot (otherSlot f) = s.slot (otherSlot f) ∧ memoryKept s t ∧ t.fingBusy = true ∧
        (t.slot f).state = 1 ∧ (t.slot f).fing = none ∧ (t.slot f).alone = s.noneLoaded ∧ (∀ a, s.inImage a = true → t.inImage a = true) ∧ (t.slot f).lo = u.slotBaseAddr f ∧
        (t.slot f).hi = u.slotBaseAddr f + protectedLen (leNat (u.view (u.slotBaseAddr f + 8) 4)) ∧
        t.fld Reg.fingStatus (match f with
          | .a => 2
          | .b => 5) (match f with
          | .a => 0
          | .b => 3) = 1) ∧
      ∃ t, exec (.evict f) s = .next t ∧ t.slot (otherSlot f) = s.slot (otherSlot f) ∧ memoryKept s t ∧
        t.slot f = .reset ∧ t.fld Reg.fingStatus 31 16 = 0) ∧
    ((s.slot f).state = 1 → s.esz.fw.isSome = true →
      (∀ r, (s.setBit Reg.fingStatus 8 false).checkImage f = .error r →
        ∃ t, exec (.verifyDone f) s = .next t ∧ t.slot f = { s.slot f with state := 4, fing := none } ∧
          t.slot (otherSlot f) = s.slot (otherSlot f) ∧ t.fingBusy = false ∧ t.fld Reg.fingStatus 31 16 = r.code % 65536 ∧
          memoryKept s t) ∧
      ∀ g, (s.setBit Reg.fingStatus 8 false).checkImage f = .ok g →
        ∃ t, exec (.verifyDone f) s = .next t ∧ t.slot f = { s.slot f with state := 2, fing := some g } ∧
          t.slot (otherSlot f) = s.slot (otherSlot f) ∧ t.fingBusy = false ∧ t.fld Reg.fingStatus 31 16 = 0 ∧
          ((s.slot f).alone = false → memoryKept s t ∧ t.modes = s.modes))) ∧
  ((∀ (f : FSlot) (t : Nat) (g : Fing) (s u : State), s.writeOpen Reg.fingCtl = true → s.fingBusy = false → s.runSlot = none →
    (s.slot f).state = 2 → (s.slot f).fing = some g → s.devState ≠ 7 →
    u = ((s.at t).leaveHold).startHomes g →
    (u.startRefusal f g = none → ∃ v, exec (.start f t) s = .next v ∧ (v.slot f).state = 3 ∧ v.fld Reg.fingStatus 31 16 = 0 ∧
      v.bit Reg.fingStatus 6 = decide (f = .b) ∧ v.fld Reg.beatPeriod 23 0 = g.hdr.period % 2 ^ 24 ∧
      v.fld Reg.beatCtl 31 16 = g.hdr.verdictDelay % 2 ^ 16 ∧ v.watch = [] ∧ v.beat.nextPos = 0 ∧ v.beat.cycle = 0 ∧
      v.beat.waiting = true ∧ v.beat.win = none ∧ v.host.runs = [] ∧ memoryKept u v ∧ v.cores = u.cores) ∧
    ∀ r b, u.startRefusal f g = some (r, b) → ∃ v, exec (.start f t) s = .next v ∧
      v.fld Reg.fingStatus 31 16 = r.code % 65536 ∧ (v.slot f).state = (if b then 4 else (u.slot f).state) ∧ memoryKept u v) ∧
  (∀ (f : FSlot) (t : Nat) (s : State), s.writeOpen Reg.fingCtl = true → s.fingBusy = false → s.devState = 7 →
    ∃ v, exec (.start f t) s = .next v ∧ v.fld Reg.fingStatus 31 16 = 0x2012 ∧ v.slotA = s.slotA ∧ v.slotB = s.slotB) ∧
  ∀ s : State, s.writeOpen Reg.fingCtl = true → s.fingBusy = false → s.runSlot.isSome = true →
    ∃ v, exec .stop s = .next v ∧ v.beat.stopNow = true ∧ v.fld Reg.fingStatus 31 16 = 0 ∧
      onlyLog [Reg.fingStatus] { s with beat := { s.beat with stopNow := true } } v)

/-- R113, Table 2.20: operations that cannot run are refused: with 0x2012 while BUSY, for a START of a slot that is not LOADED or
while a slot runs, and for a STOP with nothing running; with 0x200E for a LOAD or EVICT of the RUNNING slot. A refusal writes
its code and one log entry of class RF, and leaves the slots and memory alone. -/
def Obligations.OperationsAreRefused : Prop :=
  ∀ (f : FSlot) (t : Nat) (c : Instr) (code : Nat) (s : State), s.writeOpen Reg.fingCtl = true →
    (s.fingBusy = true ∧ code = 0x2012 ∧ c ∈ [Instr.load f, .evict f, .start f t, .stop]) ∨
    (s.fingBusy = false ∧ (s.slot f).state = 3 ∧ code = 0x200E ∧ c ∈ [Instr.load f, .evict f]) ∨
    (s.fingBusy = false ∧ (s.runSlot.isSome = true ∨ (s.slot f).state ≠ 2) ∧ code = 0x2012 ∧ c = .start f t) ∨
    (s.fingBusy = false ∧ s.runSlot = none ∧ code = 0x2012 ∧ c = .stop) →
    ∃ v, exec c s = .next v ∧ v.fld Reg.fingStatus 31 16 = code ∧ v.slotA = s.slotA ∧ v.slotB = s.slotB ∧ memoryKept s v ∧
      v.reg Reg.errLogHead = s.reg Reg.errLogHead + 1 ∧
      v.reg (Reg.errLog ((s.reg Reg.errLogHead).toNat % 256) 0) = BitVec.ofNat 32 (code + 65536 * 7)

/-! ### Power, temperature and clocks -/

/-- READY goes to HOLD by HOLD_REQ, by AUTO_HOLD with its enable and no slot VERIFYING, and when the last port leaves D0 with
nothing running; no other state does. HOLD_EXIT, and nothing else of these, returns HOLD to READY. Wakes: a unit whose next
event is within its wake time becomes ACTIVE; an unplanned wake counts in WAKE_CNT. Clocks: a domain that unlocks stops and
sets PLL_LOST; one that relocks goes on and logs 0xA011, of class RP; one that does not relock in time ends the run and marks
the device lost, or stops boot with 0xA020; a crossing that times out is logged and its reader gets ones. -/
def Obligations.HoldWakesAndClocks : Prop :=
  (∀ s : State,
    (s.devState = 3 → ∃ t, exec .holdReq s = .next t ∧ t.devState = 5 ∧ memoryKept s t ∧
      t.tier.edram = s.tier.edram.map (fun x => (x.1, x.2.1, false))) ∧
    (s.devState ≠ 3 → exec .holdReq s = .next s ∧ exec .autoHold s = .next s) ∧
    (s.devState = 3 → s.bit Reg.pwrCtl 1 = true → s.slotA.state ≠ 1 → s.slotB.state ≠ 1 →
      ∃ t, exec .autoHold s = .next t ∧ t.devState = 5 ∧ memoryKept s t) ∧
    (s.devState = 3 → (s.bit Reg.pwrCtl 1 = false ∨ s.slotA.state = 1 ∨ s.slotB.state = 1) → exec .autoHold s = .next s) ∧
    (s.devState = 5 → ∃ t, exec .holdExit s = .next t ∧ t.devState = 3 ∧ memoryKept s t) ∧
    (s.devState ≠ 5 → exec .holdExit s = .next s) ∧
    ∀ (p : HPort) (d3 : Bool), (s.hport p).up = true →
      ∃ t, exec (.dStateChange p d3) s = .next t ∧ memoryKept s t ∧
        t.fld Reg.devState (match p with
          | .a => 6
          | .b => 8) (match p with
          | .a => 5
          | .b => 7) = (if d3 then 3 else 0) ∧
        t.devState = (if s.devState = 3 ∧ s.running = false ∧ d3 = true ∧ s.portUp (match p with
          | .a => .b
          | .b => .a) = false then 5 else s.devState) ∧
        (d3 = true → t.portUp p = false) ∧ (d3 = false → t.portUp p = true)) ∧
  ((∀ (u : UnitId) (t e : Nat) (s : State), (s.unit u).fenced = false → (s.unit u).power ≠ 0 → s.running = true →
    s.nextEvent u = some e → e ≤ t + (if (s.unit u).power = 1 then 4 else wakeNs (s.unit u).power) →
    ∃ v, exec (.wakeStart u t) s = .next v ∧ (v.unit u) = { s.unit u with power := 0 }) ∧
  (∀ (u : UnitId) (t : Nat) (s : State), (s.unit u).fenced = false → (s.unit u).power ≠ 0 →
    ∃ v, exec (.unplannedWake u t) s = .next v ∧ v.fld Reg.wakeCnt 15 0 = min 65535 (s.fld Reg.wakeCnt 15 0 + 1)) ∧
  (∀ (d : Nat) (s : State), s.power.powerOk = true → pllDomain d = true → d ∉ s.power.stopped →
    ∃ v, exec (.pllUnlock d) s = .next v ∧ v.power = { s.power with stopped := s.power.stopped ++ [d] } ∧
      v.bit Reg.xingStatus 1 = true ∧ v = { s with regs := v.regs, power := v.power } ∧ regsKeptBut [Reg.xingStatus] s v) ∧
  ∀ (d : Nat) (s : State), d ∈ s.power.stopped → s.power.thermtrip = false →
    (∃ v, exec (.pllRelock d) s = .next v ∧ v.power.stopped = s.power.stopped.filter (· ≠ d) ∧
      v.reg Reg.errLogHead = s.reg Reg.errLogHead + 1 ∧
      v.reg (Reg.errLog ((s.reg Reg.errLogHead).toNat % 256) 0) = BitVec.ofNat 32 (0xA011 + 65536)) ∧
    (s.devState ≠ 7 → ∃ v, exec (.pllRelockTimeout d) s = .next v ∧
      (s.devState = 1 ∨ s.devState = 2 → v.devState = 7 ∧ v.fld Reg.devState 31 16 = 0xA020) ∧
      (s.devState ≠ 1 → s.devState ≠ 2 → v.bit Reg.lostCoord 14 = true ∧ (s.nothingWaits → v.running = false))) ∧
    ∀ r off, ∃ v, exec (.crossingTimeout d (some (r, off))) s = .next v ∧
      Out.regData r off 0xFFFFFFFF ∈ v.out ∧ v.bit Reg.xingStatus 0 = true ∧
      v.reg Reg.errLogHead = s.reg Reg.errLogHead + 1)

/-- A power sample is shown, its energy is added, and the fast clamp asserts above 2,400 W with step 8 and clears at or below the
effective cap; the step rises by one while the average exceeds the cap and falls by one below 15/16 of it. A reading shows
each present die's temperature and keeps its maximum, and a compute die's step rises at 100 °C and falls below 97 °C. -/
def Obligations.PowerAndTemperatureSteps : Prop :=
  (∀ (p : PowerSample) (s : State), s.power.powerOk = true →
    ∃ t, exec (.powerSample p) s = .next t ∧ t.fld Reg.pwrNow 15 0 = min 65535 p.p10 ∧ t.fld Reg.pwrNow 31 16 = min 65535 p.p1m ∧
      t.pair Reg.energyLo = (s.pair Reg.energyLo + p.energy) % 2 ^ 64 ∧
      (2400 < p.p10 → t.fld Reg.throttle 3 0 = 8 ∧ t.bit Reg.throttle 20 = true) ∧
      (p.p10 ≤ 2400 → t.fld Reg.throttle 3 0 = s.fld Reg.throttle 3 0 ∧
        t.bit Reg.throttle 20 = (s.bit Reg.throttle 20 && decide (s.effectiveCap < p.p10))) ∧
      onlyLog [Reg.pwrNow, Reg.energyLo, Reg.energyLo + 4, Reg.throttle, Reg.devState] s t) ∧
  (∀ (below : Bool) (s : State), s.power.powerOk = true → s.beat.win = none →
    ∃ t, exec (.powerStepUpdate below) s = .next t ∧
      t.fld Reg.throttle 3 0 =
        (if s.effectiveCap < s.fld Reg.pwrNow 31 16 then min 8 (s.fld Reg.throttle 3 0 + 1)
         else if below = true ∧ s.bit Reg.throttle 20 = false then s.fld Reg.throttle 3 0 - 1 else s.fld Reg.throttle 3 0) ∧
      onlyLog [Reg.throttle, Reg.devState] s t) ∧
  (∀ (temps : Temps) (d k : Nat) (s : State), s.power.powerOk = true → s.power.thermtrip = false → s.tripUnit temps = none →
    d < 22 → temps.dies[d]? = some (some k) → s.diePresent (tempDie d).1 (tempDie d).2 = true →
    ∃ t, exec (.thermalRead temps) s = .next t ∧ t.fld (Reg.temp d) 7 0 = min 255 k ∧ t.bit (Reg.temp d) 8 = true ∧
      t.fld (Reg.temp d) 18 11 = max (min 255 k) (s.fld (Reg.temp d) 18 11) ∧
      t.bit (Reg.temp d) 9 = (decide (100 ≤ k) || (s.bit (Reg.temp d) 9 && decide (97 ≤ k)))) ∧
  ∀ (die : Nat) (s : State), die < 4 → s.cdiePresent die = true → s.bit (Reg.temp die) 8 = true →
    ∃ t, exec (.thermalStepTick die) s = .next t ∧
      t.thermStep die = (if 100 ≤ s.fld (Reg.temp die) 7 0 then min 8 (s.thermStep die + 1)
        else if s.fld (Reg.temp die) 7 0 < 97 then s.thermStep die - 1 else s.thermStep die) ∧
      onlyLog [Reg.throttle, Reg.devState] s t

/-! ### The beat -/

/-- A marker whose instant has come starts its window at that instant with the position that is due: RUN, BEAT_COUNT, the period
of the header at its stretch, event counters of 0, and BEAT_OUT; the running window joins those that await their verdict, with
its gap begun. A marker of another position is 0x8024, of class FT; one of an old epoch or of a counted window is discarded.
20,000 ns after START a device of a cascade of one issues the first marker of its run itself. -/
def Obligations.MarkersStartWindows : Prop :=
  (∀ (t : Nat) (m : DueMarker) (f : FSlot) (g : Fing) (s : State), dueMarker t s.beat.markers = some m → s.runSlot = some f →
    s.fing = some g → ∀ rest, rest = s.beat.markers.filter (fun x => !(x == m)) →
    (s.casc.hold = false → s.pair Reg.beatCountLo < m.beat → m.epoch = s.casc.epoch → s.casc.adopting = none →
      s.bit Reg.cascadeCoord 30 = false → s.takeoverOn = false → s.beat.page = none → s.beat.switchTo = none →
      s.beat.stopAt = none → m.planPos = s.beat.nextPos →
      ∃ v w, exec (.marker t) s = .next v ∧ v.beat.win = some w ∧ w.beat = m.beat ∧ w.pos = m.planPos ∧ w.start = m.at_ ∧
        w.slot = f ∧ w.period = effPeriod g.hdr m.stretch m.planPos ∧ w.stretch = m.stretch ∧ w.replays = 0 ∧ w.inGap = false ∧
        w.fault = false ∧ v.beat.markers = rest ∧ v.beat.nextPos = (m.planPos + 1) % g.hdr.planLen ∧
        v.beat.prev = s.beat.prev ++ (s.beat.win.toList.map fun x => { x with inGap := true }) ∧ v.running = true ∧
        v.pair Reg.beatCountLo = m.beat % 2 ^ 48 ∧ v.cores.counters = [] ∧ Out.beatOut m.at_ ∈ v.out) ∧
    (s.casc.hold = false → s.pair Reg.beatCountLo < m.beat → m.epoch = s.casc.epoch → s.casc.adopting = none →
      s.bit Reg.cascadeCoord 30 = false → s.takeoverOn = false → s.beat.page = none → s.beat.switchTo = none →
      s.beat.stopAt = none → m.planPos ≠ s.beat.nextPos → s.devState ≠ 7 →
      ∃ v, exec (.marker t) s = .next v ∧ v.devState = 7 ∧ v.fld Reg.devState 31 16 = 0x8024) ∧
    (s.casc.hold = true ∨ m.beat ≤ s.pair Reg.beatCountLo ∨ m.epoch ≠ s.casc.epoch →
      exec (.marker t) s = .next { s with beat := { s.beat with markers := rest } })) ∧
  (∀ (t : Nat) (g : Fing) (s : State), s.fing = some g →
    (g.hdr.cascadeSize ≤ 1 → s.beat.waiting = true → s.beat.markers = [] →
      ∃ v, exec (.standaloneFirstMarker t) s = .next v ∧
        v.beat = { s.beat with markers :=
          [{ beat := s.pair Reg.beatCountLo + 1, at_ := t, stretch := 0, planPos := 0, epoch := 0 }] } ∧
        v.casc.lastPeriod = effPeriod g.hdr 0 0 ∧ v.casc.lastMark = v.beat.markers.head? ∧ v.bit Reg.beatCtl 3 = true ∧
        v = { s with now := max s.now t, regs := v.regs, beat := v.beat, casc := v.casc } ∧ regsKeptBut [Reg.beatCtl] s v) ∧
    (1 < g.hdr.cascadeSize ∨ s.beat.waiting = false ∨ s.beat.markers ≠ [] → exec (.standaloneFirstMarker t) s = .next s))

/-- The commit gap begins 2,000 ns before the window's end, once; the device enters it when no unit runs a slot of the window: the
FENCE messages of every unit go out, the awake ones' by themselves, an overrun is logged and counted, and a window in time
ends the count; BEAT_REPORT then reports the window once, to the master as a message or, as the master, to itself. -/
def Obligations.GapsAreEnteredAndReported : Prop :=
  (∀ (t : Nat) (w : Win) (s : State), s.beat.win = some w →
    (w.gapStart ≤ t → w.inGap = false → ∃ v, exec (.gapStart t) s = .next v ∧ v.beat.win = some { w with inGap := true } ∧
      v = { s with now := max s.now t, beat := v.beat } ∧ v.beat.nextPos = s.beat.nextPos) ∧
    (t < w.gapStart ∨ w.inGap = true → exec (.gapStart t) s = .next s)) ∧
  (∀ (t : Nat) (w : Win) (s : State), s.enterable = some w →
    ∃ u v, exec (.gapEntry t) s = .next v ∧ u = ((s.at t).setWindow w.beat Win.enter).gapOverrun w ∧ u.out <+: v.out ∧
      (∃ a b, Out.fences a b ∈ v.out ∧ ∀ x ∈ allUnits, (x ∈ a ↔ (u.unit x).power = 0) ∧ (x ∈ b ↔ (u.unit x).power ≠ 0)) ∧
      (0 ≤ w.margin → u.fld Reg.beatStretch 15 8 = 0 ∧ regsKeptBut [Reg.beatStretch] s u) ∧
      (w.margin < 0 → u.fld Reg.beatStretch 15 8 = min 255 (s.fld Reg.beatStretch 15 8 + 1) ∧
        u.reg Reg.errLogHead = s.reg Reg.errLogHead + 1) ∧
      (∀ x ∈ u.beat.win.toList ++ u.beat.prev, x.beat = w.beat → x.inGap = true ∧ x.entered = true) ∧
      (w.fault = false →
        v = (let x := (((u.sendFences).gapCovers w).settle).gapLosses
             if x.runSlot.isNone then x
             else if (x.gapState w).runSlot.isNone then x.gapState w
             else (x.gapState w).sendMirrorFence w.beat))) ∧
  ∀ (t : Nat) (w : Win) (s : State), s.enterable = none →
    (s.beat.prev ++ s.beat.win.toList).find? (fun x => x.entered && !x.reported) = some w → s.expectsMirror = false →
    s.window w.beat = some w → (w.rpUnits = [] ∨ w.replays < 2) →
    exec (.gapEntry t) s = .next s ∧
    ∃ lost, exec (.beatReport t) s = .next (((s.at t).setWindow w.beat
        fun y => { y with reported := true }).sendReport
          (((s.at t).setWindow w.beat fun y => { y with reported := true }).reportMsg w lost) t) ∧
      (s.casc.partner = false → lost = none)

/-- A unit starts its next slot when its offset has passed, the gap has not begun, and no verdict holds it: the slot runs from its
entry point, and the unit is ACTIVE. A slot whose op has ended ends, and its unit runs none; its window keeps the least
margin. A slot that still runs one effective period after its planned end is stopped with 0x2023, of class RP. -/
def Obligations.SlotsStartEndAndHang : Prop :=
  (∀ (u o : UnitId) (t i : Nat) (d : SlotDesc) (w : Win) (s : State), s.beat.win = some w → s.nextSlot u = some (o, i, d) →
    ((s.unit u).run = none → (s.unit u).fenced = false → s.mayStart w d t = true →
      ∃ v r, exec (.slotStart u t) s = .next v ∧ (v.unit u).run = some r ∧ (v.unit u).power = 0 ∧ r.owner = o ∧ r.slot = i ∧
        r.pos = w.pos ∧ r.beat = w.beat ∧ r.op = d.op ∧ r.plannedEnd = w.start + d.start + d.budget ∧ r.started = t ∧
        r.ptr = s.entryOf u o d.op ∧ r.ordinal = 0 ∧
        r.ended = (u.cls == 7 && (s.upd.skip || s.upd.stopped.contains u.idx)) ∧ (v.unit o).next = i + 1 ∧
        ∀ x, unitKey x ≠ unitKey u → unitKey x ≠ unitKey o → v.unit x = s.unit x) ∧
    ((s.unit u).run ≠ none ∨ (s.unit u).fenced = true ∨ s.mayStart w d t = false → exec (.slotStart u t) s = .next s)) ∧
  (∀ (u : UnitId) (t : Nat) (r : RunSlot) (w : Win) (s : State), (s.unit u).run = some r →
    (r.ended = true ∨ (u.cls = 6 ∧ u.idx % 9 < 8) → (∀ x ∈ s.tier.waits, x.unit ≠ some u) → s.beat.win = some w → w.beat = r.beat →
      ∃ v, exec (.slotEnd u t []) s = .next v ∧ (v.unit u).run = none ∧
        v.beat.win = some { w with margin := min w.margin ((w.gapStart : Int) - t) } ∧
        ∀ x, unitKey x ≠ unitKey u → v.unit x = s.unit x) ∧
    ((r.ended = false ∧ ¬(u.cls = 6 ∧ u.idx % 9 < 8)) ∨ (∃ x ∈ s.tier.waits, x.unit = some u) → exec (.slotEnd u t []) s = .next s) ∧
    (u.wf = true → s.beat.win = some w → w.beat = r.beat → r.plannedEnd + w.period ≤ t → s.beat.prev = [] →
      ∃ v x, exec (.slotHung u t) s = .next v ∧ (v.unit u).run = none ∧ v.beat.win = some x ∧ x.fault = true ∧
        v.reg (Reg.errLog ((s.reg Reg.errLogHead).toNat % 256) 0) = BitVec.ofNat 32 (0x2023 + 65536)) ∧
    (s.beat.win = some w → w.beat = r.beat → t < r.plannedEnd + w.period → exec (.slotHung u t) s = .next s))

/-! ### The mailbox -/

/-- The mailbox is read on the controlling port as two requests, the second when the first has completed, CMD_SEQ first,
coherently in CXL mode, while the plan runs and no page is under way; a page whose CMD_SEQ is new waits for the boundary, one
already done is dropped, and a failed read is logged as 0x2025, the 64th in a row as a failing port. A command of the mailbox
is taken with its CMD_SEQ as CMD_ACK and its result as CMD_RESULT. NOP only acknowledges; SWITCH and STOP stand from then on
for the cycle that they name, 0 naming the next, each in place of the other; ARGS keeps the page's arguments; a target that
has passed is refused with 0x2012 and a slot that is not LOADED with 0x2011. Before the window has entered its commit gap none
of them acts: the boundary runs from gap entry to the marker (DEDUCED, log 93). -/
def Obligations.TheMailboxIsReadAndActedOn : Prop :=
  ((∀ (t a : Nat) (s : State), s.mailAt s.host.ctrl = some a →
    (s.running = true → s.host.orphan = false → s.portUp s.host.ctrl = true → s.beat.reading = 0 → s.beat.page = none →
      exec (.mailboxRead t) s = .next { s with
        now := max s.now t, beat := { s.beat with reading := 1 }
        out := s.out ++ [if (s.hport s.host.ctrl).cxl then .cxlRead s.host.ctrl a 4 else .hostRead s.host.ctrl a 4 none] }) ∧
    (s.running = false ∨ s.host.orphan = true ∨ s.portUp s.host.ctrl = false ∨ s.beat.reading ≠ 0 ∨ s.beat.page ≠ none →
      exec (.mailboxRead t) s = .next s) ∧
    ∀ b : Bytes, s.beat.reading = 1 → exec (.mailboxReadComplete (some b)) s = .next { s with
      beat := { s.beat with reading := 2, cmdSeq := b.take 4 }
      out := s.out ++ [if (s.hport s.host.ctrl).cxl then .cxlRead s.host.ctrl (a + 4) 4092
        else .hostRead s.host.ctrl (a + 4) 4092 none] }) ∧
  (∀ (b page : Bytes) (s : State), s.beat.reading = 2 → page = s.beat.cmdSeq ++ b.take 4092 →
    exec (.mailboxReadComplete (some b)) s = .next { s with
      beat := { s.beat with reading := 0, page := if fieldAt page 0 4 = s.beat.cmdAck then s.beat.page else some page }
      host := { s.host with mailFails := 0 } }) ∧
  ∀ s : State, s.beat.reading ≠ 0 →
    ∃ v, exec (.mailboxReadComplete none) s = .next v ∧ v.beat.reading = 0 ∧ v.beat.page = s.beat.page ∧
      v.host = { s.host with mailFails := s.host.mailFails + 1,
                             failing := s.host.failing || decide (64 ≤ s.host.mailFails + 1) } ∧
      v.reg (Reg.errLog ((s.reg Reg.errLogHead).toNat % 256) 0) = BitVec.ofNat 32 0x2025) ∧
  (∀ (p : Bytes) (f : FSlot) (w : Win) (target : Nat) (s : State), s.beat.page = some p → s.running = true →
    s.beat.win = some w →
    (w.entered = false → ∀ c ∈ [Instr.nop, .switch, .mailboxStop, .args], exec c s = .next s) ∧
    (w.entered = true → target = fieldAt p 8 8 → f = (if fieldAt p 0x10 4 % 2 = 1 then .b else .a) →
    (∀ (c : Instr) (v : State), (c, pageCmd p) ∈ [(Instr.nop, 0), (.switch, 1), (.mailboxStop, 2), (.args, 3)] →
      exec c s = .next v → v.beat.page = none ∧ v.beat.cmdAck = fieldAt p 0 4 ∧ v.beat.ackNew = true ∧ memoryKept s v) ∧
    (∀ (c : Instr) (n : Nat), (c, n) ∈ [(Instr.nop, 0), (.switch, 1), (.mailboxStop, 2), (.args, 3)] → pageCmd p ≠ n →
      exec c s = .next s) ∧
    (pageCmd p = 0 → exec .nop s = .next { s with beat := { s.beat with
      page := none, cmdAck := fieldAt p 0 4, cmdResult := 0, ackNew := true } }) ∧
    (pageCmd p = 3 → exec .args s = .next { s with beat := { s.beat with
      page := none, cmdAck := fieldAt p 0 4, cmdResult := 0, ackNew := true,
      argsNew := some ((p.drop 0x100).take 3840, false) } }) ∧
    (pageCmd p = 2 → (target = 0 ∨ s.beat.cycle < target) → ∃ v, exec .mailboxStop s = .next v ∧ v.beat.cmdResult = 0 ∧
      v.beat.stopAt = some (s.targetCycle target) ∧ v.beat.switchTo = none ∧ v.bit Reg.fingStatus 7 = false) ∧
    (pageCmd p = 2 → target ≠ 0 → target ≤ s.beat.cycle → ∃ v, exec .mailboxStop s = .next v ∧ v.beat.cmdResult = 0x2012 ∧
      v.beat.stopAt = s.beat.stopAt ∧ v.beat.switchTo = s.beat.switchTo) ∧
    (pageCmd p = 1 → s.switchRefusal f target = none → ∃ v, exec .switch s = .next v ∧ v.beat.cmdResult = 0 ∧
      v.beat.switchTo = some (f, s.targetCycle target) ∧ v.beat.stopAt = none ∧ v.bit Reg.fingStatus 7 = true) ∧
    (pageCmd p = 1 → ∀ r b, s.switchRefusal f target = some (r, b) → ∃ v, exec .switch s = .next v ∧ v.beat.cmdResult = r.code ∧
      v.beat.switchTo = s.beat.switchTo ∧ v.beat.stopAt = s.beat.stopAt ∧ (b = true → (v.slot f).state = 4)) ∧
    ((s.slot f).state ≠ 2 → (s.switchRefusal f target).map (fun x => (x.1.code, x.2)) = some (0x2011, false))))

/-! ### Verdicts -/

/-- COMMIT and COMMIT_SKIP, applied to the oldest reported window whose verdict has come: its effects are made visible, COMMITTED
rises by one, the window goes, and a window that was held may start its slots; every touched WGA tile takes its working bank
as committed, and no other tile changes. Away from a cycle's end nothing else of the run changes. -/
def Obligations.CommitsApplyOneWindow : Prop :=
  ∀ (kind t : Nat) (c : Instr) (d : Due) (w : Win) (s u : State), (c, kind) ∈ [(Instr.commit t, 0), (.commitSkip t, 1)] →
    s.beat.due.find? (fun x => x.kind == kind && decide (x.at_ ≤ t)) = some d → s.judged = some w → d.beat = w.beat →
    w.reported = true →
    u = { s.at t with
      beat := { s.beat with due := s.beat.due.filter fun x => decide (w.beat < x.beat) }
      casc := { s.casc with
        reports := s.casc.reports.filter fun x => decide (w.beat < x.beat)
        fences := s.casc.fences.filter fun x => !(x.1 == w.beat % 2 ^ 32)
        mirrorRx := s.casc.mirrorRx.filter fun x => !(x.1 == w.beat % 2 ^ 32) } } →
    ∃ v x, exec c s = .next v ∧ x = u.commitEffects kind w ((s.fing.map (·.hdr.planLen)).getD 1 - 1) ∧
      x.cores.wga = s.cores.wga.map (fun y => if y.touch then { y with
        ptr := !y.ptr, touch := false
        sramOk := !(s.combOnly y.core) && !(s.cores.subst.any fun z => z.1 == y.core && decide (w.beat ≤ z.2))
        combBad := false } else y) ∧
      (∀ y ∈ x.host.runs, w.beat < y.beat) ∧
      (w.pos ≠ (s.fing.map (·.hdr.planLen)).getD 1 - 1 → x.casc.lost = [] → x.beat.stopNow = false →
        v.cores = x.cores ∧ v.beat.committed = x.beat.committed + 1 ∧ v.beat.cycle = x.beat.cycle ∧
        v.beat.prev = x.beat.prev.filter (fun y => !(y.beat == w.beat)) ∧
        v.beat.win = (match x.beat.win with
          | some y => if y.beat = w.beat then none else some { y with holdAll := false }
          | none => none) ∧
        v.host = x.host ∧ v.tier = x.tier ∧ memoryKept x v)

/-- REPLAY, applied to the oldest window: its effects and those of the windows after it go - no unit runs a slot, no tile is
touched and every committed bank stays, uncommitted holds are freed and copy runs end - and, with nothing else asked of the
device, the window at its position starts again at the verdict's instant under its epoch. -/
def Obligations.ReplaysDiscardAndRestart : Prop :=
  ∀ (t : Nat) (d : Due) (w : Win) (f : FSlot) (g : Fing) (s : State),
    s.beat.due.find? (fun x => x.kind == 2 && decide (x.at_ ≤ t)) = some d → s.judged = some w → d.beat = w.beat →
    s.runSlot = some f → s.fing = some g → s.running = true → s.beat.stopNow = false → d.flags = 0 → d.lost = none →
    ∃ v x, exec (.replay t) s = .next v ∧ v.beat.win = some x ∧ v.beat.prev = [] ∧ v.beat.due = [] ∧ x.pos = w.pos ∧
      x.start = d.at_ ∧ x.stretch = d.stretch ∧ x.slot = f ∧ x.beat = s.pair Reg.beatCountLo + 1 ∧
      x.replays = (if 2 ≤ w.replays then 0 else w.replays + 1) ∧ x.period = effPeriod g.hdr d.stretch w.pos ∧
      v.casc.epoch = d.epoch ∧ v.beat.nextPos = (w.pos + 1) % g.hdr.planLen ∧ v.beat.committed = s.beat.committed ∧
      (∀ y ∈ v.units, y.2.run = none) ∧ v.cores.wga = s.cores.wga.map (fun y => { y with touch := false }) ∧
      v.cores.counters = [] ∧ v.host.runs = [] ∧
      v.tier.holds = s.tier.holds.filter (fun h => h.committed || decide (h.beat < w.beat)) ∧ Out.beatOut d.at_ ∈ v.out

/-! ### The cascade -/

/-- 20,000 ns before its instant the master issues the marker that follows its last, one effective period later, one BEAT_COUNT
more, at the next position, with the stretch step of R440 (16 while a takeover lasts), and sends it along its broadcast tree;
no other device issues one. Master and backup hold each member's report, one for each beat. With the last of them the master
gives the verdict at VERDICT_DELAY after the following marker: COMMIT, COMMIT_SKIP when a report's finite-vote bit is clear,
REPLAY when one has the fault bit; a member whose report stays missing two effective periods after the gap start is lost, and
with FULL_TWIN its verdict is a REPLAY with TAKEOVER at stretch 16. -/
def Obligations.MastersIssueAndJudge : Prop :=
  (∀ (t : Nat) (last : DueMarker) (x : FSlot × Nat × Header) (s : State), s.casc.lastMark = some last →
    s.following last = some x →
    (s.isMaster = true → s.runSlot.isSome = true → s.casc.hold = false → last.at_ + s.casc.lastPeriod ≤ t + 20000 →
      ∃ v m, exec (.markerIssue t) s = .next v ∧ v.beat.markers = s.beat.markers ++ [m] ∧ v.casc.lastMark = some m ∧
        v.casc.lastSlot = x.1 ∧ v.casc.lastPeriod = effPeriod x.2.2 m.stretch x.2.1 ∧ m.beat = last.beat + 1 ∧
        m.at_ = last.at_ + s.casc.lastPeriod ∧ m.planPos = x.2.1 ∧ m.epoch = s.casc.issueEpoch ∧
        m.stretch = (if s.takeoverOn = true then 16
          else if s.casc.raise = true ∧ s.casc.stretch < 16 then s.casc.stretch + 1
          else if s.casc.lower = true ∧ s.casc.raise = false ∧ 0 < s.casc.stretch then s.casc.stretch - 1 else s.casc.stretch) ∧
        v.casc.stretch = m.stretch ∧ memoryKept s v ∧
        ∀ c ∈ s.ownTree, ∃ k, s.sends v c k ∧ k.kind = 1 ∧
          k.beat = m.beat ∧ k.planPos = m.planPos ∧ k.stretch = m.stretch ∧ k.offset = (m.at_ : Int) - (t : Int)) ∧
    (s.isMaster = false ∨ s.runSlot = none ∨ s.casc.hold = true ∨ t + 20000 < last.at_ + s.casc.lastPeriod →
      exec (.markerIssue t) s = .next s)) ∧
  ((∀ (m : CtlMsg) (t : Nat) (s u : State), m.kind = 3 → s.runSlot.isSome = true → m.coord ∉ s.casc.lost → m.coord ∈ s.members →
    u = (s.at t).holdReport (heldReport m t) →
    (∀ r, r ∈ u.casc.reports ↔ r = heldReport m t ∨ r ∈ s.casc.reports ∧ ¬(r.coord = m.coord ∧ r.beat = m.beat)) ∧
    (s.fld Reg.beatCtl 1 0 = 3 → s.takeUnicast m t = u) ∧
    (s.fld Reg.beatCtl 1 0 < 2 → s.takeUnicast m t = s) ∧
    (s.fld Reg.beatCtl 1 0 = 2 → ∀ w, u.unjudged = some w →
      (w.reported = false ∨ u.missing w.beat ≠ [] → s.takeUnicast m t = u) ∧
      (w.reported = true → u.missing w.beat = [] → u.goneFor w.beat = [] → s.casc.retire = none →
        ∀ rs, rs = u.casc.reports.filter (fun r => r.beat == w.beat) → u.linkLosses rs = [] →
        ∀ v, v = s.takeUnicast m t → memoryKept s v ∧ ∃ d, v.beat.due = s.beat.due ++ [d] ∧ d.beat = w.beat ∧ d.lost = none ∧
          d.at_ = max t (s.verdictAt w) ∧
          d.kind = (if rs.any (·.fault) then 2 else if rs.any (·.voteClear) then 1 else 0)))) ∧
  ∀ (i t : Nat) (c : Coord) (w : Win) (s : State), c = s.memberAt i → s.unjudged = some w → s.isMaster = true → c ≠ s.self →
    s.overdue w c t = true →
    (s.missing w.beat = [c] → w.reported = true → s.casc.retire = none → s.casc.dead = [] →
      s.linkLosses (s.casc.reports.filter fun r => r.beat == w.beat) = [] →
      (∀ r ∈ s.casc.reports, r.beat = w.beat → r.selfLost = false ∧ r.coord ≠ c) →
      (s.fing.map (·.hdr.fullTwin)) = some true → s.twinGone c = false →
      ∃ v d, exec (.memberLostTimeout i t) s = .next v ∧ v.beat.due = s.beat.due ++ [d] ∧ d.kind = 2 ∧ d.lost = some c ∧
        d.beat = w.beat ∧ d.stretch = 16 ∧ d.flags / 2 % 2 = 1 ∧ d.flags / 4 % 2 = 0 ∧ d.flags / 8 % 2 = 0 ∧
        d.at_ = max t (s.verdictAt w) ∧ v.casc.issueEpoch = (s.casc.issueEpoch + 1) % 16) ∧
    ((c ∈ s.missing w.beat ∧ (w.reported = false ∨ ∃ o ∈ s.missing w.beat, o ≠ c)) → s.casc.dead = [] →
      exec (.memberLostTimeout i t) s =
        .next { s with now := max s.now t, casc := { s.casc with dead := [c] } }) ∧
    (c ∉ s.missing w.beat → exec (.memberLostTimeout i t) s = .next s))

/-- A CONTROL frame that is next in order acts by its KIND when it is for this device's coordinate, and else goes on toward its
own; a message of the tree is taken with its OFFSET less the port's ingress latency, goes on along the tree less its residence
time, and is scheduled for its instant: a MARKER, a VERDICT, a SYNC instant, a RESUME. One that is late acts at once, with
LATE and 0x8022. A VERDICT that is later than VERDICT_DELAY holds the running window's dependent slots and is logged as 0x2024
once. -/
def Obligations.ControlMessagesAreScheduled : Prop :=
  (∀ (q residence t : Nat) (f : Frame) (r : Route) (s : State), s.nextFrame q f → s.route = some r → f.typ = 7 → f.vl = 2 →
    (∀ k c, (k, c) ∈ [(3, Instr.report ⟨q, f⟩ t), (4, .join ⟨q, f⟩ t), (6, .syncResult ⟨q, f⟩ t), (8, .admitDevice ⟨q, f⟩ t), (9, .ready ⟨q, f⟩ t)] →
      (ctlOf f.payload).kind = k →
      (f.dest = s.self → exec c s =
        .next (s.afterFrame q f 0 t (((s.accepted q f t).owe q 2 f.units).takeUnicast (ctlOf f.payload) (max s.now t)))) ∧
      (f.dest ≠ s.self → s.answersFor r f.dest = false → exec c s =
        .next (s.afterFrame q f 0 t ((s.accepted q f t).sendControl f (q + 1))))) ∧
    ((ctlOf f.payload).kind = 2 → exec (.verdict ⟨q, f, residence⟩ t) s =
      .next (s.afterFrame q f residence t ((s.accepted q f t).takeControl q f residence (max s.now t)))) ∧
    exec (.controlMessageReceipt q f residence t) s =
      .next (s.afterFrame q f residence t ((s.accepted q f t).takeControl q f residence (max s.now t)))) ∧
  (∀ (q residence t : Nat) (f : Frame) (m : CtlMsg) (r : Route) (s v : State), s.route = some r → m = ctlOf f.payload →
    f.dest = s.self → s.answersFor r s.self = true → m.issuer = s.masterIdx → s.bit Reg.cascadeCoord 30 = false →
    s.casc.adopting = none → s.bit Reg.beatCtl 3 = true → v = s.takeControl q f residence t →
    ∀ off : Int, off = m.offset - (s.fld (Reg.linkLatency q) 15 0 : Nat) →
    (m.kind = 1 → (∀ x ∈ s.beat.markers, ¬(x.beat = m.beat ∧ x.epoch = m.flags / 16)) → v.beat.markers = s.beat.markers ++
        [{ beat := m.beat, at_ := t + off.toNat, stretch := m.stretch, planPos := m.planPos, epoch := m.flags / 16 }] ∧
      v.fld Reg.syncStatus 15 0 = min (20000 - off).toNat 0xFFFF ∧ memoryKept s v) ∧
    (m.kind = 2 → (∀ d ∈ s.beat.due, ¬(d.beat = m.beat ∧ d.epoch = m.flags / 16)) → v.beat.due = s.beat.due ++
      [{ kind := m.value, beat := m.beat, at_ := t + off.toNat, flags := m.flags % 16, stretch := m.stretch, margin := m.margin,
         coord := m.coord, lost := m.lost, epoch := m.flags / 16 }] ∧ memoryKept s v) ∧
    (m.kind = 5 → v.casc.instants = s.casc.instants ++ [t + off.toNat] ∧ memoryKept s v) ∧
    (m.kind = 7 → v.casc.resume = some
        { beat := m.beat, at_ := t + off.toNat, stretch := 0, planPos := m.planPos, epoch := m.flags / 16 } ∧ memoryKept s v) ∧
    (m.kind = 1 ∨ m.kind = 2 ∨ m.kind = 5 ∨ m.kind = 7 →
      (∀ c ∈ s.treeNext r (s.memberAt m.issuer) (s.treeNodes r (s.memberAt m.issuer) 3 s.self),
        s.sends v c { m with offset := off - (residence : Int) }) ∧
      (off < 0 → v.bit Reg.syncStatus 22 = true ∧
        v.reg (Reg.errLog ((s.reg Reg.errLogHead).toNat % 256) 0) = BitVec.ofNat 32 0x8022))) ∧
  ∀ (t : Nat) (w cur : Win) (rest : List Win) (s : State), s.beat.prev = w :: rest → s.beat.win = some cur →
    s.beat.due = [] → w.start + w.period + s.fld Reg.beatCtl 31 16 < t →
    ∃ v, exec (.verdictLate t) s = .next v ∧ v.beat.win = some { cur with held := true } ∧
      v.reg Reg.errLogHead = s.reg Reg.errLogHead + (if 0x2024 ∈ s.beat.onceBeat then 0 else 1)

/-- The master holds each JOIN and, with the last, sends 16 SYNC messages 50,000 ns apart; each device pulses BEAT_OUT at each
instant and compares its BEAT_IN edges with them to 200 ns after SB_DELAY; with all results good the first marker goes out
20,000 ns later, and after a bad one the sequence starts again. A JOIN that is still missing at its timeout is logged as
0x8030. -/
def Obligations.CascadesSynchronise : Prop :=
  (∀ (m : CtlMsg) (t : Nat) (s : State), m.kind = 4 → s.isMaster = true → m.flags % 2 = 0 → s.beat.waiting = true →
    m.coord ∈ s.members → m.coord ∉ s.casc.joins →
    ((∃ c ∈ s.members, c ∉ s.casc.joins ∧ c ≠ m.coord) →
      s.takeUnicast m t = { s with now := max s.now t, casc := { s.casc with joins := s.casc.joins ++ [m.coord] } }) ∧
    ((∀ c ∈ s.members, c ∈ s.casc.joins ∨ c = m.coord) → ∀ v, v = s.takeUnicast m t →
      v.casc.joins = s.casc.joins ++ [m.coord] ∧ v.casc.instants = (List.range 16).map (fun i => t + 50000 * (i + 1)) ∧
      v.casc.past = [] ∧ v.casc.edges = [] ∧
      ∀ c ∈ s.ownTree, ∀ i, i < 16 → ∃ k, s.sends v c k ∧ k.kind = 5 ∧ k.offset = ((50000 * (i + 1) : Nat) : Int))) ∧
  (∀ (t : Nat) (s : State), s.isMaster = true → s.beat.waiting = true → (∃ c ∈ s.members, c ∉ s.casc.joins) →
    ∃ v, exec (.joinTimeout t) s = .next v ∧ v.casc = s.casc ∧ Logged { code := 0x8030, cls := 0 } (s.at t) v) ∧
  (∀ (t i : Nat) (rest : List Nat) (s : State), s.casc.instants = i :: rest →
    (i ≤ t → rest ≠ [] → exec (.sync t) s = .next { s with
      now := max s.now t, out := s.out ++ [.beatOut i], casc := { s.casc with instants := rest, past := s.casc.past ++ [i] } }) ∧
    (t < i → exec (.sync t) s = .next s)) ∧
  (∀ (t : Nat) (s : State), s.runSlot.isSome = true → 1 < s.members.length → s.bit Reg.cascadeCtl 0 = true →
    s.bit Reg.beatCtl 3 = false → s.bit Reg.cascadeCoord 30 = false → s.casc.instants ≠ [] →
    (∀ e ∈ s.casc.edges, e + 200 ≤ t) →
    ∃ v, exec (.beatInEdge t) s = .next v ∧ v.casc.edges = s.casc.edges ++ [t] ∧
      ∀ inst, (s.casc.past ++ s.casc.instants)[s.casc.edges.length]? = some inst →
        (near inst ((t : Int) - (s.fld Reg.cascadeCtl 15 4 : Nat)) = true →
          v.fld Reg.syncStatus 20 16 = min 16 (s.fld Reg.syncStatus 20 16 + 1)) ∧
        (near inst ((t : Int) - (s.fld Reg.cascadeCtl 15 4 : Nat)) = false →
          v.fld Reg.syncStatus 20 16 = 0 ∧ v.bit Reg.syncStatus 21 = true)) ∧
  ∀ (m : CtlMsg) (t : Nat) (f : FSlot) (h : Header) (s : State), m.kind = 6 → s.isMaster = true → s.beat.waiting = true →
    m.coord ∈ s.members → s.runSlot = some f → s.hdrOf f = some h → ∀ rs : List (Coord × Bool),
    rs = (s.casc.results.filter fun x => !(x.1 == m.coord)) ++ [(m.coord, decide (m.flags % 2 = 1))] →
    ((∃ c ∈ s.members, ∀ x ∈ rs, x.1 ≠ c) → s.takeUnicast m t =
      { s with now := max s.now t, casc := { s.casc with results := rs } }) ∧
    ((∀ c ∈ s.members, ∃ x ∈ rs, x.1 = c) → (∀ x ∈ rs, x.2 = true) → ∀ v, v = s.takeUnicast m t →
      v.casc.tries = 0 ∧ ∃ d, v.beat.markers = s.beat.markers ++ [d] ∧ d.at_ = t + 20000 ∧
      d.beat = s.pair Reg.beatCountLo + 1 ∧ d.planPos = 0) ∧
    ((∀ c ∈ s.members, ∃ x ∈ rs, x.1 = c) → (∃ x ∈ rs, x.2 = false) → s.casc.tries < 3 → ∀ v, v = s.takeUnicast m t →
      v.casc.tries = s.casc.tries + 1 ∧ v.casc.instants = (List.range 16).map (fun i => t + 50000 * (i + 1))) ∧
    ((∀ c ∈ s.members, ∃ x ∈ rs, x.1 = c) → (∃ x ∈ rs, x.2 = false) → 3 ≤ s.casc.tries → s.devState ≠ 7 →
      ∀ v, v = s.takeUnicast m t → v.devState = 7 ∧ v.fld Reg.devState 31 16 = 0x8032)

/-- A device whose twin falls silent declares it lost: PARTNER_LOST stands, its window has a fault, and 0x5043 is logged. A device
without a verdict for two effective periods after the following marker treats its master as lost; the backup then takes the
role, is master with 0x8040 and replays the beat with the former master's twin in takeover; without any message for two more
periods the run ends in FAILED with 0x8041. -/
def Obligations.LossesAreDeclared : Prop :=
  (∀ (t : Nat) (r : Route) (w : Win) (s : State), s.route = some r → s.beat.win = some w → r.twin ≠ 0xFFFFFFFF →
    s.casc.partner = false → unpackCoord r.twin ∉ s.casc.lost →
    ∃ v, exec (.partnerLost t) s = .next v ∧ v.casc = { s.casc with partner := true } ∧
      v.beat.win = some { w with fault := true } ∧
      v.reg (Reg.errLog ((s.reg Reg.errLogHead).toNat % 256) 0) = BitVec.ofNat 32 (0x5043 + 65536 * 3) ∧ v.devState = s.devState) ∧
  (∀ (t : Nat) (w : Win) (rest : List Win) (s : State), s.beat.prev = w :: rest → s.isMaster = false →
    s.casc.masterGone = none → (∀ d ∈ s.beat.due, d.beat ≠ w.beat) →
    (w.start + 3 * w.period ≤ t →
      exec (.masterLost t) s = .next { s with now := max s.now t, casc := { s.casc with masterGone := some t } }) ∧
    (t < w.start + 3 * w.period → exec (.masterLost t) s = .next s)) ∧
  (∀ (t : Nat) (w : Win) (old : Coord) (s : State), s.judged = some w → s.casc.master = some old →
    s.fld Reg.beatCtl 1 0 = 3 → s.casc.masterGone.isSome = true → (s.fing.map (·.hdr.fullTwin)) = some true →
    s.twinGone old = false →
    ∃ v d, exec (.backupAssumesMastership t) s = .next v ∧ v.isMaster = true ∧ v.casc.master = some (s.memberAt s.myIdx) ∧
      v.casc.backup = none ∧ v.casc.masterGone = none ∧ v.bit Reg.masterCoord 25 = true ∧ v.beat.due = s.beat.due ++ [d] ∧
      d.kind = 2 ∧ d.lost = some old ∧ d.beat = w.beat ∧ d.flags = 3 ∧ d.stretch = 16 ∧
      v.reg (Reg.errLog ((s.reg Reg.errLogHead).toNat % 256) 0) = BitVec.ofNat 32 0x8040) ∧
  ∀ (t g : Nat) (w : Win) (s : State), s.casc.masterGone = some g → s.judged = some w → s.devState ≠ 7 →
    (g + 2 * w.period ≤ t → ∃ v, exec (.masterAndBackupLost t) s = .next v ∧ v.devState = 7 ∧
      v.casc.hold = true ∧ (s.host.runs = [] → v.fld Reg.devState 31 16 = 0x8041)) ∧
    (t < g + 2 * w.period → exec (.masterAndBackupLost t) s = .next s)

/-- RETIRE stands for the next verdict, or is ignored with 0x8052 for a coordinate that cannot be retired; a device that ADMIT
names begins to match edges; under a hold the master answers the last READY with RESUME in a new epoch; at its instant RESUME
ends the hold and the lost set, clears TOUCH, and starts the window that it names. -/
def Obligations.DevicesRetireAndReturn : Prop :=
  (∀ (c : Coord) (s : State), s.writeOpen Reg.cascadeCmd = true → s.isMaster = true →
    (c ∈ s.members → c ≠ s.self → c ∉ s.casc.lost → s.casc.retire = none →
      exec (.retire c) s = .next { s with casc := { s.casc with retire := some c } }) ∧
    (c ∉ s.members ∨ c = s.self ∨ c ∈ s.casc.lost ∨ s.casc.retire.isSome = true →
      ∃ v, exec (.retire c) s = .next v ∧ Logged { code := 0x8052, cls := 0 } s v)) ∧
  (∀ (m : CtlMsg) (t : Nat) (s v : State), m.kind = 8 → s.bit Reg.cascadeCoord 30 = true → s.runSlot.isSome = true →
    v = s.takeUnicast m t → v.fld Reg.syncStatus 20 16 = 0 ∧ regsKeptBut [Reg.syncStatus] s v ∧
      v.casc = { s.casc with adopting := some s.self, admitted := [s.self], edges := [], past := [], instants := [] } ∧
      v = { s with now := max s.now t, regs := v.regs, casc := v.casc }) ∧
  (∀ (m : CtlMsg) (t : Nat) (f : FSlot) (h : Header) (s : State), m.kind = 9 → s.isMaster = true → m.coord ∈ s.casc.lost →
    m.coord ∉ s.casc.readys → s.runSlot = some f → s.hdrOf f = some h →
    (s.casc.hold = false ∨ (∃ c ∈ s.casc.lost, c ∉ s.casc.readys ∧ c ≠ m.coord) → s.takeUnicast m t =
      { s with now := max s.now t, casc := { s.casc with readys := s.casc.readys ++ [m.coord] } }) ∧
    (s.casc.hold = true → (∀ c ∈ s.casc.lost, c ∈ s.casc.readys ∨ c = m.coord) → ∀ v, v = s.takeUnicast m t → ∃ d,
      v.casc.resume = some d ∧ d.at_ = t + 20000 ∧ d.planPos = s.resumePos ∧ d.beat = s.pair Reg.beatCountLo + 1 ∧
      d.epoch = (s.casc.issueEpoch + 1) % 16 ∧ v.casc.issueEpoch = d.epoch)) ∧
  ∀ (t : Nat) (m : DueMarker) (f : FSlot) (g : Fing) (s : State), s.casc.resume = some m → s.runSlot = some f →
    s.fing = some g →
    (m.at_ ≤ t → ∃ v w, exec (.resume t) s = .next v ∧ v.beat.win = some w ∧ w.pos = m.planPos ∧ w.beat = m.beat ∧ w.start = t ∧
      v.casc.hold = false ∧ v.casc.lost = [] ∧ v.casc.resume = none ∧ v.casc.epoch = m.epoch ∧ v.beat.prev = [] ∧
      v.cores.wga = s.cores.wga.map (fun y => { y with touch := false }) ∧ v.running = true ∧ Out.beatOut t ∈ v.out) ∧
    (t < m.at_ → exec (.resume t) s = .next s)

/-! ### Update engines and twins -/

/-- An engine's op that may go on runs its chunks in ascending order: a capped chunk is skipped, a chunk whose moments are written
takes stage W, one that is not started takes stage M and waits for its acknowledgement, and any other pair of stamps is the
hard capping fault of R269 (`hardCap`); after the last chunk the op has ended. It waits while a stage M awaits its
acknowledgement, and has ended in a skipped step, and waits while the frames that refresh the twin are on their way. Table 6.5
on any two stamps. -/
def Obligations.UpdateOpsRunChunks : Prop :=
  ((∀ (n t : Nat) (r : RunSlot) (o : UpdOp) (h : Shard) (g : Group) (u : UnitId) (s : State), u = { cls := 7, idx := n } →
    s.runOf u = some r → s.updOp r = some (o, h, g) →
    ((∃ y ∈ s.upd.staged, y.eng = n) → exec (.updateOp n t []) s = .next (s.at t)) ∧
    ((∀ y ∈ s.upd.staged, y.eng ≠ n) → s.shardRestoring h = false →
      (s.refreshing = true → exec (.updateOp n t []) s = .next (s.at t)) ∧
      (s.refreshing = false → s.upd.skip = true ∨ n ∈ s.upd.stopped → exec (.updateOp n t []) s = .next ((s.at t).endRunOf u r)) ∧
      (s.refreshing = false → s.upd.skip = false → n ∉ s.upd.stopped → s.shardAway h = true →
        ∃ v, exec (.updateOp n t []) s = .next v ∧ v.fld (Reg.updStatus n) 1 0 = 2 ∧ onlyRegs [Reg.updStatus n] (s.at t) v) ∧
      (s.refreshing = false → s.upd.skip = false → n ∉ s.upd.stopped → s.shardAway h = false → ∃ a, a = ((s.at t).setFld (Reg.updStatus n) 1 0 1).countSkips
          (s.errCtx u r) n o.shard h g ∧
        exec (.updateOp n t []) s = .next (a.runChunks u r o.shard h (a.updCtx h.group g r.gs (a.stepT + 1)) o.firstChunk
          ((List.range (min o.chunks (a.chunkCount h g - o.firstChunk))).drop r.prog))))) ∧
  ∀ (u : UnitId) (r : RunSlot) (i first j : Nat) (js : List Nat) (h : Shard) (x : UpdCtx) (s : State),
    let lazy := decide (x.g.rule = 2)
    let st (y : TagRef) := tagState lazy (s.stepT % 2 ^ 32) ((s.stepT + 1) % 2 ^ 32) y
    let tags := s.chunkTags h x.g (first + j)
    let a := s.touchChunk u.idx h x.g (first + j) tags
    s.runChunks u r i h x first [] = s.endRunOf u r ∧
    ((∀ y ∈ tags, st y = 2) → s.runChunks u r i h x first (j :: js) = a.runChunks u r i h x first js) ∧
    ((∀ y ∈ tags, st y = 1) → tags ≠ [] → s.runChunks u r i h x first (j :: js) =
      ((a.weightPass (a.errCtx u r) r u.idx i h x ((s.stepT + 1) % 2 ^ 32)
        (tags.map fun y => a.piece h x.g (s.stepT + 1) true y.idx)).runChunks u r i h x first js)) ∧
    ((∀ y ∈ tags, st y = 0) → tags ≠ [] → s.runOf u = some r → ∃ v, s.runChunks u r i h x first (j :: js) = v ∧
      ∃ y, v.upd.staged.getLast? = some y ∧ y.eng = u.idx ∧ y.shard = i ∧ y.chunk = first + j ∧ y.recovered = [] ∧
        y.fresh = tags.map (·.idx) ∧ y.ackPile = false ∧ y.ackTwin = false) ∧
    ∀ y, tags.find? (fun y => st y == 3) = some y → s.runChunks u r i h x first (j :: js) = a.hardCap r u.idx i h lazy y) ∧
  (∀ (T : Nat) (y : TagRef), T < 2 ^ 32 → y.mom < 2 ^ 32 → y.cap < 2 ^ 32 →
    let t := (T + 1) % 2 ^ 32
    let before (v : Nat) : Prop := ∃ d, 1 ≤ d ∧ d ≤ 2 ^ 31 ∧ (v + d) % 2 ^ 32 = t
    (tagState false T t y = 0 ↔ y.mom = T ∧ y.cap = T) ∧ (tagState false T t y = 1 ↔ y.mom = t ∧ y.cap = T) ∧
    (tagState false T t y = 2 ↔ y.mom = t ∧ y.cap = t) ∧
    (tagState true T t y = 0 ↔ y.mom = y.cap ∧ before y.mom) ∧ (tagState true T t y = 1 ↔ y.mom = t ∧ before y.cap) ∧
    (tagState true T t y = 2 ↔ y.mom = t ∧ y.cap = t) ∧ ∀ lazy, tagState lazy T t y ≤ 3)

/-- A stage M that the pile, and for a mirrored shard the twin too, has acknowledged is followed by stage W; one that still lacks
an acknowledgement notes the one that came. The schedule engine's slot forms one rate for each group for the target step; the
table waits for the verdict of the slot's window. Errors that the engine has met act before its next stage. -/
def Obligations.AcknowledgementsAndRates : Prop :=
  (∀ (n : Nat) (twin : Bool) (errs : List HwErr) (u : UnitId) (r : RunSlot) (y z : Staged) (s : State), u = { cls := 7, idx := n } →
    s.runOf u = some r → s.upd.staged.find? (fun x => x.eng == n) = some y →
    z = { y with ackTwin := y.ackTwin || twin, ackPile := y.ackPile || !twin } →
    (z.ackPile = false ∨ (z.ackTwin = false ∧ z.needTwin = true) → exec (.stageMAck n ⟨twin, errs⟩) s = .next (State.engineErrors { s with
      upd := { s.upd with staged := s.upd.staged.map fun x => if x.eng = n then z else x } } (s.errCtx u r) r n errs) ∧
      exec (.stageMAck n ⟨twin, []⟩) s = .next { s with
        upd := { s.upd with staged := s.upd.staged.map fun x => if x.eng = n then z else x } }) ∧
    (z.ackPile = true → (z.ackTwin = true ∨ z.needTwin = false) → exec (.stageMAck n ⟨twin, errs⟩) s = .next (s.afterAck u r z errs) ∧
      ∀ h g o a, s.updOp r = some (o, h, g) →
        a = { s with upd := { s.upd with staged := s.upd.staged.filter fun x => !(x.eng == n) } } →
        ∃ b, b = (a.weightPass (a.errCtx u r) r n z.shard h (a.updCtx h.group g r.gs (s.stepT + 1)) ((s.stepT + 1) % 2 ^ 32)
            ((z.recovered.map fun i => a.piece h g (s.stepT + 1) true i)
              ++ z.fresh.map fun i => { a.piece h g (s.stepT + 1) true i with recover := false })).engineErrors (a.errCtx u r) r n errs ∧
          ((∃ q, b.runOf u = some q ∧ s.afterAck u r z errs = b.goOn u q) ∨
            (b.runOf u = none ∧ s.afterAck u r z errs = b)))) ∧
  ∀ (t : Nat) (u : UnitId) (r : RunSlot) (c : UpdCfg) (s : State), u = { cls := 8, idx := 0 } → s.runOf u = some r →
    s.updCfg = some c → ∃ v, exec (.scheduleSlot t) s = .next v ∧ v.runOf u = none ∧
      (v.unit u).run = some { r with ended := true } ∧
      (∃ l, v.upd.ratesNew = some (r.beat, l) ∧ l.length = c.groups.length ∧
        ∀ i g, c.groups[i]? = some g → l.getD i 0 = g.sched.rate (s.peak i g.sched (g.sched.phase (s.stepT + 1)).1) (s.stepT + 1)) ∧
      v = { s with now := max s.now t, upd := v.upd, units := v.units } ∧
      v.upd = { s.upd with ratesNew := v.upd.ratesNew, pieces := v.upd.pieces }

/-- A frame of the twin lane that is next in order joins what has come of its mirror frame; with the last one the mirror frame
acts by its KIND. PLAIN and COPY write their bytes at their offset of their tensor; a stage frame is applied whole when the
mirror tag stands before the stage, is ignored as a duplicate with 0x5040 when it has been applied, and is a stamp fault,
0x5047 with its shard noted for a refresh, at any other pair of stamps; FENCE records what it declares and what has come. A
request of the twin that is next in order is answered: for a page of a mirrored or mirror tensor by one COPY frame with the
page's bytes, for a tensor of a shard by the shard's tensors, for which the update slots then wait, and for one without a
shard by frames of 4 KiB that hold all of it, each read when it is sent. A mirror frame goes to the twin in pieces of at most
4 KiB, the last marked. -/
def Obligations.TwinsMirrorAndCopy : Prop :=
  ((∀ (q k : Nat) (f : Frame) (c : Instr) (s x : State), s.nextFrame q f → s.portRole q = 7 → f.typ = 1 → f.vl = 3 →
    (k, c) ∈ [(1, Instr.plain ⟨q, f⟩), (2, .stageM ⟨q, f⟩), (3, .stageW ⟨q, f⟩), (4, .fence ⟨q, f⟩), (5, .copy ⟨q, f⟩)] →
    fieldAt (s.casc.mirrorIn ++ f.payload) 0 1 = k → x = (s.accepted q f s.now).owe q 3 f.units →
    (f.flags % 2 = 0 → exec c s = .next (s.afterFrame q f 0 s.now
      { x with casc := { x.casc with mirrorIn := s.casc.mirrorIn ++ f.payload } })) ∧
    (f.flags % 2 = 1 → exec c s = .next (s.afterFrame q f 0 s.now
      (State.takeMirror { x with casc := { x.casc with mirrorIn := [] } } (mirrorOf (s.casc.mirrorIn ++ f.payload)))))) ∧
  (∀ (m : MirrorFrame) (s v : State) (T : Tensor) (ps : List Place), s.tensor m.object = some T → T.cls = 5 ∨ T.mirrored = true →
    m.offset + m.payload.length ≤ T.size → s.needsHold (T.taddr + m.offset) = none →
    s.placesOf .mirror true (T.taddr + m.offset) m.payload.length = some ps → s.guards .mirror ps = .ok →
    (ps.map fun pl => cellOf pl.loc).Nodup → (∀ pl ∈ ps, (cellOf pl.loc).1 ≠ 3) → m.kind = 1 ∨ m.kind = 5 → v = s.takeMirror m →
      memoryKeptBut (ps.map (·.loc)) s v ∧ v.casc.rxOpen = noteSeq m.seq s.casc.rxOpen ∧
        ∀ (i : Nat) (h : i < ps.length), v.peek ps[i].loc = m.payload.getD i 0) ∧
  (∀ (m : MirrorFrame) (w : Bool) (ws : Writes) (id mom cap : Nat) (s a v : State), (m.kind, w) ∈ [(2, false), (3, true)] →
    ws = unpackWrites m.payload.length m.payload → a = s.countFrame m → a.mirrorTag ws = some (id, mom, cap) → v = s.takeMirror m →
    ((if w then mom = m.stamp ∧ cap ≠ m.stamp else mom = cap ∧ mom ≠ m.stamp) →
      v = ws.foldl (fun b x => b.mirrorPut x.1 x.2.1 x.2.2) a) ∧
    ((if w then cap = m.stamp else mom = m.stamp) → Logged { code := 0x5040, cls := 0 } a v) ∧
    (¬(if w then mom = m.stamp ∧ cap ≠ m.stamp else mom = cap ∧ mom ≠ m.stamp) → ¬(if w then cap = m.stamp else mom = m.stamp) →
      memoryKept s v ∧ id ∈ v.casc.refreshDue ∧
        v.reg (Reg.errLog ((s.reg Reg.errLogHead).toNat % 256) 0) = BitVec.ofNat 32 (0x5047 + 65536) ∧
        ∀ x, s.beat.win = some x → ∃ y, v.beat.win = some y ∧ y.fault = true)) ∧
  ∀ (m : MirrorFrame) (s : State), m.kind = 4 → ∃ got, s.takeMirror m = { s with
    casc := { s.casc with fences := s.casc.fences ++ [(m.stamp, m.offset)],
                          mirrorRx := s.casc.mirrorRx ++ [(m.stamp, got)], rxOpen := s.casc.rxOpen.erase got } } ∧
    (m.offset ∈ s.casc.rxOpen → got = m.offset) ∧
    (m.offset ∉ s.casc.rxOpen → got = 0 ∨ (got ∈ s.casc.rxOpen ∧ got < m.offset))) ∧
  ((∀ (q : Nat) (f : Frame) (s : State), s.nextFrame q f → s.portRole q = 7 → f.typ = 8 → f.vl = 3 →
    exec (.copyRequest q f) s = .next (s.afterFrame q f 0 s.now
      (((s.accepted q f s.now).owe q 3 f.units).takeRequest (askOf f.payload).1 (askOf f.payload).2))) ∧
  (∀ (id : Nat) (T : Tensor) (s : State), s.tensor id = some T → (s.mirrors T = true ∨ T.cls = 5) →
    (∀ o, o / 4096 * 4096 < T.size → s.takeRequest id (some o) = s.sendMirror false s.beatNow 5 0 T.id (o / 4096 * 4096) s.beatNow
      (s.view (T.taddr + o / 4096 * 4096) (min 4096 (T.size - o / 4096 * 4096)))) ∧
    (s.shardOf id = none → s.takeRequest id none = (List.range ((T.size + 4095) / 4096)).foldl (fun v i =>
      v.sendMirror false v.beatNow 5 0 T.id (4096 * i) v.beatNow (v.view (T.taddr + 4096 * i) (min 4096 (T.size - 4096 * i)))) s) ∧
    ∀ h, s.shardOf id = some h → ∀ v, v = s.takeRequest id none → v.upd.refresh = some v.twinNext) ∧
  ∀ (lost : Bool) (beat kind shard object off stamp : Nat) (data : Bytes) (s v : State) (m : MirrorFrame), s.twin.isSome = true →
    s.casc.retired = false → s.portsOf 7 ≠ [] → v = s.sendMirror lost beat kind shard object off stamp data →
    m = { kind := kind, takeover := lost, shard := shard, object := object, offset := off, stamp := stamp % 2 ^ 32,
          seq := (getKey s.casc.mirrorTx beat).getD 0, payload := data } →
    (getKey v.casc.mirrorTx beat).getD 0 = m.seq + 1 ∧ memoryKept s v ∧
    ∃ ps : List Bytes, ps.flatten = m.bytes ∧ (∀ p ∈ ps, p.length ≤ 4096) ∧
      ∀ i p, ps[i]? = some p → ∃ q f, s.portRole q = 7 ∧ f.typ = 1 ∧ f.vl = 3 ∧ f.payload = p ∧ (f.flags % 2 = 1 ↔ i + 1 = ps.length) ∧
        (Out.frame q f ∈ v.out ∨ ∃ n, (n, f) ∈ (v.port q).sendWait))

/-! ### Tests in the field -/

/-- A die becomes due for a cover while its spare is free; a core that passes is noted to return, and returns at once with RUN 0;
one that fails is noted for the fence and logged as 0x300C, its failed arrays in ARRAY_ERR; an engine's self-test ends, and a
failure is noted for the fence. -/
def Obligations.SelfTestsEnd : Prop :=
  (∀ (d : Nat) (s : State), d < 4 → s.running = true → s.test.testCtl.getLsbD 0 = true → s.cdiePresent d = true →
    getKey s.test.testing d = none → d ∉ s.test.due → s.spareState d = 0 →
    exec (.coverDue d) s = .next { s with test := { s.test with due := s.test.due ++ [d] } }) ∧
  (∀ (p : Nat) (arrays : List Nat) (s : State), p < 68 → getKey s.test.testing (p / 17) = some p → p / 17 ∉ s.test.passed →
    (s.running = true → ∃ v, exec (.coreSelfTestDone p ⟨true, arrays⟩) s = .next v ∧
      v.test = { s.test with passed := s.test.passed ++ [p / 17] } ∧
      v.fld Reg.testStatus 10 4 = p ∧ v.fld Reg.testStatus 26 11 = (s.fld Reg.testStatus 26 11 + 1) % 2 ^ 16 ∧
      v = { s with regs := v.regs, test := v.test } ∧ regsKeptBut [Reg.testStatus] s v) ∧
    (s.running = false → s.test.passed = [] → ∃ v, exec (.coreSelfTestDone p ⟨true, arrays⟩) s = .next v ∧
      v.test.passed = [] ∧ v.test.testing = delKey s.test.testing (p / 17) ∧ memoryKept s v) ∧
    (s.running = true → ({ typ := 5, idx := p, sub := 0 } : UnitCode) ∉ s.test.fences →
      ∃ v, exec (.coreSelfTestDone p ⟨false, arrays⟩) s = .next v ∧
        v.test = { s.test with fences := s.test.fences ++ [{ typ := 5, idx := p, sub := 0 }] } ∧
        (∀ a ∈ arrays, a < 3 → v.bit (Reg.arrayErr p) (4 * a + 3) = true) ∧
        v.reg (Reg.errLog ((s.reg Reg.errLogHead).toNat % 256) 0) = BitVec.ofNat 32 (0x300C + 65536 * 2) ∧ memoryKept s v)) ∧
  ∀ (n : Nat) (pass : Bool) (s : State), n < 16 → n ∈ s.test.updTest → s.running = true →
    ∃ v, exec (.updSelftestDone n pass) s = .next v ∧ v.test.updTest = s.test.updTest.filter (· ≠ n) ∧
      v.bit (Reg.updCtl n) 2 = false ∧ v.bit Reg.testStatus 27 = !v.test.updTest.isEmpty ∧
      (pass = false → ({ typ := 7, idx := n, sub := 0 } : UnitCode) ∈ v.test.fences) ∧
      (pass = true → v.test.fences = s.test.fences) ∧ regsKeptBut [Reg.updCtl n, Reg.testStatus] s v ∧
      v = { s with regs := v.regs, test := v.test }

/-! ### Memory tiers -/

/-- A move part copies its bytes from the tensor's home to its target and moves the progress on; a part out of sequence, or whose
target overlaps what R335 lists, is not run and the device is FAILED. A part to the super tier posts its writes and a flushing
read on each port that carried them, and ends when that read returns; one that fails is logged as 0x6013. A tensor without a
home is 0x600D. A fill waits while the buffer holds a copy that has not expired; else it writes its bytes to buffer k mod (W +
1) of its stream, and the copy is noted with the slot that expires it. -/
def Obligations.MoversCopyAndFill : Prop :=
  (∀ (m : Nat) (u : UnitId) (r : RunSlot) (o : MoverOp) (T : Tensor) (s a : State), u = { cls := 3, idx := m } → s.runOf u = some r →
    s.moverOp 1 r = some o → s.tensor o.tensor = some T → a = s.beginMove o T r.beat →
    let open_ := s.tier.moves.filter MoveSt.inProgress
    let amiss : Prop := (open_.find? (fun y => y.tensor == T.id) = none ∧ o.offset ≠ 0) ∨
      (∃ y, open_.find? (fun y => y.tensor == T.id) = some y ∧ (y.homing = true ∨ y.target ≠ o.target ∨ y.progress ≠ o.offset)) ∨
      (∃ x ∈ s.heldRanges, overlap (o.target, T.size) x = true) ∨
      (∃ y ∈ open_, y.tensor ≠ T.id ∧ overlap (o.target, T.size) (y.target, y.length) = true)
    (r.prog = 0 → amiss → ∀ d, ∃ v, exec (.move m d) s = .next v ∧ v.devState = 7 ∧ memoryKept s v) ∧
    (r.prog ≠ 2 → s.homeOf T = none → ∀ d, ∃ v, exec (.move m d) s = .next v ∧ v.devState = 7) ∧
    (r.prog = 2 → exec (.move m none) s = .next s ∧
      (∃ v, exec (.move m (some [])) s = .next v ∧ v.runOf u = none ∧ memoryKept s v ∧
        onlyRegs [Reg.moveStatus] s { v with tier := s.tier, units := s.units, host := s.host } ∧
        ∀ y ∈ v.tier.moves, y.tensor = o.tensor → y.homing = false → y.progress = o.offset + o.length) ∧
      ∀ d, d ≠ [] → ∃ v, exec (.move m (some d)) s = .next v ∧ v.runOf u = none ∧ memoryKept s v ∧ v.tier.moves = s.tier.moves ∧
        v.reg (Reg.errLog ((s.reg Reg.errLogHead).toNat % 256) 0) = BitVec.ofNat 32 (0x6013 + 65536)) ∧
    ∀ h ps, r.prog = 0 → ¬amiss → s.homeOf T = some h → isSuper (h + o.offset) = false →
      a.placesOf (.mover m (some T.id) false) false (h + o.offset) o.length = some ps →
      (isSuper (o.target + o.offset) = false → a.needsHold (o.target + o.offset) = none →
        ∀ qs, a.placesOf (.mover m (some T.id) false) true (o.target + o.offset) o.length = some qs →
        a.guards (.mover m (some T.id) false) qs = .ok → (qs.map fun pl => cellOf pl.loc).Nodup → (∀ pl ∈ qs, (cellOf pl.loc).1 ≠ 3) →
        ∃ v, exec (.move m none) s = .next v ∧ v.runOf u = none ∧ memoryKeptBut (qs.map (·.loc)) s v ∧
          (∀ (i : Nat) (hp : i < ps.length) (hq : i < qs.length), v.peek qs[i].loc = s.peek ps[i].loc) ∧
          ∃ y ∈ v.tier.moves, y.tensor = T.id ∧ y.progress = o.offset + o.length) ∧
      (isSuper (o.target + o.offset) = true → (∀ x ∈ a.superParts (o.target + o.offset) o.length, x.1 ≠ none) →
        ∃ v, exec (.move m none) s = .next v ∧ (v.unit u).run = some { r with prog := 2 } ∧ memoryKept s v ∧
          ∀ p ha n, (some p, ha, n) ∈ a.superParts (o.target + o.offset) o.length →
            (∃ b, Out.hostWrite p ha b ∈ v.out) ∧ ∃ hl, Out.hostRead p hl 0 none ∈ v.out)) ∧
  (∀ (m : Nat) (u : UnitId) (r : RunSlot) (o : MoverOp) (T : Tensor) (c : TierCfg) (w : WinStream) (s : State),
    u = { cls := 3, idx := m } → s.runOf u = some r → s.moverOp 2 r = some o → s.tensor o.tensor = some T → s.tierCfg = some c →
    c.streams[o.window]? = some w →
    ((∃ y ∈ s.tier.wins, y.stream = o.window ∧ y.buffer = o.target % (w.depth + 1)) → ∀ d, exec (.fetch m d) s = .next s) ∧
    ((∀ y ∈ s.tier.wins, y.stream = o.window → y.buffer ≠ o.target % (w.depth + 1)) → ∀ h ps qs, s.homeOf T = some h →
      isSuper (h + o.offset) = false → s.placesOf (.mover m none true) false (h + o.offset) o.length = some ps →
      s.needsHold (w.bufBase + o.target % (w.depth + 1) * w.bufSize) = none →
      s.placesOf (.mover m none true) true (w.bufBase + o.target % (w.depth + 1) * w.bufSize) o.length = some qs →
      s.guards (.mover m none true) qs = .ok → (qs.map fun pl => cellOf pl.loc).Nodup → (∀ pl ∈ qs, (cellOf pl.loc).1 ≠ 3) →
      ∃ v, exec (.fetch m none) s = .next v ∧ v.runOf u = none ∧ memoryKeptBut (qs.map (·.loc)) s v ∧
        (∀ (i : Nat) (hp : i < ps.length) (hq : i < qs.length), v.peek qs[i].loc = s.peek ps[i].loc) ∧
        v.tier.wins = s.tier.wins ++ [{ stream := o.window, buffer := o.target % (w.depth + 1), layer := o.target, beat := r.beat,
                                        expires := if o.expClass < 3 then some (arrayUnit o.expCore o.expClass, o.expSlot, r.beat)
                                          else if o.expClass = 3 then some (vectorUnit o.expCore, o.expSlot, r.beat) else none }]))

/-- Freed holding space lets a waiting write allocate its tensor's hold and store its bytes; the homings of a half complete in
ascending TENSOR_ID, each once its read is out: it stores the tensor at its landing, which becomes its home; a line that the
pile writes back stays, clean. While the pile refreshes, a burst that is due is run, an interval adds one to the debt below
+7, and a scrub read of a sound codeword moves SCRUB_STATUS on. -/
def Obligations.HoldsAndHomingsProceed : Prop :=
  ((∀ (pile n : Nat) (w : HoldWait) (T : Tensor) (h : Shard) (c : TierCfg) (s b : State) (ps : List Place),
    s.portUp .a = true → s.portUp .b = true → s.tier.waits.filter (fun x => x.pile == pile) = [w] → s.tensor w.tensor = some T → T.holdGrad = true → s.homeOf T = none →
    s.gradShard T.id = some h → s.tierCfg = some c → freeUnits s.tier.holds h.pile c.holdSize ((T.size + 65535) / 65536) = some n →
    (s.tier.holds.filter fun x => x.pile == h.pile).length < 1024 →
    b = { s with tier := { s.tier with waits := s.tier.waits.filter fun x => !(x.pile == pile) } }.allocHold T →
    b.needsHold (T.taddr + w.off) = none → b.placesOf .hub true (T.taddr + w.off) w.data.length = some ps →
    b.guards .hub ps = .ok → (ps.map fun pl => cellOf pl.loc).Nodup → (∀ pl ∈ ps, (cellOf pl.loc).1 ≠ 3) →
    ∃ v, exec (.holdSpaceFreed pile) s = .next v ∧ memoryKeptBut (ps.map (·.loc)) s v ∧
      (∀ (i : Nat) (hi : i < ps.length), v.peek ps[i].loc = w.data.getD i 0) ∧ (∀ x ∈ v.tier.waits, x.pile ≠ pile) ∧
      v.homeOf T = some (holdAddr c h.pile n) ∧ ∃ x ∈ v.tier.holds, x.pile = h.pile ∧ x.tensor = T.id ∧ x.unit = n ∧
        x.count = (T.size + 65535) / 65536 ∧ x.committed = false) ∧
  (∀ (id half mv : Nat) (m : MoveSt) (data : Bytes) (s : State) (ps : List Place),
    s.tier.moves.find? (fun y => y.tensor == id && y.homing && !y.complete) = some m → s.halfOf m.target = some half →
    ((s.homingHead half).map (·.tensor) ≠ some id ∨ (∀ x ∈ s.host.asks, x.1 ≠ homingKey id) →
      exec (.homingComplete id data) s = .next s) ∧
    ((s.homingHead half).map (·.tensor) = some id → (∃ x ∈ s.host.asks, x.1 = homingKey id) → mv = s.homingMover half →
      (data.length ≠ m.length → ∃ v, exec (.homingComplete id data) s = .next v ∧ memoryKept s v ∧ v.tier.homes = s.tier.homes ∧
        v.reg (Reg.errLog ((s.reg Reg.errLogHead).toNat % 256) 0) = BitVec.ofNat 32 (0x6013 + 65536)) ∧
      (data.length = m.length → s.portUp .a = true → s.portUp .b = true → s.needsHold m.target = none →
        s.placesOf (.mover mv (some id) false) true m.target data.length = some ps →
        s.guards (.mover mv (some id) false) ps = .ok → (ps.map fun pl => cellOf pl.loc).Nodup → (∀ pl ∈ ps, (cellOf pl.loc).1 ≠ 3) →
        ∃ v, exec (.homingComplete id data) s = .next v ∧ memoryKeptBut (ps.map (·.loc)) s v ∧
          (∀ (i : Nat) (hi : i < ps.length), v.peek ps[i].loc = data.getD i 0) ∧
          v.tier.homes = (s.tier.homes.filter fun h => !(h.tensor == id)) ++ [{ tensor := id, home := m.target }] ∧
          ∀ y ∈ v.tier.moves, y.tensor = id → y.homing = true → y.complete = true ∧ y.progress = y.length))) ∧
  ∀ (pile line : Nat) (s : State), ∃ v : State, exec (.edramWriteBack pile line) s = .next v ∧
    v = { s with tier := { s.tier with edram := v.tier.edram } } ∧ v.tier.edram.length = s.tier.edram.length ∧
    ∀ (i : Nat) (x : Nat × Nat × Bool), s.tier.edram[i]? = some x → v.tier.edram[i]? = some (x.1, x.2.1, x.2.2 &&
      !decide (x.1 = pile ∧ x.2.1 = line))) ∧
  (∀ (pile : Nat) (s : State), pile < 16 → (s.fld (Reg.pileState pile) 2 0 = 2 ∨ s.fld (Reg.pileState pile) 2 0 = 4) →
    (∀ w c t, s.beat.win = some w → s.tierCfg = some c → s.burstsRun w pile < burstsDue c w pile t → s.debtOf pile ≤ 8 →
      ∃ v, exec (.plannedBurst ⟨pile, t⟩) s = .next v ∧ v.burstsRun w pile = s.burstsRun w pile + 1 ∧
        (-8 < s.debtOf pile → v.debtOf pile = s.debtOf pile - 1) ∧ (s.debtOf pile ≤ -8 → v.debtOf pile = s.debtOf pile)) ∧
    (-8 ≤ s.debtOf pile → s.debtOf pile ≤ 7 → ∃ v, exec (.refreshInterval pile) s = .next v ∧
      v.debtOf pile = min 7 (s.debtOf pile + 1)) ∧
    ∀ cw, cw + 1 < 2 ^ 30 → s.test.testCtl.getLsbD 3 = true → ∃ v, exec (.patrolScrub pile cw [] true) s = .next v ∧
      v.fld (Reg.scrubStatus pile) 9 0 = (cw + 1) / 2 ^ 20 ∧ memoryKept s v)

/-- The refresh debt of a pile falls with each burst that the running plan has due, as many as its entries' COUNT from their
START_NS on, but not below −8, rises with each interval, and at +8 an unplanned burst follows and is counted and logged as
0x6008. A scrub read moves the progress of the pass on; a codeword that decodes changes nothing else, a corrected one is
counted, one that does not decode is listed or asked of the partner with 0x6007 or 0x6006, and a failed interface loses the
pile. A core's read of a home in the other half, inside a declared region: a line of its die's remote cache hits, any other
misses and is filled, and a line in error is logged as 0x1020, dropped and filled again. -/
def Obligations.PilesRefreshScrubAndCache : Prop :=
  (∀ (pile : Nat) (s : State), pile < 16 → (s.fld (Reg.pileState pile) 2 0 = 2 ∨ s.fld (Reg.pileState pile) 2 0 = 4) →
    (∀ w c t, s.beat.win = some w → s.tierCfg = some c →
      (burstsDue c w pile t ≤ s.burstsRun w pile → exec (.plannedBurst ⟨pile, t⟩) s = .next s) ∧
      (s.burstsRun w pile < burstsDue c w pile t → s.debtOf pile ≤ -8 → exec (.plannedBurst ⟨pile, t⟩) s = .next { s with
        now := max s.now t, tier := { s.tier with bursts := putKey s.tier.bursts pile (w.beat, s.burstsRun w pile + 1) } }) ∧
      (s.burstsRun w pile < burstsDue c w pile t → -8 < s.debtOf pile → s.debtOf pile ≤ 8 →
        ∃ v, exec (.plannedBurst ⟨pile, t⟩) s = .next v ∧ v.debtOf pile = s.debtOf pile - 1 ∧
          v.burstsRun w pile = s.burstsRun w pile + 1 ∧ regsKeptBut [Reg.refreshStatus pile] s v ∧
          v = { s with now := max s.now t, regs := v.regs, tier := { s.tier with debt := v.tier.debt, bursts := v.tier.bursts } })) ∧
    (s.debtOf pile < 7 → -8 ≤ s.debtOf pile → ∃ v, exec (.refreshInterval pile) s = .next v ∧ v.debtOf pile = s.debtOf pile + 1 ∧
      v = { s with regs := v.regs, tier := { s.tier with debt := v.tier.debt } } ∧ regsKeptBut [Reg.refreshStatus pile] s v ∧
      v.fld (Reg.refreshStatus pile) 4 0 = ((s.debtOf pile + 1) % 32).toNat) ∧
    (s.debtOf pile = 7 → ∃ v, exec (.refreshInterval pile) s = .next v ∧ v.debtOf pile = 7 ∧
      v.fld (Reg.refreshStatus pile) 20 5 = min (s.fld (Reg.refreshStatus pile) 20 5 + 1) (2 ^ 16 - 1) ∧
      ∃ b, onlyRegs [Reg.refreshStatus pile] s { b with tier := s.tier } ∧
        Logged { code := 0x6008, cls := 0, unit := { typ := 6, idx := pile, sub := 31 } } b v)) ∧
  (∀ (pile cw : Nat) (errs : List (Nat × Nat × Nat)) (s : State), pile < 16 → cw < 2 ^ 30 →
    (s.fld (Reg.pileState pile) 2 0 = 2 ∨ s.fld (Reg.pileState pile) 2 0 = 4) → s.test.testCtl.getLsbD 3 = true →
    let found := decodeCw (if s.bit (Reg.dieRetired pile) 5 then some (s.fld (Reg.dieRetired pile) 4 0) else none) errs
    (cw + 1 < 2 ^ 30 → found = .clean ∨ found = .erased → ∃ v, exec (.patrolScrub pile cw errs true) s = .next v ∧
      onlyRegs [Reg.scrubStatus pile] s v ∧ v.fld (Reg.scrubStatus pile) 9 0 = (cw + 1) / 2 ^ 20) ∧
    (cw + 1 = 2 ^ 30 → found = .clean ∨ found = .erased → ∃ v, exec (.patrolScrub pile cw errs true) s = .next v ∧
      v.fld (Reg.scrubStatus pile) 9 0 = 0 ∧ v.fld (Reg.scrubStatus pile) 25 10 = (s.fld (Reg.scrubStatus pile) 25 10 + 1) % 2 ^ 16 ∧
      (v.bit (Reg.scrubStatus pile) 26 = true ↔ s.bit (Reg.capCommon 0) 13 = true ∧ 1024 < (getKey s.tier.scrub pile).getD 0) ∧
      getKey v.tier.scrub pile = none) ∧
    (∀ die, found = .corrected die → ∃ v, exec (.patrolScrub pile cw errs true) s = .next v ∧
      (cw + 1 < 2 ^ 30 → getKey v.tier.scrub pile = some ((getKey s.tier.scrub pile).getD 0 + 1)) ∧
      v.reg (Reg.errLog ((s.reg Reg.errLogHead).toNat % 256) 0) = BitVec.ofNat 32 0x6001 ∧
      v.fld (Reg.eccCeCnt pile) 31 0 = min (s.fld (Reg.eccCeCnt pile) 31 0 + 1) (2 ^ 32 - 1)) ∧
    (found = .bad → (s.tier.ueTimes.filter fun x => x.1 == pile).length < 63 → ∃ v, exec (.patrolScrub pile cw errs true) s = .next v ∧
      (∀ T off, s.tensorOf (s.devOf pile (64 * cw)) = some (T, off) → T.mirrored = true →
        v.reg (Reg.errLog ((s.reg Reg.errLogHead).toNat % 256) 0) = BitVec.ofNat 32 0x6006 ∧
          (∀ x ∈ v.tier.listed, ¬(x.mem = pile ∧ x.cw = cw)) ∧
          (s.twin.isSome = true → s.casc.retired = false → s.portsOf 7 ≠ [] → ∃ q f, s.portRole q = 7 ∧ f.typ = 8 ∧
            f.payload = askBytes T.id (some (off / 4096 * 4096)) ∧
            (Out.frame q f ∈ v.out ∨ ∃ n, (n, f) ∈ (v.port q).sendWait))) ∧
      ((s.tensorOf (s.devOf pile (64 * cw)) = none ∨
          ∃ T off, s.tensorOf (s.devOf pile (64 * cw)) = some (T, off) ∧ T.mirrored = false) →
        v.reg (Reg.errLog ((s.reg Reg.errLogHead).toNat % 256) 0) = BitVec.ofNat 32 0x6007 ∧
          ((s.tier.listed.filter fun x => x.mem == pile).length < 16 → ∃ x ∈ v.tier.listed, x.mem = pile ∧ x.cw = cw))) ∧
    ∃ v, exec (.patrolScrub pile cw errs false) s = .next v ∧ v.bit (Reg.dieRetired pile) 6 = true ∧ v.fld (Reg.pileState pile) 2 0 = 5) ∧
  (∀ (l addr len half hub die : Nat) (g : RdcRegion) (s : State), die = s.physOf l / 17 → hub = dieHub die → 0 < len →
    addr % 256 + len ≤ 256 → s.halfOf addr = some half → half ≠ hub → s.rdcRegion addr = some g → s.bit (Reg.coreMap l) 7 = true →
    hub ∈ s.tier.rdcOn →
    ((∃ x ∈ s.tier.rdc, x.die = die ∧ x.line = addr / 256) → ∃ v, exec (.remoteRead l addr len []) s = .next v ∧
      v.pair (Reg.rdcHitLo hub) = (s.pair (Reg.rdcHitLo hub) + 1) % 2 ^ 64 ∧
      onlyRegs [Reg.rdcHitLo hub, Reg.rdcHitLo hub + 4] s v) ∧
    ((∀ x ∈ s.tier.rdc, x.die = die → x.line ≠ addr / 256) → ∃ v, exec (.remoteRead l addr len []) s = .next v ∧
      v.pair (Reg.rdcMissLo hub) = (s.pair (Reg.rdcMissLo hub) + 1) % 2 ^ 64 ∧
      v = { s with regs := v.regs, free := v.free, tier := { s.tier with rdc := v.tier.rdc } } ∧
      regsKeptBut [Reg.rdcMissLo hub, Reg.rdcMissLo hub + 4] s v ∧
      (∃ y ∈ v.tier.rdc, y.die = die ∧ y.line = addr / 256 ∧ y.lifetime = g.lifetime) ∧
      ∀ y ∈ v.tier.rdc, y ∈ s.tier.rdc ∨ (y.die = die ∧ y.line = addr / 256)) ∧
    ∃ v a, exec (.remoteRead l addr len [.rdcUe die (addr / 256)]) s = .next v ∧
      Logged { code := 0x1020, cls := 0, unit := { typ := 3, idx := die, sub := 0 } } s a ∧
      v.pair (Reg.rdcMissLo hub) = (s.pair (Reg.rdcMissLo hub) + 1) % 2 ^ 64 ∧
      ∃ y ∈ v.tier.rdc, y.die = die ∧ y.line = addr / 256)

/-! ### Host ports -/

/-- A copy engine's slot takes the first port that PORT allows and that is up. An H2D run asks for its buffer in requests of at
most Max_Read_Request_Size and 4 KiB, as many as the port keeps outstanding; a D2H run posts the bytes of its range in writes
of at most Max_Payload_Size; a NOTIFY run moves nothing. With no such port the run is aborted with 0x9003, and the slot ends.
Data that a completion brings goes to its place in the destination, and the run is complete when every byte has come. An
error, poisoned data or a timeout aborts the run with 0x9003: its slot ends, and only the bytes it has written can have
changed. A flushing read that returns is counted, and the flag and the vector that stood behind it follow on the other port.
-/
def Obligations.CopyEnginesMoveTheirData : Prop :=
  (∀ (e : Nat) (u : UnitId) (r : RunSlot) (d : CopyDesc) (s : State), e < 24 → u = { cls := 4, idx := e } → s.runOf u = some r →
    r.prog = 0 →
    (∀ p, s.copyPort d = some p →
      let piece := max 1 (min 4096 (s.hport p).maxRead)
      let load := max 1 (s.hport p).maxPayload
      let n := min ((if (s.hport p).flit then 1536 else 768) - s.outstanding p) ((d.length + piece - 1) / piece)
      let buf := d.hostAddr + (s.nextRun r.op % max 1 d.nbuf) * d.stride
      let run (done : Nat) (asked : List (Nat × Nat)) (ready : Bool) : CopyRun :=
        { engine := e, desc := r.op, run := s.nextRun r.op, beat := r.beat, port := p, done := done, outstanding := asked,
          complete := ready }
      let asks := (List.range n).map fun i => (i * piece, min piece (d.length - i * piece))
      (s.copyDesc 1 r = some d → ∃ v, exec (.h2d e) s = .next v ∧ run (min d.length (n * piece)) asks false ∈ v.host.runs ∧
        v.out = s.out ++ asks.map fun x => .hostRead p (buf + x.1) x.2 (some e)) ∧
      (∀ ps, s.copyDesc 2 r = some d → s.placesOf (.copy e) false d.taddr d.length = some ps →
        ∃ v q, exec (.d2h e) s = .next v ∧ run d.length [] true ∈ v.host.runs ∧ v.runOf u = none ∧ memoryKept s v ∧
          (∀ x ∈ q, ∃ h g, x = Out.snoop h g) ∧
          v.out = s.out ++ q ++ (List.range ((d.length + load - 1) / load)).map fun i =>
            .hostWrite p (buf + i * load) (((ps.map fun pl => s.peek pl.loc).drop (i * load)).take load)) ∧
      (s.copyDesc 3 r = some d → ∃ v, exec (.notify e) s = .next v ∧ run 0 [] true ∈ v.host.runs ∧ v.runOf u = none ∧
        v = { s with regs := v.regs, units := v.units, host := v.host })) ∧
    (s.copyPort d = none → ∀ c k, (c, k) ∈ [(Instr.h2d e, 1), (.d2h e, 2), (.notify e, 3)] → s.copyDesc k r = some d →
      ∃ v, exec c s = .next v ∧ v.runOf u = none ∧ v.bit (Reg.ceStatus e) 4 = true ∧
        v.reg (Reg.errLog ((s.reg Reg.errLogHead).toNat % 256) 0) = BitVec.ofNat 32 0x9003 ∧ memoryKept s v ∧ v.host = s.host)) ∧
  (∀ (e : Nat) (u : UnitId) (r : CopyRun) (d : CopyDesc) (s : State), e < 24 → u = { cls := 4, idx := e } → s.copyOf e = some r →
    s.descOf r = some d → r.outstanding ≠ [] →
    (∀ off bytes ps, bytes ≠ [] → (∃ x ∈ r.outstanding, x.1 ≤ off ∧ off + bytes.length ≤ x.1 + x.2) →
      s.needsHold (d.taddr + off) = none → s.placesOf (.copy e) true (d.taddr + off) bytes.length = some ps →
      s.guards (.copy e) ps = .ok → (ps.map fun pl => cellOf pl.loc).Nodup → (∀ pl ∈ ps, (cellOf pl.loc).1 ≠ 3) →
      ∃ v, exec (.readCompletion e (.data off bytes)) s = .next v ∧ memoryKeptBut (ps.map (·.loc)) s v ∧
        (∀ (i : Nat) (hi : i < ps.length), v.peek ps[i].loc = bytes.getD i 0) ∧
        (r.outstanding.flatMap (cutAsk off bytes.length) = [] → r.done = d.length → v.runOf u = none ∧
          { r with complete := true, outstanding := [] } ∈ v.host.runs) ∧
        (r.outstanding.flatMap (cutAsk off bytes.length) ≠ [] ∨ r.done ≠ d.length → ∃ c ∈ v.host.runs, c.engine = e ∧
          c.complete = false ∧ r.outstanding.flatMap (cutAsk off bytes.length) <+: c.outstanding)) ∧
    ∀ c ∈ [Instr.readCompletion e .error, .readCompletion e .poisoned, .completionTimeout e], ∃ v, exec c s = .next v ∧
      r ∉ v.host.runs ∧ v.runOf u = none ∧ v.bit (Reg.ceStatus e) 4 = true ∧
      v.reg (Reg.errLog ((s.reg Reg.errLogHead).toNat % 256) 0) = BitVec.ofNat 32 0x9003 ∧
      ∀ l, (d.kind = 1 → ∀ i pl, i < d.length → r.arrived i = true → s.resolve (d.taddr + i) = some pl → cellOf l ≠ cellOf pl.loc) →
        v.peek l = s.peek l) ∧
  (∀ (id : Nat) (f : Flushing) (s : State), s.host.flushing.find? (fun x => x.id == id) = some f →
    f.desc.vector < 256 → ∃ v, exec (.flushingReadComplete id) s = .next v ∧
      v.host = { s.host with flushing := s.host.flushing.filter fun x => !(x.id == id) } ∧
      v.fld Reg.xportFence 31 16 = min (s.fld Reg.xportFence 31 16 + 1) (2 ^ 16 - 1) ∧ memoryKept s v ∧
      v.out = s.out ++ (if f.desc.flag = true ∧ s.portUp f.port = true
          then [.hostWrite f.port f.desc.flagAddr (leBytes 8 (f.desc.flagBase + f.run))] else [])
        ++ (if f.desc.vector ≠ 255 ∧ (s.hport f.port).msixOn = true ∧ s.bit (Reg.msix (portIdx f.port) f.desc.vector 3) 0 = false
          then [.msix f.port f.desc.vector] else []))

/-- A reset or loss of a port touches that port only: its runs are gone, its reads retired, its configuration is as after reset,
it leaves the link down but for a Function Level Reset, 0x9002 and 0xA013 are logged, and its crossings' flush is counted. A
port trains at the rate and width its link offers, in CXL mode when both sides allow it, and takes the HDM range then; a
recovery loses nothing and is logged as 0x9001; CTRL names the port that controls, at once with RUN 0 and else from the gap; a
request that the host's cache does not answer is 0x900B and marks the window. -/
def Obligations.HostLinksTrainAndReset : Prop :=
  (∀ (p : HPort) (k : PortResetKind) (n : Nat) (s : State), s.power.powerOk = true → (k = .perst ∨ (s.hport p).up = true) →
    ∃ v, exec (.portReset p k n) s = .next v ∧ v.hport (otherPort p) = s.hport (otherPort p) ∧ (∀ x ∈ v.host.runs, x.port ≠ p) ∧
      (∀ x ∈ v.host.asks, x.2 ≠ p) ∧ (∀ x ∈ v.host.flushing, otherPort x.port ≠ p) ∧
      (∀ x ∈ s.host.runs, x.port ≠ p → x ∈ v.host.runs) ∧
      (k = .flr → v.hport p = { HostPort.reset with up := true, cxl := (s.hport p).cxl, flit := (s.hport p).flit }) ∧
      (k ≠ .flr → (v.hport p).up = false) ∧
      (k ≠ .flr → (s.hport p).up = true → ∀ x, s.host.hdm = some x → x.1 = p →
        v.host.hdm = none ∧ v.host.hostBias = [] ∧ v.host.flips = []) ∧
      ((∀ x ∈ s.host.runs, x.port ≠ p) → (∀ x ∈ s.host.asks, x.2 ≠ p) → s.beat.reading = 0 →
        v.reg (Reg.errLog ((s.reg Reg.errLogHead).toNat % 256) 0) = BitVec.ofNat 32 0x9002 ∧
        v.reg (Reg.errLog (((s.reg Reg.errLogHead).toNat + 1) % 256) 0) = BitVec.ofNat 32 0xA013 ∧
        v.reg Reg.errLogHead = s.reg Reg.errLogHead + 2 ∧ memoryKept s v ∧ (s.host.ctrl = p → v.host.failing = true) ∧
        v.fld Reg.xingFlush 15 0 = min (s.fld Reg.xingFlush 15 0 + n) (2 ^ 16 - 1) ∧ v.fld Reg.xingFlush 23 16 = 1 + portIdx p ∧
        (k ≠ .flr → s.devState = 3 → s.running = false → s.portUp (otherPort p) = false → v.devState = 5) ∧
        (k ≠ .linkDown → v.bit (portStatus p) 12 = true) ∧
        (k ≠ .flr → (s.hport p).up = true → v.bit (portStatus p) 11 = true ∧ v.fld (portStatus p) 10 0 = 0) ∧
        ∀ o, 0x210000 + 0x1000 * portIdx p ≤ o → o < 0x210800 + 0x1000 * portIdx p → v.reg o = State.reset.reg o)) ∧
  ((∀ (p : HPort) (l : PortLink) (s : State), s.power.powerOk = true → s.pkg.testMode = false → (s.hport p).up = false →
    (l.width = 1 ∨ l.width = 2 ∨ l.width = 4 ∨ l.width = 8 ∨ l.width = 16) → 1 ≤ l.speed → l.speed ≤ 6 →
    let cxl := l.cxlOffered && s.bit (match p with | .a => Reg.portCtlA | .b => Reg.portCtlB) 1 && s.bit Reg.capPresent1 24
    ∃ v, exec (.pcieLinkUp p l) s = .next v ∧ v.hport p = {
        up := true, bar2Log2 := l.bar2Log2, maxPayload := l.maxPayload, maxRead := l.maxRead, msixOn := l.msixOn, cxl := cxl,
        flit := l.flit || decide (l.speed = 6) } ∧
      v.hport (otherPort p) = s.hport (otherPort p) ∧ v.fld (portStatus p) 1 0 = (if cxl then 3 else 2) ∧
      v.fld (portStatus p) 6 2 = l.width ∧ v.fld (portStatus p) 9 7 = l.speed ∧
      v.bit (portStatus p) 10 = (l.flit || decide (l.speed = 6)) ∧ memoryKept s v ∧
      (cxl = true → s.fld Reg.hdmCtl 25 25 = portIdx p → s.bit Reg.hdmCtl 26 = true → 0 < s.fld Reg.hdmCtl 24 12 →
        v.host.hdm = some (p, s.fld Reg.hdmCtl 11 0 * 2 ^ 28, s.fld Reg.hdmCtl 24 12 * 2 ^ 28)) ∧
      (cxl = false → v.host.hdm = s.host.hdm)) ∧
  (∀ (p : HPort) (s : State), (s.hport p).up = true → ∃ v, exec (.linkRecovery p) s = .next v ∧
    Logged { code := 0x9001, cls := 0, unit := { typ := 12, idx := portIdx p, sub := 0 } } s v) ∧
  (∀ (via : Req) (target : HPort) (s : State), s.writeOpen Reg.portCtlA = true → s.host.ctrl ≠ target →
    (s.running = false → ∃ v, exec (.ctrl via target) s = .next v ∧ v.host.ctrl = target ∧ v.host.failing = false ∧ memoryKept s v) ∧
    (s.running = true → via = (match s.host.ctrl with
        | .a => .portA
        | .b => .portB) → ∃ v, exec (.ctrl via target) s = .next v ∧ v.host.ctrlNext = some target ∧ v.host.ctrl = s.host.ctrl)) ∧
  ∀ (hub : Nat) (s : State), hub < 2 → (s.host.portA.cxl = true ∨ s.host.portB.cxl = true) →
    ∃ v, exec (.cxlCacheTimeout hub) s = .next v ∧
      v.reg (Reg.errLog ((s.reg Reg.errLogHead).toNat % 256) 0) = BitVec.ofNat 32 (0x900B + 65536) ∧
      (∀ x, s.beat.win = some x → ∃ y, v.beat.win = some y ∧ y.fault = true) ∧ memoryKept s v)

/-! ### Foragers -/

/-- R376: a record of another device, of a stream that is absent or bound elsewhere, of no outstanding refetch, or below the
expected SRC_SEQ is dropped, counted, and with LOG_EN written to the damage ring as 0x701A; one in sequence is queued; one of
the wrong kind or with a bad CRC is refused and keeps its SRC_SEQ; one past the expected value refuses those it skips and is
then accepted. A refetch request ends with the record that answers it. -/
def Obligations.RecordsEnterInSequence : Prop :=
  ∀ (f : Nat) (q : Option Nat) (r : SampleRec) (c : ForCfg) (s : State), f < 2 → s.forCfg = some c →
    (∀ k, k = (s.recordStream r).getD (r.stream % 32) →
      (s.recordStream r = none ∨ s.stream k = none ∨ (∃ st, s.stream k = some st ∧ (st.forager ≠ f ∨
        (st.partner = true ∧ s.casc.takeover = false) ∨ (r.refetch = true ∧ (k, r.sampleId, r.srcSeq) ∉ s.forager.refetch) ∨
        (r.refetch = false ∧ r.srcSeq < (getKey s.forager.expect k).getD 0)))) →
      (s.bit Reg.forgCtl 1 = false → ∃ v, exec (.sampleRecord f q r) s = .next v ∧ onlyRegs [Reg.forgRefused f] s v ∧
        v.fld (Reg.forgRefused f) 15 0 = min (s.fld (Reg.forgRefused f) 15 0 + 1) (2 ^ 16 - 1)) ∧
      ∀ a g ps, s.bit Reg.forgCtl 1 = true → 0 < s.fld Reg.forgErrCtl 15 0 → g = ((s.stream k).map (·.forager)).getD 0 →
        a = s.ringAddr Reg.forgErrBaseLo + 64 * ((s.reg Reg.forgErrHead).toNat % s.fld Reg.forgErrCtl 15 0) →
        s.needsHold a = none → s.placesOf (.forager g 8) true a 64 = some ps → s.guards (.forager g 8) ps = .ok →
        (ps.map fun pl => cellOf pl.loc).Nodup → (∀ pl ∈ ps, (cellOf pl.loc).1 ≠ 3) →
        ∃ v, exec (.sampleRecord f q r) s = .next v ∧ memoryKeptBut (ps.map (·.loc)) s v ∧
          v.reg Reg.forgErrHead = s.reg Reg.forgErrHead + 1 ∧
          ∀ (i : Nat) (h : i < ps.length), v.peek ps[i].loc = (Damage.bytes {
              code := 0x701A, stream := k, flags := 0, sampleId := r.sampleId, srcSeq := r.srcSeq, total := if r.kind = 2 then r.payload.length else 0, length := r.length }
            (s.reg Reg.forgErrHead).toNat (s.pair Reg.beatCountLo % 2 ^ 32) (((s.stream k).map (·.partner)).getD false)).getD i 0) ∧
  (∀ (k : Nat) (st : FStream), s.recordStream r = some k → s.stream k = some st → st.forager = f →
    (st.partner = false ∨ s.casc.takeover = true) → r.refetch = true → (k, r.sampleId, r.srcSeq) ∈ s.forager.refetch →
    ∃ v, exec (.sampleRecord f q r) s = .next v ∧ (k, r.sampleId, r.srcSeq) ∉ v.forager.refetch ∧
      v.forager.expect = s.forager.expect) ∧
  ∀ (k want : Nat) (st : FStream), s.recordStream r = some k → s.stream k = some st → st.forager = f →
    (st.partner = false ∨ s.casc.takeover = true) → r.refetch = false → want = (getKey s.forager.expect k).getD 0 → want ≤ r.srcSeq →
    s.bit Reg.forgCtl 1 = false → s.cached c k r = none → ∃ v, exec (.sampleRecord f q r) s = .next v ∧ onlyRegs [Reg.forgRefused f] s { v with forager := s.forager } ∧
      getKey v.forager.expect k = some (r.srcSeq + 1) ∧
      ((r.kind = 1 ∧ st.kind = 1 ∨ r.kind = 2 ∧ st.kind = 2) → crc32c r.payload = r.crc.toNat →
        v.forager.queue = s.forager.queue ++ [{ stream := k, sample := r }] ∧
        v.fld (Reg.forgRefused f) 15 0 = min (s.fld (Reg.forgRefused f) 15 0 + (r.srcSeq - want)) (2 ^ 16 - 1)) ∧
      (¬(r.kind = 1 ∧ st.kind = 1 ∨ r.kind = 2 ∧ st.kind = 2 ∨ r.kind = 3) ∨ crc32c r.payload ≠ r.crc.toNat →
        v.forager.queue = s.forager.queue ∧
        v.fld (Reg.forgRefused f) 15 0 = min (s.fld (Reg.forgRefused f) 15 0 + (r.srcSeq - want) + 1) (2 ^ 16 - 1))

/-- A lane goes on with the record that it suspended in a slot of the same stream, else takes the stream's oldest. An image that
the checks refuse, a text above 64 MiB, and a long text with no room are refused and counted; any other is staged with its
elements or its tokens, while STAGING has space. A slot whose budget ends first suspends its record. -/
def Obligations.LanesStageTheirSamples : Prop :=
  ∀ (f lane n : Nat) (r : RunSlot) (c : ForCfg) (st : FStream) (q : Queued) (s : State), f < 2 → lane < 4 → s.forCfg = some c →
    s.forager.cache = [] → s.stream r.op = some st → st.forager = f → s.laneRecord n r.op = some q →
    s.bit Reg.forgCtl 1 = false →
    let left (v : State) : Prop := (n, q) ∉ v.forager.suspended ∧ ((n, q) ∉ s.forager.suspended → q ∉ v.forager.queue)
    let halted (v : State) : Prop := v = { s with forager := v.forager } ∧ (n, q) ∈ v.forager.suspended ∧
      ((n, q) ∉ s.forager.suspended → q ∉ v.forager.queue)
    (n = 9 * f + lane → s.runOf { cls := 6, idx := n } = some r → st.kind = 1 → q.sample.kind = 1 →
      (∀ e, jpegDecode q.sample.payload = .error e → (∃ v, exec (.jpegDecode f ⟨lane, true⟩) s = .next v ∧ left v ∧
        v.fld (Reg.forgRefused f) 15 0 = min (s.fld (Reg.forgRefused f) 15 0 + 1) (2 ^ 16 - 1) ∧ memoryKept s v) ∧
        ∃ v, exec (.jpegDecode f ⟨lane, false⟩) s = .next v ∧ halted v) ∧
      ∀ m, jpegDecode q.sample.payload = .ok m →
        (s.stagingFits c (s.imageOut st m).1.length = false → ∀ b, exec (.jpegDecode f ⟨lane, b⟩) s = .next s) ∧
        (s.stagingFits c (s.imageOut st m).1.length = true → (∃ v, exec (.jpegDecode f ⟨lane, true⟩) s = .next v ∧ left v ∧
          ∃ y ∈ v.forager.staged, y.stream = q.stream ∧ y.sampleId = q.sample.sampleId ∧ y.srcSeq = q.sample.srcSeq ∧
            y.data = (s.imageOut st m).1 ∧ y.units = 1 ∧
            y.flags = if m.concealed = 0 then 0 else if st.concealMask then 17 else 1) ∧
          ∃ v, exec (.jpegDecode f ⟨lane, false⟩) s = .next v ∧ halted v)) ∧
    (n = 9 * f + 4 + lane → s.runOf { cls := 6, idx := n } = some r → st.kind = 2 → q.sample.kind = 2 →
      let y := tokenizeText (s.trie st) st.byteBase st.bosId st.eosId q.sample.payload
      let fits : Prop := y.tokens.length ≤ st.longAt ∨ (st.longOk = true ∧ ∃ b, c.longBudget q.stream = some b ∧ y.tokens.length ≤ b)
      (2 ^ 26 < q.sample.payload.length ∨ ¬fits → (∃ v, exec (.tokenize f ⟨lane, true⟩) s = .next v ∧ left v ∧
        v.fld (Reg.forgRefused f) 15 0 = min (s.fld (Reg.forgRefused f) 15 0 + 1) (2 ^ 16 - 1) ∧ memoryKept s v) ∧
        ∃ v, exec (.tokenize f ⟨lane, false⟩) s = .next v ∧ halted v) ∧
      (q.sample.payload.length ≤ 2 ^ 26 → fits →
        (s.stagingFits c (4 * y.tokens.length) = false → ∀ b, exec (.tokenize f ⟨lane, b⟩) s = .next s) ∧
        (s.stagingFits c (4 * y.tokens.length) = true → (∃ v, exec (.tokenize f ⟨lane, true⟩) s = .next v ∧ left v ∧
          ∃ x ∈ v.forager.staged ++ v.forager.long, x.stream = q.stream ∧ x.sampleId = q.sample.sampleId ∧
            x.srcSeq = q.sample.srcSeq ∧ x.data = y.tokens.flatMap (leBytes 4) ∧ x.units = y.tokens.length ∧
            x.flags = if y.bad = 0 then 0 else 8) ∧
          ∃ v, exec (.tokenize f ⟨lane, false⟩) s = .next v ∧ halted v)))

/-- R384: the tokens of a payload cut it into pieces in order, each the longest path of the dictionary that starts there and names
a token, within valid bytes, or a single byte that no such path covers, as BYTE_BASE plus the byte. -/
def Obligations.TokensAreLongestMatches : Prop :=
  ∀ (t : Trie) (base : Nat) (bs : List (Nat × Bool)), ∃ ps : List (List (Nat × Bool) × Nat),
    ps.flatMap (·.1) = bs ∧ t.tokens base bs.length bs = ps.map (·.2) ∧
    ∀ (i : Nat) (h : i < ps.length),
      let after := (ps.drop i).flatMap (·.1)
      let names (k v : Nat) : Prop := 1 ≤ k ∧ k ≤ after.length ∧ (∀ x ∈ after.take k, x.2 = false) ∧
        ∃ n, ((after.take k).map (·.1)).foldlM (fun a b => t.child a b) 0 = some n ∧ t.token n = some v
      (names ps[i].1.length ps[i].2 ∧ ∀ k v, names k v → k ≤ ps[i].1.length) ∨
        ((∀ k v, ¬names k v) ∧ ∃ b bad, ps[i].1 = [(b, bad)] ∧ ps[i].2 = base + b)

/-- A batch op in streaming mode packs ready samples in order, each that still fits, at most 4,096, past the first 64 only while
they lie below FILL_MIN, and waits below FILL_MIN. It writes the micro-batch and its manifest, and its samples leave the
queue; where the manifest of the cycle stands, it places the same samples in the same places again. -/
def Obligations.BatchesFollowTheirManifest : Prop :=
  (∀ (budget fill limit : Nat) (xs : List Staged9) (ps : List Pick), ps = scanPicks budget fill limit 0 0 0 xs →
    (ps.map (·.sample)).Sublist xs ∧ usedBy ps ≤ budget ∧ ps.length ≤ 4096 ∧
    (∀ x ∈ xs, x ∈ xs.take limit ∨ usedBy ps < fill → x ∉ ps.map (·.sample) →
      x.units = 0 ∨ ps.length = 4096 ∨ budget < usedBy ps + x.units) ∧
    ∀ (i : Nat) (h : i < ps.length), ps[i].start = usedBy (ps.take i) ∧ ps[i].len = ps[i].sample.units) ∧
  ∀ (f a : Nat) (u : UnitId) (r : RunSlot) (c : ForCfg) (o : BatchDesc) (st : FStream) (T : Tensor) (ps qs : List Place) (s : State),
    f < 2 → u = { cls := 6, idx := 9 * f + 8 } → s.runOf u = some r → s.forCfg = some c → s.forager.cache = [] →
    c.ops[r.op]? = some o → s.stream o.stream = some st → st.kind = 2 → s.tensor o.target = some T →
    s.manifestAt c r.op o st.partner (s.manifestCycle c) = some a → s.needsHold T.taddr = none → s.needsHold a = none →
    s.placesOf (.forager f 8) true T.taddr (11 * o.budget) = some ps → s.guards (.forager f 8) ps = .ok →
    (∀ pl ∈ ps ++ qs, (cellOf pl.loc).1 ≠ 3) →
    (s.manifestStands a r.op o (s.manifestCycle c) = false → ((s.window r.beat).map (·.fixed)).getD s.forager.fixed = false →
      (usedBy (scanPicks o.budget o.fillMin 64 0 0 0 (s.readyFor o)) < o.fillMin → exec (.batchOp f) s = .next s) ∧
      (o.fillMin ≤ usedBy (scanPicks o.budget o.fillMin 64 0 0 0 (s.readyFor o)) → ∀ l, l = scanPicks o.budget o.fillMin 64 0 0 0 (s.readyFor o) →
        s.placesOf (.forager f 8) true a (64 + 32 * l.length) = some qs → s.guards (.forager f 8) qs = .ok →
        ((ps ++ qs).map fun pl => cellOf pl.loc).Nodup →
        ∃ v, exec (.batchOp f) s = .next v ∧ v.runOf u = none ∧ memoryKeptBut ((ps ++ qs).map (·.loc)) s v ∧
          (∀ (i : Nat) (h : i < ps.length), v.peek ps[i].loc = (textBatch st o l).getD i 0) ∧
          (∀ (i : Nat) (h : i < qs.length), v.peek qs[i].loc =
            (manifestBytes (s.manifestCycle c) r.op o l false st.partner r.pos).getD i 0) ∧
          (∀ p ∈ l, p.sample.marker = false → p.sample ∉ v.forager.long ∧ p.sample ∉ v.forager.staged))) ∧
    (s.manifestStands a r.op o (s.manifestCycle c) = true → (ps.map fun pl => cellOf pl.loc).Nodup →
      (∀ e ∈ s.manifestEntries a, e.live = true ∧ s.retained e o.stream ≠ none) →
      ∃ v l, exec (.batchOp f) s = .next v ∧ v.runOf u = none ∧ memoryKeptBut (ps.map (·.loc)) s v ∧
        (∀ (i : Nat) (h : i < ps.length), v.peek ps[i].loc = (textBatch st o l).getD i 0) ∧
        l.map (fun p : Pick => (some p.sample, p.start, p.len)) =
          (s.manifestEntries a).map fun e => (s.retained e o.stream, e.start, e.len))

/-! ### Links -/

/-- R415, R417: on a port that carries frames, one that fails its CRC is answered by a NAK of the frame expected, and a gap once;
the frame expected is accepted, and the 64th not yet acknowledged is acknowledged; a frame of another cascade is dropped,
counted and logged as 0x8050; an ACK takes frames out of the replay buffer; a NAK sends every frame from its LSEQ on again,
and the eighth in a row takes the port down; CREDIT adds to its lane; the timers send IDLE, ACK and numbered CREDIT frames. -/
def Obligations.LinksAcknowledgeAndRetry : Prop :=
  ∀ (q : Nat) (f : Frame) (c : Instr) (s : State) (p : PortSt), q < 32 → s.portActive q = true → p = s.port q → p.rxLseq < 2 ^ 32 →
    f.lseq < 2 ^ 32 → p.txLseq < 2 ^ 32 → c = (if f.flags / 2 % 2 = 1 then .reduceFrame q f else .dataFrame q f) →
    (f.good = false → ∀ k d, (k, d) ∈ [(2, Instr.ack q f), (3, .nak q f), (4, .credit q f), (5, .ident q f)] ∨ (k, d) = (1, c) ∧ f.vl ≠ 3 →
      f.typ = k → exec d s = .next ((s.setPort q { p with nakSent := true }).emit (.frame q (s.linkFrame 3 0 p.rxLseq [])))) ∧
    (f.typ = 1 → f.vl ≠ 3 → f.good = true →
      (0 < (f.lseq + 2 ^ 32 - p.rxLseq) % 2 ^ 32 → (f.lseq + 2 ^ 32 - p.rxLseq) % 2 ^ 32 < 2 ^ 31 →
        exec c s = .next (if p.nakSent then s else (s.setPort q { p with nakSent := true }).emit
          (.frame q (s.linkFrame 3 0 p.rxLseq [])))) ∧
      (2 ^ 31 ≤ (f.lseq + 2 ^ 32 - p.rxLseq) % 2 ^ 32 → exec c s = .next (s.setPort q { p with ackDue := p.ackDue + 1 })) ∧
      (f.lseq = p.rxLseq → s.portRole q ≠ 8 → s.runSlot = none → ∃ v, exec c s = .next v ∧
        v.port q = { p with rxLseq := (p.rxLseq + 1) % 2 ^ 32, nakSent := false, ackDue := if p.ackDue < 63 then p.ackDue + 1 else 0,
                            owed := setAt p.owed f.vl (p.owed.getD f.vl 0 + f.units) } ∧
        v.out = s.out ++ (if p.ackDue < 63 then [] else [.frame q (s.linkFrame 2 0 p.rxLseq [])]) ∧
        v = { s with ports := v.ports, out := v.out }) ∧
      (f.lseq = p.rxLseq → p.ackDue < 63 → s.portRole q ≠ 8 → s.runSlot ≠ none → f.cascade ≠ s.cascade32 →
        ∃ v, exec c s = .next v ∧ memoryKept s v ∧ v.casc = s.casc ∧ v.forager = s.forager ∧
          v.fld (Reg.linkPeer q) 30 19 = min (s.fld (Reg.linkPeer q) 30 19 + 1) (2 ^ 12 - 1) ∧
          (0x8050 ∉ s.beat.onceBeat → v.reg (Reg.errLog ((s.reg Reg.errLogHead).toNat % 256) 0) = BitVec.ofNat 32 0x8050) ∧
          (0x8050 ∈ s.beat.onceBeat → v.reg Reg.errLogHead = s.reg Reg.errLogHead))) ∧
    (f.good = true → p.sendWait = [] → s.foreign q f = false →
      (∀ i, p.replay.findIdx? (fun x => x.lseq == f.lseq) = some i →
        (f.typ = 2 → exec (.ack q f) s = .next (s.setPort q { p with replay := p.replay.drop (i + 1), failures := 0 })) ∧
        (f.typ = 3 → ∀ k, k = (if p.nakLseq = f.lseq then p.failures + 1 else 1) →
          (k < 8 → ∃ v, exec (.nak q f) s = .next v ∧ v = { s with ports := v.ports, out := v.out } ∧
            v.port q = { p with replay := p.replay.drop i, nakLseq := f.lseq, failures := k } ∧
            v.out = s.out ++ (p.replay.drop i).map fun x => .frame q x) ∧
          (8 ≤ k → ∃ v, exec (.nak q f) s = .next v ∧ v.bit (Reg.linkState q) 10 = true ∧ (v.port q).replay = [] ∧
            v.reg (Reg.errLog ((s.reg Reg.errLogHead).toNat % 256) 0) = BitVec.ofNat 32 0x8002))) ∧
      (p.replay.findIdx? (fun x => x.lseq == f.lseq) = none →
        (f.typ = 2 → exec (.ack q f) s = .next s) ∧ (f.typ = 3 → exec (.nak q f) s = .next s)) ∧
      (f.typ = 4 → f.lseq = p.rxLseq → p.ackDue < 63 → ∃ v, exec (.credit q f) s = .next v ∧
        onlyRegs [Reg.vlCredit q] s { v with ports := s.ports } ∧ v.port q = { p with
          rxLseq := (p.rxLseq + 1) % 2 ^ 32, nakSent := false, ackDue := p.ackDue + 1,
          credit := setAt p.credit f.vl (min (laneUnits (s.portRole q) f.vl) (p.credit.getD f.vl 0 + leNat f.payload)) })) ∧
    (p.sendWait = [] → exec (.idleTimer q) s = .next (s.emit (.frame q (s.linkFrame 0 0 0 [])))) ∧
    (0 < p.ackDue → exec (.ackTimer q) s = .next ((s.setPort q { p with ackDue := 0 }).emit
      (.frame q (s.linkFrame 2 0 ((p.rxLseq + 2 ^ 32 - 1) % 2 ^ 32) [])))) ∧
    (s.casc.rxHold = [] → p.owed.length = 4 → (p.replay.map (·.size)).sum + 160 ≤ 262144 → ∃ v fs, exec (.creditReturn q) s = .next v ∧
      v = { s with ports := v.ports, out := v.out } ∧ v.out = s.out ++ fs.map (.frame q ·) ∧
      v.port q = { p with owed := [0, 0, 0, 0], txLseq := (p.txLseq + fs.length) % 2 ^ 32, replay := p.replay ++ fs } ∧
      fs.map (fun g => (g.typ, g.vl, g.payload)) =
        ((List.range 4).filter fun l => p.owed.getD l 0 != 0).map (fun l => (4, l, leBytes 4 (p.owed.getD l 0))) ∧
      ∀ i g, fs[i]? = some g → g.lseq = (p.txLseq + i) % 2 ^ 32 ∧ g = g.sealed)

/-- A frame of the running cascade that is next in the order of its direction and lane, and that this device is the destination
of, is delivered: a DATA frame's bytes go to its TADDR, a REDUCE frame's piece waits for the slot that adds to it, and a
result is written at the op's destination. Its buffer is owed to the peer once it is empty. -/
def Obligations.FramesAreDelivered : Prop :=
  ∀ (q : Nat) (f : Frame) (r : Route) (s : State) (p : PortSt) (key : Nat), q < 32 → s.nextFrame q f → f.typ = 1 → f.vl < 2 →
    s.portRole q ≠ 7 → p = s.port q → p.ackDue < 63 → f.lseq < 2 ^ 32 → s.route = some r → f.dest = s.self → f.dest.x < 128 →
    f.dest ∉ s.casc.lost → key = orderKey (s.portRole q) q f.vl → s.casc.rxHold = [] → f.dseq < 2 ^ 32 →
    (f.flags / 2 % 2 = 0 → f.taddr < 2 ^ 63 → s.needsHold f.taddr = none → ∀ ps,
      s.placesOf (.link q false) true f.taddr f.payload.length = some ps → s.guards (.link q false) ps = .ok →
      (ps.map fun pl => cellOf pl.loc).Nodup → (∀ pl ∈ ps, (cellOf pl.loc).1 ≠ 3) →
      ∃ v, exec (.dataFrame q f) s = .next v ∧ memoryKeptBut (ps.map (·.loc)) s v ∧
        (∀ (i : Nat) (h : i < ps.length), v.peek ps[i].loc = f.payload.getD i 0) ∧
        getKey v.casc.rxSeq key = some ((f.dseq + 1) % 2 ^ 32) ∧ (v.port q).rxLseq = (f.lseq + 1) % 2 ^ 32 ∧
        (v.port q).owed = setAt p.owed f.vl (p.owed.getD f.vl 0 + f.units)) ∧
    (f.flags / 2 % 2 = 1 → ∀ o, s.linkOp (f.taddr / 2 ^ 32) = some o →
      (s.isFinal r o f = false → ∃ v, exec (.reduceFrame q f) s = .next v ∧ memoryKept s v ∧ v.casc.pieces = s.casc.pieces ++
        [{ port := q, op := f.taddr / 2 ^ 32, place := r.indexOf f.dest, offset := f.taddr % 2 ^ 32, data := f.payload }]) ∧
      ∀ a d ps, s.isFinal r o f = true → a = o.dst + (if o.fmt = 1 then f.taddr % 2 ^ 32 / 2 else f.taddr % 2 ^ 32) →
        d = finalPiece o.fmt f.payload → s.needsHold a = none → s.placesOf (.link q false) true a d.length = some ps →
        s.guards (.link q false) ps = .ok → (ps.map fun pl => cellOf pl.loc).Nodup → (∀ pl ∈ ps, (cellOf pl.loc).1 ≠ 3) →
        ∃ v, exec (.reduceFrame q f) s = .next v ∧ memoryKeptBut (ps.map (·.loc)) s v ∧ v.casc.pieces = s.casc.pieces ∧
          ∀ (i : Nat) (h : i < ps.length), v.peek ps[i].loc = d.getD i 0)

/-- A frame leaves only on a usable port of its direction, with credit for all of it and room in the replay buffer; it takes that
credit, the port's next LSEQ and the next DSEQ of the direction and lane, and stays in the replay buffer. A SEND op sends its
piece towards its member, an MCAST op to every child of the tree, a REDUCE op its own piece first in its chain, then the
arriving sum plus its own, to the next place or, from the last, to DEST; the op ends with its last piece, waits without
credit, and is 0x8010 without a route. -/
def Obligations.LinkOpsSendOnCredit : Prop :=
  (∀ (role : Nat) (f : Frame) (s v : State), s.launch role false 0 f = some v → ∃ q ∈ s.portsOf role, ∃ g,
    s.portUsable q = true ∧
    g = ({ f with lseq := (s.port q).txLseq, dseq := (getKey s.casc.txSeq (orderKey role 0 f.vl)).getD 0 } : Frame).sealed ∧
    f.units ≤ (s.port q).credit.getD f.vl 0 ∧ (((s.port q).replay.map (·.size)).sum + f.size ≤ 262144) ∧
    v.out = s.out ++ [.frame q g] ∧ v.port q = { s.port q with
      credit := setAt (s.port q).credit f.vl ((s.port q).credit.getD f.vl 0 - f.units),
      txLseq := ((s.port q).txLseq + 1) % 2 ^ 32, replay := (s.port q).replay ++ [g],
      turn := if f.vl < 2 then f.vl else (s.port q).turn } ∧
    getKey v.casc.txSeq (orderKey role 0 f.vl) = some (((getKey s.casc.txSeq (orderKey role 0 f.vl)).getD 0 + 1) % 2 ^ 32)) ∧
  (∀ (q : Nat) (r : RunSlot) (o : LinkOp) (t : Route) (s : State), s.slotLinkOp q 3 = some (r, o, t) → s.chainPlace t o = none →
    exec (.reduce q) s = .next (s.endRunOf { cls := 5, idx := q } r)) ∧
  ∀ (q kind : Nat) (u : UnitId) (r : RunSlot) (o : LinkOp) (t : Route) (s b : State) (bytes : Bytes) (c : Instr) (go : Sent),
    u = { cls := 5, idx := q } → s.slotLinkOp q kind = some (r, o, t) → r.prog = 0 → 0 < o.length → o.length ≤ 4096 →
    s.fetch (.link q false) o.src o.length = (bytes, b) →
    let data (dest : Coord) (flags taddr : Nat) (d : Bytes) : Frame :=
      { typ := 1, vl := o.vl, flags := flags + b.roleFlag o, len := d.length, dest := dest, src := b.self, lseq := 0, dseq := 0,
        cascade := b.cascade32, taddr := taddr, payload := d, crc := 0 }
    let addr := if o.window = 255 then o.dst else windowTaddr o 0
    let sum (dest : Coord) (d : Bytes) : Frame := data dest 3 (b.reduceIndex t r.op o * 2 ^ 32) d
    ((c = .send q ∧ kind = 1 ∧ go = b.sendTo q t (data (t.coord o.dest) 1 addr bytes)) ∨
      (c = .mcast q ∧ kind = 2 ∧ go = b.sendGroup q t o (data b.self 1 addr bytes)) ∨
      (c = .reduce q ∧ kind = 3 ∧ ∃ me w d, s.chainPlace t o = some me ∧
        ((t.group o.group).head? = some me ∧ w = b ∧ d = bytes ∨
          (t.group o.group).head? ≠ some me ∧ ∃ x, b.pieceFor r.op o me 0 = some x ∧ w = b.usePiece x ∧ d = addPieces x.data bytes) ∧
        ((∃ n, ((t.group o.group).filter fun i => decide (me < i)).head? = some n ∧ go = w.sendTo q t (sum (t.coord n) d)) ∨
          ((t.group o.group).filter (fun i => decide (me < i)) = [] ∧
            ((b.aliasOf t (t.coord o.dest)).1 = b.self ∧
                go = .ok (w.storeLink q 32 (sum (t.coord o.dest) d) (o.finalAt 0) (finalPiece o.fmt d)) ∨
              (b.aliasOf t (t.coord o.dest)).1 ≠ b.self ∧ go = w.sendTo q t (sum (t.coord o.dest) d)))))) →
    (∀ w, go = .ok w → exec c s = .next (w.endRunOf u { r with prog := o.length })) ∧
    (go = .blocked → exec c s = .next (s.setRun u r)) ∧
    (go = .noRoute → s.beat.prev = [] → ∃ v, exec c s = .next v ∧ v.runOf u = none ∧
      v.reg (Reg.errLog ((s.reg Reg.errLogHead).toNat % 256) 0) = BitVec.ofNat 32 (0x8010 + 65536) ∧
      ∀ x, s.beat.win = some x → ∃ y, v.beat.win = some y ∧ y.fault = true)

/-- R418 to R420, R443: TRAIN starts training while RUN is 0; a port that trains with an accepted peer is ACTIVE at the width of
its lanes, with full credit; a failed training counts, and the third in a row fences the port; an IDENT that R419 refuses
leaves the port down with ID_REFUSED and 0x8050; the 64th PROBE answer, and a measurement again, set the latency. R421, R422,
R443: a measured margin is reported, below 1.0 dB it is logged as 0x8004, and at 0 the lane is dropped; a dropped lane is
0x8001 and a port that goes down is 0x8002; it retrains while a lane is left. -/
def Obligations.PortsTrainAndGoDown : Prop :=
  (∀ (q : Nat) (s : State), q < 32 →
    ((s.running = true → exec (.train q) s = .next s) ∧
      (s.running = false → s.writeOpen (Reg.linkCtl q) = true → s.fld (Reg.linkState q) 2 0 ≠ 4 → ∃ v, exec (.train q) s = .next v ∧
        v.fld (Reg.linkState q) 2 0 = 1 ∧ v.bit (Reg.linkState q) 7 = false ∧ v.port q = { PortSt.idle with lanes := (s.port q).lanes } ∧
        v.out = s.out ++ [.trainPort q] ∧ regsKeptBut [Reg.linkState q, Reg.linkPeer q, Reg.vlCredit q] s v)) ∧
    (s.fld (Reg.linkState q) 2 0 = 1 ∨ s.fld (Reg.linkState q) 2 0 = 3 →
      (∀ lanes up i l, up = s.lanesUp q lanes → (laneUse up).1 ≠ 0 → i.kind ≠ 3 → s.identOk q i = true → s.casc.joinDue = [] →
        ∃ v, exec (.linkTrainingDone q (.active lanes i l)) s = .next v ∧ v.fld (Reg.linkState q) 2 0 = 2 ∧
          v.bit (Reg.linkState q) 7 = true ∧ v.fld (Reg.linkState q) 9 8 = 0 ∧ v.fld (Reg.linkWidth q) 2 0 = (laneUse up).1 ∧
          v.port q = { PortSt.idle with active := !s.running, lanes := up,
                                        credit := (List.range 4).map fun x => laneUnits (s.portRole q) x } ∧
          v.fld (Reg.linkLatency q) 15 0 = min (2 ^ 16 - 1) (probeLatency l) ∧ ∃ me : Ident, me.port = q ∧ me.coord = s.self ∧
            v.out = s.out ++ [.frame q (s.linkFrame 5 0 0 me.bytes)]) ∧
      (s.fld (Reg.linkState q) 2 0 = 3 → s.fld (Reg.linkState q) 9 8 < 2 → ∃ v, exec (.linkTrainingDone q .failed) s = .next v ∧
        v.fld (Reg.linkState q) 2 0 = 3 ∧ v.fld (Reg.linkState q) 9 8 = s.fld (Reg.linkState q) 9 8 + 1 ∧ v.out = s.out ++ [.trainPort q]) ∧
      (s.fld (Reg.linkState q) 2 0 = 3 → 2 ≤ s.fld (Reg.linkState q) 9 8 → s.running = true →
        ∃ v, exec (.linkTrainingDone q .failed) s = .next v ∧ { typ := 10, idx := q, sub := 255 } ∈ v.test.fences)) ∧
    (s.portActive q = true →
      (∀ f i, f.typ = 5 → f.good = true → i = identOf f.payload → s.identOk q i = false → ∃ v, exec (.ident q f) s = .next v ∧
        v.fld (Reg.linkState q) 2 0 = 0 ∧ v.bit (Reg.linkState q) 11 = true ∧
        v.reg (Reg.errLog ((s.reg Reg.errLogHead).toNat % 256) 0) = BitVec.ofNat 32 0x8050 ∧ memoryKept s v) ∧
      (∀ f i, f.typ = 5 → f.good = true → i = identOf f.payload → s.identOk q i = true → i.kind ≠ 3 → s.casc.joinDue = [] →
        ∃ v, exec (.ident q f) s = .next v ∧ v.bit (Reg.linkState q) 7 = true ∧
        v.bit (Reg.linkPeer q) 31 = true ∧ v.fld (Reg.linkPeer q) 11 0 = coord12 i.coord % 2 ^ 12 ∧
        v.fld (Reg.linkPeer q) 16 12 = i.port % 32 ∧ onlyRegs [Reg.linkState q, Reg.linkPeer q] s v) ∧
      (∀ f rt, f.typ = 6 → f.good = true → s.foreign q f = false → f.payload = [] → ∃ x, exec (.probe ⟨q, f⟩ rt) s =
        .next { s with free := s.free + 1, out := s.out ++ [.frame q (s.linkFrame 6 0 0 (leBytes 4 x))] }) ∧
      (∀ f rt, f.typ = 6 → f.good = true → s.foreign q f = false → f.payload ≠ [] → (s.port q).probes.length < 63 →
        exec (.probe ⟨q, f⟩ rt) s =
          .next (s.setPort q { s.port q with probes := (s.port q).probes ++ [(rt, leNat f.payload)] })) ∧
      ∀ l a, l.length = 64 → a ∈ l → (∀ b ∈ l, b.1 = a.1 → b.2 = a.2) → (∀ b ∈ l, a.1 ≤ b.1) →
        (∃ v, exec (.latencyRemeasure q l) s = .next v ∧ v.fld (Reg.linkLatency q) 15 0 = min (2 ^ 16 - 1) ((a.1 - a.2) / 2) ∧
          v.out = s.out ++ [.frame q (s.linkFrame 6 0 0 [])] ∧ onlyRegs [Reg.linkLatency q] { s with out := v.out } v) ∧
        ∀ f rt, f.typ = 6 → f.good = true → s.foreign q f = false → f.payload ≠ [] →
          l = (s.port q).probes ++ [(rt, leNat f.payload)] → ∃ v, exec (.probe ⟨q, f⟩ rt) s = .next v ∧ (v.port q).probes = [] ∧
            v.fld (Reg.linkLatency q) 15 0 = min (2 ^ 16 - 1) ((a.1 - a.2) / 2))) ∧
  (∀ (q lane : Nat) (s : State), q < 32 → lane < 4 → s.portActive q = true →
    (∀ m, bits s.test.testCtl 2 2 = 1 →
      (10 ≤ m → ∃ v, exec (.laneMarginMeasure q lane m) s = .next v ∧ onlyRegs [Reg.laneMargin q] s v ∧
        v.fld (Reg.laneMargin q) (8 * lane + 7) (8 * lane) = min 255 m) ∧
      (1 ≤ m → m < 10 → ∃ v, exec (.laneMarginMeasure q lane m) s = .next v ∧
        v.fld (Reg.laneMargin q) (8 * lane + 7) (8 * lane) = m ∧
        v.reg (Reg.errLog ((s.reg Reg.errLogHead).toNat % 256) 0) = BitVec.ofNat 32 0x8004 ∧ v.ports = s.ports) ∧
      ((s.port q).lanes.getD lane false = true → ∃ v, exec (.laneMarginMeasure q lane 0) s = .next v ∧
        v.reg (Reg.errLog ((s.reg Reg.errLogHead).toNat % 256) 0) = BitVec.ofNat 32 0x8004 ∧
        v.reg (Reg.errLog (((s.reg Reg.errLogHead).toNat + 1) % 256) 0) = BitVec.ofNat 32 0x8001 ∧
        (v.port q).lanes = setAt (s.port q).lanes lane false)) ∧
    (∀ a b c d, s.running = false → s.writeOpen (Reg.linkCtl q) = true → 10 ≤ a → 10 ≤ b → 10 ≤ c → 10 ≤ d →
      ∃ v, exec (.marginNow q [a, b, c, d]) s = .next v ∧ v.out = s.out ++ [.measurePort q] ∧
        v.fld (Reg.laneMargin q) 7 0 = min 255 a ∧ v.fld (Reg.laneMargin q) 15 8 = min 255 b ∧
        v.fld (Reg.laneMargin q) 23 16 = min 255 c ∧ v.fld (Reg.laneMargin q) 31 24 = min 255 d) ∧
    ((s.port q).lanes.getD lane false = true → ∃ v, exec (.laneDrop q lane) s = .next v ∧ memoryKept s v ∧
      v.reg (Reg.errLog ((s.reg Reg.errLogHead).toNat % 256) 0) = BitVec.ofNat 32 0x8001 ∧
      v.reg (Reg.errLog (((s.reg Reg.errLogHead).toNat + 1) % 256) 0) = BitVec.ofNat 32 0x8002 ∧
      (v.port q).lanes = setAt (s.port q).lanes lane false ∧ v.bit (Reg.linkWidth q) 9 = true ∧
      v.fld (Reg.linkState q) 2 0 = if (setAt (s.port q).lanes lane false).any id then 3 else 0) ∧
    ∀ cause, ∃ v, exec (.portDown q cause) s = .next v ∧ memoryKept s v ∧ v.bit (Reg.linkState q) 10 = true ∧
      v.fld (Reg.linkState q) 2 0 = (if (s.port q).lanes.any id then 3 else 0) ∧ v.fld (Reg.linkWidth q) 2 0 = 0 ∧
      ((s.port q).lanes.any id = true → v.port q = { PortSt.idle with lanes := (s.port q).lanes }) ∧
      v.reg (Reg.errLog ((s.reg Reg.errLogHead).toNat % 256) 0) = BitVec.ofNat 32 0x8002 ∧
      (s.running = false → v.test.fences = s.test.fences ∧ v.beat.win = s.beat.win))

/-! ### Eszoja -/

/-- R580, R593: while Eszoja serves and no command is in progress, GET_NONCE makes and shows a fresh nonce, DEBUG_LOCK returns to
debug level 0, and FW_UPDATE stores a copy that verifies in place of the one that did not boot, whose contents are undefined
after a failure; ESZ_CMD_DONE shows the code. A command given while another is in progress is ignored. Table 14.6: a request
with the right form, device, nonce, signature and preconditions has the effect of its OP and logs 0xB023 or 0xB022; any other
changes nothing but the nonce, which every attempt consumes. The command of an OP is the request with that OP. -/
def Obligations.EszojaCommandsAct : Prop :=
  ((∀ s : State, s.eszServes = true → s.esz.busy = none →
    (∃ v n, exec .getNonce s = .next v ∧ n.length = 32 ∧ v.esz = { s.esz with nonce := some n, busy := some (1, 0) } ∧
      v.bit Reg.eszStatus 4 = true ∧ v.bit Reg.eszResult 24 = false ∧ (∀ i, i < 8 → v.reg (Reg.eszNonce i) = wordAt n (4 * i)) ∧
      v = { s with regs := v.regs, esz := v.esz, free := s.free + 1 } ∧
      regsKeptBut ((List.range 8).map Reg.eszNonce ++ [Reg.eszStatus, Reg.eszResult]) s v) ∧
    (∃ v, exec .debugLock s = .next v ∧ v.esz = { s.esz with debug := 0, busy := some (3, 0) } ∧ v.fld Reg.eszStatus 6 5 = 0 ∧
      v.bit Reg.eszStatus 4 = true ∧ onlyRegs [Reg.eszStatus, Reg.eszResult] s { v with esz := s.esz }) ∧
    ∀ f b, s.devState ≠ 5 → s.esz.fw = some f → f.copy < 2 → b = s.view s.eszArg (2 ^ 24) →
      (∀ g, s.esz.verifyCopy (1 - f.copy) b = .ok g → ∃ v, exec .fwUpdate s = .next v ∧
        v.esz = { s.esz with flash := setAt s.esz.flash (1 - f.copy) (.bytes b), busy := some (4, 0) } ∧
        onlyRegs [Reg.eszStatus, Reg.eszResult] s { v with esz := s.esz }) ∧
      ∀ c, s.esz.verifyCopy (1 - f.copy) b = .error c → ∃ v x, exec .fwUpdate s = .next v ∧
        v.esz = { s.esz with flash := setAt s.esz.flash (1 - f.copy) (.undefined x), busy := some (4, c) } ∧
        (c ≠ 0 → v.reg (Reg.errLog ((s.reg Reg.errLogHead).toNat % 256) 0) = BitVec.ofNat 32 (c % 2 ^ 16 + 65536 * 7))) ∧
  (∀ (s : State) (x : Nat × Nat) (c : Instr), s.esz.busy = some x → c ∈ [Instr.getNonce, .signedRequest, .provisionKey, .revokeKey,
    .advanceFing, .blockVendorDebug, .debugL1, .debugL2, .debugLock, .fwUpdate] → exec c s = .next s) ∧
  ∀ (s : State) (cmd code : Nat), s.esz.busy = some (cmd, code) → cmd < 256 → code < 2 ^ 16 → ∃ v, exec .eszCmdDone s = .next v ∧
    v.esz = { s.esz with busy := none } ∧ v.bit Reg.eszStatus 4 = false ∧ v.bit Reg.eszResult 24 = true ∧
    v.fld Reg.eszResult 15 0 = code ∧ v.fld Reg.eszResult 23 16 = cmd ∧ onlyRegs [Reg.eszStatus, Reg.eszResult, Reg.eszVer] s { v with esz := s.esz }) ∧
  (∀ (s : State) (b : Bytes), s.eszServes = true → s.esz.busy = none → s.devState ≠ 5 → b = s.request →
    (∀ op c, (op, c) ∈ [(1, Instr.provisionKey), (2, .revokeKey), (3, .advanceFing), (4, .blockVendorDebug), (5, .debugL1),
        (6, .debugL2)] →
      (reqOp b = op → exec c s = exec .signedRequest s) ∧ (reqOp b ≠ op → exec c s = .next s)) ∧
    ((fieldAt b 0 4 ≠ 0x5A455351 ∨ reqOp b = 0 ∨ 6 < reqOp b) → s.requestCode b = some 0xB021) ∧
    (s.requestCode b = none → (b.drop 8).take 8 = s.esz.devid ∧ s.esz.nonce = some ((b.drop 16).take 32) ∧ s.esz.requestSigned b = none ∧
      (reqOp b = 3 → s.esz.rbFing < fieldAt b 96 4 ∧ fieldAt b 96 4 ≤ 128) ∧ (reqOp b = 6 → s.esz.vendorDebugBlocked = false)) ∧
    (∀ code, s.requestCode b = some code → ∃ v, exec .signedRequest s = .next v ∧
      v.esz = { s.esz with nonce := none, busy := some (2, code) } ∧ (∀ i, i < 8 → v.reg (Reg.eszNonce i) = 0) ∧
      (code ≠ 0 → v.reg (Reg.errLog ((s.reg Reg.errLogHead).toNat % 256) 0) = BitVec.ofNat 32 (code % 2 ^ 16 + 65536 * 7))) ∧
    ∀ op e code info, s.requestCode b = none → reqOp b = op → (op, e, code, info) ∈
      [(1, { s.esz with
          keyHash := setAt s.esz.keyHash (2 + reqArg b) (if (reqHash b).all (fun x => x == 0) then none else some (reqHash b)) },
          0xB023, 1 + 256 * reqArg b),
        (2, { s.esz with revoked := if (2 + reqArg b) ∈ s.esz.revoked then s.esz.revoked else s.esz.revoked ++ [2 + reqArg b] },
          0xB023, 2 + 256 * reqArg b),
        (3, { s.esz with rbFing := fieldAt b 96 4 }, 0xB023, 3 + 256 * reqArg b),
        (4, { s.esz with vendorDebugBlocked := true }, 0xB023, 4 + 256 * reqArg b),
        (5, { s.esz with debug := 1 }, 0xB022, 1), (6, { s.esz with debug := 2, alias_ := none }, 0xB022, 2)] →
      ∃ v, exec .signedRequest s = .next v ∧ v.esz = { e with nonce := none, busy := some (2, 0) } ∧ memoryKept s v ∧
        v.reg (Reg.errLog ((s.reg Reg.errLogHead).toNat % 256) 0) = BitVec.ofNat 32 code ∧
        v.reg (Reg.errLog ((s.reg Reg.errLogHead).toNat % 256) 3) = BitVec.ofNat 32 info ∧
        (op = 6 → v.bit Reg.eszStatus 7 = true ∧
          v.reg (Reg.errLog (((s.reg Reg.errLogHead).toNat + 1) % 256) 0) = BitVec.ofNat 32 0xB025))

/-! ### Start-up and resets -/

/-- POWER_OK starts the device with the package's facts: in test mode it stays in BOOT; a failed management PLL or firmware that
does not verify brings FAILED with 0xA020 or 0xB002; else the firmware that the boot ROM chooses runs, and with nothing
missing start-up reaches its last step. Losing POWER_OK is a power-on reset, after which only fuses and flash hold what they
held. R38 to R40, R533: a die's first parameter block is shown in its registers, and start-up goes on once every die has sent
its own; the same block again changes nothing, another one fences the module with 0x1006, and a missing block or a step that
does not end in time brings FAILED with 0x1012 or 0xA021. -/
def Obligations.StartupProceeds : Prop :=
  ((∀ (pkg : Package) (s : State), s.power.powerOk = false → s.devState ≠ 7 →
    (pkg.testMode = true → exec (.powerOkAssert pkg) s = .next { s with pkg := pkg, power := { s.power with powerOk := true, step := 2 } }) ∧
    (pkg.testMode = false → pkg.pllFails = some 0 → ∃ v, exec (.powerOkAssert pkg) s = .next v ∧ v.devState = 7 ∧
      v.fld Reg.devState 31 16 = 0xA020 ∧ v.pkg = pkg) ∧
    ∀ e, pkg.testMode = false → pkg.pllFails ≠ some 0 →
      e = ({ s with pkg := pkg, power := { s.power with powerOk := true, step := 5 } } : State).loadFuses.esz →
      (e.choose.1 = none → ∃ v, exec (.powerOkAssert pkg) s = .next v ∧ v.devState = 7 ∧ v.fld Reg.devState 31 16 = 0xB002 ∧
        v.esz = e) ∧
      ∀ f, e.choose.1 = some f → ∃ v, exec (.powerOkAssert pkg) s = .next v ∧ v.esz.fw = some f ∧ v.esz.alias_ ≠ none ∧
        (v.esz.chain ≠ none ↔ pkg.certOk = true) ∧
        (pkg.pllFails = none → pkg.hubTestFails = false → pkg.eszTestFails = false → pkg.failedCores = [] → pkg.dies = [] →
          v.power.step = 10 ∧ (v.devState = 3 ∨ v.devState = 5))) ∧
  ∀ s : State, s.power.powerOk = true → ∃ v x, exec .powerOkDeassert s = .next v ∧
    v = { State.reset with pending := s.pending, out := s.out, free := v.free, dram := v.dram, comb := v.comb, sram := v.sram, esz := v.esz } ∧
    v.esz = { EszSt.reset with rbEsz := s.esz.rbEsz, rbHub := s.esz.rbHub, rbFing := s.esz.rbFing,
                               vendorDebugBlocked := s.esz.vendorDebugBlocked, keyHash := s.esz.keyHash, revoked := s.esz.revoked,
                               flash := s.esz.flash } ∧
    ∀ n off, n < 16 → off < 2 ^ 36 → v.peek (.dram n off) = Config.freeByte x (n * 2 ^ 36 + off)) ∧
  (∀ (h n d : Nat) (b : ParamBlock) (s : State), h < 2 → n < 120 → (farDie h n).2 = d → farDie h n ∈ s.pkg.dies →
    (s.modState h n = 2 →
      (∀ a, s.blockOf (farDie h n) = some a → (a = b → exec (.parameterBlock h n d b) s = .next s) ∧
        (a ≠ b → ∃ v, exec (.parameterBlock h n d b) s = .next v ∧
          v.reg (Reg.errLog ((s.reg Reg.errLogHead).toNat % 256) 0) = BitVec.ofNat 32 (0x1006 + 65536 * 2))) ∧
      (s.blockOf (farDie h n) = none → s.devState = 2 → s.power.step = 7 → (∃ x ∈ s.pkg.dies, x ≠ farDie h n ∧ s.blockOf x = none) →
        ∃ v, exec (.parameterBlock h n d b) s = .next v ∧ v.pkg = { s.pkg with
            blocks := s.pkg.blocks ++ [{ hub := (farDie h n).1, die := d, block := b }] } ∧
          v.reg (Reg.dieCap (farDie h n).1 d) = b.caps ∧ v.fld (Reg.dieStep (farDie h n).1 d) 3 0 = b.dieType % 16 ∧
          v.fld (Reg.dieStep (farDie h n).1 d) 11 4 = b.stepping % 256 ∧ v.bit (Reg.dieStep (farDie h n).1 d) 31 = true ∧
          (∀ i, i < 2 → s.bit (Reg.dieStep i 0) 31 = true → v.reg (Reg.capHalf i) = BitVec.ofNat 32 (v.commonCaps (hubDies i)) ∧
            v.reg (Reg.capCommon i) = BitVec.ofNat 32 (v.commonCaps (hubDies 0 ++ hubDies 1))) ∧
          onlyRegs ([Reg.dieStep (farDie h n).1 d, Reg.dieCap (farDie h n).1 d]
            ++ [0, 1].flatMap fun i => [Reg.capHalf i, Reg.capCommon i, Reg.stepCommon i]) { s with pkg := v.pkg } v) ∧
      (s.blockOf (farDie h n) = none → s.devState = 2 → s.power.step = 7 → (∀ x ∈ s.pkg.dies, x ≠ farDie h n → s.blockOf x ≠ none) →
        s.pkg.failedCores = [] →
        ∃ v, exec (.parameterBlock h n d b) s = .next v ∧
          (v.power.step = 10 ∨ (v.devState = 7 ∧ v.fld Reg.devState 31 16 = 0x1011)))) ∧
    (s.devState = 2 → s.power.step = 7 → s.blockOf (farDie h n) = none → ∃ v, exec (.parameterBlockTimeout (farDie h n).1 d) s = .next v ∧
      v.devState = 7 ∧ v.fld Reg.devState 31 16 = 0x1012 ∧ memoryKept s v) ∧
    ∀ k, s.power.powerOk = true → s.devState = 2 → s.power.step ≤ k → 6 ≤ k → k ≤ 9 → ∃ v, exec (.startupStepTimeout k) s = .next v ∧
      v.devState = 7 ∧ v.fld Reg.devState 31 16 = 0xA021 ∧ memoryKept s v)

/-- R530, R566: a device reset with its key clears the device domain, keeps the links and the security state, and goes on from
step 6 where firmware runs; every other value of RST_CTL changes nothing. A watchdog expiry clears the management domain, logs
0xB030 first, leaves the device domain alone, and restarts the copy that booted, or logs 0xB003 when it no longer verifies. -/
def Obligations.ResetsClearTheirDomain : Prop :=
  (∀ (w : Word) (n : Nat) (s : State), bits w 0 0 = 0 ∨ bits w 15 8 ≠ 0x5A → exec (.devReset w n) s = .next s) ∧
  (∀ (w : Word) (n : Nat) (s : State), bits w 0 0 = 1 → bits w 15 8 = 0x5A → s.power.powerOk = true → s.power.thermtrip = false →
    s.devState ≠ 1 → ∃ v x, exec (.devReset w n) s = .next v ∧ v = (if s.esz.fw.isSome then x.fromStep6 else x) ∧ x.devState = 2 ∧
      x.slotA = SlotSt.reset ∧ x.slotB = SlotSt.reset ∧ x.beat.win = none ∧ x.casc = CascSt.reset ∧ x.tier = TierSt.reset ∧
      x.units = [] ∧ x.ports = [] ∧ x.cores = CoresSt.reset ∧ x.upd = UpdSt.reset ∧ x.forager = ForSt.reset ∧
      x.host = { HostSt.reset with portA := s.host.portA, portB := s.host.portB } ∧ x.pkg = s.pkg ∧
      x.esz = { s.esz with nonce := none, debug := 0 } ∧
      (∀ o, o < 0x3C00000 → (o < 0x210000 ∨ 0x240000 ≤ o) → o ∉ [Reg.devState, Reg.portStatusA, Reg.portStatusB] →
        x.reg o = State.reset.reg o) ∧
      ∃ y, ∀ k off, k < 16 → off < 2 ^ 36 → x.peek (.dram k off) = Config.freeByte y (k * 2 ^ 36 + off)) ∧
  ∀ (n : Nat) (f : FwSt) (s : State), s.power.powerOk = true → s.esz.fw = some f → ∃ v, exec (.watchdog n) s = .next v ∧
    memoryKept s v ∧ v.reg (Reg.errLog 0 0) = BitVec.ofNat 32 0xB030 ∧ v.reg Reg.pwrCapHost = State.reset.reg Reg.pwrCapHost ∧
    v.reg Reg.pwrCapMgmt = State.reset.reg Reg.pwrCapMgmt ∧ v.units = s.units ∧ v.casc = s.casc ∧ v.tier = s.tier ∧ v.upd = s.upd ∧
    (∀ g, s.esz.verifyCopy f.copy (s.esz.copyBytes f.copy) = .ok g → v.esz = { s.esz with
      nonce := none, debug := 0, busy := none, fw := some g, epA := .idle, epB := .idle, epBus := .idle, address := none }) ∧
    (∀ c, s.esz.verifyCopy f.copy (s.esz.copyBytes f.copy) = .error c → v.fld Reg.eszStatus 2 0 = 3 ∧ v.esz = { s.esz with
      nonce := none, debug := 0, busy := none, fw := none, epA := .idle, epB := .idle, epBus := .idle, address := none }) ∧
    ∀ x, (s.slot x).state = 1 → (v.slot x).state = 4 ∧ (v.slot x).fing = none

/-! ### Attestation, management and test access -/

/-- R583, R586: Eszoja negotiates versions 1.2 and 1.3 with certificates, challenges and signed measurements and nothing more,
hands out the certificate chain in portions, and signs challenges and measurements with the Alias key over a fresh nonce; it
answers with an error before negotiation, without a chain, and, where a signature is asked for, once the Alias key has been
erased. R582, R590, R591, R612: SET_CAP writes PWR_CAP_MGMT, clamped, over the management bus only; GET_CAP and READ_TELEMETRY
answer and change nothing; a test access that the debug level does not open gets an error and changes nothing, and the bus
takes a 7-bit address. -/
def Obligations.ManagementAnswers : Prop :=
  (∀ (ep : MgmtEp) (s : State), s.epOpen ep = true →
    (∃ v, exec (.negotiateAlgorithms ep) s = .next v ∧ v.spdmEp ep = { negotiated := true, transcript := [] } ∧
      v.out = s.out ++ [.spdm ep (.algorithms [0x12, 0x13] true true true false false)] ∧ (∀ e, e ≠ ep → v.spdmEp e = s.spdmEp e) ∧
      v = { s with out := v.out, esz := v.esz }) ∧
    ((s.spdmEp ep).negotiated = false → ∀ c off len i b n, c ∈ [Instr.getCertificate ep off len, .challenge ep n, .getMeasurements ep i b n] →
      exec c s = .next (s.emit (.spdm ep .error))) ∧
    ((s.spdmEp ep).negotiated = true →
      (∀ c off len, s.certChain = some c → ∃ v, exec (.getCertificate ep off len) s = .next v ∧
        v.out = s.out ++ [.spdm ep (.certificate ((c.drop off).take len) (c.length - (off + ((c.drop off).take len).length)))] ∧
        v = { s with out := v.out, esz := v.esz }) ∧
      (s.certChain = none → ∀ off len n, exec (.getCertificate ep off len) s = .next (s.emit (.spdm ep .error)) ∧
        exec (.challenge ep n) s = .next (s.emit (.spdm ep .error))) ∧
      (s.esz.alias_ = none → ∀ n i, exec (.challenge ep n) s = .next (s.emit (.spdm ep .error)) ∧
        (1 ≤ i → exec (.getMeasurements ep i true n) s = .next (s.emit (.spdm ep .error)))) ∧
      (∀ key c n, s.esz.alias_ = some key → s.certChain = some c → ∃ v r k, exec (.challenge ep n) s = .next v ∧ r.length = 32 ∧
        1 ≤ k ∧ k < p384N ∧ v = { s with free := s.free + 2, out := s.out ++ [.spdm ep (.challengeAuth (sha384 c) r
          (ecdsaSign key k ((s.spdmEp ep).transcript ++ n ++ sha384 c ++ r)))] }) ∧
      ∀ (f : FwSt) (n : Bytes), s.esz.fw = some f →
        (∀ b, exec (.getMeasurements ep 0 b n) s = .next (s.emit (.spdm ep (.count 7)))) ∧
        (∀ i b, 7 < i → i ≠ 255 → exec (.getMeasurements ep i b n) s = .next (s.emit (.spdm ep .error))) ∧
        ∀ i l, (1 ≤ i ∧ i ≤ 7 ∧ l = [(i, s.measure f i)] ∨ i = 255 ∧ l = [1, 2, 3, 4, 5, 6, 7].map fun j => (j, s.measure f j)) →
          (∃ v, exec (.getMeasurements ep i false n) s = .next v ∧ v.out = s.out ++ [.spdm ep (.measurements l none)] ∧
            v = { s with out := v.out, esz := v.esz }) ∧
          ∀ key, s.esz.alias_ = some key → ∃ v r k, exec (.getMeasurements ep i true n) s = .next v ∧ r.length = 32 ∧ 1 ≤ k ∧ k < p384N ∧
            v.out = s.out ++ [.spdm ep (.measurements l (some (r, ecdsaSign key k
              ((s.spdmEp ep).transcript ++ n ++ l.flatMap (fun x => leBytes 1 x.1 ++ x.2) ++ r))))] ∧
            v = { s with free := s.free + 2, out := v.out, esz := v.esz })) ∧
  ((∀ (ep : MgmtEp) (w : Nat) (s : State), s.epOpen ep = true →
    (ep = .bus → ∃ v, exec (.setCap ep w) s = .next v ∧ v.fld Reg.pwrCapMgmt 11 0 = clampCap (w % 2 ^ 16) ∧
      v.out = s.out ++ [.capSet ep true (clampCap (w % 2 ^ 16))] ∧ onlyRegs [Reg.pwrCapMgmt] { s with out := v.out } v) ∧
    (ep ≠ .bus → exec (.setCap ep w) s = .next (s.emit (.capSet ep false (s.fld Reg.pwrCapMgmt 11 0)))) ∧
    exec (.getCap ep) s = .next (s.emit (.caps ep (s.fld Reg.pwrCapMgmt 11 0) (s.fld Reg.pwrCapHost 11 0) s.effectiveCap)) ∧
    ∃ page, exec (.readTelemetry ep) s = .next (s.emit (.telemetry ep page)) ∧ page.length = 64 ∧
      fieldAt page 0 4 = (s.readReg Reg.devState).toNat ∧ fieldAt page 4 4 = (s.reg Reg.pwrNow).toNat ∧
      fieldAt page 12 4 = (s.readReg Reg.errSummary).toNat ∧ fieldAt page 16 8 = s.pair Reg.energyLo ∧
      fieldAt page 24 4 = (s.reg Reg.throttle).toNat ∧ fieldAt page 28 4 = (s.reg Reg.beatCountLo).toNat ∧
      (∀ d, d < 22 → fieldAt page (32 + d) 1 = s.fld (Reg.temp d) 7 0 ∧ fieldAt page (32 + d) 1 ≤ fieldAt page 10 1) ∧
      ∀ j, 54 ≤ j → j < 64 → page.getD j 1 = 0) ∧
  (∀ (op : TapOp) (s : State), s.power.powerOk = true →
    let opened : Prop := op ∈ [TapOp.bypass, .idcode, .samplePreload] ∨ (op = .extest ∧ s.running = false) ∨
      (op = .scan ∧ s.esz.debug = 2 ∧ s.running = false) ∨ ((op = .instrumentOther ∨ ∃ u, op = .instrument u) ∧ 1 ≤ s.esz.debug) ∨
      (op = .eszojaDebug ∧ s.esz.debug = 2)
    (¬opened → exec (.tapAccess op) s = .next (s.emit (.tap none))) ∧
    (opened → ∃ v d, exec (.tapAccess op) s = .next v ∧ v.out = s.out ++ [.tap (some d)] ∧ memoryKept s v ∧
      (op = .bypass → d = [0]) ∧
      (op = .idcode → fieldAt d 0 4 % 2 = 1 ∧ fieldAt d 0 4 / 2 ^ 12 % 2 ^ 16 = 0x7A24 ∧
        fieldAt d 0 4 / 2 ^ 28 = s.fld Reg.devStep 3 0))) ∧
  ∀ (a : Nat) (s : State), s.power.powerOk = true → a < 128 →
    exec (.dynamicAddress a) s = .next { s with esz := { s.esz with address := some a } })
end

