-- ==== Sys2Proof/Laws/State.lean ====
section
/-! SUPPORT. What each update of the state leaves alone: one lemma for each field, true by the update's own form. -/

namespace Sys2Proof.Laws

open Sys2Proof Sys2Proof.Machine

variable (s : State)

/-! ### `setReg` -/

@[simp] theorem setReg_now (o : Nat) (v : Word) : (s.setReg o v).now = s.now := rfl
@[simp] theorem setReg_pending (o : Nat) (v : Word) : (s.setReg o v).pending = s.pending := rfl
@[simp] theorem setReg_free (o : Nat) (v : Word) : (s.setReg o v).free = s.free := rfl
@[simp] theorem setReg_latches (o : Nat) (v : Word) : (s.setReg o v).latches = s.latches := rfl
@[simp] theorem setReg_out (o : Nat) (v : Word) : (s.setReg o v).out = s.out := rfl
@[simp] theorem setReg_dram (o : Nat) (v : Word) : (s.setReg o v).dram = s.dram := rfl
@[simp] theorem setReg_comb (o : Nat) (v : Word) : (s.setReg o v).comb = s.comb := rfl
@[simp] theorem setReg_sram (o : Nat) (v : Word) : (s.setReg o v).sram = s.sram := rfl
@[simp] theorem setReg_slotA (o : Nat) (v : Word) : (s.setReg o v).slotA = s.slotA := rfl
@[simp] theorem setReg_slotB (o : Nat) (v : Word) : (s.setReg o v).slotB = s.slotB := rfl
@[simp] theorem setReg_beat (o : Nat) (v : Word) : (s.setReg o v).beat = s.beat := rfl
@[simp] theorem setReg_units (o : Nat) (v : Word) : (s.setReg o v).units = s.units := rfl
@[simp] theorem setReg_cores (o : Nat) (v : Word) : (s.setReg o v).cores = s.cores := rfl
@[simp] theorem setReg_watch (o : Nat) (v : Word) : (s.setReg o v).watch = s.watch := rfl
@[simp] theorem setReg_upd (o : Nat) (v : Word) : (s.setReg o v).upd = s.upd := rfl
@[simp] theorem setReg_tier (o : Nat) (v : Word) : (s.setReg o v).tier = s.tier := rfl
@[simp] theorem setReg_forager (o : Nat) (v : Word) : (s.setReg o v).forager = s.forager := rfl
@[simp] theorem setReg_mods (o : Nat) (v : Word) : (s.setReg o v).mods = s.mods := rfl
@[simp] theorem setReg_ports (o : Nat) (v : Word) : (s.setReg o v).ports = s.ports := rfl
@[simp] theorem setReg_casc (o : Nat) (v : Word) : (s.setReg o v).casc = s.casc := rfl
@[simp] theorem setReg_host (o : Nat) (v : Word) : (s.setReg o v).host = s.host := rfl
@[simp] theorem setReg_power (o : Nat) (v : Word) : (s.setReg o v).power = s.power := rfl
@[simp] theorem setReg_test (o : Nat) (v : Word) : (s.setReg o v).test = s.test := rfl
@[simp] theorem setReg_esz (o : Nat) (v : Word) : (s.setReg o v).esz = s.esz := rfl
@[simp] theorem setReg_pkg (o : Nat) (v : Word) : (s.setReg o v).pkg = s.pkg := rfl

/-! ### `setFld` -/

@[simp] theorem setFld_now (o hi lo v : Nat) : (s.setFld o hi lo v).now = s.now := rfl
@[simp] theorem setFld_pending (o hi lo v : Nat) : (s.setFld o hi lo v).pending = s.pending := rfl
@[simp] theorem setFld_free (o hi lo v : Nat) : (s.setFld o hi lo v).free = s.free := rfl
@[simp] theorem setFld_latches (o hi lo v : Nat) : (s.setFld o hi lo v).latches = s.latches := rfl
@[simp] theorem setFld_out (o hi lo v : Nat) : (s.setFld o hi lo v).out = s.out := rfl
@[simp] theorem setFld_dram (o hi lo v : Nat) : (s.setFld o hi lo v).dram = s.dram := rfl
@[simp] theorem setFld_comb (o hi lo v : Nat) : (s.setFld o hi lo v).comb = s.comb := rfl
@[simp] theorem setFld_sram (o hi lo v : Nat) : (s.setFld o hi lo v).sram = s.sram := rfl
@[simp] theorem setFld_slotA (o hi lo v : Nat) : (s.setFld o hi lo v).slotA = s.slotA := rfl
@[simp] theorem setFld_slotB (o hi lo v : Nat) : (s.setFld o hi lo v).slotB = s.slotB := rfl
@[simp] theorem setFld_beat (o hi lo v : Nat) : (s.setFld o hi lo v).beat = s.beat := rfl
@[simp] theorem setFld_units (o hi lo v : Nat) : (s.setFld o hi lo v).units = s.units := rfl
@[simp] theorem setFld_cores (o hi lo v : Nat) : (s.setFld o hi lo v).cores = s.cores := rfl
@[simp] theorem setFld_watch (o hi lo v : Nat) : (s.setFld o hi lo v).watch = s.watch := rfl
@[simp] theorem setFld_upd (o hi lo v : Nat) : (s.setFld o hi lo v).upd = s.upd := rfl
@[simp] theorem setFld_tier (o hi lo v : Nat) : (s.setFld o hi lo v).tier = s.tier := rfl
@[simp] theorem setFld_forager (o hi lo v : Nat) : (s.setFld o hi lo v).forager = s.forager := rfl
@[simp] theorem setFld_mods (o hi lo v : Nat) : (s.setFld o hi lo v).mods = s.mods := rfl
@[simp] theorem setFld_ports (o hi lo v : Nat) : (s.setFld o hi lo v).ports = s.ports := rfl
@[simp] theorem setFld_casc (o hi lo v : Nat) : (s.setFld o hi lo v).casc = s.casc := rfl
@[simp] theorem setFld_host (o hi lo v : Nat) : (s.setFld o hi lo v).host = s.host := rfl
@[simp] theorem setFld_power (o hi lo v : Nat) : (s.setFld o hi lo v).power = s.power := rfl
@[simp] theorem setFld_test (o hi lo v : Nat) : (s.setFld o hi lo v).test = s.test := rfl
@[simp] theorem setFld_esz (o hi lo v : Nat) : (s.setFld o hi lo v).esz = s.esz := rfl
@[simp] theorem setFld_pkg (o hi lo v : Nat) : (s.setFld o hi lo v).pkg = s.pkg := rfl

/-! ### `setBit` -/

@[simp] theorem setBit_now (o i : Nat) (b : Bool) : (s.setBit o i b).now = s.now := rfl
@[simp] theorem setBit_pending (o i : Nat) (b : Bool) : (s.setBit o i b).pending = s.pending := rfl
@[simp] theorem setBit_free (o i : Nat) (b : Bool) : (s.setBit o i b).free = s.free := rfl
@[simp] theorem setBit_latches (o i : Nat) (b : Bool) : (s.setBit o i b).latches = s.latches := rfl
@[simp] theorem setBit_out (o i : Nat) (b : Bool) : (s.setBit o i b).out = s.out := rfl
@[simp] theorem setBit_dram (o i : Nat) (b : Bool) : (s.setBit o i b).dram = s.dram := rfl
@[simp] theorem setBit_comb (o i : Nat) (b : Bool) : (s.setBit o i b).comb = s.comb := rfl
@[simp] theorem setBit_sram (o i : Nat) (b : Bool) : (s.setBit o i b).sram = s.sram := rfl
@[simp] theorem setBit_slotA (o i : Nat) (b : Bool) : (s.setBit o i b).slotA = s.slotA := rfl
@[simp] theorem setBit_slotB (o i : Nat) (b : Bool) : (s.setBit o i b).slotB = s.slotB := rfl
@[simp] theorem setBit_beat (o i : Nat) (b : Bool) : (s.setBit o i b).beat = s.beat := rfl
@[simp] theorem setBit_units (o i : Nat) (b : Bool) : (s.setBit o i b).units = s.units := rfl
@[simp] theorem setBit_cores (o i : Nat) (b : Bool) : (s.setBit o i b).cores = s.cores := rfl
@[simp] theorem setBit_watch (o i : Nat) (b : Bool) : (s.setBit o i b).watch = s.watch := rfl
@[simp] theorem setBit_upd (o i : Nat) (b : Bool) : (s.setBit o i b).upd = s.upd := rfl
@[simp] theorem setBit_tier (o i : Nat) (b : Bool) : (s.setBit o i b).tier = s.tier := rfl
@[simp] theorem setBit_forager (o i : Nat) (b : Bool) : (s.setBit o i b).forager = s.forager := rfl
@[simp] theorem setBit_mods (o i : Nat) (b : Bool) : (s.setBit o i b).mods = s.mods := rfl
@[simp] theorem setBit_ports (o i : Nat) (b : Bool) : (s.setBit o i b).ports = s.ports := rfl
@[simp] theorem setBit_casc (o i : Nat) (b : Bool) : (s.setBit o i b).casc = s.casc := rfl
@[simp] theorem setBit_host (o i : Nat) (b : Bool) : (s.setBit o i b).host = s.host := rfl
@[simp] theorem setBit_power (o i : Nat) (b : Bool) : (s.setBit o i b).power = s.power := rfl
@[simp] theorem setBit_test (o i : Nat) (b : Bool) : (s.setBit o i b).test = s.test := rfl
@[simp] theorem setBit_esz (o i : Nat) (b : Bool) : (s.setBit o i b).esz = s.esz := rfl
@[simp] theorem setBit_pkg (o i : Nat) (b : Bool) : (s.setBit o i b).pkg = s.pkg := rfl

/-! ### `setPair` -/

@[simp] theorem setPair_now (o v : Nat) : (s.setPair o v).now = s.now := rfl
@[simp] theorem setPair_pending (o v : Nat) : (s.setPair o v).pending = s.pending := rfl
@[simp] theorem setPair_free (o v : Nat) : (s.setPair o v).free = s.free := rfl
@[simp] theorem setPair_latches (o v : Nat) : (s.setPair o v).latches = s.latches := rfl
@[simp] theorem setPair_out (o v : Nat) : (s.setPair o v).out = s.out := rfl
@[simp] theorem setPair_dram (o v : Nat) : (s.setPair o v).dram = s.dram := rfl
@[simp] theorem setPair_comb (o v : Nat) : (s.setPair o v).comb = s.comb := rfl
@[simp] theorem setPair_sram (o v : Nat) : (s.setPair o v).sram = s.sram := rfl
@[simp] theorem setPair_slotA (o v : Nat) : (s.setPair o v).slotA = s.slotA := rfl
@[simp] theorem setPair_slotB (o v : Nat) : (s.setPair o v).slotB = s.slotB := rfl
@[simp] theorem setPair_beat (o v : Nat) : (s.setPair o v).beat = s.beat := rfl
@[simp] theorem setPair_units (o v : Nat) : (s.setPair o v).units = s.units := rfl
@[simp] theorem setPair_cores (o v : Nat) : (s.setPair o v).cores = s.cores := rfl
@[simp] theorem setPair_watch (o v : Nat) : (s.setPair o v).watch = s.watch := rfl
@[simp] theorem setPair_upd (o v : Nat) : (s.setPair o v).upd = s.upd := rfl
@[simp] theorem setPair_tier (o v : Nat) : (s.setPair o v).tier = s.tier := rfl
@[simp] theorem setPair_forager (o v : Nat) : (s.setPair o v).forager = s.forager := rfl
@[simp] theorem setPair_mods (o v : Nat) : (s.setPair o v).mods = s.mods := rfl
@[simp] theorem setPair_ports (o v : Nat) : (s.setPair o v).ports = s.ports := rfl
@[simp] theorem setPair_casc (o v : Nat) : (s.setPair o v).casc = s.casc := rfl
@[simp] theorem setPair_host (o v : Nat) : (s.setPair o v).host = s.host := rfl
@[simp] theorem setPair_power (o v : Nat) : (s.setPair o v).power = s.power := rfl
@[simp] theorem setPair_test (o v : Nat) : (s.setPair o v).test = s.test := rfl
@[simp] theorem setPair_esz (o v : Nat) : (s.setPair o v).esz = s.esz := rfl
@[simp] theorem setPair_pkg (o v : Nat) : (s.setPair o v).pkg = s.pkg := rfl

/-! ### `emit` -/

@[simp] theorem emit_now (o : Out) : (s.emit o).now = s.now := rfl
@[simp] theorem emit_pending (o : Out) : (s.emit o).pending = s.pending := rfl
@[simp] theorem emit_free (o : Out) : (s.emit o).free = s.free := rfl
@[simp] theorem emit_regs (o : Out) : (s.emit o).regs = s.regs := rfl
@[simp] theorem emit_latches (o : Out) : (s.emit o).latches = s.latches := rfl
@[simp] theorem emit_dram (o : Out) : (s.emit o).dram = s.dram := rfl
@[simp] theorem emit_comb (o : Out) : (s.emit o).comb = s.comb := rfl
@[simp] theorem emit_sram (o : Out) : (s.emit o).sram = s.sram := rfl
@[simp] theorem emit_slotA (o : Out) : (s.emit o).slotA = s.slotA := rfl
@[simp] theorem emit_slotB (o : Out) : (s.emit o).slotB = s.slotB := rfl
@[simp] theorem emit_beat (o : Out) : (s.emit o).beat = s.beat := rfl
@[simp] theorem emit_units (o : Out) : (s.emit o).units = s.units := rfl
@[simp] theorem emit_cores (o : Out) : (s.emit o).cores = s.cores := rfl
@[simp] theorem emit_watch (o : Out) : (s.emit o).watch = s.watch := rfl
@[simp] theorem emit_upd (o : Out) : (s.emit o).upd = s.upd := rfl
@[simp] theorem emit_tier (o : Out) : (s.emit o).tier = s.tier := rfl
@[simp] theorem emit_forager (o : Out) : (s.emit o).forager = s.forager := rfl
@[simp] theorem emit_mods (o : Out) : (s.emit o).mods = s.mods := rfl
@[simp] theorem emit_ports (o : Out) : (s.emit o).ports = s.ports := rfl
@[simp] theorem emit_casc (o : Out) : (s.emit o).casc = s.casc := rfl
@[simp] theorem emit_host (o : Out) : (s.emit o).host = s.host := rfl
@[simp] theorem emit_power (o : Out) : (s.emit o).power = s.power := rfl
@[simp] theorem emit_test (o : Out) : (s.emit o).test = s.test := rfl
@[simp] theorem emit_esz (o : Out) : (s.emit o).esz = s.esz := rfl
@[simp] theorem emit_pkg (o : Out) : (s.emit o).pkg = s.pkg := rfl

/-! ### `at` -/

@[simp] theorem at_pending (t : Nat) : (s.at t).pending = s.pending := rfl
@[simp] theorem at_free (t : Nat) : (s.at t).free = s.free := rfl
@[simp] theorem at_regs (t : Nat) : (s.at t).regs = s.regs := rfl
@[simp] theorem at_latches (t : Nat) : (s.at t).latches = s.latches := rfl
@[simp] theorem at_out (t : Nat) : (s.at t).out = s.out := rfl
@[simp] theorem at_dram (t : Nat) : (s.at t).dram = s.dram := rfl
@[simp] theorem at_comb (t : Nat) : (s.at t).comb = s.comb := rfl
@[simp] theorem at_sram (t : Nat) : (s.at t).sram = s.sram := rfl
@[simp] theorem at_slotA (t : Nat) : (s.at t).slotA = s.slotA := rfl
@[simp] theorem at_slotB (t : Nat) : (s.at t).slotB = s.slotB := rfl
@[simp] theorem at_beat (t : Nat) : (s.at t).beat = s.beat := rfl
@[simp] theorem at_units (t : Nat) : (s.at t).units = s.units := rfl
@[simp] theorem at_cores (t : Nat) : (s.at t).cores = s.cores := rfl
@[simp] theorem at_watch (t : Nat) : (s.at t).watch = s.watch := rfl
@[simp] theorem at_upd (t : Nat) : (s.at t).upd = s.upd := rfl
@[simp] theorem at_tier (t : Nat) : (s.at t).tier = s.tier := rfl
@[simp] theorem at_forager (t : Nat) : (s.at t).forager = s.forager := rfl
@[simp] theorem at_mods (t : Nat) : (s.at t).mods = s.mods := rfl
@[simp] theorem at_ports (t : Nat) : (s.at t).ports = s.ports := rfl
@[simp] theorem at_casc (t : Nat) : (s.at t).casc = s.casc := rfl
@[simp] theorem at_host (t : Nat) : (s.at t).host = s.host := rfl
@[simp] theorem at_power (t : Nat) : (s.at t).power = s.power := rfl
@[simp] theorem at_test (t : Nat) : (s.at t).test = s.test := rfl
@[simp] theorem at_esz (t : Nat) : (s.at t).esz = s.esz := rfl
@[simp] theorem at_pkg (t : Nat) : (s.at t).pkg = s.pkg := rfl

/-! ### `setUnit` -/

@[simp] theorem setUnit_now (u : UnitId) (x : UnitSt) : (s.setUnit u x).now = s.now := rfl
@[simp] theorem setUnit_pending (u : UnitId) (x : UnitSt) : (s.setUnit u x).pending = s.pending := rfl
@[simp] theorem setUnit_free (u : UnitId) (x : UnitSt) : (s.setUnit u x).free = s.free := rfl
@[simp] theorem setUnit_regs (u : UnitId) (x : UnitSt) : (s.setUnit u x).regs = s.regs := rfl
@[simp] theorem setUnit_latches (u : UnitId) (x : UnitSt) : (s.setUnit u x).latches = s.latches := rfl
@[simp] theorem setUnit_out (u : UnitId) (x : UnitSt) : (s.setUnit u x).out = s.out := rfl
@[simp] theorem setUnit_dram (u : UnitId) (x : UnitSt) : (s.setUnit u x).dram = s.dram := rfl
@[simp] theorem setUnit_comb (u : UnitId) (x : UnitSt) : (s.setUnit u x).comb = s.comb := rfl
@[simp] theorem setUnit_sram (u : UnitId) (x : UnitSt) : (s.setUnit u x).sram = s.sram := rfl
@[simp] theorem setUnit_slotA (u : UnitId) (x : UnitSt) : (s.setUnit u x).slotA = s.slotA := rfl
@[simp] theorem setUnit_slotB (u : UnitId) (x : UnitSt) : (s.setUnit u x).slotB = s.slotB := rfl
@[simp] theorem setUnit_beat (u : UnitId) (x : UnitSt) : (s.setUnit u x).beat = s.beat := rfl
@[simp] theorem setUnit_cores (u : UnitId) (x : UnitSt) : (s.setUnit u x).cores = s.cores := rfl
@[simp] theorem setUnit_watch (u : UnitId) (x : UnitSt) : (s.setUnit u x).watch = s.watch := rfl
@[simp] theorem setUnit_upd (u : UnitId) (x : UnitSt) : (s.setUnit u x).upd = s.upd := rfl
@[simp] theorem setUnit_tier (u : UnitId) (x : UnitSt) : (s.setUnit u x).tier = s.tier := rfl
@[simp] theorem setUnit_forager (u : UnitId) (x : UnitSt) : (s.setUnit u x).forager = s.forager := rfl
@[simp] theorem setUnit_mods (u : UnitId) (x : UnitSt) : (s.setUnit u x).mods = s.mods := rfl
@[simp] theorem setUnit_ports (u : UnitId) (x : UnitSt) : (s.setUnit u x).ports = s.ports := rfl
@[simp] theorem setUnit_casc (u : UnitId) (x : UnitSt) : (s.setUnit u x).casc = s.casc := rfl
@[simp] theorem setUnit_host (u : UnitId) (x : UnitSt) : (s.setUnit u x).host = s.host := rfl
@[simp] theorem setUnit_power (u : UnitId) (x : UnitSt) : (s.setUnit u x).power = s.power := rfl
@[simp] theorem setUnit_test (u : UnitId) (x : UnitSt) : (s.setUnit u x).test = s.test := rfl
@[simp] theorem setUnit_esz (u : UnitId) (x : UnitSt) : (s.setUnit u x).esz = s.esz := rfl
@[simp] theorem setUnit_pkg (u : UnitId) (x : UnitSt) : (s.setUnit u x).pkg = s.pkg := rfl

/-! ### `setPort` -/

@[simp] theorem setPort_now (q : Nat) (x : PortSt) : (s.setPort q x).now = s.now := rfl
@[simp] theorem setPort_pending (q : Nat) (x : PortSt) : (s.setPort q x).pending = s.pending := rfl
@[simp] theorem setPort_free (q : Nat) (x : PortSt) : (s.setPort q x).free = s.free := rfl
@[simp] theorem setPort_regs (q : Nat) (x : PortSt) : (s.setPort q x).regs = s.regs := rfl
@[simp] theorem setPort_latches (q : Nat) (x : PortSt) : (s.setPort q x).latches = s.latches := rfl
@[simp] theorem setPort_out (q : Nat) (x : PortSt) : (s.setPort q x).out = s.out := rfl
@[simp] theorem setPort_dram (q : Nat) (x : PortSt) : (s.setPort q x).dram = s.dram := rfl
@[simp] theorem setPort_comb (q : Nat) (x : PortSt) : (s.setPort q x).comb = s.comb := rfl
@[simp] theorem setPort_sram (q : Nat) (x : PortSt) : (s.setPort q x).sram = s.sram := rfl
@[simp] theorem setPort_slotA (q : Nat) (x : PortSt) : (s.setPort q x).slotA = s.slotA := rfl
@[simp] theorem setPort_slotB (q : Nat) (x : PortSt) : (s.setPort q x).slotB = s.slotB := rfl
@[simp] theorem setPort_beat (q : Nat) (x : PortSt) : (s.setPort q x).beat = s.beat := rfl
@[simp] theorem setPort_units (q : Nat) (x : PortSt) : (s.setPort q x).units = s.units := rfl
@[simp] theorem setPort_cores (q : Nat) (x : PortSt) : (s.setPort q x).cores = s.cores := rfl
@[simp] theorem setPort_watch (q : Nat) (x : PortSt) : (s.setPort q x).watch = s.watch := rfl
@[simp] theorem setPort_upd (q : Nat) (x : PortSt) : (s.setPort q x).upd = s.upd := rfl
@[simp] theorem setPort_tier (q : Nat) (x : PortSt) : (s.setPort q x).tier = s.tier := rfl
@[simp] theorem setPort_forager (q : Nat) (x : PortSt) : (s.setPort q x).forager = s.forager := rfl
@[simp] theorem setPort_mods (q : Nat) (x : PortSt) : (s.setPort q x).mods = s.mods := rfl
@[simp] theorem setPort_casc (q : Nat) (x : PortSt) : (s.setPort q x).casc = s.casc := rfl
@[simp] theorem setPort_host (q : Nat) (x : PortSt) : (s.setPort q x).host = s.host := rfl
@[simp] theorem setPort_power (q : Nat) (x : PortSt) : (s.setPort q x).power = s.power := rfl
@[simp] theorem setPort_test (q : Nat) (x : PortSt) : (s.setPort q x).test = s.test := rfl
@[simp] theorem setPort_esz (q : Nat) (x : PortSt) : (s.setPort q x).esz = s.esz := rfl
@[simp] theorem setPort_pkg (q : Nat) (x : PortSt) : (s.setPort q x).pkg = s.pkg := rfl

/-! ### `setVec` -/

@[simp] theorem setVec_now (p : Nat) (x : VecSt) : (s.setVec p x).now = s.now := rfl
@[simp] theorem setVec_pending (p : Nat) (x : VecSt) : (s.setVec p x).pending = s.pending := rfl
@[simp] theorem setVec_free (p : Nat) (x : VecSt) : (s.setVec p x).free = s.free := rfl
@[simp] theorem setVec_regs (p : Nat) (x : VecSt) : (s.setVec p x).regs = s.regs := rfl
@[simp] theorem setVec_latches (p : Nat) (x : VecSt) : (s.setVec p x).latches = s.latches := rfl
@[simp] theorem setVec_out (p : Nat) (x : VecSt) : (s.setVec p x).out = s.out := rfl
@[simp] theorem setVec_dram (p : Nat) (x : VecSt) : (s.setVec p x).dram = s.dram := rfl
@[simp] theorem setVec_comb (p : Nat) (x : VecSt) : (s.setVec p x).comb = s.comb := rfl
@[simp] theorem setVec_sram (p : Nat) (x : VecSt) : (s.setVec p x).sram = s.sram := rfl
@[simp] theorem setVec_slotA (p : Nat) (x : VecSt) : (s.setVec p x).slotA = s.slotA := rfl
@[simp] theorem setVec_slotB (p : Nat) (x : VecSt) : (s.setVec p x).slotB = s.slotB := rfl
@[simp] theorem setVec_beat (p : Nat) (x : VecSt) : (s.setVec p x).beat = s.beat := rfl
@[simp] theorem setVec_units (p : Nat) (x : VecSt) : (s.setVec p x).units = s.units := rfl
@[simp] theorem setVec_watch (p : Nat) (x : VecSt) : (s.setVec p x).watch = s.watch := rfl
@[simp] theorem setVec_upd (p : Nat) (x : VecSt) : (s.setVec p x).upd = s.upd := rfl
@[simp] theorem setVec_tier (p : Nat) (x : VecSt) : (s.setVec p x).tier = s.tier := rfl
@[simp] theorem setVec_forager (p : Nat) (x : VecSt) : (s.setVec p x).forager = s.forager := rfl
@[simp] theorem setVec_mods (p : Nat) (x : VecSt) : (s.setVec p x).mods = s.mods := rfl
@[simp] theorem setVec_ports (p : Nat) (x : VecSt) : (s.setVec p x).ports = s.ports := rfl
@[simp] theorem setVec_casc (p : Nat) (x : VecSt) : (s.setVec p x).casc = s.casc := rfl
@[simp] theorem setVec_host (p : Nat) (x : VecSt) : (s.setVec p x).host = s.host := rfl
@[simp] theorem setVec_power (p : Nat) (x : VecSt) : (s.setVec p x).power = s.power := rfl
@[simp] theorem setVec_test (p : Nat) (x : VecSt) : (s.setVec p x).test = s.test := rfl
@[simp] theorem setVec_esz (p : Nat) (x : VecSt) : (s.setVec p x).esz = s.esz := rfl
@[simp] theorem setVec_pkg (p : Nat) (x : VecSt) : (s.setVec p x).pkg = s.pkg := rfl

@[simp] theorem emit_out (o : Out) : (s.emit o).out = s.out ++ [o] := rfl
@[simp] theorem at_now (t : Nat) : (s.at t).now = max s.now t := rfl

end Sys2Proof.Laws
end

