-- ==== Sys2Proof/Laws/Regs.lean ====
section
/-! SUPPORT. Sparse stores, fields of words, and registers: a read after a write of the same place gives what was written,
and a write leaves every other place alone. -/

namespace Sys2Proof.Laws

open Sys2Proof Sys2Proof.Machine

/-! ### Stores -/

@[simp] theorem getKey_putKey_self {α : Type} (l : List (Nat × α)) (k : Nat) (v : α) : getKey (putKey l k v) k = some v := by
  induction l with
  | nil => simp [putKey, getKey]
  | cons x rest ih =>
    obtain ⟨j, w⟩ := x
    simp only [putKey]
    split
    · simp [getKey]
    · split
      · simp [getKey]
      · simp [getKey, ih]; omega

theorem getKey_putKey_ne {α : Type} (l : List (Nat × α)) {k j : Nat} (v : α) (h : j ≠ k) :
    getKey (putKey l k v) j = getKey l j := by
  induction l with
  | nil => simp [putKey, getKey, h.symm]
  | cons x rest ih =>
    obtain ⟨i, w⟩ := x
    simp only [putKey]
    split
    · simp [getKey, h.symm]
    · split
      · rename_i _ hk; subst hk; simp [getKey, h.symm]
      · simp only [getKey]; split
        · rfl
        · exact ih

theorem getKey_delKey_ne {α : Type} (l : List (Nat × α)) {k j : Nat} (h : j ≠ k) : getKey (delKey l k) j = getKey l j := by
  induction l with
  | nil => rfl
  | cons x rest ih =>
    obtain ⟨i, w⟩ := x
    simp only [delKey]
    split
    · rename_i hi; subst hi; simp [getKey, h.symm, ih]
    · simp only [getKey, ih]

theorem getKey_delKey_self {α : Type} (l : List (Nat × α)) (k : Nat) : getKey (delKey l k) k = none := by
  induction l with
  | nil => rfl
  | cons x rest ih =>
    obtain ⟨i, w⟩ := x
    simp only [delKey]
    split
    · exact ih
    · rename_i hi; simp only [getKey, if_neg hi]; exact ih

/-! ### Fields of a word -/

theorem testBit_field (W lo m v i : Nat) :
    (W - (W >>> lo) % 2 ^ m * 2 ^ lo + v % 2 ^ m * 2 ^ lo).testBit i =
      if lo ≤ i ∧ i < lo + m then v.testBit (i - lo) else W.testBit i := by
  have e1 : W = 2 ^ lo * (W / 2 ^ lo) + W % 2 ^ lo := (Nat.div_add_mod W (2 ^ lo)).symm
  have e2 : W / 2 ^ lo = 2 ^ m * (W / 2 ^ lo / 2 ^ m) + W / 2 ^ lo % 2 ^ m := (Nat.div_add_mod _ (2 ^ m)).symm
  have e3 : W - (W >>> lo) % 2 ^ m * 2 ^ lo + v % 2 ^ m * 2 ^ lo
      = 2 ^ lo * (2 ^ m * (W / 2 ^ lo / 2 ^ m) + v % 2 ^ m) + W % 2 ^ lo := by
    rw [Nat.shiftRight_eq_div_pow]
    have h : W / 2 ^ lo % 2 ^ m * 2 ^ lo ≤ W := by
      calc W / 2 ^ lo % 2 ^ m * 2 ^ lo ≤ W / 2 ^ lo * 2 ^ lo := Nat.mul_le_mul_right _ (Nat.mod_le _ _)
        _ ≤ W := Nat.div_mul_le_self _ _
    have e4 : W = 2 ^ lo * (2 ^ m * (W / 2 ^ lo / 2 ^ m)) + W / 2 ^ lo % 2 ^ m * 2 ^ lo + W % 2 ^ lo := by
      conv_lhs => rw [e1, e2]
      ring
    have e5 : W - W / 2 ^ lo % 2 ^ m * 2 ^ lo = 2 ^ lo * (2 ^ m * (W / 2 ^ lo / 2 ^ m)) + W % 2 ^ lo := by omega
    rw [e5]; ring
  rw [e3, Nat.testBit_two_pow_mul_add _ (Nat.mod_lt _ (by positivity))]
  by_cases h1 : i < lo
  · rw [if_pos h1, if_neg (by omega), Nat.testBit_mod_two_pow]; simp [h1]
  · rw [if_neg h1, Nat.testBit_two_pow_mul_add _ (Nat.mod_lt _ (by positivity))]
    by_cases h2 : i - lo < m
    · rw [if_pos h2, if_pos (by omega), Nat.testBit_mod_two_pow]; simp [h2]
    · rw [if_neg h2, if_neg (by omega), Nat.testBit_div_two_pow, Nat.testBit_div_two_pow]
      congr 1; omega

/-- Bit `i` of a word with a field replaced. -/
theorem getLsbD_withBits (w : Word) {hi lo : Nat} (v : Nat) (h : lo ≤ hi) {i : Nat} (hi' : i < 32) :
    (withBits w hi lo v).getLsbD i = if lo ≤ i ∧ i ≤ hi then v.testBit (i - lo) else w.getLsbD i := by
  simp only [withBits, BitVec.getLsbD_ofNat, hi', decide_true, Bool.true_and]
  rw [testBit_field]
  have : (lo ≤ i ∧ i < lo + (hi - lo + 1)) ↔ (lo ≤ i ∧ i ≤ hi) := by omega
  simp only [this]; rfl

theorem testBit_bits (w : Word) (hi lo i : Nat) :
    (bits w hi lo).testBit i = (decide (i < hi - lo + 1) && w.getLsbD (lo + i)) := by
  simp only [bits, Nat.testBit_mod_two_pow, Nat.testBit_shiftRight]; rfl

/-- The field that was replaced reads as the new value. -/
theorem bits_withBits_self (w : Word) {hi lo : Nat} (v : Nat) (h : lo ≤ hi) (hi' : hi < 32) :
    bits (withBits w hi lo v) hi lo = v % 2 ^ (hi - lo + 1) := by
  apply Nat.eq_of_testBit_eq
  intro i
  rw [testBit_bits, Nat.testBit_mod_two_pow]
  by_cases hi2 : i < hi - lo + 1
  · rw [getLsbD_withBits w v h (by omega), if_pos (by omega)]; simp
  · simp [hi2]

/-- A field that lies apart reads as before. -/
theorem bits_withBits_ne (w : Word) {hi lo hi2 lo2 : Nat} (v : Nat) (h : lo ≤ hi) (h2 : lo2 ≤ hi2) (hb : hi2 < 32)
    (hd : hi2 < lo ∨ hi < lo2) : bits (withBits w hi lo v) hi2 lo2 = bits w hi2 lo2 := by
  apply Nat.eq_of_testBit_eq
  intro i
  rw [testBit_bits, testBit_bits]
  by_cases hi3 : i < hi2 - lo2 + 1
  · rw [getLsbD_withBits w v h (by omega), if_neg (by omega)]
  · simp [hi3]

/-! ### Registers -/

@[simp] theorem reg_setReg (s : State) (o : Nat) (v : Word) : (s.setReg o v).reg o = v := by
  simp [State.reg, State.setReg]

theorem reg_setReg_ne (s : State) {o p : Nat} (v : Word) (h : regHome p ≠ regHome o) : (s.setReg o v).reg p = s.reg p := by
  simp [State.reg, State.setReg, getKey_putKey_ne _ _ h]

@[simp] theorem reg_setFld (s : State) (o hi lo v : Nat) : (s.setFld o hi lo v).reg o = withBits (s.reg o) hi lo v := by
  simp [State.setFld]

theorem reg_setFld_ne (s : State) {o p : Nat} (hi lo v : Nat) (h : regHome p ≠ regHome o) :
    (s.setFld o hi lo v).reg p = s.reg p := reg_setReg_ne s _ h

theorem fld_setFld_self (s : State) {o hi lo : Nat} (v : Nat) (h : lo ≤ hi) (hb : hi < 32) :
    (s.setFld o hi lo v).fld o hi lo = v % 2 ^ (hi - lo + 1) := by
  simp [State.fld, bits_withBits_self _ _ h hb]

theorem fld_setFld_ne (s : State) {o p : Nat} (hi lo v a b : Nat) (h : regHome p ≠ regHome o) :
    (s.setFld o hi lo v).fld p a b = s.fld p a b := by
  simp [State.fld, reg_setFld_ne s hi lo v h]

theorem bit_setBit_self (s : State) {o i : Nat} (b : Bool) (h : i < 32) : (s.setBit o i b).bit o i = b := by
  simp only [State.bit, State.setBit, fld_setFld_self s _ (Nat.le_refl i) h]
  cases b <;> simp

/-- A set register reads as before at every other offset. -/
theorem reg_setReg_eq (s : State) (o p : Nat) (v : Word) :
    (s.setReg o v).reg p = if regHome p = regHome o then v else s.reg p := by
  split
  · rename_i h; simp [State.reg, State.setReg, h]
  · rename_i h; exact reg_setReg_ne s v h

/-- What leaves the registers alone leaves every read of one alone. -/
theorem reg_congr {s t : State} (h : t.regs = s.regs) (o : Nat) : t.reg o = s.reg o := by
  simp [State.reg, h]

end Sys2Proof.Laws
end

