-- ==== Sys2Proof/Laws/Mem.lean ====
section
/-! SUPPORT. Memories: every operation keeps the canonical form, a read after a write of the same byte gives what was written,
and every other byte reads as before. -/

namespace Sys2Proof.Laws

open Sys2Proof Sys2Proof.Machine

/-! ### The canonical form -/

/-- Every key of a list lies above `k`. -/
def above (k : Nat) (l : List Host.Cell) : Prop := ∀ c ∈ l, k < c.1

theorem wfCells_cons (c : Host.Cell) (l : List Host.Cell) :
    Mem.wfCells (c :: l) = true ↔ c.2 ≠ 0 ∧ above c.1 l ∧ Mem.wfCells l = true := by
  induction l generalizing c with
  | nil => simp [Mem.wfCells, above]
  | cons d rest ih =>
    simp only [Mem.wfCells, Bool.and_eq_true, decide_eq_true_eq, above, List.mem_cons, forall_eq_or_imp]
    constructor
    · rintro ⟨⟨h1, h2⟩, h3⟩
      refine ⟨h1, ⟨h2, ?_⟩, h3⟩
      intro x hx
      exact Nat.lt_trans h2 (((ih d).mp h3).2.1 x hx)
    · rintro ⟨h1, ⟨h2, _⟩, h3⟩
      exact ⟨⟨h1, h2⟩, h3⟩

theorem getKey_above {k j : Nat} {l : List Host.Cell} (h : above k l) (hj : j ≤ k) : getKey l j = none := by
  induction l with
  | nil => rfl
  | cons c rest ih =>
    have h1 : k < c.1 := h c (by simp)
    have h2 : above k rest := fun x hx => h x (by simp [hx])
    have : c.1 ≠ j := by omega
    obtain ⟨i, v⟩ := c
    simp only [getKey]
    rw [if_neg this]; exact ih h2

theorem above_putKey {m k : Nat} {v : Byte} {l : List Host.Cell} (h : above m l) (hk : m < k) : above m (putKey l k v) := by
  induction l with
  | nil => intro c hc; simp [putKey] at hc; simp [hc, hk]
  | cons d rest ih =>
    have h1 : m < d.1 := h d (by simp)
    have h2 : above m rest := fun x hx => h x (by simp [hx])
    obtain ⟨i, w⟩ := d
    intro c hc
    simp only [putKey] at hc
    split at hc
    · simp only [List.mem_cons] at hc
      rcases hc with rfl | rfl | hc
      · exact hk
      · exact h1
      · exact h2 c hc
    · split at hc
      · simp only [List.mem_cons] at hc
        rcases hc with rfl | hc
        · exact hk
        · exact h2 c hc
      · simp only [List.mem_cons] at hc
        rcases hc with rfl | hc
        · exact h1
        · exact ih h2 c hc

theorem wfCells_putKey {l : List Host.Cell} (k : Nat) {v : Byte} (hv : v ≠ 0) (h : Mem.wfCells l = true) :
    Mem.wfCells (putKey l k v) = true := by
  induction l with
  | nil => simpa [putKey, Mem.wfCells] using hv
  | cons d rest ih =>
    obtain ⟨i, w⟩ := d
    obtain ⟨h1, h2, h3⟩ := (wfCells_cons _ _).mp h
    simp only [putKey]
    split
    · refine (wfCells_cons _ _).mpr ⟨hv, ?_, h⟩
      intro c hc
      simp only [List.mem_cons] at hc
      rcases hc with rfl | hc
      · assumption
      · have := h2 c hc; simp only at this; omega
    · split
      · rename_i hk; subst hk
        exact (wfCells_cons _ _).mpr ⟨hv, h2, h3⟩
      · refine (wfCells_cons _ _).mpr ⟨h1, above_putKey h2 ?_, ih h3⟩
        simp only; omega

theorem wfCells_sublist {l m : List Host.Cell} (hs : m.Sublist l) (h : Mem.wfCells l = true) : Mem.wfCells m = true := by
  induction hs with
  | slnil => exact h
  | cons _ _ ih => exact ih ((wfCells_cons _ _).mp h).2.2
  | cons_cons c hs ih =>
    obtain ⟨h1, h2, h3⟩ := (wfCells_cons _ _).mp h
    exact (wfCells_cons _ _).mpr ⟨h1, fun x hx => h2 x (hs.subset hx), ih h3⟩

theorem delKey_sublist {α : Type} (l : List (Nat × α)) (k : Nat) : (delKey l k).Sublist l := by
  induction l with
  | nil => exact List.Sublist.slnil
  | cons c rest ih =>
    obtain ⟨i, v⟩ := c
    simp only [delKey]
    split
    · exact ih.cons _
    · exact ih.cons_cons _

@[simp] theorem wf_empty : Mem.empty.wf = true := rfl

theorem wf_write {m : Mem} (h : m.wf = true) (k : Nat) (v : Byte) : (m.write k v).wf = true := by
  simp only [Mem.wf, Mem.write]
  split
  · exact wfCells_sublist (delKey_sublist _ _) h
  · rename_i hv; exact wfCells_putKey k hv h

theorem wf_writeN {m : Mem} (h : m.wf = true) (k : Nat) (b : Bytes) : (m.writeN k b).wf = true := by
  induction b generalizing m k with
  | nil => exact h
  | cons x xs ih => exact ih (wf_write h k x) (k + 1)

theorem wf_undefine {m : Mem} (h : m.wf = true) (lo hi st : Nat) : (m.undefine lo hi st).wf = true := by
  simp only [Mem.undefine]
  split
  · exact wfCells_sublist List.filter_sublist h
  · exact h

theorem wf_clear {m : Mem} (h : m.wf = true) (lo hi : Nat) : (m.clear lo hi).wf = true :=
  wfCells_sublist List.filter_sublist h

/-! ### Reads after writes -/

theorem undefStamp_cutKey_self (k : Nat) (l : List UndefRange) : undefStamp (cutKey k l) k = none := by
  induction l with
  | nil => rfl
  | cons r rest ih =>
    simp only [cutKey]
    split
    · have e1 : ∀ x, undefStamp ((if r.lo < k then [{ r with hi := k }] else []) ++ x) k = undefStamp x k := by
        intro x; split <;> simp [undefStamp]
      have e2 : ∀ x, undefStamp ((if k + 1 < r.hi then [{ r with lo := k + 1 }] else []) ++ x) k = undefStamp x k := by
        intro x; split <;> simp [undefStamp]
      rw [List.append_assoc, e1, e2, ih]
    · rename_i h; simp only [undefStamp]; rw [if_neg h, ih]

theorem undefStamp_cutKey_ne {k j : Nat} (h : j ≠ k) (l : List UndefRange) :
    undefStamp (cutKey k l) j = undefStamp l j := by
  induction l with
  | nil => rfl
  | cons r rest ih =>
    simp only [cutKey]
    split
    · rename_i hk
      by_cases hj : r.lo ≤ j ∧ j < r.hi
      · simp only [undefStamp, if_pos hj]
        rcases Nat.lt_or_gt_of_ne h with hlt | hgt
        · rw [if_pos (show r.lo < k by omega)]
          simp only [List.cons_append, undefStamp]
          rw [if_pos (by omega)]
        · have e1 : ∀ x, undefStamp ((if r.lo < k then [{ r with hi := k }] else []) ++ x) j = undefStamp x j := by
            intro x; split
            · simp only [List.cons_append, List.nil_append, undefStamp]; rw [if_neg (by omega)]
            · rfl
          rw [List.append_assoc, e1, if_pos (show k + 1 < r.hi by omega)]
          simp only [List.cons_append, undefStamp]
          rw [if_pos (by omega)]
      · have e1 : ∀ x, undefStamp ((if r.lo < k then [{ r with hi := k }] else []) ++ x) j = undefStamp x j := by
          intro x; split
          · simp only [List.cons_append, List.nil_append, undefStamp]; rw [if_neg (by omega)]
          · rfl
        have e2 : ∀ x, undefStamp ((if k + 1 < r.hi then [{ r with lo := k + 1 }] else []) ++ x) j = undefStamp x j := by
          intro x; split
          · simp only [List.cons_append, List.nil_append, undefStamp]; rw [if_neg (by omega)]
          · rfl
        rw [List.append_assoc, e1, e2, ih]
        simp only [undefStamp, if_neg hj]
    · simp only [undefStamp, ih]

theorem getKey_write (m : Mem) (k : Nat) (v : Byte) (j : Nat) :
    getKey (m.write k v).cells j = if v = 0 then getKey (delKey m.cells k) j else getKey (putKey m.cells k v) j := by
  simp only [Mem.write]; split <;> rfl

/-- The byte that was written reads back. -/
theorem read_write_self (m : Mem) (k : Nat) (v : Byte) : (m.write k v).read k = v := by
  have e : undefStamp (m.write k v).undef k = none := undefStamp_cutKey_self k m.undef
  simp only [Mem.read, getKey_write, e]
  by_cases hv : v = 0
  · rw [if_pos hv, getKey_delKey_self]; exact hv.symm
  · rw [if_neg hv, getKey_putKey_self]

/-- Every other byte reads as before. -/
theorem read_write_ne (m : Mem) {k j : Nat} (h : j ≠ k) (v : Byte) : (m.write k v).read j = m.read j := by
  have e : undefStamp (m.write k v).undef j = undefStamp m.undef j := undefStamp_cutKey_ne h m.undef
  simp only [Mem.read, getKey_write, e]
  by_cases hv : v = 0
  · rw [if_pos hv, getKey_delKey_ne _ h]
  · rw [if_neg hv, getKey_putKey_ne _ _ h]

theorem read_writeN_outside (m : Mem) {k j : Nat} (b : Bytes) (h : j < k ∨ k + b.length ≤ j) :
    (m.writeN k b).read j = m.read j := by
  induction b generalizing m k with
  | nil => rfl
  | cons x xs ih =>
    simp only [List.length_cons] at h
    rw [Mem.writeN, ih _ (by omega), read_write_ne _ (by omega)]

theorem read_writeN_inside (m : Mem) (k : Nat) (b : Bytes) (i : Nat) (h : i < b.length) :
    (m.writeN k b).read (k + i) = b[i] := by
  induction b generalizing m k i with
  | nil => simp at h
  | cons x xs ih =>
    cases i with
    | zero => rw [Mem.writeN, read_writeN_outside _ _ (by omega)]; exact read_write_self m k x
    | succ i =>
      have := ih (m.write k x) (k + 1) i (by simpa using h)
      rw [Mem.writeN, show k + (i + 1) = k + 1 + i by omega, this]; rfl

end Sys2Proof.Laws
end

