-- ==== Sys2Proof/Laws/KeepsBase.lean ====
section
/-! SUPPORT. The relation Keeps of Safety.lean is kept by composition, branching and folding, and by the plain updates of a state. -/

namespace Sys2Proof.Laws

-- one theorem after another: hundreds at once run out of threads
set_option Elab.async false

open Sys2Proof Sys2Proof.Machine

/-! ### The relation -/

theorem fusesKept_refl (s : State) : fusesKept s s :=
  ⟨Nat.le_refl _, Nat.le_refl _, Nat.le_refl _, fun _ h => h, fun h => h, fun _ _ h => h⟩

theorem fusesKept_trans {a b c : State} (h : fusesKept a b) (g : fusesKept b c) : fusesKept a c :=
  ⟨h.1.trans g.1, h.2.1.trans g.2.1, h.2.2.1.trans g.2.2.1, fun e he => g.2.2.2.1 e (h.2.2.2.1 e he),
    fun x => g.2.2.2.2.1 (h.2.2.2.2.1 x), fun i x hx => g.2.2.2.2.2 i x (h.2.2.2.2.2 i x hx)⟩

theorem samePart_refl (p : StatePart) (s : State) : samePart p s s := by
  cases p <;> exact rfl

theorem samePart_trans {p : StatePart} {a b c : State} (h : samePart p a b) (g : samePart p b c) : samePart p a c := by
  cases p <;> exact Eq.trans g h

/-- The parts that may change cover a list of parts. -/
def covers (P : StatePart → Bool) (l : List StatePart) : Prop := ∀ p, l.contains p = true → P p = true

theorem covers.sub {P : StatePart → Bool} {l m : List StatePart} (h : covers P m) (hl : (l.all fun p => m.contains p) = true) : covers P l := by
  intro p hp
  refine h p (List.all_eq_true.mp hl p ?_)
  simpa using hp

theorem covers.get {P : StatePart → Bool} {m : List StatePart} {p : StatePart} (h : covers P m) (hp : m.contains p = true) : P p = true := h p hp

/-- Every part that differs may change. -/
structure UpdOk (P : StatePart → Bool) (s t : State) : Prop where
  ok : ∀ p, P p = true ∨ samePart p s t

theorem UpdOk.parts {P : StatePart → Bool} {s t : State} (h : UpdOk P s t) (p : StatePart) (hp : P p = false) : samePart p s t := by
  rcases h.ok p with h | h
  · rw [h] at hp; cases hp
  · exact h

variable {P : StatePart → Bool}

theorem keeps_refl (s : State) : Keeps P s s :=
  ⟨rfl, List.prefix_rfl, Nat.le_refl _, fun h => h, fusesKept_refl s, fun p _ => samePart_refl p s⟩

theorem keeps_trans {a b c : State} (h : Keeps P a b) (g : Keeps P b c) : Keeps P a c :=
  ⟨g.pending.trans h.pending, h.out.trans g.out, h.free.trans g.free, fun x => g.memory (h.memory x), fusesKept_trans h.fuses g.fuses,
    fun p hp => samePart_trans (h.parts p hp) (g.parts p hp)⟩

/-- An update of any other field. -/
theorem keeps_upd {s t : State} {n r l a b c d e f g i j k m o p q u w} (h : Keeps P s t)
    (ho : UpdOk P t (State.mk n t.pending t.free r l t.out t.dram t.comb t.sram a b c d e f g i j k m o p q u t.esz w) := by
      (refine ⟨fun p => ?_⟩; cases p <;> first | (apply Or.inl; apply hp.get; rfl) | exact Or.inr rfl)) :
    Keeps P s (State.mk n t.pending t.free r l t.out t.dram t.comb t.sram a b c d e f g i j k m o p q u t.esz w) :=
  keeps_trans h ⟨rfl, List.prefix_rfl, Nat.le_refl _, fun h => h, fusesKept_refl t, ho.parts⟩

theorem keeps_ite {c : Prop} {_ : Decidable c} {s a b : State} (ha : c → Keeps P s a) (hb : ¬c → Keeps P s b) :
    Keeps P s (if c then a else b) := by
  split
  · exact ha ‹_›
  · exact hb ‹_›

theorem keeps_foldl {α : Type} {f : State → α → State} {s t : State} {l : List α} 
    (h : ∀ u x b, Keeps P b u → Keeps P b (f u x)) (ht : Keeps P s t) :
    Keeps P s (l.foldl f t) := by
  induction l generalizing t with
  | nil => exact ht
  | cons x xs ih => exact ih (h t x s ht)

theorem keeps_snd {α : Type} {s t : State} {x : α × State} {a : α} (h : x = (a, t)) (hx : Keeps P s x.2) : Keeps P s t := by
  subst h; exact hx

theorem keeps_fst {α : Type} {s t : State} {x : State × α} {a : α} (h : x = (t, a)) (hx : Keeps P s x.1) : Keeps P s t := by
  subst h; exact hx

/-- A result that, where there is one, keeps what a command keeps. -/
structure KeepsSome (P : StatePart → Bool) (s : State) (o : Option State) : Prop where
  get : ∀ t, o = some t → Keeps P s t

theorem keepsSome_none (s : State) : KeepsSome P s none := ⟨fun _ h => nomatch h⟩

theorem keepsSome_some {s t : State} (h : Keeps P s t) : KeepsSome P s (some t) := ⟨fun _ e => by cases e; exact h⟩

theorem keepsSome_ite {c : Prop} {_ : Decidable c} {s : State} {a b : Option State} (ha : KeepsSome P s a) (hb : KeepsSome P s b) :
    KeepsSome P s (if c then a else b) := by
  split
  · exact ha
  · exact hb

theorem keeps_of_some {s t : State} {o : Option State} (h : KeepsSome P s o) (e : o = some t) : Keeps P s t := h.get t e

theorem keeps_getD {s t : State} {o : Option State} (h : KeepsSome P s o) (ht : Keeps P s t) : Keeps P s (o.getD t) := by
  cases o with
  | none => exact ht
  | some u => exact h.get u rfl

/-- An update of Eszoja's own state that leaves the fuses alone. -/
theorem keeps_esz {s t : State} {n r l a b c d e f g i j k m o p q u w a1 a2 a3 a4 a5 a6 a7 a8 a9 b1 b2 b3 b4} (h : Keeps P s t)
    (ho : UpdOk P t (State.mk n t.pending t.free r l t.out t.dram t.comb t.sram a b c d e f g i j k m o p q u
      (EszSt.mk t.esz.rbEsz t.esz.rbHub t.esz.rbFing t.esz.vendorDebugBlocked t.esz.keyHash t.esz.revoked a1 a2 a3 a4 a5 a6 a7 a8 a9
        b1 b2 b3 b4) w) := by
      (refine ⟨fun p => ?_⟩; cases p <;> first | (apply Or.inl; apply hp.get; rfl) | exact Or.inr rfl)) :
    Keeps P s (State.mk n t.pending t.free r l t.out t.dram t.comb t.sram a b c d e f g i j k m o p q u
      (EszSt.mk t.esz.rbEsz t.esz.rbHub t.esz.rbFing t.esz.vendorDebugBlocked t.esz.keyHash t.esz.revoked a1 a2 a3 a4 a5 a6 a7 a8 a9
        b1 b2 b3 b4) w) :=
  keeps_trans h ⟨rfl, List.prefix_rfl, Nat.le_refl _, fun h => h, fusesKept_refl t, ho.parts⟩

/-- An update of Eszoja's own state that only blows fuses. -/
theorem keeps_fuses (s : State) (e : EszSt) (h : fusesKept s { s with esz := e }) (hp : covers P [.esz] := by exact hp.sub rfl) :
    Keeps P s { s with esz := e } :=
  ⟨rfl, List.prefix_rfl, Nat.le_refl _, fun h => h, h, UpdOk.parts (by
    (refine ⟨fun p => ?_⟩; cases p <;> first | (apply Or.inl; apply hp.get; rfl) | exact Or.inr rfl))⟩

/-! ### Plain updates -/

theorem keeps_emit {base s : State} (h : Keeps P base s) (o : Out) : Keeps P base (s.emit o) :=
  keeps_trans h ⟨rfl, List.prefix_append _ _, Nat.le_refl _, fun h => h, fusesKept_refl s, fun p _ => samePart_refl p s⟩

theorem keeps_draw {base s : State} (h : Keeps P base s) : Keeps P base s.draw.2 :=
  keeps_trans h ⟨rfl, List.prefix_rfl, Nat.le_succ _, fun h => h, fusesKept_refl s, fun p _ => samePart_refl p s⟩

theorem keeps_memory {base s : State} {a b c : Mem} (h : Keeps P base s) (hm : s.memoryOk = true → (a.wf && b.wf && c.wf) = true)
    (hp : covers P [.memory] := by exact hp.sub rfl) : Keeps P base { s with dram := a, comb := b, sram := c } :=
  keeps_trans h ⟨rfl, List.prefix_rfl, Nat.le_refl _, hm, fusesKept_refl s, UpdOk.parts (by
    (refine ⟨fun p => ?_⟩; cases p <;> first | (apply Or.inl; apply hp.get; rfl) | exact Or.inr rfl))⟩

theorem keeps_dram (s : State) (m : Mem) (h : s.dram.wf = true → m.wf = true) (hp : covers P [.memory] := by exact hp.sub rfl) :
    Keeps P s { s with dram := m } := by
  refine keeps_memory (keeps_refl s) fun x => ?_
  simp only [State.memoryOk, Bool.and_eq_true] at x ⊢
  exact ⟨⟨h x.1.1, x.1.2⟩, x.2⟩

theorem keeps_comb (s : State) (m : Mem) (h : s.comb.wf = true → m.wf = true) (hp : covers P [.memory] := by exact hp.sub rfl) :
    Keeps P s { s with comb := m } := by
  refine keeps_memory (keeps_refl s) fun x => ?_
  simp only [State.memoryOk, Bool.and_eq_true] at x ⊢
  exact ⟨⟨x.1.1, h x.1.2⟩, x.2⟩

theorem keeps_sram (s : State) (m : Mem) (h : s.sram.wf = true → m.wf = true) (hp : covers P [.memory] := by exact hp.sub rfl) :
    Keeps P s { s with sram := m } := by
  refine keeps_memory (keeps_refl s) fun x => ?_
  simp only [State.memoryOk, Bool.and_eq_true] at x ⊢
  exact ⟨x.1, h x.2⟩

theorem keeps_poke {base s : State} (h : Keeps P base s) (l : Loc) (v : Byte) (hp : covers P [.memory] := by exact hp.sub rfl) :
    Keeps P base (s.poke l v) := by
  refine keeps_trans h ?_
  unfold State.poke
  split
  · exact keeps_dram s _ fun h => wf_write h _ _
  · exact keeps_comb s _ fun h => wf_write h _ _
  · exact keeps_sram s _ fun h => wf_write h _ _
  · exact keeps_refl s

theorem keeps_unknow {base s : State} (h : Keeps P base s) (l : Loc) (st : Nat) (hp : covers P [.memory] := by exact hp.sub rfl) :
    Keeps P base (s.unknow l st) := by
  refine keeps_trans h ?_
  unfold State.unknow
  split
  · exact keeps_dram s _ fun h => wf_undefine h _ _ _
  · exact keeps_comb s _ fun h => wf_undefine h _ _ _
  · exact keeps_sram s _ fun h => wf_undefine h _ _ _
  · exact keeps_refl s

end Sys2Proof.Laws
end

