-- ==== Sys2Proof/Laws/KeepsOps.lean ====
section
/-! SUPPORT. The shared operations, the fault machinery, the register file and its commands keep the queue, the records sent out, the memory form, the fuses, and every part of the machine that they do not name. -/

namespace Sys2Proof.Laws

-- one theorem after another: hundreds at once run out of threads
set_option Elab.async false

open Sys2Proof Sys2Proof.Machine

/-! ### Ops -/

theorem keeps_setReg {P : StatePart → Bool} {σ : State} (s : State) (off : Nat) (v : Word) (hσ : Keeps P σ s)
    (hp : covers P [.regs] := by exact hp.sub rfl) :
    Keeps P σ (State.setReg s off v) := by
  unfold State.setReg
  repeat' first
    | with_reducible assumption | ((conv in (State.mk ..) => skip); with_reducible apply keeps_upd)
    | (refine UpdOk.mk ?_; intro p; cases p <;> first | (apply Or.inl; apply hp.get; rfl) | exact Or.inr rfl)

theorem keeps_setFld {P : StatePart → Bool} {σ : State} (s : State) (off hi lo v : Nat) (hσ : Keeps P σ s)
    (hp : covers P [.regs] := by exact hp.sub rfl) :
    Keeps P σ (State.setFld s off hi lo v) := by
  unfold State.setFld
  repeat' first
    | (with_reducible show covers P _; exact hp.sub rfl) | with_reducible assumption | with_reducible apply keeps_setReg

theorem keeps_setBit {P : StatePart → Bool} {σ : State} (s : State) (off i : Nat) (b : Bool) (hσ : Keeps P σ s)
    (hp : covers P [.regs] := by exact hp.sub rfl) :
    Keeps P σ (State.setBit s off i b) := by
  unfold State.setBit
  repeat' first
    | (with_reducible show covers P _; exact hp.sub rfl) | with_reducible assumption | with_reducible apply keeps_setFld

theorem keeps_bumpSat {P : StatePart → Bool} {σ : State} (s : State) (off hi lo n : Nat) (hσ : Keeps P σ s)
    (hp : covers P [.regs] := by exact hp.sub rfl) :
    Keeps P σ (State.bumpSat s off hi lo n) := by
  unfold State.bumpSat
  repeat' first
    | (with_reducible show covers P _; exact hp.sub rfl) | with_reducible assumption | with_reducible apply keeps_setFld

theorem keeps_bumpWrap {P : StatePart → Bool} {σ : State} (s : State) (off hi lo n : Nat) (hσ : Keeps P σ s)
    (hp : covers P [.regs] := by exact hp.sub rfl) :
    Keeps P σ (State.bumpWrap s off hi lo n) := by
  unfold State.bumpWrap
  repeat' first
    | (with_reducible show covers P _; exact hp.sub rfl) | with_reducible assumption | with_reducible apply keeps_setFld

theorem keeps_setPair {P : StatePart → Bool} {σ : State} (s : State) (lo v : Nat) (hσ : Keeps P σ s)
    (hp : covers P [.regs] := by exact hp.sub rfl) :
    Keeps P σ (State.setPair s lo v) := by
  unfold State.setPair
  repeat' first
    | (with_reducible show covers P _; exact hp.sub rfl) | with_reducible assumption | with_reducible apply keeps_setReg

theorem keeps_bumpPair {P : StatePart → Bool} {σ : State} (s : State) (lo n : Nat) (hσ : Keeps P σ s)
    (hp : covers P [.regs] := by exact hp.sub rfl) :
    Keeps P σ (State.bumpPair s lo n) := by
  unfold State.bumpPair
  repeat' first
    | (with_reducible show covers P _; exact hp.sub rfl) | with_reducible assumption | with_reducible apply keeps_setPair

theorem keeps_at {P : StatePart → Bool} {σ : State} (s : State) (t : Nat) (hσ : Keeps P σ s)
    (hp : covers P [.now] := by exact hp.sub rfl) :
    Keeps P σ (State.at s t) := by
  unfold State.at
  repeat' first
    | with_reducible assumption | ((conv in (State.mk ..) => skip); with_reducible apply keeps_upd)
    | (refine UpdOk.mk ?_; intro p; cases p <;> first | (apply Or.inl; apply hp.get; rfl) | exact Or.inr rfl)

theorem keeps_setSlot {P : StatePart → Bool} {σ : State} (s : State) (f : FSlot) (x : SlotSt) (hσ : Keeps P σ s)
    (hp : covers P [.slots] := by exact hp.sub rfl) :
    Keeps P σ (State.setSlot s f x) := by
  unfold State.setSlot
  repeat' first
    | with_reducible assumption | split | ((conv in (State.mk ..) => skip); with_reducible apply keeps_upd)
    | (refine UpdOk.mk ?_; intro p; cases p <;> first | (apply Or.inl; apply hp.get; rfl) | exact Or.inr rfl)

theorem keeps_msix {P : StatePart → Bool} {σ : State} (s : State) (p : HPort) (v : Nat) (hσ : Keeps P σ s)
    (hp : covers P [.regs] := by exact hp.sub rfl) :
    Keeps P σ (State.msix s p v) := by
  unfold State.msix
  repeat' first
    | (with_reducible show covers P _; exact hp.sub rfl) | (intro x; clear_value x) | lift_lets
    | with_reducible refine keeps_ite (fun _ => ?_) (fun _ => ?_) | with_reducible assumption | with_reducible apply keeps_emit
    | with_reducible apply keeps_setBit

theorem keeps_msixBoth {P : StatePart → Bool} {σ : State} (s : State) (v : Nat) (hσ : Keeps P σ s)
    (hp : covers P [.regs] := by exact hp.sub rfl) :
    Keeps P σ (State.msixBoth s v) := by
  unfold State.msixBoth
  repeat' first
    | (with_reducible show covers P _; exact hp.sub rfl) | with_reducible assumption | with_reducible apply keeps_msix

theorem keeps_setDevState {P : StatePart → Bool} {σ : State} (s : State) (n : Nat) (hσ : Keeps P σ s)
    (hp : covers P [.regs] := by exact hp.sub rfl) :
    Keeps P σ (State.setDevState s n) := by
  unfold State.setDevState
  repeat' first
    | (with_reducible show covers P _; exact hp.sub rfl) | with_reducible refine keeps_ite (fun _ => ?_) (fun _ => ?_)
    | with_reducible assumption | with_reducible apply keeps_msixBoth | with_reducible apply keeps_setFld

/-! ### Faults -/

theorem keeps_setUnit {P : StatePart → Bool} {σ : State} (s : State) (u : UnitId) (x : UnitSt) (hσ : Keeps P σ s)
    (hp : covers P [.units] := by exact hp.sub rfl) :
    Keeps P σ (State.setUnit s u x) := by
  unfold State.setUnit
  repeat' first
    | with_reducible assumption | ((conv in (State.mk ..) => skip); with_reducible apply keeps_upd)
    | (refine UpdOk.mk ?_; intro p; cases p <;> first | (apply Or.inl; apply hp.get; rfl) | exact Or.inr rfl)

theorem keeps_msixClass {P : StatePart → Bool} {σ : State} (s : State) (cls : Nat) (hσ : Keeps P σ s)
    (hp : covers P [.regs, .beat] := by exact hp.sub rfl) :
    Keeps P σ (State.msixClass s cls) := by
  unfold State.msixClass
  repeat' first
    | (with_reducible show covers P _; exact hp.sub rfl)
    | (intro x; refine (fun (hf : ∀ (u : State) v (b : State), Keeps P b u → Keeps P b (x u v)) => ?_) ?_; (on_goal 1 => clear_value x); (on_goal 2 => (intro _ _ _ _; dsimp only [x])))
    | lift_lets | with_reducible refine keeps_ite (fun _ => ?_) (fun _ => ?_) | with_reducible assumption
    | with_reducible apply hf | with_reducible apply keeps_msix
    | ((conv in (State.mk ..) => skip); with_reducible apply keeps_upd)
    | (refine UpdOk.mk ?_; intro p; cases p <;> first | (apply Or.inl; apply hp.get; rfl) | exact Or.inr rfl)

theorem keeps_capture {P : StatePart → Bool} {σ : State} (s : State) (e : Ev) (overwrote : Bool) (hσ : Keeps P σ s)
    (hp : covers P [.regs] := by exact hp.sub rfl) :
    Keeps P σ (State.capture s e overwrote) := by
  unfold State.capture
  repeat' first
    | (with_reducible show covers P _; exact hp.sub rfl)
    | (intro (x : State); refine (fun (hx : Keeps P σ x) => ?_) ?_; (on_goal 1 => clear_value x); (on_goal 2 => dsimp only [x]))
    | (intro x; clear_value x) | lift_lets | with_reducible assumption | with_reducible apply keeps_setPair
    | with_reducible apply keeps_setReg

theorem keeps_ferr {P : StatePart → Bool} {σ : State} (s : State) (e : Ev) (hσ : Keeps P σ s)
    (hp : covers P [.regs] := by exact hp.sub rfl) :
    Keeps P σ (State.ferr s e) := by
  unfold State.ferr
  repeat' first
    | (with_reducible show covers P _; exact hp.sub rfl) | with_reducible refine keeps_ite (fun _ => ?_) (fun _ => ?_)
    | with_reducible assumption | with_reducible apply keeps_capture | with_reducible apply keeps_setBit

theorem keeps_logEntry {P : StatePart → Bool} {σ : State} (s : State) (e : Ev) (hσ : Keeps P σ s)
    (hp : covers P [.regs, .beat] := by exact hp.sub rfl) :
    Keeps P σ (State.logEntry s e) := by
  unfold State.logEntry
  repeat' first
    | (with_reducible show covers P _; exact hp.sub rfl)
    | (intro (x : State); refine (fun (hx : Keeps P σ x) => ?_) ?_; (on_goal 1 => clear_value x); (on_goal 2 => dsimp only [x]))
    | (intro x; clear_value x) | lift_lets | with_reducible refine keeps_ite (fun _ => ?_) (fun _ => ?_)
    | with_reducible assumption | with_reducible apply keeps_bumpSat | with_reducible apply keeps_ferr
    | with_reducible apply keeps_msixClass | with_reducible apply keeps_setBit | with_reducible apply keeps_setReg

theorem keeps_updCode {P : StatePart → Bool} {σ : State} (s : State) (n code : Nat) (hσ : Keeps P σ s)
    (hp : covers P [.regs] := by exact hp.sub rfl) :
    Keeps P σ (State.updCode s n code) := by
  unfold State.updCode
  repeat' first
    | (with_reducible show covers P _; exact hp.sub rfl) | with_reducible assumption | with_reducible apply keeps_setFld

theorem keeps_forgCode {P : StatePart → Bool} {σ : State} (s : State) (code : Nat) (hσ : Keeps P σ s)
    (hp : covers P [.regs] := by exact hp.sub rfl) :
    Keeps P σ (State.forgCode s code) := by
  unfold State.forgCode
  repeat' first
    | (with_reducible show covers P _; exact hp.sub rfl) | with_reducible assumption | with_reducible apply keeps_setFld

theorem keeps_markFault {P : StatePart → Bool} {σ : State} (s : State) (e : Ev) (hσ : Keeps P σ s)
    (hp : covers P [.beat] := by exact hp.sub rfl) :
    Keeps P σ (State.markFault s e) := by
  unfold State.markFault
  repeat' first
    | (intro x; clear_value x) | lift_lets | with_reducible refine keeps_ite (fun _ => ?_) (fun _ => ?_)
    | with_reducible assumption | ((conv in (State.mk ..) => skip); with_reducible apply keeps_upd)
    | (refine UpdOk.mk ?_; intro p; cases p <;> first | (apply Or.inl; apply hp.get; rfl) | exact Or.inr rfl)

theorem keeps_lose {P : StatePart → Bool} {σ : State} (s : State) (e : Ev) (hσ : Keeps P σ s)
    (hp : covers P [.regs, .beat, .test] := by exact hp.sub rfl) :
    Keeps P σ (State.lose s e) := by
  unfold State.lose
  repeat' first
    | (with_reducible show covers P _; exact hp.sub rfl)
    | (intro (x : State); refine (fun (hx : Keeps P σ x) => ?_) ?_; (on_goal 1 => clear_value x); (on_goal 2 => dsimp only [x]))
    | (intro x; clear_value x) | lift_lets | with_reducible assumption | with_reducible apply keeps_logEntry | split
    | ((conv in (State.mk ..) => skip); with_reducible apply keeps_upd)
    | (refine UpdOk.mk ?_; intro p; cases p <;> first | (apply Or.inl; apply hp.get; rfl) | exact Or.inr rfl)

theorem keeps_rp {P : StatePart → Bool} {σ : State} (s : State) (e : Ev) (hσ : Keeps P σ s)
    (hp : covers P [.regs, .beat] := by exact hp.sub rfl) :
    Keeps P σ (State.rp s e) := by
  unfold State.rp
  repeat' first
    | (with_reducible show covers P _; exact hp.sub rfl) | with_reducible assumption | with_reducible apply keeps_logEntry
    | with_reducible apply keeps_markFault

theorem keeps_showPower {P : StatePart → Bool} {σ : State} (s : State) (u : UnitId) (p : Nat) (hσ : Keeps P σ s)
    (hp : covers P [.regs] := by exact hp.sub rfl) :
    Keeps P σ (State.showPower s u p) := by
  unfold State.showPower
  repeat' first
    | (with_reducible show covers P _; exact hp.sub rfl) | (intro x; clear_value x) | lift_lets
    | with_reducible refine keeps_ite (fun _ => ?_) (fun _ => ?_) | with_reducible assumption | with_reducible apply keeps_setFld

theorem keeps_setPower {P : StatePart → Bool} {σ : State} (s : State) (u : UnitId) (p : Nat) (hσ : Keeps P σ s)
    (hp : covers P [.regs, .units] := by exact hp.sub rfl) :
    Keeps P σ (State.setPower s u p) := by
  unfold State.setPower
  repeat' first
    | (with_reducible show covers P _; exact hp.sub rfl) | with_reducible assumption | with_reducible apply keeps_setUnit
    | with_reducible apply keeps_showPower

theorem keeps_setSlotState {P : StatePart → Bool} {σ : State} (s : State) (f : FSlot) (n : Nat) (hσ : Keeps P σ s)
    (hp : covers P [.regs, .slots] := by exact hp.sub rfl) :
    Keeps P σ (State.setSlotState s f n) := by
  unfold State.setSlotState
  repeat' first
    | (with_reducible show covers P _; exact hp.sub rfl)
    | (intro (x : State); refine (fun (hx : Keeps P σ x) => ?_) ?_; (on_goal 1 => clear_value x); (on_goal 2 => dsimp only [x]))
    | (intro x; clear_value x) | lift_lets | with_reducible assumption | with_reducible apply keeps_setFld
    | with_reducible apply keeps_setSlot | split

theorem keeps_dropRdc {P : StatePart → Bool} {σ : State} (s : State) (hσ : Keeps P σ s)
    (hp : covers P [.tier] := by exact hp.sub rfl) :
    Keeps P σ (State.dropRdc s) := by
  unfold State.dropRdc
  repeat' first
    | with_reducible assumption | ((conv in (State.mk ..) => skip); with_reducible apply keeps_upd)
    | (refine UpdOk.mk ?_; intro p; cases p <;> first | (apply Or.inl; apply hp.get; rfl) | exact Or.inr rfl)

theorem keeps_cancelMoves {P : StatePart → Bool} {σ : State} (s : State) (hσ : Keeps P σ s)
    (hp : covers P [.regs, .tier] := by exact hp.sub rfl) :
    Keeps P σ (State.cancelMoves s) := by
  unfold State.cancelMoves
  repeat' first
    | (with_reducible show covers P _; exact hp.sub rfl)
    | (intro (x : State); refine (fun (hx : Keeps P σ x) => ?_) ?_; (on_goal 1 => clear_value x); (on_goal 2 => dsimp only [x]))
    | (intro x; clear_value x) | lift_lets | with_reducible assumption | with_reducible apply keeps_setFld
    | ((conv in (State.mk ..) => skip); with_reducible apply keeps_upd)
    | (refine UpdOk.mk ?_; intro p; cases p <;> first | (apply Or.inl; apply hp.get; rfl) | exact Or.inr rfl)

theorem keeps_pileRefresh {P : StatePart → Bool} {σ : State} (s : State) (n : Nat) (on : Bool) (hσ : Keeps P σ s)
    (hp : covers P [.regs, .tier] := by exact hp.sub rfl) :
    Keeps P σ (State.pileRefresh s n on) := by
  unfold State.pileRefresh
  repeat' first
    | (with_reducible show covers P _; exact hp.sub rfl)
    | (intro (x : State); refine (fun (hx : Keeps P σ x) => ?_) ?_; (on_goal 1 => clear_value x); (on_goal 2 => dsimp only [x]))
    | (intro x; clear_value x) | lift_lets | with_reducible refine keeps_ite (fun _ => ?_) (fun _ => ?_)
    | with_reducible assumption | with_reducible apply keeps_setFld
    | ((conv in (State.mk ..) => skip); with_reducible apply keeps_upd)
    | (refine UpdOk.mk ?_; intro p; cases p <;> first | (apply Or.inl; apply hp.get; rfl) | exact Or.inr rfl)

theorem keeps_enterHold {P : StatePart → Bool} {σ : State} (s : State) (hσ : Keeps P σ s)
    (hp : covers P [.regs, .tier] := by exact hp.sub rfl) :
    Keeps P σ (State.enterHold s) := by
  unfold State.enterHold
  repeat' first
    | (with_reducible show covers P _; exact hp.sub rfl)
    | (intro (x : State); refine (fun (hx : Keeps P σ x) => ?_) ?_; (on_goal 1 => clear_value x); (on_goal 2 => dsimp only [x]))
    | (intro x; clear_value x) | lift_lets | with_reducible assumption | with_reducible apply keeps_pileRefresh
    | with_reducible apply keeps_setDevState | with_reducible refine keeps_foldl (fun _ _ σ _ => ?_) ?_
    | ((conv in (State.mk ..) => skip); with_reducible apply keeps_upd)
    | (refine UpdOk.mk ?_; intro p; cases p <;> first | (apply Or.inl; apply hp.get; rfl) | exact Or.inr rfl)

theorem keeps_leaveHold {P : StatePart → Bool} {σ : State} (s : State) (hσ : Keeps P σ s)
    (hp : covers P [.regs, .tier] := by exact hp.sub rfl) :
    Keeps P σ (State.leaveHold s) := by
  unfold State.leaveHold
  repeat' first
    | (with_reducible show covers P _; exact hp.sub rfl) | with_reducible refine keeps_ite (fun _ => ?_) (fun _ => ?_)
    | with_reducible assumption | with_reducible apply keeps_pileRefresh | with_reducible apply keeps_setDevState
    | with_reducible refine keeps_foldl (fun _ _ σ _ => ?_) ?_

theorem keeps_setCtrl {P : StatePart → Bool} {σ : State} (s : State) (p : HPort) (hσ : Keeps P σ s)
    (hp : covers P [.regs, .host] := by exact hp.sub rfl) :
    Keeps P σ (State.setCtrl s p) := by
  unfold State.setCtrl
  repeat' first
    | (with_reducible show covers P _; exact hp.sub rfl)
    | (intro (x : State); refine (fun (hx : Keeps P σ x) => ?_) ?_; (on_goal 1 => clear_value x); (on_goal 2 => dsimp only [x]))
    | (intro x; clear_value x) | lift_lets | with_reducible assumption | with_reducible apply keeps_msix
    | with_reducible apply keeps_setBit | ((conv in (State.mk ..) => skip); with_reducible apply keeps_upd)
    | (refine UpdOk.mk ?_; intro p; cases p <;> first | (apply Or.inl; apply hp.get; rfl) | exact Or.inr rfl)

theorem keeps_showRoles {P : StatePart → Bool} {σ : State} (s : State) (roles : Option (List Nat)) (hσ : Keeps P σ s)
    (hp : covers P [.regs] := by exact hp.sub rfl) :
    Keeps P σ (State.showRoles s roles) := by
  unfold State.showRoles
  repeat' first
    | (with_reducible show covers P _; exact hp.sub rfl) | with_reducible assumption | with_reducible apply keeps_setFld
    | with_reducible refine keeps_foldl (fun _ _ σ _ => ?_) ?_

theorem keeps_showPresence {P : StatePart → Bool} {σ : State} (s : State) (gen : Nat) (hσ : Keeps P σ s)
    (hp : covers P [.regs] := by exact hp.sub rfl) :
    Keeps P σ (State.showPresence s gen) := by
  unfold State.showPresence
  repeat' first
    | (with_reducible show covers P _; exact hp.sub rfl) | with_reducible assumption | with_reducible apply keeps_setReg

theorem keeps_updatePresence {P : StatePart → Bool} {σ : State} (s : State) (hσ : Keeps P σ s)
    (hp : covers P [.regs] := by exact hp.sub rfl) :
    Keeps P σ (State.updatePresence s) := by
  unfold State.updatePresence
  repeat' first
    | (with_reducible show covers P _; exact hp.sub rfl) | with_reducible refine keeps_ite (fun _ => ?_) (fun _ => ?_)
    | with_reducible assumption | with_reducible apply keeps_showPresence

theorem keeps_showCaps {P : StatePart → Bool} {σ : State} (s : State) (hσ : Keeps P σ s)
    (hp : covers P [.regs] := by exact hp.sub rfl) :
    Keeps P σ (State.showCaps s) := by
  unfold State.showCaps
  repeat' first
    | (with_reducible show covers P _; exact hp.sub rfl)
    | (intro (x : State); refine (fun (hx : Keeps P σ x) => ?_) ?_; (on_goal 1 => clear_value x); (on_goal 2 => dsimp only [x]))
    | (intro x; clear_value x) | lift_lets | with_reducible refine keeps_ite (fun _ => ?_) (fun _ => ?_)
    | with_reducible assumption | with_reducible apply keeps_setReg | with_reducible refine keeps_foldl (fun _ _ σ _ => ?_) ?_

/-! ### Ports -/

theorem keeps_setPort {P : StatePart → Bool} {σ : State} (s : State) (q : Nat) (x : PortSt) (hσ : Keeps P σ s)
    (hp : covers P [.ports] := by exact hp.sub rfl) :
    Keeps P σ (State.setPort s q x) := by
  unfold State.setPort
  repeat' first
    | with_reducible assumption | ((conv in (State.mk ..) => skip); with_reducible apply keeps_upd)
    | (refine UpdOk.mk ?_; intro p; cases p <;> first | (apply Or.inl; apply hp.get; rfl) | exact Or.inr rfl)

theorem keeps_showCredit {P : StatePart → Bool} {σ : State} (s : State) (q : Nat) (hσ : Keeps P σ s)
    (hp : covers P [.regs] := by exact hp.sub rfl) :
    Keeps P σ (State.showCredit s q) := by
  unfold State.showCredit
  repeat' first
    | (with_reducible show covers P _; exact hp.sub rfl) | (intro x; clear_value x) | lift_lets | with_reducible assumption
    | with_reducible apply keeps_setReg

theorem keeps_sendKept {P : StatePart → Bool} {σ : State} (s : State) (q : Nat) (f : Frame) (hσ : Keeps P σ s)
    (hp : covers P [.ports] := by exact hp.sub rfl) :
    Keeps P σ (State.sendKept s q f) := by
  unfold State.sendKept
  repeat' first
    | (with_reducible show covers P _; exact hp.sub rfl) | (intro x; clear_value x) | lift_lets | with_reducible assumption
    | with_reducible apply keeps_emit | with_reducible apply keeps_setPort

theorem keeps_trySend {P : StatePart → Bool} {σ : State} (s : State) (q : Nat) (f : Frame) (hσ : Keeps P σ s)
    (hp : covers P [.regs, .ports] := by exact hp.sub rfl) :
    KeepsSome P σ (State.trySend s q f) := by
  unfold State.trySend
  repeat' first
    | (with_reducible show covers P _; exact hp.sub rfl) | (intro x; clear_value x) | lift_lets | with_reducible assumption
    | with_reducible apply keeps_sendKept | with_reducible apply keeps_setPort | with_reducible apply keeps_showCredit
    | with_reducible apply keepsSome_none | with_reducible apply keepsSome_some | with_reducible apply keepsSome_ite

theorem keeps_owe {P : StatePart → Bool} {σ : State} (s : State) (q vl n : Nat) (hσ : Keeps P σ s)
    (hp : covers P [.ports] := by exact hp.sub rfl) :
    Keeps P σ (State.owe s q vl n) := by
  unfold State.owe
  repeat' first
    | (with_reducible show covers P _; exact hp.sub rfl) | (intro x; clear_value x) | lift_lets
    | with_reducible refine keeps_ite (fun _ => ?_) (fun _ => ?_) | with_reducible assumption | with_reducible apply keeps_setPort

theorem keeps_flushWait {P : StatePart → Bool} {σ : State} (s : State) (q : Nat) (p0 : Nat) (hσ : Keeps P σ s)
    (hp : covers P [.regs, .ports] := by exact hp.sub rfl) :
    Keeps P σ (State.flushWait s q p0) := by
  induction p0 generalizing s with
  | zero => exact hσ
  | succ n ih =>
    unfold State.flushWait
    split
    · exact hσ
    · split
      · exact hσ
      · rename_i h
        refine ih _ ?_
        have h1 := keeps_of_some (keeps_trySend _ _ _ hσ) h
        exact keeps_ite (fun _ => keeps_setPort _ _ _ h1) (fun _ => keeps_owe _ _ _ _ (keeps_setPort _ _ _ h1))

theorem keeps_sendOrWait {P : StatePart → Bool} {σ : State} (s : State) (q ingress : Nat) (f : Frame) (hσ : Keeps P σ s)
    (hp : covers P [.regs, .ports] := by exact hp.sub rfl) :
    Keeps P σ (State.sendOrWait s q ingress f) := by
  unfold State.sendOrWait
  split
  · rename_i x h
    split at h
    · have hx := keeps_of_some (keeps_trySend _ _ _ hσ) h
      exact keeps_ite (fun _ => hx) (fun _ => keeps_owe _ _ _ _ hx)
    · cases h
  · exact keeps_setPort _ _ _ hσ

theorem keeps_beginTraining {P : StatePart → Bool} {σ : State} (s : State) (q st : Nat) (hσ : Keeps P σ s)
    (hp : covers P [.regs, .ports] := by exact hp.sub rfl) :
    Keeps P σ (State.beginTraining s q st) := by
  unfold State.beginTraining
  repeat' first
    | (with_reducible show covers P _; exact hp.sub rfl)
    | (intro (x : State); refine (fun (hx : Keeps P σ x) => ?_) ?_; (on_goal 1 => clear_value x); (on_goal 2 => dsimp only [x]))
    | (intro x; clear_value x) | lift_lets | with_reducible assumption | with_reducible apply keeps_emit
    | with_reducible apply keeps_setBit | with_reducible apply keeps_setFld | with_reducible apply keeps_setPort
    | with_reducible apply keeps_showCredit

theorem keeps_portOut {P : StatePart → Bool} {σ : State} (s : State) (q st : Nat) (hσ : Keeps P σ s)
    (hp : covers P [.regs, .ports] := by exact hp.sub rfl) :
    Keeps P σ (State.portOut s q st) := by
  unfold State.portOut
  repeat' first
    | (with_reducible show covers P _; exact hp.sub rfl)
    | (intro (x : State); refine (fun (hx : Keeps P σ x) => ?_) ?_; (on_goal 1 => clear_value x); (on_goal 2 => dsimp only [x]))
    | (intro x; clear_value x) | lift_lets | with_reducible assumption | with_reducible apply keeps_setBit
    | with_reducible apply keeps_setFld | with_reducible apply keeps_setPort | with_reducible apply keeps_showCredit

theorem keeps_trainAll {P : StatePart → Bool} {σ : State} (s : State) (hσ : Keeps P σ s)
    (hp : covers P [.regs, .ports] := by exact hp.sub rfl) :
    Keeps P σ (State.trainAll s) := by
  unfold State.trainAll
  repeat' first
    | (with_reducible show covers P _; exact hp.sub rfl) | with_reducible refine keeps_ite (fun _ => ?_) (fun _ => ?_)
    | with_reducible assumption | with_reducible apply keeps_beginTraining
    | with_reducible refine keeps_foldl (fun _ _ σ _ => ?_) ?_

/-! ### Routes -/

theorem keeps_numbered {P : StatePart → Bool} {σ : State} (s : State) (key : Nat) (f : Frame) (hσ : Keeps P σ s)
    (hp : covers P [.casc] := by exact hp.sub rfl) :
    Keeps P σ (State.numbered s key f).2 := by
  unfold State.numbered
  repeat' first
    | (intro x; clear_value x) | lift_lets | with_reducible assumption
    | ((conv in (State.mk ..) => skip); with_reducible apply keeps_upd)
    | (refine UpdOk.mk ?_; intro p; cases p <;> first | (apply Or.inl; apply hp.get; rfl) | exact Or.inr rfl)

theorem keeps_launch {P : StatePart → Bool} {σ : State} (s : State) (role : Nat) (wait : Bool) (ingress : Nat) (f : Frame) (hσ : Keeps P σ s)
    (hp : covers P [.regs, .ports, .casc] := by exact hp.sub rfl) :
    KeepsSome P σ (State.launch s role wait ingress f) := by
  unfold State.launch
  refine keepsSome_ite (keepsSome_none _) ?_
  dsimp only
  have hs := keeps_numbered s (orderKey role 0 f.vl) f hσ
  generalize s.numbered (orderKey role 0 f.vl) f = x at hs ⊢
  split
  · rename_i y h
    obtain ⟨q, _, hq⟩ := List.exists_of_findSome?_eq_some h
    split at hq
    · exact keepsSome_some (keeps_of_some (keeps_trySend _ _ _ hs) hq)
    · cases hq
  · refine keepsSome_ite (keepsSome_none _) ?_
    split
    · exact keepsSome_some (keeps_setPort _ _ _ hs)
    · exact keepsSome_none _

theorem keeps_dropAt {P : StatePart → Bool} {σ : State} (s : State) (ingress : Nat) (f : Frame) (hσ : Keeps P σ s)
    (hp : covers P [.ports] := by exact hp.sub rfl) :
    Keeps P σ (State.dropAt s ingress f) := by
  unfold State.dropAt
  repeat' first
    | (with_reducible show covers P _; exact hp.sub rfl) | with_reducible refine keeps_ite (fun _ => ?_) (fun _ => ?_)
    | with_reducible assumption | with_reducible apply keeps_owe

theorem keeps_sendControl {P : StatePart → Bool} {σ : State} (s : State) (f : Frame) (ingress : Nat) (hσ : Keeps P σ s)
    (hp : covers P [.regs, .ports, .casc] := by exact hp.sub rfl) :
    Keeps P σ (State.sendControl s f ingress) := by
  unfold State.sendControl
  repeat' first
    | (with_reducible show covers P _; exact hp.sub rfl) | (intro x; clear_value x) | lift_lets | with_reducible assumption
    | with_reducible apply keeps_dropAt | with_reducible apply keeps_launch | with_reducible apply keeps_getD | split

theorem keeps_controlTo {P : StatePart → Bool} {σ : State} (s : State) (c : Coord) (m : CtlMsg) (hσ : Keeps P σ s)
    (hp : covers P [.regs, .ports, .casc] := by exact hp.sub rfl) :
    Keeps P σ (State.controlTo s c m) := by
  unfold State.controlTo
  repeat' first
    | (with_reducible show covers P _; exact hp.sub rfl) | with_reducible refine keeps_ite (fun _ => ?_) (fun _ => ?_)
    | with_reducible assumption | with_reducible apply keeps_sendControl

theorem keeps_controlUp {P : StatePart → Bool} {σ : State} (s : State) (m : CtlMsg) (hσ : Keeps P σ s)
    (hp : covers P [.regs, .ports, .casc] := by exact hp.sub rfl) :
    Keeps P σ (State.controlUp s m) := by
  unfold State.controlUp
  repeat' first
    | (with_reducible show covers P _; exact hp.sub rfl)
    | (intro (x : State); refine (fun (hx : Keeps P σ x) => ?_) ?_; (on_goal 1 => clear_value x); (on_goal 2 => dsimp only [x]))
    | lift_lets | with_reducible refine keeps_ite (fun _ => ?_) (fun _ => ?_) | with_reducible assumption
    | with_reducible apply keeps_controlTo | split

theorem keeps_spreadFrom {P : StatePart → Bool} {σ : State} (s : State) (me : Coord) (m : CtlMsg) (hσ : Keeps P σ s)
    (hp : covers P [.regs, .ports, .casc] := by exact hp.sub rfl) :
    Keeps P σ (State.spreadFrom s me m) := by
  unfold State.spreadFrom
  repeat' first
    | (with_reducible show covers P _; exact hp.sub rfl) | (intro x; clear_value x) | lift_lets | with_reducible assumption
    | with_reducible apply keeps_sendControl | with_reducible refine keeps_foldl (fun _ _ σ _ => ?_) ?_ | split

theorem keeps_spread {P : StatePart → Bool} {σ : State} (s : State) (m : CtlMsg) (hσ : Keeps P σ s)
    (hp : covers P [.regs, .ports, .casc] := by exact hp.sub rfl) :
    Keeps P σ (State.spread s m) := by
  unfold State.spread
  repeat' first
    | (with_reducible show covers P _; exact hp.sub rfl) | with_reducible assumption | with_reducible apply keeps_spreadFrom

theorem keeps_sendTwin {P : StatePart → Bool} {σ : State} (s : State) (m : MirrorFrame) (hσ : Keeps P σ s)
    (hp : covers P [.regs, .ports, .casc] := by exact hp.sub rfl) :
    Keeps P σ (State.sendTwin s m) := by
  unfold State.sendTwin
  repeat' first
    | (with_reducible show covers P _; exact hp.sub rfl) | (intro x; clear_value x) | lift_lets | with_reducible assumption
    | with_reducible apply keeps_launch | with_reducible refine keeps_foldl (fun _ _ σ _ => ?_) ?_
    | with_reducible apply keeps_getD | split

theorem keeps_askTwin {P : StatePart → Bool} {σ : State} (s : State) (tensor : Nat) (off : Option Nat) (hσ : Keeps P σ s)
    (hp : covers P [.regs, .ports, .casc] := by exact hp.sub rfl) :
    Keeps P σ (State.askTwin s tensor off) := by
  unfold State.askTwin
  repeat' first
    | (with_reducible show covers P _; exact hp.sub rfl) | with_reducible assumption | with_reducible apply keeps_launch
    | with_reducible apply keeps_getD | split

theorem keeps_askSource {P : StatePart → Bool} {σ : State} (s : State) (q : Nat) (request : Bytes) (hσ : Keeps P σ s)
    (hp : covers P [.regs, .ports, .casc] := by exact hp.sub rfl) :
    Keeps P σ (State.askSource s q request) := by
  unfold State.askSource
  repeat' first
    | (with_reducible show covers P _; exact hp.sub rfl)
    | (intro (x : _ × State); refine (fun (hx : Keeps P σ x.2) => ?_) ?_; (on_goal 1 => clear_value x); (on_goal 2 => dsimp only [x]))
    | lift_lets | with_reducible refine keeps_ite (fun _ => ?_) (fun _ => ?_) | with_reducible assumption
    | with_reducible apply keeps_numbered | with_reducible apply keeps_sendOrWait

/-! ### Serrin -/

theorem keeps_setMod {P : StatePart → Bool} {σ : State} (s : State) (hub n : Nat) (m : ModSt) (hσ : Keeps P σ s)
    (hp : covers P [.mods] := by exact hp.sub rfl) :
    Keeps P σ (State.setMod s hub n m) := by
  unfold State.setMod
  repeat' first
    | with_reducible assumption | ((conv in (State.mk ..) => skip); with_reducible apply keeps_upd)
    | (refine UpdOk.mk ?_; intro p; cases p <;> first | (apply Or.inl; apply hp.get; rfl) | exact Or.inr rfl)

theorem keeps_setShared {P : StatePart → Bool} {σ : State} (s : State) (hub n : Nat) (m : ModSt) (hσ : Keeps P σ s)
    (hp : covers P [.mods] := by exact hp.sub rfl) :
    Keeps P σ (State.setShared s hub n m) := by
  unfold State.setShared
  repeat' first
    | (with_reducible show covers P _; exact hp.sub rfl) | with_reducible assumption | with_reducible apply keeps_setMod

theorem keeps_showModules {P : StatePart → Bool} {σ : State} (s : State) (hub : Nat) (hσ : Keeps P σ s)
    (hp : covers P [.regs] := by exact hp.sub rfl) :
    Keeps P σ (State.showModules s hub) := by
  unfold State.showModules
  repeat' first
    | (with_reducible show covers P _; exact hp.sub rfl)
    | (intro (x : State); refine (fun (hx : Keeps P σ x) => ?_) ?_; (on_goal 1 => clear_value x); (on_goal 2 => dsimp only [x]))
    | lift_lets | with_reducible assumption | with_reducible apply keeps_setBit | with_reducible apply keeps_setFld

theorem keeps_setModState {P : StatePart → Bool} {σ : State} (s : State) (hub n st : Nat) (hσ : Keeps P σ s)
    (hp : covers P [.regs] := by exact hp.sub rfl) :
    Keeps P σ (State.setModState s hub n st) := by
  unfold State.setModState
  repeat' first
    | (with_reducible show covers P _; exact hp.sub rfl) | with_reducible assumption | with_reducible apply keeps_setFld
    | with_reducible apply keeps_showModules | with_reducible refine keeps_foldl (fun _ _ σ _ => ?_) ?_

theorem keeps_degrade {P : StatePart → Bool} {σ : State} (s : State) (hub n : Nat) (hσ : Keeps P σ s)
    (hp : covers P [.regs, .mods] := by exact hp.sub rfl) :
    Keeps P σ (State.degrade s hub n) := by
  unfold State.degrade
  repeat' first
    | (with_reducible show covers P _; exact hp.sub rfl)
    | (intro (x : State); refine (fun (hx : Keeps P σ x) => ?_) ?_; (on_goal 1 => clear_value x); (on_goal 2 => dsimp only [x]))
    | (intro x; clear_value x) | lift_lets | with_reducible refine keeps_ite (fun _ => ?_) (fun _ => ?_)
    | with_reducible assumption | with_reducible apply keeps_setBit | with_reducible apply keeps_setShared
    | with_reducible refine keeps_foldl (fun _ _ σ _ => ?_) ?_

theorem keeps_connCheck {P : StatePart → Bool} {σ : State} (s : State) (hub n : Nat) (hσ : Keeps P σ s)
    (hp : covers P [.regs, .beat, .test] := by exact hp.sub rfl) :
    Keeps P σ (State.connCheck s hub n) := by
  unfold State.connCheck
  repeat' first
    | (with_reducible show covers P _; exact hp.sub rfl) | with_reducible refine keeps_ite (fun _ => ?_) (fun _ => ?_)
    | with_reducible assumption | with_reducible apply keeps_lose

theorem keeps_fenceModule {P : StatePart → Bool} {σ : State} (s : State) (hub n code cls : Nat) (hσ : Keeps P σ s)
    (hp : covers P [.regs, .beat, .mods, .test] := by exact hp.sub rfl) :
    Keeps P σ (State.fenceModule s hub n code cls) := by
  unfold State.fenceModule
  repeat' first
    | (with_reducible show covers P _; exact hp.sub rfl)
    | (intro (x : State); refine (fun (hx : Keeps P σ x) => ?_) ?_; (on_goal 1 => clear_value x); (on_goal 2 => dsimp only [x]))
    | (intro x; clear_value x) | lift_lets | with_reducible assumption | with_reducible apply keeps_connCheck
    | with_reducible apply keeps_degrade | with_reducible apply keeps_logEntry | with_reducible apply keeps_setModState
    | with_reducible apply keeps_setShared

theorem keeps_removeModule {P : StatePart → Bool} {σ : State} (s : State) (hub n : Nat) (hσ : Keeps P σ s)
    (hp : covers P [.regs, .mods] := by exact hp.sub rfl) :
    Keeps P σ (State.removeModule s hub n) := by
  unfold State.removeModule
  repeat' first
    | (with_reducible show covers P _; exact hp.sub rfl) | with_reducible refine keeps_ite (fun _ => ?_) (fun _ => ?_)
    | with_reducible assumption | with_reducible apply keeps_emit | with_reducible apply keeps_setModState
    | with_reducible apply keeps_setShared

theorem keeps_returnModule {P : StatePart → Bool} {σ : State} (s : State) (hub n : Nat) (hσ : Keeps P σ s)
    (hp : covers P [.regs, .mods] := by exact hp.sub rfl) :
    Keeps P σ (State.returnModule s hub n) := by
  unfold State.returnModule
  repeat' first
    | (with_reducible show covers P _; exact hp.sub rfl)
    | (intro (x : State); refine (fun (hx : Keeps P σ x) => ?_) ?_; (on_goal 1 => clear_value x); (on_goal 2 => dsimp only [x]))
    | (intro x; clear_value x) | lift_lets | with_reducible refine keeps_ite (fun _ => ?_) (fun _ => ?_)
    | with_reducible assumption | with_reducible apply keeps_setMod | with_reducible apply keeps_setModState
    | with_reducible apply keeps_setShared | with_reducible refine keeps_foldl (fun _ _ σ _ => ?_) ?_

theorem keeps_gapModules {P : StatePart → Bool} {σ : State} (s : State) (hσ : Keeps P σ s)
    (hp : covers P [.regs, .mods] := by exact hp.sub rfl) :
    Keeps P σ (State.gapModules s) := by
  unfold State.gapModules
  repeat' first
    | (with_reducible show covers P _; exact hp.sub rfl)
    | (intro (x : State); refine (fun (hx : Keeps P σ x) => ?_) ?_; (on_goal 1 => clear_value x); (on_goal 2 => dsimp only [x]))
    | (intro x; clear_value x) | lift_lets | with_reducible assumption | with_reducible apply keeps_removeModule
    | with_reducible apply keeps_returnModule | with_reducible refine keeps_foldl (fun _ _ σ _ => ?_) ?_

theorem keeps_clearCrc {P : StatePart → Bool} {σ : State} (s : State) (hσ : Keeps P σ s)
    (hp : covers P [.mods] := by exact hp.sub rfl) :
    Keeps P σ (State.clearCrc s) := by
  unfold State.clearCrc
  repeat' first
    | with_reducible assumption | ((conv in (State.mk ..) => skip); with_reducible apply keeps_upd)
    | (refine UpdOk.mk ?_; intro p; cases p <;> first | (apply Or.inl; apply hp.get; rfl) | exact Or.inr rfl)

theorem keeps_modulesNow {P : StatePart → Bool} {σ : State} (s : State) (hσ : Keeps P σ s)
    (hp : covers P [.regs, .mods] := by exact hp.sub rfl) :
    Keeps P σ (State.modulesNow s) := by
  unfold State.modulesNow
  repeat' first
    | (with_reducible show covers P _; exact hp.sub rfl) | with_reducible refine keeps_ite (fun _ => ?_) (fun _ => ?_)
    | with_reducible assumption | with_reducible apply keeps_gapModules

theorem keeps_putLanes {P : StatePart → Bool} {σ : State} (s : State) (hub n half upper : Nat) (mapped : List (Nat × Nat)) (fresh : List Nat) (hσ : Keeps P σ s)
    (hp : covers P [.regs, .beat, .mods] := by exact hp.sub rfl) :
    Keeps P σ (State.putLanes s hub n half upper mapped fresh) := by
  unfold State.putLanes
  repeat' first
    | (with_reducible show covers P _; exact hp.sub rfl)
    | (intro (x : State); refine (fun (hx : Keeps P σ x) => ?_) ?_; (on_goal 1 => clear_value x); (on_goal 2 => dsimp only [x]))
    | (intro x; clear_value x) | lift_lets | with_reducible refine keeps_ite (fun _ => ?_) (fun _ => ?_)
    | with_reducible assumption | with_reducible apply keeps_degrade | with_reducible apply keeps_logEntry
    | with_reducible apply keeps_setFld | with_reducible apply keeps_setShared
    | with_reducible refine keeps_foldl (fun _ _ σ _ => ?_) ?_ | split

theorem keeps_applyLanes {P : StatePart → Bool} {σ : State} (s : State) (hub n : Nat) (fix : LaneFix) (hσ : Keeps P σ s)
    (hp : covers P [.regs, .beat, .mods] := by exact hp.sub rfl) :
    KeepsSome P σ (State.applyLanes s hub n fix) := by
  unfold State.applyLanes
  split
  · exact keepsSome_some (keeps_putLanes _ _ _ _ _ _ _ hσ)
  · exact keepsSome_some (keeps_putLanes _ _ _ _ _ _ _ hσ)
  · exact keepsSome_none _

/-! ### Address -/

theorem keeps_coreWrite {P : StatePart → Bool} {σ : State} (s : State) (l off : Nat) (p0 : Bytes) (hσ : Keeps P σ s)
    (hp : covers P [.memory] := by exact hp.sub rfl) :
    Keeps P σ (State.coreWrite s l off p0) := by
  induction p0 generalizing s off with
  | nil => exact hσ
  | cons b bs ih =>
    refine ih _ _ ?_
    split
    · exact keeps_poke hσ _ _
    · exact hσ

/-! ### Fence -/

theorem keeps_mapCore {P : StatePart → Bool} {σ : State} (s : State) (l p how : Nat) (hσ : Keeps P σ s)
    (hp : covers P [.regs] := by exact hp.sub rfl) :
    Keeps P σ (State.mapCore s l p how) := by
  unfold State.mapCore
  repeat' first
    | (with_reducible show covers P _; exact hp.sub rfl) | with_reducible assumption | with_reducible apply keeps_setReg

theorem keeps_setCore {P : StatePart → Bool} {σ : State} (s : State) (p st log : Nat) (hσ : Keeps P σ s)
    (hp : covers P [.regs] := by exact hp.sub rfl) :
    Keeps P σ (State.setCore s p st log) := by
  unfold State.setCore
  repeat' first
    | (with_reducible show covers P _; exact hp.sub rfl) | with_reducible assumption | with_reducible apply keeps_setFld

theorem keeps_setWga {P : StatePart → Bool} {σ : State} (s : State) (w : WgaTile) (hσ : Keeps P σ s)
    (hp : covers P [.cores] := by exact hp.sub rfl) :
    Keeps P σ (State.setWga s w) := by
  unfold State.setWga
  repeat' first
    | with_reducible assumption | ((conv in (State.mk ..) => skip); with_reducible apply keeps_upd)
    | (refine UpdOk.mk ?_; intro p; cases p <;> first | (apply Or.inl; apply hp.get; rfl) | exact Or.inr rfl)

theorem keeps_showWga {P : StatePart → Bool} {σ : State} (s : State) (l : Nat) (hσ : Keeps P σ s)
    (hp : covers P [.regs] := by exact hp.sub rfl) :
    Keeps P σ (State.showWga s l) := by
  unfold State.showWga
  repeat' first
    | (with_reducible show covers P _; exact hp.sub rfl)
    | (intro (x : State); refine (fun (hx : Keeps P σ x) => ?_) ?_; (on_goal 1 => clear_value x); (on_goal 2 => dsimp only [x]))
    | (intro x; clear_value x) | lift_lets | with_reducible refine keeps_ite (fun _ => ?_) (fun _ => ?_)
    | with_reducible assumption | with_reducible apply keeps_setFld | with_reducible apply keeps_setReg

theorem keeps_wgaMoved {P : StatePart → Bool} {σ : State} (s : State) (l : Nat) (hσ : Keeps P σ s)
    (hp : covers P [.regs, .cores] := by exact hp.sub rfl) :
    Keeps P σ (State.wgaMoved s l) := by
  unfold State.wgaMoved
  repeat' first
    | (with_reducible show covers P _; exact hp.sub rfl) | with_reducible assumption | with_reducible apply keeps_showWga
    | ((conv in (State.mk ..) => skip); with_reducible apply keeps_upd)
    | (refine UpdOk.mk ?_; intro p; cases p <;> first | (apply Or.inl; apply hp.get; rfl) | exact Or.inr rfl)

theorem keeps_loadProgram {P : StatePart → Bool} {σ : State} (s : State) (l : Nat) (hσ : Keeps P σ s)
    (hp : covers P [.regs, .memory] := by exact hp.sub rfl) :
    Keeps P σ (State.loadProgram s l) := by
  unfold State.loadProgram
  repeat' first
    | (with_reducible show covers P _; exact hp.sub rfl) | with_reducible assumption | with_reducible apply keeps_coreWrite
    | with_reducible apply keeps_showWga | split

theorem keeps_loadMoved {P : StatePart → Bool} {σ : State} (s : State) (beat : Nat) (hσ : Keeps P σ s)
    (hp : covers P [.regs, .memory] := by exact hp.sub rfl) :
    Keeps P σ (State.loadMoved s beat) := by
  unfold State.loadMoved
  repeat' first
    | (with_reducible show covers P _; exact hp.sub rfl) | with_reducible assumption | with_reducible apply keeps_loadProgram
    | with_reducible refine keeps_foldl (fun _ _ σ _ => ?_) ?_

theorem keeps_merge {P : StatePart → Bool} {σ : State} (s : State) (u v : UnitId) (hσ : Keeps P σ s)
    (hp : covers P [.test] := by exact hp.sub rfl) :
    Keeps P σ (State.merge s u v) := by
  unfold State.merge
  repeat' first
    | with_reducible assumption | ((conv in (State.mk ..) => skip); with_reducible apply keeps_upd)
    | (refine UpdOk.mk ?_; intro p; cases p <;> first | (apply Or.inl; apply hp.get; rfl) | exact Or.inr rfl)

theorem keeps_unmerge {P : StatePart → Bool} {σ : State} (s : State) (u : UnitId) (hσ : Keeps P σ s)
    (hp : covers P [.test] := by exact hp.sub rfl) :
    Keeps P σ (State.unmerge s u) := by
  unfold State.unmerge
  repeat' first
    | with_reducible assumption | ((conv in (State.mk ..) => skip); with_reducible apply keeps_upd)
    | (refine UpdOk.mk ?_; intro p; cases p <;> first | (apply Or.inl; apply hp.get; rfl) | exact Or.inr rfl)

theorem keeps_fenceUnit {P : StatePart → Bool} {σ : State} (s : State) (u : UnitId) (hσ : Keeps P σ s)
    (hp : covers P [.regs, .units] := by exact hp.sub rfl) :
    Keeps P σ (State.fenceUnit s u) := by
  unfold State.fenceUnit
  repeat' first
    | (with_reducible show covers P _; exact hp.sub rfl) | with_reducible assumption | with_reducible apply keeps_setPower
    | with_reducible apply keeps_setUnit

theorem keeps_lossFence {P : StatePart → Bool} {σ : State} (s : State) (code : Nat) (u : UnitCode) (hσ : Keeps P σ s)
    (hp : covers P [.regs, .beat, .test] := by exact hp.sub rfl) :
    Keeps P σ (State.lossFence s code u) := by
  unfold State.lossFence
  repeat' first
    | (with_reducible show covers P _; exact hp.sub rfl) | with_reducible assumption | with_reducible apply keeps_lose

theorem keeps_showGuests {P : StatePart → Bool} {σ : State} (s : State) (hσ : Keeps P σ s)
    (hp : covers P [.regs] := by exact hp.sub rfl) :
    Keeps P σ (State.showGuests s) := by
  unfold State.showGuests
  repeat' first
    | (with_reducible show covers P _; exact hp.sub rfl)
    | (intro (x : State); refine (fun (hx : Keeps P σ x) => ?_) ?_; (on_goal 1 => clear_value x); (on_goal 2 => dsimp only [x]))
    | (intro x; clear_value x) | lift_lets | with_reducible refine keeps_ite (fun _ => ?_) (fun _ => ?_)
    | with_reducible assumption | with_reducible apply keeps_setBit | with_reducible apply keeps_setDevState

theorem keeps_coreOut {P : StatePart → Bool} {σ : State} (s : State) (p : Nat) (hσ : Keeps P σ s)
    (hp : covers P [.regs] := by exact hp.sub rfl) :
    Keeps P σ (State.coreOut s p) := by
  unfold State.coreOut
  repeat' first
    | (with_reducible show covers P _; exact hp.sub rfl) | with_reducible assumption | with_reducible apply keeps_setCore
    | with_reducible apply keeps_setFld

theorem keeps_substitute {P : StatePart → Bool} {σ : State} (s : State) (l p : Nat) (hσ : Keeps P σ s)
    (hp : covers P [.regs, .beat, .cores] := by exact hp.sub rfl) :
    Keeps P σ (State.substitute s l p) := by
  unfold State.substitute
  repeat' first
    | (with_reducible show covers P _; exact hp.sub rfl)
    | (intro (x : State); refine (fun (hx : Keeps P σ x) => ?_) ?_; (on_goal 1 => clear_value x); (on_goal 2 => dsimp only [x]))
    | (intro x; clear_value x) | lift_lets | with_reducible assumption | with_reducible apply keeps_logEntry
    | with_reducible apply keeps_mapCore | with_reducible apply keeps_setCore | with_reducible apply keeps_setFld
    | with_reducible apply keeps_wgaMoved

theorem keeps_loseCore {P : StatePart → Bool} {σ : State} (s : State) (ls : List Nat) (uc : UnitCode) (hσ : Keeps P σ s)
    (hp : covers P [.regs, .beat, .test] := by exact hp.sub rfl) :
    Keeps P σ (State.loseCore s ls uc) := by
  unfold State.loseCore
  repeat' first
    | (with_reducible show covers P _; exact hp.sub rfl) | with_reducible refine keeps_ite (fun _ => ?_) (fun _ => ?_)
    | with_reducible assumption | with_reducible apply keeps_lossFence | with_reducible apply keeps_setReg
    | with_reducible refine keeps_foldl (fun _ _ σ _ => ?_) ?_

theorem keeps_makeGuest {P : StatePart → Bool} {σ : State} (s : State) (l p : Nat) (hσ : Keeps P σ s)
    (hp : covers P [.regs, .beat, .cores, .test] := by exact hp.sub rfl) :
    Keeps P σ (State.makeGuest s l p) := by
  unfold State.makeGuest
  repeat' first
    | (with_reducible show covers P _; exact hp.sub rfl)
    | (intro (x : State); refine (fun (hx : Keeps P σ x) => ?_) ?_; (on_goal 1 => clear_value x); (on_goal 2 => dsimp only [x]))
    | (intro x; clear_value x) | lift_lets | with_reducible refine keeps_ite (fun _ => ?_) (fun _ => ?_)
    | with_reducible assumption | with_reducible apply keeps_logEntry | with_reducible apply keeps_loseCore
    | with_reducible apply keeps_mapCore | with_reducible apply keeps_merge | with_reducible apply keeps_setBit
    | with_reducible apply keeps_setFld | with_reducible apply keeps_showGuests | with_reducible apply keeps_wgaMoved
    | with_reducible refine keeps_foldl (fun _ _ σ _ => ?_) ?_ | split

theorem keeps_uncover {P : StatePart → Bool} {σ : State} (s : State) (d : Nat) (hσ : Keeps P σ s)
    (hp : covers P [.regs, .cores, .test] := by exact hp.sub rfl) :
    Keeps P σ (State.uncover s d) := by
  unfold State.uncover
  repeat' first
    | (with_reducible show covers P _; exact hp.sub rfl)
    | (intro (x : State); refine (fun (hx : Keeps P σ x) => ?_) ?_; (on_goal 1 => clear_value x); (on_goal 2 => dsimp only [x]))
    | (intro x; clear_value x) | lift_lets | with_reducible refine keeps_ite (fun _ => ?_) (fun _ => ?_)
    | with_reducible assumption | with_reducible apply keeps_mapCore | with_reducible apply keeps_setCore
    | with_reducible apply keeps_setFld | with_reducible apply keeps_wgaMoved | split
    | ((conv in (State.mk ..) => skip); with_reducible apply keeps_upd)
    | (refine UpdOk.mk ?_; intro p; cases p <;> first | (apply Or.inl; apply hp.get; rfl) | exact Or.inr rfl)

theorem keeps_fenceCore {P : StatePart → Bool} {σ : State} (s : State) (p : Nat) (hσ : Keeps P σ s)
    (hp : covers P [.regs, .beat, .cores, .test] := by exact hp.sub rfl) :
    Keeps P σ (State.fenceCore s p) := by
  unfold State.fenceCore
  repeat' first
    | (with_reducible show covers P _; exact hp.sub rfl)
    | (intro (x : State); refine (fun (hx : Keeps P σ x) => ?_) ?_; (on_goal 1 => clear_value x); (on_goal 2 => dsimp only [x]))
    | (intro x; clear_value x) | lift_lets | with_reducible refine keeps_ite (fun _ => ?_) (fun _ => ?_)
    | with_reducible assumption | with_reducible apply keeps_coreOut | with_reducible apply keeps_logEntry
    | with_reducible apply keeps_loseCore | with_reducible apply keeps_makeGuest | with_reducible apply keeps_mapCore
    | with_reducible apply keeps_setFld | with_reducible apply keeps_substitute | with_reducible apply keeps_uncover
    | ((conv in (State.mk ..) => skip); with_reducible apply keeps_upd)
    | (refine UpdOk.mk ?_; intro p; cases p <;> first | (apply Or.inl; apply hp.get; rfl) | exact Or.inr rfl)

theorem keeps_fenceMerging {P : StatePart → Bool} {σ : State} (s : State) (u : UnitId) (uc : UnitCode) (fn lost : Nat) (hσ : Keeps P σ s)
    (hp : covers P [.regs, .beat, .units, .test] := by exact hp.sub rfl) :
    Keeps P σ (State.fenceMerging s u uc fn lost) := by
  unfold State.fenceMerging
  repeat' first
    | (with_reducible show covers P _; exact hp.sub rfl)
    | (intro (x : State); refine (fun (hx : Keeps P σ x) => ?_) ?_; (on_goal 1 => clear_value x); (on_goal 2 => dsimp only [x]))
    | lift_lets | with_reducible refine keeps_ite (fun _ => ?_) (fun _ => ?_) | with_reducible assumption
    | with_reducible apply keeps_fenceUnit | with_reducible apply keeps_logEntry | with_reducible apply keeps_lossFence
    | with_reducible apply keeps_merge | split

theorem keeps_fenceDie {P : StatePart → Bool} {σ : State} (s : State) (hub d : Nat) (uc : UnitCode) (hσ : Keeps P σ s)
    (hp : covers P [.regs, .beat, .test] := by exact hp.sub rfl) :
    Keeps P σ (State.fenceDie s hub d uc) := by
  unfold State.fenceDie
  repeat' first
    | (with_reducible show covers P _; exact hp.sub rfl) | with_reducible assumption | with_reducible apply keeps_lossFence
    | with_reducible apply keeps_setBit | with_reducible apply keeps_showCaps

theorem keeps_losePile {P : StatePart → Bool} {σ : State} (s : State) (n : Nat) (hσ : Keeps P σ s)
    (hp : covers P [.regs, .beat, .test] := by exact hp.sub rfl) :
    Keeps P σ (State.losePile s n) := by
  unfold State.losePile
  repeat' first
    | (with_reducible show covers P _; exact hp.sub rfl)
    | (intro (x : State); refine (fun (hx : Keeps P σ x) => ?_) ?_; (on_goal 1 => clear_value x); (on_goal 2 => dsimp only [x]))
    | lift_lets | with_reducible assumption | with_reducible apply keeps_lossFence | with_reducible apply keeps_setBit
    | with_reducible apply keeps_setFld | with_reducible apply keeps_showCaps

theorem keeps_retireDie {P : StatePart → Bool} {σ : State} (s : State) (n die : Nat) (hσ : Keeps P σ s)
    (hp : covers P [.regs, .beat] := by exact hp.sub rfl) :
    Keeps P σ (State.retireDie s n die) := by
  unfold State.retireDie
  repeat' first
    | (with_reducible show covers P _; exact hp.sub rfl)
    | (intro (x : State); refine (fun (hx : Keeps P σ x) => ?_) ?_; (on_goal 1 => clear_value x); (on_goal 2 => dsimp only [x]))
    | lift_lets | with_reducible refine keeps_ite (fun _ => ?_) (fun _ => ?_) | with_reducible assumption
    | with_reducible apply keeps_logEntry | with_reducible apply keeps_setBit | with_reducible apply keeps_setFld

theorem keeps_dieCoresOut {P : StatePart → Bool} {σ : State} (s : State) (k : Nat) (hσ : Keeps P σ s)
    (hp : covers P [.regs] := by exact hp.sub rfl) :
    Keeps P σ (State.dieCoresOut s k) := by
  unfold State.dieCoresOut
  repeat' first
    | (with_reducible show covers P _; exact hp.sub rfl)
    | (intro (x : State); refine (fun (hx : Keeps P σ x) => ?_) ?_; (on_goal 1 => clear_value x); (on_goal 2 => dsimp only [x]))
    | lift_lets | with_reducible assumption | with_reducible apply keeps_setCore | with_reducible apply keeps_setReg
    | with_reducible refine keeps_foldl (fun _ _ σ _ => ?_) ?_

theorem keeps_giveBack {P : StatePart → Bool} {σ : State} (s : State) (lane : Nat) (hσ : Keeps P σ s)
    (hp : covers P [.forager] := by exact hp.sub rfl) :
    Keeps P σ (State.giveBack s lane) := by
  unfold State.giveBack
  repeat' first
    | (intro x; clear_value x) | lift_lets | with_reducible assumption
    | ((conv in (State.mk ..) => skip); with_reducible apply keeps_upd)
    | (refine UpdOk.mk ?_; intro p; cases p <;> first | (apply Or.inl; apply hp.get; rfl) | exact Or.inr rfl)

theorem keeps_fenceLane {P : StatePart → Bool} {σ : State} (s : State) (uc : UnitCode) (hσ : Keeps P σ s)
    (hp : covers P [.regs, .beat, .units, .forager, .test] := by exact hp.sub rfl) :
    Keeps P σ (State.fenceLane s uc) := by
  unfold State.fenceLane
  repeat' first
    | (with_reducible show covers P _; exact hp.sub rfl)
    | (intro (x : State); refine (fun (hx : Keeps P σ x) => ?_) ?_; (on_goal 1 => clear_value x); (on_goal 2 => dsimp only [x]))
    | (intro x; clear_value x) | lift_lets | with_reducible assumption | with_reducible apply keeps_fenceMerging
    | with_reducible apply keeps_forgCode | with_reducible apply keeps_giveBack | with_reducible apply keeps_setBit

theorem keeps_fenceNow {P : StatePart → Bool} {σ : State} (s : State) (uc : UnitCode) (hσ : Keeps P σ s)
    (hp : covers P [.regs, .beat, .units, .cores, .forager, .mods, .ports, .test] := by exact hp.sub rfl) :
    Keeps P σ (State.fenceNow s uc) := by
  unfold State.fenceNow
  repeat' first
    | (with_reducible show covers P _; exact hp.sub rfl)
    | (intro (x : State); refine (fun (hx : Keeps P σ x) => ?_) ?_; (on_goal 1 => clear_value x); (on_goal 2 => dsimp only [x]))
    | lift_lets | with_reducible refine keeps_ite (fun _ => ?_) (fun _ => ?_) | with_reducible assumption
    | with_reducible apply keeps_dieCoresOut | with_reducible apply keeps_fenceCore | with_reducible apply keeps_fenceDie
    | with_reducible apply keeps_fenceLane | with_reducible apply keeps_fenceMerging | with_reducible apply keeps_fenceModule
    | with_reducible apply keeps_fenceUnit | with_reducible apply keeps_logEntry | with_reducible apply keeps_losePile
    | with_reducible apply keeps_lossFence | with_reducible apply keeps_merge | with_reducible apply keeps_portOut
    | with_reducible apply keeps_retireDie | with_reducible apply keeps_setBit | with_reducible apply keeps_setFld
    | with_reducible apply keeps_updCode | split

theorem keeps_settleFences {P : StatePart → Bool} {σ : State} (s : State) (hσ : Keeps P σ s)
    (hp : covers P [.regs, .beat, .units, .cores, .forager, .mods, .ports, .test] := by exact hp.sub rfl) :
    Keeps P σ (State.settleFences s) := by
  unfold State.settleFences
  repeat' first
    | (with_reducible show covers P _; exact hp.sub rfl) | (intro x; clear_value x) | lift_lets | with_reducible assumption
    | with_reducible apply keeps_fenceNow | with_reducible refine keeps_foldl (fun _ _ σ _ => ?_) ?_
    | ((conv in (State.mk ..) => skip); with_reducible apply keeps_upd)
    | (refine UpdOk.mk ?_; intro p; cases p <;> first | (apply Or.inl; apply hp.get; rfl) | exact Or.inr rfl)

/-! ### Stop -/

theorem keeps_applyRdcEn_state {P : StatePart → Bool} {σ : State} (s : State) (hσ : Keeps P σ s)
    (hp : covers P [.tier] := by exact hp.sub rfl) :
    Keeps P σ (State.applyRdcEn s) := by
  unfold State.applyRdcEn
  repeat' first
    | (intro x; clear_value x) | lift_lets | with_reducible assumption
    | ((conv in (State.mk ..) => skip); with_reducible apply keeps_upd)
    | (refine UpdOk.mk ?_; intro p; cases p <;> first | (apply Or.inl; apply hp.get; rfl) | exact Or.inr rfl)

theorem keeps_startFlips {P : StatePart → Bool} {σ : State} (s : State) (hσ : Keeps P σ s)
    (hp : covers P [.regs, .host] := by exact hp.sub rfl) :
    Keeps P σ (State.startFlips s) := by
  unfold State.startFlips
  repeat' first
    | (with_reducible show covers P _; exact hp.sub rfl)
    | (intro (x : State); refine (fun (hx : Keeps P σ x) => ?_) ?_; (on_goal 1 => clear_value x); (on_goal 2 => dsimp only [x]))
    | (intro x; clear_value x) | lift_lets | with_reducible refine keeps_ite (fun _ => ?_) (fun _ => ?_)
    | with_reducible assumption | with_reducible apply keeps_emit | with_reducible apply keeps_setBit
    | with_reducible refine keeps_foldl (fun _ _ σ _ => ?_) ?_ | ((conv in (State.mk ..) => skip); with_reducible apply keeps_upd)
    | (refine UpdOk.mk ?_; intro p; cases p <;> first | (apply Or.inl; apply hp.get; rfl) | exact Or.inr rfl)

theorem keeps_portsReturn {P : StatePart → Bool} {σ : State} (s : State) (hσ : Keeps P σ s)
    (hp : covers P [.ports, .test] := by exact hp.sub rfl) :
    Keeps P σ (State.portsReturn s) := by
  unfold State.portsReturn
  repeat' first
    | (with_reducible show covers P _; exact hp.sub rfl) | (intro x; clear_value x) | lift_lets
    | with_reducible refine keeps_ite (fun _ => ?_) (fun _ => ?_) | with_reducible assumption | with_reducible apply keeps_setPort
    | with_reducible apply keeps_unmerge | with_reducible refine keeps_foldl (fun _ _ σ _ => ?_) ?_

theorem keeps_endCovers {P : StatePart → Bool} {σ : State} (s : State) (hσ : Keeps P σ s)
    (hp : covers P [.regs, .cores, .test] := by exact hp.sub rfl) :
    Keeps P σ (State.endCovers s) := by
  unfold State.endCovers
  repeat' first
    | (with_reducible show covers P _; exact hp.sub rfl) | (intro x; clear_value x) | lift_lets | with_reducible assumption
    | with_reducible apply keeps_uncover | with_reducible refine keeps_foldl (fun _ _ σ _ => ?_) ?_
    | ((conv in (State.mk ..) => skip); with_reducible apply keeps_upd)
    | (refine UpdOk.mk ?_; intro p; cases p <;> first | (apply Or.inl; apply hp.get; rfl) | exact Or.inr rfl)

theorem keeps_settle {P : StatePart → Bool} {σ : State} (s : State) (hσ : Keeps P σ s)
    (hp : covers P [.regs, .beat, .units, .cores, .forager, .mods, .ports, .test] := by exact hp.sub rfl) :
    Keeps P σ (State.settle s) := by
  unfold State.settle
  repeat' first
    | (with_reducible show covers P _; exact hp.sub rfl) | with_reducible assumption | with_reducible apply keeps_gapModules
    | with_reducible apply keeps_portsReturn | with_reducible apply keeps_settleFences | with_reducible apply keeps_updatePresence

theorem keeps_settleRest {P : StatePart → Bool} {σ : State} (s : State) (hσ : Keeps P σ s)
    (hp : covers P [.regs, .cores, .tier, .host, .test] := by exact hp.sub rfl) :
    Keeps P σ (State.settleRest s) := by
  unfold State.settleRest
  repeat' first
    | (with_reducible show covers P _; exact hp.sub rfl)
    | (intro (x : State); refine (fun (hx : Keeps P σ x) => ?_) ?_; (on_goal 1 => clear_value x); (on_goal 2 => dsimp only [x]))
    | (intro x; clear_value x) | lift_lets | with_reducible refine keeps_ite (fun _ => ?_) (fun _ => ?_)
    | with_reducible assumption | with_reducible apply keeps_applyRdcEn_state | with_reducible apply keeps_endCovers
    | with_reducible apply keeps_setCtrl | with_reducible apply keeps_startFlips | split
    | ((conv in (State.mk ..) => skip); with_reducible apply keeps_upd)
    | (refine UpdOk.mk ?_; intro p; cases p <;> first | (apply Or.inl; apply hp.get; rfl) | exact Or.inr rfl)

theorem keeps_showCore {P : StatePart → Bool} {σ : State} (s : State) (l : Nat) (hσ : Keeps P σ s)
    (hp : covers P [.regs] := by exact hp.sub rfl) :
    Keeps P σ (State.showCore s l) := by
  unfold State.showCore
  repeat' first
    | (with_reducible show covers P _; exact hp.sub rfl) | (intro x; clear_value x) | lift_lets
    | with_reducible refine keeps_ite (fun _ => ?_) (fun _ => ?_) | with_reducible assumption | with_reducible apply keeps_setFld

theorem keeps_showRun {P : StatePart → Bool} {σ : State} (s : State) (u : UnitId) (hσ : Keeps P σ s)
    (hp : covers P [.regs] := by exact hp.sub rfl) :
    Keeps P σ (State.showRun s u) := by
  unfold State.showRun
  repeat' first
    | (with_reducible show covers P _; exact hp.sub rfl) | with_reducible refine keeps_ite (fun _ => ?_) (fun _ => ?_)
    | with_reducible assumption | with_reducible apply keeps_setFld | with_reducible apply keeps_showCore

theorem keeps_showEngines {P : StatePart → Bool} {σ : State} (s : State) (hσ : Keeps P σ s)
    (hp : covers P [.regs] := by exact hp.sub rfl) :
    Keeps P σ (State.showEngines s) := by
  unfold State.showEngines
  repeat' first
    | (with_reducible show covers P _; exact hp.sub rfl) | (intro x; clear_value x) | lift_lets | with_reducible assumption
    | with_reducible apply keeps_setBit | with_reducible apply keeps_setFld
    | with_reducible refine keeps_foldl (fun _ _ σ _ => ?_) ?_

theorem keeps_dropPieces {P : StatePart → Bool} {σ : State} (s : State) (hσ : Keeps P σ s)
    (hp : covers P [.ports, .casc] := by exact hp.sub rfl) :
    Keeps P σ (State.dropPieces s) := by
  unfold State.dropPieces
  repeat' first
    | (with_reducible show covers P _; exact hp.sub rfl)
    | (intro (x : State); refine (fun (hx : Keeps P σ x) => ?_) ?_; (on_goal 1 => clear_value x); (on_goal 2 => dsimp only [x]))
    | (intro x; clear_value x) | lift_lets | with_reducible assumption | with_reducible apply keeps_owe
    | with_reducible refine keeps_foldl (fun _ _ σ _ => ?_) ?_ | ((conv in (State.mk ..) => skip); with_reducible apply keeps_upd)
    | (refine UpdOk.mk ?_; intro p; cases p <;> first | (apply Or.inl; apply hp.get; rfl) | exact Or.inr rfl)

theorem keeps_dropWaits {P : StatePart → Bool} {σ : State} (s : State) (hσ : Keeps P σ s)
    (hp : covers P [.tier, .ports] := by exact hp.sub rfl) :
    Keeps P σ (State.dropWaits s) := by
  unfold State.dropWaits
  repeat' first
    | (with_reducible show covers P _; exact hp.sub rfl)
    | (intro (x : State); refine (fun (hx : Keeps P σ x) => ?_) ?_; (on_goal 1 => clear_value x); (on_goal 2 => dsimp only [x]))
    | (intro x; clear_value x) | lift_lets | with_reducible assumption | with_reducible apply keeps_owe
    | with_reducible refine keeps_foldl (fun _ _ σ _ => ?_) ?_ | split
    | ((conv in (State.mk ..) => skip); with_reducible apply keeps_upd)
    | (refine UpdOk.mk ?_; intro p; cases p <;> first | (apply Or.inl; apply hp.get; rfl) | exact Or.inr rfl)

theorem keeps_dropFrames {P : StatePart → Bool} {σ : State} (s : State) (hσ : Keeps P σ s)
    (hp : covers P [.tier, .ports, .casc] := by exact hp.sub rfl) :
    Keeps P σ (State.dropFrames s) := by
  unfold State.dropFrames
  repeat' first
    | (with_reducible show covers P _; exact hp.sub rfl)
    | (intro (x : State); refine (fun (hx : Keeps P σ x) => ?_) ?_; (on_goal 1 => clear_value x); (on_goal 2 => dsimp only [x]))
    | (intro x; clear_value x) | lift_lets | with_reducible assumption | with_reducible apply keeps_dropPieces
    | with_reducible apply keeps_dropWaits | with_reducible apply keeps_owe
    | with_reducible refine keeps_foldl (fun _ _ σ _ => ?_) ?_ | ((conv in (State.mk ..) => skip); with_reducible apply keeps_upd)
    | (refine UpdOk.mk ?_; intro p; cases p <;> first | (apply Or.inl; apply hp.get; rfl) | exact Or.inr rfl)

theorem keeps_keepPartial {P : StatePart → Bool} {σ : State} (s : State) (hσ : Keeps P σ s)
    (hp : covers P [.regs] := by exact hp.sub rfl) :
    Keeps P σ (State.keepPartial s) := by
  unfold State.keepPartial
  repeat' first
    | (with_reducible show covers P _; exact hp.sub rfl) | with_reducible assumption | with_reducible apply keeps_setBit
    | with_reducible refine keeps_foldl (fun _ _ σ _ => ?_) ?_

theorem keeps_showRuns {P : StatePart → Bool} {σ : State} (s : State) (hσ : Keeps P σ s)
    (hp : covers P [.regs] := by exact hp.sub rfl) :
    Keeps P σ (State.showRuns s) := by
  unfold State.showRuns
  repeat' first
    | (with_reducible show covers P _; exact hp.sub rfl)
    | (intro (x : State); refine (fun (hx : Keeps P σ x) => ?_) ?_; (on_goal 1 => clear_value x); (on_goal 2 => dsimp only [x]))
    | lift_lets | with_reducible refine keeps_ite (fun _ => ?_) (fun _ => ?_) | with_reducible assumption
    | with_reducible apply keeps_showCore | with_reducible apply keeps_showRun
    | with_reducible refine keeps_foldl (fun _ _ σ _ => ?_) ?_

theorem keeps_restUnits {P : StatePart → Bool} {σ : State} (s : State) (hσ : Keeps P σ s)
    (hp : covers P [.regs, .units] := by exact hp.sub rfl) :
    Keeps P σ (State.restUnits s) := by
  unfold State.restUnits
  repeat' first
    | (with_reducible show covers P _; exact hp.sub rfl)
    | (intro (x : State); refine (fun (hx : Keeps P σ x) => ?_) ?_; (on_goal 1 => clear_value x); (on_goal 2 => dsimp only [x]))
    | lift_lets | with_reducible refine keeps_ite (fun _ => ?_) (fun _ => ?_) | with_reducible assumption
    | with_reducible apply keeps_showPower | with_reducible apply keeps_showRuns
    | with_reducible refine keeps_foldl (fun _ _ σ _ => ?_) ?_ | ((conv in (State.mk ..) => skip); with_reducible apply keeps_upd)
    | (refine UpdOk.mk ?_; intro p; cases p <;> first | (apply Or.inl; apply hp.get; rfl) | exact Or.inr rfl)

theorem keeps_endRegs {P : StatePart → Bool} {σ : State} (s : State) (hσ : Keeps P σ s)
    (hp : covers P [.regs, .slots] := by exact hp.sub rfl) :
    Keeps P σ (State.endRegs s) := by
  unfold State.endRegs
  repeat' first
    | (with_reducible show covers P _; exact hp.sub rfl)
    | (intro (x : State); refine (fun (hx : Keeps P σ x) => ?_) ?_; (on_goal 1 => clear_value x); (on_goal 2 => dsimp only [x]))
    | lift_lets | with_reducible assumption | with_reducible apply keeps_setBit | with_reducible apply keeps_setFld
    | with_reducible apply keeps_setReg | with_reducible apply keeps_setSlotState | with_reducible apply keeps_showEngines
    | with_reducible apply keeps_showRoles | split

theorem keeps_dropRun {P : StatePart → Bool} {σ : State} (s : State) (hσ : Keeps P σ s)
    (hp : covers P [.beat, .cores, .upd, .casc, .host] := by exact hp.sub rfl) :
    Keeps P σ (State.dropRun s) := by
  unfold State.dropRun
  repeat' first
    | with_reducible assumption | ((conv in (State.mk ..) => skip); with_reducible apply keeps_upd)
    | (refine UpdOk.mk ?_; intro p; cases p <;> first | (apply Or.inl; apply hp.get; rfl) | exact Or.inr rfl)

theorem keeps_endRun {P : StatePart → Bool} {σ : State} (s : State) (hσ : Keeps P σ s)
    (hp : covers P [.regs, .slots, .beat, .units, .cores, .upd, .tier, .forager, .mods, .ports, .casc, .host, .test] := by exact hp.sub rfl) :
    Keeps P σ (State.endRun s) := by
  unfold State.endRun
  repeat' first
    | (with_reducible show covers P _; exact hp.sub rfl)
    | (intro (x : State); refine (fun (hx : Keeps P σ x) => ?_) ?_; (on_goal 1 => clear_value x); (on_goal 2 => dsimp only [x]))
    | lift_lets | with_reducible assumption | with_reducible apply keeps_cancelMoves | with_reducible apply keeps_dropFrames
    | with_reducible apply keeps_dropRdc | with_reducible apply keeps_dropRun | with_reducible apply keeps_endRegs
    | with_reducible apply keeps_keepPartial | with_reducible apply keeps_restUnits | with_reducible apply keeps_settle
    | with_reducible apply keeps_settleRest

theorem keeps_clearLoss {P : StatePart → Bool} {σ : State} (s : State) (hσ : Keeps P σ s)
    (hp : covers P [.test] := by exact hp.sub rfl) :
    Keeps P σ (State.clearLoss s) := by
  unfold State.clearLoss
  repeat' first
    | with_reducible assumption | ((conv in (State.mk ..) => skip); with_reducible apply keeps_upd)
    | (refine UpdOk.mk ?_; intro p; cases p <;> first | (apply Or.inl; apply hp.get; rfl) | exact Or.inr rfl)

theorem keeps_sendSelfLost {P : StatePart → Bool} {σ : State} (s : State) (fault : Bool) (hσ : Keeps P σ s)
    (hp : covers P [.regs, .ports, .casc] := by exact hp.sub rfl) :
    Keeps P σ (State.sendSelfLost s fault) := by
  unfold State.sendSelfLost
  repeat' first
    | (with_reducible show covers P _; exact hp.sub rfl) | (intro x; clear_value x) | split | lift_lets
    | with_reducible assumption | with_reducible apply keeps_controlUp

theorem keeps_deviceLoss {P : StatePart → Bool} {σ : State} (s : State) (hσ : Keeps P σ s)
    (hp : covers P [.regs, .slots, .beat, .units, .cores, .upd, .tier, .forager, .mods, .ports, .casc, .host, .test] := by exact hp.sub rfl) :
    Keeps P σ (State.deviceLoss s) := by
  unfold State.deviceLoss
  repeat' first
    | (with_reducible show covers P _; exact hp.sub rfl)
    | (intro (x : State); refine (fun (hx : Keeps P σ x) => ?_) ?_; (on_goal 1 => clear_value x); (on_goal 2 => dsimp only [x]))
    | (intro x; clear_value x) | lift_lets | with_reducible refine keeps_ite (fun _ => ?_) (fun _ => ?_)
    | with_reducible assumption | with_reducible apply keeps_clearLoss | with_reducible apply keeps_endRun
    | with_reducible apply keeps_enterHold | with_reducible apply keeps_sendSelfLost | with_reducible apply keeps_setBit
    | ((conv in (State.mk ..) => skip); with_reducible apply keeps_upd)
    | (refine UpdOk.mk ?_; intro p; cases p <;> first | (apply Or.inl; apply hp.get; rfl) | exact Or.inr rfl)

theorem keeps_abortRun {P : StatePart → Bool} {σ : State} (s : State) (r : CopyRun) (hσ : Keeps P σ s)
    (hp : covers P [.regs, .beat] := by exact hp.sub rfl) :
    Keeps P σ (State.abortRun s r) := by
  unfold State.abortRun
  repeat' first
    | (with_reducible show covers P _; exact hp.sub rfl)
    | (intro (x : State); refine (fun (hx : Keeps P σ x) => ?_) ?_; (on_goal 1 => clear_value x); (on_goal 2 => dsimp only [x]))
    | lift_lets | with_reducible assumption | with_reducible apply keeps_bumpSat | with_reducible apply keeps_logEntry
    | with_reducible apply keeps_setBit | with_reducible apply keeps_setFld

theorem keeps_fail {P : StatePart → Bool} {σ : State} (s : State) (code : Nat) (hσ : Keeps P σ s)
    (hp : covers P [.regs, .slots, .beat, .units, .cores, .upd, .tier, .forager, .mods, .ports, .casc, .host, .test] := by exact hp.sub rfl) :
    Keeps P σ (State.fail s code) := by
  unfold State.fail
  repeat' first
    | (with_reducible show covers P _; exact hp.sub rfl)
    | (intro (x : State); refine (fun (hx : Keeps P σ x) => ?_) ?_; (on_goal 1 => clear_value x); (on_goal 2 => dsimp only [x]))
    | lift_lets | with_reducible refine keeps_ite (fun _ => ?_) (fun _ => ?_) | with_reducible assumption
    | with_reducible apply keeps_abortRun | with_reducible apply keeps_clearLoss | with_reducible apply keeps_endRun
    | with_reducible apply keeps_sendSelfLost | with_reducible apply keeps_setDevState | with_reducible apply keeps_setFld
    | with_reducible refine keeps_foldl (fun _ _ σ _ => ?_) ?_

theorem keeps_takeLoss {P : StatePart → Bool} {σ : State} (s : State) (hσ : Keeps P σ s)
    (hp : covers P [.regs, .slots, .beat, .units, .cores, .upd, .tier, .forager, .mods, .ports, .casc, .host, .test] := by exact hp.sub rfl) :
    Keeps P σ (State.takeLoss s) := by
  unfold State.takeLoss
  repeat' first
    | (with_reducible show covers P _; exact hp.sub rfl) | with_reducible assumption | with_reducible apply keeps_deviceLoss
    | with_reducible apply keeps_fail | split

theorem keeps_stopPlan {P : StatePart → Bool} {σ : State} (s : State) (hσ : Keeps P σ s)
    (hp : covers P [.regs, .slots, .beat, .units, .cores, .upd, .tier, .forager, .mods, .ports, .casc, .host, .test] := by exact hp.sub rfl) :
    Keeps P σ (State.stopPlan s) := by
  unfold State.stopPlan
  repeat' first
    | (with_reducible show covers P _; exact hp.sub rfl) | with_reducible assumption | with_reducible apply keeps_endRun
    | with_reducible apply keeps_enterHold | with_reducible apply keeps_takeLoss

theorem keeps_raise {P : StatePart → Bool} {σ : State} (s : State) (e : Ev) (hσ : Keeps P σ s)
    (hp : covers P [.regs, .slots, .beat, .units, .cores, .upd, .tier, .forager, .mods, .ports, .casc, .host, .test] := by exact hp.sub rfl) :
    Keeps P σ (State.raise s e) := by
  unfold State.raise
  repeat' first
    | (with_reducible show covers P _; exact hp.sub rfl)
    | (intro (x : State); refine (fun (hx : Keeps P σ x) => ?_) ?_; (on_goal 1 => clear_value x); (on_goal 2 => dsimp only [x]))
    | lift_lets | with_reducible refine keeps_ite (fun _ => ?_) (fun _ => ?_) | with_reducible assumption
    | with_reducible apply keeps_deviceLoss | with_reducible apply keeps_fail | with_reducible apply keeps_logEntry
    | with_reducible apply keeps_markFault

theorem keeps_raiseBeat {P : StatePart → Bool} {σ : State} (s : State) (key : Nat) (e : Ev) (hσ : Keeps P σ s)
    (hp : covers P [.regs, .slots, .beat, .units, .cores, .upd, .tier, .forager, .mods, .ports, .casc, .host, .test] := by exact hp.sub rfl) :
    Keeps P σ (State.raiseBeat s key e) := by
  unfold State.raiseBeat
  repeat' first
    | (with_reducible show covers P _; exact hp.sub rfl) | with_reducible refine keeps_ite (fun _ => ?_) (fun _ => ?_)
    | with_reducible assumption | with_reducible apply keeps_raise
    | ((conv in (State.mk ..) => skip); with_reducible apply keeps_upd)
    | (refine UpdOk.mk ?_; intro p; cases p <;> first | (apply Or.inl; apply hp.get; rfl) | exact Or.inr rfl)

theorem keeps_raiseStep {P : StatePart → Bool} {σ : State} (s : State) (key : Nat) (e : Ev) (hσ : Keeps P σ s)
    (hp : covers P [.regs, .slots, .beat, .units, .cores, .upd, .tier, .forager, .mods, .ports, .casc, .host, .test] := by exact hp.sub rfl) :
    Keeps P σ (State.raiseStep s key e) := by
  unfold State.raiseStep
  repeat' first
    | (with_reducible show covers P _; exact hp.sub rfl) | with_reducible refine keeps_ite (fun _ => ?_) (fun _ => ?_)
    | with_reducible assumption | with_reducible apply keeps_raise
    | ((conv in (State.mk ..) => skip); with_reducible apply keeps_upd)
    | (refine UpdOk.mk ?_; intro p; cases p <;> first | (apply Or.inl; apply hp.get; rfl) | exact Or.inr rfl)

theorem keeps_raiseCycle {P : StatePart → Bool} {σ : State} (s : State) (key : Nat) (e : Ev) (hσ : Keeps P σ s)
    (hp : covers P [.regs, .slots, .beat, .units, .cores, .upd, .tier, .forager, .mods, .ports, .casc, .host, .test] := by exact hp.sub rfl) :
    Keeps P σ (State.raiseCycle s key e) := by
  unfold State.raiseCycle
  repeat' first
    | (with_reducible show covers P _; exact hp.sub rfl) | with_reducible refine keeps_ite (fun _ => ?_) (fun _ => ?_)
    | with_reducible assumption | with_reducible apply keeps_raise
    | ((conv in (State.mk ..) => skip); with_reducible apply keeps_upd)
    | (refine UpdOk.mk ?_; intro p; cases p <;> first | (apply Or.inl; apply hp.get; rfl) | exact Or.inr rfl)

theorem keeps_fenceLater {P : StatePart → Bool} {σ : State} (s : State) (uc : UnitCode) (hσ : Keeps P σ s)
    (hp : covers P [.regs, .slots, .beat, .units, .cores, .upd, .tier, .forager, .mods, .ports, .casc, .host, .test] := by exact hp.sub rfl) :
    Keeps P σ (State.fenceLater s uc) := by
  unfold State.fenceLater
  repeat' first
    | (with_reducible show covers P _; exact hp.sub rfl) | with_reducible refine keeps_ite (fun _ => ?_) (fun _ => ?_)
    | with_reducible assumption | with_reducible apply keeps_fenceNow | with_reducible apply keeps_takeLoss
    | with_reducible apply keeps_updatePresence | ((conv in (State.mk ..) => skip); with_reducible apply keeps_upd)
    | (refine UpdOk.mk ?_; intro p; cases p <;> first | (apply Or.inl; apply hp.get; rfl) | exact Or.inr rfl)

theorem keeps_pileGone {P : StatePart → Bool} {σ : State} (s : State) (n : Nat) (hσ : Keeps P σ s)
    (hp : covers P [.regs, .slots, .beat, .units, .cores, .upd, .tier, .forager, .mods, .ports, .casc, .host, .test] := by exact hp.sub rfl) :
    Keeps P σ (State.pileGone s n) := by
  unfold State.pileGone
  repeat' first
    | (with_reducible show covers P _; exact hp.sub rfl) | with_reducible assumption | with_reducible apply keeps_losePile
    | with_reducible apply keeps_takeLoss | with_reducible apply keeps_updatePresence

/-! ### Modules -/

theorem keeps_applyFlitCrcFail {P : StatePart → Bool} {σ : State} (hub n nth : Nat) (s : State) (hσ : Keeps P σ s)
    (hp : covers P [.regs, .slots, .beat, .units, .cores, .upd, .tier, .forager, .mods, .ports, .casc, .host, .test] := by exact hp.sub rfl) :
    Keeps P σ (applyFlitCrcFail hub n nth s) := by
  unfold applyFlitCrcFail
  repeat' first
    | (with_reducible show covers P _; exact hp.sub rfl)
    | (intro (x : State); refine (fun (hx : Keeps P σ x) => ?_) ?_; (on_goal 1 => clear_value x); (on_goal 2 => dsimp only [x]))
    | (intro x; clear_value x) | lift_lets | with_reducible refine keeps_ite (fun _ => ?_) (fun _ => ?_)
    | with_reducible assumption | with_reducible apply keeps_bumpSat | with_reducible apply keeps_modulesNow
    | with_reducible apply keeps_raise | with_reducible apply keeps_setMod | with_reducible apply keeps_setShared

theorem keeps_applyModuleRetrainDone {P : StatePart → Bool} {σ : State} (hub n : Nat) (failed : List Nat) (s : State) (hσ : Keeps P σ s)
    (hp : covers P [.regs, .slots, .beat, .units, .cores, .upd, .tier, .forager, .mods, .ports, .casc, .host, .test] := by exact hp.sub rfl) :
    Keeps P σ (applyModuleRetrainDone hub n failed s) := by
  unfold applyModuleRetrainDone
  repeat' first
    | (with_reducible show covers P _; exact hp.sub rfl) | split | with_reducible assumption
    | with_reducible apply keeps_applyLanes | with_reducible apply keeps_fenceModule | with_reducible apply keeps_modulesNow
    | with_reducible apply keeps_setShared | with_reducible apply keeps_takeLoss
    | (refine keeps_of_some ?_ (by with_reducible assumption))

theorem keeps_applyModuleRetrainTimeout {P : StatePart → Bool} {σ : State} (hub n : Nat) (s : State) (hσ : Keeps P σ s)
    (hp : covers P [.regs, .slots, .beat, .units, .cores, .upd, .tier, .forager, .mods, .ports, .casc, .host, .test] := by exact hp.sub rfl) :
    Keeps P σ (applyModuleRetrainTimeout hub n s) := by
  unfold applyModuleRetrainTimeout
  repeat' first
    | (with_reducible show covers P _; exact hp.sub rfl) | with_reducible refine keeps_ite (fun _ => ?_) (fun _ => ?_)
    | with_reducible assumption | with_reducible apply keeps_fenceModule | with_reducible apply keeps_modulesNow
    | with_reducible apply keeps_takeLoss

/-! ### Super -/

theorem keeps_askOn {P : StatePart → Bool} {σ : State} (s : State) (m : Nat) (ps : List HPort) (hσ : Keeps P σ s)
    (hp : covers P [.host] := by exact hp.sub rfl) :
    Keeps P σ (State.askOn s m ps) := by
  unfold State.askOn
  repeat' first
    | with_reducible assumption | ((conv in (State.mk ..) => skip); with_reducible apply keeps_upd)
    | (refine UpdOk.mk ?_; intro p; cases p <;> first | (apply Or.inl; apply hp.get; rfl) | exact Or.inr rfl)

theorem keeps_dropAsks {P : StatePart → Bool} {σ : State} (s : State) (m : Nat) (hσ : Keeps P σ s)
    (hp : covers P [.host] := by exact hp.sub rfl) :
    Keeps P σ (State.dropAsks s m) := by
  unfold State.dropAsks
  repeat' first
    | with_reducible assumption | ((conv in (State.mk ..) => skip); with_reducible apply keeps_upd)
    | (refine UpdOk.mk ?_; intro p; cases p <;> first | (apply Or.inl; apply hp.get; rfl) | exact Or.inr rfl)

theorem keeps_superAsk {P : StatePart → Bool} {σ : State} (s : State) (m a n : Nat) (hσ : Keeps P σ s)
    (hp : covers P [.host] := by exact hp.sub rfl) :
    Keeps P σ (State.superAsk s m a n) := by
  unfold State.superAsk
  repeat' first
    | (with_reducible show covers P _; exact hp.sub rfl)
    | (intro (x : State); refine (fun (hx : Keeps P σ x) => ?_) ?_; (on_goal 1 => clear_value x); (on_goal 2 => dsimp only [x]))
    | (intro x; clear_value x) | lift_lets | with_reducible assumption | with_reducible apply keeps_askOn
    | with_reducible apply keeps_emit | with_reducible refine keeps_foldl (fun _ _ σ _ => ?_) ?_ | split

theorem keeps_superPut {P : StatePart → Bool} {σ : State} (s : State) (m a : Nat) (data : Bytes) (hσ : Keeps P σ s)
    (hp : covers P [.host] := by exact hp.sub rfl) :
    Keeps P σ (State.superPut s m a data) := by
  unfold State.superPut
  dsimp only
  refine keeps_foldl (fun u p b hb => ?_) (keeps_askOn _ _ _ ?_)
  · split
    · exact keeps_emit hb _
    · exact hb
  · generalize s.superParts a data.length = l
    have h : ∀ (l : List (Option HPort × Nat × Nat)) (x : State × Bytes), Keeps P σ x.1 →
        Keeps P σ (l.foldl (fun (x : State × Bytes) (y : Option HPort × Nat × Nat) => match y.1 with
          | some p => (x.1.emit (.hostWrite p y.2.1 (x.2.take y.2.2)), x.2.drop y.2.2)
          | none => x) x).1 := by
      intro l
      induction l with
      | nil => exact fun _ h => h
      | cons y ys ih =>
        intro x hx
        refine ih _ ?_
        obtain ⟨a, b⟩ := y
        cases a with
        | none => exact hx
        | some p => exact keeps_emit hx _
    exact h l (s, data) hσ

theorem keeps_showMoves {P : StatePart → Bool} {σ : State} (s : State) (hσ : Keeps P σ s)
    (hp : covers P [.regs] := by exact hp.sub rfl) :
    Keeps P σ (State.showMoves s) := by
  unfold State.showMoves
  repeat' first
    | (with_reducible show covers P _; exact hp.sub rfl) | with_reducible assumption | with_reducible apply keeps_setFld

theorem keeps_askHoming {P : StatePart → Bool} {σ : State} (s : State) (half : Nat) (hσ : Keeps P σ s)
    (hp : covers P [.regs, .slots, .beat, .units, .cores, .upd, .tier, .forager, .mods, .ports, .casc, .host, .test] := by exact hp.sub rfl) :
    Keeps P σ (State.askHoming s half) := by
  unfold State.askHoming
  repeat' first
    | (with_reducible show covers P _; exact hp.sub rfl) | with_reducible refine keeps_ite (fun _ => ?_) (fun _ => ?_)
    | with_reducible assumption | with_reducible apply keeps_raise | with_reducible apply keeps_superAsk | split

theorem keeps_askHomings {P : StatePart → Bool} {σ : State} (s : State) (hσ : Keeps P σ s)
    (hp : covers P [.regs, .slots, .beat, .units, .cores, .upd, .tier, .forager, .mods, .ports, .casc, .host, .test] := by exact hp.sub rfl) :
    Keeps P σ (State.askHomings s) := by
  unfold State.askHomings
  repeat' first
    | (with_reducible show covers P _; exact hp.sub rfl) | with_reducible assumption | with_reducible apply keeps_askHoming

theorem keeps_startHoming {P : StatePart → Bool} {σ : State} (s : State) (h : Shard) (hσ : Keeps P σ s)
    (hp : covers P [.regs, .slots, .beat, .units, .cores, .upd, .tier, .forager, .mods, .ports, .casc, .host, .test] := by exact hp.sub rfl) :
    Keeps P σ (State.startHoming s h) := by
  unfold State.startHoming
  repeat' first
    | (with_reducible show covers P _; exact hp.sub rfl)
    | (intro (x : State); refine (fun (hx : Keeps P σ x) => ?_) ?_; (on_goal 1 => clear_value x); (on_goal 2 => dsimp only [x]))
    | (intro x; clear_value x) | lift_lets | with_reducible assumption | with_reducible apply keeps_askHomings
    | with_reducible apply keeps_showMoves | ((conv in (State.mk ..) => skip); with_reducible apply keeps_upd)
    | (refine UpdOk.mk ?_; intro p; cases p <;> first | (apply Or.inl; apply hp.get; rfl) | exact Or.inr rfl)

end Sys2Proof.Laws
end

