-- ==== Sys2Proof/Laws/KeepsCores.lean ====
section
/-! SUPPORT. The processing blocks, arrays and vector cores keep the queue, the records sent out, the memory form, the fuses, and every part of the machine that they do not name. -/

namespace Sys2Proof.Laws

-- one theorem after another: hundreds at once run out of threads
set_option Elab.async false

open Sys2Proof Sys2Proof.Machine

/-! ### Operands -/

theorem keeps_unmapped {P : StatePart → Bool} {σ : State} (s : State) (ag : Agent) (hσ : Keeps P σ s)
    (hp : covers P [.regs, .slots, .beat, .units, .cores, .upd, .tier, .forager, .mods, .ports, .casc, .host, .test] := by exact hp.sub rfl) :
    Keeps P σ (State.unmapped s ag) := by
  unfold State.unmapped
  repeat' first
    | (with_reducible show covers P _; exact hp.sub rfl) | with_reducible refine keeps_ite (fun _ => ?_) (fun _ => ?_)
    | with_reducible assumption | with_reducible apply keeps_raise

theorem keeps_edramTouch {P : StatePart → Bool} {σ : State} (s : State) (pile line : Nat) (dirty : Bool) (hσ : Keeps P σ s)
    (hp : covers P [.tier] := by exact hp.sub rfl) :
    Keeps P σ (State.edramTouch s pile line dirty) := by
  unfold State.edramTouch
  repeat' first
    | (intro x; clear_value x) | lift_lets | with_reducible assumption
    | ((conv in (State.mk ..) => skip); with_reducible apply keeps_upd)
    | (refine UpdOk.mk ?_; intro p; cases p <;> first | (apply Or.inl; apply hp.get; rfl) | exact Or.inr rfl)

theorem keeps_cacheAccess {P : StatePart → Bool} {σ : State} (s : State) (ag : Agent) (pl : Place) (write : Bool) (hσ : Keeps P σ s)
    (hp : covers P [.tier] := by exact hp.sub rfl) :
    Keeps P σ (State.cacheAccess s ag pl write) := by
  unfold State.cacheAccess
  repeat' first
    | (with_reducible show covers P _; exact hp.sub rfl) | (intro x; clear_value x) | lift_lets
    | with_reducible refine keeps_ite (fun _ => ?_) (fun _ => ?_) | with_reducible assumption
    | with_reducible apply keeps_edramTouch | split

theorem keeps_rdcInvalidate {P : StatePart → Bool} {σ : State} (s : State) (dev : Nat) (hσ : Keeps P σ s)
    (hp : covers P [.tier] := by exact hp.sub rfl) :
    Keeps P σ (State.rdcInvalidate s dev) := by
  unfold State.rdcInvalidate
  repeat' first
    | with_reducible refine keeps_ite (fun _ => ?_) (fun _ => ?_) | with_reducible assumption
    | ((conv in (State.mk ..) => skip); with_reducible apply keeps_upd)
    | (refine UpdOk.mk ?_; intro p; cases p <;> first | (apply Or.inl; apply hp.get; rfl) | exact Or.inr rfl)

theorem keeps_markStale {P : StatePart → Bool} {σ : State} (s : State) (ag : Agent) (pl : Place) (hσ : Keeps P σ s)
    (hp : covers P [.tier] := by exact hp.sub rfl) :
    Keeps P σ (State.markStale s ag pl) := by
  unfold State.markStale
  repeat' first
    | (intro x; clear_value x) | lift_lets | with_reducible refine keeps_ite (fun _ => ?_) (fun _ => ?_)
    | with_reducible assumption | split | ((conv in (State.mk ..) => skip); with_reducible apply keeps_upd)
    | (refine UpdOk.mk ?_; intro p; cases p <;> first | (apply Or.inl; apply hp.get; rfl) | exact Or.inr rfl)

theorem keeps_writePlace {P : StatePart → Bool} {σ : State} (s : State) (ag : Agent) (pl : Place) (v : Byte) (hσ : Keeps P σ s)
    (hp : covers P [.memory, .tier] := by exact hp.sub rfl) :
    Keeps P σ (State.writePlace s ag pl v) := by
  unfold State.writePlace
  repeat' first
    | (with_reducible show covers P _; exact hp.sub rfl) | with_reducible assumption | with_reducible apply keeps_cacheAccess
    | with_reducible apply keeps_markStale | with_reducible apply keeps_poke | with_reducible apply keeps_rdcInvalidate

theorem keeps_recall {P : StatePart → Bool} {σ : State} (s : State) (ag : Agent) (ps : List Place) (hσ : Keeps P σ s) :
    Keeps P σ (State.recall s ag ps) := by
  unfold State.recall
  repeat' first
    | with_reducible assumption | with_reducible apply keeps_emit | with_reducible refine keeps_foldl (fun _ _ σ _ => ?_) ?_
    | split

theorem keeps_writePlaces {P : StatePart → Bool} {σ : State} (s : State) (ag : Agent) (p0 : List Place) (p1 : Bytes) (hσ : Keeps P σ s)
    (hp : covers P [.memory, .tier] := by exact hp.sub rfl) :
    Keeps P σ (State.writePlaces s ag p0 p1) := by
  induction p0 generalizing s p1 with
  | nil => simpa [State.writePlaces] using hσ
  | cons pl ps ih =>
    cases p1 with
    | nil => simpa [State.writePlaces] using hσ
    | cons b bs => exact ih _ _ (keeps_writePlace _ _ _ _ hσ)

theorem keeps_showHolds {P : StatePart → Bool} {σ : State} (s : State) (pile : Nat) (hσ : Keeps P σ s)
    (hp : covers P [.regs] := by exact hp.sub rfl) :
    Keeps P σ (State.showHolds s pile) := by
  unfold State.showHolds
  repeat' first
    | (with_reducible show covers P _; exact hp.sub rfl) | (intro x; clear_value x) | lift_lets | with_reducible assumption
    | with_reducible apply keeps_setFld

theorem keeps_allocHold {P : StatePart → Bool} {σ : State} (s : State) (t : Tensor) (hσ : Keeps P σ s)
    (hp : covers P [.regs, .slots, .beat, .units, .cores, .upd, .tier, .forager, .mods, .ports, .casc, .host, .test] := by exact hp.sub rfl) :
    Keeps P σ (State.allocHold s t) := by
  unfold State.allocHold
  repeat' first
    | (with_reducible show covers P _; exact hp.sub rfl) | (intro x; clear_value x) | split | lift_lets
    | with_reducible assumption | with_reducible apply keeps_showHolds | with_reducible apply keeps_startHoming
    | ((conv in (State.mk ..) => skip); with_reducible apply keeps_upd)
    | (refine UpdOk.mk ?_; intro p; cases p <;> first | (apply Or.inl; apply hp.get; rfl) | exact Or.inr rfl)

theorem keeps_holdWait {P : StatePart → Bool} {σ : State} (s : State) (ag : Agent) (beat : Nat) (t : Tensor) (off : Nat) (data : Bytes) (hσ : Keeps P σ s)
    (hp : covers P [.regs, .slots, .beat, .units, .cores, .upd, .tier, .forager, .mods, .ports, .casc, .host, .test] := by exact hp.sub rfl) :
    Keeps P σ (State.holdWait s ag beat t off data) := by
  unfold State.holdWait
  repeat' first
    | (with_reducible show covers P _; exact hp.sub rfl)
    | (intro (x : State); refine (fun (hx : Keeps P σ x) => ?_) ?_; (on_goal 1 => clear_value x); (on_goal 2 => dsimp only [x]))
    | (intro x; clear_value x) | lift_lets | with_reducible assumption | with_reducible apply keeps_raiseBeat
    | with_reducible apply keeps_setBit | split | ((conv in (State.mk ..) => skip); with_reducible apply keeps_upd)
    | (refine UpdOk.mk ?_; intro p; cases p <;> first | (apply Or.inl; apply hp.get; rfl) | exact Or.inr rfl)

theorem keeps_sendMirror {P : StatePart → Bool} {σ : State} (s : State) (lost : Bool) (beat kind shard object off stamp : Nat) (data : Bytes) (hσ : Keeps P σ s)
    (hp : covers P [.regs, .ports, .casc] := by exact hp.sub rfl) :
    Keeps P σ (State.sendMirror s lost beat kind shard object off stamp data) := by
  unfold State.sendMirror
  repeat' first
    | (with_reducible show covers P _; exact hp.sub rfl)
    | (intro (x : State); refine (fun (hx : Keeps P σ x) => ?_) ?_; (on_goal 1 => clear_value x); (on_goal 2 => dsimp only [x]))
    | (intro x; clear_value x) | lift_lets | with_reducible assumption | with_reducible apply keeps_sendTwin
    | ((conv in (State.mk ..) => skip); with_reducible apply keeps_upd)
    | (refine UpdOk.mk ?_; intro p; cases p <;> first | (apply Or.inl; apply hp.get; rfl) | exact Or.inr rfl)

theorem keeps_mirrorWrite {P : StatePart → Bool} {σ : State} (s : State) (beat : Nat) (ag : Agent) (ps : List Place) (data : Bytes) (hσ : Keeps P σ s)
    (hp : covers P [.regs, .ports, .casc] := by exact hp.sub rfl) :
    Keeps P σ (State.mirrorWrite s beat ag ps data) := by
  unfold State.mirrorWrite
  repeat' first
    | (with_reducible show covers P _; exact hp.sub rfl) | (intro x; clear_value x) | lift_lets
    | with_reducible refine keeps_ite (fun _ => ?_) (fun _ => ?_) | with_reducible assumption
    | with_reducible apply keeps_sendMirror | with_reducible refine keeps_foldl (fun _ _ σ _ => ?_) ?_

theorem keeps_scanRun {P : StatePart → Bool} {σ : State} (s : State) (beat id off len : Nat) (hσ : Keeps P σ s)
    (hp : covers P [.upd] := by exact hp.sub rfl) :
    Keeps P σ (State.scanRun s beat id off len) := by
  unfold State.scanRun
  repeat' first
    | (intro x; clear_value x) | split | lift_lets | with_reducible assumption
    | ((conv in (State.mk ..) => skip); with_reducible apply keeps_upd)
    | (refine UpdOk.mk ?_; intro p; cases p <;> first | (apply Or.inl; apply hp.get; rfl) | exact Or.inr rfl)

theorem keeps_scanGrad {P : StatePart → Bool} {σ : State} (s : State) (beat : Nat) (ps : List Place) (data : Bytes) (hσ : Keeps P σ s)
    (hp : covers P [.upd] := by exact hp.sub rfl) :
    Keeps P σ (State.scanGrad s beat ps data) := by
  unfold State.scanGrad
  repeat' first
    | (with_reducible show covers P _; exact hp.sub rfl) | with_reducible refine keeps_ite (fun _ => ?_) (fun _ => ?_)
    | with_reducible assumption | with_reducible apply keeps_scanRun | with_reducible refine keeps_foldl (fun _ _ σ _ => ?_) ?_

theorem keeps_unlistWritten {P : StatePart → Bool} {σ : State} (s : State) (ps : List Place) (hσ : Keeps P σ s)
    (hp : covers P [.tier] := by exact hp.sub rfl) :
    Keeps P σ (State.unlistWritten s ps) := by
  unfold State.unlistWritten
  repeat' first
    | (intro x; clear_value x) | lift_lets | with_reducible refine keeps_ite (fun _ => ?_) (fun _ => ?_)
    | with_reducible assumption | ((conv in (State.mk ..) => skip); with_reducible apply keeps_upd)
    | (refine UpdOk.mk ?_; intro p; cases p <;> first | (apply Or.inl; apply hp.get; rfl) | exact Or.inr rfl)

theorem keeps_storeIn {P : StatePart → Bool} {σ : State} (s : State) (beat : Nat) (ag : Agent) (a : Nat) (data : Bytes) (hσ : Keeps P σ s)
    (hp : covers P [.regs, .memory, .slots, .beat, .units, .cores, .upd, .tier, .forager, .mods, .ports, .casc, .host, .test] := by exact hp.sub rfl) :
    Keeps P σ (State.storeIn s beat ag a data) := by
  unfold State.storeIn
  repeat' first
    | (with_reducible show covers P _; exact hp.sub rfl)
    | (intro (x : State); refine (fun (hx : Keeps P σ x) => ?_) ?_; (on_goal 1 => clear_value x); (on_goal 2 => dsimp only [x]))
    | lift_lets | with_reducible refine keeps_ite (fun _ => ?_) (fun _ => ?_) | with_reducible assumption
    | with_reducible apply keeps_allocHold | with_reducible apply keeps_holdWait | with_reducible apply keeps_mirrorWrite
    | with_reducible apply keeps_raise | with_reducible apply keeps_recall | with_reducible apply keeps_scanGrad
    | with_reducible apply keeps_unlistWritten | with_reducible apply keeps_unmapped | with_reducible apply keeps_writePlaces
    | split

theorem keeps_store {P : StatePart → Bool} {σ : State} (s : State) (ag : Agent) (a : Nat) (data : Bytes) (hσ : Keeps P σ s)
    (hp : covers P [.regs, .memory, .slots, .beat, .units, .cores, .upd, .tier, .forager, .mods, .ports, .casc, .host, .test] := by exact hp.sub rfl) :
    Keeps P σ (State.store s ag a data) := by
  unfold State.store
  repeat' first
    | (with_reducible show covers P _; exact hp.sub rfl) | with_reducible assumption | with_reducible apply keeps_storeIn

theorem keeps_touchAll {P : StatePart → Bool} {σ : State} (s : State) (ag : Agent) (ps : List Place) (hσ : Keeps P σ s)
    (hp : covers P [.tier] := by exact hp.sub rfl) :
    Keeps P σ (State.touchAll s ag ps) := by
  unfold State.touchAll
  repeat' first
    | (with_reducible show covers P _; exact hp.sub rfl) | with_reducible assumption | with_reducible apply keeps_cacheAccess
    | with_reducible refine keeps_foldl (fun _ _ σ _ => ?_) ?_

theorem keeps_touchRange {P : StatePart → Bool} {σ : State} (s : State) (ag : Agent) (a n : Nat) (hσ : Keeps P σ s)
    (hp : covers P [.tier] := by exact hp.sub rfl) :
    Keeps P σ (State.touchRange s ag a n) := by
  unfold State.touchRange
  repeat' first
    | (with_reducible show covers P _; exact hp.sub rfl) | with_reducible assumption | with_reducible apply keeps_recall
    | with_reducible apply keeps_touchAll | split

theorem keeps_fetch {P : StatePart → Bool} {σ : State} (s : State) (ag : Agent) (a n : Nat) (hσ : Keeps P σ s)
    (hp : covers P [.regs, .slots, .beat, .units, .cores, .upd, .tier, .forager, .mods, .ports, .casc, .host, .test] := by exact hp.sub rfl) :
    Keeps P σ (State.fetch s ag a n).2 := by
  unfold State.fetch
  repeat' first
    | (with_reducible show covers P _; exact hp.sub rfl) | with_reducible assumption | with_reducible apply keeps_recall
    | with_reducible apply keeps_touchAll | with_reducible apply keeps_unmapped | split

/-! ### Watch -/

theorem keeps_feed {P : StatePart → Bool} {σ : State} (s : State) (hub : Nat) (beat : Option Nat) (id : Nat) (d : WDelta) (hσ : Keeps P σ s)
    (hp : covers P [.regs, .slots, .beat, .units, .cores, .watch, .upd, .tier, .forager, .mods, .ports, .casc, .host, .test] := by exact hp.sub rfl) :
    Keeps P σ (State.feed s hub beat id d) := by
  unfold State.feed
  repeat' first
    | (with_reducible show covers P _; exact hp.sub rfl)
    | (intro (x : State); refine (fun (hx : Keeps P σ x) => ?_) ?_; (on_goal 1 => clear_value x); (on_goal 2 => dsimp only [x]))
    | lift_lets | with_reducible refine keeps_ite (fun _ => ?_) (fun _ => ?_) | with_reducible assumption
    | with_reducible apply keeps_raiseBeat | split | ((conv in (State.mk ..) => skip); with_reducible apply keeps_upd)
    | (refine UpdOk.mk ?_; intro p; cases p <;> first | (apply Or.inl; apply hp.get; rfl) | exact Or.inr rfl)

theorem keeps_publish {P : StatePart → Bool} {σ : State} (s : State) (at_ list : Nat) (old new : Record) (hσ : Keeps P σ s)
    (hp : covers P [.regs, .memory, .slots, .beat, .units, .cores, .upd, .tier, .forager, .mods, .ports, .casc, .host, .test] := by exact hp.sub rfl) :
    Keeps P σ (State.publish s at_ list old new) := by
  unfold State.publish
  repeat' first
    | (with_reducible show covers P _; exact hp.sub rfl) | (intro x; clear_value x) | lift_lets
    | with_reducible refine keeps_ite (fun _ => ?_) (fun _ => ?_) | with_reducible assumption | with_reducible apply keeps_store

theorem keeps_commitRecord {P : StatePart → Bool} {σ : State} (s : State) (beat pos i : Nat) (hσ : Keeps P σ s)
    (hp : covers P [.regs, .memory, .slots, .beat, .units, .cores, .upd, .tier, .forager, .mods, .ports, .casc, .host, .test] := by exact hp.sub rfl) :
    Keeps P σ (State.commitRecord s beat pos i) := by
  unfold State.commitRecord
  repeat' first
    | (with_reducible show covers P _; exact hp.sub rfl) | (intro x; clear_value x) | lift_lets
    | with_reducible refine keeps_ite (fun _ => ?_) (fun _ => ?_) | with_reducible assumption | with_reducible apply keeps_publish
    | split

theorem keeps_commitWatch {P : StatePart → Bool} {σ : State} (s : State) (beat pos : Nat) (hσ : Keeps P σ s)
    (hp : covers P [.regs, .memory, .slots, .beat, .units, .cores, .watch, .upd, .tier, .forager, .mods, .ports, .casc, .host, .test] := by exact hp.sub rfl) :
    Keeps P σ (State.commitWatch s beat pos) := by
  unfold State.commitWatch
  repeat' first
    | (with_reducible show covers P _; exact hp.sub rfl)
    | (intro (x : State); refine (fun (hx : Keeps P σ x) => ?_) ?_; (on_goal 1 => clear_value x); (on_goal 2 => dsimp only [x]))
    | lift_lets | with_reducible assumption | with_reducible apply keeps_commitRecord
    | with_reducible refine keeps_foldl (fun _ _ σ _ => ?_) ?_ | split
    | ((conv in (State.mk ..) => skip); with_reducible apply keeps_upd)
    | (refine UpdOk.mk ?_; intro p; cases p <;> first | (apply Or.inl; apply hp.get; rfl) | exact Or.inr rfl)

theorem keeps_dropWatch {P : StatePart → Bool} {σ : State} (s : State) (hσ : Keeps P σ s)
    (hp : covers P [.watch] := by exact hp.sub rfl) :
    Keeps P σ (State.dropWatch s) := by
  unfold State.dropWatch
  repeat' first
    | with_reducible assumption | ((conv in (State.mk ..) => skip); with_reducible apply keeps_upd)
    | (refine UpdOk.mk ?_; intro p; cases p <;> first | (apply Or.inl; apply hp.get; rfl) | exact Or.inr rfl)

/-! ### HwErrs -/

theorem keeps_list {P : StatePart → Bool} {σ : State} (s : State) (k : CwKey) (failed : Option (Nat × Nat)) (hσ : Keeps P σ s)
    (hp : covers P [.tier] := by exact hp.sub rfl) :
    Keeps P σ (State.list s k failed) := by
  unfold State.list
  repeat' first
    | with_reducible refine keeps_ite (fun _ => ?_) (fun _ => ?_) | with_reducible assumption
    | ((conv in (State.mk ..) => skip); with_reducible apply keeps_upd)
    | (refine UpdOk.mk ?_; intro p; cases p <;> first | (apply Or.inl; apply hp.get; rfl) | exact Or.inr rfl)

theorem keeps_unlist {P : StatePart → Bool} {σ : State} (s : State) (k : CwKey) (hσ : Keeps P σ s)
    (hp : covers P [.tier] := by exact hp.sub rfl) :
    Keeps P σ (State.unlist s k) := by
  unfold State.unlist
  repeat' first
    | with_reducible assumption | ((conv in (State.mk ..) => skip); with_reducible apply keeps_upd)
    | (refine UpdOk.mk ?_; intro p; cases p <;> first | (apply Or.inl; apply hp.get; rfl) | exact Or.inr rfl)

theorem keeps_unlistReread {P : StatePart → Bool} {σ : State} (s : State) (w : Win) (hσ : Keeps P σ s)
    (hp : covers P [.tier] := by exact hp.sub rfl) :
    Keeps P σ (State.unlistReread s w) := by
  unfold State.unlistReread
  repeat' first
    | with_reducible refine keeps_ite (fun _ => ?_) (fun _ => ?_) | with_reducible assumption
    | ((conv in (State.mk ..) => skip); with_reducible apply keeps_upd)
    | (refine UpdOk.mk ?_; intro p; cases p <;> first | (apply Or.inl; apply hp.get; rfl) | exact Or.inr rfl)

theorem keeps_askPage {P : StatePart → Bool} {σ : State} (s : State) (t : Tensor) (off : Nat) (hσ : Keeps P σ s)
    (hp : covers P [.regs, .ports, .casc] := by exact hp.sub rfl) :
    Keeps P σ (State.askPage s t off) := by
  unfold State.askPage
  repeat' first
    | (with_reducible show covers P _; exact hp.sub rfl) | with_reducible assumption | with_reducible apply keeps_askTwin

theorem keeps_retainedLost {P : StatePart → Bool} {σ : State} (s : State) (hσ : Keeps P σ s)
    (hp : covers P [.regs, .slots, .beat, .units, .cores, .upd, .tier, .forager, .mods, .ports, .casc, .host, .test] := by exact hp.sub rfl) :
    Keeps P σ (State.retainedLost s) := by
  unfold State.retainedLost
  repeat' first
    | (with_reducible show covers P _; exact hp.sub rfl) | with_reducible assumption | with_reducible apply keeps_raise

theorem keeps_noteCorrected {P : StatePart → Bool} {σ : State} (s : State) (n die : Nat) (hσ : Keeps P σ s)
    (hp : covers P [.tier] := by exact hp.sub rfl) :
    Keeps P σ (State.noteCorrected s n die) := by
  unfold State.noteCorrected
  repeat' first
    | (intro x; clear_value x) | lift_lets | with_reducible assumption
    | ((conv in (State.mk ..) => skip); with_reducible apply keeps_upd)
    | (refine UpdOk.mk ?_; intro p; cases p <;> first | (apply Or.inl; apply hp.get; rfl) | exact Or.inr rfl)

theorem keeps_cwCorrected {P : StatePart → Bool} {σ : State} (s : State) (c : ErrCtx) (n die : Nat) (hσ : Keeps P σ s)
    (hp : covers P [.regs, .slots, .beat, .units, .cores, .upd, .tier, .forager, .mods, .ports, .casc, .host, .test] := by exact hp.sub rfl) :
    Keeps P σ (State.cwCorrected s c n die) := by
  unfold State.cwCorrected
  repeat' first
    | (with_reducible show covers P _; exact hp.sub rfl)
    | (intro (x : State); refine (fun (hx : Keeps P σ x) => ?_) ?_; (on_goal 1 => clear_value x); (on_goal 2 => dsimp only [x]))
    | lift_lets | with_reducible refine keeps_ite (fun _ => ?_) (fun _ => ?_) | with_reducible assumption
    | with_reducible apply keeps_bumpSat | with_reducible apply keeps_fenceLater | with_reducible apply keeps_noteCorrected
    | with_reducible apply keeps_raise

theorem keeps_cwBad {P : StatePart → Bool} {σ : State} (s : State) (c : ErrCtx) (n cw : Nat) (scrub : Bool) (hσ : Keeps P σ s)
    (hp : covers P [.regs, .slots, .beat, .units, .cores, .upd, .tier, .forager, .mods, .ports, .casc, .host, .test] := by exact hp.sub rfl) :
    Keeps P σ (State.cwBad s c n cw scrub) := by
  unfold State.cwBad
  repeat' first
    | (with_reducible show covers P _; exact hp.sub rfl)
    | (intro (x : State); refine (fun (hx : Keeps P σ x) => ?_) ?_; (on_goal 1 => clear_value x); (on_goal 2 => dsimp only [x]))
    | (intro x; clear_value x) | lift_lets | with_reducible refine keeps_ite (fun _ => ?_) (fun _ => ?_)
    | with_reducible assumption | with_reducible apply keeps_list | with_reducible apply keeps_pileGone
    | with_reducible apply keeps_raise | with_reducible apply keeps_setBit | with_reducible apply keeps_setReg
    | ((conv in (State.mk ..) => skip); with_reducible apply keeps_upd)
    | (refine UpdOk.mk ?_; intro p; cases p <;> first | (apply Or.inl; apply hp.get; rfl) | exact Or.inr rfl)

theorem keeps_listedBad {P : StatePart → Bool} {σ : State} (s : State) (c : ErrCtx) (k : CwKey) (dev : Nat) (u : UnitCode) (hσ : Keeps P σ s)
    (hp : covers P [.regs, .slots, .beat, .units, .cores, .upd, .tier, .forager, .mods, .ports, .casc, .host, .test] := by exact hp.sub rfl) :
    Keeps P σ (State.listedBad s c k dev u) := by
  unfold State.listedBad
  repeat' first
    | (with_reducible show covers P _; exact hp.sub rfl) | with_reducible refine keeps_ite (fun _ => ?_) (fun _ => ?_)
    | with_reducible assumption | with_reducible apply keeps_askPage | with_reducible apply keeps_raise
    | with_reducible apply keeps_retainedLost | with_reducible apply keeps_unlist | split

theorem keeps_readCw {P : StatePart → Bool} {σ : State} (s : State) (c : ErrCtx) (n cw : Nat) (errs : List (Nat × Nat × Nat)) (hσ : Keeps P σ s)
    (hp : covers P [.regs, .slots, .beat, .units, .cores, .upd, .tier, .forager, .mods, .ports, .casc, .host, .test] := by exact hp.sub rfl) :
    Keeps P σ (State.readCw s c n cw errs) := by
  unfold State.readCw
  repeat' first
    | (with_reducible show covers P _; exact hp.sub rfl) | (intro x; clear_value x) | lift_lets
    | with_reducible refine keeps_ite (fun _ => ?_) (fun _ => ?_) | with_reducible assumption | with_reducible apply keeps_cwBad
    | with_reducible apply keeps_cwCorrected | with_reducible apply keeps_listedBad | with_reducible apply keeps_unlist | split

theorem keeps_combBad {P : StatePart → Bool} {σ : State} (s : State) (c : ErrCtx) (d off : Nat) (hσ : Keeps P σ s)
    (hp : covers P [.regs, .slots, .beat, .units, .cores, .upd, .tier, .forager, .mods, .ports, .casc, .host, .test] := by exact hp.sub rfl) :
    Keeps P σ (State.combBad s c d off) := by
  unfold State.combBad
  repeat' first
    | (with_reducible show covers P _; exact hp.sub rfl) | (intro x; clear_value x) | lift_lets
    | with_reducible refine keeps_ite (fun _ => ?_) (fun _ => ?_) | with_reducible assumption | with_reducible apply keeps_list
    | with_reducible apply keeps_listedBad | with_reducible apply keeps_raise

theorem keeps_edramBad {P : StatePart → Bool} {σ : State} (s : State) (c : ErrCtx) (n line : Nat) (hσ : Keeps P σ s)
    (hp : covers P [.regs, .slots, .beat, .units, .cores, .upd, .tier, .forager, .mods, .ports, .casc, .host, .test] := by exact hp.sub rfl) :
    Keeps P σ (State.edramBad s c n line) := by
  unfold State.edramBad
  repeat' first
    | (with_reducible show covers P _; exact hp.sub rfl)
    | (intro (x : State); refine (fun (hx : Keeps P σ x) => ?_) ?_; (on_goal 1 => clear_value x); (on_goal 2 => dsimp only [x]))
    | (intro x; clear_value x) | lift_lets | with_reducible refine keeps_ite (fun _ => ?_) (fun _ => ?_)
    | with_reducible assumption | with_reducible apply keeps_askPage | with_reducible apply keeps_raise
    | with_reducible apply keeps_setBit | split | ((conv in (State.mk ..) => skip); with_reducible apply keeps_upd)
    | (refine UpdOk.mk ?_; intro p; cases p <;> first | (apply Or.inl; apply hp.get; rfl) | exact Or.inr rfl)

theorem keeps_noteUe {P : StatePart → Bool} {σ : State} (s : State) (p off : Nat) (hσ : Keeps P σ s)
    (hp : covers P [.regs] := by exact hp.sub rfl) :
    Keeps P σ (State.noteUe s p off) := by
  unfold State.noteUe
  repeat' first
    | (with_reducible show covers P _; exact hp.sub rfl) | with_reducible assumption | with_reducible apply keeps_setBit
    | with_reducible apply keeps_setFld

theorem keeps_wgaFallback {P : StatePart → Bool} {σ : State} (s : State) (c : ErrCtx) (l : Nat) (hσ : Keeps P σ s)
    (hp : covers P [.regs, .slots, .beat, .units, .cores, .upd, .tier, .forager, .mods, .ports, .casc, .host, .test] := by exact hp.sub rfl) :
    Keeps P σ (State.wgaFallback s c l) := by
  unfold State.wgaFallback
  repeat' first
    | (with_reducible show covers P _; exact hp.sub rfl) | with_reducible refine keeps_ite (fun _ => ?_) (fun _ => ?_)
    | with_reducible assumption | with_reducible apply keeps_raise | with_reducible apply keeps_setBit

theorem keeps_wgaSramBad {P : StatePart → Bool} {σ : State} (s : State) (c : ErrCtx) (l t off : Nat) (hσ : Keeps P σ s)
    (hp : covers P [.regs, .slots, .beat, .units, .cores, .upd, .tier, .forager, .mods, .ports, .casc, .host, .test] := by exact hp.sub rfl) :
    Keeps P σ (State.wgaSramBad s c l t off) := by
  unfold State.wgaSramBad
  repeat' first
    | (with_reducible show covers P _; exact hp.sub rfl)
    | (intro (x : State); refine (fun (hx : Keeps P σ x) => ?_) ?_; (on_goal 1 => clear_value x); (on_goal 2 => dsimp only [x]))
    | (intro x; clear_value x) | lift_lets | with_reducible refine keeps_ite (fun _ => ?_) (fun _ => ?_)
    | with_reducible assumption | with_reducible apply keeps_noteUe | with_reducible apply keeps_retainedLost
    | with_reducible apply keeps_setWga | with_reducible apply keeps_showWga | with_reducible apply keeps_wgaFallback

theorem keeps_wgaCombBad {P : StatePart → Bool} {σ : State} (s : State) (c : ErrCtx) (l t : Nat) (hσ : Keeps P σ s)
    (hp : covers P [.regs, .slots, .beat, .units, .cores, .upd, .tier, .forager, .mods, .ports, .casc, .host, .test] := by exact hp.sub rfl) :
    Keeps P σ (State.wgaCombBad s c l t) := by
  unfold State.wgaCombBad
  repeat' first
    | (with_reducible show covers P _; exact hp.sub rfl) | (intro x; clear_value x) | lift_lets
    | with_reducible refine keeps_ite (fun _ => ?_) (fun _ => ?_) | with_reducible assumption
    | with_reducible apply keeps_retainedLost | with_reducible apply keeps_setWga | with_reducible apply keeps_wgaFallback

theorem keeps_wgaWorkBad {P : StatePart → Bool} {σ : State} (s : State) (c : ErrCtx) (l t off : Nat) (hσ : Keeps P σ s)
    (hp : covers P [.regs, .slots, .beat, .units, .cores, .upd, .tier, .forager, .mods, .ports, .casc, .host, .test] := by exact hp.sub rfl) :
    Keeps P σ (State.wgaWorkBad s c l t off) := by
  unfold State.wgaWorkBad
  repeat' first
    | (with_reducible show covers P _; exact hp.sub rfl)
    | (intro (x : State); refine (fun (hx : Keeps P σ x) => ?_) ?_; (on_goal 1 => clear_value x); (on_goal 2 => dsimp only [x]))
    | lift_lets | with_reducible refine keeps_ite (fun _ => ?_) (fun _ => ?_) | with_reducible assumption
    | with_reducible apply keeps_noteUe | with_reducible apply keeps_raise

theorem keeps_hwErr {P : StatePart → Bool} {σ : State} (s : State) (c : ErrCtx) (l : Nat) (e : HwErr) (hσ : Keeps P σ s)
    (hp : covers P [.regs, .slots, .beat, .units, .cores, .upd, .tier, .forager, .mods, .ports, .casc, .host, .test] := by exact hp.sub rfl) :
    Keeps P σ (State.hwErr s c l e) := by
  unfold State.hwErr
  repeat' first
    | (with_reducible show covers P _; exact hp.sub rfl) | with_reducible refine keeps_ite (fun _ => ?_) (fun _ => ?_)
    | with_reducible assumption | with_reducible apply keeps_bumpSat | with_reducible apply keeps_combBad
    | with_reducible apply keeps_edramBad | with_reducible apply keeps_forgCode | with_reducible apply keeps_noteUe
    | with_reducible apply keeps_pileGone | with_reducible apply keeps_raise | with_reducible apply keeps_readCw
    | with_reducible apply keeps_retainedLost | with_reducible apply keeps_setBit | with_reducible apply keeps_updCode
    | with_reducible apply keeps_wgaCombBad | with_reducible apply keeps_wgaSramBad | with_reducible apply keeps_wgaWorkBad
    | split

theorem keeps_hwErrors {P : StatePart → Bool} {σ : State} (s : State) (c : ErrCtx) (l : Nat) (es : List HwErr) (hσ : Keeps P σ s)
    (hp : covers P [.regs, .slots, .beat, .units, .cores, .upd, .tier, .forager, .mods, .ports, .casc, .host, .test] := by exact hp.sub rfl) :
    Keeps P σ (State.hwErrors s c l es) := by
  unfold State.hwErrors
  repeat' first
    | (with_reducible show covers P _; exact hp.sub rfl) | with_reducible assumption | with_reducible apply keeps_hwErr
    | with_reducible refine keeps_foldl (fun _ _ σ _ => ?_) ?_

/-! ### Regs -/

theorem keeps_setLatch {P : StatePart → Bool} {σ : State} (s : State) (r : Req) (lo : Nat) (hi : Word) (hσ : Keeps P σ s)
    (hp : covers P [.latches] := by exact hp.sub rfl) :
    Keeps P σ (State.setLatch s r lo hi) := by
  unfold State.setLatch
  repeat' first
    | with_reducible assumption | ((conv in (State.mk ..) => skip); with_reducible apply keeps_upd)
    | (refine UpdOk.mk ?_; intro p; cases p <;> first | (apply Or.inl; apply hp.get; rfl) | exact Or.inr rfl)

theorem keeps_readWord {P : StatePart → Bool} {σ : State} (s : State) (r : Req) (off : Nat) (hσ : Keeps P σ s)
    (hp : covers P [.regs, .latches] := by exact hp.sub rfl) :
    Keeps P σ (State.readWord s r off).2 := by
  unfold State.readWord
  repeat' first
    | (with_reducible show covers P _; exact hp.sub rfl) | (intro x; clear_value x) | lift_lets | with_reducible assumption
    | with_reducible apply keeps_setLatch | with_reducible apply keeps_setReg | split

theorem keeps_noteDomain {P : StatePart → Bool} {σ : State} (s : State) (d : Nat) (hσ : Keeps P σ s)
    (hp : covers P [.regs] := by exact hp.sub rfl) :
    Keeps P σ (State.noteDomain s d) := by
  unfold State.noteDomain
  repeat' first
    | (with_reducible show covers P _; exact hp.sub rfl) | with_reducible refine keeps_ite (fun _ => ?_) (fun _ => ?_)
    | with_reducible assumption | with_reducible apply keeps_setFld

theorem keeps_crossTimeout {P : StatePart → Bool} {σ : State} (s : State) (d : Nat) (hσ : Keeps P σ s)
    (hp : covers P [.regs, .slots, .beat, .units, .cores, .upd, .tier, .forager, .mods, .ports, .casc, .host, .test] := by exact hp.sub rfl) :
    Keeps P σ (State.crossTimeout s d) := by
  unfold State.crossTimeout
  repeat' first
    | (with_reducible show covers P _; exact hp.sub rfl) | with_reducible assumption | with_reducible apply keeps_noteDomain
    | with_reducible apply keeps_raise | with_reducible apply keeps_setBit

theorem keeps_applyRcRead {P : StatePart → Bool} {σ : State} (r : Req) (off : Nat) (s : State) (hσ : Keeps P σ s)
    (hp : covers P [.regs, .latches, .slots, .beat, .units, .cores, .upd, .tier, .forager, .mods, .ports, .casc, .host, .test] := by exact hp.sub rfl) :
    Keeps P σ (applyRcRead r off s) := by
  unfold applyRcRead
  repeat' first
    | (with_reducible show covers P _; exact hp.sub rfl)
    | (intro (x : _ × State); refine (fun (hx : Keeps P σ x.2) => ?_) ?_; (on_goal 1 => clear_value x); (on_goal 2 => dsimp only [x]))
    | lift_lets | with_reducible refine keeps_ite (fun _ => ?_) (fun _ => ?_) | with_reducible assumption
    | with_reducible apply keeps_crossTimeout | with_reducible apply keeps_emit | with_reducible apply keeps_readWord

theorem keeps_applyLoRead {P : StatePart → Bool} {σ : State} (r : Req) (off : Nat) (two : Bool) (s : State) (hσ : Keeps P σ s)
    (hp : covers P [.regs, .latches, .slots, .beat, .units, .cores, .upd, .tier, .forager, .mods, .ports, .casc, .host, .test] := by exact hp.sub rfl) :
    Keeps P σ (applyLoRead r off two s) := by
  unfold applyLoRead
  repeat' first
    | (with_reducible show covers P _; exact hp.sub rfl)
    | (intro (x : _ × State); refine (fun (hx : Keeps P σ x.2) => ?_) ?_; (on_goal 1 => clear_value x); (on_goal 2 => dsimp only [x]))
    | lift_lets | with_reducible refine keeps_ite (fun _ => ?_) (fun _ => ?_) | with_reducible assumption
    | with_reducible apply keeps_crossTimeout | with_reducible apply keeps_emit | with_reducible apply keeps_readWord

theorem keeps_setPage {P : StatePart → Bool} {σ : State} (s : State) (p : AddrPair) (v : Option Nat) (hσ : Keeps P σ s)
    (hp : covers P [.host] := by exact hp.sub rfl) :
    Keeps P σ (State.setPage s p v) := by
  unfold State.setPage
  repeat' first
    | with_reducible assumption | split | ((conv in (State.mk ..) => skip); with_reducible apply keeps_upd)
    | (refine UpdOk.mk ?_; intro p; cases p <;> first | (apply Or.inl; apply hp.get; rfl) | exact Or.inr rfl)

theorem keeps_writeAddrLo {P : StatePart → Bool} {σ : State} (s : State) (p : AddrPair) (v : Word) (hσ : Keeps P σ s)
    (hp : covers P [.regs, .host] := by exact hp.sub rfl) :
    Keeps P σ (State.writeAddrLo s p v) := by
  unfold State.writeAddrLo
  repeat' first
    | (with_reducible show covers P _; exact hp.sub rfl)
    | (intro (x : State); refine (fun (hx : Keeps P σ x) => ?_) ?_; (on_goal 1 => clear_value x); (on_goal 2 => dsimp only [x]))
    | lift_lets | with_reducible assumption | with_reducible apply keeps_setPage | with_reducible apply keeps_setReg

theorem keeps_applyMailboxAddrValid {P : StatePart → Bool} {σ : State} (p : AddrPair) (v : Word) (s : State) (hσ : Keeps P σ s)
    (hp : covers P [.regs, .host] := by exact hp.sub rfl) :
    Keeps P σ (applyMailboxAddrValid p v s) := by
  unfold applyMailboxAddrValid
  repeat' first
    | (with_reducible show covers P _; exact hp.sub rfl) | with_reducible refine keeps_ite (fun _ => ?_) (fun _ => ?_)
    | with_reducible assumption | with_reducible apply keeps_writeAddrLo

theorem keeps_afterFingWrite {P : StatePart → Bool} {σ : State} (s : State) (v : Word) (hσ : Keeps P σ s)
    (hp : covers P [.regs, .beat] := by exact hp.sub rfl) :
    Keeps P σ (State.afterFingWrite s v) := by
  unfold State.afterFingWrite
  repeat' first
    | (with_reducible show covers P _; exact hp.sub rfl) | with_reducible refine keeps_ite (fun _ => ?_) (fun _ => ?_)
    | with_reducible assumption | with_reducible apply keeps_logEntry | with_reducible apply keeps_msixBoth
    | with_reducible apply keeps_setFld

theorem keeps_afterEszCmdWrite {P : StatePart → Bool} {σ : State} (s : State) (v : Word) (hσ : Keeps P σ s)
    (hp : covers P [.regs, .beat, .esz] := by exact hp.sub rfl) :
    Keeps P σ (State.afterEszCmdWrite s v) := by
  unfold State.afterEszCmdWrite
  dsimp only
  exact keeps_ite (fun _ => hσ) (fun _ => keeps_logEntry _ _ (keeps_setBit _ _ _ _ (keeps_setBit _ _ _ _ (keeps_esz hσ))))

theorem keeps_afterWrite {P : StatePart → Bool} {σ : State} (s : State) (r : Req) (off : Nat) (old v : Word) (hσ : Keeps P σ s)
    (hp : covers P [.regs, .beat, .host, .esz] := by exact hp.sub rfl) :
    Keeps P σ (State.afterWrite s r off old v) := by
  unfold State.afterWrite
  refine keeps_ite (fun _ => keeps_afterFingWrite _ _ hσ) (fun _ => ?_)
  refine keeps_ite (fun _ => keeps_ite (fun _ => keeps_setBit _ _ _ _ hσ) (fun _ => hσ)) (fun _ => ?_)
  refine keeps_ite (fun _ => keeps_setFld _ _ _ _ _ hσ) (fun _ => ?_)
  refine keeps_ite (fun _ => keeps_setFld _ _ _ _ _ hσ) (fun _ => ?_)
  refine keeps_ite (fun _ => keeps_writeAddrLo _ _ _ hσ) (fun _ => ?_)
  refine keeps_ite (fun _ => keeps_writeAddrLo _ _ _ hσ) (fun _ => ?_)
  refine keeps_ite (fun _ => keeps_writeAddrLo _ _ _ hσ) (fun _ => ?_)
  refine keeps_ite (fun _ => keeps_writeAddrLo _ _ _ hσ) (fun _ => ?_)
  refine keeps_ite (fun _ => keeps_afterEszCmdWrite _ _ hσ) (fun _ => ?_)
  refine keeps_ite (fun _ => keeps_ite (fun _ => keeps_setFld _ _ _ _ _ hσ) (fun _ => hσ)) (fun _ => ?_)
  dsimp only
  exact keeps_ite (fun _ => keeps_emit (keeps_setBit _ _ _ _ hσ) _) (fun _ => hσ)

theorem keeps_applyRegisterWrite {P : StatePart → Bool} {σ : State} (r : Req) (off : Nat) (v : Word) (s : State) (hσ : Keeps P σ s)
    (hp : covers P [.regs, .beat, .host, .esz] := by exact hp.sub rfl) :
    Keeps P σ (applyRegisterWrite r off v s) := by
  unfold applyRegisterWrite
  repeat' first
    | (with_reducible show covers P _; exact hp.sub rfl) | (intro x; clear_value x) | lift_lets
    | with_reducible refine keeps_ite (fun _ => ?_) (fun _ => ?_) | with_reducible assumption
    | with_reducible apply keeps_afterWrite | with_reducible apply keeps_setReg | split

theorem keeps_applyBar0UnsupportedRequest {P : StatePart → Bool} {σ : State} (r : Req) (s : State) (hσ : Keeps P σ s)
    (hp : covers P [.regs, .beat] := by exact hp.sub rfl) :
    Keeps P σ (applyBar0UnsupportedRequest r s) := by
  unfold applyBar0UnsupportedRequest
  repeat' first
    | (with_reducible show covers P _; exact hp.sub rfl) | with_reducible assumption | with_reducible apply keeps_emit
    | with_reducible apply keeps_logEntry | split

theorem keeps_applyMarginRst {P : StatePart → Bool} {σ : State} (s : State) (hσ : Keeps P σ s)
    (hp : covers P [.regs] := by exact hp.sub rfl) :
    Keeps P σ (applyMarginRst s) := by
  unfold applyMarginRst
  repeat' first
    | (with_reducible show covers P _; exact hp.sub rfl) | with_reducible refine keeps_ite (fun _ => ?_) (fun _ => ?_)
    | with_reducible assumption | with_reducible apply keeps_setReg

theorem keeps_applyRdcEn {P : StatePart → Bool} {σ : State} (hub : Nat) (en : Bool) (s : State) (hσ : Keeps P σ s)
    (hp : covers P [.regs, .tier] := by exact hp.sub rfl) :
    Keeps P σ (applyRdcEn hub en s) := by
  unfold applyRdcEn
  repeat' first
    | (with_reducible show covers P _; exact hp.sub rfl)
    | (intro (x : State); refine (fun (hx : Keeps P σ x) => ?_) ?_; (on_goal 1 => clear_value x); (on_goal 2 => dsimp only [x]))
    | split | lift_lets | with_reducible assumption | with_reducible apply keeps_applyRdcEn_state
    | with_reducible apply keeps_setBit

theorem keeps_applyInvAll {P : StatePart → Bool} {σ : State} (hub : Nat) (s : State) (hσ : Keeps P σ s)
    (hp : covers P [.tier] := by exact hp.sub rfl) :
    Keeps P σ (applyInvAll hub s) := by
  unfold applyInvAll
  repeat' first
    | with_reducible refine keeps_ite (fun _ => ?_) (fun _ => ?_) | with_reducible assumption
    | ((conv in (State.mk ..) => skip); with_reducible apply keeps_upd)
    | (refine UpdOk.mk ?_; intro p; cases p <;> first | (apply Or.inl; apply hp.get; rfl) | exact Or.inr rfl)

theorem keeps_applyChunkRst {P : StatePart → Bool} {σ : State} (pile : Nat) (s : State) (hσ : Keeps P σ s)
    (hp : covers P [.regs] := by exact hp.sub rfl) :
    Keeps P σ (applyChunkRst pile s) := by
  unfold applyChunkRst
  repeat' first
    | (with_reducible show covers P _; exact hp.sub rfl) | with_reducible refine keeps_ite (fun _ => ?_) (fun _ => ?_)
    | with_reducible assumption | with_reducible apply keeps_setPair

theorem keeps_applyCacheClr {P : StatePart → Bool} {σ : State} (s : State) (hσ : Keeps P σ s)
    (hp : covers P [.forager] := by exact hp.sub rfl) :
    Keeps P σ (applyCacheClr s) := by
  unfold applyCacheClr
  repeat' first
    | with_reducible refine keeps_ite (fun _ => ?_) (fun _ => ?_) | with_reducible assumption
    | ((conv in (State.mk ..) => skip); with_reducible apply keeps_upd)
    | (refine UpdOk.mk ?_; intro p; cases p <;> first | (apply Or.inl; apply hp.get; rfl) | exact Or.inr rfl)

theorem keeps_applyCtrl {P : StatePart → Bool} {σ : State} (via : Req) (target : HPort) (s : State) (hσ : Keeps P σ s)
    (hp : covers P [.regs, .host] := by exact hp.sub rfl) :
    Keeps P σ (applyCtrl via target s) := by
  unfold applyCtrl
  repeat' first
    | (with_reducible show covers P _; exact hp.sub rfl) | with_reducible refine keeps_ite (fun _ => ?_) (fun _ => ?_)
    | with_reducible assumption | with_reducible apply keeps_setCtrl
    | ((conv in (State.mk ..) => skip); with_reducible apply keeps_upd)
    | (refine UpdOk.mk ?_; intro p; cases p <;> first | (apply Or.inl; apply hp.get; rfl) | exact Or.inr rfl)

theorem keeps_applyBiasApply {P : StatePart → Bool} {σ : State} (s : State) (hσ : Keeps P σ s)
    (hp : covers P [.regs, .host] := by exact hp.sub rfl) :
    Keeps P σ (applyBiasApply s) := by
  unfold applyBiasApply
  repeat' first
    | (with_reducible show covers P _; exact hp.sub rfl) | with_reducible refine keeps_ite (fun _ => ?_) (fun _ => ?_)
    | with_reducible assumption | with_reducible apply keeps_startFlips
    | ((conv in (State.mk ..) => skip); with_reducible apply keeps_upd)
    | (refine UpdOk.mk ?_; intro p; cases p <;> first | (apply Or.inl; apply hp.get; rfl) | exact Or.inr rfl)

theorem keeps_showBias {P : StatePart → Bool} {σ : State} (s : State) (hσ : Keeps P σ s)
    (hp : covers P [.regs] := by exact hp.sub rfl) :
    Keeps P σ (State.showBias s) := by
  unfold State.showBias
  repeat' first
    | (with_reducible show covers P _; exact hp.sub rfl) | (intro x; clear_value x) | lift_lets | with_reducible assumption
    | with_reducible apply keeps_setBit | with_reducible apply keeps_setFld

theorem keeps_cleanPage {P : StatePart → Bool} {σ : State} (s : State) (p : Nat) (hσ : Keeps P σ s)
    (hp : covers P [.tier] := by exact hp.sub rfl) :
    Keeps P σ (State.cleanPage s p) := by
  unfold State.cleanPage
  repeat' first
    | (intro x; clear_value x) | lift_lets | with_reducible refine keeps_ite (fun _ => ?_) (fun _ => ?_)
    | with_reducible assumption | ((conv in (State.mk ..) => skip); with_reducible apply keeps_upd)
    | (refine UpdOk.mk ?_; intro p; cases p <;> first | (apply Or.inl; apply hp.get; rfl) | exact Or.inr rfl)

theorem keeps_flipValue {P : StatePart → Bool} {σ : State} (s : State) (page : Nat) (want : Bool) (hσ : Keeps P σ s) :
    Keeps P σ (State.flipValue s page want).2 := by
  unfold State.flipValue
  repeat' first
    | (intro (x : _ × State); refine (fun (hx : Keeps P σ x.2) => ?_) ?_; (on_goal 1 => clear_value x); (on_goal 2 => dsimp only [x]))
    | lift_lets | with_reducible assumption | with_reducible apply keeps_draw | split

theorem keeps_applyBiasFlipComplete {P : StatePart → Bool} {σ : State} (page : Nat) (s : State) (hσ : Keeps P σ s)
    (hp : covers P [.regs, .tier, .host] := by exact hp.sub rfl) :
    Keeps P σ (applyBiasFlipComplete page s) := by
  unfold applyBiasFlipComplete
  repeat' first
    | (with_reducible show covers P _; exact hp.sub rfl)
    | (intro (x : State); refine (fun (hx : Keeps P σ x) => ?_) ?_; (on_goal 1 => clear_value x); (on_goal 2 => dsimp only [x]))
    | (intro (x : _ × State); refine (fun (hx : Keeps P σ x.2) => ?_) ?_; (on_goal 1 => clear_value x); (on_goal 2 => dsimp only [x]))
    | (intro x; clear_value x) | split | lift_lets | with_reducible assumption | with_reducible apply keeps_cleanPage
    | with_reducible apply keeps_flipValue | with_reducible apply keeps_setBit | with_reducible apply keeps_showBias
    | ((conv in (State.mk ..) => skip); with_reducible apply keeps_upd)
    | (refine UpdOk.mk ?_; intro p; cases p <;> first | (apply Or.inl; apply hp.get; rfl) | exact Or.inr rfl)

theorem keeps_applyHoldReq {P : StatePart → Bool} {σ : State} (s : State) (hσ : Keeps P σ s)
    (hp : covers P [.regs, .tier] := by exact hp.sub rfl) :
    Keeps P σ (applyHoldReq s) := by
  unfold applyHoldReq
  repeat' first
    | (with_reducible show covers P _; exact hp.sub rfl) | with_reducible refine keeps_ite (fun _ => ?_) (fun _ => ?_)
    | with_reducible assumption | with_reducible apply keeps_enterHold

theorem keeps_applyPwrCapWrite {P : StatePart → Bool} {σ : State} (v : Word) (s : State) (hσ : Keeps P σ s)
    (hp : covers P [.regs] := by exact hp.sub rfl) :
    Keeps P σ (applyPwrCapWrite v s) := by
  unfold applyPwrCapWrite
  repeat' first
    | (with_reducible show covers P _; exact hp.sub rfl) | with_reducible assumption | with_reducible apply keeps_setFld

theorem keeps_applyTestCtlWrite {P : StatePart → Bool} {σ : State} (v : Word) (s : State) (hσ : Keeps P σ s)
    (hp : covers P [.regs, .test] := by exact hp.sub rfl) :
    Keeps P σ (applyTestCtlWrite v s) := by
  unfold applyTestCtlWrite
  repeat' first
    | (with_reducible show covers P _; exact hp.sub rfl)
    | (intro (x : State); refine (fun (hx : Keeps P σ x) => ?_) ?_; (on_goal 1 => clear_value x); (on_goal 2 => dsimp only [x]))
    | (intro x; clear_value x) | lift_lets | with_reducible refine keeps_ite (fun _ => ?_) (fun _ => ?_)
    | with_reducible assumption | with_reducible apply keeps_setReg
    | ((conv in (State.mk ..) => skip); with_reducible apply keeps_upd)
    | (refine UpdOk.mk ?_; intro p; cases p <;> first | (apply Or.inl; apply hp.get; rfl) | exact Or.inr rfl)

/-! ### Bus -/

theorem keeps_busErrors {P : StatePart → Bool} {σ : State} (s : State) (a : Nat) (errs : List HwErr) (hσ : Keeps P σ s)
    (hp : covers P [.regs, .slots, .beat, .units, .cores, .upd, .tier, .forager, .mods, .ports, .casc, .host, .test] := by exact hp.sub rfl) :
    Keeps P σ (State.busErrors s a errs) := by
  unfold State.busErrors
  repeat' first
    | (with_reducible show covers P _; exact hp.sub rfl) | (intro x; clear_value x) | lift_lets | with_reducible assumption
    | with_reducible apply keeps_hwErrors

theorem keeps_busAccess {P : StatePart → Bool} {σ : State} (s : State) (ag : Agent) (p : HPort) (base : Nat) (acc : Access) (errs : List HwErr) (hσ : Keeps P σ s)
    (hp : covers P [.regs, .memory, .slots, .beat, .units, .cores, .upd, .tier, .forager, .mods, .ports, .casc, .host, .test] := by exact hp.sub rfl) :
    Keeps P σ (State.busAccess s ag p base acc errs) := by
  unfold State.busAccess
  repeat' first
    | (with_reducible show covers P _; exact hp.sub rfl)
    | (intro (x : State); refine (fun (hx : Keeps P σ x) => ?_) ?_; (on_goal 1 => clear_value x); (on_goal 2 => dsimp only [x]))
    | (intro (x : _ × State); refine (fun (hx : Keeps P σ x.2) => ?_) ?_; (on_goal 1 => clear_value x); (on_goal 2 => dsimp only [x]))
    | lift_lets | with_reducible refine keeps_ite (fun _ => ?_) (fun _ => ?_) | with_reducible assumption
    | with_reducible apply keeps_busErrors | with_reducible apply keeps_emit | with_reducible apply keeps_fetch
    | with_reducible apply keeps_leaveHold | with_reducible apply keeps_raise | with_reducible apply keeps_store | split

theorem keeps_applyBar2Access {P : StatePart → Bool} {σ : State} (p : HPort) (src : BusSource) (acc : Access) (errs : List HwErr) (s : State) (hσ : Keeps P σ s)
    (hp : covers P [.regs, .memory, .slots, .beat, .units, .cores, .upd, .tier, .forager, .mods, .ports, .casc, .host, .test] := by exact hp.sub rfl) :
    Keeps P σ (applyBar2Access p src acc errs s) := by
  unfold applyBar2Access
  repeat' first
    | (with_reducible show covers P _; exact hp.sub rfl) | with_reducible refine keeps_ite (fun _ => ?_) (fun _ => ?_)
    | with_reducible assumption | with_reducible apply keeps_busAccess

theorem keeps_applyCxlMemAccess {P : StatePart → Bool} {σ : State} (p : HPort) (acc : Access) (errs : List HwErr) (s : State) (hσ : Keeps P σ s)
    (hp : covers P [.regs, .memory, .slots, .beat, .units, .cores, .upd, .tier, .forager, .mods, .ports, .casc, .host, .test] := by exact hp.sub rfl) :
    Keeps P σ (applyCxlMemAccess p acc errs s) := by
  unfold applyCxlMemAccess
  repeat' first
    | (with_reducible show covers P _; exact hp.sub rfl) | with_reducible refine keeps_ite (fun _ => ?_) (fun _ => ?_)
    | with_reducible assumption | with_reducible apply keeps_busAccess | split

/-! ### Cores -/

theorem keeps_setRun {P : StatePart → Bool} {σ : State} (s : State) (u : UnitId) (r : RunSlot) (hσ : Keeps P σ s)
    (hp : covers P [.units] := by exact hp.sub rfl) :
    Keeps P σ (State.setRun s u r) := by
  unfold State.setRun
  repeat' first
    | (with_reducible show covers P _; exact hp.sub rfl) | with_reducible refine keeps_ite (fun _ => ?_) (fun _ => ?_)
    | with_reducible assumption | with_reducible apply keeps_setUnit

theorem keeps_endRunOf {P : StatePart → Bool} {σ : State} (s : State) (u : UnitId) (r : RunSlot) (hσ : Keeps P σ s)
    (hp : covers P [.units] := by exact hp.sub rfl) :
    Keeps P σ (State.endRunOf s u r) := by
  unfold State.endRunOf
  repeat' first
    | (with_reducible show covers P _; exact hp.sub rfl) | with_reducible assumption | with_reducible apply keeps_setRun

theorem keeps_progFault {P : StatePart → Bool} {σ : State} (s : State) (c : ErrCtx) (hσ : Keeps P σ s)
    (hp : covers P [.regs, .slots, .beat, .units, .cores, .upd, .tier, .forager, .mods, .ports, .casc, .host, .test] := by exact hp.sub rfl) :
    Keeps P σ (State.progFault s c) := by
  unfold State.progFault
  repeat' first
    | (with_reducible show covers P _; exact hp.sub rfl) | with_reducible assumption | with_reducible apply keeps_raise
    | with_reducible apply keeps_setBit

theorem keeps_setCounter {P : StatePart → Bool} {σ : State} (s : State) (l c v : Nat) (hσ : Keeps P σ s)
    (hp : covers P [.cores] := by exact hp.sub rfl) :
    Keeps P σ (State.setCounter s l c v) := by
  unfold State.setCounter
  repeat' first
    | with_reducible assumption | ((conv in (State.mk ..) => skip); with_reducible apply keeps_upd)
    | (refine UpdOk.mk ?_; intro p; cases p <;> first | (apply Or.inl; apply hp.get; rfl) | exact Or.inr rfl)

theorem keeps_countSignal {P : StatePart → Bool} {σ : State} (s : State) (ctx : ErrCtx) (dst c : Nat) (hσ : Keeps P σ s)
    (hp : covers P [.regs, .slots, .beat, .units, .cores, .upd, .tier, .forager, .mods, .ports, .casc, .host, .test] := by exact hp.sub rfl) :
    Keeps P σ (State.countSignal s ctx dst c) := by
  unfold State.countSignal
  repeat' first
    | (with_reducible show covers P _; exact hp.sub rfl) | with_reducible refine keeps_ite (fun _ => ?_) (fun _ => ?_)
    | with_reducible assumption | with_reducible apply keeps_progFault | with_reducible apply keeps_setCounter

theorem keeps_sendSignal {P : StatePart → Bool} {σ : State} (s : State) (ctx : ErrCtx) (src dst c : Nat) (hσ : Keeps P σ s)
    (hp : covers P [.regs, .slots, .beat, .units, .cores, .upd, .tier, .forager, .mods, .ports, .casc, .host, .test] := by exact hp.sub rfl) :
    Keeps P σ (State.sendSignal s ctx src dst c) := by
  unfold State.sendSignal
  repeat' first
    | (with_reducible show covers P _; exact hp.sub rfl) | with_reducible refine keeps_ite (fun _ => ?_) (fun _ => ?_)
    | with_reducible assumption | with_reducible apply keeps_countSignal
    | ((conv in (State.mk ..) => skip); with_reducible apply keeps_upd)
    | (refine UpdOk.mk ?_; intro p; cases p <;> first | (apply Or.inl; apply hp.get; rfl) | exact Or.inr rfl)

theorem keeps_tryWait {P : StatePart → Bool} {σ : State} (s : State) (u : UnitId) (r : RunSlot) (c : Nat) (hσ : Keeps P σ s) {t : State} {r' : RunSlot}
    (h : s.tryWait u r c = some (t, r'))
    (hp : covers P [.units, .cores] := by exact hp.sub rfl) : Keeps P σ t := by
  unfold State.tryWait at h
  split at h
  · cases h; exact keeps_setRun _ _ _ hσ
  · split at h
    · cases h; exact keeps_setRun _ _ _ (keeps_setCounter _ _ _ _ hσ)
    · cases h

theorem keeps_standWait {P : StatePart → Bool} {σ : State} (s : State) (u : UnitId) (r : RunSlot) (c : Nat) (hσ : Keeps P σ s)
    (hp : covers P [.units] := by exact hp.sub rfl) :
    Keeps P σ (State.standWait s u r c) := by
  unfold State.standWait
  repeat' first
    | (with_reducible show covers P _; exact hp.sub rfl) | with_reducible assumption | with_reducible apply keeps_setRun

theorem keeps_applySignalArrival {P : StatePart → Bool} {σ : State} (src dst c : Nat) (s : State) (hσ : Keeps P σ s)
    (hp : covers P [.regs, .slots, .beat, .units, .cores, .upd, .tier, .forager, .mods, .ports, .casc, .host, .test] := by exact hp.sub rfl) :
    Keeps P σ (applySignalArrival src dst c s) := by
  unfold applySignalArrival
  repeat' first
    | (with_reducible show covers P _; exact hp.sub rfl)
    | (intro (x : State); refine (fun (hx : Keeps P σ x) => ?_) ?_; (on_goal 1 => clear_value x); (on_goal 2 => dsimp only [x]))
    | (intro x; clear_value x) | lift_lets | with_reducible refine keeps_ite (fun _ => ?_) (fun _ => ?_)
    | with_reducible assumption | with_reducible apply keeps_countSignal
    | ((conv in (State.mk ..) => skip); with_reducible apply keeps_upd)
    | (refine UpdOk.mk ?_; intro p; cases p <;> first | (apply Or.inl; apply hp.get; rfl) | exact Or.inr rfl)

theorem keeps_applyWaitSatisfied {P : StatePart → Bool} {σ : State} (u : UnitId) (s : State) (hσ : Keeps P σ s)
    (hp : covers P [.units, .cores] := by exact hp.sub rfl) :
    Keeps P σ (applyWaitSatisfied u s) := by
  unfold applyWaitSatisfied
  repeat' first
    | (with_reducible show covers P _; exact hp.sub rfl)
    | (intro (x : State); refine (fun (hx : Keeps P σ x) => ?_) ?_; (on_goal 1 => clear_value x); (on_goal 2 => dsimp only [x]))
    | lift_lets | with_reducible refine keeps_ite (fun _ => ?_) (fun _ => ?_) | with_reducible assumption
    | with_reducible apply keeps_setCounter | with_reducible apply keeps_setRun | split

theorem keeps_holdWga {P : StatePart → Bool} {σ : State} (s : State) (c : ErrCtx) (l : Nat) (hσ : Keeps P σ s)
    (hp : covers P [.regs, .slots, .beat, .units, .cores, .upd, .tier, .forager, .mods, .ports, .casc, .host, .test] := by exact hp.sub rfl) :
    Keeps P σ (State.holdWga s c l) := by
  unfold State.holdWga
  repeat' first
    | (with_reducible show covers P _; exact hp.sub rfl) | with_reducible refine keeps_ite (fun _ => ?_) (fun _ => ?_)
    | with_reducible assumption | with_reducible apply keeps_raiseBeat | with_reducible apply keeps_setBit

theorem keeps_wgaPut {P : StatePart → Bool} {σ : State} (s : State) (l bank t e : Nat) (v : Word) (hσ : Keeps P σ s)
    (hp : covers P [.memory] := by exact hp.sub rfl) :
    Keeps P σ (State.wgaPut s l bank t e v) := by
  unfold State.wgaPut
  repeat' first
    | (with_reducible show covers P _; exact hp.sub rfl)
    | (intro (x : State); refine (fun (hx : Keeps P σ x) => ?_) ?_; (on_goal 1 => clear_value x); (on_goal 2 => dsimp only [x]))
    | (intro x; clear_value x) | lift_lets | with_reducible refine keeps_ite (fun _ => ?_) (fun _ => ?_)
    | with_reducible assumption | with_reducible apply keeps_coreWrite | with_reducible apply keeps_poke
    | with_reducible refine keeps_foldl (fun _ _ σ _ => ?_) ?_

theorem keeps_wgaTouch {P : StatePart → Bool} {σ : State} (s : State) (l t : Nat) (init : Bool) (hσ : Keeps P σ s)
    (hp : covers P [.regs, .memory, .cores] := by exact hp.sub rfl) :
    Keeps P σ (State.wgaTouch s l t init) := by
  unfold State.wgaTouch
  repeat' first
    | (with_reducible show covers P _; exact hp.sub rfl)
    | (intro (x : State); refine (fun (hx : Keeps P σ x) => ?_) ?_; (on_goal 1 => clear_value x); (on_goal 2 => dsimp only [x]))
    | (intro x; clear_value x) | lift_lets | with_reducible refine keeps_ite (fun _ => ?_) (fun _ => ?_)
    | with_reducible assumption | with_reducible apply keeps_setWga | with_reducible apply keeps_showWga
    | with_reducible apply keeps_wgaPut | with_reducible refine keeps_foldl (fun _ _ σ _ => ?_) ?_

/-! ### Arrays -/

theorem keeps_touchOperand {P : StatePart → Bool} {σ : State} (s : State) (ag : Agent) (a n : Nat) (hσ : Keeps P σ s)
    (hp : covers P [.tier] := by exact hp.sub rfl) :
    Keeps P σ (State.touchOperand s ag a n) := by
  unfold State.touchOperand
  repeat' first
    | (with_reducible show covers P _; exact hp.sub rfl) | with_reducible refine keeps_ite (fun _ => ?_) (fun _ => ?_)
    | with_reducible assumption | with_reducible apply keeps_touchRange

theorem keeps_wgaAccumulate {P : StatePart → Bool} {σ : State} (s : State) (d : ArrDesc) (x : ArrCtx) (rows : List (List Word)) (hσ : Keeps P σ s)
    (hp : covers P [.regs, .memory, .cores] := by exact hp.sub rfl) :
    Keeps P σ (State.wgaAccumulate s d x rows) := by
  unfold State.wgaAccumulate
  repeat' first
    | (with_reducible show covers P _; exact hp.sub rfl)
    | (intro (x : State); refine (fun (hx : Keeps P σ x) => ?_) ?_; (on_goal 1 => clear_value x); (on_goal 2 => dsimp only [x]))
    | (intro x; clear_value x) | lift_lets | with_reducible assumption | with_reducible apply keeps_wgaPut
    | with_reducible apply keeps_wgaTouch | with_reducible refine keeps_foldl (fun _ _ σ _ => ?_) ?_

theorem keeps_setVec {P : StatePart → Bool} {σ : State} (s : State) (p : Nat) (v : VecSt) (hσ : Keeps P σ s)
    (hp : covers P [.cores] := by exact hp.sub rfl) :
    Keeps P σ (State.setVec s p v) := by
  unfold State.setVec
  repeat' first
    | with_reducible assumption | ((conv in (State.mk ..) => skip); with_reducible apply keeps_upd)
    | (refine UpdOk.mk ?_; intro p; cases p <;> first | (apply Or.inl; apply hp.get; rfl) | exact Or.inr rfl)

theorem keeps_feedDrain {P : StatePart → Bool} {σ : State} (s : State) (d : ArrDesc) (x : ArrCtx) (beat : Nat) (y : Drained) (zxi srUsed : Bool) (hσ : Keeps P σ s)
    (hp : covers P [.regs, .slots, .beat, .units, .cores, .watch, .upd, .tier, .forager, .mods, .ports, .casc, .host, .test] := by exact hp.sub rfl) :
    Keeps P σ (State.feedDrain s d x beat y zxi srUsed) := by
  unfold State.feedDrain
  repeat' first
    | (with_reducible show covers P _; exact hp.sub rfl) | (intro x; clear_value x) | lift_lets | with_reducible assumption
    | with_reducible apply keeps_feed

theorem keeps_enqueue {P : StatePart → Bool} {σ : State} (s : State) (c : ErrCtx) (u : UnitId) (r : RunSlot) (vs : List Word) (hσ : Keeps P σ s)
    (hp : covers P [.units, .cores] := by exact hp.sub rfl) :
    Keeps P σ (State.enqueue s c u r vs).2 := by
  unfold State.enqueue
  repeat' first
    | (with_reducible show covers P _; exact hp.sub rfl) | (intro x; clear_value x) | lift_lets | with_reducible assumption
    | with_reducible apply keeps_setRun | with_reducible apply keeps_setVec

theorem keeps_deliver {P : StatePart → Bool} {σ : State} (s : State) (c : ErrCtx) (ag : Agent) (d : ArrDesc) (x : ArrCtx) (beat : Nat) (p : Product) (hσ : Keeps P σ s)
    (hp : covers P [.regs, .memory, .slots, .beat, .units, .cores, .watch, .upd, .tier, .forager, .mods, .ports, .casc, .host, .test] := by exact hp.sub rfl) :
    Keeps P σ (State.deliver s c ag d x beat p).1 := by
  unfold State.deliver
  repeat' first
    | (with_reducible show covers P _; exact hp.sub rfl) | (intro x; clear_value x) | lift_lets | with_reducible assumption
    | with_reducible apply keeps_coreWrite | with_reducible apply keeps_feedDrain | with_reducible apply keeps_progFault
    | with_reducible apply keeps_raise | with_reducible apply keeps_store | with_reducible apply keeps_wgaAccumulate
    | with_reducible refine keeps_foldl (fun _ _ σ _ => ?_) ?_ | split

theorem keeps_coreForget {P : StatePart → Bool} {σ : State} (s : State) (l off n : Nat) (hσ : Keeps P σ s)
    (hp : covers P [.memory] := by exact hp.sub rfl) :
    Keeps P σ (State.coreForget s l off n) := by
  unfold State.coreForget
  split
  · exact keeps_trans (keeps_draw hσ) (keeps_sram _ _ fun h => wf_undefine h _ _ _)
  · exact keeps_trans (keeps_draw hσ) (keeps_comb _ _ fun h => wf_undefine h _ _ _)
  · exact hσ

theorem keeps_keepSums {P : StatePart → Bool} {σ : State} (s : State) (l a : Nat) (d : ArrDesc) (hσ : Keeps P σ s)
    (hp : covers P [.memory] := by exact hp.sub rfl) :
    Keeps P σ (State.keepSums s l a d) := by
  unfold State.keepSums
  repeat' first
    | (with_reducible show covers P _; exact hp.sub rfl) | with_reducible refine keeps_ite (fun _ => ?_) (fun _ => ?_)
    | with_reducible assumption | with_reducible apply keeps_coreForget

theorem keeps_opDone {P : StatePart → Bool} {σ : State} (s : State) (c : ErrCtx) (u : UnitId) (r : RunSlot) (d : ArrDesc) (hσ : Keeps P σ s)
    (hp : covers P [.regs, .slots, .beat, .units, .cores, .upd, .tier, .forager, .mods, .ports, .casc, .host, .test] := by exact hp.sub rfl) :
    Keeps P σ (State.opDone s c u r d) := by
  unfold State.opDone
  repeat' first
    | (with_reducible show covers P _; exact hp.sub rfl)
    | (intro (x : State); refine (fun (hx : Keeps P σ x) => ?_) ?_; (on_goal 1 => clear_value x); (on_goal 2 => dsimp only [x]))
    | lift_lets | with_reducible refine keeps_ite (fun _ => ?_) (fun _ => ?_) | with_reducible assumption
    | with_reducible apply keeps_sendSignal | with_reducible apply keeps_setRun

theorem keeps_fillQueue {P : StatePart → Bool} {σ : State} (s : State) (c : ErrCtx) (u : UnitId) (r : RunSlot) (d : ArrDesc) (vs : List Word) (hσ : Keeps P σ s)
    (hp : covers P [.regs, .slots, .beat, .units, .cores, .upd, .tier, .forager, .mods, .ports, .casc, .host, .test] := by exact hp.sub rfl) :
    Keeps P σ (State.fillQueue s c u r d vs) := by
  unfold State.fillQueue
  repeat' first
    | (with_reducible show covers P _; exact hp.sub rfl)
    | (intro (x : _ × State); refine (fun (hx : Keeps P σ x.2) => ?_) ?_; (on_goal 1 => clear_value x); (on_goal 2 => dsimp only [x]))
    | lift_lets | with_reducible refine keeps_ite (fun _ => ?_) (fun _ => ?_) | with_reducible assumption
    | with_reducible apply keeps_enqueue | with_reducible apply keeps_opDone

theorem keeps_runOp {P : StatePart → Bool} {σ : State} (s : State) (u : UnitId) (r : RunSlot) (d : ArrDesc) (hσ : Keeps P σ s)
    (hp : covers P [.regs, .memory, .slots, .beat, .units, .cores, .watch, .upd, .tier, .forager, .mods, .ports, .casc, .host, .test] := by exact hp.sub rfl) :
    Keeps P σ (State.runOp s u r d) := by
  unfold State.runOp
  dsimp only
  refine keeps_ite (fun _ => keeps_opDone _ _ _ _ _ hσ) (fun _ => ?_)
  refine keeps_ite (fun _ => keeps_fillQueue _ _ _ _ _ _ hσ) (fun _ => ?_)
  split
  · exact keeps_progFault _ _ hσ
  · exact keeps_raise _ _ hσ
  · rename_i o bias _
    have h1 := keeps_foldl (f := fun (s : State) (z : Nat × Nat) => s.touchOperand (Agent.array (s.errCtx u r).phys (u.idx % 3)) z.1 z.2) (l := d.reads)
      (fun _ _ _ hb => keeps_touchOperand _ _ _ _ hb) hσ
    have h1 : Keeps P σ (d.reads.foldl (fun (v : State) (z : Nat × Nat) => v.touchOperand (Agent.array (s.errCtx u r).phys (u.idx % 3)) z.1 z.2) s) :=
      keeps_foldl (fun _ _ _ hb => keeps_touchOperand _ _ _ _ hb) hσ
    generalize d.reads.foldl (fun (v : State) (z : Nat × Nat) => v.touchOperand (Agent.array (s.errCtx u r).phys (u.idx % 3)) z.1 z.2) s = v at h1 ⊢
    have h2 := keeps_keepSums _ r.core (u.idx % 3) d (keeps_bumpPair v (Reg.passCntLo (s.errCtx u r).phys) d.passes h1)
    generalize ((v.bumpPair (Reg.passCntLo (s.errCtx u r).phys) d.passes).keepSums r.core (u.idx % 3) d) = v2 at h2 ⊢
    have h3 : Keeps P σ (if (d.compute (s.arrCtx r) o bias).zxi = true then
        v2.setBit (Reg.arrayErr (s.errCtx u r).phys) (4 * (u.idx % 3) + 2) true else v2) :=
      keeps_ite (fun _ => keeps_setBit _ _ _ _ h2) (fun _ => h2)
    generalize (if (d.compute (s.arrCtx r) o bias).zxi = true then
        v2.setBit (Reg.arrayErr (s.errCtx u r).phys) (4 * (u.idx % 3) + 2) true else v2) = v3 at h3 ⊢
    refine keeps_ite (fun _ => keeps_fillQueue _ _ _ _ _ _ (keeps_feedDrain _ _ _ _ _ _ _ h3)) (fun _ => ?_)
    exact keeps_ite (fun _ => keeps_opDone _ _ _ _ _ (keeps_deliver _ _ _ _ _ _ _ h3)) (fun _ => keeps_deliver _ _ _ _ _ _ _ h3)

theorem keeps_startOp {P : StatePart → Bool} {σ : State} (s : State) (u : UnitId) (r : RunSlot) (d : ArrDesc) (errs : List HwErr) (hσ : Keeps P σ s)
    (hp : covers P [.regs, .memory, .slots, .beat, .units, .cores, .watch, .upd, .tier, .forager, .mods, .ports, .casc, .host, .test] := by exact hp.sub rfl) :
    Keeps P σ (State.startOp s u r d errs) := by
  unfold State.startOp
  repeat' first
    | (with_reducible show covers P _; exact hp.sub rfl) | (intro x; clear_value x) | lift_lets
    | with_reducible refine keeps_ite (fun _ => ?_) (fun _ => ?_) | with_reducible assumption | with_reducible apply keeps_holdWga
    | with_reducible apply keeps_hwErrors | with_reducible apply keeps_runOp | with_reducible apply keeps_setRun

theorem keeps_applyArrayOp {P : StatePart → Bool} {σ : State} (opcode l arr : Nat) (errs : List HwErr) (s : State) (hσ : Keeps P σ s)
    (hp : covers P [.regs, .memory, .slots, .beat, .units, .cores, .watch, .upd, .tier, .forager, .mods, .ports, .casc, .host, .test] := by exact hp.sub rfl) :
    Keeps P σ (applyArrayOp opcode l arr errs s) := by
  unfold applyArrayOp
  dsimp only
  split
  · exact hσ
  · refine keeps_ite (fun _ => hσ) (fun _ => keeps_ite (fun _ => keeps_progFault _ _ hσ) (fun _ => keeps_ite (fun _ => hσ) (fun _ => ?_)))
    refine keeps_ite (fun _ => ?_) (fun _ => keeps_startOp _ _ _ _ _ hσ)
    split
    · exact keeps_standWait _ _ _ _ hσ
    · exact keeps_startOp _ _ _ _ _ (keeps_tryWait _ _ _ _ hσ ‹_›)

theorem keeps_applyEndOfSequence {P : StatePart → Bool} {σ : State} (l arr : Nat) (s : State) (hσ : Keeps P σ s)
    (hp : covers P [.units] := by exact hp.sub rfl) :
    Keeps P σ (applyEndOfSequence l arr s) := by
  unfold applyEndOfSequence
  repeat' first
    | (with_reducible show covers P _; exact hp.sub rfl) | (intro x; clear_value x) | lift_lets
    | with_reducible refine keeps_ite (fun _ => ?_) (fun _ => ?_) | with_reducible assumption
    | with_reducible apply keeps_endRunOf | split

/-! ### Vector -/

theorem keeps_jump {P : StatePart → Bool} {σ : State} (s : State) (x : VecCtx) (target : Int) (hσ : Keeps P σ s)
    (hp : covers P [.regs, .slots, .beat, .units, .cores, .upd, .tier, .forager, .mods, .ports, .casc, .host, .test] := by exact hp.sub rfl) :
    Keeps P σ (State.jump s x target) := by
  unfold State.jump
  repeat' first
    | (with_reducible show covers P _; exact hp.sub rfl) | with_reducible refine keeps_ite (fun _ => ?_) (fun _ => ?_)
    | with_reducible assumption | with_reducible apply keeps_progFault | with_reducible apply keeps_setRun

theorem keeps_nextInstr {P : StatePart → Bool} {σ : State} (s : State) (x : VecCtx) (hσ : Keeps P σ s)
    (hp : covers P [.regs, .slots, .beat, .units, .cores, .upd, .tier, .forager, .mods, .ports, .casc, .host, .test] := by exact hp.sub rfl) :
    Keeps P σ (State.nextInstr s x) := by
  unfold State.nextInstr
  repeat' first
    | (with_reducible show covers P _; exact hp.sub rfl) | with_reducible assumption | with_reducible apply keeps_jump

theorem keeps_vecStep {P : StatePart → Bool} {σ : State} (opc l : Nat) (body : VecCtx → State → State) (s : State) (hσ : Keeps P σ s)
    (hb : ∀ x u b, Keeps P b u → Keeps P b (body x u))
    (hp : covers P [.regs, .slots, .beat, .units, .cores, .upd, .tier, .forager, .mods, .ports, .casc, .host, .test] := by exact hp.sub rfl) :
    Keeps P σ (vecStep opc l body s) := by
  unfold vecStep
  dsimp only
  split
  · exact hσ
  · split
    · exact keeps_progFault _ _ hσ
    · split
      · exact hb _ _ _ hσ
      · exact hσ

theorem keeps_regStep {P : StatePart → Bool} {σ : State} (opc l : Nat) (f : VInstr → VecSt → VecSt) (s : State) (hσ : Keeps P σ s)
    (hp : covers P [.regs, .slots, .beat, .units, .cores, .upd, .tier, .forager, .mods, .ports, .casc, .host, .test] := by exact hp.sub rfl) :
    Keeps P σ (regStep opc l f s) := by
  unfold regStep
  exact keeps_vecStep _ _ _ _ hσ fun _ _ _ hb => keeps_nextInstr _ _ (keeps_setVec _ _ _ hb)

theorem keeps_vecRead {P : StatePart → Bool} {σ : State} (s : State) (x : VecCtx) (a n : Nat) (hσ : Keeps P σ s) {b : Bytes} {t : State}
    (h : s.vecRead x a n = some (b, t))
    (hp : covers P [.regs, .slots, .beat, .units, .cores, .upd, .tier, .forager, .mods, .ports, .casc, .host, .test] := by exact hp.sub rfl) :
    Keeps P σ t := by
  unfold State.vecRead at h
  split at h
  · dsimp only at h
    split at h
    · have hf := keeps_fetch s (.vector x.c.phys) (a % 281474976710656) n hσ
      rw [Option.some.inj h] at hf; exact hf
    · cases h
  · split at h
    · cases h
    · cases h; exact hσ

theorem keeps_vecWrite {P : StatePart → Bool} {σ : State} (s : State) (x : VecCtx) (a : Nat) (b : Bytes) (hσ : Keeps P σ s)
    (hp : covers P [.regs, .memory, .slots, .beat, .units, .cores, .upd, .tier, .forager, .mods, .ports, .casc, .host, .test] := by exact hp.sub rfl) :
    Keeps P σ (State.vecWrite s x a b) := by
  unfold State.vecWrite
  repeat' first
    | (with_reducible show covers P _; exact hp.sub rfl) | with_reducible refine keeps_ite (fun _ => ?_) (fun _ => ?_)
    | with_reducible assumption | with_reducible apply keeps_coreWrite | with_reducible apply keeps_store

theorem keeps_applyVadd {P : StatePart → Bool} {σ : State} (l : Nat) (s : State) (hσ : Keeps P σ s)
    (hp : covers P [.regs, .slots, .beat, .units, .cores, .upd, .tier, .forager, .mods, .ports, .casc, .host, .test] := by exact hp.sub rfl) :
    Keeps P σ (applyVadd l s) := by
  unfold applyVadd
  repeat' first
    | (with_reducible show covers P _; exact hp.sub rfl) | with_reducible assumption | with_reducible apply keeps_regStep

theorem keeps_applyVsub {P : StatePart → Bool} {σ : State} (l : Nat) (s : State) (hσ : Keeps P σ s)
    (hp : covers P [.regs, .slots, .beat, .units, .cores, .upd, .tier, .forager, .mods, .ports, .casc, .host, .test] := by exact hp.sub rfl) :
    Keeps P σ (applyVsub l s) := by
  unfold applyVsub
  repeat' first
    | (with_reducible show covers P _; exact hp.sub rfl) | with_reducible assumption | with_reducible apply keeps_regStep

theorem keeps_applyVmul {P : StatePart → Bool} {σ : State} (l : Nat) (s : State) (hσ : Keeps P σ s)
    (hp : covers P [.regs, .slots, .beat, .units, .cores, .upd, .tier, .forager, .mods, .ports, .casc, .host, .test] := by exact hp.sub rfl) :
    Keeps P σ (applyVmul l s) := by
  unfold applyVmul
  repeat' first
    | (with_reducible show covers P _; exact hp.sub rfl) | with_reducible assumption | with_reducible apply keeps_regStep

theorem keeps_applyVfma {P : StatePart → Bool} {σ : State} (l : Nat) (s : State) (hσ : Keeps P σ s)
    (hp : covers P [.regs, .slots, .beat, .units, .cores, .upd, .tier, .forager, .mods, .ports, .casc, .host, .test] := by exact hp.sub rfl) :
    Keeps P σ (applyVfma l s) := by
  unfold applyVfma
  repeat' first
    | (with_reducible show covers P _; exact hp.sub rfl) | with_reducible assumption | with_reducible apply keeps_regStep

theorem keeps_applyVneg {P : StatePart → Bool} {σ : State} (l : Nat) (s : State) (hσ : Keeps P σ s)
    (hp : covers P [.regs, .slots, .beat, .units, .cores, .upd, .tier, .forager, .mods, .ports, .casc, .host, .test] := by exact hp.sub rfl) :
    Keeps P σ (applyVneg l s) := by
  unfold applyVneg
  repeat' first
    | (with_reducible show covers P _; exact hp.sub rfl) | with_reducible assumption | with_reducible apply keeps_regStep

theorem keeps_applyVabs {P : StatePart → Bool} {σ : State} (l : Nat) (s : State) (hσ : Keeps P σ s)
    (hp : covers P [.regs, .slots, .beat, .units, .cores, .upd, .tier, .forager, .mods, .ports, .casc, .host, .test] := by exact hp.sub rfl) :
    Keeps P σ (applyVabs l s) := by
  unfold applyVabs
  repeat' first
    | (with_reducible show covers P _; exact hp.sub rfl) | with_reducible assumption | with_reducible apply keeps_regStep

theorem keeps_applyVmax {P : StatePart → Bool} {σ : State} (l : Nat) (s : State) (hσ : Keeps P σ s)
    (hp : covers P [.regs, .slots, .beat, .units, .cores, .upd, .tier, .forager, .mods, .ports, .casc, .host, .test] := by exact hp.sub rfl) :
    Keeps P σ (applyVmax l s) := by
  unfold applyVmax
  repeat' first
    | (with_reducible show covers P _; exact hp.sub rfl) | with_reducible assumption | with_reducible apply keeps_regStep

theorem keeps_applyVmin {P : StatePart → Bool} {σ : State} (l : Nat) (s : State) (hσ : Keeps P σ s)
    (hp : covers P [.regs, .slots, .beat, .units, .cores, .upd, .tier, .forager, .mods, .ports, .casc, .host, .test] := by exact hp.sub rfl) :
    Keeps P σ (applyVmin l s) := by
  unfold applyVmin
  repeat' first
    | (with_reducible show covers P _; exact hp.sub rfl) | with_reducible assumption | with_reducible apply keeps_regStep

theorem keeps_applyVcmp {P : StatePart → Bool} {σ : State} (l : Nat) (s : State) (hσ : Keeps P σ s)
    (hp : covers P [.regs, .slots, .beat, .units, .cores, .upd, .tier, .forager, .mods, .ports, .casc, .host, .test] := by exact hp.sub rfl) :
    Keeps P σ (applyVcmp l s) := by
  unfold applyVcmp
  repeat' first
    | (with_reducible show covers P _; exact hp.sub rfl) | with_reducible assumption | with_reducible apply keeps_regStep

theorem keeps_applyVsel {P : StatePart → Bool} {σ : State} (l : Nat) (s : State) (hσ : Keeps P σ s)
    (hp : covers P [.regs, .slots, .beat, .units, .cores, .upd, .tier, .forager, .mods, .ports, .casc, .host, .test] := by exact hp.sub rfl) :
    Keeps P σ (applyVsel l s) := by
  unfold applyVsel
  repeat' first
    | (with_reducible show covers P _; exact hp.sub rfl) | with_reducible assumption | with_reducible apply keeps_regStep

theorem keeps_applyVcvt {P : StatePart → Bool} {σ : State} (l : Nat) (s : State) (hσ : Keeps P σ s)
    (hp : covers P [.regs, .slots, .beat, .units, .cores, .upd, .tier, .forager, .mods, .ports, .casc, .host, .test] := by exact hp.sub rfl) :
    Keeps P σ (applyVcvt l s) := by
  unfold applyVcvt
  repeat' first
    | (with_reducible show covers P _; exact hp.sub rfl) | with_reducible assumption | with_reducible apply keeps_regStep

theorem keeps_applyVamax {P : StatePart → Bool} {σ : State} (l : Nat) (s : State) (hσ : Keeps P σ s)
    (hp : covers P [.regs, .slots, .beat, .units, .cores, .upd, .tier, .forager, .mods, .ports, .casc, .host, .test] := by exact hp.sub rfl) :
    Keeps P σ (applyVamax l s) := by
  unfold applyVamax
  repeat' first
    | (with_reducible show covers P _; exact hp.sub rfl) | with_reducible assumption | with_reducible apply keeps_regStep

theorem keeps_applyVscale {P : StatePart → Bool} {σ : State} (l : Nat) (s : State) (hσ : Keeps P σ s)
    (hp : covers P [.regs, .slots, .beat, .units, .cores, .upd, .tier, .forager, .mods, .ports, .casc, .host, .test] := by exact hp.sub rfl) :
    Keeps P σ (applyVscale l s) := by
  unfold applyVscale
  repeat' first
    | (with_reducible show covers P _; exact hp.sub rfl) | (intro x; clear_value x) | (intro _ _ σ _) | lift_lets
    | with_reducible assumption | with_reducible apply keeps_draw | with_reducible apply keeps_nextInstr
    | with_reducible apply keeps_setVec | with_reducible apply keeps_vecStep

theorem keeps_applyVrsum {P : StatePart → Bool} {σ : State} (l : Nat) (s : State) (hσ : Keeps P σ s)
    (hp : covers P [.regs, .slots, .beat, .units, .cores, .upd, .tier, .forager, .mods, .ports, .casc, .host, .test] := by exact hp.sub rfl) :
    Keeps P σ (applyVrsum l s) := by
  unfold applyVrsum
  repeat' first
    | (with_reducible show covers P _; exact hp.sub rfl) | with_reducible assumption | with_reducible apply keeps_regStep

theorem keeps_applyVrmax {P : StatePart → Bool} {σ : State} (l : Nat) (s : State) (hσ : Keeps P σ s)
    (hp : covers P [.regs, .slots, .beat, .units, .cores, .upd, .tier, .forager, .mods, .ports, .casc, .host, .test] := by exact hp.sub rfl) :
    Keeps P σ (applyVrmax l s) := by
  unfold applyVrmax
  repeat' first
    | (with_reducible show covers P _; exact hp.sub rfl) | with_reducible assumption | with_reducible apply keeps_regStep

theorem keeps_applyVrmin {P : StatePart → Bool} {σ : State} (l : Nat) (s : State) (hσ : Keeps P σ s)
    (hp : covers P [.regs, .slots, .beat, .units, .cores, .upd, .tier, .forager, .mods, .ports, .casc, .host, .test] := by exact hp.sub rfl) :
    Keeps P σ (applyVrmin l s) := by
  unfold applyVrmin
  repeat' first
    | (with_reducible show covers P _; exact hp.sub rfl) | with_reducible assumption | with_reducible apply keeps_regStep

theorem keeps_applyVexp {P : StatePart → Bool} {σ : State} (l : Nat) (s : State) (hσ : Keeps P σ s)
    (hp : covers P [.regs, .slots, .beat, .units, .cores, .upd, .tier, .forager, .mods, .ports, .casc, .host, .test] := by exact hp.sub rfl) :
    Keeps P σ (applyVexp l s) := by
  unfold applyVexp
  repeat' first
    | (with_reducible show covers P _; exact hp.sub rfl) | with_reducible assumption | with_reducible apply keeps_regStep

theorem keeps_applyVlog {P : StatePart → Bool} {σ : State} (l : Nat) (s : State) (hσ : Keeps P σ s)
    (hp : covers P [.regs, .slots, .beat, .units, .cores, .upd, .tier, .forager, .mods, .ports, .casc, .host, .test] := by exact hp.sub rfl) :
    Keeps P σ (applyVlog l s) := by
  unfold applyVlog
  repeat' first
    | (with_reducible show covers P _; exact hp.sub rfl) | with_reducible assumption | with_reducible apply keeps_regStep

theorem keeps_applyVrcp {P : StatePart → Bool} {σ : State} (l : Nat) (s : State) (hσ : Keeps P σ s)
    (hp : covers P [.regs, .slots, .beat, .units, .cores, .upd, .tier, .forager, .mods, .ports, .casc, .host, .test] := by exact hp.sub rfl) :
    Keeps P σ (applyVrcp l s) := by
  unfold applyVrcp
  repeat' first
    | (with_reducible show covers P _; exact hp.sub rfl) | with_reducible assumption | with_reducible apply keeps_regStep

theorem keeps_applyVrsqrt {P : StatePart → Bool} {σ : State} (l : Nat) (s : State) (hσ : Keeps P σ s)
    (hp : covers P [.regs, .slots, .beat, .units, .cores, .upd, .tier, .forager, .mods, .ports, .casc, .host, .test] := by exact hp.sub rfl) :
    Keeps P σ (applyVrsqrt l s) := by
  unfold applyVrsqrt
  repeat' first
    | (with_reducible show covers P _; exact hp.sub rfl) | with_reducible assumption | with_reducible apply keeps_regStep

theorem keeps_applyVsin {P : StatePart → Bool} {σ : State} (l : Nat) (s : State) (hσ : Keeps P σ s)
    (hp : covers P [.regs, .slots, .beat, .units, .cores, .upd, .tier, .forager, .mods, .ports, .casc, .host, .test] := by exact hp.sub rfl) :
    Keeps P σ (applyVsin l s) := by
  unfold applyVsin
  repeat' first
    | (with_reducible show covers P _; exact hp.sub rfl) | with_reducible assumption | with_reducible apply keeps_regStep

theorem keeps_applyVcos {P : StatePart → Bool} {σ : State} (l : Nat) (s : State) (hσ : Keeps P σ s)
    (hp : covers P [.regs, .slots, .beat, .units, .cores, .upd, .tier, .forager, .mods, .ports, .casc, .host, .test] := by exact hp.sub rfl) :
    Keeps P σ (applyVcos l s) := by
  unfold applyVcos
  repeat' first
    | (with_reducible show covers P _; exact hp.sub rfl) | with_reducible assumption | with_reducible apply keeps_regStep

theorem keeps_applyVperm {P : StatePart → Bool} {σ : State} (l : Nat) (s : State) (hσ : Keeps P σ s)
    (hp : covers P [.regs, .slots, .beat, .units, .cores, .upd, .tier, .forager, .mods, .ports, .casc, .host, .test] := by exact hp.sub rfl) :
    Keeps P σ (applyVperm l s) := by
  unfold applyVperm
  repeat' first
    | (with_reducible show covers P _; exact hp.sub rfl) | with_reducible assumption | with_reducible apply keeps_regStep

theorem keeps_applyVbcast {P : StatePart → Bool} {σ : State} (l : Nat) (s : State) (hσ : Keeps P σ s)
    (hp : covers P [.regs, .slots, .beat, .units, .cores, .upd, .tier, .forager, .mods, .ports, .casc, .host, .test] := by exact hp.sub rfl) :
    Keeps P σ (applyVbcast l s) := by
  unfold applyVbcast
  repeat' first
    | (with_reducible show covers P _; exact hp.sub rfl) | with_reducible assumption | with_reducible apply keeps_regStep

theorem keeps_applyVmovs {P : StatePart → Bool} {σ : State} (l : Nat) (s : State) (hσ : Keeps P σ s)
    (hp : covers P [.regs, .slots, .beat, .units, .cores, .upd, .tier, .forager, .mods, .ports, .casc, .host, .test] := by exact hp.sub rfl) :
    Keeps P σ (applyVmovs l s) := by
  unfold applyVmovs
  repeat' first
    | (with_reducible show covers P _; exact hp.sub rfl) | with_reducible assumption | with_reducible apply keeps_regStep

theorem keeps_applyVgath {P : StatePart → Bool} {σ : State} (l : Nat) (s : State) (hσ : Keeps P σ s)
    (hp : covers P [.regs, .slots, .beat, .units, .cores, .upd, .tier, .forager, .mods, .ports, .casc, .host, .test] := by exact hp.sub rfl) :
    Keeps P σ (applyVgath l s) := by
  unfold applyVgath
  repeat' first
    | (with_reducible show covers P _; exact hp.sub rfl) | (intro x; clear_value x) | (intro _ _ σ _) | lift_lets
    | with_reducible refine keeps_ite (fun _ => ?_) (fun _ => ?_) | with_reducible assumption
    | with_reducible apply keeps_nextInstr | with_reducible apply keeps_progFault | with_reducible apply keeps_setVec
    | with_reducible apply keeps_vecStep

theorem keeps_applyVld {P : StatePart → Bool} {σ : State} (l : Nat) (s : State) (hσ : Keeps P σ s)
    (hp : covers P [.regs, .slots, .beat, .units, .cores, .upd, .tier, .forager, .mods, .ports, .casc, .host, .test] := by exact hp.sub rfl) :
    Keeps P σ (applyVld l s) := by
  unfold applyVld
  refine keeps_vecStep _ _ _ _ hσ ?_
  intro x u b hu
  dsimp only
  split
  · exact keeps_progFault _ _ hu
  · rename_i y sc w h
    have hw : Keeps P b w := by
      split at h
      · exact keeps_vecRead _ _ _ _ hu h
      · cases h; exact hu
    split
    · exact keeps_progFault _ _ hw
    · exact keeps_nextInstr _ _ (keeps_setVec _ _ _ (keeps_vecRead _ _ _ _ hw ‹_›))

theorem keeps_applyVst {P : StatePart → Bool} {σ : State} (l : Nat) (s : State) (hσ : Keeps P σ s)
    (hp : covers P [.regs, .memory, .slots, .beat, .units, .cores, .watch, .upd, .tier, .forager, .mods, .ports, .casc, .host, .test] := by exact hp.sub rfl) :
    Keeps P σ (applyVst l s) := by
  unfold applyVst
  repeat' first
    | (with_reducible show covers P _; exact hp.sub rfl)
    | (intro (x : State); refine (fun (hx : Keeps P σ x) => ?_) ?_; (on_goal 1 => clear_value x); (on_goal 2 => dsimp only [x]))
    | (intro x; clear_value x) | (intro _ _ σ _) | lift_lets | with_reducible refine keeps_ite (fun _ => ?_) (fun _ => ?_)
    | with_reducible assumption | with_reducible apply keeps_feed | with_reducible apply keeps_nextInstr
    | with_reducible apply keeps_progFault | with_reducible apply keeps_vecStep | with_reducible apply keeps_vecWrite

theorem keeps_applyVqpop {P : StatePart → Bool} {σ : State} (l : Nat) (s : State) (hσ : Keeps P σ s)
    (hp : covers P [.regs, .slots, .beat, .units, .cores, .upd, .tier, .forager, .mods, .ports, .casc, .host, .test] := by exact hp.sub rfl) :
    Keeps P σ (applyVqpop l s) := by
  unfold applyVqpop
  repeat' first
    | (with_reducible show covers P _; exact hp.sub rfl) | (intro x; clear_value x) | (intro _ _ σ _) | lift_lets
    | with_reducible refine keeps_ite (fun _ => ?_) (fun _ => ?_) | with_reducible assumption
    | with_reducible apply keeps_nextInstr | with_reducible apply keeps_setVec | with_reducible apply keeps_vecStep

theorem keeps_applyVwga {P : StatePart → Bool} {σ : State} (l : Nat) (s : State) (hσ : Keeps P σ s)
    (hp : covers P [.regs, .slots, .beat, .units, .cores, .upd, .tier, .forager, .mods, .ports, .casc, .host, .test] := by exact hp.sub rfl) :
    Keeps P σ (applyVwga l s) := by
  unfold applyVwga
  repeat' first
    | (with_reducible show covers P _; exact hp.sub rfl) | (intro x; clear_value x) | (intro _ _ σ _) | lift_lets
    | with_reducible refine keeps_ite (fun _ => ?_) (fun _ => ?_) | with_reducible assumption | with_reducible apply keeps_holdWga
    | with_reducible apply keeps_nextInstr | with_reducible apply keeps_setVec | with_reducible apply keeps_vecStep

theorem keeps_applySli {P : StatePart → Bool} {σ : State} (l : Nat) (s : State) (hσ : Keeps P σ s)
    (hp : covers P [.regs, .slots, .beat, .units, .cores, .upd, .tier, .forager, .mods, .ports, .casc, .host, .test] := by exact hp.sub rfl) :
    Keeps P σ (applySli l s) := by
  unfold applySli
  repeat' first
    | (with_reducible show covers P _; exact hp.sub rfl) | with_reducible assumption | with_reducible apply keeps_regStep

theorem keeps_applySlui {P : StatePart → Bool} {σ : State} (l : Nat) (s : State) (hσ : Keeps P σ s)
    (hp : covers P [.regs, .slots, .beat, .units, .cores, .upd, .tier, .forager, .mods, .ports, .casc, .host, .test] := by exact hp.sub rfl) :
    Keeps P σ (applySlui l s) := by
  unfold applySlui
  repeat' first
    | (with_reducible show covers P _; exact hp.sub rfl) | with_reducible assumption | with_reducible apply keeps_regStep

theorem keeps_applySadd {P : StatePart → Bool} {σ : State} (l : Nat) (s : State) (hσ : Keeps P σ s)
    (hp : covers P [.regs, .slots, .beat, .units, .cores, .upd, .tier, .forager, .mods, .ports, .casc, .host, .test] := by exact hp.sub rfl) :
    Keeps P σ (applySadd l s) := by
  unfold applySadd
  repeat' first
    | (with_reducible show covers P _; exact hp.sub rfl) | with_reducible assumption | with_reducible apply keeps_regStep

theorem keeps_applySaddi {P : StatePart → Bool} {σ : State} (l : Nat) (s : State) (hσ : Keeps P σ s)
    (hp : covers P [.regs, .slots, .beat, .units, .cores, .upd, .tier, .forager, .mods, .ports, .casc, .host, .test] := by exact hp.sub rfl) :
    Keeps P σ (applySaddi l s) := by
  unfold applySaddi
  repeat' first
    | (with_reducible show covers P _; exact hp.sub rfl) | with_reducible assumption | with_reducible apply keeps_regStep

theorem keeps_applySsub {P : StatePart → Bool} {σ : State} (l : Nat) (s : State) (hσ : Keeps P σ s)
    (hp : covers P [.regs, .slots, .beat, .units, .cores, .upd, .tier, .forager, .mods, .ports, .casc, .host, .test] := by exact hp.sub rfl) :
    Keeps P σ (applySsub l s) := by
  unfold applySsub
  repeat' first
    | (with_reducible show covers P _; exact hp.sub rfl) | with_reducible assumption | with_reducible apply keeps_regStep

theorem keeps_applySmul {P : StatePart → Bool} {σ : State} (l : Nat) (s : State) (hσ : Keeps P σ s)
    (hp : covers P [.regs, .slots, .beat, .units, .cores, .upd, .tier, .forager, .mods, .ports, .casc, .host, .test] := by exact hp.sub rfl) :
    Keeps P σ (applySmul l s) := by
  unfold applySmul
  repeat' first
    | (with_reducible show covers P _; exact hp.sub rfl) | with_reducible assumption | with_reducible apply keeps_regStep

theorem keeps_applySand {P : StatePart → Bool} {σ : State} (l : Nat) (s : State) (hσ : Keeps P σ s)
    (hp : covers P [.regs, .slots, .beat, .units, .cores, .upd, .tier, .forager, .mods, .ports, .casc, .host, .test] := by exact hp.sub rfl) :
    Keeps P σ (applySand l s) := by
  unfold applySand
  repeat' first
    | (with_reducible show covers P _; exact hp.sub rfl) | with_reducible assumption | with_reducible apply keeps_regStep

theorem keeps_applySor {P : StatePart → Bool} {σ : State} (l : Nat) (s : State) (hσ : Keeps P σ s)
    (hp : covers P [.regs, .slots, .beat, .units, .cores, .upd, .tier, .forager, .mods, .ports, .casc, .host, .test] := by exact hp.sub rfl) :
    Keeps P σ (applySor l s) := by
  unfold applySor
  repeat' first
    | (with_reducible show covers P _; exact hp.sub rfl) | with_reducible assumption | with_reducible apply keeps_regStep

theorem keeps_applySxor {P : StatePart → Bool} {σ : State} (l : Nat) (s : State) (hσ : Keeps P σ s)
    (hp : covers P [.regs, .slots, .beat, .units, .cores, .upd, .tier, .forager, .mods, .ports, .casc, .host, .test] := by exact hp.sub rfl) :
    Keeps P σ (applySxor l s) := by
  unfold applySxor
  repeat' first
    | (with_reducible show covers P _; exact hp.sub rfl) | with_reducible assumption | with_reducible apply keeps_regStep

theorem keeps_applySshl {P : StatePart → Bool} {σ : State} (l : Nat) (s : State) (hσ : Keeps P σ s)
    (hp : covers P [.regs, .slots, .beat, .units, .cores, .upd, .tier, .forager, .mods, .ports, .casc, .host, .test] := by exact hp.sub rfl) :
    Keeps P σ (applySshl l s) := by
  unfold applySshl
  repeat' first
    | (with_reducible show covers P _; exact hp.sub rfl) | with_reducible assumption | with_reducible apply keeps_regStep

theorem keeps_applySshr {P : StatePart → Bool} {σ : State} (l : Nat) (s : State) (hσ : Keeps P σ s)
    (hp : covers P [.regs, .slots, .beat, .units, .cores, .upd, .tier, .forager, .mods, .ports, .casc, .host, .test] := by exact hp.sub rfl) :
    Keeps P σ (applySshr l s) := by
  unfold applySshr
  repeat' first
    | (with_reducible show covers P _; exact hp.sub rfl) | with_reducible assumption | with_reducible apply keeps_regStep

theorem keeps_applySld {P : StatePart → Bool} {σ : State} (l : Nat) (s : State) (hσ : Keeps P σ s)
    (hp : covers P [.regs, .slots, .beat, .units, .cores, .upd, .tier, .forager, .mods, .ports, .casc, .host, .test] := by exact hp.sub rfl) :
    Keeps P σ (applySld l s) := by
  unfold applySld
  repeat' first
    | (with_reducible show covers P _; exact hp.sub rfl) | (intro x; clear_value x) | (intro _ _ σ _) | lift_lets
    | with_reducible assumption | with_reducible apply keeps_nextInstr | with_reducible apply keeps_progFault
    | with_reducible apply keeps_setVec | (refine keeps_vecRead _ _ _ _ ?_ (by with_reducible assumption))
    | with_reducible apply keeps_vecStep | split

theorem keeps_applySst {P : StatePart → Bool} {σ : State} (l : Nat) (s : State) (hσ : Keeps P σ s)
    (hp : covers P [.regs, .memory, .slots, .beat, .units, .cores, .upd, .tier, .forager, .mods, .ports, .casc, .host, .test] := by exact hp.sub rfl) :
    Keeps P σ (applySst l s) := by
  unfold applySst
  repeat' first
    | (with_reducible show covers P _; exact hp.sub rfl) | (intro x; clear_value x) | (intro _ _ σ _) | lift_lets
    | with_reducible refine keeps_ite (fun _ => ?_) (fun _ => ?_) | with_reducible assumption
    | with_reducible apply keeps_nextInstr | with_reducible apply keeps_progFault | with_reducible apply keeps_vecStep
    | with_reducible apply keeps_vecWrite

theorem keeps_applyVext {P : StatePart → Bool} {σ : State} (l : Nat) (s : State) (hσ : Keeps P σ s)
    (hp : covers P [.regs, .slots, .beat, .units, .cores, .upd, .tier, .forager, .mods, .ports, .casc, .host, .test] := by exact hp.sub rfl) :
    Keeps P σ (applyVext l s) := by
  unfold applyVext
  repeat' first
    | (with_reducible show covers P _; exact hp.sub rfl) | with_reducible assumption | with_reducible apply keeps_regStep

theorem keeps_branch {P : StatePart → Bool} {σ : State} (s : State) (x : VecCtx) (taken : Bool) (hσ : Keeps P σ s)
    (hp : covers P [.regs, .slots, .beat, .units, .cores, .upd, .tier, .forager, .mods, .ports, .casc, .host, .test] := by exact hp.sub rfl) :
    Keeps P σ (State.branch s x taken) := by
  unfold State.branch
  repeat' first
    | (with_reducible show covers P _; exact hp.sub rfl) | with_reducible refine keeps_ite (fun _ => ?_) (fun _ => ?_)
    | with_reducible assumption | with_reducible apply keeps_jump | with_reducible apply keeps_nextInstr

theorem keeps_applyBr {P : StatePart → Bool} {σ : State} (l : Nat) (s : State) (hσ : Keeps P σ s)
    (hp : covers P [.regs, .slots, .beat, .units, .cores, .upd, .tier, .forager, .mods, .ports, .casc, .host, .test] := by exact hp.sub rfl) :
    Keeps P σ (applyBr l s) := by
  unfold applyBr
  repeat' first
    | (with_reducible show covers P _; exact hp.sub rfl) | (intro _ _ σ _) | with_reducible assumption
    | with_reducible apply keeps_branch | with_reducible apply keeps_vecStep

theorem keeps_applyBeqz {P : StatePart → Bool} {σ : State} (l : Nat) (s : State) (hσ : Keeps P σ s)
    (hp : covers P [.regs, .slots, .beat, .units, .cores, .upd, .tier, .forager, .mods, .ports, .casc, .host, .test] := by exact hp.sub rfl) :
    Keeps P σ (applyBeqz l s) := by
  unfold applyBeqz
  repeat' first
    | (with_reducible show covers P _; exact hp.sub rfl) | (intro _ _ σ _) | with_reducible assumption
    | with_reducible apply keeps_branch | with_reducible apply keeps_vecStep

theorem keeps_applyBnez {P : StatePart → Bool} {σ : State} (l : Nat) (s : State) (hσ : Keeps P σ s)
    (hp : covers P [.regs, .slots, .beat, .units, .cores, .upd, .tier, .forager, .mods, .ports, .casc, .host, .test] := by exact hp.sub rfl) :
    Keeps P σ (applyBnez l s) := by
  unfold applyBnez
  repeat' first
    | (with_reducible show covers P _; exact hp.sub rfl) | (intro _ _ σ _) | with_reducible assumption
    | with_reducible apply keeps_branch | with_reducible apply keeps_vecStep

theorem keeps_applyBlt {P : StatePart → Bool} {σ : State} (l : Nat) (s : State) (hσ : Keeps P σ s)
    (hp : covers P [.regs, .slots, .beat, .units, .cores, .upd, .tier, .forager, .mods, .ports, .casc, .host, .test] := by exact hp.sub rfl) :
    Keeps P σ (applyBlt l s) := by
  unfold applyBlt
  repeat' first
    | (with_reducible show covers P _; exact hp.sub rfl) | (intro _ _ σ _) | with_reducible assumption
    | with_reducible apply keeps_branch | with_reducible apply keeps_vecStep

theorem keeps_applyLoop {P : StatePart → Bool} {σ : State} (l : Nat) (s : State) (hσ : Keeps P σ s)
    (hp : covers P [.regs, .slots, .beat, .units, .cores, .upd, .tier, .forager, .mods, .ports, .casc, .host, .test] := by exact hp.sub rfl) :
    Keeps P σ (applyLoop l s) := by
  unfold applyLoop
  repeat' first
    | (with_reducible show covers P _; exact hp.sub rfl) | (intro x; clear_value x) | (intro _ _ σ _) | lift_lets
    | with_reducible assumption | with_reducible apply keeps_branch | with_reducible apply keeps_setVec
    | with_reducible apply keeps_vecStep

theorem keeps_applyWait {P : StatePart → Bool} {σ : State} (l : Nat) (s : State) (hσ : Keeps P σ s)
    (hp : covers P [.regs, .slots, .beat, .units, .cores, .upd, .tier, .forager, .mods, .ports, .casc, .host, .test] := by exact hp.sub rfl) :
    Keeps P σ (applyWait l s) := by
  unfold applyWait
  repeat' first
    | (with_reducible show covers P _; exact hp.sub rfl) | (intro _ _ σ _) | with_reducible assumption
    | with_reducible apply keeps_nextInstr | with_reducible apply keeps_standWait
    | (refine keeps_tryWait _ _ _ _ ?_ (by with_reducible assumption)) | with_reducible apply keeps_vecStep | split

theorem keeps_applySignal {P : StatePart → Bool} {σ : State} (l : Nat) (s : State) (hσ : Keeps P σ s)
    (hp : covers P [.regs, .slots, .beat, .units, .cores, .upd, .tier, .forager, .mods, .ports, .casc, .host, .test] := by exact hp.sub rfl) :
    Keeps P σ (applySignal l s) := by
  unfold applySignal
  repeat' first
    | (with_reducible show covers P _; exact hp.sub rfl) | (intro _ _ σ _) | with_reducible assumption
    | with_reducible apply keeps_nextInstr | with_reducible apply keeps_sendSignal | with_reducible apply keeps_vecStep

theorem keeps_applyEndRoutine {P : StatePart → Bool} {σ : State} (l : Nat) (s : State) (hσ : Keeps P σ s)
    (hp : covers P [.regs, .slots, .beat, .units, .cores, .upd, .tier, .forager, .mods, .ports, .casc, .host, .test] := by exact hp.sub rfl) :
    Keeps P σ (applyEndRoutine l s) := by
  unfold applyEndRoutine
  repeat' first
    | (with_reducible show covers P _; exact hp.sub rfl) | (intro _ _ σ _) | with_reducible assumption
    | with_reducible apply keeps_endRunOf | with_reducible apply keeps_vecStep

end Sys2Proof.Laws
end

