-- ==== Sys2Proof/Laws/Access.lean ====
section
/-! SUPPORT. Accesses to device memory: a store writes the bytes of its places and no other byte, a fetch writes none. -/

namespace Sys2Proof.Laws

open Sys2Proof Sys2Proof.Machine

theorem peek_congr {s t : State} (h : samePart .memory s t) (l : Loc) : t.peek l = s.peek l := by
  have h' : (t.dram, t.comb, t.sram) = (s.dram, s.comb, s.sram) := h
  injection h' with h1 h2
  injection h2 with h2 h3
  cases l <;> simp only [State.peek, h1, h2, h3]

/-- What keeps every part but memory keeps every byte. -/
theorem peek_of_keeps {s t : State} (h : Keeps (fun p => decide (p ≠ .memory)) s t) (l : Loc) : t.peek l = s.peek l :=
  peek_congr (h.parts .memory (by decide)) l

theorem covers_noMemory {m : List StatePart} (h : m.contains .memory = false) : covers (fun p => decide (p ≠ .memory)) m := by
  intro p hp
  rw [decide_eq_true_eq]
  rintro rfl
  rw [h] at hp; cases hp

theorem cellOf_key {l m : Loc} (h : cellOf l = cellOf m) (v : Byte) (s : State) : s.poke l v = s.poke m v ∧ s.peek l = s.peek m := by
  cases l <;> cases m <;> simp_all [cellOf, State.poke, State.peek]

theorem peek_poke_ne (s : State) {l m : Loc} (v : Byte) (h : cellOf m ≠ cellOf l) : (s.poke l v).peek m = s.peek m := by
  cases l <;> cases m <;> simp only [State.poke, State.peek] <;>
    exact read_write_ne _ (fun e => h (by simp only [cellOf, e])) v

theorem peek_poke_self (s : State) {l : Loc} (hl : (cellOf l).1 ≠ 3) (v : Byte) : (s.poke l v).peek l = v := by
  cases l
  · exact read_write_self _ _ _
  · exact read_write_self _ _ _
  · exact read_write_self _ _ _
  · exact absurd rfl hl

theorem writePlace_peek (s : State) (ag : Agent) (pl : Place) (v : Byte) :
    (∀ l, cellOf l ≠ cellOf pl.loc → (s.writePlace ag pl v).peek l = s.peek l) ∧
      ((cellOf pl.loc).1 ≠ 3 → (s.writePlace ag pl v).peek pl.loc = v) := by
  have hk : Keeps (fun p => decide (p ≠ .memory)) s (((s.cacheAccess ag pl true).rdcInvalidate pl.dev).markStale ag pl) := by
    have hp : covers (fun p => decide (p ≠ .memory)) [.tier] := covers_noMemory rfl
    exact keeps_markStale _ _ _ (keeps_rdcInvalidate _ _ (keeps_cacheAccess _ _ _ _ (keeps_refl s)))
  constructor
  · intro l hl
    unfold State.writePlace
    rw [peek_poke_ne _ _ hl]
    exact peek_of_keeps hk l
  · intro h3
    exact peek_poke_self _ h3 v

/-- Writing a range writes each place's byte. -/
theorem writePlaces_peek (ag : Agent) (ps : List Place) (data : Bytes) (s : State) (hlen : ps.length = data.length)
    (hc : ∀ pl ∈ ps, (cellOf pl.loc).1 ≠ 3) (hn : (ps.map fun pl => cellOf pl.loc).Nodup) :
    (∀ l, cellOf l ∉ ps.map (fun pl => cellOf pl.loc) → (s.writePlaces ag ps data).peek l = s.peek l) ∧
      ∀ (i : Nat) (h : i < ps.length), (s.writePlaces ag ps data).peek ps[i].loc = data.getD i 0 := by
  induction ps generalizing s data with
  | nil => exact ⟨fun l _ => by cases data <;> rfl, fun i h => absurd h (by simp)⟩
  | cons pl ps ih =>
    cases data with
    | nil => simp at hlen
    | cons b bs =>
      simp only [List.map_cons, List.nodup_cons] at hn
      have hw := writePlace_peek s ag pl b
      have hi := ih bs (s.writePlace ag pl b) (by simpa using hlen) (fun x hx => hc x (by simp [hx])) hn.2
      refine ⟨fun l hl => ?_, fun i h => ?_⟩
      · simp only [List.map_cons, List.mem_cons, not_or] at hl
        unfold State.writePlaces
        rw [hi.1 l hl.2, hw.1 l hl.1]
      · cases i with
        | zero =>
          show (State.writePlaces _ ag ps bs).peek pl.loc = b
          rw [hi.1 _ hn.1]
          exact hw.2 (hc pl (by simp))
        | succ i =>
          have := hi.2 i (by simpa using h)
          simpa [State.writePlaces] using this

theorem placesOf_length {s : State} {ag : Agent} {w : Bool} {a n : Nat} {ps : List Place} (h : s.placesOf ag w a n = some ps) :
    ps.length = n := by
  induction n generalizing a ps with
  | zero => cases h; rfl
  | succ n ih =>
    unfold State.placesOf at h
    split at h
    · cases h
    · split at h
      · split at h
        · cases h; simp [ih ‹_›]
        · cases h
      · cases h

/-- A store that no rule drops writes its bytes to its places and leaves every other byte of memory alone. -/
theorem store_peek {s : State} {ag : Agent} {a : Nat} {data : Bytes} {ps : List Place} (hh : s.needsHold a = none)
    (hp : s.placesOf ag true a data.length = some ps) (hg : s.guards ag ps = .ok)
    (hc : ∀ pl ∈ ps, (cellOf pl.loc).1 ≠ 3) (hn : (ps.map fun pl => cellOf pl.loc).Nodup) :
    memoryKeptBut (ps.map (·.loc)) s (s.store ag a data) ∧
      ∀ (i : Nat) (h : i < ps.length), (s.store ag a data).peek ps[i].loc = data.getD i 0 := by
  have e : s.store ag a data = ((((s.recall ag ps).writePlaces ag ps data).mirrorWrite (s.agentBeat ag) ag ps data).scanGrad (s.agentBeat ag) ps data).unlistWritten ps := by
    unfold State.store State.storeIn
    rw [hh]
    dsimp only
    rw [hh]
    dsimp only
    rw [hp]
    dsimp only
    rw [hg]
  have h1 : Keeps (fun p => decide (p ≠ .memory)) s (s.recall ag ps) := keeps_recall _ _ _ (keeps_refl s)
  have h2 : ∀ u : State, Keeps (fun p => decide (p ≠ .memory)) u (((u.mirrorWrite (s.agentBeat ag) ag ps data).scanGrad (s.agentBeat ag) ps data).unlistWritten ps) := by
    intro u
    have hp : covers (fun p => decide (p ≠ .memory)) [.regs, .upd, .tier, .ports, .casc] := covers_noMemory rfl
    exact keeps_unlistWritten _ _ (keeps_scanGrad _ _ _ _ (keeps_mirrorWrite _ _ _ _ _ (keeps_refl u)))
  have hw := writePlaces_peek ag ps data (s.recall ag ps) (placesOf_length hp) hc hn
  rw [e]
  refine ⟨fun l hl => ?_, fun i h => ?_⟩
  · rw [peek_of_keeps (h2 _), hw.1 l (by simpa using hl), peek_of_keeps h1]
  · rw [peek_of_keeps (h2 _), hw.2 i h]

/-- A fetch writes no byte. -/
theorem fetch_peek (s : State) (ag : Agent) (a n : Nat) (l : Loc) : (s.fetch ag a n).2.peek l = s.peek l := by
  have hp : covers (fun p => decide (p ≠ .memory)) [.regs, .slots, .beat, .units, .cores, .upd, .tier, .forager, .mods, .ports, .casc, .host, .test] := covers_noMemory rfl
  exact peek_of_keeps (keeps_fetch _ _ _ _ (keeps_refl s)) l

end Sys2Proof.Laws
end

