-- ==== Sys2Proof/Laws/KeepsBeat.lean ====
section
/-! SUPPORT. Fingerings, plans, beats, verdicts and the cascade keep the queue, the records sent out, the memory form, the fuses, and every part of the machine that they do not name. -/

namespace Sys2Proof.Laws

-- one theorem after another: hundreds at once run out of threads
set_option Elab.async false

open Sys2Proof Sys2Proof.Machine

/-! ### Checks -/

theorem keeps_withModes {P : StatePart → Bool} {σ : State} (s : State) (modes : Nat) (hσ : Keeps P σ s)
    (hp : covers P [.regs] := by exact hp.sub rfl) :
    Keeps P σ (State.withModes s modes) := by
  unfold State.withModes
  repeat' first
    | (with_reducible show covers P _; exact hp.sub rfl) | with_reducible assumption | with_reducible apply keeps_setReg
    | with_reducible refine keeps_foldl (fun _ _ σ _ => ?_) ?_

/-! ### Fingering -/

theorem keeps_logRefusal {P : StatePart → Bool} {σ : State} (s : State) (u : UnitCode) (r : Refused) (hσ : Keeps P σ s)
    (hp : covers P [.regs, .beat] := by exact hp.sub rfl) :
    Keeps P σ (State.logRefusal s u r) := by
  unfold State.logRefusal
  repeat' first
    | (with_reducible show covers P _; exact hp.sub rfl)
    | (intro (x : State); refine (fun (hx : Keeps P σ x) => ?_) ?_; (on_goal 1 => clear_value x); (on_goal 2 => dsimp only [x]))
    | lift_lets | with_reducible refine keeps_ite (fun _ => ?_) (fun _ => ?_) | with_reducible assumption
    | with_reducible apply keeps_logEntry | split

theorem keeps_fingCode {P : StatePart → Bool} {σ : State} (s : State) (u : UnitCode) (r : Refused) (hσ : Keeps P σ s)
    (hp : covers P [.regs, .beat] := by exact hp.sub rfl) :
    Keeps P σ (State.fingCode s u r) := by
  unfold State.fingCode
  repeat' first
    | (with_reducible show covers P _; exact hp.sub rfl) | with_reducible assumption | with_reducible apply keeps_logRefusal
    | with_reducible apply keeps_msixBoth | with_reducible apply keeps_setFld

theorem keeps_applyLoad {P : StatePart → Bool} {σ : State} (f : FSlot) (s : State) (hσ : Keeps P σ s)
    (hp : covers P [.regs, .slots, .beat, .tier] := by exact hp.sub rfl) :
    Keeps P σ (applyLoad f s) := by
  unfold applyLoad
  repeat' first
    | (with_reducible show covers P _; exact hp.sub rfl)
    | (intro (x : State); refine (fun (hx : Keeps P σ x) => ?_) ?_; (on_goal 1 => clear_value x); (on_goal 2 => dsimp only [x]))
    | (intro x; clear_value x) | lift_lets | with_reducible refine keeps_ite (fun _ => ?_) (fun _ => ?_)
    | with_reducible assumption | with_reducible apply keeps_fingCode | with_reducible apply keeps_leaveHold
    | with_reducible apply keeps_setBit | with_reducible apply keeps_setSlot | with_reducible apply keeps_setSlotState

theorem keeps_undefineGroup {P : StatePart → Bool} {σ : State} (s : State) (q : Nat) (hσ : Keeps P σ s)
    (hp : covers P [.memory] := by exact hp.sub rfl) :
    Keeps P σ (State.undefineGroup s q) := by
  unfold State.undefineGroup
  have hd : Keeps P σ s.draw.2 := keeps_draw hσ
  generalize s.draw = x at hd
  obtain ⟨st, u⟩ := x
  refine keeps_trans hd (keeps_dram _ _ fun h => ?_)
  generalize List.range 16 = l
  generalize u.dram = m at h
  induction l generalizing m with
  | nil => exact h
  | cons a as ih => exact ih _ (wf_undefine h _ _ _)

theorem keeps_applyModes {P : StatePart → Bool} {σ : State} (s : State) (modes : Nat) (hσ : Keeps P σ s)
    (hp : covers P [.regs, .memory] := by exact hp.sub rfl) :
    Keeps P σ (State.applyModes s modes) := by
  unfold State.applyModes
  repeat' first
    | (with_reducible show covers P _; exact hp.sub rfl)
    | (intro (x : State); refine (fun (hx : Keeps P σ x) => ?_) ?_; (on_goal 1 => clear_value x); (on_goal 2 => dsimp only [x]))
    | (intro x; clear_value x) | lift_lets | with_reducible refine keeps_ite (fun _ => ?_) (fun _ => ?_)
    | with_reducible assumption | with_reducible apply keeps_undefineGroup | with_reducible apply keeps_withModes
    | with_reducible refine keeps_foldl (fun _ _ σ _ => ?_) ?_

theorem keeps_refuseSlot {P : StatePart → Bool} {σ : State} (s : State) (f : FSlot) (r : Refused) (hσ : Keeps P σ s)
    (hp : covers P [.regs, .slots, .beat] := by exact hp.sub rfl) :
    Keeps P σ (State.refuseSlot s f r) := by
  unfold State.refuseSlot
  repeat' first
    | (with_reducible show covers P _; exact hp.sub rfl)
    | (intro (x : State); refine (fun (hx : Keeps P σ x) => ?_) ?_; (on_goal 1 => clear_value x); (on_goal 2 => dsimp only [x]))
    | (intro x; clear_value x) | lift_lets | with_reducible assumption | with_reducible apply keeps_fingCode
    | with_reducible apply keeps_setSlot | with_reducible apply keeps_setSlotState

theorem keeps_applyVerifyDone {P : StatePart → Bool} {σ : State} (f : FSlot) (s : State) (hσ : Keeps P σ s)
    (hp : covers P [.regs, .memory, .slots, .beat] := by exact hp.sub rfl) :
    Keeps P σ (applyVerifyDone f s) := by
  unfold applyVerifyDone
  repeat' first
    | (with_reducible show covers P _; exact hp.sub rfl)
    | (intro (x : State); refine (fun (hx : Keeps P σ x) => ?_) ?_; (on_goal 1 => clear_value x); (on_goal 2 => dsimp only [x]))
    | (intro x; clear_value x) | lift_lets | with_reducible refine keeps_ite (fun _ => ?_) (fun _ => ?_)
    | with_reducible assumption | with_reducible apply keeps_applyModes | with_reducible apply keeps_fingCode
    | with_reducible apply keeps_refuseSlot | with_reducible apply keeps_setBit | with_reducible apply keeps_setSlot
    | with_reducible apply keeps_setSlotState | split

theorem keeps_forgetHomes {P : StatePart → Bool} {σ : State} (s : State) (hσ : Keeps P σ s)
    (hp : covers P [.regs, .tier] := by exact hp.sub rfl) :
    Keeps P σ (State.forgetHomes s) := by
  unfold State.forgetHomes
  repeat' first
    | (with_reducible show covers P _; exact hp.sub rfl)
    | (intro (x : State); refine (fun (hx : Keeps P σ x) => ?_) ?_; (on_goal 1 => clear_value x); (on_goal 2 => dsimp only [x]))
    | (intro x; clear_value x) | lift_lets | with_reducible assumption | with_reducible apply keeps_showHolds
    | with_reducible refine keeps_foldl (fun _ _ σ _ => ?_) ?_ | ((conv in (State.mk ..) => skip); with_reducible apply keeps_upd)
    | (refine UpdOk.mk ?_; intro p; cases p <;> first | (apply Or.inl; apply hp.get; rfl) | exact Or.inr rfl)

theorem keeps_applyEvict {P : StatePart → Bool} {σ : State} (f : FSlot) (s : State) (hσ : Keeps P σ s)
    (hp : covers P [.regs, .slots, .beat, .tier] := by exact hp.sub rfl) :
    Keeps P σ (applyEvict f s) := by
  unfold applyEvict
  repeat' first
    | (with_reducible show covers P _; exact hp.sub rfl)
    | (intro (x : State); refine (fun (hx : Keeps P σ x) => ?_) ?_; (on_goal 1 => clear_value x); (on_goal 2 => dsimp only [x]))
    | lift_lets | with_reducible refine keeps_ite (fun _ => ?_) (fun _ => ?_) | with_reducible assumption
    | with_reducible apply keeps_fingCode | with_reducible apply keeps_forgetHomes | with_reducible apply keeps_setSlot
    | with_reducible apply keeps_setSlotState

theorem keeps_startHomes {P : StatePart → Bool} {σ : State} (s : State) (g : Fing) (hσ : Keeps P σ s)
    (hp : covers P [.regs, .tier] := by exact hp.sub rfl) :
    Keeps P σ (State.startHomes s g) := by
  unfold State.startHomes
  repeat' first
    | (with_reducible show covers P _; exact hp.sub rfl)
    | (intro (x : State); refine (fun (hx : Keeps P σ x) => ?_) ?_; (on_goal 1 => clear_value x); (on_goal 2 => dsimp only [x]))
    | (intro x; clear_value x) | lift_lets | with_reducible refine keeps_ite (fun _ => ?_) (fun _ => ?_)
    | with_reducible assumption | with_reducible apply keeps_forgetHomes
    | ((conv in (State.mk ..) => skip); with_reducible apply keeps_upd)
    | (refine UpdOk.mk ?_; intro p; cases p <;> first | (apply Or.inl; apply hp.get; rfl) | exact Or.inr rfl)

theorem keeps_dropGuests {P : StatePart → Bool} {σ : State} (s : State) (g : Fing) (hσ : Keeps P σ s)
    (hp : covers P [.regs, .test] := by exact hp.sub rfl) :
    Keeps P σ (State.dropGuests s g) := by
  unfold State.dropGuests
  repeat' first
    | (with_reducible show covers P _; exact hp.sub rfl)
    | (intro (x : State); refine (fun (hx : Keeps P σ x) => ?_) ?_; (on_goal 1 => clear_value x); (on_goal 2 => dsimp only [x]))
    | lift_lets | with_reducible refine keeps_ite (fun _ => ?_) (fun _ => ?_) | with_reducible assumption
    | with_reducible apply keeps_setBit | with_reducible apply keeps_setFld | with_reducible apply keeps_setReg
    | with_reducible apply keeps_showGuests | with_reducible apply keeps_unmerge
    | with_reducible refine keeps_foldl (fun _ _ σ _ => ?_) ?_

theorem keeps_showCascade {P : StatePart → Bool} {σ : State} (s : State) (g : Fing) (hσ : Keeps P σ s)
    (hp : covers P [.regs, .casc] := by exact hp.sub rfl) :
    Keeps P σ (State.showCascade s g) := by
  unfold State.showCascade
  repeat' first
    | (with_reducible show covers P _; exact hp.sub rfl)
    | (intro (x : State); refine (fun (hx : Keeps P σ x) => ?_) ?_; (on_goal 1 => clear_value x); (on_goal 2 => dsimp only [x]))
    | (intro x; clear_value x) | lift_lets | with_reducible assumption | with_reducible apply keeps_setFld
    | with_reducible apply keeps_setReg | with_reducible apply keeps_showRoles | split
    | ((conv in (State.mk ..) => skip); with_reducible apply keeps_upd)
    | (refine UpdOk.mk ?_; intro p; cases p <;> first | (apply Or.inl; apply hp.get; rfl) | exact Or.inr rfl)

theorem keeps_showStep {P : StatePart → Bool} {σ : State} (s : State) (hσ : Keeps P σ s)
    (hp : covers P [.regs] := by exact hp.sub rfl) :
    Keeps P σ (State.showStep s) := by
  unfold State.showStep
  repeat' first
    | (with_reducible show covers P _; exact hp.sub rfl) | (intro x; clear_value x) | lift_lets | with_reducible assumption
    | with_reducible apply keeps_setReg | with_reducible refine keeps_foldl (fun _ _ σ _ => ?_) ?_ | split

theorem keeps_adoptPlan {P : StatePart → Bool} {σ : State} (s : State) (g : Fing) (hσ : Keeps P σ s)
    (hp : covers P [.regs, .beat, .forager, .casc] := by exact hp.sub rfl) :
    Keeps P σ (State.adoptPlan s g) := by
  unfold State.adoptPlan
  repeat' first
    | (with_reducible show covers P _; exact hp.sub rfl)
    | (intro (x : State); refine (fun (hx : Keeps P σ x) => ?_) ?_; (on_goal 1 => clear_value x); (on_goal 2 => dsimp only [x]))
    | (intro x; clear_value x) | lift_lets | with_reducible assumption | with_reducible apply keeps_setBit
    | with_reducible apply keeps_setFld | with_reducible apply keeps_showCascade | with_reducible apply keeps_showEngines
    | ((conv in (State.mk ..) => skip); with_reducible apply keeps_upd)
    | (refine UpdOk.mk ?_; intro p; cases p <;> first | (apply Or.inl; apply hp.get; rfl) | exact Or.inr rfl)

theorem keeps_clearRun {P : StatePart → Bool} {σ : State} (s : State) (hσ : Keeps P σ s)
    (hp : covers P [.regs, .beat, .watch, .upd, .tier, .forager, .casc, .host] := by exact hp.sub rfl) :
    Keeps P σ (State.clearRun s) := by
  unfold State.clearRun
  repeat' first
    | (with_reducible show covers P _; exact hp.sub rfl)
    | (intro (x : State); refine (fun (hx : Keeps P σ x) => ?_) ?_; (on_goal 1 => clear_value x); (on_goal 2 => dsimp only [x]))
    | (intro x; clear_value x) | lift_lets | with_reducible assumption | with_reducible apply keeps_setBit
    | with_reducible apply keeps_setFld | with_reducible apply keeps_setReg
    | ((conv in (State.mk ..) => skip); with_reducible apply keeps_upd)
    | (refine UpdOk.mk ?_; intro p; cases p <;> first | (apply Or.inl; apply hp.get; rfl) | exact Or.inr rfl)

theorem keeps_sendJoin {P : StatePart → Bool} {σ : State} (s : State) (g : Fing) (hσ : Keeps P σ s)
    (hp : covers P [.casc] := by exact hp.sub rfl) :
    Keeps P σ (State.sendJoin s g) := by
  unfold State.sendJoin
  repeat' first
    | (intro x; clear_value x) | lift_lets | with_reducible refine keeps_ite (fun _ => ?_) (fun _ => ?_)
    | with_reducible assumption | ((conv in (State.mk ..) => skip); with_reducible apply keeps_upd)
    | (refine UpdOk.mk ?_; intro p; cases p <;> first | (apply Or.inl; apply hp.get; rfl) | exact Or.inr rfl)

theorem keeps_sendJoins {P : StatePart → Bool} {σ : State} (s : State) (hσ : Keeps P σ s)
    (hp : covers P [.regs, .ports, .casc] := by exact hp.sub rfl) :
    Keeps P σ (State.sendJoins s) := by
  unfold State.sendJoins
  repeat' first
    | (with_reducible show covers P _; exact hp.sub rfl)
    | (intro (x : State); refine (fun (hx : Keeps P σ x) => ?_) ?_; (on_goal 1 => clear_value x); (on_goal 2 => dsimp only [x]))
    | (intro x; clear_value x) | lift_lets | with_reducible assumption | with_reducible apply keeps_controlTo
    | with_reducible refine keeps_foldl (fun _ _ σ _ => ?_) ?_ | ((conv in (State.mk ..) => skip); with_reducible apply keeps_upd)
    | (refine UpdOk.mk ?_; intro p; cases p <;> first | (apply Or.inl; apply hp.get; rfl) | exact Or.inr rfl)

theorem keeps_begin {P : StatePart → Bool} {σ : State} (s : State) (f : FSlot) (g : Fing) (hσ : Keeps P σ s)
    (hp : covers P [.regs, .slots, .beat, .watch, .upd, .tier, .forager, .ports, .casc, .host, .test] := by exact hp.sub rfl) :
    Keeps P σ (State.begin s f g) := by
  unfold State.begin
  repeat' first
    | (with_reducible show covers P _; exact hp.sub rfl)
    | (intro (x : State); refine (fun (hx : Keeps P σ x) => ?_) ?_; (on_goal 1 => clear_value x); (on_goal 2 => dsimp only [x]))
    | (intro x; clear_value x) | lift_lets | with_reducible assumption | with_reducible apply keeps_adoptPlan
    | with_reducible apply keeps_clearRun | with_reducible apply keeps_dropGuests | with_reducible apply keeps_sendJoin
    | with_reducible apply keeps_setBit | with_reducible apply keeps_setFld | with_reducible apply keeps_setSlotState
    | with_reducible apply keeps_showStep | with_reducible apply keeps_trainAll
    | ((conv in (State.mk ..) => skip); with_reducible apply keeps_upd)
    | (refine UpdOk.mk ?_; intro p; cases p <;> first | (apply Or.inl; apply hp.get; rfl) | exact Or.inr rfl)

theorem keeps_applyStart {P : StatePart → Bool} {σ : State} (f : FSlot) (t : Nat) (s : State) (hσ : Keeps P σ s)
    (hp : covers P [.now, .regs, .slots, .beat, .watch, .upd, .tier, .forager, .ports, .casc, .host, .test] := by exact hp.sub rfl) :
    Keeps P σ (applyStart f t s) := by
  unfold applyStart
  repeat' first
    | (with_reducible show covers P _; exact hp.sub rfl)
    | (intro (x : State); refine (fun (hx : Keeps P σ x) => ?_) ?_; (on_goal 1 => clear_value x); (on_goal 2 => dsimp only [x]))
    | lift_lets | with_reducible refine keeps_ite (fun _ => ?_) (fun _ => ?_) | with_reducible assumption
    | with_reducible apply keeps_at | with_reducible apply keeps_begin | with_reducible apply keeps_fingCode
    | with_reducible apply keeps_leaveHold | with_reducible apply keeps_refuseSlot | with_reducible apply keeps_startHomes | split

theorem keeps_applyStop {P : StatePart → Bool} {σ : State} (s : State) (hσ : Keeps P σ s)
    (hp : covers P [.regs, .beat] := by exact hp.sub rfl) :
    Keeps P σ (applyStop s) := by
  unfold applyStop
  repeat' first
    | (with_reducible show covers P _; exact hp.sub rfl)
    | (intro (x : State); refine (fun (hx : Keeps P σ x) => ?_) ?_; (on_goal 1 => clear_value x); (on_goal 2 => dsimp only [x]))
    | (intro x; clear_value x) | lift_lets | with_reducible refine keeps_ite (fun _ => ?_) (fun _ => ?_)
    | with_reducible assumption | with_reducible apply keeps_fingCode
    | ((conv in (State.mk ..) => skip); with_reducible apply keeps_upd)
    | (refine UpdOk.mk ?_; intro p; cases p <;> first | (apply Or.inl; apply hp.get; rfl) | exact Or.inr rfl)

/-! ### Plan -/

theorem keeps_setWindow {P : StatePart → Bool} {σ : State} (s : State) (beat : Nat) (f : Win → Win) (hσ : Keeps P σ s)
    (hp : covers P [.beat] := by exact hp.sub rfl) :
    Keeps P σ (State.setWindow s beat f) := by
  unfold State.setWindow
  repeat' first
    | with_reducible assumption | ((conv in (State.mk ..) => skip); with_reducible apply keeps_upd)
    | (refine UpdOk.mk ?_; intro p; cases p <;> first | (apply Or.inl; apply hp.get; rfl) | exact Or.inr rfl)

theorem keeps_choosePower {P : StatePart → Bool} {σ : State} (s : State) (u : UnitId) (t : Nat) (hσ : Keeps P σ s)
    (hp : covers P [.regs, .units] := by exact hp.sub rfl) :
    Keeps P σ (State.choosePower s u t) := by
  unfold State.choosePower
  repeat' first
    | (with_reducible show covers P _; exact hp.sub rfl) | with_reducible refine keeps_ite (fun _ => ?_) (fun _ => ?_)
    | with_reducible assumption | with_reducible apply keeps_setPower | split

/-! ### Damage -/

theorem keeps_damage {P : StatePart → Bool} {σ : State} (s : State) (d : Damage) (hσ : Keeps P σ s)
    (hp : covers P [.regs, .memory, .slots, .beat, .units, .cores, .upd, .tier, .forager, .mods, .ports, .casc, .host, .test] := by exact hp.sub rfl) :
    Keeps P σ (State.damage s d) := by
  unfold State.damage
  repeat' first
    | (with_reducible show covers P _; exact hp.sub rfl)
    | (intro (x : State); refine (fun (hx : Keeps P σ x) => ?_) ?_; (on_goal 1 => clear_value x); (on_goal 2 => dsimp only [x]))
    | (intro x; clear_value x) | lift_lets | with_reducible refine keeps_ite (fun _ => ?_) (fun _ => ?_)
    | with_reducible assumption | with_reducible apply keeps_forgCode | with_reducible apply keeps_raiseCycle
    | with_reducible apply keeps_setBit | with_reducible apply keeps_setReg | with_reducible apply keeps_store

/-! ### Verdict -/

theorem keeps_showAllWga {P : StatePart → Bool} {σ : State} (s : State) (hσ : Keeps P σ s)
    (hp : covers P [.regs] := by exact hp.sub rfl) :
    Keeps P σ (State.showAllWga s) := by
  unfold State.showAllWga
  repeat' first
    | (with_reducible show covers P _; exact hp.sub rfl) | (intro x; clear_value x) | lift_lets | with_reducible assumption
    | with_reducible apply keeps_showWga | with_reducible refine keeps_foldl (fun _ _ σ _ => ?_) ?_

theorem keeps_commitWga {P : StatePart → Bool} {σ : State} (s : State) (beat : Nat) (hσ : Keeps P σ s)
    (hp : covers P [.regs, .cores] := by exact hp.sub rfl) :
    Keeps P σ (State.commitWga s beat) := by
  unfold State.commitWga
  repeat' first
    | (with_reducible show covers P _; exact hp.sub rfl) | (intro x; clear_value x) | lift_lets | with_reducible assumption
    | with_reducible apply keeps_showAllWga | ((conv in (State.mk ..) => skip); with_reducible apply keeps_upd)
    | (refine UpdOk.mk ?_; intro p; cases p <;> first | (apply Or.inl; apply hp.get; rfl) | exact Or.inr rfl)

theorem keeps_replayWga {P : StatePart → Bool} {σ : State} (s : State) (hσ : Keeps P σ s)
    (hp : covers P [.regs, .cores] := by exact hp.sub rfl) :
    Keeps P σ (State.replayWga s) := by
  unfold State.replayWga
  repeat' first
    | (with_reducible show covers P _; exact hp.sub rfl) | with_reducible assumption | with_reducible apply keeps_showAllWga
    | ((conv in (State.mk ..) => skip); with_reducible apply keeps_upd)
    | (refine UpdOk.mk ?_; intro p; cases p <;> first | (apply Or.inl; apply hp.get; rfl) | exact Or.inr rfl)

theorem keeps_showScan {P : StatePart → Bool} {σ : State} (s : State) (hσ : Keeps P σ s)
    (hp : covers P [.regs] := by exact hp.sub rfl) :
    Keeps P σ (State.showScan s) := by
  unfold State.showScan
  repeat' first
    | (with_reducible show covers P _; exact hp.sub rfl) | (intro x; clear_value x) | lift_lets | with_reducible assumption
    | with_reducible apply keeps_setBit | with_reducible apply keeps_setReg
    | with_reducible refine keeps_foldl (fun _ _ σ _ => ?_) ?_

theorem keeps_commitScan {P : StatePart → Bool} {σ : State} (s : State) (beat pos : Nat) (hσ : Keeps P σ s)
    (hp : covers P [.regs, .upd] := by exact hp.sub rfl) :
    Keeps P σ (State.commitScan s beat pos) := by
  unfold State.commitScan
  repeat' first
    | (with_reducible show covers P _; exact hp.sub rfl) | (intro x; clear_value x) | lift_lets | with_reducible assumption
    | with_reducible apply keeps_showScan | ((conv in (State.mk ..) => skip); with_reducible apply keeps_upd)
    | (refine UpdOk.mk ?_; intro p; cases p <;> first | (apply Or.inl; apply hp.get; rfl) | exact Or.inr rfl)

theorem keeps_markSkip {P : StatePart → Bool} {σ : State} (s : State) (kind pos : Nat) (hσ : Keeps P σ s)
    (hp : covers P [.regs, .slots, .beat, .units, .cores, .upd, .tier, .forager, .mods, .ports, .casc, .host, .test] := by exact hp.sub rfl) :
    Keeps P σ (State.markSkip s kind pos) := by
  unfold State.markSkip
  repeat' first
    | (with_reducible show covers P _; exact hp.sub rfl) | with_reducible refine keeps_ite (fun _ => ?_) (fun _ => ?_)
    | with_reducible assumption | with_reducible apply keeps_raise | with_reducible apply keeps_showScan
    | ((conv in (State.mk ..) => skip); with_reducible apply keeps_upd)
    | (refine UpdOk.mk ?_; intro p; cases p <;> first | (apply Or.inl; apply hp.get; rfl) | exact Or.inr rfl)

theorem keeps_commitStep {P : StatePart → Bool} {σ : State} (s : State) (pos : Nat) (hσ : Keeps P σ s)
    (hp : covers P [.regs, .memory, .slots, .beat, .units, .cores, .upd, .tier, .forager, .mods, .ports, .casc, .host, .test] := by exact hp.sub rfl) :
    Keeps P σ (State.commitStep s pos) := by
  unfold State.commitStep
  repeat' first
    | (with_reducible show covers P _; exact hp.sub rfl)
    | (intro (x : State); refine (fun (hx : Keeps P σ x) => ?_) ?_; (on_goal 1 => clear_value x); (on_goal 2 => dsimp only [x]))
    | (intro x; clear_value x) | lift_lets | with_reducible refine keeps_ite (fun _ => ?_) (fun _ => ?_)
    | with_reducible assumption | with_reducible apply keeps_showScan | with_reducible apply keeps_showStep
    | with_reducible apply keeps_store | split | ((conv in (State.mk ..) => skip); with_reducible apply keeps_upd)
    | (refine UpdOk.mk ?_; intro p; cases p <;> first | (apply Or.inl; apply hp.get; rfl) | exact Or.inr rfl)

theorem keeps_commitRates {P : StatePart → Bool} {σ : State} (s : State) (beat : Nat) (hσ : Keeps P σ s)
    (hp : covers P [.upd] := by exact hp.sub rfl) :
    Keeps P σ (State.commitRates s beat) := by
  unfold State.commitRates
  repeat' first
    | with_reducible refine keeps_ite (fun _ => ?_) (fun _ => ?_) | with_reducible assumption | split
    | ((conv in (State.mk ..) => skip); with_reducible apply keeps_upd)
    | (refine UpdOk.mk ?_; intro p; cases p <;> first | (apply Or.inl; apply hp.get; rfl) | exact Or.inr rfl)

theorem keeps_replayUpd {P : StatePart → Bool} {σ : State} (s : State) (hσ : Keeps P σ s)
    (hp : covers P [.upd] := by exact hp.sub rfl) :
    Keeps P σ (State.replayUpd s) := by
  unfold State.replayUpd
  repeat' first
    | with_reducible assumption | ((conv in (State.mk ..) => skip); with_reducible apply keeps_upd)
    | (refine UpdOk.mk ?_; intro p; cases p <;> first | (apply Or.inl; apply hp.get; rfl) | exact Or.inr rfl)

theorem keeps_engineTest {P : StatePart → Bool} {σ : State} (s : State) (n : Nat) (hσ : Keeps P σ s)
    (hp : covers P [.regs, .test] := by exact hp.sub rfl) :
    Keeps P σ (State.engineTest s n) := by
  unfold State.engineTest
  repeat' first
    | (with_reducible show covers P _; exact hp.sub rfl)
    | (intro (x : State); refine (fun (hx : Keeps P σ x) => ?_) ?_; (on_goal 1 => clear_value x); (on_goal 2 => dsimp only [x]))
    | (intro x; clear_value x) | lift_lets | with_reducible refine keeps_ite (fun _ => ?_) (fun _ => ?_)
    | with_reducible assumption | with_reducible apply keeps_emit | with_reducible apply keeps_setBit | split
    | ((conv in (State.mk ..) => skip); with_reducible apply keeps_upd)
    | (refine UpdOk.mk ?_; intro p; cases p <;> first | (apply Or.inl; apply hp.get; rfl) | exact Or.inr rfl)

theorem keeps_engineTests {P : StatePart → Bool} {σ : State} (s : State) (pos : Nat) (hσ : Keeps P σ s)
    (hp : covers P [.regs, .test] := by exact hp.sub rfl) :
    Keeps P σ (State.engineTests s pos) := by
  unfold State.engineTests
  repeat' first
    | (with_reducible show covers P _; exact hp.sub rfl) | (intro x; clear_value x) | lift_lets
    | with_reducible refine keeps_ite (fun _ => ?_) (fun _ => ?_) | with_reducible assumption
    | with_reducible apply keeps_engineTest | with_reducible refine keeps_foldl (fun _ _ σ _ => ?_) ?_

theorem keeps_setHome {P : StatePart → Bool} {σ : State} (s : State) (tensor home : Nat) (hσ : Keeps P σ s)
    (hp : covers P [.tier] := by exact hp.sub rfl) :
    Keeps P σ (State.setHome s tensor home) := by
  unfold State.setHome
  repeat' first
    | with_reducible assumption | ((conv in (State.mk ..) => skip); with_reducible apply keeps_upd)
    | (refine UpdOk.mk ?_; intro p; cases p <;> first | (apply Or.inl; apply hp.get; rfl) | exact Or.inr rfl)

theorem keeps_dropRdcRange {P : StatePart → Bool} {σ : State} (s : State) (a n : Nat) (hσ : Keeps P σ s)
    (hp : covers P [.tier] := by exact hp.sub rfl) :
    Keeps P σ (State.dropRdcRange s a n) := by
  unfold State.dropRdcRange
  repeat' first
    | with_reducible assumption | ((conv in (State.mk ..) => skip); with_reducible apply keeps_upd)
    | (refine UpdOk.mk ?_; intro p; cases p <;> first | (apply Or.inl; apply hp.get; rfl) | exact Or.inr rfl)

theorem keeps_undefineRange {P : StatePart → Bool} {σ : State} (s : State) (a n : Nat) (hσ : Keeps P σ s)
    (hp : covers P [.memory] := by exact hp.sub rfl) :
    Keeps P σ (State.undefineRange s a n) := by
  unfold State.undefineRange
  repeat' first
    | (with_reducible show covers P _; exact hp.sub rfl)
    | (intro (x : _ × State); refine (fun (hx : Keeps P σ x.2) => ?_) ?_; (on_goal 1 => clear_value x); (on_goal 2 => dsimp only [x]))
    | lift_lets | with_reducible assumption | with_reducible apply keeps_draw | with_reducible apply keeps_unknow
    | with_reducible refine keeps_foldl (fun _ _ σ _ => ?_) ?_ | split

theorem keeps_expireCopies {P : StatePart → Bool} {σ : State} (s : State) (ends : WinCopy → Bool) (hσ : Keeps P σ s)
    (hp : covers P [.memory, .tier] := by exact hp.sub rfl) :
    Keeps P σ (State.expireCopies s ends) := by
  unfold State.expireCopies
  repeat' first
    | (with_reducible show covers P _; exact hp.sub rfl)
    | (intro (x : State); refine (fun (hx : Keeps P σ x) => ?_) ?_; (on_goal 1 => clear_value x); (on_goal 2 => dsimp only [x]))
    | (intro x; clear_value x) | lift_lets | with_reducible assumption | with_reducible apply keeps_undefineRange
    | with_reducible refine keeps_foldl (fun _ _ σ _ => ?_) ?_ | split
    | ((conv in (State.mk ..) => skip); with_reducible apply keeps_upd)
    | (refine UpdOk.mk ?_; intro p; cases p <;> first | (apply Or.inl; apply hp.get; rfl) | exact Or.inr rfl)

theorem keeps_commitMove {P : StatePart → Bool} {σ : State} (s : State) (beat : Nat) (m : MoveSt) (hσ : Keeps P σ s)
    (hp : covers P [.regs, .slots, .beat, .units, .cores, .upd, .tier, .forager, .mods, .ports, .casc, .host, .test] := by exact hp.sub rfl) :
    Keeps P σ (State.commitMove s beat m) := by
  unfold State.commitMove
  repeat' first
    | (with_reducible show covers P _; exact hp.sub rfl)
    | (intro (x : State); refine (fun (hx : Keeps P σ x) => ?_) ?_; (on_goal 1 => clear_value x); (on_goal 2 => dsimp only [x]))
    | (intro x; clear_value x) | lift_lets | with_reducible refine keeps_ite (fun _ => ?_) (fun _ => ?_)
    | with_reducible assumption | with_reducible apply keeps_bumpSat | with_reducible apply keeps_dropRdcRange
    | with_reducible apply keeps_raise | with_reducible apply keeps_setHome
    | ((conv in (State.mk ..) => skip); with_reducible apply keeps_upd)
    | (refine UpdOk.mk ?_; intro p; cases p <;> first | (apply Or.inl; apply hp.get; rfl) | exact Or.inr rfl)

theorem keeps_commitMoves {P : StatePart → Bool} {σ : State} (s : State) (beat : Nat) (hσ : Keeps P σ s)
    (hp : covers P [.regs, .slots, .beat, .units, .cores, .upd, .tier, .forager, .mods, .ports, .casc, .host, .test] := by exact hp.sub rfl) :
    Keeps P σ (State.commitMoves s beat) := by
  unfold State.commitMoves
  repeat' first
    | (with_reducible show covers P _; exact hp.sub rfl) | with_reducible assumption | with_reducible apply keeps_commitMove
    | with_reducible apply keeps_showMoves | with_reducible refine keeps_foldl (fun _ _ σ _ => ?_) ?_

theorem keeps_replayMove {P : StatePart → Bool} {σ : State} (s : State) (beat : Nat) (m : MoveSt) (hσ : Keeps P σ s)
    (hp : covers P [.memory, .tier, .host] := by exact hp.sub rfl) :
    Keeps P σ (State.replayMove s beat m) := by
  unfold State.replayMove
  lift_lets
  intro drop put
  have hd : ∀ (u b : State), Keeps P b u → Keeps P b (drop u) := fun u b hu => keeps_upd hu
  have hq : ∀ (u b : State) (y : MoveSt), Keeps P b u → Keeps P b (put u y) := fun u b y hu => keeps_upd hu
  clear_value drop put
  refine keeps_ite (fun _ => ?_) (fun _ => ?_)
  · have h1 : Keeps P σ (if m.complete = true then (s.setHome m.tensor m.source).undefineRange m.target m.length else s) :=
      keeps_ite (fun _ => keeps_undefineRange _ _ _ (keeps_setHome _ _ _ hσ)) (fun _ => hσ)
    exact keeps_ite (fun _ => hd _ _ h1) (fun _ => hq _ _ _ h1)
  · have h2 : Keeps P σ (if m.marked < m.progress then s.undefineRange (m.target + m.marked) (m.progress - m.marked) else s) :=
      keeps_ite (fun _ => keeps_undefineRange _ _ _ hσ) (fun _ => hσ)
    exact keeps_ite (fun _ => hd _ _ h2) (fun _ => hq _ _ _ h2)

theorem keeps_replayMoves {P : StatePart → Bool} {σ : State} (s : State) (beat : Nat) (hσ : Keeps P σ s)
    (hp : covers P [.regs, .memory, .slots, .beat, .units, .cores, .upd, .tier, .forager, .mods, .ports, .casc, .host, .test] := by exact hp.sub rfl) :
    Keeps P σ (State.replayMoves s beat) := by
  unfold State.replayMoves
  repeat' first
    | (with_reducible show covers P _; exact hp.sub rfl) | with_reducible assumption | with_reducible apply keeps_askHomings
    | with_reducible apply keeps_replayMove | with_reducible apply keeps_showMoves
    | with_reducible refine keeps_foldl (fun _ _ σ _ => ?_) ?_

theorem keeps_showAllHolds {P : StatePart → Bool} {σ : State} (s : State) (hσ : Keeps P σ s)
    (hp : covers P [.regs] := by exact hp.sub rfl) :
    Keeps P σ (State.showAllHolds s) := by
  unfold State.showAllHolds
  repeat' first
    | (with_reducible show covers P _; exact hp.sub rfl) | with_reducible assumption | with_reducible apply keeps_showHolds
    | with_reducible refine keeps_foldl (fun _ _ σ _ => ?_) ?_

theorem keeps_commitHolds {P : StatePart → Bool} {σ : State} (s : State) (beat pos : Nat) (hσ : Keeps P σ s)
    (hp : covers P [.regs, .tier] := by exact hp.sub rfl) :
    Keeps P σ (State.commitHolds s beat pos) := by
  unfold State.commitHolds
  repeat' first
    | (with_reducible show covers P _; exact hp.sub rfl) | (intro x; clear_value x) | lift_lets | with_reducible assumption
    | with_reducible apply keeps_showAllHolds | ((conv in (State.mk ..) => skip); with_reducible apply keeps_upd)
    | (refine UpdOk.mk ?_; intro p; cases p <;> first | (apply Or.inl; apply hp.get; rfl) | exact Or.inr rfl)

theorem keeps_replayHolds {P : StatePart → Bool} {σ : State} (s : State) (beat : Nat) (hσ : Keeps P σ s)
    (hp : covers P [.regs, .tier, .ports] := by exact hp.sub rfl) :
    Keeps P σ (State.replayHolds s beat) := by
  unfold State.replayHolds
  repeat' first
    | (with_reducible show covers P _; exact hp.sub rfl) | with_reducible assumption | with_reducible apply keeps_dropWaits
    | with_reducible apply keeps_showAllHolds | ((conv in (State.mk ..) => skip); with_reducible apply keeps_upd)
    | (refine UpdOk.mk ?_; intro p; cases p <;> first | (apply Or.inl; apply hp.get; rfl) | exact Or.inr rfl)

theorem keeps_commitManifests {P : StatePart → Bool} {σ : State} (s : State) (beat pos last : Nat) (hσ : Keeps P σ s)
    (hp : covers P [.regs, .memory, .slots, .beat, .units, .cores, .upd, .tier, .forager, .mods, .ports, .casc, .host, .test] := by exact hp.sub rfl) :
    Keeps P σ (State.commitManifests s beat pos last) := by
  unfold State.commitManifests
  repeat' first
    | (with_reducible show covers P _; exact hp.sub rfl)
    | (intro (x : State); refine (fun (hx : Keeps P σ x) => ?_) ?_; (on_goal 1 => clear_value x); (on_goal 2 => dsimp only [x]))
    | (intro x; clear_value x) | lift_lets | with_reducible refine keeps_ite (fun _ => ?_) (fun _ => ?_)
    | with_reducible assumption | with_reducible apply keeps_store | with_reducible refine keeps_foldl (fun _ _ σ _ => ?_) ?_
    | split | ((conv in (State.mk ..) => skip); with_reducible apply keeps_upd)
    | (refine UpdOk.mk ?_; intro p; cases p <;> first | (apply Or.inl; apply hp.get; rfl) | exact Or.inr rfl)

theorem keeps_showCe {P : StatePart → Bool} {σ : State} (s : State) (e : Nat) (hσ : Keeps P σ s)
    (hp : covers P [.regs] := by exact hp.sub rfl) :
    Keeps P σ (State.showCe s e) := by
  unfold State.showCe
  repeat' first
    | (with_reducible show covers P _; exact hp.sub rfl) | (intro x; clear_value x) | lift_lets | with_reducible assumption
    | with_reducible apply keeps_setFld

theorem keeps_hostSend {P : StatePart → Bool} {σ : State} (s : State) (p : HPort) (o : Out) (hσ : Keeps P σ s) :
    Keeps P σ (State.hostSend s p o) := by
  unfold State.hostSend
  repeat' first
    | with_reducible refine keeps_ite (fun _ => ?_) (fun _ => ?_) | with_reducible assumption | with_reducible apply keeps_emit

theorem keeps_sendFlag {P : StatePart → Bool} {σ : State} (s : State) (p : HPort) (d : CopyDesc) (run : Nat) (hσ : Keeps P σ s)
    (hp : covers P [.regs] := by exact hp.sub rfl) :
    Keeps P σ (State.sendFlag s p d run) := by
  unfold State.sendFlag
  repeat' first
    | (with_reducible show covers P _; exact hp.sub rfl)
    | (intro (x : State); refine (fun (hx : Keeps P σ x) => ?_) ?_; (on_goal 1 => clear_value x); (on_goal 2 => dsimp only [x]))
    | lift_lets | with_reducible refine keeps_ite (fun _ => ?_) (fun _ => ?_) | with_reducible assumption
    | with_reducible apply keeps_hostSend | with_reducible apply keeps_msix

theorem keeps_commitRun {P : StatePart → Bool} {σ : State} (s : State) (r : CopyRun) (hσ : Keeps P σ s)
    (hp : covers P [.regs, .host] := by exact hp.sub rfl) :
    Keeps P σ (State.commitRun s r) := by
  unfold State.commitRun
  repeat' first
    | (with_reducible show covers P _; exact hp.sub rfl)
    | (intro (x : State); refine (fun (hx : Keeps P σ x) => ?_) ?_; (on_goal 1 => clear_value x); (on_goal 2 => dsimp only [x]))
    | (intro x; clear_value x) | lift_lets | with_reducible refine keeps_ite (fun _ => ?_) (fun _ => ?_)
    | with_reducible assumption | with_reducible apply keeps_hostSend | with_reducible apply keeps_sendFlag | split
    | ((conv in (State.mk ..) => skip); with_reducible apply keeps_upd)
    | (refine UpdOk.mk ?_; intro p; cases p <;> first | (apply Or.inl; apply hp.get; rfl) | exact Or.inr rfl)

theorem keeps_commitRuns {P : StatePart → Bool} {σ : State} (s : State) (beat : Nat) (hσ : Keeps P σ s)
    (hp : covers P [.regs, .host] := by exact hp.sub rfl) :
    Keeps P σ (State.commitRuns s beat) := by
  unfold State.commitRuns
  repeat' first
    | (with_reducible show covers P _; exact hp.sub rfl)
    | (intro (x : State); refine (fun (hx : Keeps P σ x) => ?_) ?_; (on_goal 1 => clear_value x); (on_goal 2 => dsimp only [x]))
    | (intro x; clear_value x) | lift_lets | with_reducible refine keeps_ite (fun _ => ?_) (fun _ => ?_)
    | with_reducible assumption | with_reducible apply keeps_commitRun | with_reducible apply keeps_showCe
    | with_reducible refine keeps_foldl (fun _ _ σ _ => ?_) ?_ | ((conv in (State.mk ..) => skip); with_reducible apply keeps_upd)
    | (refine UpdOk.mk ?_; intro p; cases p <;> first | (apply Or.inl; apply hp.get; rfl) | exact Or.inr rfl)

theorem keeps_replayRuns {P : StatePart → Bool} {σ : State} (s : State) (hσ : Keeps P σ s)
    (hp : covers P [.regs, .host] := by exact hp.sub rfl) :
    Keeps P σ (State.replayRuns s) := by
  unfold State.replayRuns
  repeat' first
    | (with_reducible show covers P _; exact hp.sub rfl)
    | (intro (x : State); refine (fun (hx : Keeps P σ x) => ?_) ?_; (on_goal 1 => clear_value x); (on_goal 2 => dsimp only [x]))
    | (intro x; clear_value x) | lift_lets | with_reducible assumption | with_reducible apply keeps_showCe
    | with_reducible refine keeps_foldl (fun _ _ σ _ => ?_) ?_ | ((conv in (State.mk ..) => skip); with_reducible apply keeps_upd)
    | (refine UpdOk.mk ?_; intro p; cases p <;> first | (apply Or.inl; apply hp.get; rfl) | exact Or.inr rfl)

theorem keeps_stopSlots {P : StatePart → Bool} {σ : State} (s : State) (hσ : Keeps P σ s)
    (hp : covers P [.regs, .units, .cores] := by exact hp.sub rfl) :
    Keeps P σ (State.stopSlots s) := by
  unfold State.stopSlots
  repeat' first
    | (with_reducible show covers P _; exact hp.sub rfl) | (intro x; clear_value x) | lift_lets | with_reducible assumption
    | with_reducible apply keeps_showRuns | ((conv in (State.mk ..) => skip); with_reducible apply keeps_upd)
    | (refine UpdOk.mk ?_; intro p; cases p <;> first | (apply Or.inl; apply hp.get; rfl) | exact Or.inr rfl)

theorem keeps_commitEffects {P : StatePart → Bool} {σ : State} (s : State) (kind : Nat) (w : Win) (last : Nat) (hσ : Keeps P σ s)
    (hp : covers P [.regs, .memory, .slots, .beat, .units, .cores, .watch, .upd, .tier, .forager, .mods, .ports, .casc, .host, .test] := by exact hp.sub rfl) :
    Keeps P σ (State.commitEffects s kind w last) := by
  unfold State.commitEffects
  repeat' first
    | (with_reducible show covers P _; exact hp.sub rfl)
    | (intro (x : State); refine (fun (hx : Keeps P σ x) => ?_) ?_; (on_goal 1 => clear_value x); (on_goal 2 => dsimp only [x]))
    | lift_lets | with_reducible assumption | with_reducible apply keeps_commitHolds | with_reducible apply keeps_commitManifests
    | with_reducible apply keeps_commitMoves | with_reducible apply keeps_commitRates | with_reducible apply keeps_commitRuns
    | with_reducible apply keeps_commitScan | with_reducible apply keeps_commitStep | with_reducible apply keeps_commitWatch
    | with_reducible apply keeps_commitWga | with_reducible apply keeps_engineTests | with_reducible apply keeps_markSkip
    | with_reducible apply keeps_unlistReread

theorem keeps_replayEffects {P : StatePart → Bool} {σ : State} (s : State) (w : Win) (hσ : Keeps P σ s)
    (hp : covers P [.regs, .memory, .slots, .beat, .units, .cores, .watch, .upd, .tier, .forager, .mods, .ports, .casc, .host, .test] := by exact hp.sub rfl) :
    Keeps P σ (State.replayEffects s w) := by
  unfold State.replayEffects
  repeat' first
    | (with_reducible show covers P _; exact hp.sub rfl)
    | (intro (x : State); refine (fun (hx : Keeps P σ x) => ?_) ?_; (on_goal 1 => clear_value x); (on_goal 2 => dsimp only [x]))
    | lift_lets | with_reducible assumption | with_reducible apply keeps_dropPieces | with_reducible apply keeps_dropWatch
    | with_reducible apply keeps_expireCopies | with_reducible apply keeps_replayHolds | with_reducible apply keeps_replayMoves
    | with_reducible apply keeps_replayRuns | with_reducible apply keeps_replayUpd | with_reducible apply keeps_replayWga
    | with_reducible apply keeps_stopSlots

/-! ### Window -/

theorem keeps_firstWindow {P : StatePart → Bool} {σ : State} (s : State) (g : Fing) (hσ : Keeps P σ s)
    (hp : covers P [.regs, .memory, .beat, .tier] := by exact hp.sub rfl) :
    Keeps P σ (State.firstWindow s g) := by
  unfold State.firstWindow
  repeat' first
    | (with_reducible show covers P _; exact hp.sub rfl)
    | (intro (x : State); refine (fun (hx : Keeps P σ x) => ?_) ?_; (on_goal 1 => clear_value x); (on_goal 2 => dsimp only [x]))
    | (intro x; clear_value x) | lift_lets | with_reducible refine keeps_ite (fun _ => ?_) (fun _ => ?_)
    | with_reducible assumption | with_reducible apply keeps_applyRdcEn_state | with_reducible apply keeps_loadProgram
    | with_reducible apply keeps_setBit | with_reducible apply keeps_setDevState
    | with_reducible refine keeps_foldl (fun _ _ σ _ => ?_) ?_ | ((conv in (State.mk ..) => skip); with_reducible apply keeps_upd)
    | (refine UpdOk.mk ?_; intro p; cases p <;> first | (apply Or.inl; apply hp.get; rfl) | exact Or.inr rfl)

theorem keeps_startWindow {P : StatePart → Bool} {σ : State} (s : State) (f : FSlot) (beat t stretch pos replays : Nat) (replay : Option Bool) (holdAll : Bool) (hσ : Keeps P σ s)
    (hp : covers P [.now, .regs, .memory, .beat, .units, .cores, .upd, .tier, .forager, .mods] := by exact hp.sub rfl) :
    Keeps P σ (State.startWindow s f beat t stretch pos replays replay holdAll) := by
  unfold State.startWindow
  repeat' first
    | (with_reducible show covers P _; exact hp.sub rfl)
    | (intro (x : State); refine (fun (hx : Keeps P σ x) => ?_) ?_; (on_goal 1 => clear_value x); (on_goal 2 => dsimp only [x]))
    | (intro x; clear_value x) | lift_lets | with_reducible refine keeps_ite (fun _ => ?_) (fun _ => ?_)
    | with_reducible assumption | with_reducible apply keeps_at | with_reducible apply keeps_clearCrc
    | with_reducible apply keeps_emit | with_reducible apply keeps_firstWindow | with_reducible apply keeps_setBit
    | with_reducible apply keeps_setFld | with_reducible apply keeps_setPair
    | with_reducible refine keeps_foldl (fun _ _ σ _ => ?_) ?_ | split
    | ((conv in (State.mk ..) => skip); with_reducible apply keeps_upd)
    | (refine UpdOk.mk ?_; intro p; cases p <;> first | (apply Or.inl; apply hp.get; rfl) | exact Or.inr rfl)

theorem keeps_sendFences {P : StatePart → Bool} {σ : State} (s : State) (hσ : Keeps P σ s) :
    Keeps P σ (State.sendFences s) := by
  unfold State.sendFences
  repeat' first
    | (intro x; clear_value x) | lift_lets | with_reducible assumption | with_reducible apply keeps_emit

theorem keeps_gapRdc {P : StatePart → Bool} {σ : State} (s : State) (last : Bool) (hσ : Keeps P σ s)
    (hp : covers P [.tier] := by exact hp.sub rfl) :
    Keeps P σ (State.gapRdc s last) := by
  unfold State.gapRdc
  repeat' first
    | (intro x; clear_value x) | lift_lets | with_reducible assumption
    | ((conv in (State.mk ..) => skip); with_reducible apply keeps_upd)
    | (refine UpdOk.mk ?_; intro p; cases p <;> first | (apply Or.inl; apply hp.get; rfl) | exact Or.inr rfl)

theorem keeps_gapCopies {P : StatePart → Bool} {σ : State} (s : State) (beat : Nat) (hσ : Keeps P σ s)
    (hp : covers P [.memory, .tier] := by exact hp.sub rfl) :
    Keeps P σ (State.gapCopies s beat) := by
  unfold State.gapCopies
  repeat' first
    | (with_reducible show covers P _; exact hp.sub rfl) | with_reducible assumption | with_reducible apply keeps_expireCopies

theorem keeps_writeStep {P : StatePart → Bool} {σ : State} (s : State) (beat : Nat) (hσ : Keeps P σ s)
    (hp : covers P [.regs, .memory, .slots, .beat, .units, .cores, .upd, .tier, .forager, .mods, .ports, .casc, .host, .test] := by exact hp.sub rfl) :
    Keeps P σ (State.writeStep s beat) := by
  unfold State.writeStep
  repeat' first
    | (with_reducible show covers P _; exact hp.sub rfl)
    | (intro (x : State); refine (fun (hx : Keeps P σ x) => ?_) ?_; (on_goal 1 => clear_value x); (on_goal 2 => dsimp only [x]))
    | (intro x; clear_value x) | lift_lets | with_reducible assumption | with_reducible apply keeps_storeIn | split
    | ((conv in (State.mk ..) => skip); with_reducible apply keeps_upd)
    | (refine UpdOk.mk ?_; intro p; cases p <;> first | (apply Or.inl; apply hp.get; rfl) | exact Or.inr rfl)

theorem keeps_checkStep {P : StatePart → Bool} {σ : State} (s : State) (fault : Bool) (hσ : Keeps P σ s)
    (hp : covers P [.regs, .slots, .beat, .units, .cores, .upd, .tier, .forager, .mods, .ports, .casc, .host, .test] := by exact hp.sub rfl) :
    Keeps P σ (State.checkStep s fault) := by
  unfold State.checkStep
  repeat' first
    | (with_reducible show covers P _; exact hp.sub rfl)
    | (intro (x : State); refine (fun (hx : Keeps P σ x) => ?_) ?_; (on_goal 1 => clear_value x); (on_goal 2 => dsimp only [x]))
    | (intro x; clear_value x) | lift_lets | with_reducible refine keeps_ite (fun _ => ?_) (fun _ => ?_)
    | with_reducible assumption | with_reducible apply keeps_fail | with_reducible apply keeps_logEntry
    | with_reducible apply keeps_updCode | with_reducible refine keeps_foldl (fun _ _ σ _ => ?_) ?_ | split

theorem keeps_thirdFailure {P : StatePart → Bool} {σ : State} (s : State) (w : Win) (hσ : Keeps P σ s)
    (hp : covers P [.regs, .beat, .units, .cores, .forager, .mods, .ports, .test] := by exact hp.sub rfl) :
    Keeps P σ (State.thirdFailure s w) := by
  unfold State.thirdFailure
  repeat' first
    | (with_reducible show covers P _; exact hp.sub rfl)
    | (intro (x : State); refine (fun (hx : Keeps P σ x) => ?_) ?_; (on_goal 1 => clear_value x); (on_goal 2 => dsimp only [x]))
    | (intro x; clear_value x) | lift_lets | with_reducible refine keeps_ite (fun _ => ?_) (fun _ => ?_)
    | with_reducible assumption | with_reducible apply keeps_fenceNow | with_reducible apply keeps_logEntry
    | with_reducible apply keeps_setWindow | with_reducible refine keeps_foldl (fun _ _ σ _ => ?_) ?_

theorem keeps_gapControl {P : StatePart → Bool} {σ : State} (s : State) (hσ : Keeps P σ s)
    (hp : covers P [.regs, .slots, .beat, .units, .cores, .upd, .tier, .forager, .mods, .ports, .casc, .host, .test] := by exact hp.sub rfl) :
    Keeps P σ (State.gapControl s) := by
  unfold State.gapControl
  repeat' first
    | (with_reducible show covers P _; exact hp.sub rfl)
    | (intro (x : State); refine (fun (hx : Keeps P σ x) => ?_) ?_; (on_goal 1 => clear_value x); (on_goal 2 => dsimp only [x]))
    | (intro x; clear_value x) | lift_lets | with_reducible refine keeps_ite (fun _ => ?_) (fun _ => ?_)
    | with_reducible assumption | with_reducible apply keeps_raise | with_reducible apply keeps_setBit
    | with_reducible apply keeps_setCtrl | split | ((conv in (State.mk ..) => skip); with_reducible apply keeps_upd)
    | (refine UpdOk.mk ?_; intro p; cases p <;> first | (apply Or.inl; apply hp.get; rfl) | exact Or.inr rfl)

theorem keeps_startCover {P : StatePart → Bool} {σ : State} (s : State) (d : Nat) (hσ : Keeps P σ s)
    (hp : covers P [.regs, .cores, .test] := by exact hp.sub rfl) :
    Keeps P σ (State.startCover s d) := by
  unfold State.startCover
  repeat' first
    | (with_reducible show covers P _; exact hp.sub rfl)
    | (intro (x : State); refine (fun (hx : Keeps P σ x) => ?_) ?_; (on_goal 1 => clear_value x); (on_goal 2 => dsimp only [x]))
    | (intro x; clear_value x) | lift_lets | with_reducible refine keeps_ite (fun _ => ?_) (fun _ => ?_)
    | with_reducible assumption | with_reducible apply keeps_emit | with_reducible apply keeps_mapCore
    | with_reducible apply keeps_setCore | with_reducible apply keeps_setFld | with_reducible apply keeps_wgaMoved | split
    | ((conv in (State.mk ..) => skip); with_reducible apply keeps_upd)
    | (refine UpdOk.mk ?_; intro p; cases p <;> first | (apply Or.inl; apply hp.get; rfl) | exact Or.inr rfl)

theorem keeps_gapCovers {P : StatePart → Bool} {σ : State} (s : State) (w : Win) (hσ : Keeps P σ s)
    (hp : covers P [.regs, .cores, .test] := by exact hp.sub rfl) :
    Keeps P σ (State.gapCovers s w) := by
  unfold State.gapCovers
  repeat' first
    | (with_reducible show covers P _; exact hp.sub rfl)
    | (intro (x : State); refine (fun (hx : Keeps P σ x) => ?_) ?_; (on_goal 1 => clear_value x); (on_goal 2 => dsimp only [x]))
    | (intro x; clear_value x) | lift_lets | with_reducible refine keeps_ite (fun _ => ?_) (fun _ => ?_)
    | with_reducible assumption | with_reducible apply keeps_endCovers | with_reducible apply keeps_setBit
    | with_reducible apply keeps_startCover | with_reducible refine keeps_foldl (fun _ _ σ _ => ?_) ?_

theorem keeps_sendMirrorFence {P : StatePart → Bool} {σ : State} (s : State) (beat : Nat) (hσ : Keeps P σ s)
    (hp : covers P [.regs, .ports, .casc] := by exact hp.sub rfl) :
    Keeps P σ (State.sendMirrorFence s beat) := by
  unfold State.sendMirrorFence
  repeat' first
    | (with_reducible show covers P _; exact hp.sub rfl)
    | (intro (x : State); refine (fun (hx : Keeps P σ x) => ?_) ?_; (on_goal 1 => clear_value x); (on_goal 2 => dsimp only [x]))
    | (intro x; clear_value x) | lift_lets | with_reducible refine keeps_ite (fun _ => ?_) (fun _ => ?_)
    | with_reducible assumption | with_reducible apply keeps_sendMirror
    | ((conv in (State.mk ..) => skip); with_reducible apply keeps_upd)
    | (refine UpdOk.mk ?_; intro p; cases p <;> first | (apply Or.inl; apply hp.get; rfl) | exact Or.inr rfl)

theorem keeps_gapOverrun {P : StatePart → Bool} {σ : State} (s : State) (w : Win) (hσ : Keeps P σ s)
    (hp : covers P [.regs, .slots, .beat, .units, .cores, .upd, .tier, .forager, .mods, .ports, .casc, .host, .test] := by exact hp.sub rfl) :
    Keeps P σ (State.gapOverrun s w) := by
  unfold State.gapOverrun
  repeat' first
    | (with_reducible show covers P _; exact hp.sub rfl) | with_reducible refine keeps_ite (fun _ => ?_) (fun _ => ?_)
    | with_reducible assumption | with_reducible apply keeps_bumpSat | with_reducible apply keeps_raise
    | with_reducible apply keeps_setFld

theorem keeps_gapStep {P : StatePart → Bool} {σ : State} (s : State) (w : Win) (hσ : Keeps P σ s)
    (hp : covers P [.regs, .memory, .slots, .beat, .units, .cores, .upd, .tier, .forager, .mods, .ports, .casc, .host, .test] := by exact hp.sub rfl) :
    Keeps P σ (State.gapStep s w) := by
  unfold State.gapStep
  repeat' first
    | (with_reducible show covers P _; exact hp.sub rfl) | with_reducible refine keeps_ite (fun _ => ?_) (fun _ => ?_)
    | with_reducible assumption | with_reducible apply keeps_checkStep | with_reducible apply keeps_writeStep

theorem keeps_gapState {P : StatePart → Bool} {σ : State} (s : State) (w : Win) (hσ : Keeps P σ s)
    (hp : covers P [.regs, .memory, .slots, .beat, .units, .cores, .upd, .tier, .forager, .mods, .ports, .casc, .host, .test] := by exact hp.sub rfl) :
    Keeps P σ (State.gapState s w) := by
  unfold State.gapState
  repeat' first
    | (with_reducible show covers P _; exact hp.sub rfl)
    | (intro (x : State); refine (fun (hx : Keeps P σ x) => ?_) ?_; (on_goal 1 => clear_value x); (on_goal 2 => dsimp only [x]))
    | (intro x; clear_value x) | lift_lets | with_reducible refine keeps_ite (fun _ => ?_) (fun _ => ?_)
    | with_reducible assumption | with_reducible apply keeps_applyRdcEn_state | with_reducible apply keeps_gapControl
    | with_reducible apply keeps_gapCopies | with_reducible apply keeps_gapRdc | with_reducible apply keeps_gapStep
    | with_reducible apply keeps_startFlips | ((conv in (State.mk ..) => skip); with_reducible apply keeps_upd)
    | (refine UpdOk.mk ?_; intro p; cases p <;> first | (apply Or.inl; apply hp.get; rfl) | exact Or.inr rfl)

theorem keeps_gapLosses {P : StatePart → Bool} {σ : State} (s : State) (hσ : Keeps P σ s)
    (hp : covers P [.regs, .memory, .slots, .beat, .units, .cores, .upd, .tier, .forager, .mods, .ports, .casc, .host, .test] := by exact hp.sub rfl) :
    Keeps P σ (State.gapLosses s) := by
  unfold State.gapLosses
  repeat' first
    | (with_reducible show covers P _; exact hp.sub rfl) | with_reducible assumption | with_reducible apply keeps_loadMoved
    | with_reducible apply keeps_takeLoss

theorem keeps_enterGap {P : StatePart → Bool} {σ : State} (s : State) (w : Win) (hσ : Keeps P σ s)
    (hp : covers P [.regs, .memory, .slots, .beat, .units, .cores, .upd, .tier, .forager, .mods, .ports, .casc, .host, .test] := by exact hp.sub rfl) :
    Keeps P σ (State.enterGap s w) := by
  unfold State.enterGap
  repeat' first
    | (with_reducible show covers P _; exact hp.sub rfl)
    | (intro (x : State); refine (fun (hx : Keeps P σ x) => ?_) ?_; (on_goal 1 => clear_value x); (on_goal 2 => dsimp only [x]))
    | lift_lets | with_reducible refine keeps_ite (fun _ => ?_) (fun _ => ?_) | with_reducible assumption
    | with_reducible apply keeps_gapCovers | with_reducible apply keeps_gapLosses | with_reducible apply keeps_gapOverrun
    | with_reducible apply keeps_gapState | with_reducible apply keeps_sendFences | with_reducible apply keeps_sendMirrorFence
    | with_reducible apply keeps_setWindow | with_reducible apply keeps_settle | with_reducible apply keeps_thirdFailure

/-! ### Report -/

theorem keeps_ack {P : StatePart → Bool} {σ : State} (s : State) (page : Bytes) (u : UnitCode) (r : Refused) (hσ : Keeps P σ s)
    (hp : covers P [.regs, .beat] := by exact hp.sub rfl) :
    Keeps P σ (State.ack s page u r) := by
  unfold State.ack
  repeat' first
    | (with_reducible show covers P _; exact hp.sub rfl)
    | (intro (x : State); refine (fun (hx : Keeps P σ x) => ?_) ?_; (on_goal 1 => clear_value x); (on_goal 2 => dsimp only [x]))
    | (intro x; clear_value x) | lift_lets | with_reducible assumption | with_reducible apply keeps_logRefusal
    | ((conv in (State.mk ..) => skip); with_reducible apply keeps_upd)
    | (refine UpdOk.mk ?_; intro p; cases p <;> first | (apply Or.inl; apply hp.get; rfl) | exact Or.inr rfl)

theorem keeps_doNop {P : StatePart → Bool} {σ : State} (s : State) (p : Bytes) (hσ : Keeps P σ s)
    (hp : covers P [.regs, .beat] := by exact hp.sub rfl) :
    Keeps P σ (State.doNop s p) := by
  unfold State.doNop
  repeat' first
    | (with_reducible show covers P _; exact hp.sub rfl) | with_reducible assumption | with_reducible apply keeps_ack

theorem keeps_pageSwitch {P : StatePart → Bool} {σ : State} (s : State) (p : Bytes) (hσ : Keeps P σ s)
    (hp : covers P [.regs, .slots, .beat] := by exact hp.sub rfl) :
    Keeps P σ (State.pageSwitch s p) := by
  unfold State.pageSwitch
  repeat' first
    | (with_reducible show covers P _; exact hp.sub rfl)
    | (intro (x : State); refine (fun (hx : Keeps P σ x) => ?_) ?_; (on_goal 1 => clear_value x); (on_goal 2 => dsimp only [x]))
    | (intro x; clear_value x) | lift_lets | with_reducible refine keeps_ite (fun _ => ?_) (fun _ => ?_)
    | with_reducible assumption | with_reducible apply keeps_ack | with_reducible apply keeps_setFld
    | with_reducible apply keeps_setSlot | with_reducible apply keeps_setSlotState | split
    | ((conv in (State.mk ..) => skip); with_reducible apply keeps_upd)
    | (refine UpdOk.mk ?_; intro p; cases p <;> first | (apply Or.inl; apply hp.get; rfl) | exact Or.inr rfl)

theorem keeps_pageStop {P : StatePart → Bool} {σ : State} (s : State) (p : Bytes) (hσ : Keeps P σ s)
    (hp : covers P [.regs, .beat] := by exact hp.sub rfl) :
    Keeps P σ (State.pageStop s p) := by
  unfold State.pageStop
  repeat' first
    | (with_reducible show covers P _; exact hp.sub rfl)
    | (intro (x : State); refine (fun (hx : Keeps P σ x) => ?_) ?_; (on_goal 1 => clear_value x); (on_goal 2 => dsimp only [x]))
    | (intro x; clear_value x) | lift_lets | with_reducible refine keeps_ite (fun _ => ?_) (fun _ => ?_)
    | with_reducible assumption | with_reducible apply keeps_ack | with_reducible apply keeps_setFld
    | ((conv in (State.mk ..) => skip); with_reducible apply keeps_upd)
    | (refine UpdOk.mk ?_; intro p; cases p <;> first | (apply Or.inl; apply hp.get; rfl) | exact Or.inr rfl)

theorem keeps_pageArgs {P : StatePart → Bool} {σ : State} (s : State) (p : Bytes) (hσ : Keeps P σ s)
    (hp : covers P [.regs, .beat] := by exact hp.sub rfl) :
    Keeps P σ (State.pageArgs s p) := by
  unfold State.pageArgs
  repeat' first
    | (with_reducible show covers P _; exact hp.sub rfl)
    | (intro (x : State); refine (fun (hx : Keeps P σ x) => ?_) ?_; (on_goal 1 => clear_value x); (on_goal 2 => dsimp only [x]))
    | (intro x; clear_value x) | lift_lets | with_reducible assumption | with_reducible apply keeps_ack
    | ((conv in (State.mk ..) => skip); with_reducible apply keeps_upd)
    | (refine UpdOk.mk ?_; intro p; cases p <;> first | (apply Or.inl; apply hp.get; rfl) | exact Or.inr rfl)

theorem keeps_actOnPage {P : StatePart → Bool} {σ : State} (s : State) (hσ : Keeps P σ s)
    (hp : covers P [.regs, .slots, .beat] := by exact hp.sub rfl) :
    Keeps P σ (State.actOnPage s) := by
  unfold State.actOnPage
  repeat' first
    | (with_reducible show covers P _; exact hp.sub rfl) | with_reducible assumption | with_reducible apply keeps_ack
    | with_reducible apply keeps_doNop | with_reducible apply keeps_pageArgs | with_reducible apply keeps_pageStop
    | with_reducible apply keeps_pageSwitch | split

theorem keeps_writePage {P : StatePart → Bool} {σ : State} (s : State) (p : HPort) (a : Nat) (page : Bytes) (hσ : Keeps P σ s) :
    Keeps P σ (State.writePage s p a page) := by
  unfold State.writePage
  repeat' first
    | with_reducible assumption | with_reducible apply keeps_emit

theorem keeps_report {P : StatePart → Bool} {σ : State} (s : State) (w : Win) (d : Due) (cycle : Nat) (standby hold : Bool) (hσ : Keeps P σ s)
    (hp : covers P [.regs, .slots, .beat, .units, .cores, .upd, .tier, .forager, .mods, .ports, .casc, .host, .test] := by exact hp.sub rfl) :
    Keeps P σ (State.report s w d cycle standby hold) := by
  unfold State.report
  repeat' first
    | (with_reducible show covers P _; exact hp.sub rfl)
    | (intro (x : State); refine (fun (hx : Keeps P σ x) => ?_) ?_; (on_goal 1 => clear_value x); (on_goal 2 => dsimp only [x]))
    | (intro x; clear_value x) | lift_lets | with_reducible refine keeps_ite (fun _ => ?_) (fun _ => ?_)
    | with_reducible assumption | with_reducible apply keeps_msix | with_reducible apply keeps_raise
    | with_reducible apply keeps_writePage | split | ((conv in (State.mk ..) => skip); with_reducible apply keeps_upd)
    | (refine UpdOk.mk ?_; intro p; cases p <;> first | (apply Or.inl; apply hp.get; rfl) | exact Or.inr rfl)

theorem keeps_undefineClass0 {P : StatePart → Bool} {σ : State} (s : State) (g : Fing) (hσ : Keeps P σ s)
    (hp : covers P [.memory] := by exact hp.sub rfl) :
    Keeps P σ (State.undefineClass0 s g) := by
  unfold State.undefineClass0
  repeat' first
    | (with_reducible show covers P _; exact hp.sub rfl) | with_reducible assumption | with_reducible apply keeps_undefineRange
    | with_reducible refine keeps_foldl (fun _ _ σ _ => ?_) ?_ | split

theorem keeps_discardStaged {P : StatePart → Bool} {σ : State} (s : State) (hσ : Keeps P σ s)
    (hp : covers P [.regs, .memory, .slots, .beat, .units, .cores, .upd, .tier, .forager, .mods, .ports, .casc, .host, .test] := by exact hp.sub rfl) :
    Keeps P σ (State.discardStaged s) := by
  unfold State.discardStaged
  repeat' first
    | (with_reducible show covers P _; exact hp.sub rfl)
    | (intro (x : State); refine (fun (hx : Keeps P σ x) => ?_) ?_; (on_goal 1 => clear_value x); (on_goal 2 => dsimp only [x]))
    | (intro x; clear_value x) | lift_lets | with_reducible assumption | with_reducible apply keeps_damage
    | with_reducible refine keeps_foldl (fun _ _ σ _ => ?_) ?_ | ((conv in (State.mk ..) => skip); with_reducible apply keeps_upd)
    | (refine UpdOk.mk ?_; intro p; cases p <;> first | (apply Or.inl; apply hp.get; rfl) | exact Or.inr rfl)

theorem keeps_doSwitch {P : StatePart → Bool} {σ : State} (s : State) (f : FSlot) (g : Fing) (held : Bool) (hσ : Keeps P σ s)
    (hp : covers P [.regs, .memory, .slots, .beat, .units, .cores, .upd, .tier, .forager, .mods, .ports, .casc, .host, .test] := by exact hp.sub rfl) :
    Keeps P σ (State.doSwitch s f g held) := by
  unfold State.doSwitch
  repeat' first
    | (with_reducible show covers P _; exact hp.sub rfl)
    | (intro (x : State); refine (fun (hx : Keeps P σ x) => ?_) ?_; (on_goal 1 => clear_value x); (on_goal 2 => dsimp only [x]))
    | (intro x; clear_value x) | lift_lets | with_reducible refine keeps_ite (fun _ => ?_) (fun _ => ?_)
    | with_reducible assumption | with_reducible apply keeps_adoptPlan | with_reducible apply keeps_applyRdcEn_state
    | with_reducible apply keeps_cancelMoves | with_reducible apply keeps_discardStaged | with_reducible apply keeps_dropGuests
    | with_reducible apply keeps_dropRdc | with_reducible apply keeps_loadProgram | with_reducible apply keeps_setBit
    | with_reducible apply keeps_setFld | with_reducible apply keeps_setSlotState | with_reducible apply keeps_showStep
    | with_reducible apply keeps_startHomes | with_reducible apply keeps_undefineClass0
    | with_reducible refine keeps_foldl (fun _ _ σ _ => ?_) ?_ | split
    | ((conv in (State.mk ..) => skip); with_reducible apply keeps_upd)
    | (refine UpdOk.mk ?_; intro p; cases p <;> first | (apply Or.inl; apply hp.get; rfl) | exact Or.inr rfl)

theorem keeps_dropSwitch {P : StatePart → Bool} {σ : State} (s : State) (hσ : Keeps P σ s)
    (hp : covers P [.regs, .beat] := by exact hp.sub rfl) :
    Keeps P σ (State.dropSwitch s) := by
  unfold State.dropSwitch
  repeat' first
    | (with_reducible show covers P _; exact hp.sub rfl) | with_reducible assumption | with_reducible apply keeps_setFld
    | ((conv in (State.mk ..) => skip); with_reducible apply keeps_upd)
    | (refine UpdOk.mk ?_; intro p; cases p <;> first | (apply Or.inl; apply hp.get; rfl) | exact Or.inr rfl)

theorem keeps_cycleEnd {P : StatePart → Bool} {σ : State} (s : State) (hσ : Keeps P σ s)
    (hp : covers P [.regs, .memory, .slots, .beat, .units, .cores, .upd, .tier, .forager, .mods, .ports, .casc, .host, .test] := by exact hp.sub rfl) :
    Keeps P σ (State.cycleEnd s) := by
  unfold State.cycleEnd
  repeat' first
    | (with_reducible show covers P _; exact hp.sub rfl) | (intro x; clear_value x) | lift_lets
    | with_reducible refine keeps_ite (fun _ => ?_) (fun _ => ?_) | with_reducible assumption
    | with_reducible apply keeps_doSwitch | with_reducible apply keeps_dropSwitch | with_reducible apply keeps_stopPlan | split

theorem keeps_releaseWindow {P : StatePart → Bool} {σ : State} (s : State) (hσ : Keeps P σ s)
    (hp : covers P [.beat] := by exact hp.sub rfl) :
    Keeps P σ (State.releaseWindow s) := by
  unfold State.releaseWindow
  repeat' first
    | with_reducible assumption | ((conv in (State.mk ..) => skip); with_reducible apply keeps_upd)
    | (refine UpdOk.mk ?_; intro p; cases p <;> first | (apply Or.inl; apply hp.get; rfl) | exact Or.inr rfl)

theorem keeps_noteMargin {P : StatePart → Bool} {σ : State} (s : State) (m : Int) (hσ : Keeps P σ s)
    (hp : covers P [.regs] := by exact hp.sub rfl) :
    Keeps P σ (State.noteMargin s m) := by
  unfold State.noteMargin
  repeat' first
    | (with_reducible show covers P _; exact hp.sub rfl) | with_reducible refine keeps_ite (fun _ => ?_) (fun _ => ?_)
    | with_reducible assumption | with_reducible apply keeps_setReg

theorem keeps_dropWindow {P : StatePart → Bool} {σ : State} (s : State) (beat : Nat) (hσ : Keeps P σ s)
    (hp : covers P [.beat] := by exact hp.sub rfl) :
    Keeps P σ (State.dropWindow s beat) := by
  unfold State.dropWindow
  repeat' first
    | with_reducible assumption | split | ((conv in (State.mk ..) => skip); with_reducible apply keeps_upd)
    | (refine UpdOk.mk ?_; intro p; cases p <;> first | (apply Or.inl; apply hp.get; rfl) | exact Or.inr rfl)

theorem keeps_backupReturns {P : StatePart → Bool} {σ : State} (s : State) (hσ : Keeps P σ s)
    (hp : covers P [.regs, .casc] := by exact hp.sub rfl) :
    Keeps P σ (State.backupReturns s) := by
  unfold State.backupReturns
  repeat' first
    | (with_reducible show covers P _; exact hp.sub rfl)
    | (intro (x : State); refine (fun (hx : Keeps P σ x) => ?_) ?_; (on_goal 1 => clear_value x); (on_goal 2 => dsimp only [x]))
    | (intro x; clear_value x) | lift_lets | with_reducible refine keeps_ite (fun _ => ?_) (fun _ => ?_)
    | with_reducible assumption | with_reducible apply keeps_setBit | with_reducible apply keeps_setFld | split
    | ((conv in (State.mk ..) => skip); with_reducible apply keeps_upd)
    | (refine UpdOk.mk ?_; intro p; cases p <;> first | (apply Or.inl; apply hp.get; rfl) | exact Or.inr rfl)

theorem keeps_allBack {P : StatePart → Bool} {σ : State} (s : State) (hσ : Keeps P σ s)
    (hp : covers P [.regs, .casc] := by exact hp.sub rfl) :
    Keeps P σ (State.allBack s) := by
  unfold State.allBack
  repeat' first
    | (with_reducible show covers P _; exact hp.sub rfl)
    | (intro (x : State); refine (fun (hx : Keeps P σ x) => ?_) ?_; (on_goal 1 => clear_value x); (on_goal 2 => dsimp only [x]))
    | (intro x; clear_value x) | lift_lets | with_reducible assumption | with_reducible apply keeps_backupReturns
    | with_reducible apply keeps_setBit | with_reducible apply keeps_setFld
    | ((conv in (State.mk ..) => skip); with_reducible apply keeps_upd)
    | (refine UpdOk.mk ?_; intro p; cases p <;> first | (apply Or.inl; apply hp.get; rfl) | exact Or.inr rfl)

theorem keeps_handBack {P : StatePart → Bool} {σ : State} (s : State) (hσ : Keeps P σ s)
    (hp : covers P [.regs, .memory, .slots, .beat, .units, .cores, .upd, .tier, .forager, .mods, .ports, .casc, .host, .test] := by exact hp.sub rfl) :
    Keeps P σ (State.handBack s) := by
  unfold State.handBack
  repeat' first
    | (with_reducible show covers P _; exact hp.sub rfl)
    | (intro (x : State); refine (fun (hx : Keeps P σ x) => ?_) ?_; (on_goal 1 => clear_value x); (on_goal 2 => dsimp only [x]))
    | (intro x; clear_value x) | lift_lets | with_reducible refine keeps_ite (fun _ => ?_) (fun _ => ?_)
    | with_reducible assumption | with_reducible apply keeps_allBack | with_reducible apply keeps_loadProgram
    | with_reducible apply keeps_raise | with_reducible apply keeps_showEngines
    | with_reducible refine keeps_foldl (fun _ _ σ _ => ?_) ?_

theorem keeps_tryHandBack {P : StatePart → Bool} {σ : State} (s : State) (pos : Nat) (hσ : Keeps P σ s)
    (hp : covers P [.regs, .memory, .slots, .beat, .units, .cores, .upd, .tier, .forager, .mods, .ports, .casc, .host, .test] := by exact hp.sub rfl) :
    Keeps P σ (State.tryHandBack s pos) := by
  unfold State.tryHandBack
  repeat' first
    | (with_reducible show covers P _; exact hp.sub rfl) | (intro x; clear_value x) | lift_lets
    | with_reducible refine keeps_ite (fun _ => ?_) (fun _ => ?_) | with_reducible assumption
    | with_reducible apply keeps_handBack

theorem keeps_applyCommit {P : StatePart → Bool} {σ : State} (s : State) (d : Due) (w : Win) (hσ : Keeps P σ s)
    (hp : covers P [.regs, .memory, .slots, .beat, .units, .cores, .watch, .upd, .tier, .forager, .mods, .ports, .casc, .host, .test] := by exact hp.sub rfl) :
    Keeps P σ (State.applyCommit s d w) := by
  unfold State.applyCommit
  repeat' first
    | (with_reducible show covers P _; exact hp.sub rfl)
    | (intro (x : State); refine (fun (hx : Keeps P σ x) => ?_) ?_; (on_goal 1 => clear_value x); (on_goal 2 => dsimp only [x]))
    | (intro x; clear_value x) | lift_lets | with_reducible refine keeps_ite (fun _ => ?_) (fun _ => ?_)
    | with_reducible assumption | with_reducible apply keeps_commitEffects | with_reducible apply keeps_cycleEnd
    | with_reducible apply keeps_dropWindow | with_reducible apply keeps_noteMargin | with_reducible apply keeps_releaseWindow
    | with_reducible apply keeps_report | with_reducible apply keeps_stopPlan | with_reducible apply keeps_tryHandBack
    | ((conv in (State.mk ..) => skip); with_reducible apply keeps_upd)
    | (refine UpdOk.mk ?_; intro p; cases p <;> first | (apply Or.inl; apply hp.get; rfl) | exact Or.inr rfl)

theorem keeps_noteLost {P : StatePart → Bool} {σ : State} (s : State) (c : Coord) (flags : Nat) (hσ : Keeps P σ s)
    (hp : covers P [.regs, .casc] := by exact hp.sub rfl) :
    Keeps P σ (State.noteLost s c flags) := by
  unfold State.noteLost
  repeat' first
    | (with_reducible show covers P _; exact hp.sub rfl)
    | (intro (x : State); refine (fun (hx : Keeps P σ x) => ?_) ?_; (on_goal 1 => clear_value x); (on_goal 2 => dsimp only [x]))
    | (intro x; clear_value x) | lift_lets | with_reducible assumption | with_reducible apply keeps_setFld
    | ((conv in (State.mk ..) => skip); with_reducible apply keeps_upd)
    | (refine UpdOk.mk ?_; intro p; cases p <;> first | (apply Or.inl; apply hp.get; rfl) | exact Or.inr rfl)

theorem keeps_takeOver {P : StatePart → Bool} {σ : State} (s : State) (c : Coord) (hσ : Keeps P σ s)
    (hp : covers P [.regs, .memory, .casc] := by exact hp.sub rfl) :
    Keeps P σ (State.takeOver s c) := by
  unfold State.takeOver
  repeat' first
    | (with_reducible show covers P _; exact hp.sub rfl)
    | (intro (x : State); refine (fun (hx : Keeps P σ x) => ?_) ?_; (on_goal 1 => clear_value x); (on_goal 2 => dsimp only [x]))
    | (intro x; clear_value x) | lift_lets | with_reducible refine keeps_ite (fun _ => ?_) (fun _ => ?_)
    | with_reducible assumption | with_reducible apply keeps_loadProgram | with_reducible apply keeps_setBit
    | with_reducible apply keeps_showEngines | with_reducible refine keeps_foldl (fun _ _ σ _ => ?_) ?_ | split
    | ((conv in (State.mk ..) => skip); with_reducible apply keeps_upd)
    | (refine UpdOk.mk ?_; intro p; cases p <;> first | (apply Or.inl; apply hp.get; rfl) | exact Or.inr rfl)

theorem keeps_replayFlags {P : StatePart → Bool} {σ : State} (s : State) (d : Due) (hσ : Keeps P σ s)
    (hp : covers P [.regs, .memory, .slots, .beat, .units, .cores, .upd, .tier, .forager, .mods, .ports, .casc, .host, .test] := by exact hp.sub rfl) :
    Keeps P σ (State.replayFlags s d) := by
  unfold State.replayFlags
  repeat' first
    | (with_reducible show covers P _; exact hp.sub rfl)
    | (intro (x : State); refine (fun (hx : Keeps P σ x) => ?_) ?_; (on_goal 1 => clear_value x); (on_goal 2 => dsimp only [x]))
    | (intro x; clear_value x) | lift_lets | with_reducible refine keeps_ite (fun _ => ?_) (fun _ => ?_)
    | with_reducible assumption | with_reducible apply keeps_noteLost | with_reducible apply keeps_raise
    | with_reducible apply keeps_takeOver | split | ((conv in (State.mk ..) => skip); with_reducible apply keeps_upd)
    | (refine UpdOk.mk ?_; intro p; cases p <;> first | (apply Or.inl; apply hp.get; rfl) | exact Or.inr rfl)

theorem keeps_retireSelf {P : StatePart → Bool} {σ : State} (s : State) (hσ : Keeps P σ s)
    (hp : covers P [.regs, .slots, .beat, .units, .cores, .upd, .tier, .forager, .mods, .ports, .casc, .host, .test] := by exact hp.sub rfl) :
    Keeps P σ (State.retireSelf s) := by
  unfold State.retireSelf
  repeat' first
    | (with_reducible show covers P _; exact hp.sub rfl)
    | (intro (x : State); refine (fun (hx : Keeps P σ x) => ?_) ?_; (on_goal 1 => clear_value x); (on_goal 2 => dsimp only [x]))
    | (intro x; clear_value x) | lift_lets | with_reducible assumption | with_reducible apply keeps_raise
    | with_reducible apply keeps_setBit | with_reducible apply keeps_stopPlan
    | ((conv in (State.mk ..) => skip); with_reducible apply keeps_upd)
    | (refine UpdOk.mk ?_; intro p; cases p <;> first | (apply Or.inl; apply hp.get; rfl) | exact Or.inr rfl)

theorem keeps_masterCounts {P : StatePart → Bool} {σ : State} (s : State) (d : Due) (beat : Nat) (hσ : Keeps P σ s)
    (hp : covers P [.casc] := by exact hp.sub rfl) :
    Keeps P σ (State.masterCounts s d beat) := by
  unfold State.masterCounts
  repeat' first
    | with_reducible assumption | ((conv in (State.mk ..) => skip); with_reducible apply keeps_upd)
    | (refine UpdOk.mk ?_; intro p; cases p <;> first | (apply Or.inl; apply hp.get; rfl) | exact Or.inr rfl)

theorem keeps_replayMirror {P : StatePart → Bool} {σ : State} (s : State) (hσ : Keeps P σ s)
    (hp : covers P [.regs, .ports, .casc] := by exact hp.sub rfl) :
    Keeps P σ (State.replayMirror s) := by
  unfold State.replayMirror
  repeat' first
    | (with_reducible show covers P _; exact hp.sub rfl) | (intro x; clear_value x) | lift_lets | with_reducible assumption
    | with_reducible apply keeps_askTwin | with_reducible refine keeps_foldl (fun _ _ σ _ => ?_) ?_
    | ((conv in (State.mk ..) => skip); with_reducible apply keeps_upd)
    | (refine UpdOk.mk ?_; intro p; cases p <;> first | (apply Or.inl; apply hp.get; rfl) | exact Or.inr rfl)

theorem keeps_applyReplay {P : StatePart → Bool} {σ : State} (s : State) (d : Due) (w : Win) (hσ : Keeps P σ s)
    (hp : covers P [.now, .regs, .memory, .slots, .beat, .units, .cores, .watch, .upd, .tier, .forager, .mods, .ports, .casc, .host, .test] := by exact hp.sub rfl) :
    Keeps P σ (State.applyReplay s d w) := by
  unfold State.applyReplay
  repeat' first
    | (with_reducible show covers P _; exact hp.sub rfl)
    | (intro (x : State); refine (fun (hx : Keeps P σ x) => ?_) ?_; (on_goal 1 => clear_value x); (on_goal 2 => dsimp only [x]))
    | (intro x; clear_value x) | lift_lets | with_reducible refine keeps_ite (fun _ => ?_) (fun _ => ?_)
    | with_reducible assumption | with_reducible apply keeps_actOnPage | with_reducible apply keeps_bumpPair
    | with_reducible apply keeps_bumpSat | with_reducible apply keeps_logEntry | with_reducible apply keeps_masterCounts
    | with_reducible apply keeps_noteLost | with_reducible apply keeps_replayEffects | with_reducible apply keeps_replayFlags
    | with_reducible apply keeps_replayMirror | with_reducible apply keeps_report | with_reducible apply keeps_retireSelf
    | with_reducible apply keeps_startWindow | with_reducible apply keeps_stopPlan | split
    | ((conv in (State.mk ..) => skip); with_reducible apply keeps_upd)
    | (refine UpdOk.mk ?_; intro p; cases p <;> first | (apply Or.inl; apply hp.get; rfl) | exact Or.inr rfl)

theorem keeps_applyVerdict {P : StatePart → Bool} {σ : State} (kind t : Nat) (s : State) (hσ : Keeps P σ s)
    (hp : covers P [.now, .regs, .memory, .slots, .beat, .units, .cores, .watch, .upd, .tier, .forager, .mods, .ports, .casc, .host, .test] := by exact hp.sub rfl) :
    Keeps P σ (applyVerdict kind t s) := by
  unfold applyVerdict
  repeat' first
    | (with_reducible show covers P _; exact hp.sub rfl)
    | (intro (x : State); refine (fun (hx : Keeps P σ x) => ?_) ?_; (on_goal 1 => clear_value x); (on_goal 2 => dsimp only [x]))
    | (intro x; clear_value x) | lift_lets | with_reducible refine keeps_ite (fun _ => ?_) (fun _ => ?_)
    | with_reducible assumption | with_reducible apply keeps_applyCommit | with_reducible apply keeps_applyReplay
    | with_reducible apply keeps_at | split | ((conv in (State.mk ..) => skip); with_reducible apply keeps_upd)
    | (refine UpdOk.mk ?_; intro p; cases p <;> first | (apply Or.inl; apply hp.get; rfl) | exact Or.inr rfl)

/-! ### Judge -/

theorem keeps_chooseStretch {P : StatePart → Bool} {σ : State} (s : State) (hσ : Keeps P σ s)
    (hp : covers P [.regs, .slots, .beat, .units, .cores, .upd, .tier, .forager, .mods, .ports, .casc, .host, .test] := by exact hp.sub rfl) :
    Keeps P σ (State.chooseStretch s).2 := by
  unfold State.chooseStretch
  repeat' first
    | (with_reducible show covers P _; exact hp.sub rfl)
    | (intro (x : State); refine (fun (hx : Keeps P σ x) => ?_) ?_; (on_goal 1 => clear_value x); (on_goal 2 => dsimp only [x]))
    | (intro x; clear_value x) | lift_lets | with_reducible assumption | with_reducible apply keeps_raise | split
    | ((conv in (State.mk ..) => skip); with_reducible apply keeps_upd)
    | (refine UpdOk.mk ?_; intro p; cases p <;> first | (apply Or.inl; apply hp.get; rfl) | exact Or.inr rfl)

theorem keeps_countVerdict {P : StatePart → Bool} {σ : State} (s : State) (kind : Nat) (margin : Int) (coord : Coord) (hσ : Keeps P σ s)
    (hp : covers P [.regs, .casc] := by exact hp.sub rfl) :
    Keeps P σ (State.countVerdict s kind margin coord) := by
  unfold State.countVerdict
  repeat' first
    | (with_reducible show covers P _; exact hp.sub rfl)
    | (intro (x : State); refine (fun (hx : Keeps P σ x) => ?_) ?_; (on_goal 1 => clear_value x); (on_goal 2 => dsimp only [x]))
    | (intro x; clear_value x) | lift_lets | with_reducible refine keeps_ite (fun _ => ?_) (fun _ => ?_)
    | with_reducible assumption | with_reducible apply keeps_setReg | split
    | ((conv in (State.mk ..) => skip); with_reducible apply keeps_upd)
    | (refine UpdOk.mk ?_; intro p; cases p <;> first | (apply Or.inl; apply hp.get; rfl) | exact Or.inr rfl)

theorem keeps_noteReplay {P : StatePart → Bool} {σ : State} (s : State) (w : Win) (inst stretch ep : Nat) (hσ : Keeps P σ s)
    (hp : covers P [.casc] := by exact hp.sub rfl) :
    Keeps P σ (State.noteReplay s w inst stretch ep) := by
  unfold State.noteReplay
  repeat' first
    | (intro x; clear_value x) | lift_lets | with_reducible assumption
    | ((conv in (State.mk ..) => skip); with_reducible apply keeps_upd)
    | (refine UpdOk.mk ?_; intro p; cases p <;> first | (apply Or.inl; apply hp.get; rfl) | exact Or.inr rfl)

theorem keeps_issueVerdict {P : StatePart → Bool} {σ : State} (s : State) (w : Win) (t kind flags stretch : Nat) (margin : Int) (coord : Coord) (lost : Option Coord) (hσ : Keeps P σ s)
    (hp : covers P [.regs, .beat, .ports, .casc] := by exact hp.sub rfl) :
    Keeps P σ (State.issueVerdict s w t kind flags stretch margin coord lost) := by
  unfold State.issueVerdict
  repeat' first
    | (with_reducible show covers P _; exact hp.sub rfl)
    | (intro (x : State); refine (fun (hx : Keeps P σ x) => ?_) ?_; (on_goal 1 => clear_value x); (on_goal 2 => dsimp only [x]))
    | (intro x; clear_value x) | lift_lets | with_reducible refine keeps_ite (fun _ => ?_) (fun _ => ?_)
    | with_reducible assumption | with_reducible apply keeps_countVerdict | with_reducible apply keeps_noteReplay
    | with_reducible apply keeps_spread | ((conv in (State.mk ..) => skip); with_reducible apply keeps_upd)
    | (refine UpdOk.mk ?_; intro p; cases p <;> first | (apply Or.inl; apply hp.get; rfl) | exact Or.inr rfl)

theorem keeps_judgeLoss {P : StatePart → Bool} {σ : State} (s : State) (w : Win) (t : Nat) (margin : Int) (coord c : Coord) (retired : Bool) (hσ : Keeps P σ s)
    (hp : covers P [.regs, .slots, .beat, .units, .cores, .upd, .tier, .forager, .mods, .ports, .casc, .host, .test] := by exact hp.sub rfl) :
    Keeps P σ (State.judgeLoss s w t margin coord c retired) := by
  unfold State.judgeLoss
  repeat' first
    | (with_reducible show covers P _; exact hp.sub rfl)
    | (intro (x : State); refine (fun (hx : Keeps P σ x) => ?_) ?_; (on_goal 1 => clear_value x); (on_goal 2 => dsimp only [x]))
    | (intro x; clear_value x) | lift_lets | with_reducible refine keeps_ite (fun _ => ?_) (fun _ => ?_)
    | with_reducible assumption | with_reducible apply keeps_issueVerdict | with_reducible apply keeps_raise
    | ((conv in (State.mk ..) => skip); with_reducible apply keeps_upd)
    | (refine UpdOk.mk ?_; intro p; cases p <;> first | (apply Or.inl; apply hp.get; rfl) | exact Or.inr rfl)

theorem keeps_judge {P : StatePart → Bool} {σ : State} (s : State) (w : Win) (t : Nat) (rs : List HeldReport) (gone : List Coord) (hσ : Keeps P σ s)
    (hp : covers P [.regs, .slots, .beat, .units, .cores, .upd, .tier, .forager, .mods, .ports, .casc, .host, .test] := by exact hp.sub rfl) :
    Keeps P σ (State.judge s w t rs gone) := by
  unfold State.judge
  repeat' first
    | (with_reducible show covers P _; exact hp.sub rfl)
    | (intro (x : State); refine (fun (hx : Keeps P σ x) => ?_) ?_; (on_goal 1 => clear_value x); (on_goal 2 => dsimp only [x]))
    | (intro (x : _ × State); refine (fun (hx : Keeps P σ x.2) => ?_) ?_; (on_goal 1 => clear_value x); (on_goal 2 => dsimp only [x]))
    | (intro x; clear_value x) | lift_lets | with_reducible refine keeps_ite (fun _ => ?_) (fun _ => ?_)
    | with_reducible assumption | with_reducible apply keeps_chooseStretch | with_reducible apply keeps_issueVerdict
    | with_reducible apply keeps_judgeLoss | with_reducible apply keeps_raise | split
    | ((conv in (State.mk ..) => skip); with_reducible apply keeps_upd)
    | (refine UpdOk.mk ?_; intro p; cases p <;> first | (apply Or.inl; apply hp.get; rfl) | exact Or.inr rfl)

theorem keeps_tryJudge {P : StatePart → Bool} {σ : State} (s : State) (t : Nat) (hσ : Keeps P σ s)
    (hp : covers P [.regs, .slots, .beat, .units, .cores, .upd, .tier, .forager, .mods, .ports, .casc, .host, .test] := by exact hp.sub rfl) :
    Keeps P σ (State.tryJudge s t) := by
  unfold State.tryJudge
  repeat' first
    | (with_reducible show covers P _; exact hp.sub rfl) | with_reducible refine keeps_ite (fun _ => ?_) (fun _ => ?_)
    | with_reducible assumption | with_reducible apply keeps_judge | split

theorem keeps_holdReport {P : StatePart → Bool} {σ : State} (s : State) (h : HeldReport) (hσ : Keeps P σ s)
    (hp : covers P [.casc] := by exact hp.sub rfl) :
    Keeps P σ (State.holdReport s h) := by
  unfold State.holdReport
  repeat' first
    | with_reducible assumption | ((conv in (State.mk ..) => skip); with_reducible apply keeps_upd)
    | (refine UpdOk.mk ?_; intro p; cases p <;> first | (apply Or.inl; apply hp.get; rfl) | exact Or.inr rfl)

theorem keeps_sendReport {P : StatePart → Bool} {σ : State} (s : State) (m : CtlMsg) (t : Nat) (hσ : Keeps P σ s)
    (hp : covers P [.regs, .slots, .beat, .units, .cores, .upd, .tier, .forager, .mods, .ports, .casc, .host, .test] := by exact hp.sub rfl) :
    Keeps P σ (State.sendReport s m t) := by
  unfold State.sendReport
  repeat' first
    | (with_reducible show covers P _; exact hp.sub rfl)
    | (intro x; refine (fun (hf : ∀ (u : State) v (b : State), Keeps P b u → Keeps P b (x u v)) => ?_) ?_; (on_goal 1 => clear_value x); (on_goal 2 => (intro _ _ _ _; dsimp only [x])))
    | lift_lets | with_reducible refine keeps_ite (fun _ => ?_) (fun _ => ?_) | with_reducible assumption
    | with_reducible apply hf | with_reducible apply keeps_controlTo | with_reducible apply keeps_holdReport
    | with_reducible apply keeps_tryJudge | split

/-! ### Beat -/

theorem keeps_adoptMarker {P : StatePart → Bool} {σ : State} (s : State) (m : DueMarker) (hσ : Keeps P σ s)
    (hp : covers P [.regs, .memory, .slots, .beat, .units, .cores, .upd, .tier, .forager, .mods, .ports, .casc, .host, .test] := by exact hp.sub rfl) :
    Keeps P σ (State.adoptMarker s m).1 := by
  unfold State.adoptMarker
  repeat' first
    | (with_reducible show covers P _; exact hp.sub rfl)
    | (intro (x : State); refine (fun (hx : Keeps P σ x) => ?_) ?_; (on_goal 1 => clear_value x); (on_goal 2 => dsimp only [x]))
    | (intro x; clear_value x) | lift_lets | with_reducible refine keeps_ite (fun _ => ?_) (fun _ => ?_)
    | with_reducible assumption | with_reducible apply keeps_emit | with_reducible apply keeps_handBack | split
    | ((conv in (State.mk ..) => skip); with_reducible apply keeps_upd)
    | (refine UpdOk.mk ?_; intro p; cases p <;> first | (apply Or.inl; apply hp.get; rfl) | exact Or.inr rfl)

theorem keeps_runMarker {P : StatePart → Bool} {σ : State} (s : State) (f : FSlot) (m : DueMarker) (t : Nat) (hσ : Keeps P σ s)
    (hp : covers P [.now, .regs, .memory, .slots, .beat, .units, .cores, .upd, .tier, .forager, .mods, .ports, .casc, .host, .test] := by exact hp.sub rfl) :
    Keeps P σ (State.runMarker s f m t) := by
  unfold State.runMarker
  repeat' first
    | (with_reducible show covers P _; exact hp.sub rfl)
    | (intro (x : State); refine (fun (hx : Keeps P σ x) => ?_) ?_; (on_goal 1 => clear_value x); (on_goal 2 => dsimp only [x]))
    | (intro x; clear_value x) | lift_lets | with_reducible refine keeps_ite (fun _ => ?_) (fun _ => ?_)
    | with_reducible assumption | with_reducible apply keeps_actOnPage | with_reducible apply keeps_at
    | with_reducible apply keeps_handBack | with_reducible apply keeps_raise | with_reducible apply keeps_setBit
    | with_reducible apply keeps_startWindow

theorem keeps_applyMarker {P : StatePart → Bool} {σ : State} (t : Nat) (s : State) (hσ : Keeps P σ s)
    (hp : covers P [.now, .regs, .memory, .slots, .beat, .units, .cores, .upd, .tier, .forager, .mods, .ports, .casc, .host, .test] := by exact hp.sub rfl) :
    Keeps P σ (applyMarker t s) := by
  unfold applyMarker
  split
  · exact hσ
  · lift_lets
    intro w v
    have h1 : Keeps P σ v := keeps_upd hσ
    clear_value v
    split
    · exact h1
    · refine keeps_ite (fun _ => h1) (fun _ => ?_)
      have h2 := fun n => keeps_adoptMarker v n h1
      exact keeps_ite (fun _ => keeps_runMarker _ _ _ _ (h2 _)) (fun _ => h2 _)

theorem keeps_applyStandaloneFirstMarker {P : StatePart → Bool} {σ : State} (t : Nat) (s : State) (hσ : Keeps P σ s)
    (hp : covers P [.now, .regs, .beat, .casc] := by exact hp.sub rfl) :
    Keeps P σ (applyStandaloneFirstMarker t s) := by
  unfold applyStandaloneFirstMarker
  repeat' first
    | (with_reducible show covers P _; exact hp.sub rfl)
    | (intro (x : State); refine (fun (hx : Keeps P σ x) => ?_) ?_; (on_goal 1 => clear_value x); (on_goal 2 => dsimp only [x]))
    | (intro x; clear_value x) | lift_lets | with_reducible refine keeps_ite (fun _ => ?_) (fun _ => ?_)
    | with_reducible assumption | with_reducible apply keeps_at | with_reducible apply keeps_setBit | split
    | ((conv in (State.mk ..) => skip); with_reducible apply keeps_upd)
    | (refine UpdOk.mk ?_; intro p; cases p <;> first | (apply Or.inl; apply hp.get; rfl) | exact Or.inr rfl)

theorem keeps_applyGapStart {P : StatePart → Bool} {σ : State} (t : Nat) (s : State) (hσ : Keeps P σ s)
    (hp : covers P [.now, .beat] := by exact hp.sub rfl) :
    Keeps P σ (applyGapStart t s) := by
  unfold applyGapStart
  repeat' first
    | (with_reducible show covers P _; exact hp.sub rfl) | with_reducible refine keeps_ite (fun _ => ?_) (fun _ => ?_)
    | with_reducible assumption | with_reducible apply keeps_at | with_reducible apply keeps_setWindow | split

theorem keeps_applyGapEntry {P : StatePart → Bool} {σ : State} (t : Nat) (s : State) (hσ : Keeps P σ s)
    (hp : covers P [.now, .regs, .memory, .slots, .beat, .units, .cores, .upd, .tier, .forager, .mods, .ports, .casc, .host, .test] := by exact hp.sub rfl) :
    Keeps P σ (applyGapEntry t s) := by
  unfold applyGapEntry
  repeat' first
    | (with_reducible show covers P _; exact hp.sub rfl) | with_reducible assumption | with_reducible apply keeps_at
    | with_reducible apply keeps_enterGap | split

theorem keeps_checkMirror {P : StatePart → Bool} {σ : State} (s : State) (w : Win) (hσ : Keeps P σ s)
    (hp : covers P [.regs, .slots, .beat, .units, .cores, .upd, .tier, .forager, .mods, .ports, .casc, .host, .test] := by exact hp.sub rfl) :
    Keeps P σ (State.checkMirror s w) := by
  unfold State.checkMirror
  repeat' first
    | (with_reducible show covers P _; exact hp.sub rfl) | (intro x; clear_value x) | lift_lets
    | with_reducible refine keeps_ite (fun _ => ?_) (fun _ => ?_) | with_reducible assumption | with_reducible apply keeps_raise

theorem keeps_lateFailure {P : StatePart → Bool} {σ : State} (s : State) (w : Win) (hσ : Keeps P σ s)
    (hp : covers P [.regs, .memory, .slots, .beat, .units, .cores, .upd, .tier, .forager, .mods, .ports, .casc, .host, .test] := by exact hp.sub rfl) :
    Keeps P σ (State.lateFailure s w) := by
  unfold State.lateFailure
  repeat' first
    | (with_reducible show covers P _; exact hp.sub rfl) | with_reducible refine keeps_ite (fun _ => ?_) (fun _ => ?_)
    | with_reducible assumption | with_reducible apply keeps_gapLosses | with_reducible apply keeps_settle
    | with_reducible apply keeps_thirdFailure

theorem keeps_applyBeatReport {P : StatePart → Bool} {σ : State} (t : Nat) (s : State) (hσ : Keeps P σ s)
    (hp : covers P [.now, .regs, .memory, .slots, .beat, .units, .cores, .upd, .tier, .forager, .mods, .ports, .casc, .host, .test] := by exact hp.sub rfl) :
    Keeps P σ (applyBeatReport t s) := by
  unfold applyBeatReport
  repeat' first
    | (with_reducible show covers P _; exact hp.sub rfl)
    | (intro (x : State); refine (fun (hx : Keeps P σ x) => ?_) ?_; (on_goal 1 => clear_value x); (on_goal 2 => dsimp only [x]))
    | (intro x; clear_value x) | lift_lets | with_reducible assumption | with_reducible apply keeps_at
    | with_reducible apply keeps_checkMirror | with_reducible apply keeps_lateFailure | with_reducible apply keeps_sendReport
    | with_reducible apply keeps_setWindow | split

theorem keeps_newMaster {P : StatePart → Bool} {σ : State} (s : State) (idx : Nat) (hσ : Keeps P σ s)
    (hp : covers P [.regs, .casc] := by exact hp.sub rfl) :
    Keeps P σ (State.newMaster s idx) := by
  unfold State.newMaster
  repeat' first
    | (with_reducible show covers P _; exact hp.sub rfl)
    | (intro (x : State); refine (fun (hx : Keeps P σ x) => ?_) ?_; (on_goal 1 => clear_value x); (on_goal 2 => dsimp only [x]))
    | (intro x; clear_value x) | lift_lets | with_reducible assumption | with_reducible apply keeps_setBit
    | with_reducible apply keeps_setFld | ((conv in (State.mk ..) => skip); with_reducible apply keeps_upd)
    | (refine UpdOk.mk ?_; intro p; cases p <;> first | (apply Or.inl; apply hp.get; rfl) | exact Or.inr rfl)

theorem keeps_heed {P : StatePart → Bool} {σ : State} (s : State) (m : CtlMsg) (hσ : Keeps P σ s)
    (hp : covers P [.regs, .casc] := by exact hp.sub rfl) :
    KeepsSome P σ (State.heed s m) := by
  unfold State.heed
  repeat' first
    | (with_reducible show covers P _; exact hp.sub rfl) | with_reducible assumption | with_reducible apply keeps_newMaster
    | with_reducible apply keepsSome_none | with_reducible apply keepsSome_some | with_reducible apply keepsSome_ite

theorem keeps_noteLate {P : StatePart → Bool} {σ : State} (s : State) (m : CtlMsg) (hσ : Keeps P σ s)
    (hp : covers P [.regs, .slots, .beat, .units, .cores, .upd, .tier, .forager, .mods, .ports, .casc, .host, .test] := by exact hp.sub rfl) :
    Keeps P σ (State.noteLate s m) := by
  unfold State.noteLate
  repeat' first
    | (with_reducible show covers P _; exact hp.sub rfl) | with_reducible refine keeps_ite (fun _ => ?_) (fun _ => ?_)
    | with_reducible assumption | with_reducible apply keeps_raise | with_reducible apply keeps_setBit

theorem keeps_takeVerdict {P : StatePart → Bool} {σ : State} (s : State) (m : CtlMsg) (t : Nat) (hσ : Keeps P σ s)
    (hp : covers P [.beat, .casc] := by exact hp.sub rfl) :
    Keeps P σ (State.takeVerdict s m t) := by
  unfold State.takeVerdict
  repeat' first
    | (intro x; clear_value x) | lift_lets | with_reducible refine keeps_ite (fun _ => ?_) (fun _ => ?_)
    | with_reducible assumption | ((conv in (State.mk ..) => skip); with_reducible apply keeps_upd)
    | (refine UpdOk.mk ?_; intro p; cases p <;> first | (apply Or.inl; apply hp.get; rfl) | exact Or.inr rfl)

theorem keeps_applyVerdictLate {P : StatePart → Bool} {σ : State} (t : Nat) (s : State) (hσ : Keeps P σ s)
    (hp : covers P [.now, .regs, .slots, .beat, .units, .cores, .upd, .tier, .forager, .mods, .ports, .casc, .host, .test] := by exact hp.sub rfl) :
    Keeps P σ (applyVerdictLate t s) := by
  unfold applyVerdictLate
  repeat' first
    | (with_reducible show covers P _; exact hp.sub rfl) | with_reducible refine keeps_ite (fun _ => ?_) (fun _ => ?_)
    | with_reducible assumption | with_reducible apply keeps_at | with_reducible apply keeps_raiseBeat
    | with_reducible apply keeps_setWindow | split

theorem keeps_slotScale {P : StatePart → Bool} {σ : State} (s : State) (n op : Nat) (hσ : Keeps P σ s)
    (hp : covers P [.tier] := by exact hp.sub rfl) :
    Keeps P σ (State.slotScale s n op).2 := by
  unfold State.slotScale
  repeat' first
    | (with_reducible show covers P _; exact hp.sub rfl) | (intro x; clear_value x) | lift_lets | with_reducible assumption
    | with_reducible apply keeps_touchRange | split

theorem keeps_applySlotStart {P : StatePart → Bool} {σ : State} (u : UnitId) (t : Nat) (s : State) (hσ : Keeps P σ s)
    (hp : covers P [.now, .regs, .slots, .beat, .units, .cores, .upd, .tier, .forager, .mods, .ports, .casc, .host, .test] := by exact hp.sub rfl) :
    Keeps P σ (applySlotStart u t s) := by
  unfold applySlotStart
  repeat' first
    | (with_reducible show covers P _; exact hp.sub rfl)
    | (intro (x : State); refine (fun (hx : Keeps P σ x) => ?_) ?_; (on_goal 1 => clear_value x); (on_goal 2 => dsimp only [x]))
    | (intro (x : _ × State); refine (fun (hx : Keeps P σ x.2) => ?_) ?_; (on_goal 1 => clear_value x); (on_goal 2 => dsimp only [x]))
    | (intro x; clear_value x) | split | lift_lets | with_reducible assumption | with_reducible apply keeps_at
    | with_reducible apply keeps_raise | with_reducible apply keeps_setPower | with_reducible apply keeps_setUnit
    | with_reducible apply keeps_showRun | with_reducible apply keeps_slotScale

theorem keeps_endSlot {P : StatePart → Bool} {σ : State} (s : State) (u : UnitId) (r : RunSlot) (t : Nat) (hσ : Keeps P σ s)
    (hp : covers P [.regs, .memory, .beat, .units, .tier] := by exact hp.sub rfl) :
    Keeps P σ (State.endSlot s u r t) := by
  unfold State.endSlot
  repeat' first
    | (with_reducible show covers P _; exact hp.sub rfl)
    | (intro (x : State); refine (fun (hx : Keeps P σ x) => ?_) ?_; (on_goal 1 => clear_value x); (on_goal 2 => dsimp only [x]))
    | (intro x; clear_value x) | lift_lets | with_reducible assumption | with_reducible apply keeps_choosePower
    | with_reducible apply keeps_expireCopies | with_reducible apply keeps_setUnit | with_reducible apply keeps_setWindow
    | with_reducible apply keeps_showRun

theorem keeps_stopEngine {P : StatePart → Bool} {σ : State} (s : State) (n : Nat) (hσ : Keeps P σ s)
    (hp : covers P [.regs, .units, .upd] := by exact hp.sub rfl) :
    Keeps P σ (State.stopEngine s n) := by
  unfold State.stopEngine
  repeat' first
    | (with_reducible show covers P _; exact hp.sub rfl)
    | (intro (x : State); refine (fun (hx : Keeps P σ x) => ?_) ?_; (on_goal 1 => clear_value x); (on_goal 2 => dsimp only [x]))
    | (intro x; clear_value x) | lift_lets | with_reducible assumption | with_reducible apply keeps_endRunOf
    | with_reducible apply keeps_setFld | split | ((conv in (State.mk ..) => skip); with_reducible apply keeps_upd)
    | (refine UpdOk.mk ?_; intro p; cases p <;> first | (apply Or.inl; apply hp.get; rfl) | exact Or.inr rfl)

theorem keeps_applySlotEnd {P : StatePart → Bool} {σ : State} (u : UnitId) (t : Nat) (errs : List HwErr) (s : State) (hσ : Keeps P σ s)
    (hp : covers P [.now, .regs, .memory, .slots, .beat, .units, .cores, .upd, .tier, .forager, .mods, .ports, .casc, .host, .test] := by exact hp.sub rfl) :
    Keeps P σ (applySlotEnd u t errs s) := by
  unfold applySlotEnd
  repeat' first
    | (with_reducible show covers P _; exact hp.sub rfl)
    | (intro (x : State); refine (fun (hx : Keeps P σ x) => ?_) ?_; (on_goal 1 => clear_value x); (on_goal 2 => dsimp only [x]))
    | (intro x; clear_value x) | lift_lets | with_reducible refine keeps_ite (fun _ => ?_) (fun _ => ?_)
    | with_reducible assumption | with_reducible apply keeps_at | with_reducible apply keeps_endSlot
    | with_reducible apply keeps_hwErrors | with_reducible apply keeps_stopEngine | split

theorem keeps_applySlotHung {P : StatePart → Bool} {σ : State} (u : UnitId) (t : Nat) (s : State) (hσ : Keeps P σ s)
    (hp : covers P [.now, .regs, .memory, .slots, .beat, .units, .cores, .upd, .tier, .forager, .mods, .ports, .casc, .host, .test] := by exact hp.sub rfl) :
    Keeps P σ (applySlotHung u t s) := by
  unfold applySlotHung
  repeat' first
    | (with_reducible show covers P _; exact hp.sub rfl)
    | (intro (x : State); refine (fun (hx : Keeps P σ x) => ?_) ?_; (on_goal 1 => clear_value x); (on_goal 2 => dsimp only [x]))
    | (intro x; clear_value x) | lift_lets | with_reducible refine keeps_ite (fun _ => ?_) (fun _ => ?_)
    | with_reducible assumption | with_reducible apply keeps_at | with_reducible apply keeps_endSlot
    | with_reducible apply keeps_raise | with_reducible apply keeps_showCe | split
    | ((conv in (State.mk ..) => skip); with_reducible apply keeps_upd)
    | (refine UpdOk.mk ?_; intro p; cases p <;> first | (apply Or.inl; apply hp.get; rfl) | exact Or.inr rfl)

theorem keeps_readMailbox {P : StatePart → Bool} {σ : State} (s : State) (p : HPort) (a n : Nat) (hσ : Keeps P σ s) :
    Keeps P σ (State.readMailbox s p a n) := by
  unfold State.readMailbox
  repeat' first
    | with_reducible assumption | with_reducible apply keeps_emit

theorem keeps_applyMailboxRead {P : StatePart → Bool} {σ : State} (t : Nat) (s : State) (hσ : Keeps P σ s)
    (hp : covers P [.now, .beat] := by exact hp.sub rfl) :
    Keeps P σ (applyMailboxRead t s) := by
  unfold applyMailboxRead
  repeat' first
    | (with_reducible show covers P _; exact hp.sub rfl)
    | (intro (x : State); refine (fun (hx : Keeps P σ x) => ?_) ?_; (on_goal 1 => clear_value x); (on_goal 2 => dsimp only [x]))
    | (intro x; clear_value x) | lift_lets | with_reducible refine keeps_ite (fun _ => ?_) (fun _ => ?_)
    | with_reducible assumption | with_reducible apply keeps_at | with_reducible apply keeps_readMailbox | split
    | ((conv in (State.mk ..) => skip); with_reducible apply keeps_upd)
    | (refine UpdOk.mk ?_; intro p; cases p <;> first | (apply Or.inl; apply hp.get; rfl) | exact Or.inr rfl)

theorem keeps_mailboxFails {P : StatePart → Bool} {σ : State} (s : State) (hσ : Keeps P σ s)
    (hp : covers P [.regs, .slots, .beat, .units, .cores, .upd, .tier, .forager, .mods, .ports, .casc, .host, .test] := by exact hp.sub rfl) :
    Keeps P σ (State.mailboxFails s) := by
  unfold State.mailboxFails
  repeat' first
    | (with_reducible show covers P _; exact hp.sub rfl)
    | (intro (x : State); refine (fun (hx : Keeps P σ x) => ?_) ?_; (on_goal 1 => clear_value x); (on_goal 2 => dsimp only [x]))
    | (intro x; clear_value x) | lift_lets | with_reducible assumption | with_reducible apply keeps_raise
    | ((conv in (State.mk ..) => skip); with_reducible apply keeps_upd)
    | (refine UpdOk.mk ?_; intro p; cases p <;> first | (apply Or.inl; apply hp.get; rfl) | exact Or.inr rfl)

theorem keeps_mailboxSeq {P : StatePart → Bool} {σ : State} (s : State) (b : Bytes) (hσ : Keeps P σ s)
    (hp : covers P [.beat] := by exact hp.sub rfl) :
    Keeps P σ (State.mailboxSeq s b) := by
  unfold State.mailboxSeq
  repeat' first
    | with_reducible assumption | with_reducible apply keeps_readMailbox | split
    | ((conv in (State.mk ..) => skip); with_reducible apply keeps_upd)
    | (refine UpdOk.mk ?_; intro p; cases p <;> first | (apply Or.inl; apply hp.get; rfl) | exact Or.inr rfl)

theorem keeps_mailboxPage {P : StatePart → Bool} {σ : State} (s : State) (b : Bytes) (hσ : Keeps P σ s)
    (hp : covers P [.beat, .host] := by exact hp.sub rfl) :
    Keeps P σ (State.mailboxPage s b) := by
  unfold State.mailboxPage
  repeat' first
    | (intro (x : State); refine (fun (hx : Keeps P σ x) => ?_) ?_; (on_goal 1 => clear_value x); (on_goal 2 => dsimp only [x]))
    | (intro x; clear_value x) | lift_lets | with_reducible refine keeps_ite (fun _ => ?_) (fun _ => ?_)
    | with_reducible assumption | ((conv in (State.mk ..) => skip); with_reducible apply keeps_upd)
    | (refine UpdOk.mk ?_; intro p; cases p <;> first | (apply Or.inl; apply hp.get; rfl) | exact Or.inr rfl)

theorem keeps_applyMailboxReadComplete {P : StatePart → Bool} {σ : State} (page : Option Bytes) (s : State) (hσ : Keeps P σ s)
    (hp : covers P [.regs, .slots, .beat, .units, .cores, .upd, .tier, .forager, .mods, .ports, .casc, .host, .test] := by exact hp.sub rfl) :
    Keeps P σ (applyMailboxReadComplete page s) := by
  unfold applyMailboxReadComplete
  repeat' first
    | (with_reducible show covers P _; exact hp.sub rfl) | with_reducible refine keeps_ite (fun _ => ?_) (fun _ => ?_)
    | with_reducible assumption | with_reducible apply keeps_mailboxFails | with_reducible apply keeps_mailboxPage
    | with_reducible apply keeps_mailboxSeq | split

theorem keeps_applyNop {P : StatePart → Bool} {σ : State} (s : State) (hσ : Keeps P σ s)
    (hp : covers P [.regs, .beat] := by exact hp.sub rfl) :
    Keeps P σ (applyNop s) := by
  unfold applyNop
  repeat' first
    | (with_reducible show covers P _; exact hp.sub rfl) | with_reducible assumption | with_reducible apply keeps_doNop | split

theorem keeps_applySwitch {P : StatePart → Bool} {σ : State} (s : State) (hσ : Keeps P σ s)
    (hp : covers P [.regs, .slots, .beat] := by exact hp.sub rfl) :
    Keeps P σ (applySwitch s) := by
  unfold applySwitch
  repeat' first
    | (with_reducible show covers P _; exact hp.sub rfl) | with_reducible assumption | with_reducible apply keeps_pageSwitch
    | split

theorem keeps_applyMailboxStop {P : StatePart → Bool} {σ : State} (s : State) (hσ : Keeps P σ s)
    (hp : covers P [.regs, .beat] := by exact hp.sub rfl) :
    Keeps P σ (applyMailboxStop s) := by
  unfold applyMailboxStop
  repeat' first
    | (with_reducible show covers P _; exact hp.sub rfl) | with_reducible assumption | with_reducible apply keeps_pageStop | split

theorem keeps_applyArgs {P : StatePart → Bool} {σ : State} (s : State) (hσ : Keeps P σ s)
    (hp : covers P [.regs, .beat] := by exact hp.sub rfl) :
    Keeps P σ (applyArgs s) := by
  unfold applyArgs
  repeat' first
    | (with_reducible show covers P _; exact hp.sub rfl) | with_reducible assumption | with_reducible apply keeps_pageArgs | split

/-! ### Master -/

theorem keeps_sendMarker {P : StatePart → Bool} {σ : State} (s : State) (m : DueMarker) (slot : FSlot) (period t : Nat) (hσ : Keeps P σ s)
    (hp : covers P [.regs, .beat, .ports, .casc] := by exact hp.sub rfl) :
    Keeps P σ (State.sendMarker s m slot period t) := by
  unfold State.sendMarker
  repeat' first
    | (with_reducible show covers P _; exact hp.sub rfl)
    | (intro (x : State); refine (fun (hx : Keeps P σ x) => ?_) ?_; (on_goal 1 => clear_value x); (on_goal 2 => dsimp only [x]))
    | (intro x; clear_value x) | lift_lets | with_reducible assumption | with_reducible apply keeps_spread
    | ((conv in (State.mk ..) => skip); with_reducible apply keeps_upd)
    | (refine UpdOk.mk ?_; intro p; cases p <;> first | (apply Or.inl; apply hp.get; rfl) | exact Or.inr rfl)

theorem keeps_applyMarkerIssue {P : StatePart → Bool} {σ : State} (t : Nat) (s : State) (hσ : Keeps P σ s)
    (hp : covers P [.now, .regs, .slots, .beat, .units, .cores, .upd, .tier, .forager, .mods, .ports, .casc, .host, .test] := by exact hp.sub rfl) :
    Keeps P σ (applyMarkerIssue t s) := by
  unfold applyMarkerIssue
  repeat' first
    | (with_reducible show covers P _; exact hp.sub rfl)
    | (intro (x : _ × State); refine (fun (hx : Keeps P σ x.2) => ?_) ?_; (on_goal 1 => clear_value x); (on_goal 2 => dsimp only [x]))
    | (intro x; clear_value x) | lift_lets | with_reducible refine keeps_ite (fun _ => ?_) (fun _ => ?_)
    | with_reducible assumption | with_reducible apply keeps_at | with_reducible apply keeps_chooseStretch
    | with_reducible apply keeps_sendMarker | split

theorem keeps_takeReport {P : StatePart → Bool} {σ : State} (s : State) (m : CtlMsg) (t : Nat) (hσ : Keeps P σ s)
    (hp : covers P [.now, .regs, .slots, .beat, .units, .cores, .upd, .tier, .forager, .mods, .ports, .casc, .host, .test] := by exact hp.sub rfl) :
    Keeps P σ (State.takeReport s m t) := by
  unfold State.takeReport
  repeat' first
    | (with_reducible show covers P _; exact hp.sub rfl) | (intro x; clear_value x) | lift_lets
    | with_reducible refine keeps_ite (fun _ => ?_) (fun _ => ?_) | with_reducible assumption | with_reducible apply keeps_at
    | with_reducible apply keeps_holdReport | with_reducible apply keeps_tryJudge

theorem keeps_applyMemberLostTimeout {P : StatePart → Bool} {σ : State} (member t : Nat) (s : State) (hσ : Keeps P σ s)
    (hp : covers P [.now, .regs, .slots, .beat, .units, .cores, .upd, .tier, .forager, .mods, .ports, .casc, .host, .test] := by exact hp.sub rfl) :
    Keeps P σ (applyMemberLostTimeout member t s) := by
  unfold applyMemberLostTimeout
  repeat' first
    | (with_reducible show covers P _; exact hp.sub rfl)
    | (intro (x : State); refine (fun (hx : Keeps P σ x) => ?_) ?_; (on_goal 1 => clear_value x); (on_goal 2 => dsimp only [x]))
    | (intro x; clear_value x) | lift_lets | with_reducible refine keeps_ite (fun _ => ?_) (fun _ => ?_)
    | with_reducible assumption | with_reducible apply keeps_at | with_reducible apply keeps_tryJudge | split
    | ((conv in (State.mk ..) => skip); with_reducible apply keeps_upd)
    | (refine UpdOk.mk ?_; intro p; cases p <;> first | (apply Or.inl; apply hp.get; rfl) | exact Or.inr rfl)

theorem keeps_applyRetire {P : StatePart → Bool} {σ : State} (c : Coord) (s : State) (hσ : Keeps P σ s)
    (hp : covers P [.regs, .slots, .beat, .units, .cores, .upd, .tier, .forager, .mods, .ports, .casc, .host, .test] := by exact hp.sub rfl) :
    Keeps P σ (applyRetire c s) := by
  unfold applyRetire
  repeat' first
    | (with_reducible show covers P _; exact hp.sub rfl) | with_reducible refine keeps_ite (fun _ => ?_) (fun _ => ?_)
    | with_reducible assumption | with_reducible apply keeps_raise
    | ((conv in (State.mk ..) => skip); with_reducible apply keeps_upd)
    | (refine UpdOk.mk ?_; intro p; cases p <;> first | (apply Or.inl; apply hp.get; rfl) | exact Or.inr rfl)

theorem keeps_applyPartnerLost {P : StatePart → Bool} {σ : State} (t : Nat) (s : State) (hσ : Keeps P σ s)
    (hp : covers P [.now, .regs, .slots, .beat, .units, .cores, .upd, .tier, .forager, .mods, .ports, .casc, .host, .test] := by exact hp.sub rfl) :
    Keeps P σ (applyPartnerLost t s) := by
  unfold applyPartnerLost
  repeat' first
    | (with_reducible show covers P _; exact hp.sub rfl)
    | (intro (x : State); refine (fun (hx : Keeps P σ x) => ?_) ?_; (on_goal 1 => clear_value x); (on_goal 2 => dsimp only [x]))
    | (intro x; clear_value x) | lift_lets | with_reducible refine keeps_ite (fun _ => ?_) (fun _ => ?_)
    | with_reducible assumption | with_reducible apply keeps_at | with_reducible apply keeps_raise
    | with_reducible apply keeps_setWindow | split | ((conv in (State.mk ..) => skip); with_reducible apply keeps_upd)
    | (refine UpdOk.mk ?_; intro p; cases p <;> first | (apply Or.inl; apply hp.get; rfl) | exact Or.inr rfl)

theorem keeps_applyMasterLost {P : StatePart → Bool} {σ : State} (t : Nat) (s : State) (hσ : Keeps P σ s)
    (hp : covers P [.now, .casc] := by exact hp.sub rfl) :
    Keeps P σ (applyMasterLost t s) := by
  unfold applyMasterLost
  repeat' first
    | (with_reducible show covers P _; exact hp.sub rfl) | with_reducible refine keeps_ite (fun _ => ?_) (fun _ => ?_)
    | with_reducible assumption | with_reducible apply keeps_at | split
    | ((conv in (State.mk ..) => skip); with_reducible apply keeps_upd)
    | (refine UpdOk.mk ?_; intro p; cases p <;> first | (apply Or.inl; apply hp.get; rfl) | exact Or.inr rfl)

theorem keeps_assumeMaster {P : StatePart → Bool} {σ : State} (s : State) (hσ : Keeps P σ s)
    (hp : covers P [.regs, .slots, .beat, .units, .cores, .upd, .tier, .forager, .mods, .ports, .casc, .host, .test] := by exact hp.sub rfl) :
    Keeps P σ (State.assumeMaster s) := by
  unfold State.assumeMaster
  repeat' first
    | (with_reducible show covers P _; exact hp.sub rfl)
    | (intro (x : State); refine (fun (hx : Keeps P σ x) => ?_) ?_; (on_goal 1 => clear_value x); (on_goal 2 => dsimp only [x]))
    | (intro x; clear_value x) | lift_lets | with_reducible assumption | with_reducible apply keeps_newMaster
    | with_reducible apply keeps_raise | with_reducible apply keeps_setFld
    | ((conv in (State.mk ..) => skip); with_reducible apply keeps_upd)
    | (refine UpdOk.mk ?_; intro p; cases p <;> first | (apply Or.inl; apply hp.get; rfl) | exact Or.inr rfl)

theorem keeps_applyBackupAssumesMastership {P : StatePart → Bool} {σ : State} (t : Nat) (s : State) (hσ : Keeps P σ s)
    (hp : covers P [.now, .regs, .slots, .beat, .units, .cores, .upd, .tier, .forager, .mods, .ports, .casc, .host, .test] := by exact hp.sub rfl) :
    Keeps P σ (applyBackupAssumesMastership t s) := by
  unfold applyBackupAssumesMastership
  repeat' first
    | (with_reducible show covers P _; exact hp.sub rfl)
    | (intro (x : State); refine (fun (hx : Keeps P σ x) => ?_) ?_; (on_goal 1 => clear_value x); (on_goal 2 => dsimp only [x]))
    | (intro x; clear_value x) | split | lift_lets | with_reducible assumption | with_reducible apply keeps_assumeMaster
    | with_reducible apply keeps_at | with_reducible apply keeps_judgeLoss

theorem keeps_applyMasterAndBackupLost {P : StatePart → Bool} {σ : State} (t : Nat) (s : State) (hσ : Keeps P σ s)
    (hp : covers P [.now, .regs, .memory, .slots, .beat, .units, .cores, .watch, .upd, .tier, .forager, .mods, .ports, .casc, .host, .test] := by exact hp.sub rfl) :
    Keeps P σ (applyMasterAndBackupLost t s) := by
  unfold applyMasterAndBackupLost
  repeat' first
    | (with_reducible show covers P _; exact hp.sub rfl)
    | (intro (x : State); refine (fun (hx : Keeps P σ x) => ?_) ?_; (on_goal 1 => clear_value x); (on_goal 2 => dsimp only [x]))
    | (intro x; clear_value x) | lift_lets | with_reducible refine keeps_ite (fun _ => ?_) (fun _ => ?_)
    | with_reducible assumption | with_reducible apply keeps_at | with_reducible apply keeps_raise
    | with_reducible apply keeps_replayEffects | split | ((conv in (State.mk ..) => skip); with_reducible apply keeps_upd)
    | (refine UpdOk.mk ?_; intro p; cases p <;> first | (apply Or.inl; apply hp.get; rfl) | exact Or.inr rfl)

theorem keeps_startSync {P : StatePart → Bool} {σ : State} (s : State) (t : Nat) (hσ : Keeps P σ s)
    (hp : covers P [.regs, .ports, .casc] := by exact hp.sub rfl) :
    Keeps P σ (State.startSync s t) := by
  unfold State.startSync
  repeat' first
    | (with_reducible show covers P _; exact hp.sub rfl)
    | (intro (x : State); refine (fun (hx : Keeps P σ x) => ?_) ?_; (on_goal 1 => clear_value x); (on_goal 2 => dsimp only [x]))
    | (intro x; clear_value x) | lift_lets | with_reducible assumption | with_reducible apply keeps_spread
    | with_reducible refine keeps_foldl (fun _ _ σ _ => ?_) ?_ | ((conv in (State.mk ..) => skip); with_reducible apply keeps_upd)
    | (refine UpdOk.mk ?_; intro p; cases p <;> first | (apply Or.inl; apply hp.get; rfl) | exact Or.inr rfl)

theorem keeps_takeJoin {P : StatePart → Bool} {σ : State} (s : State) (m : CtlMsg) (t : Nat) (hσ : Keeps P σ s)
    (hp : covers P [.now, .regs, .slots, .beat, .units, .cores, .upd, .tier, .forager, .mods, .ports, .casc, .host, .test] := by exact hp.sub rfl) :
    Keeps P σ (State.takeJoin s m t) := by
  unfold State.takeJoin
  repeat' first
    | (with_reducible show covers P _; exact hp.sub rfl)
    | (intro (x : State); refine (fun (hx : Keeps P σ x) => ?_) ?_; (on_goal 1 => clear_value x); (on_goal 2 => dsimp only [x]))
    | (intro x; clear_value x) | lift_lets | with_reducible refine keeps_ite (fun _ => ?_) (fun _ => ?_)
    | with_reducible assumption | with_reducible apply keeps_at | with_reducible apply keeps_controlTo
    | with_reducible apply keeps_raise | with_reducible apply keeps_startSync
    | ((conv in (State.mk ..) => skip); with_reducible apply keeps_upd)
    | (refine UpdOk.mk ?_; intro p; cases p <;> first | (apply Or.inl; apply hp.get; rfl) | exact Or.inr rfl)

theorem keeps_applyJoinTimeout {P : StatePart → Bool} {σ : State} (t : Nat) (s : State) (hσ : Keeps P σ s)
    (hp : covers P [.now, .regs, .slots, .beat, .units, .cores, .upd, .tier, .forager, .mods, .ports, .casc, .host, .test] := by exact hp.sub rfl) :
    Keeps P σ (applyJoinTimeout t s) := by
  unfold applyJoinTimeout
  repeat' first
    | (with_reducible show covers P _; exact hp.sub rfl) | with_reducible refine keeps_ite (fun _ => ?_) (fun _ => ?_)
    | with_reducible assumption | with_reducible apply keeps_at | with_reducible apply keeps_raise

theorem keeps_firstMarker {P : StatePart → Bool} {σ : State} (s : State) (t : Nat) (hσ : Keeps P σ s)
    (hp : covers P [.regs, .beat, .ports, .casc] := by exact hp.sub rfl) :
    Keeps P σ (State.firstMarker s t) := by
  unfold State.firstMarker
  repeat' first
    | (with_reducible show covers P _; exact hp.sub rfl) | (intro x; clear_value x) | lift_lets | with_reducible assumption
    | with_reducible apply keeps_sendMarker | split

theorem keeps_noteResult {P : StatePart → Bool} {σ : State} (s : State) (c : Coord) (ok : Bool) (t : Nat) (hσ : Keeps P σ s)
    (hp : covers P [.regs, .slots, .beat, .units, .cores, .upd, .tier, .forager, .mods, .ports, .casc, .host, .test] := by exact hp.sub rfl) :
    Keeps P σ (State.noteResult s c ok t) := by
  unfold State.noteResult
  repeat' first
    | (with_reducible show covers P _; exact hp.sub rfl)
    | (intro (x : State); refine (fun (hx : Keeps P σ x) => ?_) ?_; (on_goal 1 => clear_value x); (on_goal 2 => dsimp only [x]))
    | (intro x; clear_value x) | lift_lets | with_reducible refine keeps_ite (fun _ => ?_) (fun _ => ?_)
    | with_reducible assumption | with_reducible apply keeps_firstMarker | with_reducible apply keeps_raise
    | with_reducible apply keeps_startSync | ((conv in (State.mk ..) => skip); with_reducible apply keeps_upd)
    | (refine UpdOk.mk ?_; intro p; cases p <;> first | (apply Or.inl; apply hp.get; rfl) | exact Or.inr rfl)

theorem keeps_sendResult {P : StatePart → Bool} {σ : State} (s : State) (ok : Bool) (t : Nat) (hσ : Keeps P σ s)
    (hp : covers P [.regs, .slots, .beat, .units, .cores, .upd, .tier, .forager, .mods, .ports, .casc, .host, .test] := by exact hp.sub rfl) :
    Keeps P σ (State.sendResult s ok t) := by
  unfold State.sendResult
  repeat' first
    | (with_reducible show covers P _; exact hp.sub rfl)
    | (intro (x : State); refine (fun (hx : Keeps P σ x) => ?_) ?_; (on_goal 1 => clear_value x); (on_goal 2 => dsimp only [x]))
    | (intro x; clear_value x) | lift_lets | with_reducible refine keeps_ite (fun _ => ?_) (fun _ => ?_)
    | with_reducible assumption | with_reducible apply keeps_controlUp | with_reducible apply keeps_emit
    | with_reducible apply keeps_noteResult | with_reducible apply keeps_setBit
    | with_reducible refine keeps_foldl (fun _ _ σ _ => ?_) ?_ | ((conv in (State.mk ..) => skip); with_reducible apply keeps_upd)
    | (refine UpdOk.mk ?_; intro p; cases p <;> first | (apply Or.inl; apply hp.get; rfl) | exact Or.inr rfl)

theorem keeps_finishSync {P : StatePart → Bool} {σ : State} (s : State) (t : Nat) (hσ : Keeps P σ s)
    (hp : covers P [.regs, .slots, .beat, .units, .cores, .upd, .tier, .forager, .mods, .ports, .casc, .host, .test] := by exact hp.sub rfl) :
    Keeps P σ (State.finishSync s t) := by
  unfold State.finishSync
  repeat' first
    | (with_reducible show covers P _; exact hp.sub rfl) | with_reducible refine keeps_ite (fun _ => ?_) (fun _ => ?_)
    | with_reducible assumption | with_reducible apply keeps_sendResult

theorem keeps_applySync {P : StatePart → Bool} {σ : State} (t : Nat) (s : State) (hσ : Keeps P σ s)
    (hp : covers P [.now, .regs, .slots, .beat, .units, .cores, .upd, .tier, .forager, .mods, .ports, .casc, .host, .test] := by exact hp.sub rfl) :
    Keeps P σ (applySync t s) := by
  unfold applySync
  repeat' first
    | (with_reducible show covers P _; exact hp.sub rfl)
    | (intro (x : State); refine (fun (hx : Keeps P σ x) => ?_) ?_; (on_goal 1 => clear_value x); (on_goal 2 => dsimp only [x]))
    | (intro x; clear_value x) | split | lift_lets | with_reducible assumption | with_reducible apply keeps_at
    | with_reducible apply keeps_emit | with_reducible apply keeps_finishSync
    | ((conv in (State.mk ..) => skip); with_reducible apply keeps_upd)
    | (refine UpdOk.mk ?_; intro p; cases p <;> first | (apply Or.inl; apply hp.get; rfl) | exact Or.inr rfl)

theorem keeps_tryReady {P : StatePart → Bool} {σ : State} (s : State) (hσ : Keeps P σ s)
    (hp : covers P [.regs, .ports, .casc] := by exact hp.sub rfl) :
    Keeps P σ (State.tryReady s) := by
  unfold State.tryReady
  repeat' first
    | (with_reducible show covers P _; exact hp.sub rfl)
    | (intro (x : State); refine (fun (hx : Keeps P σ x) => ?_) ?_; (on_goal 1 => clear_value x); (on_goal 2 => dsimp only [x]))
    | (intro x; clear_value x) | lift_lets | with_reducible refine keeps_ite (fun _ => ?_) (fun _ => ?_)
    | with_reducible assumption | with_reducible apply keeps_controlUp
    | ((conv in (State.mk ..) => skip); with_reducible apply keeps_upd)
    | (refine UpdOk.mk ?_; intro p; cases p <;> first | (apply Or.inl; apply hp.get; rfl) | exact Or.inr rfl)

theorem keeps_adoptEdge {P : StatePart → Bool} {σ : State} (s : State) (e : Int) (hσ : Keeps P σ s)
    (hp : covers P [.regs, .ports, .casc] := by exact hp.sub rfl) :
    Keeps P σ (State.adoptEdge s e) := by
  unfold State.adoptEdge
  repeat' first
    | (with_reducible show covers P _; exact hp.sub rfl)
    | (intro (x : State); refine (fun (hx : Keeps P σ x) => ?_) ?_; (on_goal 1 => clear_value x); (on_goal 2 => dsimp only [x]))
    | (intro x; clear_value x) | lift_lets | with_reducible refine keeps_ite (fun _ => ?_) (fun _ => ?_)
    | with_reducible assumption | with_reducible apply keeps_setBit | with_reducible apply keeps_setFld
    | with_reducible apply keeps_tryReady

theorem keeps_syncEdge {P : StatePart → Bool} {σ : State} (s : State) (t : Nat) (hσ : Keeps P σ s)
    (hp : covers P [.regs, .slots, .beat, .units, .cores, .upd, .tier, .forager, .mods, .ports, .casc, .host, .test] := by exact hp.sub rfl) :
    Keeps P σ (State.syncEdge s t) := by
  unfold State.syncEdge
  repeat' first
    | (with_reducible show covers P _; exact hp.sub rfl)
    | (intro (x : State); refine (fun (hx : Keeps P σ x) => ?_) ?_; (on_goal 1 => clear_value x); (on_goal 2 => dsimp only [x]))
    | (intro x; clear_value x) | lift_lets | with_reducible refine keeps_ite (fun _ => ?_) (fun _ => ?_)
    | with_reducible assumption | with_reducible apply keeps_finishSync | with_reducible apply keeps_setBit
    | with_reducible apply keeps_setFld

theorem keeps_applyBeatInEdge {P : StatePart → Bool} {σ : State} (t : Nat) (s : State) (hσ : Keeps P σ s)
    (hp : covers P [.now, .regs, .slots, .beat, .units, .cores, .upd, .tier, .forager, .mods, .ports, .casc, .host, .test] := by exact hp.sub rfl) :
    Keeps P σ (applyBeatInEdge t s) := by
  unfold applyBeatInEdge
  repeat' first
    | (with_reducible show covers P _; exact hp.sub rfl)
    | (intro (x : State); refine (fun (hx : Keeps P σ x) => ?_) ?_; (on_goal 1 => clear_value x); (on_goal 2 => dsimp only [x]))
    | (intro x; clear_value x) | lift_lets | with_reducible refine keeps_ite (fun _ => ?_) (fun _ => ?_)
    | with_reducible assumption | with_reducible apply keeps_adoptEdge | with_reducible apply keeps_at
    | with_reducible apply keeps_syncEdge | ((conv in (State.mk ..) => skip); with_reducible apply keeps_upd)
    | (refine UpdOk.mk ?_; intro p; cases p <;> first | (apply Or.inl; apply hp.get; rfl) | exact Or.inr rfl)

theorem keeps_takeResult {P : StatePart → Bool} {σ : State} (s : State) (m : CtlMsg) (t : Nat) (hσ : Keeps P σ s)
    (hp : covers P [.now, .regs, .slots, .beat, .units, .cores, .upd, .tier, .forager, .mods, .ports, .casc, .host, .test] := by exact hp.sub rfl) :
    Keeps P σ (State.takeResult s m t) := by
  unfold State.takeResult
  repeat' first
    | (with_reducible show covers P _; exact hp.sub rfl) | with_reducible refine keeps_ite (fun _ => ?_) (fun _ => ?_)
    | with_reducible assumption | with_reducible apply keeps_at | with_reducible apply keeps_noteResult

theorem keeps_takeAdmit {P : StatePart → Bool} {σ : State} (s : State) (t : Nat) (hσ : Keeps P σ s)
    (hp : covers P [.now, .regs, .casc] := by exact hp.sub rfl) :
    Keeps P σ (State.takeAdmit s t) := by
  unfold State.takeAdmit
  repeat' first
    | (with_reducible show covers P _; exact hp.sub rfl)
    | (intro (x : State); refine (fun (hx : Keeps P σ x) => ?_) ?_; (on_goal 1 => clear_value x); (on_goal 2 => dsimp only [x]))
    | (intro x; clear_value x) | lift_lets | with_reducible refine keeps_ite (fun _ => ?_) (fun _ => ?_)
    | with_reducible assumption | with_reducible apply keeps_at | with_reducible apply keeps_setFld
    | ((conv in (State.mk ..) => skip); with_reducible apply keeps_upd)
    | (refine UpdOk.mk ?_; intro p; cases p <;> first | (apply Or.inl; apply hp.get; rfl) | exact Or.inr rfl)

theorem keeps_sendResume {P : StatePart → Bool} {σ : State} (s : State) (t : Nat) (hσ : Keeps P σ s)
    (hp : covers P [.regs, .ports, .casc] := by exact hp.sub rfl) :
    Keeps P σ (State.sendResume s t) := by
  unfold State.sendResume
  repeat' first
    | (with_reducible show covers P _; exact hp.sub rfl)
    | (intro (x : State); refine (fun (hx : Keeps P σ x) => ?_) ?_; (on_goal 1 => clear_value x); (on_goal 2 => dsimp only [x]))
    | (intro x; clear_value x) | lift_lets | with_reducible assumption | with_reducible apply keeps_spread | split
    | ((conv in (State.mk ..) => skip); with_reducible apply keeps_upd)
    | (refine UpdOk.mk ?_; intro p; cases p <;> first | (apply Or.inl; apply hp.get; rfl) | exact Or.inr rfl)

theorem keeps_takeReady {P : StatePart → Bool} {σ : State} (s : State) (m : CtlMsg) (t : Nat) (hσ : Keeps P σ s)
    (hp : covers P [.now, .regs, .ports, .casc] := by exact hp.sub rfl) :
    Keeps P σ (State.takeReady s m t) := by
  unfold State.takeReady
  repeat' first
    | (with_reducible show covers P _; exact hp.sub rfl)
    | (intro (x : State); refine (fun (hx : Keeps P σ x) => ?_) ?_; (on_goal 1 => clear_value x); (on_goal 2 => dsimp only [x]))
    | (intro x; clear_value x) | lift_lets | with_reducible refine keeps_ite (fun _ => ?_) (fun _ => ?_)
    | with_reducible assumption | with_reducible apply keeps_at | with_reducible apply keeps_sendResume
    | ((conv in (State.mk ..) => skip); with_reducible apply keeps_upd)
    | (refine UpdOk.mk ?_; intro p; cases p <;> first | (apply Or.inl; apply hp.get; rfl) | exact Or.inr rfl)

theorem keeps_clearTouch {P : StatePart → Bool} {σ : State} (s : State) (hσ : Keeps P σ s)
    (hp : covers P [.cores] := by exact hp.sub rfl) :
    Keeps P σ (State.clearTouch s) := by
  unfold State.clearTouch
  repeat' first
    | with_reducible assumption | ((conv in (State.mk ..) => skip); with_reducible apply keeps_upd)
    | (refine UpdOk.mk ?_; intro p; cases p <;> first | (apply Or.inl; apply hp.get; rfl) | exact Or.inr rfl)

theorem keeps_applyResume {P : StatePart → Bool} {σ : State} (t : Nat) (s : State) (hσ : Keeps P σ s)
    (hp : covers P [.now, .regs, .memory, .beat, .units, .cores, .upd, .tier, .forager, .mods, .casc] := by exact hp.sub rfl) :
    Keeps P σ (applyResume t s) := by
  unfold applyResume
  repeat' first
    | (with_reducible show covers P _; exact hp.sub rfl)
    | (intro (x : State); refine (fun (hx : Keeps P σ x) => ?_) ?_; (on_goal 1 => clear_value x); (on_goal 2 => dsimp only [x]))
    | (intro x; clear_value x) | split | lift_lets | with_reducible assumption | with_reducible apply keeps_allBack
    | with_reducible apply keeps_at | with_reducible apply keeps_clearTouch | with_reducible apply keeps_setBit
    | with_reducible apply keeps_startWindow | ((conv in (State.mk ..) => skip); with_reducible apply keeps_upd)
    | (refine UpdOk.mk ?_; intro p; cases p <;> first | (apply Or.inl; apply hp.get; rfl) | exact Or.inr rfl)

theorem keeps_adoptEpoch {P : StatePart → Bool} {σ : State} (s : State) (m : CtlMsg) (inst : Nat) (hσ : Keeps P σ s)
    (hp : covers P [.casc] := by exact hp.sub rfl) :
    Keeps P σ (State.adoptEpoch s m inst) := by
  unfold State.adoptEpoch
  repeat' first
    | (intro (x : State); refine (fun (hx : Keeps P σ x) => ?_) ?_; (on_goal 1 => clear_value x); (on_goal 2 => dsimp only [x]))
    | (intro x; clear_value x) | lift_lets | with_reducible refine keeps_ite (fun _ => ?_) (fun _ => ?_)
    | with_reducible assumption | ((conv in (State.mk ..) => skip); with_reducible apply keeps_upd)
    | (refine UpdOk.mk ?_; intro p; cases p <;> first | (apply Or.inl; apply hp.get; rfl) | exact Or.inr rfl)

theorem keeps_takeMarker {P : StatePart → Bool} {σ : State} (s : State) (m : CtlMsg) (t : Nat) (hσ : Keeps P σ s)
    (hp : covers P [.regs, .slots, .beat, .units, .cores, .upd, .tier, .forager, .mods, .ports, .casc, .host, .test] := by exact hp.sub rfl) :
    Keeps P σ (State.takeMarker s m t) := by
  unfold State.takeMarker
  repeat' first
    | (with_reducible show covers P _; exact hp.sub rfl)
    | (intro (x : State); refine (fun (hx : Keeps P σ x) => ?_) ?_; (on_goal 1 => clear_value x); (on_goal 2 => dsimp only [x]))
    | (intro x; clear_value x) | lift_lets | with_reducible refine keeps_ite (fun _ => ?_) (fun _ => ?_)
    | with_reducible assumption | with_reducible apply keeps_adoptEpoch | with_reducible apply keeps_raise
    | with_reducible apply keeps_setFld | ((conv in (State.mk ..) => skip); with_reducible apply keeps_upd)
    | (refine UpdOk.mk ?_; intro p; cases p <;> first | (apply Or.inl; apply hp.get; rfl) | exact Or.inr rfl)

theorem keeps_takeMessage {P : StatePart → Bool} {σ : State} (s : State) (m : CtlMsg) (t : Nat) (hσ : Keeps P σ s)
    (hp : covers P [.regs, .slots, .beat, .units, .cores, .upd, .tier, .forager, .mods, .ports, .casc, .host, .test] := by exact hp.sub rfl) :
    Keeps P σ (State.takeMessage s m t) := by
  unfold State.takeMessage
  repeat' first
    | (with_reducible show covers P _; exact hp.sub rfl)
    | (intro (x : State); refine (fun (hx : Keeps P σ x) => ?_) ?_; (on_goal 1 => clear_value x); (on_goal 2 => dsimp only [x]))
    | (intro x; clear_value x) | lift_lets | with_reducible refine keeps_ite (fun _ => ?_) (fun _ => ?_)
    | with_reducible assumption | with_reducible apply keeps_adoptEpoch | with_reducible apply keeps_takeMarker
    | with_reducible apply keeps_takeVerdict | ((conv in (State.mk ..) => skip); with_reducible apply keeps_upd)
    | (refine UpdOk.mk ?_; intro p; cases p <;> first | (apply Or.inl; apply hp.get; rfl) | exact Or.inr rfl)

theorem keeps_takeTreeMsg {P : StatePart → Bool} {σ : State} (s : State) (r : Route) (place : Coord) (m : CtlMsg) (residence t : Nat) (hσ : Keeps P σ s)
    (hp : covers P [.now, .regs, .slots, .beat, .units, .cores, .upd, .tier, .forager, .mods, .ports, .casc, .host, .test] := by exact hp.sub rfl) :
    Keeps P σ (State.takeTreeMsg s r place m residence t) := by
  unfold State.takeTreeMsg
  repeat' first
    | (with_reducible show covers P _; exact hp.sub rfl) | (intro x; clear_value x) | lift_lets
    | with_reducible refine keeps_ite (fun _ => ?_) (fun _ => ?_) | with_reducible assumption | with_reducible apply keeps_at
    | with_reducible apply keeps_heed | with_reducible apply keeps_noteLate | with_reducible apply keeps_spreadFrom
    | with_reducible apply keeps_takeMessage | (refine keeps_of_some ?_ (by with_reducible assumption)) | split

theorem keeps_takeUnicast {P : StatePart → Bool} {σ : State} (s : State) (m : CtlMsg) (t : Nat) (hσ : Keeps P σ s)
    (hp : covers P [.now, .regs, .slots, .beat, .units, .cores, .upd, .tier, .forager, .mods, .ports, .casc, .host, .test] := by exact hp.sub rfl) :
    Keeps P σ (State.takeUnicast s m t) := by
  unfold State.takeUnicast
  repeat' first
    | (with_reducible show covers P _; exact hp.sub rfl) | with_reducible assumption | with_reducible apply keeps_takeAdmit
    | with_reducible apply keeps_takeJoin | with_reducible apply keeps_takeReady | with_reducible apply keeps_takeReport
    | with_reducible apply keeps_takeResult | split

end Sys2Proof.Laws
end

