-- ==== Sys2Proof/Laws/KeepsHost.lean ====
section
/-! SUPPORT. Updates, mirrors, memory tiers, host ports and the forager keep the queue, the records sent out, the memory form, the fuses, and every part of the machine that they do not name. -/

namespace Sys2Proof.Laws

-- one theorem after another: hundreds at once run out of threads
set_option Elab.async false

open Sys2Proof Sys2Proof.Machine

/-! ### Update -/

theorem keeps_keepPieces {P : StatePart → Bool} {σ : State} (s : State) (u : UpdCfg) (t : Nat) (hσ : Keeps P σ s)
    (hp : covers P [.upd] := by exact hp.sub rfl) :
    Keeps P σ (State.keepPieces s u t) := by
  unfold State.keepPieces
  repeat' first
    | (intro x; clear_value x) | lift_lets | with_reducible assumption | with_reducible refine keeps_foldl (fun _ _ σ _ => ?_) ?_
    | split | ((conv in (State.mk ..) => skip); with_reducible apply keeps_upd)
    | (refine UpdOk.mk ?_; intro p; cases p <;> first | (apply Or.inl; apply hp.get; rfl) | exact Or.inr rfl)

theorem keeps_applyScheduleSlot {P : StatePart → Bool} {σ : State} (t : Nat) (s : State) (hσ : Keeps P σ s)
    (hp : covers P [.now, .units, .upd] := by exact hp.sub rfl) :
    Keeps P σ (applyScheduleSlot t s) := by
  unfold applyScheduleSlot
  repeat' first
    | (with_reducible show covers P _; exact hp.sub rfl)
    | (intro (x : State); refine (fun (hx : Keeps P σ x) => ?_) ?_; (on_goal 1 => clear_value x); (on_goal 2 => dsimp only [x]))
    | (intro x; clear_value x) | lift_lets | with_reducible assumption | with_reducible apply keeps_at
    | with_reducible apply keeps_endRunOf | with_reducible apply keeps_keepPieces | split
    | ((conv in (State.mk ..) => skip); with_reducible apply keeps_upd)
    | (refine UpdOk.mk ?_; intro p; cases p <;> first | (apply Or.inl; apply hp.get; rfl) | exact Or.inr rfl)

theorem keeps_tget {P : StatePart → Bool} {σ : State} (s : State) (n id off len : Nat) (hσ : Keeps P σ s)
    (hp : covers P [.regs, .slots, .beat, .units, .cores, .upd, .tier, .forager, .mods, .ports, .casc, .host, .test] := by exact hp.sub rfl) :
    Keeps P σ (State.tget s n id off len).2 := by
  unfold State.tget
  repeat' first
    | (with_reducible show covers P _; exact hp.sub rfl) | with_reducible assumption | with_reducible apply keeps_fetch | split

theorem keeps_touchTensor {P : StatePart → Bool} {σ : State} (s : State) (n id off len : Nat) (hσ : Keeps P σ s)
    (hp : covers P [.tier] := by exact hp.sub rfl) :
    Keeps P σ (State.touchTensor s n id off len) := by
  unfold State.touchTensor
  repeat' first
    | (with_reducible show covers P _; exact hp.sub rfl) | with_reducible assumption | with_reducible apply keeps_touchRange
    | split

theorem keeps_touchChunk {P : StatePart → Bool} {σ : State} (s : State) (n : Nat) (h : Shard) (g : Group) (c : Nat) (tags : List TagRef) (hσ : Keeps P σ s)
    (hp : covers P [.tier] := by exact hp.sub rfl) :
    Keeps P σ (State.touchChunk s n h g c tags) := by
  unfold State.touchChunk
  repeat' first
    | (with_reducible show covers P _; exact hp.sub rfl)
    | (intro (x : State); refine (fun (hx : Keeps P σ x) => ?_) ?_; (on_goal 1 => clear_value x); (on_goal 2 => dsimp only [x]))
    | (intro x; clear_value x) | lift_lets | with_reducible refine keeps_ite (fun _ => ?_) (fun _ => ?_)
    | with_reducible assumption | with_reducible apply keeps_touchTensor
    | with_reducible refine keeps_foldl (fun _ _ σ _ => ?_) ?_

theorem keeps_blockMoments {P : StatePart → Bool} {σ : State} (s : State) (n : Nat) (h : Shard) (x : UpdCtx) (p : Piece) (b : Nat) (hσ : Keeps P σ s)
    (hp : covers P [.regs, .slots, .beat, .units, .cores, .upd, .tier, .forager, .mods, .ports, .casc, .host, .test] := by exact hp.sub rfl) :
    Keeps P σ (State.blockMoments s n h x p b).2 := by
  unfold State.blockMoments
  repeat' first
    | (with_reducible show covers P _; exact hp.sub rfl) | (intro x; clear_value x) | lift_lets | with_reducible assumption
    | with_reducible apply keeps_tget | with_reducible refine keeps_snd (by assumption) ?_ | split

theorem keeps_mapState {P : StatePart → Bool} {σ : State} {α β : Type} (f : State → α → β × State) (s : State) (l : List α) (hσ : Keeps P σ s)
    (hf : ∀ (u : State) (a : α) (b : State), Keeps P b u → Keeps P b (f u a).2) : Keeps P σ (mapState f s l).2 := by
  induction l generalizing s with
  | nil => exact hσ
  | cons a as ih => exact ih _ (hf _ _ _ hσ)

theorem keeps_stageM {P : StatePart → Bool} {σ : State} (s : State) (n : Nat) (h : Shard) (x : UpdCtx) (t1 : Nat) (p : Piece) (hσ : Keeps P σ s)
    (hp : covers P [.regs, .slots, .beat, .units, .cores, .upd, .tier, .forager, .mods, .ports, .casc, .host, .test] := by exact hp.sub rfl) :
    Keeps P σ (State.stageM s n h x t1 p).2 := by
  unfold State.stageM
  repeat' first
    | (with_reducible show covers P _; exact hp.sub rfl) | (intro x; clear_value x) | (intro _ _ σ _) | lift_lets
    | with_reducible assumption | with_reducible apply keeps_blockMoments | with_reducible apply keeps_mapState

theorem keeps_blockWeights {P : StatePart → Bool} {σ : State} (s : State) (n : Nat) (h : Shard) (x : UpdCtx) (t1 : Nat) (k : Word × Word) (p : Piece) (b : Nat) (hσ : Keeps P σ s)
    (hp : covers P [.regs, .slots, .beat, .units, .cores, .upd, .tier, .forager, .mods, .ports, .casc, .host, .test] := by exact hp.sub rfl) :
    Keeps P σ (State.blockWeights s n h x t1 k p b).2 := by
  unfold State.blockWeights
  repeat' first
    | (with_reducible show covers P _; exact hp.sub rfl) | (intro x; clear_value x) | lift_lets
    | with_reducible refine keeps_ite (fun _ => ?_) (fun _ => ?_) | with_reducible assumption | with_reducible apply keeps_tget
    | with_reducible apply keeps_touchTensor | with_reducible refine keeps_foldl (fun _ _ σ _ => ?_) ?_ | split

theorem keeps_stageW {P : StatePart → Bool} {σ : State} (s : State) (n : Nat) (h : Shard) (x : UpdCtx) (t1 : Nat) (p : Piece) (hσ : Keeps P σ s)
    (hp : covers P [.regs, .slots, .beat, .units, .cores, .upd, .tier, .forager, .mods, .ports, .casc, .host, .test] := by exact hp.sub rfl) :
    Keeps P σ (State.stageW s n h x t1 p).2 := by
  unfold State.stageW
  repeat' first
    | (with_reducible show covers P _; exact hp.sub rfl) | (intro x; clear_value x) | (intro _ _ σ _) | lift_lets
    | with_reducible assumption | with_reducible apply keeps_blockWeights | with_reducible apply keeps_mapState

theorem keeps_doWrites {P : StatePart → Bool} {σ : State} (s : State) (n : Nat) (ws : Writes) (hσ : Keeps P σ s)
    (hp : covers P [.regs, .memory, .slots, .beat, .units, .cores, .upd, .tier, .forager, .mods, .ports, .casc, .host, .test] := by exact hp.sub rfl) :
    Keeps P σ (State.doWrites s n ws) := by
  unfold State.doWrites
  repeat' first
    | (with_reducible show covers P _; exact hp.sub rfl) | with_reducible assumption | with_reducible apply keeps_store
    | with_reducible refine keeps_foldl (fun _ _ σ _ => ?_) ?_ | split

theorem keeps_sendStage {P : StatePart → Bool} {σ : State} (s : State) (beat kind shard tag t1 : Nat) (h : Shard) (ws : Writes) (hσ : Keeps P σ s)
    (hp : covers P [.regs, .ports, .casc] := by exact hp.sub rfl) :
    Keeps P σ (State.sendStage s beat kind shard tag t1 h ws) := by
  unfold State.sendStage
  repeat' first
    | (with_reducible show covers P _; exact hp.sub rfl) | with_reducible refine keeps_ite (fun _ => ?_) (fun _ => ?_)
    | with_reducible assumption | with_reducible apply keeps_sendMirror

theorem keeps_askShard {P : StatePart → Bool} {σ : State} (s : State) (i : Nat) (h : Shard) (hσ : Keeps P σ s)
    (hp : covers P [.regs, .upd, .ports, .casc] := by exact hp.sub rfl) :
    Keeps P σ (State.askShard s i h) := by
  unfold State.askShard
  repeat' first
    | (with_reducible show covers P _; exact hp.sub rfl)
    | (intro (x : State); refine (fun (hx : Keeps P σ x) => ?_) ?_; (on_goal 1 => clear_value x); (on_goal 2 => dsimp only [x]))
    | (intro x; clear_value x) | lift_lets | with_reducible assumption | with_reducible apply keeps_askTwin
    | with_reducible refine keeps_foldl (fun _ _ σ _ => ?_) ?_ | ((conv in (State.mk ..) => skip); with_reducible apply keeps_upd)
    | (refine UpdOk.mk ?_; intro p; cases p <;> first | (apply Or.inl; apply hp.get; rfl) | exact Or.inr rfl)

theorem keeps_hardCap {P : StatePart → Bool} {σ : State} (s : State) (r : RunSlot) (n i : Nat) (h : Shard) (lazy : Bool) (x : TagRef) (hσ : Keeps P σ s)
    (hp : covers P [.regs, .slots, .beat, .units, .cores, .upd, .tier, .forager, .mods, .ports, .casc, .host, .test] := by exact hp.sub rfl) :
    Keeps P σ (State.hardCap s r n i h lazy x) := by
  unfold State.hardCap
  repeat' first
    | (with_reducible show covers P _; exact hp.sub rfl)
    | (intro (x : State); refine (fun (hx : Keeps P σ x) => ?_) ?_; (on_goal 1 => clear_value x); (on_goal 2 => dsimp only [x]))
    | (intro x; clear_value x) | lift_lets | with_reducible refine keeps_ite (fun _ => ?_) (fun _ => ?_)
    | with_reducible assumption | with_reducible apply keeps_askShard | with_reducible apply keeps_raise
    | with_reducible apply keeps_setBit | with_reducible apply keeps_setReg | with_reducible apply keeps_stopEngine
    | with_reducible apply keeps_updCode

theorem keeps_countTiles {P : StatePart → Bool} {σ : State} (s : State) (c : ErrCtx) (n group : Nat) (tiles : List Nat) (hσ : Keeps P σ s)
    (hp : covers P [.regs, .slots, .beat, .units, .cores, .upd, .tier, .forager, .mods, .ports, .casc, .host, .test] := by exact hp.sub rfl) :
    Keeps P σ (State.countTiles s c n group tiles) := by
  unfold State.countTiles
  repeat' first
    | (with_reducible show covers P _; exact hp.sub rfl)
    | (intro (x : State); refine (fun (hx : Keeps P σ x) => ?_) ?_; (on_goal 1 => clear_value x); (on_goal 2 => dsimp only [x]))
    | (intro x; clear_value x) | lift_lets | with_reducible refine keeps_ite (fun _ => ?_) (fun _ => ?_)
    | with_reducible assumption | with_reducible apply keeps_bumpSat | with_reducible apply keeps_raiseStep
    | with_reducible apply keeps_updCode | ((conv in (State.mk ..) => skip); with_reducible apply keeps_upd)
    | (refine UpdOk.mk ?_; intro p; cases p <;> first | (apply Or.inl; apply hp.get; rfl) | exact Or.inr rfl)

theorem keeps_weightPass {P : StatePart → Bool} {σ : State} (s : State) (c : ErrCtx) (r : RunSlot) (n i : Nat) (h : Shard) (x : UpdCtx) (t1 : Nat) (ps : List Piece) (hσ : Keeps P σ s)
    (hp : covers P [.regs, .memory, .slots, .beat, .units, .cores, .watch, .upd, .tier, .forager, .mods, .ports, .casc, .host, .test] := by exact hp.sub rfl) :
    Keeps P σ (State.weightPass s c r n i h x t1 ps) := by
  unfold State.weightPass
  repeat' first
    | (with_reducible show covers P _; exact hp.sub rfl) | (intro _ _ σ _) | lift_lets
    | with_reducible refine keeps_ite (fun _ => ?_) (fun _ => ?_) | with_reducible assumption
    | with_reducible apply keeps_bumpPair | with_reducible apply keeps_bumpSat | with_reducible apply keeps_countTiles
    | with_reducible apply keeps_doWrites | with_reducible apply keeps_feed | with_reducible apply keeps_mapState
    | with_reducible apply keeps_raise | with_reducible apply keeps_sendStage | with_reducible apply keeps_stageW
    | with_reducible apply keeps_updCode | with_reducible refine keeps_foldl (fun _ _ σ _ => ?_) ?_

theorem keeps_momentPass {P : StatePart → Bool} {σ : State} (s : State) (r : RunSlot) (n i : Nat) (h : Shard) (x : UpdCtx) (t1 : Nat) (ps : List Piece) (hσ : Keeps P σ s)
    (hp : covers P [.regs, .memory, .slots, .beat, .units, .cores, .upd, .tier, .forager, .mods, .ports, .casc, .host, .test] := by exact hp.sub rfl) :
    Keeps P σ (State.momentPass s r n i h x t1 ps) := by
  unfold State.momentPass
  repeat' first
    | (with_reducible show covers P _; exact hp.sub rfl) | (intro _ _ σ _) | lift_lets | with_reducible assumption
    | with_reducible apply keeps_doWrites | with_reducible apply keeps_mapState | with_reducible apply keeps_sendStage
    | with_reducible apply keeps_stageM | with_reducible refine keeps_foldl (fun _ _ σ _ => ?_) ?_

theorem keeps_runChunks {P : StatePart → Bool} {σ : State} (s : State) (u : UnitId) (r : RunSlot) (i : Nat) (h : Shard) (x : UpdCtx) (first : Nat) (p0 : List Nat) (hσ : Keeps P σ s)
    (hp : covers P [.regs, .memory, .slots, .beat, .units, .cores, .watch, .upd, .tier, .forager, .mods, .ports, .casc, .host, .test] := by exact hp.sub rfl) :
    Keeps P σ (State.runChunks s u r i h x first p0) := by
  induction p0 generalizing s with
  | nil => exact keeps_endRunOf _ _ _ hσ
  | cons j js ih =>
    unfold State.runChunks
    dsimp only
    generalize s.chunkTags h x.g (first + j) = tags
    have h1 := keeps_touchChunk s u.idx h x.g (first + j) tags hσ
    generalize s.touchChunk u.idx h x.g (first + j) tags = v at h1 ⊢
    split
    · exact keeps_hardCap _ _ _ _ _ _ _ h1
    · refine keeps_ite (fun _ => ih _ ?_) (fun _ => ?_)
      · exact keeps_ite (fun _ => h1) (fun _ => keeps_weightPass _ _ _ _ _ _ _ _ _ h1)
      · exact keeps_setRun _ _ _ (keeps_upd (keeps_momentPass _ _ _ _ _ _ _ _ h1))

theorem keeps_goOn {P : StatePart → Bool} {σ : State} (s : State) (u : UnitId) (r : RunSlot) (hσ : Keeps P σ s)
    (hp : covers P [.regs, .memory, .slots, .beat, .units, .cores, .watch, .upd, .tier, .forager, .mods, .ports, .casc, .host, .test] := by exact hp.sub rfl) :
    Keeps P σ (State.goOn s u r) := by
  unfold State.goOn
  repeat' first
    | (with_reducible show covers P _; exact hp.sub rfl) | (intro x; clear_value x) | lift_lets | with_reducible assumption
    | with_reducible apply keeps_endRunOf | with_reducible apply keeps_runChunks | split

theorem keeps_countSkips {P : StatePart → Bool} {σ : State} (s : State) (c : ErrCtx) (n i : Nat) (h : Shard) (g : Group) (hσ : Keeps P σ s)
    (hp : covers P [.regs, .slots, .beat, .units, .cores, .upd, .tier, .forager, .mods, .ports, .casc, .host, .test] := by exact hp.sub rfl) :
    Keeps P σ (State.countSkips s c n i h g) := by
  unfold State.countSkips
  repeat' first
    | (with_reducible show covers P _; exact hp.sub rfl)
    | (intro (x : State); refine (fun (hx : Keeps P σ x) => ?_) ?_; (on_goal 1 => clear_value x); (on_goal 2 => dsimp only [x]))
    | (intro x; clear_value x) | lift_lets | with_reducible refine keeps_ite (fun _ => ?_) (fun _ => ?_)
    | with_reducible assumption | with_reducible apply keeps_bumpSat | with_reducible apply keeps_raiseStep
    | with_reducible apply keeps_updCode | ((conv in (State.mk ..) => skip); with_reducible apply keeps_upd)
    | (refine UpdOk.mk ?_; intro p; cases p <;> first | (apply Or.inl; apply hp.get; rfl) | exact Or.inr rfl)

theorem keeps_engineErrors {P : StatePart → Bool} {σ : State} (s : State) (c : ErrCtx) (r : RunSlot) (n : Nat) (errs : List HwErr) (hσ : Keeps P σ s)
    (hp : covers P [.regs, .slots, .beat, .units, .cores, .upd, .tier, .forager, .mods, .ports, .casc, .host, .test] := by exact hp.sub rfl) :
    Keeps P σ (State.engineErrors s c r n errs) := by
  unfold State.engineErrors
  repeat' first
    | (with_reducible show covers P _; exact hp.sub rfl)
    | (intro (x : State); refine (fun (hx : Keeps P σ x) => ?_) ?_; (on_goal 1 => clear_value x); (on_goal 2 => dsimp only [x]))
    | (intro x; clear_value x) | lift_lets | with_reducible refine keeps_ite (fun _ => ?_) (fun _ => ?_)
    | with_reducible assumption | with_reducible apply keeps_hwErrors | with_reducible apply keeps_stopEngine

theorem keeps_applyUpdateOp {P : StatePart → Bool} {σ : State} (n t : Nat) (errs : List HwErr) (s : State) (hσ : Keeps P σ s)
    (hp : covers P [.now, .regs, .memory, .slots, .beat, .units, .cores, .watch, .upd, .tier, .forager, .mods, .ports, .casc, .host, .test] := by exact hp.sub rfl) :
    Keeps P σ (applyUpdateOp n t errs s) := by
  unfold applyUpdateOp
  repeat' first
    | (with_reducible show covers P _; exact hp.sub rfl)
    | (intro (x : State); refine (fun (hx : Keeps P σ x) => ?_) ?_; (on_goal 1 => clear_value x); (on_goal 2 => dsimp only [x]))
    | (intro x; clear_value x) | lift_lets | with_reducible refine keeps_ite (fun _ => ?_) (fun _ => ?_)
    | with_reducible assumption | with_reducible apply keeps_at | with_reducible apply keeps_countSkips
    | with_reducible apply keeps_endRunOf | with_reducible apply keeps_engineErrors | with_reducible apply keeps_goOn
    | with_reducible apply keeps_setFld | split

theorem keeps_afterAck {P : StatePart → Bool} {σ : State} (s : State) (u : UnitId) (r : RunSlot) (y : Staged) (errs : List HwErr) (hσ : Keeps P σ s)
    (hp : covers P [.regs, .memory, .slots, .beat, .units, .cores, .watch, .upd, .tier, .forager, .mods, .ports, .casc, .host, .test] := by exact hp.sub rfl) :
    Keeps P σ (State.afterAck s u r y errs) := by
  unfold State.afterAck
  repeat' first
    | (with_reducible show covers P _; exact hp.sub rfl)
    | (intro (x : State); refine (fun (hx : Keeps P σ x) => ?_) ?_; (on_goal 1 => clear_value x); (on_goal 2 => dsimp only [x]))
    | (intro x; clear_value x) | lift_lets | with_reducible assumption | with_reducible apply keeps_engineErrors
    | with_reducible apply keeps_goOn | with_reducible apply keeps_weightPass | split
    | ((conv in (State.mk ..) => skip); with_reducible apply keeps_upd)
    | (refine UpdOk.mk ?_; intro p; cases p <;> first | (apply Or.inl; apply hp.get; rfl) | exact Or.inr rfl)

theorem keeps_applyStageMAck {P : StatePart → Bool} {σ : State} (n : Nat) (fromTwin : Bool) (errs : List HwErr) (s : State) (hσ : Keeps P σ s)
    (hp : covers P [.regs, .memory, .slots, .beat, .units, .cores, .watch, .upd, .tier, .forager, .mods, .ports, .casc, .host, .test] := by exact hp.sub rfl) :
    Keeps P σ (applyStageMAck n fromTwin errs s) := by
  unfold applyStageMAck
  repeat' first
    | (with_reducible show covers P _; exact hp.sub rfl) | (intro x; clear_value x) | lift_lets
    | with_reducible refine keeps_ite (fun _ => ?_) (fun _ => ?_) | with_reducible assumption
    | with_reducible apply keeps_afterAck | with_reducible apply keeps_engineErrors | split
    | ((conv in (State.mk ..) => skip); with_reducible apply keeps_upd)
    | (refine UpdOk.mk ?_; intro p; cases p <;> first | (apply Or.inl; apply hp.get; rfl) | exact Or.inr rfl)

/-! ### Mirror -/

theorem keeps_sendCopy {P : StatePart → Bool} {σ : State} (s : State) (lost : Bool) (t : Tensor) (off len : Nat) (hσ : Keeps P σ s)
    (hp : covers P [.regs, .ports, .casc] := by exact hp.sub rfl) :
    Keeps P σ (State.sendCopy s lost t off len) := by
  unfold State.sendCopy
  repeat' first
    | (with_reducible show covers P _; exact hp.sub rfl) | (intro x; clear_value x) | lift_lets | with_reducible assumption
    | with_reducible apply keeps_sendMirror | with_reducible refine keeps_foldl (fun _ _ σ _ => ?_) ?_

theorem keeps_holdUpdates {P : StatePart → Bool} {σ : State} (s : State) (hσ : Keeps P σ s)
    (hp : covers P [.upd] := by exact hp.sub rfl) :
    Keeps P σ (State.holdUpdates s) := by
  unfold State.holdUpdates
  repeat' first
    | with_reducible assumption | ((conv in (State.mk ..) => skip); with_reducible apply keeps_upd)
    | (refine UpdOk.mk ?_; intro p; cases p <;> first | (apply Or.inl; apply hp.get; rfl) | exact Or.inr rfl)

theorem keeps_takeRequest {P : StatePart → Bool} {σ : State} (s : State) (tensor : Nat) (off : Option Nat) (hσ : Keeps P σ s)
    (hp : covers P [.regs, .upd, .ports, .casc] := by exact hp.sub rfl) :
    Keeps P σ (State.takeRequest s tensor off) := by
  unfold State.takeRequest
  repeat' first
    | (with_reducible show covers P _; exact hp.sub rfl) | (intro x; clear_value x) | lift_lets
    | with_reducible refine keeps_ite (fun _ => ?_) (fun _ => ?_) | with_reducible assumption
    | with_reducible apply keeps_holdUpdates | with_reducible apply keeps_sendCopy
    | with_reducible refine keeps_foldl (fun _ _ σ _ => ?_) ?_ | split

theorem keeps_startSpare {P : StatePart → Bool} {σ : State} (s : State) (hσ : Keeps P σ s)
    (hp : covers P [.regs, .ports, .casc] := by exact hp.sub rfl) :
    Keeps P σ (State.startSpare s) := by
  unfold State.startSpare
  repeat' first
    | (with_reducible show covers P _; exact hp.sub rfl)
    | (intro (x : State); refine (fun (hx : Keeps P σ x) => ?_) ?_; (on_goal 1 => clear_value x); (on_goal 2 => dsimp only [x]))
    | (intro x; clear_value x) | lift_lets | with_reducible refine keeps_ite (fun _ => ?_) (fun _ => ?_)
    | with_reducible assumption | with_reducible apply keeps_sendCopy | with_reducible refine keeps_foldl (fun _ _ σ _ => ?_) ?_
    | split | ((conv in (State.mk ..) => skip); with_reducible apply keeps_upd)
    | (refine UpdOk.mk ?_; intro p; cases p <;> first | (apply Or.inl; apply hp.get; rfl) | exact Or.inr rfl)

theorem keeps_countFrame {P : StatePart → Bool} {σ : State} (s : State) (f : MirrorFrame) (hσ : Keeps P σ s)
    (hp : covers P [.casc] := by exact hp.sub rfl) :
    Keeps P σ (State.countFrame s f) := by
  unfold State.countFrame
  repeat' first
    | with_reducible assumption | ((conv in (State.mk ..) => skip); with_reducible apply keeps_upd)
    | (refine UpdOk.mk ?_; intro p; cases p <;> first | (apply Or.inl; apply hp.get; rfl) | exact Or.inr rfl)

theorem keeps_mirrorPut {P : StatePart → Bool} {σ : State} (s : State) (id off : Nat) (data : Bytes) (hσ : Keeps P σ s)
    (hp : covers P [.regs, .memory, .slots, .beat, .units, .cores, .upd, .tier, .forager, .mods, .ports, .casc, .host, .test] := by exact hp.sub rfl) :
    Keeps P σ (State.mirrorPut s id off data) := by
  unfold State.mirrorPut
  repeat' first
    | (with_reducible show covers P _; exact hp.sub rfl) | with_reducible refine keeps_ite (fun _ => ?_) (fun _ => ?_)
    | with_reducible assumption | with_reducible apply keeps_store | split

theorem keeps_stageFrame {P : StatePart → Bool} {σ : State} (s : State) (weights : Bool) (f : MirrorFrame) (hσ : Keeps P σ s)
    (hp : covers P [.regs, .memory, .slots, .beat, .units, .cores, .upd, .tier, .forager, .mods, .ports, .casc, .host, .test] := by exact hp.sub rfl) :
    Keeps P σ (State.stageFrame s weights f) := by
  unfold State.stageFrame
  dsimp only
  split
  · exact hσ
  · refine keeps_ite (fun _ => keeps_foldl (fun _ _ _ hb => keeps_mirrorPut _ _ _ _ hb) hσ) (fun _ => ?_)
    exact keeps_ite (fun _ => keeps_raise _ _ hσ) (fun _ => keeps_raise _ _ (keeps_upd hσ))

theorem keeps_takeFence {P : StatePart → Bool} {σ : State} (s : State) (f : MirrorFrame) (hσ : Keeps P σ s)
    (hp : covers P [.casc] := by exact hp.sub rfl) :
    Keeps P σ (State.takeFence s f) := by
  unfold State.takeFence
  repeat' first
    | (intro x; clear_value x) | lift_lets | with_reducible assumption
    | ((conv in (State.mk ..) => skip); with_reducible apply keeps_upd)
    | (refine UpdOk.mk ?_; intro p; cases p <;> first | (apply Or.inl; apply hp.get; rfl) | exact Or.inr rfl)

theorem keeps_noteCopied {P : StatePart → Bool} {σ : State} (s : State) (id off len : Nat) (hσ : Keeps P σ s)
    (hp : covers P [.casc] := by exact hp.sub rfl) :
    Keeps P σ (State.noteCopied s id off len) := by
  unfold State.noteCopied
  repeat' first
    | (intro x; clear_value x) | lift_lets | with_reducible refine keeps_ite (fun _ => ?_) (fun _ => ?_)
    | with_reducible assumption | ((conv in (State.mk ..) => skip); with_reducible apply keeps_upd)
    | (refine UpdOk.mk ?_; intro p; cases p <;> first | (apply Or.inl; apply hp.get; rfl) | exact Or.inr rfl)

theorem keeps_noteRestored {P : StatePart → Bool} {σ : State} (s : State) (id len : Nat) (hσ : Keeps P σ s)
    (hp : covers P [.upd] := by exact hp.sub rfl) :
    Keeps P σ (State.noteRestored s id len) := by
  unfold State.noteRestored
  repeat' first
    | with_reducible assumption | ((conv in (State.mk ..) => skip); with_reducible apply keeps_upd)
    | (refine UpdOk.mk ?_; intro p; cases p <;> first | (apply Or.inl; apply hp.get; rfl) | exact Or.inr rfl)

theorem keeps_takeCopy {P : StatePart → Bool} {σ : State} (s : State) (f : MirrorFrame) (hσ : Keeps P σ s)
    (hp : covers P [.regs, .memory, .slots, .beat, .units, .cores, .upd, .tier, .forager, .mods, .ports, .casc, .host, .test] := by exact hp.sub rfl) :
    Keeps P σ (State.takeCopy s f) := by
  unfold State.takeCopy
  repeat' first
    | (with_reducible show covers P _; exact hp.sub rfl)
    | (intro (x : State); refine (fun (hx : Keeps P σ x) => ?_) ?_; (on_goal 1 => clear_value x); (on_goal 2 => dsimp only [x]))
    | lift_lets | with_reducible assumption | with_reducible apply keeps_mirrorPut | with_reducible apply keeps_noteCopied
    | with_reducible apply keeps_noteRestored | with_reducible apply keeps_tryReady

theorem keeps_takeMirror {P : StatePart → Bool} {σ : State} (s : State) (f : MirrorFrame) (hσ : Keeps P σ s)
    (hp : covers P [.regs, .memory, .slots, .beat, .units, .cores, .upd, .tier, .forager, .mods, .ports, .casc, .host, .test] := by exact hp.sub rfl) :
    Keeps P σ (State.takeMirror s f) := by
  unfold State.takeMirror
  repeat' first
    | (with_reducible show covers P _; exact hp.sub rfl) | with_reducible assumption | with_reducible apply keeps_countFrame
    | with_reducible apply keeps_mirrorPut | with_reducible apply keeps_stageFrame | with_reducible apply keeps_takeCopy
    | with_reducible apply keeps_takeFence | split

/-! ### FieldTest -/

theorem keeps_applyCoverDue {P : StatePart → Bool} {σ : State} (die : Nat) (s : State) (hσ : Keeps P σ s)
    (hp : covers P [.test] := by exact hp.sub rfl) :
    Keeps P σ (applyCoverDue die s) := by
  unfold applyCoverDue
  repeat' first
    | with_reducible refine keeps_ite (fun _ => ?_) (fun _ => ?_) | with_reducible assumption
    | ((conv in (State.mk ..) => skip); with_reducible apply keeps_upd)
    | (refine UpdOk.mk ?_; intro p; cases p <;> first | (apply Or.inl; apply hp.get; rfl) | exact Or.inr rfl)

theorem keeps_noteArrays {P : StatePart → Bool} {σ : State} (s : State) (p : Nat) (arrays : List Nat) (hσ : Keeps P σ s)
    (hp : covers P [.regs] := by exact hp.sub rfl) :
    Keeps P σ (State.noteArrays s p arrays) := by
  unfold State.noteArrays
  repeat' first
    | (with_reducible show covers P _; exact hp.sub rfl) | with_reducible refine keeps_ite (fun _ => ?_) (fun _ => ?_)
    | with_reducible assumption | with_reducible apply keeps_setBit | with_reducible refine keeps_foldl (fun _ _ σ _ => ?_) ?_

theorem keeps_applyCoreSelfTestDone {P : StatePart → Bool} {σ : State} (p : Nat) (pass : Bool) (arrays : List Nat) (s : State) (hσ : Keeps P σ s)
    (hp : covers P [.regs, .slots, .beat, .units, .cores, .upd, .tier, .forager, .mods, .ports, .casc, .host, .test] := by exact hp.sub rfl) :
    Keeps P σ (applyCoreSelfTestDone p pass arrays s) := by
  unfold applyCoreSelfTestDone
  repeat' first
    | (with_reducible show covers P _; exact hp.sub rfl)
    | (intro (x : State); refine (fun (hx : Keeps P σ x) => ?_) ?_; (on_goal 1 => clear_value x); (on_goal 2 => dsimp only [x]))
    | (intro x; clear_value x) | lift_lets | with_reducible refine keeps_ite (fun _ => ?_) (fun _ => ?_)
    | with_reducible assumption | with_reducible apply keeps_bumpWrap | with_reducible apply keeps_endCovers
    | with_reducible apply keeps_fenceLater | with_reducible apply keeps_logEntry | with_reducible apply keeps_noteArrays
    | with_reducible apply keeps_setFld | with_reducible apply keeps_updatePresence
    | ((conv in (State.mk ..) => skip); with_reducible apply keeps_upd)
    | (refine UpdOk.mk ?_; intro p; cases p <;> first | (apply Or.inl; apply hp.get; rfl) | exact Or.inr rfl)

theorem keeps_applyUpdSelftestDone {P : StatePart → Bool} {σ : State} (n : Nat) (pass : Bool) (s : State) (hσ : Keeps P σ s)
    (hp : covers P [.regs, .slots, .beat, .units, .cores, .upd, .tier, .forager, .mods, .ports, .casc, .host, .test] := by exact hp.sub rfl) :
    Keeps P σ (applyUpdSelftestDone n pass s) := by
  unfold applyUpdSelftestDone
  repeat' first
    | (with_reducible show covers P _; exact hp.sub rfl)
    | (intro (x : State); refine (fun (hx : Keeps P σ x) => ?_) ?_; (on_goal 1 => clear_value x); (on_goal 2 => dsimp only [x]))
    | (intro x; clear_value x) | lift_lets | with_reducible refine keeps_ite (fun _ => ?_) (fun _ => ?_)
    | with_reducible assumption | with_reducible apply keeps_fenceLater | with_reducible apply keeps_setBit
    | ((conv in (State.mk ..) => skip); with_reducible apply keeps_upd)
    | (refine UpdOk.mk ?_; intro p; cases p <;> first | (apply Or.inl; apply hp.get; rfl) | exact Or.inr rfl)

/-! ### Tiers -/

theorem keeps_movePart {P : StatePart → Bool} {σ : State} (s : State) (u : UnitId) (r : RunSlot) (o : MoverOp) (hσ : Keeps P σ s)
    (hp : covers P [.regs, .units, .tier] := by exact hp.sub rfl) :
    Keeps P σ (State.movePart s u r o) := by
  unfold State.movePart
  repeat' first
    | (with_reducible show covers P _; exact hp.sub rfl)
    | (intro (x : State); refine (fun (hx : Keeps P σ x) => ?_) ?_; (on_goal 1 => clear_value x); (on_goal 2 => dsimp only [x]))
    | (intro x; clear_value x) | lift_lets | with_reducible assumption | with_reducible apply keeps_endRunOf
    | with_reducible apply keeps_showMoves | ((conv in (State.mk ..) => skip); with_reducible apply keeps_upd)
    | (refine UpdOk.mk ?_; intro p; cases p <;> first | (apply Or.inl; apply hp.get; rfl) | exact Or.inr rfl)

theorem keeps_moveWrite {P : StatePart → Bool} {σ : State} (s : State) (u : UnitId) (r : RunSlot) (m : Nat) (o : MoverOp) (data : Bytes) (hσ : Keeps P σ s)
    (hp : covers P [.regs, .memory, .slots, .beat, .units, .cores, .upd, .tier, .forager, .mods, .ports, .casc, .host, .test] := by exact hp.sub rfl) :
    Keeps P σ (State.moveWrite s u r m o data) := by
  unfold State.moveWrite
  repeat' first
    | (with_reducible show covers P _; exact hp.sub rfl) | (intro x; clear_value x) | lift_lets
    | with_reducible refine keeps_ite (fun _ => ?_) (fun _ => ?_) | with_reducible assumption
    | with_reducible apply keeps_movePart | with_reducible apply keeps_raise | with_reducible apply keeps_setRun
    | with_reducible apply keeps_store | with_reducible apply keeps_superPut

theorem keeps_moverRead {P : StatePart → Bool} {σ : State} (s : State) (u : UnitId) (r : RunSlot) (m a n : Nat) (fill : Bool) (tensor : Nat) (superData : Option Bytes) (hσ : Keeps P σ s)
    (hp : covers P [.regs, .slots, .beat, .units, .cores, .upd, .tier, .forager, .mods, .ports, .casc, .host, .test] := by exact hp.sub rfl) :
    Keeps P σ (State.moverRead s u r m a n fill tensor superData).2 := by
  unfold State.moverRead
  repeat' first
    | (with_reducible show covers P _; exact hp.sub rfl)
    | (intro (x : State); refine (fun (hx : Keeps P σ x) => ?_) ?_; (on_goal 1 => clear_value x); (on_goal 2 => dsimp only [x]))
    | (intro (x : _ × State); refine (fun (hx : Keeps P σ x.2) => ?_) ?_; (on_goal 1 => clear_value x); (on_goal 2 => dsimp only [x]))
    | lift_lets | with_reducible refine keeps_ite (fun _ => ?_) (fun _ => ?_) | with_reducible assumption
    | with_reducible apply keeps_dropAsks | with_reducible apply keeps_endRunOf | with_reducible apply keeps_fetch
    | with_reducible apply keeps_raise | with_reducible apply keeps_setRun | with_reducible apply keeps_superAsk | split

theorem keeps_beginMove {P : StatePart → Bool} {σ : State} (s : State) (o : MoverOp) (t : Tensor) (beat : Nat) (hσ : Keeps P σ s)
    (hp : covers P [.regs, .tier] := by exact hp.sub rfl) :
    Keeps P σ (State.beginMove s o t beat) := by
  unfold State.beginMove
  repeat' first
    | (with_reducible show covers P _; exact hp.sub rfl) | (intro x; clear_value x) | lift_lets
    | with_reducible refine keeps_ite (fun _ => ?_) (fun _ => ?_) | with_reducible assumption
    | with_reducible apply keeps_showMoves | ((conv in (State.mk ..) => skip); with_reducible apply keeps_upd)
    | (refine UpdOk.mk ?_; intro p; cases p <;> first | (apply Or.inl; apply hp.get; rfl) | exact Or.inr rfl)

theorem keeps_applyMove {P : StatePart → Bool} {σ : State} (m : Nat) (superData : Option Bytes) (s : State) (hσ : Keeps P σ s)
    (hp : covers P [.regs, .memory, .slots, .beat, .units, .cores, .upd, .tier, .forager, .mods, .ports, .casc, .host, .test] := by exact hp.sub rfl) :
    Keeps P σ (applyMove m superData s) := by
  unfold applyMove
  repeat' first
    | (with_reducible show covers P _; exact hp.sub rfl)
    | (intro (x : State); refine (fun (hx : Keeps P σ x) => ?_) ?_; (on_goal 1 => clear_value x); (on_goal 2 => dsimp only [x]))
    | (intro (x : _ × State); refine (fun (hx : Keeps P σ x.2) => ?_) ?_; (on_goal 1 => clear_value x); (on_goal 2 => dsimp only [x]))
    | (intro x; clear_value x) | lift_lets | with_reducible refine keeps_ite (fun _ => ?_) (fun _ => ?_)
    | with_reducible assumption | with_reducible apply keeps_beginMove | with_reducible apply keeps_dropAsks
    | with_reducible apply keeps_endRunOf | with_reducible apply keeps_movePart | with_reducible apply keeps_moveWrite
    | with_reducible apply keeps_moverRead | with_reducible apply keeps_raise | split

theorem keeps_addCopy {P : StatePart → Bool} {σ : State} (s : State) (stream buffer layer : Nat) (exp : Option (UnitId × Nat × Nat)) (beat : Nat) (hσ : Keeps P σ s)
    (hp : covers P [.tier] := by exact hp.sub rfl) :
    Keeps P σ (State.addCopy s stream buffer layer exp beat) := by
  unfold State.addCopy
  repeat' first
    | with_reducible assumption | ((conv in (State.mk ..) => skip); with_reducible apply keeps_upd)
    | (refine UpdOk.mk ?_; intro p; cases p <;> first | (apply Or.inl; apply hp.get; rfl) | exact Or.inr rfl)

theorem keeps_applyFetch {P : StatePart → Bool} {σ : State} (m : Nat) (superData : Option Bytes) (s : State) (hσ : Keeps P σ s)
    (hp : covers P [.regs, .memory, .slots, .beat, .units, .cores, .upd, .tier, .forager, .mods, .ports, .casc, .host, .test] := by exact hp.sub rfl) :
    Keeps P σ (applyFetch m superData s) := by
  unfold applyFetch
  repeat' first
    | (with_reducible show covers P _; exact hp.sub rfl)
    | (intro (x : State); refine (fun (hx : Keeps P σ x) => ?_) ?_; (on_goal 1 => clear_value x); (on_goal 2 => dsimp only [x]))
    | (intro (x : _ × State); refine (fun (hx : Keeps P σ x.2) => ?_) ?_; (on_goal 1 => clear_value x); (on_goal 2 => dsimp only [x]))
    | (intro x; clear_value x) | lift_lets | with_reducible refine keeps_ite (fun _ => ?_) (fun _ => ?_)
    | with_reducible assumption | with_reducible apply keeps_addCopy | with_reducible apply keeps_endRunOf
    | with_reducible apply keeps_moverRead | with_reducible apply keeps_raise | with_reducible apply keeps_store | split

theorem keeps_retryWait {P : StatePart → Bool} {σ : State} (s : State) (w : HoldWait) (hσ : Keeps P σ s)
    (hp : covers P [.regs, .memory, .slots, .beat, .units, .cores, .upd, .tier, .forager, .mods, .ports, .casc, .host, .test] := by exact hp.sub rfl) :
    Keeps P σ (State.retryWait s w) := by
  unfold State.retryWait
  repeat' first
    | (with_reducible show covers P _; exact hp.sub rfl)
    | (intro (x : State); refine (fun (hx : Keeps P σ x) => ?_) ?_; (on_goal 1 => clear_value x); (on_goal 2 => dsimp only [x]))
    | (intro x; refine (fun (hf : ∀ (u : State) (b : State), Keeps P b u → Keeps P b (x u)) => ?_) ?_; (on_goal 1 => clear_value x); (on_goal 2 => (intro _ _ _; dsimp only [x])))
    | (intro x; clear_value x) | lift_lets | with_reducible refine keeps_ite (fun _ => ?_) (fun _ => ?_)
    | with_reducible assumption | with_reducible apply hf | with_reducible apply keeps_allocHold | with_reducible apply keeps_owe
    | with_reducible apply keeps_storeIn | split | ((conv in (State.mk ..) => skip); with_reducible apply keeps_upd)
    | (refine UpdOk.mk ?_; intro p; cases p <;> first | (apply Or.inl; apply hp.get; rfl) | exact Or.inr rfl)

theorem keeps_applyHoldSpaceFreed {P : StatePart → Bool} {σ : State} (pile : Nat) (s : State) (hσ : Keeps P σ s)
    (hp : covers P [.regs, .memory, .slots, .beat, .units, .cores, .upd, .tier, .forager, .mods, .ports, .casc, .host, .test] := by exact hp.sub rfl) :
    Keeps P σ (applyHoldSpaceFreed pile s) := by
  unfold applyHoldSpaceFreed
  repeat' first
    | (with_reducible show covers P _; exact hp.sub rfl)
    | (intro (x : State); refine (fun (hx : Keeps P σ x) => ?_) ?_; (on_goal 1 => clear_value x); (on_goal 2 => dsimp only [x]))
    | (intro x; clear_value x) | lift_lets | with_reducible assumption | with_reducible apply keeps_retryWait
    | with_reducible refine keeps_foldl (fun _ _ σ _ => ?_) ?_ | ((conv in (State.mk ..) => skip); with_reducible apply keeps_upd)
    | (refine UpdOk.mk ?_; intro p; cases p <;> first | (apply Or.inl; apply hp.get; rfl) | exact Or.inr rfl)

theorem keeps_applyHomingComplete {P : StatePart → Bool} {σ : State} (tensor : Nat) (data : Bytes) (s : State) (hσ : Keeps P σ s)
    (hp : covers P [.regs, .memory, .slots, .beat, .units, .cores, .upd, .tier, .forager, .mods, .ports, .casc, .host, .test] := by exact hp.sub rfl) :
    Keeps P σ (applyHomingComplete tensor data s) := by
  unfold applyHomingComplete
  repeat' first
    | (with_reducible show covers P _; exact hp.sub rfl)
    | (intro (x : State); refine (fun (hx : Keeps P σ x) => ?_) ?_; (on_goal 1 => clear_value x); (on_goal 2 => dsimp only [x]))
    | (intro x; clear_value x) | lift_lets | with_reducible refine keeps_ite (fun _ => ?_) (fun _ => ?_)
    | with_reducible assumption | with_reducible apply keeps_askHoming | with_reducible apply keeps_dropAsks
    | with_reducible apply keeps_raise | with_reducible apply keeps_setHome | with_reducible apply keeps_showMoves
    | with_reducible apply keeps_store | split | ((conv in (State.mk ..) => skip); with_reducible apply keeps_upd)
    | (refine UpdOk.mk ?_; intro p; cases p <;> first | (apply Or.inl; apply hp.get; rfl) | exact Or.inr rfl)

theorem keeps_setDebt {P : StatePart → Bool} {σ : State} (s : State) (n : Nat) (d : Int) (hσ : Keeps P σ s)
    (hp : covers P [.regs, .tier] := by exact hp.sub rfl) :
    Keeps P σ (State.setDebt s n d) := by
  unfold State.setDebt
  repeat' first
    | (with_reducible show covers P _; exact hp.sub rfl)
    | (intro (x : State); refine (fun (hx : Keeps P σ x) => ?_) ?_; (on_goal 1 => clear_value x); (on_goal 2 => dsimp only [x]))
    | (intro x; clear_value x) | lift_lets | with_reducible assumption | with_reducible apply keeps_setFld
    | ((conv in (State.mk ..) => skip); with_reducible apply keeps_upd)
    | (refine UpdOk.mk ?_; intro p; cases p <;> first | (apply Or.inl; apply hp.get; rfl) | exact Or.inr rfl)

theorem keeps_applyPlannedBurst {P : StatePart → Bool} {σ : State} (pile t : Nat) (s : State) (hσ : Keeps P σ s)
    (hp : covers P [.now, .regs, .tier] := by exact hp.sub rfl) :
    Keeps P σ (applyPlannedBurst pile t s) := by
  unfold applyPlannedBurst
  split
  · refine keeps_ite (fun _ => ?_) (fun _ => hσ)
    lift_lets
    intro y w v
    have h : Keeps P σ v := keeps_upd (keeps_at _ _ hσ)
    exact keeps_ite (fun _ => keeps_setDebt _ _ _ h) (fun _ => h)
  · exact hσ

theorem keeps_applyRefreshInterval {P : StatePart → Bool} {σ : State} (pile : Nat) (s : State) (hσ : Keeps P σ s)
    (hp : covers P [.regs, .slots, .beat, .units, .cores, .upd, .tier, .forager, .mods, .ports, .casc, .host, .test] := by exact hp.sub rfl) :
    Keeps P σ (applyRefreshInterval pile s) := by
  unfold applyRefreshInterval
  repeat' first
    | (with_reducible show covers P _; exact hp.sub rfl)
    | (intro (x : State); refine (fun (hx : Keeps P σ x) => ?_) ?_; (on_goal 1 => clear_value x); (on_goal 2 => dsimp only [x]))
    | (intro x; clear_value x) | lift_lets | with_reducible refine keeps_ite (fun _ => ?_) (fun _ => ?_)
    | with_reducible assumption | with_reducible apply keeps_bumpSat | with_reducible apply keeps_raise
    | with_reducible apply keeps_setDebt

theorem keeps_scrubStep {P : StatePart → Bool} {σ : State} (s : State) (n cw : Nat) (hσ : Keeps P σ s)
    (hp : covers P [.regs, .tier] := by exact hp.sub rfl) :
    Keeps P σ (State.scrubStep s n cw) := by
  unfold State.scrubStep
  repeat' first
    | (with_reducible show covers P _; exact hp.sub rfl)
    | (intro (x : State); refine (fun (hx : Keeps P σ x) => ?_) ?_; (on_goal 1 => clear_value x); (on_goal 2 => dsimp only [x]))
    | (intro x; clear_value x) | lift_lets | with_reducible refine keeps_ite (fun _ => ?_) (fun _ => ?_)
    | with_reducible assumption | with_reducible apply keeps_bumpWrap | with_reducible apply keeps_setBit
    | with_reducible apply keeps_setFld | ((conv in (State.mk ..) => skip); with_reducible apply keeps_upd)
    | (refine UpdOk.mk ?_; intro p; cases p <;> first | (apply Or.inl; apply hp.get; rfl) | exact Or.inr rfl)

theorem keeps_scrubBad {P : StatePart → Bool} {σ : State} (s : State) (n cw : Nat) (hσ : Keeps P σ s)
    (hp : covers P [.regs, .slots, .beat, .units, .cores, .upd, .tier, .forager, .mods, .ports, .casc, .host, .test] := by exact hp.sub rfl) :
    Keeps P σ (State.scrubBad s n cw) := by
  unfold State.scrubBad
  repeat' first
    | (with_reducible show covers P _; exact hp.sub rfl)
    | (intro (x : State); refine (fun (hx : Keeps P σ x) => ?_) ?_; (on_goal 1 => clear_value x); (on_goal 2 => dsimp only [x]))
    | (intro x; clear_value x) | lift_lets | with_reducible refine keeps_ite (fun _ => ?_) (fun _ => ?_)
    | with_reducible assumption | with_reducible apply keeps_askPage | with_reducible apply keeps_cwBad
    | with_reducible apply keeps_raise | with_reducible apply keeps_unlist | split

theorem keeps_applyPatrolScrub {P : StatePart → Bool} {σ : State} (pile cw : Nat) (errs : List (Nat × Nat × Nat)) (interfaceOk : Bool) (s : State) (hσ : Keeps P σ s)
    (hp : covers P [.regs, .slots, .beat, .units, .cores, .upd, .tier, .forager, .mods, .ports, .casc, .host, .test] := by exact hp.sub rfl) :
    Keeps P σ (applyPatrolScrub pile cw errs interfaceOk s) := by
  unfold applyPatrolScrub
  repeat' first
    | (with_reducible show covers P _; exact hp.sub rfl)
    | (intro (x : State); refine (fun (hx : Keeps P σ x) => ?_) ?_; (on_goal 1 => clear_value x); (on_goal 2 => dsimp only [x]))
    | (intro x; clear_value x) | lift_lets | with_reducible refine keeps_ite (fun _ => ?_) (fun _ => ?_)
    | with_reducible assumption | with_reducible apply keeps_cwCorrected | with_reducible apply keeps_pileGone
    | with_reducible apply keeps_scrubBad | with_reducible apply keeps_scrubStep | split
    | ((conv in (State.mk ..) => skip); with_reducible apply keeps_upd)
    | (refine UpdOk.mk ?_; intro p; cases p <;> first | (apply Or.inl; apply hp.get; rfl) | exact Or.inr rfl)

theorem keeps_applyEdramWriteBack {P : StatePart → Bool} {σ : State} (pile line : Nat) (s : State) (hσ : Keeps P σ s)
    (hp : covers P [.tier] := by exact hp.sub rfl) :
    Keeps P σ (applyEdramWriteBack pile line s) := by
  unfold applyEdramWriteBack
  repeat' first
    | with_reducible assumption | ((conv in (State.mk ..) => skip); with_reducible apply keeps_upd)
    | (refine UpdOk.mk ?_; intro p; cases p <;> first | (apply Or.inl; apply hp.get; rfl) | exact Or.inr rfl)

theorem keeps_rdcFill {P : StatePart → Bool} {σ : State} (s : State) (die line lifetime : Nat) (hσ : Keeps P σ s)
    (hp : covers P [.tier] := by exact hp.sub rfl) :
    Keeps P σ (State.rdcFill s die line lifetime) := by
  unfold State.rdcFill
  repeat' first
    | (intro (x : State); refine (fun (hx : Keeps P σ x) => ?_) ?_; (on_goal 1 => clear_value x); (on_goal 2 => dsimp only [x]))
    | (intro (x : _ × State); refine (fun (hx : Keeps P σ x.2) => ?_) ?_; (on_goal 1 => clear_value x); (on_goal 2 => dsimp only [x]))
    | (intro x; clear_value x) | lift_lets | with_reducible assumption | with_reducible apply keeps_draw
    | ((conv in (State.mk ..) => skip); with_reducible apply keeps_upd)
    | (refine UpdOk.mk ?_; intro p; cases p <;> first | (apply Or.inl; apply hp.get; rfl) | exact Or.inr rfl)

theorem keeps_rdcLook {P : StatePart → Bool} {σ : State} (s : State) (die hub line lifetime : Nat) (hσ : Keeps P σ s)
    (hp : covers P [.regs, .tier] := by exact hp.sub rfl) :
    Keeps P σ (State.rdcLook s die hub line lifetime) := by
  unfold State.rdcLook
  repeat' first
    | (with_reducible show covers P _; exact hp.sub rfl) | with_reducible refine keeps_ite (fun _ => ?_) (fun _ => ?_)
    | with_reducible assumption | with_reducible apply keeps_bumpPair | with_reducible apply keeps_rdcFill

theorem keeps_rdcPart {P : StatePart → Bool} {σ : State} (s : State) (die addr line : Nat) (hσ : Keeps P σ s)
    (hp : covers P [.regs, .tier] := by exact hp.sub rfl) :
    Keeps P σ (State.rdcPart s die addr line) := by
  unfold State.rdcPart
  repeat' first
    | (with_reducible show covers P _; exact hp.sub rfl) | (intro x; clear_value x) | lift_lets
    | with_reducible refine keeps_ite (fun _ => ?_) (fun _ => ?_) | with_reducible assumption | with_reducible apply keeps_rdcLook
    | split

theorem keeps_applyRemoteRead {P : StatePart → Bool} {σ : State} (l addr len : Nat) (errs : List HwErr) (s : State) (hσ : Keeps P σ s)
    (hp : covers P [.regs, .slots, .beat, .units, .cores, .upd, .tier, .forager, .mods, .ports, .casc, .host, .test] := by exact hp.sub rfl) :
    Keeps P σ (applyRemoteRead l addr len errs s) := by
  unfold applyRemoteRead
  repeat' first
    | (with_reducible show covers P _; exact hp.sub rfl)
    | (intro (x : State); refine (fun (hx : Keeps P σ x) => ?_) ?_; (on_goal 1 => clear_value x); (on_goal 2 => dsimp only [x]))
    | (intro x; clear_value x) | lift_lets | with_reducible refine keeps_ite (fun _ => ?_) (fun _ => ?_)
    | with_reducible assumption | with_reducible apply keeps_hwErrors | with_reducible apply keeps_rdcPart
    | with_reducible refine keeps_foldl (fun _ _ σ _ => ?_) ?_ | ((conv in (State.mk ..) => skip); with_reducible apply keeps_upd)
    | (refine UpdOk.mk ?_; intro p; cases p <;> first | (apply Or.inl; apply hp.get; rfl) | exact Or.inr rfl)

/-! ### Host -/

theorem keeps_setCopy {P : StatePart → Bool} {σ : State} (s : State) (r : CopyRun) (hσ : Keeps P σ s)
    (hp : covers P [.host] := by exact hp.sub rfl) :
    Keeps P σ (State.setCopy s r) := by
  unfold State.setCopy
  repeat' first
    | with_reducible assumption | ((conv in (State.mk ..) => skip); with_reducible apply keeps_upd)
    | (refine UpdOk.mk ?_; intro p; cases p <;> first | (apply Or.inl; apply hp.get; rfl) | exact Or.inr rfl)

theorem keeps_askMore {P : StatePart → Bool} {σ : State} (s : State) (r : CopyRun) (d : CopyDesc) (hσ : Keeps P σ s)
    (hp : covers P [.host] := by exact hp.sub rfl) :
    Keeps P σ (State.askMore s r d) := by
  unfold State.askMore
  repeat' first
    | (with_reducible show covers P _; exact hp.sub rfl)
    | (intro (x : State); refine (fun (hx : Keeps P σ x) => ?_) ?_; (on_goal 1 => clear_value x); (on_goal 2 => dsimp only [x]))
    | (intro x; clear_value x) | lift_lets | with_reducible assumption | with_reducible apply keeps_emit
    | with_reducible apply keeps_setCopy | with_reducible refine keeps_foldl (fun _ _ σ _ => ?_) ?_

theorem keeps_abortCopy {P : StatePart → Bool} {σ : State} (s : State) (r : CopyRun) (hσ : Keeps P σ s)
    (hp : covers P [.regs, .memory, .beat, .units, .host] := by exact hp.sub rfl) :
    Keeps P σ (State.abortCopy s r) := by
  unfold State.abortCopy
  repeat' first
    | (with_reducible show covers P _; exact hp.sub rfl)
    | (intro (x : State); refine (fun (hx : Keeps P σ x) => ?_) ?_; (on_goal 1 => clear_value x); (on_goal 2 => dsimp only [x]))
    | (intro (x : _ × State); refine (fun (hx : Keeps P σ x.2) => ?_) ?_; (on_goal 1 => clear_value x); (on_goal 2 => dsimp only [x]))
    | (intro x; clear_value x) | lift_lets | with_reducible refine keeps_ite (fun _ => ?_) (fun _ => ?_)
    | with_reducible assumption | with_reducible apply keeps_abortRun | with_reducible apply keeps_draw
    | with_reducible apply keeps_endRunOf | with_reducible apply keeps_showCe | with_reducible apply keeps_unknow
    | with_reducible refine keeps_foldl (fun _ _ σ _ => ?_) ?_ | split
    | ((conv in (State.mk ..) => skip); with_reducible apply keeps_upd)
    | (refine UpdOk.mk ?_; intro p; cases p <;> first | (apply Or.inl; apply hp.get; rfl) | exact Or.inr rfl)

theorem keeps_startCopy {P : StatePart → Bool} {σ : State} (s : State) (e : Nat) (r : RunSlot) (d : CopyDesc) (hσ : Keeps P σ s)
    (hp : covers P [.regs, .beat, .units, .host] := by exact hp.sub rfl) :
    Keeps P σ (State.startCopy s e r d).2 := by
  unfold State.startCopy
  repeat' first
    | (with_reducible show covers P _; exact hp.sub rfl)
    | (intro (x : State); refine (fun (hx : Keeps P σ x) => ?_) ?_; (on_goal 1 => clear_value x); (on_goal 2 => dsimp only [x]))
    | (intro x; clear_value x) | lift_lets | with_reducible assumption | with_reducible apply keeps_abortRun
    | with_reducible apply keeps_endRunOf | with_reducible apply keeps_setBit | with_reducible apply keeps_setFld
    | with_reducible apply keeps_setRun | split | ((conv in (State.mk ..) => skip); with_reducible apply keeps_upd)
    | (refine UpdOk.mk ?_; intro p; cases p <;> first | (apply Or.inl; apply hp.get; rfl) | exact Or.inr rfl)

theorem keeps_completeCopy {P : StatePart → Bool} {σ : State} (s : State) (c : CopyRun) (hσ : Keeps P σ s)
    (hp : covers P [.regs, .units, .host] := by exact hp.sub rfl) :
    Keeps P σ (State.completeCopy s c) := by
  unfold State.completeCopy
  repeat' first
    | (with_reducible show covers P _; exact hp.sub rfl)
    | (intro (x : State); refine (fun (hx : Keeps P σ x) => ?_) ?_; (on_goal 1 => clear_value x); (on_goal 2 => dsimp only [x]))
    | (intro x; clear_value x) | lift_lets | with_reducible assumption | with_reducible apply keeps_endRunOf
    | with_reducible apply keeps_setCopy | with_reducible apply keeps_showCe | split

theorem keeps_beginCopy {P : StatePart → Bool} {σ : State} (s : State) (e kind : Nat) (go : CopyDesc → CopyRun → State → State) (hσ : Keeps P σ s)
    (hg : ∀ d c u b, Keeps P b u → Keeps P b (go d c u))
    (hp : covers P [.regs, .beat, .units, .host] := by exact hp.sub rfl) : Keeps P σ (s.beginCopy e kind go) := by
  unfold State.beginCopy
  split
  · exact hσ
  · split
    · exact hσ
    · split
      · exact hσ
      · rename_i r _ _ d _ _
        have h1 : ∀ c u v, s.startCopy e r d = (some (c, u), v) → Keeps P σ u := by
          intro c u v h
          unfold State.startCopy at h
          dsimp only at h
          split at h
          · cases h
          · cases h
            exact keeps_showCe _ _ (keeps_upd (keeps_setRun _ _ _ (keeps_setBit _ _ _ _ (keeps_setFld _ _ _ _ _ hσ))))
        have h2 := keeps_startCopy s e r d hσ
        split
        · exact hg _ _ _ _ (h1 _ _ _ ‹_›)
        · rename_i h
          rw [h] at h2; exact h2

theorem keeps_applyH2d {P : StatePart → Bool} {σ : State} (e : Nat) (s : State) (hσ : Keeps P σ s)
    (hp : covers P [.regs, .beat, .units, .host] := by exact hp.sub rfl) :
    Keeps P σ (applyH2d e s) := by
  unfold applyH2d
  repeat' first
    | (with_reducible show covers P _; exact hp.sub rfl) | (intro _ _ _ σ _) | with_reducible assumption
    | with_reducible apply keeps_askMore | with_reducible apply keeps_beginCopy

theorem keeps_postWrites {P : StatePart → Bool} {σ : State} (s : State) (p : HPort) (addr : Nat) (data : Bytes) (hσ : Keeps P σ s) :
    Keeps P σ (State.postWrites s p addr data) := by
  unfold State.postWrites
  repeat' first
    | (intro x; clear_value x) | lift_lets | with_reducible assumption | with_reducible apply keeps_emit
    | with_reducible refine keeps_foldl (fun _ _ σ _ => ?_) ?_

theorem keeps_applyD2h {P : StatePart → Bool} {σ : State} (e : Nat) (s : State) (hσ : Keeps P σ s)
    (hp : covers P [.regs, .slots, .beat, .units, .cores, .upd, .tier, .forager, .mods, .ports, .casc, .host, .test] := by exact hp.sub rfl) :
    Keeps P σ (applyD2h e s) := by
  unfold applyD2h
  repeat' first
    | (with_reducible show covers P _; exact hp.sub rfl)
    | (intro (x : _ × State); refine (fun (hx : Keeps P σ x.2) => ?_) ?_; (on_goal 1 => clear_value x); (on_goal 2 => dsimp only [x]))
    | (intro _ _ _ σ _) | lift_lets | with_reducible assumption | with_reducible apply keeps_beginCopy
    | with_reducible apply keeps_completeCopy | with_reducible apply keeps_fetch | with_reducible apply keeps_postWrites

theorem keeps_applyNotify {P : StatePart → Bool} {σ : State} (e : Nat) (s : State) (hσ : Keeps P σ s)
    (hp : covers P [.regs, .beat, .units, .host] := by exact hp.sub rfl) :
    Keeps P σ (applyNotify e s) := by
  unfold applyNotify
  repeat' first
    | (with_reducible show covers P _; exact hp.sub rfl) | (intro _ _ _ σ _) | with_reducible assumption
    | with_reducible apply keeps_beginCopy | with_reducible apply keeps_completeCopy

theorem keeps_applyReadCompletion {P : StatePart → Bool} {σ : State} (e : Nat) (c : CompletionKind) (s : State) (hσ : Keeps P σ s)
    (hp : covers P [.regs, .memory, .slots, .beat, .units, .cores, .upd, .tier, .forager, .mods, .ports, .casc, .host, .test] := by exact hp.sub rfl) :
    Keeps P σ (applyReadCompletion e c s) := by
  unfold applyReadCompletion
  repeat' first
    | (with_reducible show covers P _; exact hp.sub rfl)
    | (intro (x : State); refine (fun (hx : Keeps P σ x) => ?_) ?_; (on_goal 1 => clear_value x); (on_goal 2 => dsimp only [x]))
    | (intro x; clear_value x) | lift_lets | with_reducible refine keeps_ite (fun _ => ?_) (fun _ => ?_)
    | with_reducible assumption | with_reducible apply keeps_abortCopy | with_reducible apply keeps_askMore
    | with_reducible apply keeps_completeCopy | with_reducible apply keeps_setCopy | with_reducible apply keeps_store | split

theorem keeps_applyFlushingReadComplete {P : StatePart → Bool} {σ : State} (id : Nat) (s : State) (hσ : Keeps P σ s)
    (hp : covers P [.regs, .host] := by exact hp.sub rfl) :
    Keeps P σ (applyFlushingReadComplete id s) := by
  unfold applyFlushingReadComplete
  repeat' first
    | (with_reducible show covers P _; exact hp.sub rfl)
    | (intro (x : State); refine (fun (hx : Keeps P σ x) => ?_) ?_; (on_goal 1 => clear_value x); (on_goal 2 => dsimp only [x]))
    | (intro x; clear_value x) | lift_lets | with_reducible assumption | with_reducible apply keeps_bumpSat
    | with_reducible apply keeps_sendFlag | split | ((conv in (State.mk ..) => skip); with_reducible apply keeps_upd)
    | (refine UpdOk.mk ?_; intro p; cases p <;> first | (apply Or.inl; apply hp.get; rfl) | exact Or.inr rfl)

theorem keeps_applyCompletionTimeout {P : StatePart → Bool} {σ : State} (e : Nat) (s : State) (hσ : Keeps P σ s)
    (hp : covers P [.regs, .memory, .beat, .units, .host] := by exact hp.sub rfl) :
    Keeps P σ (applyCompletionTimeout e s) := by
  unfold applyCompletionTimeout
  repeat' first
    | (with_reducible show covers P _; exact hp.sub rfl) | with_reducible refine keeps_ite (fun _ => ?_) (fun _ => ?_)
    | with_reducible assumption | with_reducible apply keeps_abortCopy | split

theorem keeps_setHport {P : StatePart → Bool} {σ : State} (s : State) (p : HPort) (x : HostPort) (hσ : Keeps P σ s)
    (hp : covers P [.host] := by exact hp.sub rfl) :
    Keeps P σ (State.setHport s p x) := by
  unfold State.setHport
  repeat' first
    | with_reducible assumption | split | ((conv in (State.mk ..) => skip); with_reducible apply keeps_upd)
    | (refine UpdOk.mk ?_; intro p; cases p <;> first | (apply Or.inl; apply hp.get; rfl) | exact Or.inr rfl)

theorem keeps_holdIfAlone {P : StatePart → Bool} {σ : State} (s : State) (hσ : Keeps P σ s)
    (hp : covers P [.regs, .tier] := by exact hp.sub rfl) :
    Keeps P σ (State.holdIfAlone s) := by
  unfold State.holdIfAlone
  repeat' first
    | (with_reducible show covers P _; exact hp.sub rfl) | with_reducible refine keeps_ite (fun _ => ?_) (fun _ => ?_)
    | with_reducible assumption | with_reducible apply keeps_enterHold

theorem keeps_flushCrossing {P : StatePart → Bool} {σ : State} (s : State) (domain n : Nat) (hσ : Keeps P σ s)
    (hp : covers P [.regs, .beat] := by exact hp.sub rfl) :
    Keeps P σ (State.flushCrossing s domain n) := by
  unfold State.flushCrossing
  repeat' first
    | (with_reducible show covers P _; exact hp.sub rfl)
    | (intro (x : State); refine (fun (hx : Keeps P σ x) => ?_) ?_; (on_goal 1 => clear_value x); (on_goal 2 => dsimp only [x]))
    | lift_lets | with_reducible assumption | with_reducible apply keeps_bumpSat | with_reducible apply keeps_logEntry
    | with_reducible apply keeps_setBit | with_reducible apply keeps_setFld

theorem keeps_clearPortDomain {P : StatePart → Bool} {σ : State} (s : State) (p : HPort) (hσ : Keeps P σ s)
    (hp : covers P [.regs, .host] := by exact hp.sub rfl) :
    Keeps P σ (State.clearPortDomain s p) := by
  unfold State.clearPortDomain
  repeat' first
    | (with_reducible show covers P _; exact hp.sub rfl)
    | (intro (x : State); refine (fun (hx : Keeps P σ x) => ?_) ?_; (on_goal 1 => clear_value x); (on_goal 2 => dsimp only [x]))
    | (intro x; clear_value x) | lift_lets | with_reducible assumption | with_reducible apply keeps_setFld
    | with_reducible apply keeps_setHport | ((conv in (State.mk ..) => skip); with_reducible apply keeps_upd)
    | (refine UpdOk.mk ?_; intro p; cases p <;> first | (apply Or.inl; apply hp.get; rfl) | exact Or.inr rfl)

theorem keeps_linkDown {P : StatePart → Bool} {σ : State} (s : State) (p : HPort) (hσ : Keeps P σ s)
    (hp : covers P [.regs, .host] := by exact hp.sub rfl) :
    Keeps P σ (State.linkDown s p) := by
  unfold State.linkDown
  repeat' first
    | (with_reducible show covers P _; exact hp.sub rfl)
    | (intro (x : State); refine (fun (hx : Keeps P σ x) => ?_) ?_; (on_goal 1 => clear_value x); (on_goal 2 => dsimp only [x]))
    | (intro x; clear_value x) | lift_lets | with_reducible refine keeps_ite (fun _ => ?_) (fun _ => ?_)
    | with_reducible assumption | with_reducible apply keeps_setBit | with_reducible apply keeps_setFld
    | with_reducible apply keeps_setHport | with_reducible apply keeps_showBias | split
    | ((conv in (State.mk ..) => skip); with_reducible apply keeps_upd)
    | (refine UpdOk.mk ?_; intro p; cases p <;> first | (apply Or.inl; apply hp.get; rfl) | exact Or.inr rfl)

theorem keeps_retireReads {P : StatePart → Bool} {σ : State} (s : State) (p : HPort) (hσ : Keeps P σ s)
    (hp : covers P [.regs, .memory, .slots, .beat, .units, .cores, .upd, .tier, .forager, .mods, .ports, .casc, .host, .test] := by exact hp.sub rfl) :
    Keeps P σ (State.retireReads s p) := by
  unfold State.retireReads
  repeat' first
    | (with_reducible show covers P _; exact hp.sub rfl)
    | (intro (x : State); refine (fun (hx : Keeps P σ x) => ?_) ?_; (on_goal 1 => clear_value x); (on_goal 2 => dsimp only [x]))
    | (intro x; clear_value x) | lift_lets | with_reducible refine keeps_ite (fun _ => ?_) (fun _ => ?_)
    | with_reducible assumption | with_reducible apply keeps_abortCopy | with_reducible apply keeps_applyMailboxReadComplete
    | with_reducible apply keeps_endRunOf | with_reducible apply keeps_raise
    | with_reducible refine keeps_foldl (fun _ _ σ _ => ?_) ?_ | split
    | ((conv in (State.mk ..) => skip); with_reducible apply keeps_upd)
    | (refine UpdOk.mk ?_; intro p; cases p <;> first | (apply Or.inl; apply hp.get; rfl) | exact Or.inr rfl)

theorem keeps_applyPortReset {P : StatePart → Bool} {σ : State} (p : HPort) (k : PortResetKind) (flushed : Nat) (s : State) (hσ : Keeps P σ s)
    (hp : covers P [.regs, .memory, .slots, .beat, .units, .cores, .upd, .tier, .forager, .mods, .ports, .casc, .host, .test] := by exact hp.sub rfl) :
    Keeps P σ (applyPortReset p k flushed s) := by
  unfold applyPortReset
  repeat' first
    | (with_reducible show covers P _; exact hp.sub rfl)
    | (intro (x : State); refine (fun (hx : Keeps P σ x) => ?_) ?_; (on_goal 1 => clear_value x); (on_goal 2 => dsimp only [x]))
    | (intro x; clear_value x) | lift_lets | with_reducible refine keeps_ite (fun _ => ?_) (fun _ => ?_)
    | with_reducible assumption | with_reducible apply keeps_clearPortDomain | with_reducible apply keeps_flushCrossing
    | with_reducible apply keeps_holdIfAlone | with_reducible apply keeps_linkDown | with_reducible apply keeps_logEntry
    | with_reducible apply keeps_msix | with_reducible apply keeps_retireReads | with_reducible apply keeps_setBit | split
    | ((conv in (State.mk ..) => skip); with_reducible apply keeps_upd)
    | (refine UpdOk.mk ?_; intro p; cases p <;> first | (apply Or.inl; apply hp.get; rfl) | exact Or.inr rfl)

theorem keeps_applyPcieLinkUp {P : StatePart → Bool} {σ : State} (p : HPort) (l : PortLink) (s : State) (hσ : Keeps P σ s)
    (hp : covers P [.regs, .host] := by exact hp.sub rfl) :
    Keeps P σ (applyPcieLinkUp p l s) := by
  unfold applyPcieLinkUp
  repeat' first
    | (with_reducible show covers P _; exact hp.sub rfl)
    | (intro (x : State); refine (fun (hx : Keeps P σ x) => ?_) ?_; (on_goal 1 => clear_value x); (on_goal 2 => dsimp only [x]))
    | (intro x; clear_value x) | lift_lets | with_reducible refine keeps_ite (fun _ => ?_) (fun _ => ?_)
    | with_reducible assumption | with_reducible apply keeps_msix | with_reducible apply keeps_setFld
    | with_reducible apply keeps_setHport | ((conv in (State.mk ..) => skip); with_reducible apply keeps_upd)
    | (refine UpdOk.mk ?_; intro p; cases p <;> first | (apply Or.inl; apply hp.get; rfl) | exact Or.inr rfl)

theorem keeps_applyLinkRecovery {P : StatePart → Bool} {σ : State} (p : HPort) (s : State) (hσ : Keeps P σ s)
    (hp : covers P [.regs, .beat] := by exact hp.sub rfl) :
    Keeps P σ (applyLinkRecovery p s) := by
  unfold applyLinkRecovery
  repeat' first
    | (with_reducible show covers P _; exact hp.sub rfl) | with_reducible refine keeps_ite (fun _ => ?_) (fun _ => ?_)
    | with_reducible assumption | with_reducible apply keeps_logEntry

theorem keeps_applyCxlCacheTimeout {P : StatePart → Bool} {σ : State} (hub : Nat) (s : State) (hσ : Keeps P σ s)
    (hp : covers P [.regs, .slots, .beat, .units, .cores, .upd, .tier, .forager, .mods, .ports, .casc, .host, .test] := by exact hp.sub rfl) :
    Keeps P σ (applyCxlCacheTimeout hub s) := by
  unfold applyCxlCacheTimeout
  repeat' first
    | (with_reducible show covers P _; exact hp.sub rfl) | with_reducible refine keeps_ite (fun _ => ?_) (fun _ => ?_)
    | with_reducible assumption | with_reducible apply keeps_raise

/-! ### Forager -/

theorem keeps_setFor {P : StatePart → Bool} {σ : State} (s : State) (f : ForSt) (hσ : Keeps P σ s)
    (hp : covers P [.forager] := by exact hp.sub rfl) :
    Keeps P σ (State.setFor s f) := by
  unfold State.setFor
  repeat' first
    | with_reducible assumption | ((conv in (State.mk ..) => skip); with_reducible apply keeps_upd)
    | (refine UpdOk.mk ?_; intro p; cases p <;> first | (apply Or.inl; apply hp.get; rfl) | exact Or.inr rfl)

theorem keeps_countRefused {P : StatePart → Bool} {σ : State} (s : State) (f n : Nat) (hσ : Keeps P σ s)
    (hp : covers P [.regs] := by exact hp.sub rfl) :
    Keeps P σ (State.countRefused s f n) := by
  unfold State.countRefused
  repeat' first
    | (with_reducible show covers P _; exact hp.sub rfl) | with_reducible assumption | with_reducible apply keeps_bumpSat

theorem keeps_dropRecord {P : StatePart → Bool} {σ : State} (s : State) (f stream : Nat) (r : SampleRec) (hσ : Keeps P σ s)
    (hp : covers P [.regs, .memory, .slots, .beat, .units, .cores, .upd, .tier, .forager, .mods, .ports, .casc, .host, .test] := by exact hp.sub rfl) :
    Keeps P σ (State.dropRecord s f stream r) := by
  unfold State.dropRecord
  repeat' first
    | (with_reducible show covers P _; exact hp.sub rfl) | with_reducible assumption | with_reducible apply keeps_countRefused
    | with_reducible apply keeps_damage

theorem keeps_putStaged {P : StatePart → Bool} {σ : State} (s : State) (x : Staged9) (hσ : Keeps P σ s)
    (hp : covers P [.forager] := by exact hp.sub rfl) :
    Keeps P σ (State.putStaged s x) := by
  unfold State.putStaged
  repeat' first
    | (with_reducible show covers P _; exact hp.sub rfl) | with_reducible assumption | with_reducible apply keeps_setFor

theorem keeps_refuseSample {P : StatePart → Bool} {σ : State} (s : State) (x : Staged9) (code : Nat) (hσ : Keeps P σ s)
    (hp : covers P [.regs, .memory, .slots, .beat, .units, .cores, .upd, .tier, .forager, .mods, .ports, .casc, .host, .test] := by exact hp.sub rfl) :
    Keeps P σ (State.refuseSample s x code) := by
  unfold State.refuseSample
  repeat' first
    | (with_reducible show covers P _; exact hp.sub rfl)
    | (intro (x : State); refine (fun (hx : Keeps P σ x) => ?_) ?_; (on_goal 1 => clear_value x); (on_goal 2 => dsimp only [x]))
    | lift_lets | with_reducible assumption | with_reducible apply keeps_countRefused | with_reducible apply keeps_damage
    | with_reducible apply keeps_putStaged

theorem keeps_scratchStaging {P : StatePart → Bool} {σ : State} (s : State) (c : ForCfg) (hσ : Keeps P σ s)
    (hp : covers P [.memory] := by exact hp.sub rfl) :
    Keeps P σ (State.scratchStaging s c) := by
  unfold State.scratchStaging
  repeat' first
    | (with_reducible show covers P _; exact hp.sub rfl) | with_reducible assumption | with_reducible apply keeps_undefineRange
    | split

theorem keeps_fillLong {P : StatePart → Bool} {σ : State} (s : State) (f : Nat) (hσ : Keeps P σ s)
    (hp : covers P [.forager] := by exact hp.sub rfl) :
    Keeps P σ (State.fillLong s f) := by
  unfold State.fillLong
  repeat' first
    | (with_reducible show covers P _; exact hp.sub rfl) | (intro x; clear_value x) | lift_lets | with_reducible assumption
    | with_reducible apply keeps_setFor

theorem keeps_stage {P : StatePart → Bool} {σ : State} (s : State) (c : ForCfg) (x : Staged9) (hσ : Keeps P σ s)
    (hp : covers P [.regs, .memory, .slots, .beat, .units, .cores, .upd, .tier, .forager, .mods, .ports, .casc, .host, .test] := by exact hp.sub rfl) :
    Keeps P σ (State.stage s c x) := by
  unfold State.stage
  repeat' first
    | (with_reducible show covers P _; exact hp.sub rfl)
    | (intro (x : State); refine (fun (hx : Keeps P σ x) => ?_) ?_; (on_goal 1 => clear_value x); (on_goal 2 => dsimp only [x]))
    | (intro x; clear_value x) | lift_lets | with_reducible refine keeps_ite (fun _ => ?_) (fun _ => ?_)
    | with_reducible assumption | with_reducible apply keeps_bumpSat | with_reducible apply keeps_damage
    | with_reducible apply keeps_fillLong | with_reducible apply keeps_putStaged | with_reducible apply keeps_scratchStaging

theorem keeps_scratchCache {P : StatePart → Bool} {σ : State} (s : State) (c : ForCfg) (hσ : Keeps P σ s)
    (hp : covers P [.memory] := by exact hp.sub rfl) :
    Keeps P σ (State.scratchCache s c) := by
  unfold State.scratchCache
  repeat' first
    | (with_reducible show covers P _; exact hp.sub rfl) | with_reducible assumption | with_reducible apply keeps_undefineRange
    | split

theorem keeps_cacheFill {P : StatePart → Bool} {σ : State} (s : State) (c : ForCfg) (st : FStream) (x : Staged9) (hσ : Keeps P σ s)
    (hp : covers P [.regs, .memory, .slots, .beat, .units, .cores, .upd, .tier, .forager, .mods, .ports, .casc, .host, .test] := by exact hp.sub rfl) :
    Keeps P σ (State.cacheFill s c st x) := by
  unfold State.cacheFill
  repeat' first
    | (with_reducible show covers P _; exact hp.sub rfl)
    | (intro (x : State); refine (fun (hx : Keeps P σ x) => ?_) ?_; (on_goal 1 => clear_value x); (on_goal 2 => dsimp only [x]))
    | (intro x; clear_value x) | lift_lets | with_reducible refine keeps_ite (fun _ => ?_) (fun _ => ?_)
    | with_reducible assumption | with_reducible apply keeps_bumpSat | with_reducible apply keeps_forgCode
    | with_reducible apply keeps_raiseCycle | with_reducible apply keeps_scratchCache | with_reducible apply keeps_setBit
    | with_reducible apply keeps_setFor

theorem keeps_stageCached {P : StatePart → Bool} {σ : State} (s : State) (c : ForCfg) (f stream : Nat) (r : SampleRec) (e : Staged9) (hσ : Keeps P σ s)
    (hp : covers P [.regs, .memory, .slots, .beat, .units, .cores, .upd, .tier, .forager, .mods, .ports, .casc, .host, .test] := by exact hp.sub rfl) :
    Keeps P σ (State.stageCached s c f stream r e) := by
  unfold State.stageCached
  repeat' first
    | (with_reducible show covers P _; exact hp.sub rfl) | (intro x; clear_value x) | lift_lets | with_reducible assumption
    | with_reducible apply keeps_bumpSat | with_reducible apply keeps_stage

theorem keeps_drainCached {P : StatePart → Bool} {σ : State} (s : State) (hσ : Keeps P σ s)
    (hp : covers P [.regs, .memory, .slots, .beat, .units, .cores, .upd, .tier, .forager, .mods, .ports, .casc, .host, .test] := by exact hp.sub rfl) :
    Keeps P σ (State.drainCached s) := by
  unfold State.drainCached
  repeat' first
    | (with_reducible show covers P _; exact hp.sub rfl)
    | (intro (x : State); refine (fun (hx : Keeps P σ x) => ?_) ?_; (on_goal 1 => clear_value x); (on_goal 2 => dsimp only [x]))
    | lift_lets | with_reducible refine keeps_ite (fun _ => ?_) (fun _ => ?_) | with_reducible assumption
    | with_reducible apply keeps_setFor | with_reducible apply keeps_stageCached
    | with_reducible refine keeps_foldl (fun _ _ σ _ => ?_) ?_ | split

theorem keeps_acceptRecord {P : StatePart → Bool} {σ : State} (s : State) (c : ForCfg) (st : FStream) (f stream : Nat) (r : SampleRec) (hσ : Keeps P σ s)
    (hp : covers P [.regs, .memory, .slots, .beat, .units, .cores, .upd, .tier, .forager, .mods, .ports, .casc, .host, .test] := by exact hp.sub rfl) :
    Keeps P σ (State.acceptRecord s c st f stream r) := by
  unfold State.acceptRecord
  repeat' first
    | (with_reducible show covers P _; exact hp.sub rfl) | (intro x; clear_value x) | lift_lets
    | with_reducible refine keeps_ite (fun _ => ?_) (fun _ => ?_) | with_reducible assumption
    | with_reducible apply keeps_refuseSample | with_reducible apply keeps_setFor | with_reducible apply keeps_stageCached | split

theorem keeps_skipped {P : StatePart → Bool} {σ : State} (s : State) (f stream want got : Nat) (hσ : Keeps P σ s)
    (hp : covers P [.regs, .memory, .slots, .beat, .units, .cores, .upd, .tier, .forager, .mods, .ports, .casc, .host, .test] := by exact hp.sub rfl) :
    Keeps P σ (State.skipped s f stream want got) := by
  unfold State.skipped
  repeat' first
    | (with_reducible show covers P _; exact hp.sub rfl)
    | (intro (x : State); refine (fun (hx : Keeps P σ x) => ?_) ?_; (on_goal 1 => clear_value x); (on_goal 2 => dsimp only [x]))
    | (intro x; clear_value x) | lift_lets | with_reducible assumption | with_reducible apply keeps_countRefused
    | with_reducible apply keeps_damage | with_reducible apply keeps_putStaged
    | with_reducible refine keeps_foldl (fun _ _ σ _ => ?_) ?_

theorem keeps_applySampleRecord {P : StatePart → Bool} {σ : State} (f : Nat) (r : SampleRec) (s : State) (hσ : Keeps P σ s)
    (hp : covers P [.regs, .memory, .slots, .beat, .units, .cores, .upd, .tier, .forager, .mods, .ports, .casc, .host, .test] := by exact hp.sub rfl) :
    Keeps P σ (applySampleRecord f r s) := by
  unfold applySampleRecord
  repeat' first
    | (with_reducible show covers P _; exact hp.sub rfl)
    | (intro (x : State); refine (fun (hx : Keeps P σ x) => ?_) ?_; (on_goal 1 => clear_value x); (on_goal 2 => dsimp only [x]))
    | (intro x; clear_value x) | lift_lets | with_reducible refine keeps_ite (fun _ => ?_) (fun _ => ?_)
    | with_reducible assumption | with_reducible apply keeps_acceptRecord | with_reducible apply keeps_dropRecord
    | with_reducible apply keeps_setFor | with_reducible apply keeps_skipped | split

theorem keeps_takeRecord {P : StatePart → Bool} {σ : State} (s : State) (lane : Nat) (q : Queued) (hσ : Keeps P σ s)
    (hp : covers P [.forager] := by exact hp.sub rfl) :
    Keeps P σ (State.takeRecord s lane q) := by
  unfold State.takeRecord
  repeat' first
    | (with_reducible show covers P _; exact hp.sub rfl) | with_reducible refine keeps_ite (fun _ => ?_) (fun _ => ?_)
    | with_reducible assumption | with_reducible apply keeps_setFor

theorem keeps_suspend {P : StatePart → Bool} {σ : State} (s : State) (lane : Nat) (q : Queued) (hσ : Keeps P σ s)
    (hp : covers P [.forager] := by exact hp.sub rfl) :
    Keeps P σ (State.suspend s lane q) := by
  unfold State.suspend
  repeat' first
    | (with_reducible show covers P _; exact hp.sub rfl)
    | (intro (x : State); refine (fun (hx : Keeps P σ x) => ?_) ?_; (on_goal 1 => clear_value x); (on_goal 2 => dsimp only [x]))
    | (intro x; clear_value x) | lift_lets | with_reducible assumption | with_reducible apply keeps_setFor
    | with_reducible apply keeps_takeRecord

theorem keeps_applyJpegDecode {P : StatePart → Bool} {σ : State} (f lane : Nat) (ends : Bool) (s : State) (hσ : Keeps P σ s)
    (hp : covers P [.regs, .memory, .slots, .beat, .units, .cores, .watch, .upd, .tier, .forager, .mods, .ports, .casc, .host, .test] := by exact hp.sub rfl) :
    Keeps P σ (applyJpegDecode f lane ends s) := by
  unfold applyJpegDecode
  repeat' first
    | (with_reducible show covers P _; exact hp.sub rfl)
    | (intro (x : State); refine (fun (hx : Keeps P σ x) => ?_) ?_; (on_goal 1 => clear_value x); (on_goal 2 => dsimp only [x]))
    | (intro x; clear_value x) | lift_lets | with_reducible refine keeps_ite (fun _ => ?_) (fun _ => ?_)
    | with_reducible assumption | with_reducible apply keeps_cacheFill | with_reducible apply keeps_drainCached
    | with_reducible apply keeps_feed | with_reducible apply keeps_refuseSample | with_reducible apply keeps_stage
    | with_reducible apply keeps_suspend | with_reducible apply keeps_takeRecord | split

theorem keeps_applyTokenize {P : StatePart → Bool} {σ : State} (f lane : Nat) (ends : Bool) (s : State) (hσ : Keeps P σ s)
    (hp : covers P [.regs, .memory, .slots, .beat, .units, .cores, .upd, .tier, .forager, .mods, .ports, .casc, .host, .test] := by exact hp.sub rfl) :
    Keeps P σ (applyTokenize f lane ends s) := by
  unfold applyTokenize
  dsimp only
  split
  · have h := keeps_drainCached s hσ
    generalize s.drainCached = v at h ⊢
    split
    · have hr : ∀ u q x (c : Nat), Keeps P σ (if ends = true then (v.takeRecord u q).refuseSample x c else v.suspend u q) := fun _ _ _ _ =>
        keeps_ite (fun _ => keeps_refuseSample _ _ _ (keeps_takeRecord _ _ _ h)) (fun _ => keeps_suspend _ _ _ h)
      refine keeps_ite (fun _ => h) (fun _ => keeps_ite (fun _ => hr _ _ _ _) (fun _ => keeps_ite (fun _ => hr _ _ _ _) (fun _ => ?_)))
      refine keeps_ite (fun _ => h) (fun _ => keeps_ite (fun _ => keeps_suspend _ _ _ h) (fun _ => ?_))
      exact keeps_cacheFill _ _ _ _ (keeps_stage _ _ _ (keeps_takeRecord _ _ _ h))
    · exact h
  · exact hσ

theorem keeps_writeBatch {P : StatePart → Bool} {σ : State} (s : State) (f : Nat) (st : FStream) (o : BatchDesc) (ps : List Pick) (hσ : Keeps P σ s)
    (hp : covers P [.regs, .memory, .slots, .beat, .units, .cores, .upd, .tier, .forager, .mods, .ports, .casc, .host, .test] := by exact hp.sub rfl) :
    Keeps P σ (State.writeBatch s f st o ps) := by
  unfold State.writeBatch
  repeat' first
    | (with_reducible show covers P _; exact hp.sub rfl)
    | (intro (x : _ × State); refine (fun (hx : Keeps P σ x.2) => ?_) ?_; (on_goal 1 => clear_value x); (on_goal 2 => dsimp only [x]))
    | lift_lets | with_reducible assumption | with_reducible apply keeps_draw | with_reducible apply keeps_store | split

theorem keeps_requestSample {P : StatePart → Bool} {σ : State} (s : State) (st : FStream) (stream : Nat) (e : MEntry) (hσ : Keeps P σ s)
    (hp : covers P [.regs, .memory, .slots, .beat, .units, .cores, .upd, .tier, .forager, .mods, .ports, .casc, .host, .test] := by exact hp.sub rfl) :
    Keeps P σ (State.requestSample s st stream e) := by
  unfold State.requestSample
  repeat' first
    | (with_reducible show covers P _; exact hp.sub rfl)
    | (intro (x : State); refine (fun (hx : Keeps P σ x) => ?_) ?_; (on_goal 1 => clear_value x); (on_goal 2 => dsimp only [x]))
    | (intro x; clear_value x) | lift_lets | with_reducible refine keeps_ite (fun _ => ?_) (fun _ => ?_)
    | with_reducible assumption | with_reducible apply keeps_askSource | with_reducible apply keeps_setFor
    | with_reducible apply keeps_setReg | with_reducible apply keeps_store

theorem keeps_keepRebuilt {P : StatePart → Bool} {σ : State} (s : State) (k beat cycle : Nat) (o : BatchDesc) (ps : List Pick) (es : List MEntry) (stream : Nat) (hσ : Keeps P σ s)
    (hp : covers P [.forager] := by exact hp.sub rfl) :
    Keeps P σ (State.keepRebuilt s k beat cycle o ps es stream) := by
  unfold State.keepRebuilt
  repeat' first
    | (with_reducible show covers P _; exact hp.sub rfl) | (intro x; clear_value x) | lift_lets | with_reducible assumption
    | with_reducible apply keeps_setFor

theorem keeps_rebuildBatch {P : StatePart → Bool} {σ : State} (s : State) (u : UnitId) (r : RunSlot) (f : Nat) (st : FStream) (o : BatchDesc) (a cycle : Nat) (hσ : Keeps P σ s)
    (hp : covers P [.regs, .memory, .slots, .beat, .units, .cores, .upd, .tier, .forager, .mods, .ports, .casc, .host, .test] := by exact hp.sub rfl) :
    Keeps P σ (State.rebuildBatch s u r f st o a cycle) := by
  unfold State.rebuildBatch
  repeat' first
    | (with_reducible show covers P _; exact hp.sub rfl)
    | (intro (x : State); refine (fun (hx : Keeps P σ x) => ?_) ?_; (on_goal 1 => clear_value x); (on_goal 2 => dsimp only [x]))
    | (intro x; clear_value x) | lift_lets | with_reducible refine keeps_ite (fun _ => ?_) (fun _ => ?_)
    | with_reducible assumption | with_reducible apply keeps_damage | with_reducible apply keeps_endRunOf
    | with_reducible apply keeps_forgCode | with_reducible apply keeps_keepRebuilt | with_reducible apply keeps_raise
    | with_reducible apply keeps_requestSample | with_reducible apply keeps_setBit | with_reducible apply keeps_writeBatch
    | with_reducible refine keeps_foldl (fun _ _ σ _ => ?_) ?_ | split

theorem keeps_freshBatch {P : StatePart → Bool} {σ : State} (s : State) (u : UnitId) (r : RunSlot) (f : Nat) (st : FStream) (o : BatchDesc) (a cycle : Nat) (fixed : Bool) (ps : List Pick) (hσ : Keeps P σ s)
    (hp : covers P [.regs, .memory, .slots, .beat, .units, .cores, .upd, .tier, .forager, .mods, .ports, .casc, .host, .test] := by exact hp.sub rfl) :
    Keeps P σ (State.freshBatch s u r f st o a cycle fixed ps) := by
  unfold State.freshBatch
  repeat' first
    | (with_reducible show covers P _; exact hp.sub rfl)
    | (intro (x : State); refine (fun (hx : Keeps P σ x) => ?_) ?_; (on_goal 1 => clear_value x); (on_goal 2 => dsimp only [x]))
    | (intro x; clear_value x) | lift_lets | with_reducible assumption | with_reducible apply keeps_bumpPair
    | with_reducible apply keeps_endRunOf | with_reducible apply keeps_fillLong | with_reducible apply keeps_setFor
    | with_reducible apply keeps_store | with_reducible apply keeps_writeBatch

theorem keeps_applyBatchOp {P : StatePart → Bool} {σ : State} (f : Nat) (s : State) (hσ : Keeps P σ s)
    (hp : covers P [.regs, .memory, .slots, .beat, .units, .cores, .upd, .tier, .forager, .mods, .ports, .casc, .host, .test] := by exact hp.sub rfl) :
    Keeps P σ (applyBatchOp f s) := by
  unfold applyBatchOp
  dsimp only
  split
  · have h := keeps_drainCached s hσ
    generalize s.drainCached = v at h ⊢
    split
    · exact h
    · split
      · exact h
      · split
        · exact h
        · refine keeps_ite (fun _ => keeps_rebuildBatch _ _ _ _ _ _ _ _ h) (fun _ => ?_)
          split
          · exact h
          · exact keeps_freshBatch _ _ _ _ _ _ _ _ _ _ h
  · exact hσ

end Sys2Proof.Laws
end

