-- ==== Sys2Proof/Laws/KeepsLinks.lean ====
section
/-! SUPPORT. Links, Eszoja, power, start-up and management keep the queue, the records sent out, the memory form, the fuses, and every part of the machine that they do not name. -/

namespace Sys2Proof.Laws

-- one theorem after another: hundreds at once run out of threads
set_option Elab.async false

open Sys2Proof Sys2Proof.Machine

/-! ### Links -/

theorem keeps_fillWindow {P : StatePart → Bool} {σ : State} (s : State) (q : Nat) (f : Frame) (hσ : Keeps P σ s)
    (hp : covers P [.regs, .memory, .slots, .beat, .units, .cores, .upd, .tier, .forager, .mods, .ports, .casc, .host, .test] := by exact hp.sub rfl) :
    KeepsSome P σ (State.fillWindow s q f) := by
  unfold State.fillWindow
  repeat' first
    | (with_reducible show covers P _; exact hp.sub rfl)
    | (intro (x : State); refine (fun (hx : Keeps P σ x) => ?_) ?_; (on_goal 1 => clear_value x); (on_goal 2 => dsimp only [x]))
    | (intro x; clear_value x) | lift_lets | with_reducible assumption | with_reducible apply keeps_addCopy
    | with_reducible apply keeps_store | with_reducible apply keepsSome_none | with_reducible apply keepsSome_some
    | with_reducible apply keepsSome_ite | split

theorem keeps_storeLink {P : StatePart → Bool} {σ : State} (s : State) (q from_ : Nat) (f : Frame) (a : Nat) (data : Bytes) (hσ : Keeps P σ s)
    (hp : covers P [.regs, .memory, .slots, .beat, .units, .cores, .upd, .tier, .forager, .mods, .ports, .casc, .host, .test] := by exact hp.sub rfl) :
    Keeps P σ (State.storeLink s q from_ f a data) := by
  unfold State.storeLink
  repeat' first
    | (with_reducible show covers P _; exact hp.sub rfl)
    | (intro (x : State); refine (fun (hx : Keeps P σ x) => ?_) ?_; (on_goal 1 => clear_value x); (on_goal 2 => dsimp only [x]))
    | (intro x; clear_value x) | lift_lets | with_reducible refine keeps_ite (fun _ => ?_) (fun _ => ?_)
    | with_reducible assumption | with_reducible apply keeps_owe | with_reducible apply keeps_store
    | ((conv in (State.mk ..) => skip); with_reducible apply keeps_upd)
    | (refine UpdOk.mk ?_; intro p; cases p <;> first | (apply Or.inl; apply hp.get; rfl) | exact Or.inr rfl)

theorem keeps_deliver9 {P : StatePart → Bool} {σ : State} (s : State) (q from_ : Nat) (f : Frame) (hσ : Keeps P σ s)
    (hp : covers P [.regs, .memory, .slots, .beat, .units, .cores, .upd, .tier, .forager, .mods, .ports, .casc, .host, .test] := by exact hp.sub rfl) :
    KeepsSome P σ (State.deliver9 s q from_ f) := by
  unfold State.deliver9
  split
  · dsimp only
    split
    · exact keepsSome_ite (keepsSome_some (keeps_storeLink _ _ _ _ _ _ hσ)) (keepsSome_some (keeps_upd hσ))
    · exact keepsSome_some (keeps_owe _ _ _ _ hσ)
  · split
    · refine ⟨fun t ht => ?_⟩
      obtain ⟨u, hu, rfl⟩ := Option.map_eq_some_iff.mp ht
      exact keeps_owe _ _ _ _ (keeps_of_some (keeps_fillWindow _ _ _ hσ) hu)
    · exact keepsSome_some (keeps_storeLink _ _ _ _ _ _ hσ)

theorem keeps_forward {P : StatePart → Bool} {σ : State} (s : State) (r : Route) (q : Nat) (d : Coord) (f : Frame) (hσ : Keeps P σ s)
    (hp : covers P [.regs, .ports, .casc] := by exact hp.sub rfl) :
    Keeps P σ (State.forward s r q d f) := by
  unfold State.forward
  split
  · exact keeps_owe _ _ _ _ hσ
  · split
    · exact keeps_owe _ _ _ _ (keeps_of_some (keeps_launch _ _ _ _ _ hσ) ‹_›)
    · exact keeps_getD (keeps_launch _ _ _ _ _ hσ) (keeps_owe _ _ _ _ hσ)

theorem keeps_forwardTree {P : StatePart → Bool} {σ : State} (s : State) (r : Route) (q g : Nat) (f : Frame) (p0 : List Coord) (hσ : Keeps P σ s)
    (hp : covers P [.regs, .ports, .casc] := by exact hp.sub rfl) :
    Keeps P σ (State.forwardTree s r q g f p0) := by
  induction p0 generalizing s with
  | nil => exact keeps_owe _ _ _ _ hσ
  | cons c cs ih =>
    cases cs with
    | nil => exact keeps_forward _ _ _ _ _ hσ
    | cons d ds =>
      refine ih _ ?_
      split
      · exact keeps_getD (keeps_launch _ _ _ _ _ hσ) hσ
      · exact hσ

theorem keeps_takeTree {P : StatePart → Bool} {σ : State} (s : State) (r : Route) (q g : Nat) (f : Frame) (hσ : Keeps P σ s)
    (hp : covers P [.regs, .memory, .slots, .beat, .units, .cores, .upd, .tier, .forager, .mods, .ports, .casc, .host, .test] := by exact hp.sub rfl) :
    KeepsSome P σ (State.takeTree s r q g f) := by
  unfold State.takeTree
  dsimp only
  split
  · refine ⟨fun t ht => ?_⟩
    obtain ⟨u, hu, rfl⟩ := Option.map_eq_some_iff.mp ht
    exact keeps_forwardTree _ _ _ _ _ _ (keeps_of_some (keeps_deliver9 _ _ _ _ hσ) hu)
  · exact keepsSome_some (keeps_forwardTree _ _ _ _ _ _ hσ)

theorem keeps_takeData {P : StatePart → Bool} {σ : State} (s : State) (q : Nat) (f : Frame) (hσ : Keeps P σ s)
    (hp : covers P [.regs, .memory, .slots, .beat, .units, .cores, .upd, .tier, .forager, .mods, .ports, .casc, .host, .test] := by exact hp.sub rfl) :
    KeepsSome P σ (State.takeData s q f) := by
  unfold State.takeData
  repeat' first
    | (with_reducible show covers P _; exact hp.sub rfl) | (intro x; clear_value x) | lift_lets | with_reducible assumption
    | with_reducible apply keeps_deliver9 | with_reducible apply keeps_forward | with_reducible apply keeps_owe
    | with_reducible apply keeps_takeTree | with_reducible apply keepsSome_some | with_reducible apply keepsSome_ite | split

theorem keeps_sendNak {P : StatePart → Bool} {σ : State} (s : State) (q : Nat) (hσ : Keeps P σ s)
    (hp : covers P [.ports] := by exact hp.sub rfl) :
    Keeps P σ (State.sendNak s q) := by
  unfold State.sendNak
  repeat' first
    | (with_reducible show covers P _; exact hp.sub rfl) | (intro x; clear_value x) | lift_lets | with_reducible assumption
    | with_reducible apply keeps_emit | with_reducible apply keeps_setPort

theorem keeps_nakGap {P : StatePart → Bool} {σ : State} (s : State) (q : Nat) (hσ : Keeps P σ s)
    (hp : covers P [.ports] := by exact hp.sub rfl) :
    Keeps P σ (State.nakGap s q) := by
  unfold State.nakGap
  repeat' first
    | (with_reducible show covers P _; exact hp.sub rfl) | with_reducible refine keeps_ite (fun _ => ?_) (fun _ => ?_)
    | with_reducible assumption | with_reducible apply keeps_sendNak

theorem keeps_sendAck {P : StatePart → Bool} {σ : State} (s : State) (q : Nat) (hσ : Keeps P σ s)
    (hp : covers P [.ports] := by exact hp.sub rfl) :
    Keeps P σ (State.sendAck s q) := by
  unfold State.sendAck
  repeat' first
    | (with_reducible show covers P _; exact hp.sub rfl) | (intro x; clear_value x) | lift_lets | with_reducible assumption
    | with_reducible apply keeps_emit | with_reducible apply keeps_setPort

theorem keeps_linkAccept {P : StatePart → Bool} {σ : State} (s : State) (q : Nat) (f : Frame) (hσ : Keeps P σ s)
    (hp : covers P [.ports] := by exact hp.sub rfl) :
    Keeps P σ (State.linkAccept s q f).1 := by
  unfold State.linkAccept
  repeat' first
    | (with_reducible show covers P _; exact hp.sub rfl)
    | (intro (x : State); refine (fun (hx : Keeps P σ x) => ?_) ?_; (on_goal 1 => clear_value x); (on_goal 2 => dsimp only [x]))
    | (intro x; clear_value x) | lift_lets | with_reducible refine keeps_ite (fun _ => ?_) (fun _ => ?_)
    | with_reducible assumption | with_reducible apply keeps_nakGap | with_reducible apply keeps_sendAck
    | with_reducible apply keeps_sendNak | with_reducible apply keeps_setPort | split

theorem keeps_noteForeign {P : StatePart → Bool} {σ : State} (s : State) (q : Nat) (hσ : Keeps P σ s)
    (hp : covers P [.regs, .slots, .beat, .units, .cores, .upd, .tier, .forager, .mods, .ports, .casc, .host, .test] := by exact hp.sub rfl) :
    Keeps P σ (State.noteForeign s q) := by
  unfold State.noteForeign
  repeat' first
    | (with_reducible show covers P _; exact hp.sub rfl) | with_reducible assumption | with_reducible apply keeps_bumpSat
    | with_reducible apply keeps_raiseBeat

theorem keeps_intakeFrame {P : StatePart → Bool} {σ : State} (s : State) (q : Nat) (f : Frame) (hσ : Keeps P σ s)
    (hp : covers P [.regs, .memory, .slots, .beat, .units, .cores, .upd, .tier, .forager, .mods, .ports, .casc, .host, .test] := by exact hp.sub rfl) :
    Keeps P σ (State.intakeFrame s q f) := by
  unfold State.intakeFrame
  repeat' first
    | (with_reducible show covers P _; exact hp.sub rfl)
    | (intro (x : State); refine (fun (hx : Keeps P σ x) => ?_) ?_; (on_goal 1 => clear_value x); (on_goal 2 => dsimp only [x]))
    | (intro x; clear_value x) | lift_lets | with_reducible assumption | with_reducible apply keeps_applySampleRecord
    | with_reducible apply keeps_owe | with_reducible apply keeps_setFor
    | with_reducible refine keeps_foldl (fun _ _ σ _ => ?_) ?_

theorem keeps_showWidth {P : StatePart → Bool} {σ : State} (s : State) (q width sel : Nat) (hσ : Keeps P σ s)
    (hp : covers P [.regs] := by exact hp.sub rfl) :
    Keeps P σ (State.showWidth s q width sel) := by
  unfold State.showWidth
  repeat' first
    | (with_reducible show covers P _; exact hp.sub rfl)
    | (intro (x : State); refine (fun (hx : Keeps P σ x) => ?_) ?_; (on_goal 1 => clear_value x); (on_goal 2 => dsimp only [x]))
    | (intro x; clear_value x) | lift_lets | with_reducible refine keeps_ite (fun _ => ?_) (fun _ => ?_)
    | with_reducible assumption | with_reducible apply keeps_setBit | with_reducible apply keeps_setFld

theorem keeps_resend {P : StatePart → Bool} {σ : State} (s : State) (role : Nat) (f : Frame) (hσ : Keeps P σ s)
    (hp : covers P [.regs, .ports, .casc] := by exact hp.sub rfl) :
    Keeps P σ (State.resend s role f) := by
  unfold State.resend
  split
  · split
    · rename_i x h
      obtain ⟨q, _, hq⟩ := List.exists_of_findSome?_eq_some h
      split at hq
      · exact keeps_of_some (keeps_trySend _ _ _ hσ) hq
      · cases hq
    · exact keeps_setPort _ _ _ hσ
  · split
    · split
      · exact keeps_getD (keeps_launch _ _ _ _ _ hσ) hσ
      · exact hσ
    · exact hσ

theorem keeps_portDown {P : StatePart → Bool} {σ : State} (s : State) (q : Nat) (hσ : Keeps P σ s)
    (hp : covers P [.regs, .slots, .beat, .units, .cores, .upd, .tier, .forager, .mods, .ports, .casc, .host, .test] := by exact hp.sub rfl) :
    Keeps P σ (State.portDown s q) := by
  unfold State.portDown
  repeat' first
    | (with_reducible show covers P _; exact hp.sub rfl)
    | (intro (x : State); refine (fun (hx : Keeps P σ x) => ?_) ?_; (on_goal 1 => clear_value x); (on_goal 2 => dsimp only [x]))
    | (intro x; clear_value x) | lift_lets | with_reducible refine keeps_ite (fun _ => ?_) (fun _ => ?_)
    | with_reducible assumption | with_reducible apply keeps_beginTraining | with_reducible apply keeps_logEntry
    | with_reducible apply keeps_merge | with_reducible apply keeps_owe | with_reducible apply keeps_portOut
    | with_reducible apply keeps_raise | with_reducible apply keeps_resend | with_reducible apply keeps_setBit
    | with_reducible apply keeps_setFld | with_reducible refine keeps_foldl (fun _ _ σ _ => ?_) ?_ | split

theorem keeps_applyPortDown {P : StatePart → Bool} {σ : State} (q : Nat) (cause : PortDownCause) (s : State) (hσ : Keeps P σ s)
    (hp : covers P [.regs, .slots, .beat, .units, .cores, .upd, .tier, .forager, .mods, .ports, .casc, .host, .test] := by exact hp.sub rfl) :
    Keeps P σ (applyPortDown q cause s) := by
  unfold applyPortDown
  repeat' first
    | (with_reducible show covers P _; exact hp.sub rfl)
    | (intro (x : State); refine (fun (hx : Keeps P σ x) => ?_) ?_; (on_goal 1 => clear_value x); (on_goal 2 => dsimp only [x]))
    | lift_lets | with_reducible refine keeps_ite (fun _ => ?_) (fun _ => ?_) | with_reducible assumption
    | with_reducible apply keeps_bumpSat | with_reducible apply keeps_portDown | split

theorem keeps_dropLane {P : StatePart → Bool} {σ : State} (s : State) (q lane : Nat) (hσ : Keeps P σ s)
    (hp : covers P [.regs, .slots, .beat, .units, .cores, .upd, .tier, .forager, .mods, .ports, .casc, .host, .test] := by exact hp.sub rfl) :
    Keeps P σ (State.dropLane s q lane) := by
  unfold State.dropLane
  repeat' first
    | (with_reducible show covers P _; exact hp.sub rfl)
    | (intro (x : State); refine (fun (hx : Keeps P σ x) => ?_) ?_; (on_goal 1 => clear_value x); (on_goal 2 => dsimp only [x]))
    | (intro x; clear_value x) | lift_lets | with_reducible refine keeps_ite (fun _ => ?_) (fun _ => ?_)
    | with_reducible assumption | with_reducible apply keeps_logEntry | with_reducible apply keeps_portDown
    | with_reducible apply keeps_setBit | with_reducible apply keeps_setPort | with_reducible apply keeps_showWidth

theorem keeps_applyLaneDrop {P : StatePart → Bool} {σ : State} (q lane : Nat) (s : State) (hσ : Keeps P σ s)
    (hp : covers P [.regs, .slots, .beat, .units, .cores, .upd, .tier, .forager, .mods, .ports, .casc, .host, .test] := by exact hp.sub rfl) :
    Keeps P σ (applyLaneDrop q lane s) := by
  unfold applyLaneDrop
  repeat' first
    | (with_reducible show covers P _; exact hp.sub rfl) | with_reducible assumption | with_reducible apply keeps_dropLane

theorem keeps_noteLane {P : StatePart → Bool} {σ : State} (s : State) (q lane margin : Nat) (hσ : Keeps P σ s)
    (hp : covers P [.regs, .slots, .beat, .units, .cores, .upd, .tier, .forager, .mods, .ports, .casc, .host, .test] := by exact hp.sub rfl) :
    Keeps P σ (State.noteLane s q lane margin) := by
  unfold State.noteLane
  repeat' first
    | (with_reducible show covers P _; exact hp.sub rfl)
    | (intro (x : State); refine (fun (hx : Keeps P σ x) => ?_) ?_; (on_goal 1 => clear_value x); (on_goal 2 => dsimp only [x]))
    | lift_lets | with_reducible refine keeps_ite (fun _ => ?_) (fun _ => ?_) | with_reducible assumption
    | with_reducible apply keeps_dropLane | with_reducible apply keeps_logEntry | with_reducible apply keeps_setFld

theorem keeps_applyLaneMarginMeasure {P : StatePart → Bool} {σ : State} (q lane margin : Nat) (s : State) (hσ : Keeps P σ s)
    (hp : covers P [.regs, .slots, .beat, .units, .cores, .upd, .tier, .forager, .mods, .ports, .casc, .host, .test] := by exact hp.sub rfl) :
    Keeps P σ (applyLaneMarginMeasure q lane margin s) := by
  unfold applyLaneMarginMeasure
  repeat' first
    | (with_reducible show covers P _; exact hp.sub rfl) | with_reducible refine keeps_ite (fun _ => ?_) (fun _ => ?_)
    | with_reducible assumption | with_reducible apply keeps_noteLane

theorem keeps_applyMarginNow {P : StatePart → Bool} {σ : State} (q : Nat) (margins : List Nat) (s : State) (hσ : Keeps P σ s)
    (hp : covers P [.regs, .slots, .beat, .units, .cores, .upd, .tier, .forager, .mods, .ports, .casc, .host, .test] := by exact hp.sub rfl) :
    Keeps P σ (applyMarginNow q margins s) := by
  unfold applyMarginNow
  repeat' first
    | (with_reducible show covers P _; exact hp.sub rfl) | with_reducible refine keeps_ite (fun _ => ?_) (fun _ => ?_)
    | with_reducible assumption | with_reducible apply keeps_emit | with_reducible apply keeps_noteLane
    | with_reducible refine keeps_foldl (fun _ _ σ _ => ?_) ?_

theorem keeps_takeAck {P : StatePart → Bool} {σ : State} (s : State) (q : Nat) (f : Frame) (hσ : Keeps P σ s)
    (hp : covers P [.regs, .ports] := by exact hp.sub rfl) :
    Keeps P σ (State.takeAck s q f) := by
  unfold State.takeAck
  repeat' first
    | (with_reducible show covers P _; exact hp.sub rfl) | (intro x; clear_value x) | lift_lets | with_reducible assumption
    | with_reducible apply keeps_flushWait | with_reducible apply keeps_setPort | split

theorem keeps_takeNak {P : StatePart → Bool} {σ : State} (s : State) (q : Nat) (f : Frame) (hσ : Keeps P σ s)
    (hp : covers P [.regs, .slots, .beat, .units, .cores, .upd, .tier, .forager, .mods, .ports, .casc, .host, .test] := by exact hp.sub rfl) :
    Keeps P σ (State.takeNak s q f) := by
  unfold State.takeNak
  repeat' first
    | (with_reducible show covers P _; exact hp.sub rfl)
    | (intro (x : State); refine (fun (hx : Keeps P σ x) => ?_) ?_; (on_goal 1 => clear_value x); (on_goal 2 => dsimp only [x]))
    | (intro x; clear_value x) | lift_lets | with_reducible refine keeps_ite (fun _ => ?_) (fun _ => ?_)
    | with_reducible assumption | with_reducible apply keeps_emit | with_reducible apply keeps_portDown
    | with_reducible apply keeps_setPort | with_reducible refine keeps_foldl (fun _ _ σ _ => ?_) ?_ | split

theorem keeps_takeCredit {P : StatePart → Bool} {σ : State} (s : State) (q : Nat) (f : Frame) (hσ : Keeps P σ s)
    (hp : covers P [.regs, .ports] := by exact hp.sub rfl) :
    Keeps P σ (State.takeCredit s q f) := by
  unfold State.takeCredit
  repeat' first
    | (with_reducible show covers P _; exact hp.sub rfl) | (intro x; clear_value x) | lift_lets | with_reducible assumption
    | with_reducible apply keeps_flushWait | with_reducible apply keeps_setPort | with_reducible apply keeps_showCredit

theorem keeps_applyIdleTimer {P : StatePart → Bool} {σ : State} (q : Nat) (s : State) (hσ : Keeps P σ s) :
    Keeps P σ (applyIdleTimer q s) := by
  unfold applyIdleTimer
  repeat' first
    | with_reducible refine keeps_ite (fun _ => ?_) (fun _ => ?_) | with_reducible assumption | with_reducible apply keeps_emit

theorem keeps_applyAckTimer {P : StatePart → Bool} {σ : State} (q : Nat) (s : State) (hσ : Keeps P σ s)
    (hp : covers P [.ports] := by exact hp.sub rfl) :
    Keeps P σ (applyAckTimer q s) := by
  unfold applyAckTimer
  repeat' first
    | (with_reducible show covers P _; exact hp.sub rfl) | with_reducible refine keeps_ite (fun _ => ?_) (fun _ => ?_)
    | with_reducible assumption | with_reducible apply keeps_sendAck

theorem keeps_returnCredit {P : StatePart → Bool} {σ : State} (s : State) (q : Nat) (hσ : Keeps P σ s)
    (hp : covers P [.ports] := by exact hp.sub rfl) :
    Keeps P σ (State.returnCredit s q) := by
  unfold State.returnCredit
  repeat' first
    | (with_reducible show covers P _; exact hp.sub rfl) | (intro x; clear_value x) | lift_lets
    | with_reducible refine keeps_ite (fun _ => ?_) (fun _ => ?_) | with_reducible assumption
    | with_reducible apply keeps_sendKept | with_reducible apply keeps_setPort
    | with_reducible refine keeps_foldl (fun _ _ σ _ => ?_) ?_

theorem keeps_showPeer {P : StatePart → Bool} {σ : State} (s : State) (q : Nat) (i : Ident) (hσ : Keeps P σ s)
    (hp : covers P [.regs] := by exact hp.sub rfl) :
    Keeps P σ (State.showPeer s q i) := by
  unfold State.showPeer
  repeat' first
    | (with_reducible show covers P _; exact hp.sub rfl) | (intro x; clear_value x) | lift_lets | with_reducible assumption
    | with_reducible apply keeps_setBit | with_reducible apply keeps_setFld

theorem keeps_takeIdent {P : StatePart → Bool} {σ : State} (s : State) (q : Nat) (i : Ident) (hσ : Keeps P σ s)
    (hp : covers P [.regs, .beat, .ports, .casc] := by exact hp.sub rfl) :
    Keeps P σ (State.takeIdent s q i) := by
  unfold State.takeIdent
  repeat' first
    | (with_reducible show covers P _; exact hp.sub rfl)
    | (intro (x : State); refine (fun (hx : Keeps P σ x) => ?_) ?_; (on_goal 1 => clear_value x); (on_goal 2 => dsimp only [x]))
    | (intro x; clear_value x) | lift_lets | with_reducible refine keeps_ite (fun _ => ?_) (fun _ => ?_)
    | with_reducible assumption | with_reducible apply keeps_logEntry | with_reducible apply keeps_portOut
    | with_reducible apply keeps_sendJoins | with_reducible apply keeps_setBit | with_reducible apply keeps_showPeer
    | with_reducible apply keeps_startSpare | ((conv in (State.mk ..) => skip); with_reducible apply keeps_upd)
    | (refine UpdOk.mk ?_; intro p; cases p <;> first | (apply Or.inl; apply hp.get; rfl) | exact Or.inr rfl)

theorem keeps_showLatency {P : StatePart → Bool} {σ : State} (s : State) (q : Nat) (l : List (Nat × Nat)) (hσ : Keeps P σ s)
    (hp : covers P [.regs] := by exact hp.sub rfl) :
    Keeps P σ (State.showLatency s q l) := by
  unfold State.showLatency
  repeat' first
    | (with_reducible show covers P _; exact hp.sub rfl) | with_reducible assumption | with_reducible apply keeps_setFld

theorem keeps_takeProbe {P : StatePart → Bool} {σ : State} (s : State) (q : Nat) (f : Frame) (roundTrip : Nat) (hσ : Keeps P σ s)
    (hp : covers P [.regs, .ports] := by exact hp.sub rfl) :
    Keeps P σ (State.takeProbe s q f roundTrip) := by
  unfold State.takeProbe
  repeat' first
    | (with_reducible show covers P _; exact hp.sub rfl)
    | (intro (x : _ × State); refine (fun (hx : Keeps P σ x.2) => ?_) ?_; (on_goal 1 => clear_value x); (on_goal 2 => dsimp only [x]))
    | (intro x; clear_value x) | lift_lets | with_reducible refine keeps_ite (fun _ => ?_) (fun _ => ?_)
    | with_reducible assumption | with_reducible apply keeps_draw | with_reducible apply keeps_emit
    | with_reducible apply keeps_setPort | with_reducible apply keeps_showLatency

theorem keeps_applyLatencyRemeasure {P : StatePart → Bool} {σ : State} (q : Nat) (l : List (Nat × Nat)) (s : State) (hσ : Keeps P σ s)
    (hp : covers P [.regs] := by exact hp.sub rfl) :
    Keeps P σ (applyLatencyRemeasure q l s) := by
  unfold applyLatencyRemeasure
  repeat' first
    | (with_reducible show covers P _; exact hp.sub rfl) | with_reducible refine keeps_ite (fun _ => ?_) (fun _ => ?_)
    | with_reducible assumption | with_reducible apply keeps_emit | with_reducible apply keeps_showLatency

theorem keeps_applyTrain {P : StatePart → Bool} {σ : State} (q : Nat) (s : State) (hσ : Keeps P σ s)
    (hp : covers P [.regs, .ports] := by exact hp.sub rfl) :
    Keeps P σ (applyTrain q s) := by
  unfold applyTrain
  repeat' first
    | (with_reducible show covers P _; exact hp.sub rfl) | with_reducible refine keeps_ite (fun _ => ?_) (fun _ => ?_)
    | with_reducible assumption | with_reducible apply keeps_beginTraining

theorem keeps_trainFailed {P : StatePart → Bool} {σ : State} (s : State) (q : Nat) (hσ : Keeps P σ s)
    (hp : covers P [.regs, .slots, .beat, .units, .cores, .upd, .tier, .forager, .mods, .ports, .casc, .host, .test] := by exact hp.sub rfl) :
    Keeps P σ (State.trainFailed s q) := by
  unfold State.trainFailed
  repeat' first
    | (with_reducible show covers P _; exact hp.sub rfl)
    | (intro (x : State); refine (fun (hx : Keeps P σ x) => ?_) ?_; (on_goal 1 => clear_value x); (on_goal 2 => dsimp only [x]))
    | (intro x; clear_value x) | lift_lets | with_reducible refine keeps_ite (fun _ => ?_) (fun _ => ?_)
    | with_reducible assumption | with_reducible apply keeps_beginTraining | with_reducible apply keeps_fenceLater
    | with_reducible apply keeps_setFld

theorem keeps_trainActive {P : StatePart → Bool} {σ : State} (s : State) (q : Nat) (lanes : List Bool) (l : List (Nat × Nat)) (hσ : Keeps P σ s)
    (hp : covers P [.regs, .ports, .test] := by exact hp.sub rfl) :
    Keeps P σ (State.trainActive s q lanes l) := by
  unfold State.trainActive
  repeat' first
    | (with_reducible show covers P _; exact hp.sub rfl)
    | (intro (x : State); refine (fun (hx : Keeps P σ x) => ?_) ?_; (on_goal 1 => clear_value x); (on_goal 2 => dsimp only [x]))
    | (intro x; clear_value x) | lift_lets | with_reducible refine keeps_ite (fun _ => ?_) (fun _ => ?_)
    | with_reducible assumption | with_reducible apply keeps_setFld | with_reducible apply keeps_setPort
    | with_reducible apply keeps_showCredit | with_reducible apply keeps_showLatency | with_reducible apply keeps_showWidth
    | with_reducible apply keeps_unmerge

theorem keeps_applyLinkTrainingDone {P : StatePart → Bool} {σ : State} (q : Nat) (r : TrainResult) (s : State) (hσ : Keeps P σ s)
    (hp : covers P [.regs, .slots, .beat, .units, .cores, .upd, .tier, .forager, .mods, .ports, .casc, .host, .test] := by exact hp.sub rfl) :
    Keeps P σ (applyLinkTrainingDone q r s) := by
  unfold applyLinkTrainingDone
  repeat' first
    | (with_reducible show covers P _; exact hp.sub rfl)
    | (intro (x : State); refine (fun (hx : Keeps P σ x) => ?_) ?_; (on_goal 1 => clear_value x); (on_goal 2 => dsimp only [x]))
    | (intro x; clear_value x) | lift_lets | with_reducible refine keeps_ite (fun _ => ?_) (fun _ => ?_)
    | with_reducible assumption | with_reducible apply keeps_emit | with_reducible apply keeps_takeIdent
    | with_reducible apply keeps_trainActive | with_reducible apply keeps_trainFailed | split

theorem keeps_noRoute {P : StatePart → Bool} {σ : State} (s : State) (q : Nat) (r : RunSlot) (hσ : Keeps P σ s)
    (hp : covers P [.regs, .slots, .beat, .units, .cores, .upd, .tier, .forager, .mods, .ports, .casc, .host, .test] := by exact hp.sub rfl) :
    Keeps P σ (State.noRoute s q r) := by
  unfold State.noRoute
  repeat' first
    | (with_reducible show covers P _; exact hp.sub rfl) | with_reducible assumption | with_reducible apply keeps_endRunOf
    | with_reducible apply keeps_raise

theorem keeps_sendTo {P : StatePart → Bool} {σ : State} (s : State) (q : Nat) (t : Route) (f : Frame) (hσ : Keeps P σ s) {u : State} (h : s.sendTo q t f = .ok u)
    (hp : covers P [.regs, .memory, .slots, .beat, .units, .cores, .upd, .tier, .forager, .mods, .ports, .casc, .host, .test] := by exact hp.sub rfl) :
    Keeps P σ u := by
  unfold State.sendTo at h
  dsimp only at h
  split at h
  · split at h
    · cases h; exact keeps_of_some (keeps_deliver9 _ _ _ _ hσ) ‹_›
    · cases h
  · split at h
    · cases h
    · split at h
      · cases h; exact keeps_of_some (keeps_launch _ _ _ _ _ hσ) ‹_›
      · cases h

theorem keeps_sendTree {P : StatePart → Bool} {σ : State} (s : State) (t : Route) (g : Nat) (f : Frame) (cs : List Coord) (hσ : Keeps P σ s) {u : State}
    (h : s.sendTree t g f cs = .ok u)
    (hp : covers P [.regs, .ports, .casc] := by exact hp.sub rfl) : Keeps P σ u := by
  induction cs generalizing s with
  | nil => cases h; exact hσ
  | cons c cs ih =>
    unfold State.sendTree at h
    split at h
    · cases h
    · split at h
      · cases h
      · exact ih _ (keeps_of_some (keeps_launch _ _ _ _ _ hσ) ‹_›) h

theorem keeps_sendGroup {P : StatePart → Bool} {σ : State} (s : State) (q : Nat) (t : Route) (o : LinkOp) (f : Frame) (hσ : Keeps P σ s) {u : State}
    (h : s.sendGroup q t o f = .ok u)
    (hp : covers P [.regs, .memory, .slots, .beat, .units, .cores, .upd, .tier, .forager, .mods, .ports, .casc, .host, .test] := by exact hp.sub rfl) :
    Keeps P σ u := by
  unfold State.sendGroup at h
  dsimp only at h
  split at h
  · cases h
  · rename_i v hv
    refine keeps_sendTree _ _ _ _ _ ?_ h
    split at hv
    · exact keeps_of_some (keeps_deliver9 _ _ _ _ hσ) hv
    · cases hv; exact hσ

theorem keeps_sendPieces {P : StatePart → Bool} {σ : State} (s : State) (q : Nat) (o : LinkOp) (go : State → Nat → Bytes → Sent) (n : Nat) (r : RunSlot)
    (hσ : Keeps P σ s) (hg : ∀ u i d t b, Keeps P b u → go u i d = .ok t → Keeps P b t)
    (hp : covers P [.regs, .slots, .beat, .units, .cores, .upd, .tier, .forager, .mods, .ports, .casc, .host, .test] := by exact hp.sub rfl) :
    Keeps P σ (s.sendPieces q o go n r) := by
  induction n generalizing s r with
  | zero => exact keeps_setRun _ _ _ hσ
  | succ n ih =>
    unfold State.sendPieces
    split
    · exact keeps_endRunOf _ _ _ hσ
    · dsimp only
      split
      · exact ih _ _ (hg _ _ _ _ _ (keeps_fetch _ _ _ _ hσ) ‹_›)
      · exact keeps_setRun _ _ _ hσ
      · exact keeps_noRoute _ _ _ hσ

theorem keeps_applySend {P : StatePart → Bool} {σ : State} (q : Nat) (s : State) (hσ : Keeps P σ s)
    (hp : covers P [.regs, .memory, .slots, .beat, .units, .cores, .upd, .tier, .forager, .mods, .ports, .casc, .host, .test] := by exact hp.sub rfl) :
    Keeps P σ (applySend q s) := by
  unfold applySend
  split
  · exact hσ
  · exact keeps_sendPieces _ _ _ _ _ _ hσ fun _ _ _ _ _ h e => keeps_sendTo _ _ _ _ h e

theorem keeps_applyMcast {P : StatePart → Bool} {σ : State} (q : Nat) (s : State) (hσ : Keeps P σ s)
    (hp : covers P [.regs, .memory, .slots, .beat, .units, .cores, .upd, .tier, .forager, .mods, .ports, .casc, .host, .test] := by exact hp.sub rfl) :
    Keeps P σ (applyMcast q s) := by
  unfold applyMcast
  split
  · exact hσ
  · exact keeps_sendPieces _ _ _ _ _ _ hσ fun _ _ _ _ _ h e => keeps_sendGroup _ _ _ _ _ h e

theorem keeps_usePiece {P : StatePart → Bool} {σ : State} (s : State) (p : ReducePiece) (hσ : Keeps P σ s)
    (hp : covers P [.ports, .casc] := by exact hp.sub rfl) : Keeps P σ (State.usePiece s p) := by
  unfold State.usePiece
  exact keeps_owe _ _ _ _ (keeps_upd hσ)

theorem keeps_reducePiece {P : StatePart → Bool} {σ : State} (s : State) (q : Nat) (r : RunSlot) (o : LinkOp) (t : Route) (me off : Nat) (d : Bytes)
    (hσ : Keeps P σ s) {u : State} (h : s.reducePiece q r o t me off d = .ok u)
    (hp : covers P [.regs, .memory, .slots, .beat, .units, .cores, .upd, .tier, .forager, .mods, .ports, .casc, .host, .test] := by exact hp.sub rfl) :
    Keeps P σ u := by
  unfold State.reducePiece at h
  extract_lets _ _ next frame send at h
  have hs : ∀ (a b : State) (x : Bytes), Keeps P σ a → send a x = .ok b → Keeps P σ b := by
    intro a b x ha e
    dsimp only [send] at e
    generalize next = z at e
    split at e
    · exact keeps_sendTo _ _ _ _ ha e
    · split at e
      · cases e; exact keeps_storeLink _ _ _ _ _ _ ha
      · exact keeps_sendTo _ _ _ _ ha e
  clear_value send
  split at h
  · exact hs _ _ _ hσ h
  · split at h
    · cases h
    · exact hs _ _ _ (keeps_usePiece _ _ hσ) h

theorem keeps_applyReduce {P : StatePart → Bool} {σ : State} (q : Nat) (s : State) (hσ : Keeps P σ s)
    (hp : covers P [.regs, .memory, .slots, .beat, .units, .cores, .upd, .tier, .forager, .mods, .ports, .casc, .host, .test] := by exact hp.sub rfl) :
    Keeps P σ (applyReduce q s) := by
  unfold applyReduce
  split
  · exact hσ
  · split
    · exact keeps_endRunOf _ _ _ hσ
    · exact keeps_sendPieces _ _ _ _ _ _ hσ fun _ _ _ _ _ h e => keeps_reducePiece _ _ _ _ _ _ _ _ h e

/-! ### Arrivals -/

theorem keeps_takeControl {P : StatePart → Bool} {σ : State} (s : State) (q : Nat) (f : Frame) (residence t : Nat) (hσ : Keeps P σ s)
    (hp : covers P [.now, .regs, .slots, .beat, .units, .cores, .upd, .tier, .forager, .mods, .ports, .casc, .host, .test] := by exact hp.sub rfl) :
    Keeps P σ (State.takeControl s q f residence t) := by
  unfold State.takeControl
  repeat' first
    | (with_reducible show covers P _; exact hp.sub rfl) | (intro x; clear_value x) | lift_lets
    | with_reducible refine keeps_ite (fun _ => ?_) (fun _ => ?_) | with_reducible assumption | with_reducible apply keeps_owe
    | with_reducible apply keeps_sendControl | with_reducible apply keeps_takeTreeMsg | with_reducible apply keeps_takeUnicast
    | split

theorem keeps_takeTwin {P : StatePart → Bool} {σ : State} (s : State) (q : Nat) (f : Frame) (hσ : Keeps P σ s)
    (hp : covers P [.regs, .memory, .slots, .beat, .units, .cores, .upd, .tier, .forager, .mods, .ports, .casc, .host, .test] := by exact hp.sub rfl) :
    Keeps P σ (State.takeTwin s q f) := by
  unfold State.takeTwin
  repeat' first
    | (with_reducible show covers P _; exact hp.sub rfl)
    | (intro (x : State); refine (fun (hx : Keeps P σ x) => ?_) ?_; (on_goal 1 => clear_value x); (on_goal 2 => dsimp only [x]))
    | (intro x; clear_value x) | lift_lets | with_reducible refine keeps_ite (fun _ => ?_) (fun _ => ?_)
    | with_reducible assumption | with_reducible apply keeps_owe | with_reducible apply keeps_takeMirror
    | ((conv in (State.mk ..) => skip); with_reducible apply keeps_upd)
    | (refine UpdOk.mk ?_; intro p; cases p <;> first | (apply Or.inl; apply hp.get; rfl) | exact Or.inr rfl)

theorem keeps_takeFrame {P : StatePart → Bool} {σ : State} (s : State) (q : Nat) (f : Frame) (residence t : Nat) (hσ : Keeps P σ s)
    (hp : covers P [.now, .regs, .memory, .slots, .beat, .units, .cores, .upd, .tier, .forager, .mods, .ports, .casc, .host, .test] := by exact hp.sub rfl) :
    KeepsSome P σ (State.takeFrame s q f residence t) := by
  unfold State.takeFrame
  dsimp only
  split
  · exact keepsSome_some (keeps_takeControl _ _ _ _ _ hσ)
  · exact keepsSome_some (keeps_ite (fun _ => keeps_takeTwin _ _ _ hσ) (fun _ => keeps_owe _ _ _ _ hσ))
  · exact keepsSome_some (keeps_ite (fun _ => keeps_takeRequest _ _ _ (keeps_owe _ _ _ _ hσ)) (fun _ => keeps_owe _ _ _ _ hσ))
  · exact keepsSome_ite (keepsSome_some (keeps_owe _ _ _ _ hσ)) (keeps_takeData _ _ _ hσ)
  · exact keepsSome_ite (keepsSome_some (keeps_owe _ _ _ _ hσ)) (keeps_takeData _ _ _ hσ)
  · exact keepsSome_some (keeps_owe _ _ _ _ hσ)

theorem keeps_drainHeld {P : StatePart → Bool} {σ : State} (s : State) (key residence : Nat) (p0 : Nat) (hσ : Keeps P σ s)
    (hp : covers P [.now, .regs, .memory, .slots, .beat, .units, .cores, .upd, .tier, .forager, .mods, .ports, .casc, .host, .test] := by exact hp.sub rfl) :
    Keeps P σ (State.drainHeld s key residence p0) := by
  induction p0 generalizing s with
  | zero => exact hσ
  | succ n ih =>
    unfold State.drainHeld
    dsimp only
    split
    · exact hσ
    · split
      · exact hσ
      · rename_i h
        exact ih _ (keeps_upd (keeps_of_some (keeps_takeFrame _ _ _ _ _ hσ) h))

theorem keeps_drainIntake {P : StatePart → Bool} {σ : State} (s : State) (q : Nat) (p0 : Nat) (hσ : Keeps P σ s)
    (hp : covers P [.regs, .memory, .slots, .beat, .units, .cores, .upd, .tier, .forager, .mods, .ports, .casc, .host, .test] := by exact hp.sub rfl) :
    Keeps P σ (State.drainIntake s q p0) := by
  induction p0 generalizing s with
  | zero => exact hσ
  | succ n ih =>
    unfold State.drainIntake
    split
    · exact hσ
    · exact keeps_ite (fun _ => hσ) (fun _ => ih _ (keeps_intakeFrame _ _ _ (keeps_upd hσ)))

theorem keeps_holdFrame {P : StatePart → Bool} {σ : State} (s : State) (key q : Nat) (f : Frame) (hσ : Keeps P σ s)
    (hp : covers P [.casc] := by exact hp.sub rfl) :
    Keeps P σ (State.holdFrame s key q f) := by
  unfold State.holdFrame
  repeat' first
    | with_reducible assumption | ((conv in (State.mk ..) => skip); with_reducible apply keeps_upd)
    | (refine UpdOk.mk ?_; intro p; cases p <;> first | (apply Or.inl; apply hp.get; rfl) | exact Or.inr rfl)

theorem keeps_inOrder {P : StatePart → Bool} {σ : State} (s : State) (q : Nat) (f : Frame) (residence : Nat) (hσ : Keeps P σ s)
    (hp : covers P [.now, .regs, .memory, .slots, .beat, .units, .cores, .upd, .tier, .forager, .mods, .ports, .casc, .host, .test] := by exact hp.sub rfl) :
    Keeps P σ (State.inOrder s q f residence) := by
  unfold State.inOrder
  refine keeps_ite (fun _ => keeps_drainIntake _ _ _ (keeps_holdFrame _ _ _ _ hσ)) (fun _ => keeps_ite (fun _ => keeps_owe _ _ _ _ hσ) (fun _ => ?_))
  dsimp only
  exact keeps_ite (fun _ => keeps_owe _ _ _ _ hσ) (fun _ => keeps_drainHeld _ _ _ _ (keeps_holdFrame _ _ _ _ hσ))

theorem keeps_takeKind {P : StatePart → Bool} {σ : State} (s : State) (q : Nat) (f : Frame) (residence roundTrip : Nat) (hσ : Keeps P σ s)
    (hp : covers P [.now, .regs, .memory, .slots, .beat, .units, .cores, .upd, .tier, .forager, .mods, .ports, .casc, .host, .test] := by exact hp.sub rfl) :
    Keeps P σ (State.takeKind s q f residence roundTrip) := by
  unfold State.takeKind
  repeat' first
    | (with_reducible show covers P _; exact hp.sub rfl) | with_reducible assumption | with_reducible apply keeps_inOrder
    | with_reducible apply keeps_takeAck | with_reducible apply keeps_takeCredit | with_reducible apply keeps_takeIdent
    | with_reducible apply keeps_takeNak | with_reducible apply keeps_takeProbe | split

theorem keeps_arrive {P : StatePart → Bool} {σ : State} (s : State) (q : Nat) (f : Frame) (residence roundTrip t : Nat) (hσ : Keeps P σ s)
    (hp : covers P [.now, .regs, .memory, .slots, .beat, .units, .cores, .upd, .tier, .forager, .mods, .ports, .casc, .host, .test] := by exact hp.sub rfl) :
    Keeps P σ (State.arrive s q f residence roundTrip t) := by
  unfold State.arrive
  refine keeps_ite (fun _ => hσ) (fun _ => ?_)
  dsimp only
  have h := keeps_at s t hσ
  generalize s.at t = v at h ⊢
  have hx : Keeps P σ (if f.unnumbered = true then (if f.good = true then (v, true) else (v.sendNak q, false)) else v.linkAccept q f).1 := by
    split
    · split
      · exact h
      · exact keeps_sendNak _ _ h
    · exact keeps_linkAccept _ _ _ h
  generalize (if f.unnumbered = true then (if f.good = true then (v, true) else (v.sendNak q, false)) else v.linkAccept q f) = x at hx ⊢
  refine keeps_ite (fun _ => hx) (fun _ => keeps_ite (fun _ => keeps_noteForeign _ _ ?_) (fun _ => keeps_takeKind _ _ _ _ _ hx))
  exact keeps_ite (fun _ => hx) (fun _ => keeps_owe _ _ _ _ hx)

theorem keeps_arriveNow {P : StatePart → Bool} {σ : State} (s : State) (q : Nat) (f : Frame) (hσ : Keeps P σ s)
    (hp : covers P [.now, .regs, .memory, .slots, .beat, .units, .cores, .upd, .tier, .forager, .mods, .ports, .casc, .host, .test] := by exact hp.sub rfl) :
    Keeps P σ (State.arriveNow s q f) := by
  unfold State.arriveNow
  repeat' first
    | (with_reducible show covers P _; exact hp.sub rfl) | with_reducible assumption | with_reducible apply keeps_arrive

theorem keeps_applyDataFrame {P : StatePart → Bool} {σ : State} (q : Nat) (f : Frame) (s : State) (hσ : Keeps P σ s)
    (hp : covers P [.now, .regs, .memory, .slots, .beat, .units, .cores, .upd, .tier, .forager, .mods, .ports, .casc, .host, .test] := by exact hp.sub rfl) :
    Keeps P σ (applyDataFrame q f s) := by
  unfold applyDataFrame
  repeat' first
    | (with_reducible show covers P _; exact hp.sub rfl) | with_reducible refine keeps_ite (fun _ => ?_) (fun _ => ?_)
    | with_reducible assumption | with_reducible apply keeps_arriveNow

theorem keeps_applyReduceFrame {P : StatePart → Bool} {σ : State} (q : Nat) (f : Frame) (s : State) (hσ : Keeps P σ s)
    (hp : covers P [.now, .regs, .memory, .slots, .beat, .units, .cores, .upd, .tier, .forager, .mods, .ports, .casc, .host, .test] := by exact hp.sub rfl) :
    Keeps P σ (applyReduceFrame q f s) := by
  unfold applyReduceFrame
  repeat' first
    | (with_reducible show covers P _; exact hp.sub rfl) | with_reducible refine keeps_ite (fun _ => ?_) (fun _ => ?_)
    | with_reducible assumption | with_reducible apply keeps_arriveNow

theorem keeps_applyAck {P : StatePart → Bool} {σ : State} (q : Nat) (f : Frame) (s : State) (hσ : Keeps P σ s)
    (hp : covers P [.now, .regs, .memory, .slots, .beat, .units, .cores, .upd, .tier, .forager, .mods, .ports, .casc, .host, .test] := by exact hp.sub rfl) :
    Keeps P σ (applyAck q f s) := by
  unfold applyAck
  repeat' first
    | (with_reducible show covers P _; exact hp.sub rfl) | with_reducible refine keeps_ite (fun _ => ?_) (fun _ => ?_)
    | with_reducible assumption | with_reducible apply keeps_arriveNow

theorem keeps_applyNak {P : StatePart → Bool} {σ : State} (q : Nat) (f : Frame) (s : State) (hσ : Keeps P σ s)
    (hp : covers P [.now, .regs, .memory, .slots, .beat, .units, .cores, .upd, .tier, .forager, .mods, .ports, .casc, .host, .test] := by exact hp.sub rfl) :
    Keeps P σ (applyNak q f s) := by
  unfold applyNak
  repeat' first
    | (with_reducible show covers P _; exact hp.sub rfl) | with_reducible refine keeps_ite (fun _ => ?_) (fun _ => ?_)
    | with_reducible assumption | with_reducible apply keeps_arriveNow

theorem keeps_applyCredit {P : StatePart → Bool} {σ : State} (q : Nat) (f : Frame) (s : State) (hσ : Keeps P σ s)
    (hp : covers P [.now, .regs, .memory, .slots, .beat, .units, .cores, .upd, .tier, .forager, .mods, .ports, .casc, .host, .test] := by exact hp.sub rfl) :
    Keeps P σ (applyCredit q f s) := by
  unfold applyCredit
  repeat' first
    | (with_reducible show covers P _; exact hp.sub rfl) | with_reducible refine keeps_ite (fun _ => ?_) (fun _ => ?_)
    | with_reducible assumption | with_reducible apply keeps_arriveNow

theorem keeps_applyIdent {P : StatePart → Bool} {σ : State} (q : Nat) (f : Frame) (s : State) (hσ : Keeps P σ s)
    (hp : covers P [.now, .regs, .memory, .slots, .beat, .units, .cores, .upd, .tier, .forager, .mods, .ports, .casc, .host, .test] := by exact hp.sub rfl) :
    Keeps P σ (applyIdent q f s) := by
  unfold applyIdent
  repeat' first
    | (with_reducible show covers P _; exact hp.sub rfl) | with_reducible refine keeps_ite (fun _ => ?_) (fun _ => ?_)
    | with_reducible assumption | with_reducible apply keeps_arriveNow

theorem keeps_applyProbe {P : StatePart → Bool} {σ : State} (q : Nat) (f : Frame) (roundTrip : Nat) (s : State) (hσ : Keeps P σ s)
    (hp : covers P [.now, .regs, .memory, .slots, .beat, .units, .cores, .upd, .tier, .forager, .mods, .ports, .casc, .host, .test] := by exact hp.sub rfl) :
    Keeps P σ (applyProbe q f roundTrip s) := by
  unfold applyProbe
  repeat' first
    | (with_reducible show covers P _; exact hp.sub rfl) | with_reducible refine keeps_ite (fun _ => ?_) (fun _ => ?_)
    | with_reducible assumption | with_reducible apply keeps_arrive

theorem keeps_applyCreditReturn {P : StatePart → Bool} {σ : State} (q : Nat) (s : State) (hσ : Keeps P σ s)
    (hp : covers P [.now, .regs, .memory, .slots, .beat, .units, .cores, .upd, .tier, .forager, .mods, .ports, .casc, .host, .test] := by exact hp.sub rfl) :
    Keeps P σ (applyCreditReturn q s) := by
  unfold applyCreditReturn
  refine keeps_ite (fun _ => hσ) (fun _ => ?_)
  dsimp only
  refine keeps_returnCredit _ _ ?_
  exact keeps_ite (fun _ => keeps_drainIntake _ _ _ hσ) (fun _ => keeps_foldl (fun _ _ _ hb => keeps_drainHeld _ _ _ _ hb) hσ)

theorem keeps_applyPlain {P : StatePart → Bool} {σ : State} (q : Nat) (f : Frame) (s : State) (hσ : Keeps P σ s)
    (hp : covers P [.now, .regs, .memory, .slots, .beat, .units, .cores, .upd, .tier, .forager, .mods, .ports, .casc, .host, .test] := by exact hp.sub rfl) :
    Keeps P σ (applyPlain q f s) := by
  unfold applyPlain
  repeat' first
    | (with_reducible show covers P _; exact hp.sub rfl) | with_reducible refine keeps_ite (fun _ => ?_) (fun _ => ?_)
    | with_reducible assumption | with_reducible apply keeps_arriveNow

theorem keeps_applyStageM {P : StatePart → Bool} {σ : State} (q : Nat) (f : Frame) (s : State) (hσ : Keeps P σ s)
    (hp : covers P [.now, .regs, .memory, .slots, .beat, .units, .cores, .upd, .tier, .forager, .mods, .ports, .casc, .host, .test] := by exact hp.sub rfl) :
    Keeps P σ (applyStageM q f s) := by
  unfold applyStageM
  repeat' first
    | (with_reducible show covers P _; exact hp.sub rfl) | with_reducible refine keeps_ite (fun _ => ?_) (fun _ => ?_)
    | with_reducible assumption | with_reducible apply keeps_arriveNow

theorem keeps_applyStageW {P : StatePart → Bool} {σ : State} (q : Nat) (f : Frame) (s : State) (hσ : Keeps P σ s)
    (hp : covers P [.now, .regs, .memory, .slots, .beat, .units, .cores, .upd, .tier, .forager, .mods, .ports, .casc, .host, .test] := by exact hp.sub rfl) :
    Keeps P σ (applyStageW q f s) := by
  unfold applyStageW
  repeat' first
    | (with_reducible show covers P _; exact hp.sub rfl) | with_reducible refine keeps_ite (fun _ => ?_) (fun _ => ?_)
    | with_reducible assumption | with_reducible apply keeps_arriveNow

theorem keeps_applyFence {P : StatePart → Bool} {σ : State} (q : Nat) (f : Frame) (s : State) (hσ : Keeps P σ s)
    (hp : covers P [.now, .regs, .memory, .slots, .beat, .units, .cores, .upd, .tier, .forager, .mods, .ports, .casc, .host, .test] := by exact hp.sub rfl) :
    Keeps P σ (applyFence q f s) := by
  unfold applyFence
  repeat' first
    | (with_reducible show covers P _; exact hp.sub rfl) | with_reducible refine keeps_ite (fun _ => ?_) (fun _ => ?_)
    | with_reducible assumption | with_reducible apply keeps_arriveNow

theorem keeps_applyCopy {P : StatePart → Bool} {σ : State} (q : Nat) (f : Frame) (s : State) (hσ : Keeps P σ s)
    (hp : covers P [.now, .regs, .memory, .slots, .beat, .units, .cores, .upd, .tier, .forager, .mods, .ports, .casc, .host, .test] := by exact hp.sub rfl) :
    Keeps P σ (applyCopy q f s) := by
  unfold applyCopy
  repeat' first
    | (with_reducible show covers P _; exact hp.sub rfl) | with_reducible refine keeps_ite (fun _ => ?_) (fun _ => ?_)
    | with_reducible assumption | with_reducible apply keeps_arriveNow

theorem keeps_applyCopyRequest {P : StatePart → Bool} {σ : State} (q : Nat) (f : Frame) (s : State) (hσ : Keeps P σ s)
    (hp : covers P [.now, .regs, .memory, .slots, .beat, .units, .cores, .upd, .tier, .forager, .mods, .ports, .casc, .host, .test] := by exact hp.sub rfl) :
    Keeps P σ (applyCopyRequest q f s) := by
  unfold applyCopyRequest
  repeat' first
    | (with_reducible show covers P _; exact hp.sub rfl) | with_reducible refine keeps_ite (fun _ => ?_) (fun _ => ?_)
    | with_reducible assumption | with_reducible apply keeps_arriveNow

theorem keeps_applyVerdictMsg {P : StatePart → Bool} {σ : State} (q : Nat) (f : Frame) (residence t : Nat) (s : State) (hσ : Keeps P σ s)
    (hp : covers P [.now, .regs, .memory, .slots, .beat, .units, .cores, .upd, .tier, .forager, .mods, .ports, .casc, .host, .test] := by exact hp.sub rfl) :
    Keeps P σ (applyVerdictMsg q f residence t s) := by
  unfold applyVerdictMsg
  repeat' first
    | (with_reducible show covers P _; exact hp.sub rfl) | split | with_reducible assumption | with_reducible apply keeps_arrive

theorem keeps_applyReport {P : StatePart → Bool} {σ : State} (q : Nat) (f : Frame) (t : Nat) (s : State) (hσ : Keeps P σ s)
    (hp : covers P [.now, .regs, .memory, .slots, .beat, .units, .cores, .upd, .tier, .forager, .mods, .ports, .casc, .host, .test] := by exact hp.sub rfl) :
    Keeps P σ (applyReport q f t s) := by
  unfold applyReport
  repeat' first
    | (with_reducible show covers P _; exact hp.sub rfl) | with_reducible refine keeps_ite (fun _ => ?_) (fun _ => ?_)
    | with_reducible assumption | with_reducible apply keeps_arrive

theorem keeps_applyJoin {P : StatePart → Bool} {σ : State} (q : Nat) (f : Frame) (t : Nat) (s : State) (hσ : Keeps P σ s)
    (hp : covers P [.now, .regs, .memory, .slots, .beat, .units, .cores, .upd, .tier, .forager, .mods, .ports, .casc, .host, .test] := by exact hp.sub rfl) :
    Keeps P σ (applyJoin q f t s) := by
  unfold applyJoin
  repeat' first
    | (with_reducible show covers P _; exact hp.sub rfl) | with_reducible refine keeps_ite (fun _ => ?_) (fun _ => ?_)
    | with_reducible assumption | with_reducible apply keeps_arrive

theorem keeps_applySyncResult {P : StatePart → Bool} {σ : State} (q : Nat) (f : Frame) (t : Nat) (s : State) (hσ : Keeps P σ s)
    (hp : covers P [.now, .regs, .memory, .slots, .beat, .units, .cores, .upd, .tier, .forager, .mods, .ports, .casc, .host, .test] := by exact hp.sub rfl) :
    Keeps P σ (applySyncResult q f t s) := by
  unfold applySyncResult
  repeat' first
    | (with_reducible show covers P _; exact hp.sub rfl) | with_reducible refine keeps_ite (fun _ => ?_) (fun _ => ?_)
    | with_reducible assumption | with_reducible apply keeps_arrive

theorem keeps_applyAdmitDevice {P : StatePart → Bool} {σ : State} (q : Nat) (f : Frame) (t : Nat) (s : State) (hσ : Keeps P σ s)
    (hp : covers P [.now, .regs, .memory, .slots, .beat, .units, .cores, .upd, .tier, .forager, .mods, .ports, .casc, .host, .test] := by exact hp.sub rfl) :
    Keeps P σ (applyAdmitDevice q f t s) := by
  unfold applyAdmitDevice
  repeat' first
    | (with_reducible show covers P _; exact hp.sub rfl) | with_reducible refine keeps_ite (fun _ => ?_) (fun _ => ?_)
    | with_reducible assumption | with_reducible apply keeps_arrive

theorem keeps_applyReady {P : StatePart → Bool} {σ : State} (q : Nat) (f : Frame) (t : Nat) (s : State) (hσ : Keeps P σ s)
    (hp : covers P [.now, .regs, .memory, .slots, .beat, .units, .cores, .upd, .tier, .forager, .mods, .ports, .casc, .host, .test] := by exact hp.sub rfl) :
    Keeps P σ (applyReady q f t s) := by
  unfold applyReady
  repeat' first
    | (with_reducible show covers P _; exact hp.sub rfl) | with_reducible refine keeps_ite (fun _ => ?_) (fun _ => ?_)
    | with_reducible assumption | with_reducible apply keeps_arrive

theorem keeps_applyControlMessageReceipt {P : StatePart → Bool} {σ : State} (q : Nat) (f : Frame) (residence t : Nat) (s : State) (hσ : Keeps P σ s)
    (hp : covers P [.now, .regs, .memory, .slots, .beat, .units, .cores, .upd, .tier, .forager, .mods, .ports, .casc, .host, .test] := by exact hp.sub rfl) :
    Keeps P σ (applyControlMessageReceipt q f residence t s) := by
  unfold applyControlMessageReceipt
  repeat' first
    | (with_reducible show covers P _; exact hp.sub rfl) | split | with_reducible assumption | with_reducible apply keeps_arrive

/-! ### Eszoja -/

theorem keeps_random {P : StatePart → Bool} {σ : State} (s : State) (n : Nat) (hσ : Keeps P σ s) :
    Keeps P σ (State.random s n).2 := by
  unfold State.random
  repeat' first
    | (intro (x : _ × State); refine (fun (hx : Keeps P σ x.2) => ?_) ?_; (on_goal 1 => clear_value x); (on_goal 2 => dsimp only [x]))
    | lift_lets | with_reducible assumption | with_reducible apply keeps_draw

theorem keeps_showEsz {P : StatePart → Bool} {σ : State} (s : State) (hσ : Keeps P σ s)
    (hp : covers P [.regs] := by exact hp.sub rfl) :
    Keeps P σ (State.showEsz s) := by
  unfold State.showEsz
  repeat' first
    | (with_reducible show covers P _; exact hp.sub rfl)
    | (intro (x : State); refine (fun (hx : Keeps P σ x) => ?_) ?_; (on_goal 1 => clear_value x); (on_goal 2 => dsimp only [x]))
    | (intro x; clear_value x) | lift_lets | with_reducible assumption | with_reducible apply keeps_setBit
    | with_reducible apply keeps_setFld | with_reducible apply keeps_setReg

theorem keeps_setNonce {P : StatePart → Bool} {σ : State} (s : State) (n : Option Bytes) (hσ : Keeps P σ s)
    (hp : covers P [.regs, .esz] := by exact hp.sub rfl) :
    Keeps P σ (State.setNonce s n) := by
  unfold State.setNonce
  exact keeps_foldl (fun _ _ _ hb => keeps_setReg _ _ _ hb) (keeps_esz hσ)

theorem keeps_setDebug {P : StatePart → Bool} {σ : State} (s : State) (n : Nat) (hσ : Keeps P σ s)
    (hp : covers P [.regs, .esz] := by exact hp.sub rfl) :
    Keeps P σ (State.setDebug s n) := by
  unfold State.setDebug
  repeat' first
    | (with_reducible show covers P _; exact hp.sub rfl) | with_reducible assumption | with_reducible apply keeps_setFld
    | ((conv in (State.mk ..) => skip); with_reducible apply keeps_esz)
    | (refine UpdOk.mk ?_; intro p; cases p <;> first | (apply Or.inl; apply hp.get; rfl) | exact Or.inr rfl)

theorem keeps_deriveIdentity {P : StatePart → Bool} {σ : State} (s : State) (f : FwSt) (hσ : Keeps P σ s)
    (hp : covers P [.regs, .beat, .esz] := by exact hp.sub rfl) :
    Keeps P σ (State.deriveIdentity s f) := by
  unfold State.deriveIdentity
  dsimp only
  have h : Keeps P σ s.draw.2 := keeps_draw hσ
  exact keeps_ite (fun _ => keeps_setPair _ _ _ (keeps_esz (t := s.draw.2) h))
    (fun _ => keeps_logEntry _ _ (keeps_setPair _ _ _ (keeps_esz (t := s.draw.2) h)))

theorem keeps_runFw {P : StatePart → Bool} {σ : State} (s : State) (f : FwSt) (hσ : Keeps P σ s)
    (hp : covers P [.regs, .esz] := by exact hp.sub rfl) :
    Keeps P σ (State.runFw s f) := by
  unfold State.runFw
  repeat' first
    | (with_reducible show covers P _; exact hp.sub rfl) | with_reducible assumption | with_reducible apply keeps_setFld
    | with_reducible apply keeps_showEsz | ((conv in (State.mk ..) => skip); with_reducible apply keeps_esz)
    | (refine UpdOk.mk ?_; intro p; cases p <;> first | (apply Or.inl; apply hp.get; rfl) | exact Or.inr rfl)

theorem keeps_loadFuses {P : StatePart → Bool} {σ : State} (s : State) (hσ : Keeps P σ s)
    (hp : covers P [.esz] := by exact hp.sub rfl) :
    Keeps P σ (State.loadFuses s) := by
  unfold State.loadFuses
  split
  · exact hσ
  · rename_i h
    simp only [Bool.or_eq_true, Bool.not_eq_true', not_or, Bool.not_eq_false, List.isEmpty_iff] at h
    refine keeps_trans hσ (keeps_fuses _ _ ⟨Nat.le_refl _, Nat.le_refl _, Nat.le_refl _, fun _ h => h, fun h => h, fun i x hx => ?_⟩)
    rw [h.1] at hx
    simp at hx

theorem keeps_bootFw {P : StatePart → Bool} {σ : State} (s : State) (hσ : Keeps P σ s)
    (hp : covers P [.regs, .slots, .beat, .units, .cores, .upd, .tier, .forager, .mods, .ports, .casc, .host, .test, .esz] := by exact hp.sub rfl) :
    Keeps P σ (State.bootFw s) := by
  unfold State.bootFw
  repeat' first
    | (with_reducible show covers P _; exact hp.sub rfl)
    | (intro (x : State); refine (fun (hx : Keeps P σ x) => ?_) ?_; (on_goal 1 => clear_value x); (on_goal 2 => dsimp only [x]))
    | lift_lets | with_reducible refine keeps_ite (fun _ => ?_) (fun _ => ?_) | with_reducible assumption
    | with_reducible apply keeps_deriveIdentity | with_reducible apply keeps_logEntry | with_reducible apply keeps_raise
    | with_reducible apply keeps_runFw | with_reducible apply keeps_setFld | split

theorem keeps_blow {P : StatePart → Bool} {σ : State} (s : State) (e : EszSt) (hσ : Keeps P σ s) (hf : fusesKept s { s with esz := e })
    (hp : covers P [.regs, .beat, .esz] := by exact hp.sub rfl) : Keeps P σ (s.blow e) :=
  keeps_logEntry _ _ (keeps_trans hσ (keeps_fuses s e hf))

theorem keeps_rollEsz {P : StatePart → Bool} {σ : State} (s : State) (f : FwSt) (hσ : Keeps P σ s)
    (hp : covers P [.regs, .beat, .esz] := by exact hp.sub rfl) :
    Keeps P σ (State.rollEsz s f) := by
  unfold State.rollEsz
  exact keeps_ite (fun hc => keeps_blow _ _ hσ ⟨Nat.le_of_lt hc.2, Nat.le_refl _, Nat.le_refl _, fun _ h => h, fun h => h, fun _ _ h => h⟩)
    (fun _ => hσ)

theorem keeps_rollHub {P : StatePart → Bool} {σ : State} (s : State) (f : FwSt) (hσ : Keeps P σ s)
    (hp : covers P [.regs, .beat, .esz] := by exact hp.sub rfl) :
    Keeps P σ (State.rollHub s f) := by
  unfold State.rollHub
  exact keeps_ite (fun hc => keeps_blow _ _ hσ ⟨Nat.le_refl _, Nat.le_of_lt hc.2, Nat.le_refl _, fun _ h => h, fun h => h, fun _ _ h => h⟩)
    (fun _ => hσ)

theorem keeps_dropVendor {P : StatePart → Bool} {σ : State} (s : State) (f : FwSt) (hσ : Keeps P σ s)
    (hp : covers P [.regs, .beat, .esz] := by exact hp.sub rfl) :
    Keeps P σ (State.dropVendor s f) := by
  unfold State.dropVendor
  exact keeps_ite (fun _ => keeps_blow _ _ hσ
    ⟨Nat.le_refl _, Nat.le_refl _, Nat.le_refl _, fun _ h => List.mem_append_left _ h, fun h => h, fun _ _ h => h⟩) (fun _ => hσ)

theorem keeps_rollFuses {P : StatePart → Bool} {σ : State} (s : State) (hσ : Keeps P σ s)
    (hp : covers P [.regs, .beat, .esz] := by exact hp.sub rfl) :
    Keeps P σ (State.rollFuses s) := by
  unfold State.rollFuses
  repeat' first
    | (with_reducible show covers P _; exact hp.sub rfl) | with_reducible refine keeps_ite (fun _ => ?_) (fun _ => ?_)
    | with_reducible assumption | with_reducible apply keeps_dropVendor | with_reducible apply keeps_rollEsz
    | with_reducible apply keeps_rollHub | with_reducible apply keeps_showEsz | split
    | ((conv in (State.mk ..) => skip); with_reducible apply keeps_esz)
    | (refine UpdOk.mk ?_; intro p; cases p <;> first | (apply Or.inl; apply hp.get; rfl) | exact Or.inr rfl)

theorem keeps_eszBegin {P : StatePart → Bool} {σ : State} (s : State) (cmd code : Nat) (hσ : Keeps P σ s)
    (hp : covers P [.regs, .beat, .esz] := by exact hp.sub rfl) :
    Keeps P σ (State.eszBegin s cmd code) := by
  unfold State.eszBegin
  dsimp only
  have h : Keeps P σ ((State.setBit { s with esz := { s.esz with busy := some (cmd, code) } } Reg.eszStatus 4 true).setBit Reg.eszResult 24 false) :=
    keeps_setBit _ _ _ _ (keeps_setBit _ _ _ _ (keeps_esz hσ))
  exact keeps_ite (fun _ => h) (fun _ => keeps_logEntry _ _ h)

theorem keeps_applyGetNonce {P : StatePart → Bool} {σ : State} (s : State) (hσ : Keeps P σ s)
    (hp : covers P [.regs, .beat, .esz] := by exact hp.sub rfl) :
    Keeps P σ (applyGetNonce s) := by
  unfold applyGetNonce
  repeat' first
    | (with_reducible show covers P _; exact hp.sub rfl)
    | (intro (x : _ × State); refine (fun (hx : Keeps P σ x.2) => ?_) ?_; (on_goal 1 => clear_value x); (on_goal 2 => dsimp only [x]))
    | lift_lets | with_reducible refine keeps_ite (fun _ => ?_) (fun _ => ?_) | with_reducible assumption
    | with_reducible apply keeps_eszBegin | with_reducible apply keeps_random | with_reducible apply keeps_setNonce

theorem getD_setAt_ne {α : Type} (l : List α) {i j : Nat} (v d : α) (h : j ≠ i) : (setAt l i v).getD j d = l.getD j d := by
  induction l generalizing i j with
  | nil => simp [setAt]
  | cons x xs ih =>
    cases i with
    | zero =>
      cases j with
      | zero => exact absurd rfl h
      | succ j => rfl
    | succ i =>
      cases j with
      | zero => rfl
      | succ j => exact ih (by omega)

/-- The effect of a request, which only blows fuses where its OP's precondition holds. -/
theorem keeps_requestEffect {P : StatePart → Bool} {σ : State} (s : State) (b : Bytes) (hσ : Keeps P σ s)
    (h1 : reqOp b = 1 → s.esz.keyHash.getD (2 + reqArg b) none = none) (h3 : reqOp b = 3 → s.esz.rbFing ≤ fieldAt b 0x60 4)
    (hp : covers P [.regs, .beat, .esz] := by exact hp.sub rfl) :
    Keeps P σ (s.requestEffect b) := by
  unfold State.requestEffect
  dsimp only
  split
  · rename_i h
    refine keeps_logEntry _ _ (keeps_trans hσ (keeps_fuses s _ ⟨Nat.le_refl _, Nat.le_refl _, Nat.le_refl _, fun _ h => h, fun h => h, ?_⟩))
    intro i x hx
    by_cases hi : i = 2 + reqArg b
    · rw [hi, h1 h] at hx; cases hx
    · rw [getD_setAt_ne _ _ _ hi]; exact hx
  · refine keeps_logEntry _ _ (keeps_trans hσ (keeps_fuses s _ ⟨Nat.le_refl _, Nat.le_refl _, Nat.le_refl _, fun e h => ?_, fun h => h, fun _ _ h => h⟩))
    dsimp only
    split
    · exact h
    · exact List.mem_append_left _ h
  · rename_i h
    exact keeps_logEntry _ _ (keeps_trans hσ (keeps_fuses s _ ⟨Nat.le_refl _, Nat.le_refl _, h3 h, fun _ h => h, fun h => h, fun _ _ h => h⟩))
  · exact keeps_logEntry _ _ (keeps_trans hσ (keeps_fuses s _ ⟨Nat.le_refl _, Nat.le_refl _, Nat.le_refl _, fun _ h => h, fun _ => rfl, fun _ _ h => h⟩))
  · exact keeps_logEntry _ _ (keeps_setDebug _ _ hσ)
  · exact keeps_logEntry _ _ (keeps_setBit _ _ _ _ (keeps_esz (keeps_logEntry _ _ (keeps_setDebug _ _ hσ))))
  · exact hσ

theorem keeps_attempt {P : StatePart → Bool} {σ : State} (s : State) (hσ : Keeps P σ s)
    (hp : covers P [.regs, .beat, .tier, .esz] := by exact hp.sub rfl) :
    Keeps P σ (State.attempt s) := by
  have e : ∀ (u : State), (u.setNonce none).esz.keyHash = u.esz.keyHash ∧ (u.setNonce none).esz.rbFing = u.esz.rbFing := by
    intro u
    unfold State.setNonce
    dsimp only
    generalize List.range 8 = l
    have h : ∀ (l : List Nat) (v : State), (l.foldl (fun (s : State) (i : Nat) => s.setReg (Reg.eszNonce i) 0) v).esz = v.esz := by
      intro l
      induction l with
      | nil => exact fun _ => rfl
      | cons a as ih => exact fun v => ih _
    exact ⟨by rw [h], by rw [h]⟩
  unfold State.attempt
  dsimp only
  have hl := keeps_leaveHold s hσ
  generalize s.leaveHold = u at hl
  have hn := keeps_setNonce u none hl
  split
  · exact keeps_eszBegin _ _ _ hn
  rename_i hc
  have ha : u.requestAllowed u.request = true := by
    unfold State.requestCode at hc
    split at hc
    · cases hc
    · split at hc
      · cases hc
      · split at hc
        · cases hc
        · split at hc
          · assumption
          · cases hc
  refine keeps_eszBegin _ _ _ ?_
  refine keeps_requestEffect _ _ hn (fun h1 => ?_) (fun h3 => ?_)
  · rw [(e u).1]
    unfold State.requestAllowed at ha
    rw [h1] at ha
    simp only [Bool.and_eq_true, decide_eq_true_eq] at ha
    have := List.find?_some ha.2
    simpa using this
  · rw [(e u).2]
    unfold State.requestAllowed at ha
    rw [h3] at ha
    simp only [Bool.and_eq_true, decide_eq_true_eq] at ha
    omega

theorem keeps_attemptOp {P : StatePart → Bool} {σ : State} (s : State) (op : Nat) (hσ : Keeps P σ s)
    (hp : covers P [.regs, .beat, .tier, .esz] := by exact hp.sub rfl) :
    Keeps P σ (State.attemptOp s op) := by
  unfold State.attemptOp
  repeat' first
    | (with_reducible show covers P _; exact hp.sub rfl) | with_reducible refine keeps_ite (fun _ => ?_) (fun _ => ?_)
    | with_reducible assumption | with_reducible apply keeps_attempt

theorem keeps_applySignedRequest {P : StatePart → Bool} {σ : State} (s : State) (hσ : Keeps P σ s)
    (hp : covers P [.regs, .beat, .tier, .esz] := by exact hp.sub rfl) :
    Keeps P σ (applySignedRequest s) := by
  unfold applySignedRequest
  repeat' first
    | (with_reducible show covers P _; exact hp.sub rfl) | with_reducible refine keeps_ite (fun _ => ?_) (fun _ => ?_)
    | with_reducible assumption | with_reducible apply keeps_attempt

theorem keeps_applyProvisionKey {P : StatePart → Bool} {σ : State} (s : State) (hσ : Keeps P σ s)
    (hp : covers P [.regs, .beat, .tier, .esz] := by exact hp.sub rfl) :
    Keeps P σ (applyProvisionKey s) := by
  unfold applyProvisionKey
  repeat' first
    | (with_reducible show covers P _; exact hp.sub rfl) | with_reducible assumption | with_reducible apply keeps_attemptOp

theorem keeps_applyRevokeKey {P : StatePart → Bool} {σ : State} (s : State) (hσ : Keeps P σ s)
    (hp : covers P [.regs, .beat, .tier, .esz] := by exact hp.sub rfl) :
    Keeps P σ (applyRevokeKey s) := by
  unfold applyRevokeKey
  repeat' first
    | (with_reducible show covers P _; exact hp.sub rfl) | with_reducible assumption | with_reducible apply keeps_attemptOp

theorem keeps_applyAdvanceFing {P : StatePart → Bool} {σ : State} (s : State) (hσ : Keeps P σ s)
    (hp : covers P [.regs, .beat, .tier, .esz] := by exact hp.sub rfl) :
    Keeps P σ (applyAdvanceFing s) := by
  unfold applyAdvanceFing
  repeat' first
    | (with_reducible show covers P _; exact hp.sub rfl) | with_reducible assumption | with_reducible apply keeps_attemptOp

theorem keeps_applyBlockVendorDebug {P : StatePart → Bool} {σ : State} (s : State) (hσ : Keeps P σ s)
    (hp : covers P [.regs, .beat, .tier, .esz] := by exact hp.sub rfl) :
    Keeps P σ (applyBlockVendorDebug s) := by
  unfold applyBlockVendorDebug
  repeat' first
    | (with_reducible show covers P _; exact hp.sub rfl) | with_reducible assumption | with_reducible apply keeps_attemptOp

theorem keeps_applyDebugL1 {P : StatePart → Bool} {σ : State} (s : State) (hσ : Keeps P σ s)
    (hp : covers P [.regs, .beat, .tier, .esz] := by exact hp.sub rfl) :
    Keeps P σ (applyDebugL1 s) := by
  unfold applyDebugL1
  repeat' first
    | (with_reducible show covers P _; exact hp.sub rfl) | with_reducible assumption | with_reducible apply keeps_attemptOp

theorem keeps_applyDebugL2 {P : StatePart → Bool} {σ : State} (s : State) (hσ : Keeps P σ s)
    (hp : covers P [.regs, .beat, .tier, .esz] := by exact hp.sub rfl) :
    Keeps P σ (applyDebugL2 s) := by
  unfold applyDebugL2
  repeat' first
    | (with_reducible show covers P _; exact hp.sub rfl) | with_reducible assumption | with_reducible apply keeps_attemptOp

theorem keeps_applyDebugLock {P : StatePart → Bool} {σ : State} (s : State) (hσ : Keeps P σ s)
    (hp : covers P [.regs, .beat, .esz] := by exact hp.sub rfl) :
    Keeps P σ (applyDebugLock s) := by
  unfold applyDebugLock
  repeat' first
    | (with_reducible show covers P _; exact hp.sub rfl) | with_reducible refine keeps_ite (fun _ => ?_) (fun _ => ?_)
    | with_reducible assumption | with_reducible apply keeps_eszBegin | with_reducible apply keeps_setDebug

theorem keeps_applyFwUpdate {P : StatePart → Bool} {σ : State} (s : State) (hσ : Keeps P σ s)
    (hp : covers P [.regs, .beat, .tier, .esz] := by exact hp.sub rfl) :
    Keeps P σ (applyFwUpdate s) := by
  unfold applyFwUpdate
  repeat' first
    | (with_reducible show covers P _; exact hp.sub rfl)
    | (intro (x : State); refine (fun (hx : Keeps P σ x) => ?_) ?_; (on_goal 1 => clear_value x); (on_goal 2 => dsimp only [x]))
    | (intro (x : _ × State); refine (fun (hx : Keeps P σ x.2) => ?_) ?_; (on_goal 1 => clear_value x); (on_goal 2 => dsimp only [x]))
    | (intro x; refine (fun (hf : ∀ (u : State) v (b : State), Keeps P b u → Keeps P b (x u v)) => ?_) ?_; (on_goal 1 => clear_value x); (on_goal 2 => (intro _ _ _ _; dsimp only [x])))
    | (intro x; clear_value x) | lift_lets | with_reducible refine keeps_ite (fun _ => ?_) (fun _ => ?_)
    | with_reducible assumption | with_reducible apply hf | with_reducible apply keeps_draw | with_reducible apply keeps_eszBegin
    | with_reducible apply keeps_leaveHold | split | ((conv in (State.mk ..) => skip); with_reducible apply keeps_esz)
    | (refine UpdOk.mk ?_; intro p; cases p <;> first | (apply Or.inl; apply hp.get; rfl) | exact Or.inr rfl)

theorem keeps_applyEszCmdDone {P : StatePart → Bool} {σ : State} (s : State) (hσ : Keeps P σ s)
    (hp : covers P [.regs, .esz] := by exact hp.sub rfl) :
    Keeps P σ (applyEszCmdDone s) := by
  unfold applyEszCmdDone
  split
  · exact hσ
  · exact keeps_showEsz _ (keeps_setBit _ _ _ _ (keeps_setReg _ _ _ (keeps_esz hσ)))

/-! ### Power -/

theorem keeps_showThrottle {P : StatePart → Bool} {σ : State} (s before : State) (hσ : Keeps P σ s)
    (hp : covers P [.regs] := by exact hp.sub rfl) :
    Keeps P σ (State.showThrottle s before) := by
  unfold State.showThrottle
  repeat' first
    | (with_reducible show covers P _; exact hp.sub rfl)
    | (intro (x : State); refine (fun (hx : Keeps P σ x) => ?_) ?_; (on_goal 1 => clear_value x); (on_goal 2 => dsimp only [x]))
    | (intro x; clear_value x) | lift_lets | with_reducible refine keeps_ite (fun _ => ?_) (fun _ => ?_)
    | with_reducible assumption | with_reducible apply keeps_setBit

theorem keeps_applyPowerSample {P : StatePart → Bool} {σ : State} (p : PowerSample) (s : State) (hσ : Keeps P σ s)
    (hp : covers P [.regs, .beat] := by exact hp.sub rfl) :
    Keeps P σ (applyPowerSample p s) := by
  unfold applyPowerSample
  repeat' first
    | (with_reducible show covers P _; exact hp.sub rfl)
    | (intro (x : State); refine (fun (hx : Keeps P σ x) => ?_) ?_; (on_goal 1 => clear_value x); (on_goal 2 => dsimp only [x]))
    | lift_lets | with_reducible refine keeps_ite (fun _ => ?_) (fun _ => ?_) | with_reducible assumption
    | with_reducible apply keeps_bumpPair | with_reducible apply keeps_logEntry | with_reducible apply keeps_setBit
    | with_reducible apply keeps_setFld | with_reducible apply keeps_setReg | with_reducible apply keeps_showThrottle

theorem keeps_logStepRaised {P : StatePart → Bool} {σ : State} (s : State) (hσ : Keeps P σ s)
    (hp : covers P [.regs, .slots, .beat, .units, .cores, .upd, .tier, .forager, .mods, .ports, .casc, .host, .test] := by exact hp.sub rfl) :
    Keeps P σ (State.logStepRaised s) := by
  unfold State.logStepRaised
  repeat' first
    | (with_reducible show covers P _; exact hp.sub rfl) | (intro x; clear_value x) | lift_lets
    | with_reducible refine keeps_ite (fun _ => ?_) (fun _ => ?_) | with_reducible assumption
    | with_reducible apply keeps_logEntry | with_reducible apply keeps_raiseBeat

theorem keeps_applyPowerStepUpdate {P : StatePart → Bool} {σ : State} (below : Bool) (s : State) (hσ : Keeps P σ s)
    (hp : covers P [.regs, .slots, .beat, .units, .cores, .upd, .tier, .forager, .mods, .ports, .casc, .host, .test] := by exact hp.sub rfl) :
    Keeps P σ (applyPowerStepUpdate below s) := by
  unfold applyPowerStepUpdate
  repeat' first
    | (with_reducible show covers P _; exact hp.sub rfl)
    | (intro (x : State); refine (fun (hx : Keeps P σ x) => ?_) ?_; (on_goal 1 => clear_value x); (on_goal 2 => dsimp only [x]))
    | (intro x; clear_value x) | lift_lets | with_reducible refine keeps_ite (fun _ => ?_) (fun _ => ?_)
    | with_reducible assumption | with_reducible apply keeps_logStepRaised | with_reducible apply keeps_setFld
    | with_reducible apply keeps_showThrottle

theorem keeps_setTherm {P : StatePart → Bool} {σ : State} (s : State) (n k : Nat) (hσ : Keeps P σ s)
    (hp : covers P [.regs, .beat] := by exact hp.sub rfl) :
    Keeps P σ (State.setTherm s n k) := by
  unfold State.setTherm
  repeat' first
    | (with_reducible show covers P _; exact hp.sub rfl)
    | (intro (x : State); refine (fun (hx : Keeps P σ x) => ?_) ?_; (on_goal 1 => clear_value x); (on_goal 2 => dsimp only [x]))
    | (intro x; clear_value x) | lift_lets | with_reducible refine keeps_ite (fun _ => ?_) (fun _ => ?_)
    | with_reducible assumption | with_reducible apply keeps_logEntry | with_reducible apply keeps_setFld

theorem keeps_readDie {P : StatePart → Bool} {σ : State} (s : State) (d : Nat) (r : Option Nat) (hσ : Keeps P σ s)
    (hp : covers P [.regs, .beat, .power] := by exact hp.sub rfl) :
    Keeps P σ (State.readDie s d r) := by
  unfold State.readDie
  repeat' first
    | (with_reducible show covers P _; exact hp.sub rfl)
    | (intro (x : State); refine (fun (hx : Keeps P σ x) => ?_) ?_; (on_goal 1 => clear_value x); (on_goal 2 => dsimp only [x]))
    | (intro x; clear_value x) | lift_lets | with_reducible refine keeps_ite (fun _ => ?_) (fun _ => ?_)
    | with_reducible assumption | with_reducible apply keeps_logEntry | with_reducible apply keeps_setBit
    | with_reducible apply keeps_setFld | with_reducible apply keeps_setTherm | split
    | ((conv in (State.mk ..) => skip); with_reducible apply keeps_upd)
    | (refine UpdOk.mk ?_; intro p; cases p <;> first | (apply Or.inl; apply hp.get; rfl) | exact Or.inr rfl)

theorem keeps_readDram {P : StatePart → Bool} {σ : State} (s : State) (n t : Nat) (hσ : Keeps P σ s)
    (hp : covers P [.regs, .beat, .power] := by exact hp.sub rfl) :
    Keeps P σ (State.readDram s n t) := by
  unfold State.readDram
  repeat' first
    | (with_reducible show covers P _; exact hp.sub rfl)
    | (intro (x : State); refine (fun (hx : Keeps P σ x) => ?_) ?_; (on_goal 1 => clear_value x); (on_goal 2 => dsimp only [x]))
    | (intro x; clear_value x) | lift_lets | with_reducible refine keeps_ite (fun _ => ?_) (fun _ => ?_)
    | with_reducible assumption | with_reducible apply keeps_logEntry | with_reducible apply keeps_setBit
    | with_reducible apply keeps_setFld | ((conv in (State.mk ..) => skip); with_reducible apply keeps_upd)
    | (refine UpdOk.mk ?_; intro p; cases p <;> first | (apply Or.inl; apply hp.get; rfl) | exact Or.inr rfl)

theorem keeps_trip {P : StatePart → Bool} {σ : State} (s : State) (u : UnitCode) (hσ : Keeps P σ s)
    (hp : covers P [.regs, .slots, .beat, .units, .cores, .upd, .tier, .forager, .mods, .ports, .casc, .host, .power, .test] := by exact hp.sub rfl) :
    Keeps P σ (State.trip s u) := by
  unfold State.trip
  repeat' first
    | (with_reducible show covers P _; exact hp.sub rfl) | with_reducible assumption | with_reducible apply keeps_raise
    | ((conv in (State.mk ..) => skip); with_reducible apply keeps_upd)
    | (refine UpdOk.mk ?_; intro p; cases p <;> first | (apply Or.inl; apply hp.get; rfl) | exact Or.inr rfl)

theorem keeps_applyThermalRead {P : StatePart → Bool} {σ : State} (temps : Temps) (s : State) (hσ : Keeps P σ s)
    (hp : covers P [.regs, .slots, .beat, .units, .cores, .upd, .tier, .forager, .mods, .ports, .casc, .host, .power, .test] := by exact hp.sub rfl) :
    Keeps P σ (applyThermalRead temps s) := by
  unfold applyThermalRead
  repeat' first
    | (with_reducible show covers P _; exact hp.sub rfl)
    | (intro (x : State); refine (fun (hx : Keeps P σ x) => ?_) ?_; (on_goal 1 => clear_value x); (on_goal 2 => dsimp only [x]))
    | lift_lets | with_reducible refine keeps_ite (fun _ => ?_) (fun _ => ?_) | with_reducible assumption
    | with_reducible apply keeps_readDie | with_reducible apply keeps_readDram | with_reducible apply keeps_showThrottle
    | with_reducible apply keeps_trip | with_reducible refine keeps_foldl (fun _ _ σ _ => ?_) ?_ | split

theorem keeps_applyThermalStepTick {P : StatePart → Bool} {σ : State} (die : Nat) (s : State) (hσ : Keeps P σ s)
    (hp : covers P [.regs, .beat] := by exact hp.sub rfl) :
    Keeps P σ (applyThermalStepTick die s) := by
  unfold applyThermalStepTick
  repeat' first
    | (with_reducible show covers P _; exact hp.sub rfl)
    | (intro (x : State); refine (fun (hx : Keeps P σ x) => ?_) ?_; (on_goal 1 => clear_value x); (on_goal 2 => dsimp only [x]))
    | (intro x; clear_value x) | lift_lets | with_reducible refine keeps_ite (fun _ => ?_) (fun _ => ?_)
    | with_reducible assumption | with_reducible apply keeps_setTherm | with_reducible apply keeps_showThrottle

theorem keeps_applyWakeStart {P : StatePart → Bool} {σ : State} (u : UnitId) (t : Nat) (s : State) (hσ : Keeps P σ s)
    (hp : covers P [.now, .regs, .units] := by exact hp.sub rfl) :
    Keeps P σ (applyWakeStart u t s) := by
  unfold applyWakeStart
  repeat' first
    | (with_reducible show covers P _; exact hp.sub rfl) | (intro x; clear_value x) | lift_lets
    | with_reducible refine keeps_ite (fun _ => ?_) (fun _ => ?_) | with_reducible assumption | with_reducible apply keeps_at
    | with_reducible apply keeps_setPower | split

theorem keeps_applyUnplannedWake {P : StatePart → Bool} {σ : State} (u : UnitId) (t : Nat) (s : State) (hσ : Keeps P σ s)
    (hp : covers P [.now, .regs, .units] := by exact hp.sub rfl) :
    Keeps P σ (applyUnplannedWake u t s) := by
  unfold applyUnplannedWake
  repeat' first
    | (with_reducible show covers P _; exact hp.sub rfl) | (intro x; clear_value x) | lift_lets
    | with_reducible refine keeps_ite (fun _ => ?_) (fun _ => ?_) | with_reducible assumption | with_reducible apply keeps_at
    | with_reducible apply keeps_bumpSat | with_reducible apply keeps_choosePower

theorem keeps_applyAutoHold {P : StatePart → Bool} {σ : State} (s : State) (hσ : Keeps P σ s)
    (hp : covers P [.regs, .tier] := by exact hp.sub rfl) :
    Keeps P σ (applyAutoHold s) := by
  unfold applyAutoHold
  repeat' first
    | (with_reducible show covers P _; exact hp.sub rfl) | with_reducible refine keeps_ite (fun _ => ?_) (fun _ => ?_)
    | with_reducible assumption | with_reducible apply keeps_enterHold

theorem keeps_applyHoldExit {P : StatePart → Bool} {σ : State} (s : State) (hσ : Keeps P σ s)
    (hp : covers P [.regs, .tier] := by exact hp.sub rfl) :
    Keeps P σ (applyHoldExit s) := by
  unfold applyHoldExit
  repeat' first
    | (with_reducible show covers P _; exact hp.sub rfl) | with_reducible assumption | with_reducible apply keeps_leaveHold

theorem keeps_applyDStateChange {P : StatePart → Bool} {σ : State} (p : HPort) (d3hot : Bool) (s : State) (hσ : Keeps P σ s)
    (hp : covers P [.regs, .tier] := by exact hp.sub rfl) :
    Keeps P σ (applyDStateChange p d3hot s) := by
  unfold applyDStateChange
  repeat' first
    | (with_reducible show covers P _; exact hp.sub rfl) | with_reducible refine keeps_ite (fun _ => ?_) (fun _ => ?_)
    | with_reducible assumption | with_reducible apply keeps_holdIfAlone | with_reducible apply keeps_setFld

theorem keeps_applyCrossingTimeout {P : StatePart → Bool} {σ : State} (d : Nat) (reader : Option (Req × Nat)) (s : State) (hσ : Keeps P σ s)
    (hp : covers P [.regs, .slots, .beat, .units, .cores, .upd, .tier, .forager, .mods, .ports, .casc, .host, .test] := by exact hp.sub rfl) :
    Keeps P σ (applyCrossingTimeout d reader s) := by
  unfold applyCrossingTimeout
  repeat' first
    | (with_reducible show covers P _; exact hp.sub rfl)
    | (intro (x : State); refine (fun (hx : Keeps P σ x) => ?_) ?_; (on_goal 1 => clear_value x); (on_goal 2 => dsimp only [x]))
    | lift_lets | with_reducible assumption | with_reducible apply keeps_crossTimeout | with_reducible apply keeps_emit | split

theorem keeps_applyPllUnlock {P : StatePart → Bool} {σ : State} (d : Nat) (s : State) (hσ : Keeps P σ s)
    (hp : covers P [.regs, .power] := by exact hp.sub rfl) :
    Keeps P σ (applyPllUnlock d s) := by
  unfold applyPllUnlock
  repeat' first
    | (with_reducible show covers P _; exact hp.sub rfl) | with_reducible refine keeps_ite (fun _ => ?_) (fun _ => ?_)
    | with_reducible assumption | with_reducible apply keeps_noteDomain | with_reducible apply keeps_setBit
    | ((conv in (State.mk ..) => skip); with_reducible apply keeps_upd)
    | (refine UpdOk.mk ?_; intro p; cases p <;> first | (apply Or.inl; apply hp.get; rfl) | exact Or.inr rfl)

theorem keeps_applyPllRelock {P : StatePart → Bool} {σ : State} (d : Nat) (s : State) (hσ : Keeps P σ s)
    (hp : covers P [.regs, .slots, .beat, .units, .cores, .upd, .tier, .forager, .mods, .ports, .casc, .host, .power, .test] := by exact hp.sub rfl) :
    Keeps P σ (applyPllRelock d s) := by
  unfold applyPllRelock
  repeat' first
    | (with_reducible show covers P _; exact hp.sub rfl) | with_reducible refine keeps_ite (fun _ => ?_) (fun _ => ?_)
    | with_reducible assumption | with_reducible apply keeps_raise
    | ((conv in (State.mk ..) => skip); with_reducible apply keeps_upd)
    | (refine UpdOk.mk ?_; intro p; cases p <;> first | (apply Or.inl; apply hp.get; rfl) | exact Or.inr rfl)

theorem keeps_applyPllRelockTimeout {P : StatePart → Bool} {σ : State} (d : Nat) (s : State) (hσ : Keeps P σ s)
    (hp : covers P [.regs, .slots, .beat, .units, .cores, .upd, .tier, .forager, .mods, .ports, .casc, .host, .test] := by exact hp.sub rfl) :
    Keeps P σ (applyPllRelockTimeout d s) := by
  unfold applyPllRelockTimeout
  repeat' first
    | (with_reducible show covers P _; exact hp.sub rfl) | with_reducible refine keeps_ite (fun _ => ?_) (fun _ => ?_)
    | with_reducible assumption | with_reducible apply keeps_raise

/-! ### Startup -/

theorem keeps_onward {P : StatePart → Bool} {σ : State} (s : State) (f : State → State) (hσ : Keeps P σ s) (hf : ∀ u b, Keeps P b u → Keeps P b (f u)) :
    Keeps P σ (s.onward f) := by
  unfold State.onward
  exact keeps_ite (fun _ => hf _ _ hσ) (fun _ => hσ)

theorem keeps_reach {P : StatePart → Bool} {σ : State} (s : State) (n : Nat) (hσ : Keeps P σ s)
    (hp : covers P [.power] := by exact hp.sub rfl) :
    Keeps P σ (State.reach s n) := by
  unfold State.reach
  repeat' first
    | with_reducible assumption | ((conv in (State.mk ..) => skip); with_reducible apply keeps_upd)
    | (refine UpdOk.mk ?_; intro p; cases p <;> first | (apply Or.inl; apply hp.get; rfl) | exact Or.inr rfl)

theorem keeps_showDie {P : StatePart → Bool} {σ : State} (s : State) (x : Nat × Nat) (hσ : Keeps P σ s)
    (hp : covers P [.regs] := by exact hp.sub rfl) :
    Keeps P σ (State.showDie s x) := by
  unfold State.showDie
  repeat' first
    | (with_reducible show covers P _; exact hp.sub rfl) | with_reducible assumption | with_reducible apply keeps_setReg | split

theorem keeps_selfTests {P : StatePart → Bool} {σ : State} (s : State) (hσ : Keeps P σ s)
    (hp : covers P [.regs, .slots, .beat, .units, .cores, .upd, .tier, .forager, .mods, .ports, .casc, .host, .power, .test] := by exact hp.sub rfl) :
    Keeps P σ (State.selfTests s) := by
  unfold State.selfTests
  repeat' first
    | (with_reducible show covers P _; exact hp.sub rfl)
    | (intro (x : State); refine (fun (hx : Keeps P σ x) => ?_) ?_; (on_goal 1 => clear_value x); (on_goal 2 => dsimp only [x]))
    | lift_lets | with_reducible refine keeps_ite (fun _ => ?_) (fun _ => ?_) | with_reducible assumption
    | with_reducible apply keeps_logEntry | with_reducible apply keeps_noteArrays | with_reducible apply keeps_raise
    | with_reducible apply keeps_reach | with_reducible refine keeps_foldl (fun _ _ σ _ => ?_) ?_ | split

theorem keeps_trainModule {P : StatePart → Bool} {σ : State} (s : State) (h n : Nat) (hσ : Keeps P σ s)
    (hp : covers P [.regs, .beat, .mods, .test] := by exact hp.sub rfl) :
    Keeps P σ (State.trainModule s h n) := by
  unfold State.trainModule
  repeat' first
    | (with_reducible show covers P _; exact hp.sub rfl) | (intro x; clear_value x) | lift_lets
    | with_reducible refine keeps_ite (fun _ => ?_) (fun _ => ?_) | with_reducible assumption
    | with_reducible apply keeps_applyLanes | with_reducible apply keeps_fenceModule | with_reducible apply keeps_setModState
    | with_reducible apply keeps_showDie | (refine keeps_of_some ?_ (by with_reducible assumption)) | split

theorem keeps_trainModules {P : StatePart → Bool} {σ : State} (s : State) (hσ : Keeps P σ s)
    (hp : covers P [.regs, .beat, .mods, .power, .test] := by exact hp.sub rfl) :
    Keeps P σ (State.trainModules s) := by
  unfold State.trainModules
  dsimp only
  have h : ∀ (u b : State) (h : Nat), Keeps P b u →
      Keeps P b ((u.trainedMods h).foldl (fun s n => s.onward fun s => s.trainModule h n) u) := fun u b h hu =>
    keeps_foldl (fun _ _ _ hc => keeps_onward _ _ hc fun _ _ hd => keeps_trainModule _ _ _ hd) hu
  exact keeps_showCaps _ (h _ _ _ (h _ _ _ (keeps_showDie _ _ (keeps_showDie _ _ (keeps_reach _ _ hσ)))))

theorem keeps_checkDies {P : StatePart → Bool} {σ : State} (s : State) (hσ : Keeps P σ s)
    (hp : covers P [.regs, .slots, .beat, .units, .cores, .upd, .tier, .forager, .mods, .ports, .casc, .host, .test] := by exact hp.sub rfl) :
    Keeps P σ (State.checkDies s) := by
  unfold State.checkDies
  repeat' first
    | (with_reducible show covers P _; exact hp.sub rfl)
    | (intro (x : State); refine (fun (hx : Keeps P σ x) => ?_) ?_; (on_goal 1 => clear_value x); (on_goal 2 => dsimp only [x]))
    | lift_lets | with_reducible refine keeps_ite (fun _ => ?_) (fun _ => ?_) | with_reducible assumption
    | with_reducible apply keeps_logEntry | with_reducible apply keeps_raise | with_reducible apply keeps_setBit | split

theorem keeps_trainPiles {P : StatePart → Bool} {σ : State} (s : State) (hσ : Keeps P σ s)
    (hp : covers P [.regs, .memory, .power] := by exact hp.sub rfl) :
    Keeps P σ (State.trainPiles s) := by
  unfold State.trainPiles
  dsimp only
  refine keeps_foldl (fun _ _ _ hc => keeps_ite (fun _ => keeps_setFld _ _ _ _ _ hc) (fun _ => hc)) ?_
  have h : Keeps P σ (s.reach 8).draw.2 := keeps_draw (keeps_reach _ _ hσ)
  generalize (s.reach 8).draw = x at h
  refine keeps_memory h fun hm => ?_
  simp only [State.memoryOk, Bool.and_eq_true] at hm ⊢
  exact ⟨⟨wf_empty, hm.1.2⟩, wf_undefine wf_empty _ _ _⟩

theorem keeps_mapDie {P : StatePart → Bool} {σ : State} (s : State) (d : Nat) (hσ : Keeps P σ s)
    (hp : covers P [.regs] := by exact hp.sub rfl) :
    Keeps P σ (State.mapDie s d) := by
  unfold State.mapDie
  repeat' first
    | (with_reducible show covers P _; exact hp.sub rfl)
    | (intro (x : State); refine (fun (hx : Keeps P σ x) => ?_) ?_; (on_goal 1 => clear_value x); (on_goal 2 => dsimp only [x]))
    | (intro x; clear_value x) | lift_lets | with_reducible assumption | with_reducible apply keeps_mapCore
    | with_reducible apply keeps_setReg | with_reducible refine keeps_foldl (fun _ _ σ _ => ?_) ?_

theorem keeps_discover {P : StatePart → Bool} {σ : State} (s : State) (hσ : Keeps P σ s)
    (hp : covers P [.regs, .beat, .cores, .test] := by exact hp.sub rfl) :
    Keeps P σ (State.discover s) := by
  unfold State.discover
  repeat' first
    | (with_reducible show covers P _; exact hp.sub rfl)
    | (intro (x : State); refine (fun (hx : Keeps P σ x) => ?_) ?_; (on_goal 1 => clear_value x); (on_goal 2 => dsimp only [x]))
    | lift_lets | with_reducible refine keeps_ite (fun _ => ?_) (fun _ => ?_) | with_reducible assumption
    | with_reducible apply keeps_fenceCore | with_reducible apply keeps_mapDie | with_reducible apply keeps_setFld
    | with_reducible apply keeps_setReg | with_reducible apply keeps_showPresence | with_reducible apply keeps_showRoles
    | with_reducible refine keeps_foldl (fun _ _ σ _ => ?_) ?_

theorem keeps_ready {P : StatePart → Bool} {σ : State} (s : State) (hσ : Keeps P σ s)
    (hp : covers P [.regs, .beat, .cores, .tier, .power, .test, .esz] := by exact hp.sub rfl) :
    Keeps P σ (State.ready s) := by
  unfold State.ready
  repeat' first
    | (with_reducible show covers P _; exact hp.sub rfl)
    | (intro (x : State); refine (fun (hx : Keeps P σ x) => ?_) ?_; (on_goal 1 => clear_value x); (on_goal 2 => dsimp only [x]))
    | (intro _ σ _) | lift_lets | with_reducible assumption | with_reducible apply keeps_discover
    | with_reducible apply keeps_holdIfAlone | with_reducible apply keeps_onward | with_reducible apply keeps_reach
    | with_reducible apply keeps_rollFuses | with_reducible apply keeps_setDevState

theorem keeps_afterBlocks {P : StatePart → Bool} {σ : State} (s : State) (hσ : Keeps P σ s)
    (hp : covers P [.regs, .memory, .slots, .beat, .units, .cores, .upd, .tier, .forager, .mods, .ports, .casc, .host, .power, .test, .esz] := by exact hp.sub rfl) :
    Keeps P σ (State.afterBlocks s) := by
  unfold State.afterBlocks
  repeat' first
    | (with_reducible show covers P _; exact hp.sub rfl) | (intro _ σ _)
    | with_reducible refine keeps_ite (fun _ => ?_) (fun _ => ?_) | with_reducible assumption
    | with_reducible apply keeps_checkDies | with_reducible apply keeps_onward | with_reducible apply keeps_ready
    | with_reducible apply keeps_trainPiles

theorem keeps_fromStep6 {P : StatePart → Bool} {σ : State} (s : State) (hσ : Keeps P σ s)
    (hp : covers P [.regs, .memory, .slots, .beat, .units, .cores, .upd, .tier, .forager, .mods, .ports, .casc, .host, .power, .test, .esz] := by exact hp.sub rfl) :
    Keeps P σ (State.fromStep6 s) := by
  unfold State.fromStep6
  repeat' first
    | (with_reducible show covers P _; exact hp.sub rfl) | (intro _ σ _) | with_reducible assumption
    | with_reducible apply keeps_afterBlocks | with_reducible apply keeps_onward | with_reducible apply keeps_selfTests
    | with_reducible apply keeps_trainModules

theorem keeps_applyPowerOkAssert {P : StatePart → Bool} {σ : State} (pkg : Package) (s : State) (hσ : Keeps P σ s)
    (hp : covers P [.regs, .memory, .slots, .beat, .units, .cores, .upd, .tier, .forager, .mods, .ports, .casc, .host, .power, .test, .esz, .pkg] := by exact hp.sub rfl) :
    Keeps P σ (applyPowerOkAssert pkg s) := by
  unfold applyPowerOkAssert
  repeat' first
    | (with_reducible show covers P _; exact hp.sub rfl) | lift_lets | with_reducible refine keeps_ite (fun _ => ?_) (fun _ => ?_)
    | with_reducible assumption | with_reducible apply keeps_bootFw | with_reducible apply keeps_fromStep6
    | with_reducible apply keeps_loadFuses | with_reducible apply keeps_raise | with_reducible apply keeps_reach
    | with_reducible apply keeps_setDevState | ((conv in (State.mk ..) => skip); with_reducible apply keeps_upd)
    | (refine UpdOk.mk ?_; intro p; cases p <;> first | (apply Or.inl; apply hp.get; rfl) | exact Or.inr rfl)

theorem keeps_applyPowerOkDeassert {P : StatePart → Bool} {σ : State} (s : State) (hσ : Keeps P σ s)
    (hp : covers P [.now, .regs, .latches, .memory, .slots, .beat, .units, .cores, .watch, .upd, .tier, .forager, .mods, .ports, .casc, .host, .power, .test, .esz, .pkg] := by exact hp.sub rfl) :
    Keeps P σ (applyPowerOkDeassert s) := by
  unfold applyPowerOkDeassert
  split
  · exact hσ
  · have h : Keeps P σ s.draw.2 := keeps_draw hσ
    refine ⟨h.pending, h.out, h.free, fun _ => ?_, h.fuses, UpdOk.parts ?_⟩
    · simp only [State.memoryOk, Bool.and_eq_true]
      exact ⟨⟨wf_undefine wf_empty _ _ _, wf_undefine wf_empty _ _ _⟩, wf_undefine wf_empty _ _ _⟩
    · (refine ⟨fun p => ?_⟩; cases p <;> (apply Or.inl; apply hp.get; rfl))

theorem keeps_applyStartupStepTimeout {P : StatePart → Bool} {σ : State} (n : Nat) (s : State) (hσ : Keeps P σ s)
    (hp : covers P [.regs, .slots, .beat, .units, .cores, .upd, .tier, .forager, .mods, .ports, .casc, .host, .test] := by exact hp.sub rfl) :
    Keeps P σ (applyStartupStepTimeout n s) := by
  unfold applyStartupStepTimeout
  repeat' first
    | (with_reducible show covers P _; exact hp.sub rfl) | with_reducible refine keeps_ite (fun _ => ?_) (fun _ => ?_)
    | with_reducible assumption | with_reducible apply keeps_raise

theorem keeps_applyParameterBlock {P : StatePart → Bool} {σ : State} (h n d : Nat) (b : ParamBlock) (s : State) (hσ : Keeps P σ s)
    (hp : covers P [.regs, .memory, .slots, .beat, .units, .cores, .upd, .tier, .forager, .mods, .ports, .casc, .host, .power, .test, .esz, .pkg] := by exact hp.sub rfl) :
    Keeps P σ (applyParameterBlock h n d b s) := by
  unfold applyParameterBlock
  repeat' first
    | (with_reducible show covers P _; exact hp.sub rfl)
    | (intro (x : State); refine (fun (hx : Keeps P σ x) => ?_) ?_; (on_goal 1 => clear_value x); (on_goal 2 => dsimp only [x]))
    | (intro x; clear_value x) | lift_lets | with_reducible refine keeps_ite (fun _ => ?_) (fun _ => ?_)
    | with_reducible assumption | with_reducible apply keeps_afterBlocks | with_reducible apply keeps_fenceModule
    | with_reducible apply keeps_showCaps | with_reducible apply keeps_showDie | split
    | ((conv in (State.mk ..) => skip); with_reducible apply keeps_upd)
    | (refine UpdOk.mk ?_; intro p; cases p <;> first | (apply Or.inl; apply hp.get; rfl) | exact Or.inr rfl)

theorem keeps_applyParameterBlockTimeout {P : StatePart → Bool} {σ : State} (h d : Nat) (s : State) (hσ : Keeps P σ s)
    (hp : covers P [.regs, .slots, .beat, .units, .cores, .upd, .tier, .forager, .mods, .ports, .casc, .host, .test] := by exact hp.sub rfl) :
    Keeps P σ (applyParameterBlockTimeout h d s) := by
  unfold applyParameterBlockTimeout
  repeat' first
    | (with_reducible show covers P _; exact hp.sub rfl) | with_reducible refine keeps_ite (fun _ => ?_) (fun _ => ?_)
    | with_reducible assumption | with_reducible apply keeps_raise

theorem keeps_clearDevice {P : StatePart → Bool} {σ : State} (s : State) (hσ : Keeps P σ s)
    (hp : covers P [.now, .regs, .latches, .memory, .slots, .beat, .units, .cores, .watch, .upd, .tier, .forager, .mods, .ports, .casc, .host, .power, .test, .esz, .pkg] := by exact hp.sub rfl) :
    Keeps P σ (State.clearDevice s) := by
  unfold State.clearDevice
  dsimp only
  refine keeps_setFld _ _ _ _ _ (keeps_setFld _ _ _ _ _ (keeps_setFld _ _ _ _ _ ?_))
  have h : Keeps P σ s.draw.2 := keeps_draw hσ
  refine ⟨h.pending, h.out, h.free, fun _ => ?_, h.fuses, UpdOk.parts ?_⟩
  · simp only [State.memoryOk, Bool.and_eq_true]
    exact ⟨⟨wf_undefine wf_empty _ _ _, wf_undefine wf_empty _ _ _⟩, wf_undefine wf_empty _ _ _⟩
  · (refine ⟨fun p => ?_⟩; cases p <;> (apply Or.inl; apply hp.get; rfl))

theorem keeps_noTests {P : StatePart → Bool} {σ : State} (s : State) (hσ : Keeps P σ s)
    (hp : covers P [.regs] := by exact hp.sub rfl) :
    Keeps P σ (State.noTests s) := by
  unfold State.noTests
  repeat' first
    | (with_reducible show covers P _; exact hp.sub rfl) | with_reducible assumption | with_reducible apply keeps_setBit
    | with_reducible apply keeps_setFld

theorem keeps_applyDevReset {P : StatePart → Bool} {σ : State} (v : Word) (flushed : Nat) (s : State) (hσ : Keeps P σ s)
    (hp : covers P [.now, .regs, .latches, .memory, .slots, .beat, .units, .cores, .watch, .upd, .tier, .forager, .mods, .ports, .casc, .host, .power, .test, .esz, .pkg] := by exact hp.sub rfl) :
    Keeps P σ (applyDevReset v flushed s) := by
  unfold applyDevReset
  repeat' first
    | (with_reducible show covers P _; exact hp.sub rfl)
    | (intro (x : State); refine (fun (hx : Keeps P σ x) => ?_) ?_; (on_goal 1 => clear_value x); (on_goal 2 => dsimp only [x]))
    | lift_lets | with_reducible refine keeps_ite (fun _ => ?_) (fun _ => ?_) | with_reducible assumption
    | with_reducible apply keeps_abortCopy | with_reducible apply keeps_clearDevice | with_reducible apply keeps_flushCrossing
    | with_reducible apply keeps_fromStep6 | with_reducible apply keeps_noTests | with_reducible apply keeps_setDebug
    | with_reducible apply keeps_setDevState | with_reducible apply keeps_setNonce | with_reducible apply keeps_showThrottle
    | with_reducible refine keeps_foldl (fun _ _ σ _ => ?_) ?_

theorem keeps_clearManagement {P : StatePart → Bool} {σ : State} (s : State) (hσ : Keeps P σ s)
    (hp : covers P [.regs, .latches, .power, .test] := by exact hp.sub rfl) :
    Keeps P σ (State.clearManagement s) := by
  unfold State.clearManagement
  repeat' first
    | (with_reducible show covers P _; exact hp.sub rfl)
    | (intro (x : State); refine (fun (hx : Keeps P σ x) => ?_) ?_; (on_goal 1 => clear_value x); (on_goal 2 => dsimp only [x]))
    | (intro x; clear_value x) | lift_lets | with_reducible refine keeps_ite (fun _ => ?_) (fun _ => ?_)
    | with_reducible assumption | with_reducible apply keeps_setBit | with_reducible apply keeps_setFld
    | ((conv in (State.mk ..) => skip); with_reducible apply keeps_upd)
    | (refine UpdOk.mk ?_; intro p; cases p <;> first | (apply Or.inl; apply hp.get; rfl) | exact Or.inr rfl)

theorem keeps_dropVerify {P : StatePart → Bool} {σ : State} (s : State) (f : FSlot) (hσ : Keeps P σ s)
    (hp : covers P [.regs, .slots, .beat] := by exact hp.sub rfl) :
    Keeps P σ (State.dropVerify s f) := by
  unfold State.dropVerify
  repeat' first
    | (with_reducible show covers P _; exact hp.sub rfl) | with_reducible refine keeps_ite (fun _ => ?_) (fun _ => ?_)
    | with_reducible assumption | with_reducible apply keeps_refuseSlot | with_reducible apply keeps_setBit

theorem keeps_restartFw {P : StatePart → Bool} {σ : State} (s : State) (c : Nat) (hσ : Keeps P σ s)
    (hp : covers P [.regs, .beat, .esz] := by exact hp.sub rfl) :
    Keeps P σ (State.restartFw s c) := by
  unfold State.restartFw
  repeat' first
    | (with_reducible show covers P _; exact hp.sub rfl) | with_reducible assumption | with_reducible apply keeps_logEntry
    | with_reducible apply keeps_runFw | with_reducible apply keeps_setFld | with_reducible apply keeps_showEsz | split

theorem keeps_applyWatchdog {P : StatePart → Bool} {σ : State} (flushed : Nat) (s : State) (hσ : Keeps P σ s)
    (hp : covers P [.regs, .latches, .slots, .beat, .power, .test, .esz] := by exact hp.sub rfl) :
    Keeps P σ (applyWatchdog flushed s) := by
  unfold applyWatchdog
  split
  · exact hσ
  · split
    · exact hσ
    · dsimp only
      refine keeps_restartFw _ _ (keeps_showThrottle _ _ (keeps_dropVerify _ _ (keeps_dropVerify _ _ (keeps_setBit _ _ _ _
        (keeps_setPair _ _ _ (keeps_flushCrossing _ _ _ (keeps_logEntry _ _ (keeps_esz ?_))))))))
      exact keeps_clearManagement _ hσ

/-! ### Mgmt -/

theorem keeps_setSpdm {P : StatePart → Bool} {σ : State} (s : State) (ep : MgmtEp) (x : SpdmEp) (hσ : Keeps P σ s)
    (hp : covers P [.esz] := by exact hp.sub rfl) :
    Keeps P σ (State.setSpdm s ep x) := by
  unfold State.setSpdm
  repeat' first
    | with_reducible assumption | split | ((conv in (State.mk ..) => skip); with_reducible apply keeps_esz)
    | (refine UpdOk.mk ?_; intro p; cases p <;> first | (apply Or.inl; apply hp.get; rfl) | exact Or.inr rfl)

theorem keeps_note {P : StatePart → Bool} {σ : State} (s : State) (ep : MgmtEp) (b : Bytes) (hσ : Keeps P σ s)
    (hp : covers P [.esz] := by exact hp.sub rfl) :
    Keeps P σ (State.note s ep b) := by
  unfold State.note
  repeat' first
    | (with_reducible show covers P _; exact hp.sub rfl) | with_reducible assumption | with_reducible apply keeps_setSpdm

theorem keeps_spdmError {P : StatePart → Bool} {σ : State} (s : State) (ep : MgmtEp) (hσ : Keeps P σ s) :
    Keeps P σ (State.spdmError s ep) := by
  unfold State.spdmError
  repeat' first
    | with_reducible assumption | with_reducible apply keeps_emit

theorem keeps_applyNegotiateAlgorithms {P : StatePart → Bool} {σ : State} (ep : MgmtEp) (s : State) (hσ : Keeps P σ s)
    (hp : covers P [.esz] := by exact hp.sub rfl) :
    Keeps P σ (applyNegotiateAlgorithms ep s) := by
  unfold applyNegotiateAlgorithms
  repeat' first
    | (with_reducible show covers P _; exact hp.sub rfl) | with_reducible refine keeps_ite (fun _ => ?_) (fun _ => ?_)
    | with_reducible assumption | with_reducible apply keeps_emit | with_reducible apply keeps_setSpdm

theorem keeps_applyGetCertificate {P : StatePart → Bool} {σ : State} (ep : MgmtEp) (off len : Nat) (s : State) (hσ : Keeps P σ s)
    (hp : covers P [.esz] := by exact hp.sub rfl) :
    Keeps P σ (applyGetCertificate ep off len s) := by
  unfold applyGetCertificate
  repeat' first
    | (with_reducible show covers P _; exact hp.sub rfl) | (intro x; clear_value x) | lift_lets
    | with_reducible refine keeps_ite (fun _ => ?_) (fun _ => ?_) | with_reducible assumption | with_reducible apply keeps_emit
    | with_reducible apply keeps_note | with_reducible apply keeps_spdmError | split

theorem keeps_sign {P : StatePart → Bool} {σ : State} (s : State) (key : Nat) (msg : Bytes) (hσ : Keeps P σ s) :
    Keeps P σ (State.sign s key msg).2 := by
  unfold State.sign
  repeat' first
    | (intro (x : _ × State); refine (fun (hx : Keeps P σ x.2) => ?_) ?_; (on_goal 1 => clear_value x); (on_goal 2 => dsimp only [x]))
    | lift_lets | with_reducible assumption | with_reducible apply keeps_random

theorem keeps_applyChallenge {P : StatePart → Bool} {σ : State} (ep : MgmtEp) (nonce : Bytes) (s : State) (hσ : Keeps P σ s) :
    Keeps P σ (applyChallenge ep nonce s) := by
  unfold applyChallenge
  repeat' first
    | (intro (x : _ × State); refine (fun (hx : Keeps P σ x.2) => ?_) ?_; (on_goal 1 => clear_value x); (on_goal 2 => dsimp only [x]))
    | lift_lets | with_reducible refine keeps_ite (fun _ => ?_) (fun _ => ?_) | with_reducible assumption
    | with_reducible apply keeps_emit | with_reducible apply keeps_sign | with_reducible apply keeps_spdmError | split

theorem keeps_applyGetMeasurements {P : StatePart → Bool} {σ : State} (ep : MgmtEp) (index : Nat) (signed : Bool) (nonce : Bytes) (s : State) (hσ : Keeps P σ s)
    (hp : covers P [.esz] := by exact hp.sub rfl) :
    Keeps P σ (applyGetMeasurements ep index signed nonce s) := by
  unfold applyGetMeasurements
  repeat' first
    | (with_reducible show covers P _; exact hp.sub rfl)
    | (intro (x : _ × State); refine (fun (hx : Keeps P σ x.2) => ?_) ?_; (on_goal 1 => clear_value x); (on_goal 2 => dsimp only [x]))
    | (intro x; clear_value x) | lift_lets | with_reducible refine keeps_ite (fun _ => ?_) (fun _ => ?_)
    | with_reducible assumption | with_reducible apply keeps_emit | with_reducible apply keeps_note
    | with_reducible apply keeps_setSpdm | with_reducible apply keeps_sign | with_reducible apply keeps_spdmError | split

theorem keeps_applyReadTelemetry {P : StatePart → Bool} {σ : State} (ep : MgmtEp) (s : State) (hσ : Keeps P σ s) :
    Keeps P σ (applyReadTelemetry ep s) := by
  unfold applyReadTelemetry
  repeat' first
    | with_reducible refine keeps_ite (fun _ => ?_) (fun _ => ?_) | with_reducible assumption | with_reducible apply keeps_emit

theorem keeps_applySetCap {P : StatePart → Bool} {σ : State} (ep : MgmtEp) (w : Nat) (s : State) (hσ : Keeps P σ s)
    (hp : covers P [.regs] := by exact hp.sub rfl) :
    Keeps P σ (applySetCap ep w s) := by
  unfold applySetCap
  repeat' first
    | (with_reducible show covers P _; exact hp.sub rfl) | with_reducible refine keeps_ite (fun _ => ?_) (fun _ => ?_)
    | with_reducible assumption | with_reducible apply keeps_emit | with_reducible apply keeps_setFld

theorem keeps_applyGetCap {P : StatePart → Bool} {σ : State} (ep : MgmtEp) (s : State) (hσ : Keeps P σ s) :
    Keeps P σ (applyGetCap ep s) := by
  unfold applyGetCap
  repeat' first
    | with_reducible refine keeps_ite (fun _ => ?_) (fun _ => ?_) | with_reducible assumption | with_reducible apply keeps_emit

theorem keeps_applyTapAccess {P : StatePart → Bool} {σ : State} (op : TapOp) (s : State) (hσ : Keeps P σ s)
    (hp : covers P [.now, .regs, .units] := by exact hp.sub rfl) :
    Keeps P σ (applyTapAccess op s) := by
  unfold applyTapAccess
  repeat' first
    | (with_reducible show covers P _; exact hp.sub rfl)
    | (intro (x : _ × State); refine (fun (hx : Keeps P σ x.2) => ?_) ?_; (on_goal 1 => clear_value x); (on_goal 2 => dsimp only [x]))
    | lift_lets | with_reducible refine keeps_ite (fun _ => ?_) (fun _ => ?_) | with_reducible assumption
    | with_reducible apply keeps_applyUnplannedWake | with_reducible apply keeps_draw | with_reducible apply keeps_emit | split

theorem keeps_applyDynamicAddress {P : StatePart → Bool} {σ : State} (addr : Nat) (s : State) (hσ : Keeps P σ s)
    (hp : covers P [.esz] := by exact hp.sub rfl) :
    Keeps P σ (applyDynamicAddress addr s) := by
  unfold applyDynamicAddress
  repeat' first
    | with_reducible refine keeps_ite (fun _ => ?_) (fun _ => ?_) | with_reducible assumption
    | ((conv in (State.mk ..) => skip); with_reducible apply keeps_esz)
    | (refine UpdOk.mk ?_; intro p; cases p <;> first | (apply Or.inl; apply hp.get; rfl) | exact Or.inr rfl)

end Sys2Proof.Laws
end

