-- ==== Sys2Proof/Laws/Log.lean ====
section
/-! SUPPORT. Logging an event: everything that it does and that it leaves alone. -/

namespace Sys2Proof.Laws

open Sys2Proof Sys2Proof.Machine

theorem regHome_id {o : Nat} (h : o < 0x2000000 ∨ 0x2400000 ≤ o) : regHome o = o := by
  unfold regHome
  dsimp only
  rw [if_neg]
  simp only [Bool.and_eq_true, decide_eq_true_eq]
  omega

theorem onlyLog_refl (offs : List Nat) (s : State) : onlyLog offs s s :=
  ⟨rfl, fun _ _ _ => rfl, [], (List.append_nil _).symm, fun _ h => nomatch h⟩

theorem onlyLog_trans {offs : List Nat} {a b c : State} (h : onlyLog offs a b) (g : onlyLog offs b c) : onlyLog offs a c := by
  obtain ⟨h1, h2, ms, h3, h4⟩ := h
  obtain ⟨g1, g2, ns, g3, g4⟩ := g
  refine ⟨?_, fun o x y => (g2 o x y).trans (h2 o x y), ms ++ ns, by rw [g3, h3, List.append_assoc], fun m hm => ?_⟩
  · rw [g1, h1]
  · rcases List.mem_append.mp hm with hm | hm
    · exact h4 m hm
    · exact g4 m hm

theorem onlyLog_setReg {offs : List Nat} (s : State) {o : Nat} (v : Word)
    (h : logReg (regHome o) = true ∨ regHome o ∈ offs.map regHome) : onlyLog offs s (s.setReg o v) := by
  refine ⟨rfl, fun p hp hq => reg_setReg_ne _ _ fun e => ?_, [], (List.append_nil _).symm, fun _ h => nomatch h⟩
  rcases h with h | h
  · rw [e, h] at hp; cases hp
  · exact hq (e ▸ h)

theorem onlyLog_setFld {offs : List Nat} (s : State) {o hi lo v : Nat}
    (h : logReg (regHome o) = true ∨ regHome o ∈ offs.map regHome) : onlyLog offs s (s.setFld o hi lo v) :=
  onlyLog_setReg s _ h

/-- A register of the log. -/
theorem logReg_home {o : Nat} (h : logReg o = true) : logReg (regHome o) = true := by
  rw [regHome_id]
  · exact h
  · simp only [logReg, Bool.or_eq_true, Bool.and_eq_true, decide_eq_true_eq] at h
    omega

theorem logReg_errLog {i w : Nat} (hi : i < 256) (hw : w < 4) : logReg (Reg.errLog i w) = true := by
  have h : 0x3C01000 ≤ Reg.errLog i w ∧ Reg.errLog i w < 0x3C02000 := by unfold Reg.errLog; omega
  generalize Reg.errLog i w = o at h
  simp only [logReg, Bool.or_eq_true, Bool.and_eq_true, decide_eq_true_eq]
  omega

theorem logReg_pba {p w : Nat} (hp : p < 2) (hw : w < 4) : logReg (Reg.msixPba p w) = true := by
  have h : (0x210800 ≤ Reg.msixPba p w ∧ Reg.msixPba p w < 0x210810) ∨ (0x211800 ≤ Reg.msixPba p w ∧ Reg.msixPba p w < 0x211810) := by
    unfold Reg.msixPba; omega
  generalize Reg.msixPba p w = o at h
  simp only [logReg, Bool.or_eq_true, Bool.and_eq_true, decide_eq_true_eq]
  omega

theorem logReg_classCounter (c : Nat) : logReg (classCounter c) = true := by
  unfold classCounter
  repeat' split
  all_goals decide

theorem portIdx_lt (p : HPort) : portIdx p < 2 := by cases p <;> decide

theorem onlyLog_msix {offs : List Nat} (s : State) (p : HPort) {v : Nat} (h : v < 128) : onlyLog offs s (s.msix p v) := by
  unfold State.msix
  dsimp only
  split
  · exact ⟨rfl, fun _ _ _ => rfl, [.msix p v], rfl, fun m hm => ⟨p, v, by simpa using hm⟩⟩
  · exact onlyLog_setFld s (.inl (logReg_home (logReg_pba (portIdx_lt p) (by omega))))

theorem onlyLog_msixClass {offs : List Nat} (s : State) (c : Nat) : onlyLog offs s (s.msixClass c) := by
  unfold State.msixClass
  split
  · exact onlyLog_refl _ _
  · have one : ∀ (s : State) (p : HPort), onlyLog offs s
        (if s.beat.win.isSome && s.beat.onceMsix.contains (portIdx p * 8 + c) then s
         else { s.msix p (3 + c) with beat := { (s.msix p (3 + c)).beat with
                onceMsix := (portIdx p * 8 + c) :: (s.msix p (3 + c)).beat.onceMsix } }) := by
      intro s p
      split
      · exact onlyLog_refl _ _
      · refine onlyLog_trans (onlyLog_msix s p (by omega)) ⟨rfl, fun _ _ _ => rfl, [], (List.append_nil _).symm, fun _ h => nomatch h⟩
    exact onlyLog_trans (one s .a) (one _ .b)

theorem onlyLog_capture {offs : List Nat} (s : State) (e : Ev) (o : Bool) : onlyLog offs s (s.capture e o) := by
  unfold State.capture State.setPair
  refine onlyLog_trans (onlyLog_trans (onlyLog_trans (onlyLog_trans (onlyLog_trans (onlyLog_setReg _ _ ?_) (onlyLog_setReg _ _ ?_))
    (onlyLog_setReg _ _ ?_)) (onlyLog_setReg _ _ ?_)) (onlyLog_setReg _ _ ?_)) (onlyLog_setReg _ _ ?_) <;> exact .inl (by decide)

theorem onlyLog_ferr {offs : List Nat} (s : State) (e : Ev) : onlyLog offs s (s.ferr e) := by
  unfold State.ferr
  split
  · exact onlyLog_refl _ _
  · split
    · split
      · exact onlyLog_capture _ _ _
      · exact onlyLog_setFld _ (.inl (by decide))
    · exact onlyLog_capture _ _ _

theorem onlyLog_logEntry {offs : List Nat} (s : State) (e : Ev) : onlyLog offs s (s.logEntry e) := by
  unfold State.logEntry
  dsimp only
  have hr : ∀ w, w < 4 → logReg (regHome (Reg.errLog ((s.reg Reg.errLogHead).toNat % 256) w)) = true := fun w hw =>
    logReg_home (logReg_errLog (Nat.mod_lt _ (by decide)) hw)
  refine onlyLog_trans (onlyLog_trans ?_ (onlyLog_ferr _ _)) (onlyLog_msixClass _ _)
  refine onlyLog_trans ?_ (onlyLog_setFld _ (.inl (logReg_home (logReg_classCounter _))))
  have hi : ∀ (c : Prop) [Decidable c] (u x : State), onlyLog offs s u → onlyLog offs u x → onlyLog offs s (if c then x else u) := by
    intro c _ u x h g; split
    · exact onlyLog_trans h g
    · exact h
  refine hi _ _ _ (hi _ _ _ ?_ (onlyLog_setFld _ (.inl (by decide)))) (onlyLog_setFld _ (.inl (by decide)))
  refine onlyLog_trans (onlyLog_trans (onlyLog_trans (onlyLog_trans (onlyLog_trans (onlyLog_setReg _ _ ?_) (onlyLog_setReg _ _ ?_))
    (onlyLog_setReg _ _ ?_)) (onlyLog_setReg _ _ ?_)) (onlyLog_setReg _ _ ?_)) (onlyLog_setFld _ ?_)
  · exact .inl (hr 0 (by decide))
  · exact .inl (hr 1 (by decide))
  · exact .inl (hr 2 (by decide))
  · exact .inl (hr 3 (by decide))
  · exact .inl (by decide)
  · exact .inl (by decide)

/-! ### What the log then holds -/

/-- Registers that neither the capture nor the MSI-X pending bits are. -/
theorem msixClass_reg (s : State) (c : Nat) {o : Nat} (h : ∀ p w, p < 2 → w < 4 → regHome o ≠ regHome (Reg.msixPba p w)) :
    (s.msixClass c).reg o = s.reg o := by
  have hm : ∀ (s : State) (p : HPort) (v : Nat), v < 128 → (s.msix p v).reg o = s.reg o := by
    intro s p v hv
    unfold State.msix
    dsimp only
    split
    · rfl
    · exact reg_setFld_ne _ _ _ _ (h _ _ (portIdx_lt p) (by omega))
  unfold State.msixClass
  split
  · rfl
  · have one : ∀ (s : State) (p : HPort), 
        (if s.beat.win.isSome && s.beat.onceMsix.contains (portIdx p * 8 + c) then s
         else { s.msix p (3 + c) with beat := { (s.msix p (3 + c)).beat with
                onceMsix := (portIdx p * 8 + c) :: (s.msix p (3 + c)).beat.onceMsix } }).reg o = s.reg o := by
      intro s p
      split
      · rfl
      · exact hm s p _ (by omega)
    exact (one _ .b).trans (one s .a)

theorem capture_reg (s : State) (e : Ev) (b : Bool) {o : Nat} (h : ∀ w, w < 6 → regHome o ≠ regHome (0x3C00040 + 4 * w)) :
    (s.capture e b).reg o = s.reg o := by
  unfold State.capture State.setPair
  dsimp only
  exact (reg_setReg_ne _ _ (h 5 (by decide))).trans ((reg_setReg_ne _ _ (h 4 (by decide))).trans ((reg_setReg_ne _ _ (h 3 (by decide))).trans
    ((reg_setReg_ne _ _ (h 2 (by decide))).trans ((reg_setReg_ne _ _ (h 1 (by decide))).trans (reg_setReg_ne _ _ (h 0 (by decide)))))))

theorem ferr_reg (s : State) (e : Ev) {o : Nat} (h : ∀ w, w < 6 → regHome o ≠ regHome (0x3C00040 + 4 * w)) :
    (s.ferr e).reg o = s.reg o := by
  unfold State.ferr
  split
  · rfl
  · split
    · split
      · exact capture_reg s e _ h
      · exact reg_setFld_ne _ _ _ _ (h 0 (by decide))
    · exact capture_reg s e _ h


/-- Words of the ring lie apart. -/
theorem errLog_ne {i w j v : Nat} (_hi : i < 256) (hw : w < 4) (_hj : j < 256) (hv : v < 4) (h : i ≠ j ∨ w ≠ v) :
    regHome (Reg.errLog i w) ≠ regHome (Reg.errLog j v) := by
  have a : ∀ i w, regHome (Reg.errLog i w) = Reg.errLog i w := fun i w => regHome_id (.inr (by unfold Reg.errLog; omega))
  rw [a, a]; unfold Reg.errLog; omega

theorem errLog_home (i w : Nat) : regHome (Reg.errLog i w) = Reg.errLog i w := regHome_id (.inr (by unfold Reg.errLog; omega))

theorem ite_reg {c : Prop} [Decidable c] (a b : State) {o : Nat} (h : a.reg o = b.reg o) : (if c then a else b).reg o = b.reg o := by
  split
  · exact h
  · rfl

/-- What follows the ring entry and HEAD leaves every register below 0x3C00018, from 0x3C00024 to 0x3C00028 and above 0x3C00058
that is no pending bit of MSI-X. -/
theorem logEntry_tail (s : State) (e : Ev) {o : Nat} (h1 : regHome o = o) (h2 : o ≠ 0x3C00000 ∧ o ≠ 0x3C00004)
    (h3 : o ≠ classCounter e.cls) (h4 : o < 0x3C00040 ∨ 0x3C00058 ≤ o) (h5 : 0x3C00000 ≤ o) :
    (s.logEntry e).reg o =
      ((((((s.setReg (Reg.errLog ((s.reg Reg.errLogHead).toNat % 256) 0) (BitVec.ofNat 32 (e.code % 65536 + 65536 * (e.cls % 8)))).setReg
        (Reg.errLog ((s.reg Reg.errLogHead).toNat % 256) 1) (unitWord e.unit)))).setReg
        (Reg.errLog ((s.reg Reg.errLogHead).toNat % 256) 2) (s.reg Reg.beatCountLo)).setReg
        (Reg.errLog ((s.reg Reg.errLogHead).toNat % 256) 3) e.word0 |>.setReg Reg.errLogHead
          (BitVec.ofNat 32 ((s.reg Reg.errLogHead).toNat + 1))).reg o := by
  have hb : ∀ i w, regHome Reg.beatCountLo ≠ regHome (Reg.errLog i w) := fun i w => by
    rw [errLog_home, regHome_id (.inl (by decide))]; unfold Reg.errLog Reg.beatCountLo; omega
  unfold State.logEntry
  dsimp only
  rw [msixClass_reg, ferr_reg]
  · rw [show ∀ (u : State) (r n : Nat), u.bumpSat r 31 0 n = u.setFld r 31 0 (min (u.fld r 31 0 + n) (2 ^ (31 - 0 + 1) - 1)) from
      fun _ _ _ => rfl]
    rw [reg_setFld_ne]
    · rw [ite_reg, ite_reg]
      · unfold State.setBit
        rw [reg_setFld_ne]
        · rw [reg_setReg_ne _ _ (hb _ _), reg_setReg_ne _ _ (hb _ _)]
        · rw [h1, regHome_id (.inr (by decide))]; exact h2.1
      · unfold State.setBit
        rw [reg_setFld_ne]
        rw [h1, regHome_id (.inr (by decide))]; exact h2.1
      · unfold State.setBit
        rw [reg_setFld_ne]
        rw [h1, regHome_id (.inr (by decide))]; exact h2.2
    · rw [h1, regHome_id]
      · exact h3
      · unfold classCounter; repeat' split
        all_goals exact .inr (by decide)
  · intro w hw
    rw [h1, regHome_id (.inr (by omega))]; omega
  · intro p w hp hw
    rw [h1, regHome_id (.inl (by unfold Reg.msixPba; omega))]; unfold Reg.msixPba; omega

/-- HEAD after an event. -/
theorem logEntry_head (s : State) (e : Ev) : (s.logEntry e).reg Reg.errLogHead = s.reg Reg.errLogHead + 1 := by
  rw [logEntry_tail s e (regHome_id (.inr (by decide))) (by decide) (by unfold classCounter; repeat' split
                                                                        all_goals decide) (by decide) (by decide), reg_setReg]
  apply BitVec.eq_of_toNat_eq
  simp

theorem classCounter_lt (c : Nat) : classCounter c < 0x3C01000 := by
  unfold classCounter; repeat' split
  all_goals decide

/-- The ring after an event. -/
theorem logEntry_ring (s : State) (e : Ev) {i w : Nat} (hi : i < 256) (hw : w < 4) :
    (s.logEntry e).reg (Reg.errLog i w) =
      if i = (s.reg Reg.errLogHead).toNat % 256 then
        (if w = 0 then BitVec.ofNat 32 (e.code % 65536 + 65536 * (e.cls % 8)) else if w = 1 then unitWord e.unit
         else if w = 2 then s.reg Reg.beatCountLo else e.word0)
      else s.reg (Reg.errLog i w) := by
  have hm : (s.reg Reg.errLogHead).toNat % 256 < 256 := Nat.mod_lt _ (by decide)
  have hl := classCounter_lt e.cls
  have ho : 0x3C01000 ≤ Reg.errLog i w ∧ Reg.errLog i w < 0x3C02000 := by unfold Reg.errLog; omega
  rw [logEntry_tail s e (errLog_home i w) (by omega) (by omega) (by omega) (by omega)]
  rw [reg_setReg_ne _ _ (by rw [errLog_home, regHome_id (.inr (by decide))]; unfold Reg.errLogHead; omega)]
  generalize (s.reg Reg.errLogHead).toNat % 256 = m at hm
  have hne : ∀ v, v < 4 → (i ≠ m ∨ w ≠ v) → regHome (Reg.errLog i w) ≠ regHome (Reg.errLog m v) := fun v hv h => errLog_ne hi hw hm hv h
  by_cases hi' : i = m
  · subst hi'
    rw [if_pos rfl]
    obtain rfl | rfl | rfl | rfl : w = 0 ∨ w = 1 ∨ w = 2 ∨ w = 3 := by omega
    · rw [reg_setReg_ne _ _ (hne 3 (by decide) (.inr (by decide))), reg_setReg_ne _ _ (hne 2 (by decide) (.inr (by decide))),
        reg_setReg_ne _ _ (hne 1 (by decide) (.inr (by decide))), reg_setReg]; rfl
    · rw [reg_setReg_ne _ _ (hne 3 (by decide) (.inr (by decide))), reg_setReg_ne _ _ (hne 2 (by decide) (.inr (by decide))),
        reg_setReg]; rfl
    · rw [reg_setReg_ne _ _ (hne 3 (by decide) (.inr (by decide))), reg_setReg]; rfl
    · rw [reg_setReg]; rfl
  · rw [if_neg hi', reg_setReg_ne _ _ (hne 3 (by decide) (.inl hi')), reg_setReg_ne _ _ (hne 2 (by decide) (.inl hi')),
      reg_setReg_ne _ _ (hne 1 (by decide) (.inl hi')), reg_setReg_ne _ _ (hne 0 (by decide) (.inl hi'))]

/-- A register of the log that logging has not reached when the entry has been written. -/
theorem ring_reg (s : State) (i : Nat) (a b c d h : Word) {o : Nat} (h1 : regHome o = o) (h2 : o < 0x3C01000) (h3 : o ≠ Reg.errLogHead) :
    (((((s.setReg (Reg.errLog i 0) a).setReg (Reg.errLog i 1) b).setReg (Reg.errLog i 2) c).setReg (Reg.errLog i 3) d).setReg
      Reg.errLogHead h).reg o = s.reg o := by
  have hb : ∀ w, regHome o ≠ regHome (Reg.errLog i w) := fun w => by rw [errLog_home, h1]; unfold Reg.errLog; omega
  rw [reg_setReg_ne _ _ (by rw [h1, regHome_id (.inr (by decide))]; exact h3), reg_setReg_ne _ _ (hb _), reg_setReg_ne _ _ (hb _),
    reg_setReg_ne _ _ (hb _), reg_setReg_ne _ _ (hb _)]

theorem bit_ite {c : Prop} [Decidable c] {a b : State} {o i : Nat} {x : Bool} (ha : a.bit o i = x) (hb : b.bit o i = x) :
    (if c then a else b).bit o i = x := by
  split
  · exact ha
  · exact hb

/-- A bit of the same register but another place. -/
theorem bit_setBit_ne (s : State) {o i j : Nat} (b : Bool) (hij : i ≠ j) (hi : i < 32) (_hj : j < 32) :
    (s.setBit o j b).bit o i = s.bit o i := by
  unfold State.setBit State.bit State.fld
  rw [reg_setFld, bits_withBits_ne _ _ (le_refl _) (le_refl _) hi (by omega)]

theorem bit_of_reg {s t : State} {o : Nat} (h : t.reg o = s.reg o) (i : Nat) : t.bit o i = s.bit o i := by
  unfold State.bit State.fld; rw [h]

theorem reg_bumpSat_ne (s : State) {o p : Nat} (hi lo n : Nat) (h : regHome p ≠ regHome o) : (s.bumpSat o hi lo n).reg p = s.reg p :=
  reg_setFld_ne _ _ _ _ h

theorem reg_setBit_ne (s : State) {o p : Nat} (i : Nat) (b : Bool) (h : regHome p ≠ regHome o) : (s.setBit o i b).reg p = s.reg p :=
  reg_setFld_ne _ _ _ _ h

/-- The class bit of an event is set. -/
theorem logEntry_sticky (s : State) (e : Ev) (hc : e.cls < 8) :
    (s.logEntry e).bit Reg.errStickyClass (if e.cls = 7 then 8 else e.cls) = true := by
  have hlt : (if e.cls = 7 then 8 else e.cls) < 9 := by split <;> omega
  generalize hi : (if e.cls = 7 then 8 else e.cls) = i at hlt
  have hcc : regHome Reg.errStickyClass ≠ regHome (classCounter e.cls) := by
    rw [regHome_id (.inr (by decide)), regHome_id]
    · unfold classCounter; repeat' split
      all_goals decide
    · unfold classCounter; repeat' split
      all_goals exact .inr (by decide)
  unfold State.logEntry
  dsimp only
  rw [hi]
  rw [bit_of_reg (msixClass_reg _ _ fun p w hp hw => by
      rw [regHome_id (.inr (by decide)), regHome_id (.inl (by unfold Reg.msixPba; omega))]; unfold Reg.errStickyClass Reg.msixPba; omega),
    bit_of_reg (ferr_reg _ _ fun w hw => by
      rw [regHome_id (.inr (by decide)), regHome_id (.inr (by omega))]; unfold Reg.errStickyClass; omega),
    bit_of_reg (reg_bumpSat_ne _ _ _ _ hcc)]
  refine bit_ite ?_ ?_
  · rw [bit_of_reg (reg_setBit_ne _ _ _ (by decide))]
    refine bit_ite ?_ ?_
    · rw [bit_setBit_ne _ _ (by omega) (by omega) (by omega)]; exact bit_setBit_self _ _ (by omega)
    · exact bit_setBit_self _ _ (by omega)
  · refine bit_ite ?_ ?_
    · rw [bit_setBit_ne _ _ (by omega) (by omega) (by omega)]; exact bit_setBit_self _ _ (by omega)
    · exact bit_setBit_self _ _ (by omega)

/-- The state in which the first-error capture and the class counter find the log. -/
theorem logEntry_pre (s : State) (e : Ev) :
    ∃ u : State, s.logEntry e = ((u.bumpSat (classCounter e.cls) 31 0 1).ferr e).msixClass e.cls ∧
      ∀ o, regHome o = o → o < 0x3C01000 → o ≠ Reg.errLogHead → o ≠ Reg.errStickyClass → o ≠ Reg.errStickySub → u.reg o = s.reg o := by
  refine ⟨_, rfl, fun o h1 h2 h3 h4 h5 => ?_⟩
  have hb : ∀ i w, regHome Reg.beatCountLo ≠ regHome (Reg.errLog i w) := fun i w => by
    rw [errLog_home, regHome_id (.inl (by decide))]; unfold Reg.errLog Reg.beatCountLo; omega
  rw [ite_reg, ite_reg]
  · unfold State.setBit
    rw [reg_setFld_ne]
    · exact ring_reg s _ _ _ _ _ _ h1 h2 h3
    · rw [h1, regHome_id (.inr (by decide))]; exact h4
  · unfold State.setBit
    rw [reg_setFld_ne]
    rw [h1, regHome_id (.inr (by decide))]; exact h4
  · unfold State.setBit
    rw [reg_setFld_ne]
    rw [h1, regHome_id (.inr (by decide))]; exact h5

theorem bits_all (w : Word) : bits w 31 0 = w.toNat := by
  unfold bits
  rw [Nat.shiftRight_zero]
  exact Nat.mod_eq_of_lt w.isLt

theorem bumpSat_all (s : State) (o n : Nat) :
    ((s.bumpSat o 31 0 n).reg o).toNat = min ((s.reg o).toNat + n) (2 ^ 32 - 1) := by
  have h := fld_setFld_self s (o := o) (hi := 31) (lo := 0) (min (s.fld o 31 0 + n) (2 ^ (31 - 0 + 1) - 1)) (by decide) (by decide)
  unfold State.fld at h
  rw [bits_all, bits_all] at h
  unfold State.bumpSat State.fld
  rw [bits_all, h]
  exact Nat.mod_eq_of_lt (by omega)

/-- The counter of the event's class. -/
theorem logEntry_count (s : State) (e : Ev) :
    ((s.logEntry e).reg (classCounter e.cls)).toNat = min ((s.reg (classCounter e.cls)).toNat + 1) (2 ^ 32 - 1) := by
  obtain ⟨u, hu, hr⟩ := logEntry_pre s e
  have hh : regHome (classCounter e.cls) = classCounter e.cls := by
    unfold classCounter; repeat' split
    all_goals exact regHome_id (.inr (by decide))
  have hc : 0x3C00008 ≤ classCounter e.cls ∧ classCounter e.cls ≤ 0x3C0002C ∧ classCounter e.cls ≠ 0x3C00024 := by
    unfold classCounter; repeat' split
    all_goals decide
  rw [hu, msixClass_reg, ferr_reg, bumpSat_all, hr _ hh (by omega) (by unfold Reg.errLogHead; omega) (by unfold Reg.errStickyClass; omega)
    (by unfold Reg.errStickySub; omega)]
  · intro w hw
    rw [hh, regHome_id (.inr (by omega))]; omega
  · intro p w hp hw
    rw [hh, regHome_id (.inl (by unfold Reg.msixPba; omega))]; unfold Reg.msixPba; omega

/-- Fields of the capture word. -/
theorem capture_word (c k : Nat) (o m : Bool) (hc : c < 65536) (hk : k < 8) :
    bits (BitVec.ofNat 32 (c + 65536 * k + (if o then 0x20000000 else 0) +
        (if m then 0x40000000 else 0) + 0x80000000)) 15 0 = c ∧
      bits (BitVec.ofNat 32 (c + 65536 * k + (if o then 0x20000000 else 0) +
        (if m then 0x40000000 else 0) + 0x80000000)) 18 16 = k ∧
      bits (BitVec.ofNat 32 (c + 65536 * k + (if o then 0x20000000 else 0) +
        (if m then 0x40000000 else 0) + 0x80000000)) 31 31 = 1 := by
  unfold bits
  simp only [BitVec.toNat_ofNat, Nat.shiftRight_eq_div_pow]
  cases o <;> cases m <;> simp <;> omega

/-- The capture of an event that finds VALID at 0. -/
theorem capture_fields (s : State) (e : Ev) (b : Bool) :
    (s.capture e b).fld Reg.ferrCode 15 0 = e.code % 65536 ∧ (s.capture e b).fld Reg.ferrCode 18 16 = e.cls % 8 ∧
      (s.capture e b).bit Reg.ferrCode 31 = true ∧ (s.capture e b).reg Reg.ferrUnit = unitWord e.unit ∧
      (s.capture e b).reg Reg.ferrInfo0 = e.word0 ∧ (s.capture e b).reg Reg.ferrInfo1 = BitVec.ofNat 32 e.info1 := by
  have h := capture_word (e.code % 65536) (e.cls % 8) b (b || s.bit Reg.ferrCode 30) (Nat.mod_lt _ (by decide)) (Nat.mod_lt _ (by decide))
  have hc : (s.capture e b).reg Reg.ferrCode = BitVec.ofNat 32 (e.code % 65536 + 65536 * (e.cls % 8) +
      (if b then 0x20000000 else 0) +
      (if (b || s.bit Reg.ferrCode 30) = true then 0x40000000 else 0) + 0x80000000) := by
    unfold State.capture State.setPair
    dsimp only
    rw [reg_setReg_ne _ _ (by decide), reg_setReg_ne _ _ (by decide), reg_setReg_ne _ _ (by decide), reg_setReg_ne _ _ (by decide),
      reg_setReg_ne _ _ (by decide), reg_setReg]
  unfold State.fld State.bit State.fld
  rw [hc]
  refine ⟨h.1, h.2.1, by rw [h.2.2]; rfl, ?_, ?_, ?_⟩ <;> unfold State.capture State.setPair <;> dsimp only
  · rw [reg_setReg_ne _ _ (by decide), reg_setReg_ne _ _ (by decide), reg_setReg_ne _ _ (by decide), reg_setReg_ne _ _ (by decide),
      reg_setReg]
  · rw [reg_setReg_ne _ _ (by decide), reg_setReg]
  · rw [reg_setReg]

theorem fld_of_reg {s t : State} {o : Nat} (h : t.reg o = s.reg o) (a b : Nat) : t.fld o a b = s.fld o a b := by
  unfold State.fld; rw [h]

/-- The first-error capture of an event that is no CE and finds VALID at 0. -/
theorem logEntry_captured (s : State) (e : Ev) (hc : e.cls ≠ 0) (hv : s.bit Reg.ferrCode 31 = false) :
    (s.logEntry e).fld Reg.ferrCode 15 0 = e.code % 65536 ∧ (s.logEntry e).fld Reg.ferrCode 18 16 = e.cls % 8 ∧
      (s.logEntry e).bit Reg.ferrCode 31 = true ∧ (s.logEntry e).reg Reg.ferrUnit = unitWord e.unit ∧
      (s.logEntry e).reg Reg.ferrInfo0 = e.word0 ∧ (s.logEntry e).reg Reg.ferrInfo1 = BitVec.ofNat 32 e.info1 := by
  obtain ⟨u, hu, hr⟩ := logEntry_pre s e
  have hh : regHome (classCounter e.cls) = classCounter e.cls := by
    unfold classCounter; repeat' split
    all_goals exact regHome_id (.inr (by decide))
  have hne : Reg.ferrCode ≠ classCounter e.cls := by
    unfold classCounter; repeat' split
    all_goals decide
  have hv' : (u.bumpSat (classCounter e.cls) 31 0 1).bit Reg.ferrCode 31 = false := by
    unfold State.bumpSat
    rw [bit_of_reg (reg_setFld_ne _ _ _ _ (by rw [hh, regHome_id (.inr (by decide))]; exact hne)),
      bit_of_reg (hr _ (regHome_id (.inr (by decide))) (by decide) (by decide) (by decide) (by decide)), hv]
  have hm : ∀ (x : State) (o : Nat), 0x3C00000 ≤ o → (x.msixClass e.cls).reg o = x.reg o := fun x o ho => by
    refine msixClass_reg x _ fun p w hp hw => ?_
    rw [regHome_id (.inr (by omega)), regHome_id (.inl (by unfold Reg.msixPba; omega))]; unfold Reg.msixPba; omega
  have hf : (u.bumpSat (classCounter e.cls) 31 0 1).ferr e = (u.bumpSat (classCounter e.cls) 31 0 1).capture e false := by
    unfold State.ferr
    rw [if_neg hc, hv', if_neg (by decide)]
  rw [hu, hf, fld_of_reg (hm _ _ (by decide)), fld_of_reg (hm _ _ (by decide)), bit_of_reg (hm _ _ (by decide)), hm _ _ (by decide),
    hm _ _ (by decide), hm _ _ (by decide)]
  exact capture_fields _ e false

/-- Logging an event does this and nothing else. -/
theorem logEntry_logged (s : State) (e : Ev) (hc : e.cls < 8) : Logged e s (s.logEntry e) := by
  have hm : (s.reg Reg.errLogHead).toNat % 256 < 256 := Nat.mod_lt _ (by decide)
  refine ⟨onlyLog_logEntry s e, logEntry_head s e, ?_, ?_, ?_, ?_, fun i w hi hw hne => ?_, logEntry_sticky s e hc, logEntry_count s e,
    fun h g => logEntry_captured s e h g⟩
  · rw [logEntry_ring s e hm (by decide), if_pos rfl, if_pos rfl]
  · rw [logEntry_ring s e hm (by decide), if_pos rfl]; rfl
  · rw [logEntry_ring s e hm (by decide), if_pos rfl]; rfl
  · rw [logEntry_ring s e hm (by decide), if_pos rfl]; rfl
  · rw [logEntry_ring s e hi hw, if_neg hne]

end Sys2Proof.Laws
end

