-- ==== Sys2Proof/Laws/PerInstr.lean ====
section
/-! SUPPORT. One lemma for each command: the units that a well-formed command acts for are units of the part. -/

set_option Elab.async false

namespace Sys2Proof.Laws.Shape

open Sys2Proof Sys2Proof.Machine

/-- The plan units whose slots a command acts for (Table 2.25). -/
def units : Instr → List UnitId
  | .slotStart u _ | .slotEnd u _ _ | .slotHung u _ | .wakeStart u _ | .unplannedWake u _ | .waitSatisfied u => [u]
  | .real l a _ | .complex l a _ | .fp32x6 l a _ | .endOfSequence l a => [arrayUnit l a]
  | .vadd l | .vsub l | .vmul l | .vfma l | .vneg l | .vabs l | .vmax l | .vmin l | .vcmp l | .vsel l | .vcvt l | .vamax l
  | .vscale l | .vrsum l | .vrmax l | .vrmin l | .vexp l | .vlog l | .vrcp l | .vrsqrt l | .vsin l | .vcos l | .vperm l | .vbcast l
  | .vmovs l | .vgath l | .vld l | .vst l | .vqpop l | .vwga l | .sli l | .slui l | .sadd l | .saddi l | .ssub l | .smul l
  | .sand l | .sor l | .sxor l | .sshl l | .sshr l | .sld l | .sst l | .vext l | .br l | .beqz l | .bnez l | .blt l
  | .loop l | .wait l | .signal l | .endRoutine l => [vectorUnit l]
  | .move m _ | .fetch m _ => [{ cls := 3, idx := m }]
  | .h2d e | .d2h e | .notify e | .readCompletion e _ | .completionTimeout e => [{ cls := 4, idx := e }]
  | .send q | .mcast q | .reduce q => [{ cls := 5, idx := q }]
  | .jpegDecode f ⟨lane, _⟩ => [{ cls := 6, idx := 9 * f + lane }]
  | .tokenize f ⟨lane, _⟩ => [{ cls := 6, idx := 9 * f + 4 + lane }]
  | .batchOp f => [{ cls := 6, idx := 9 * f + 8 }]
  | .updateOp n _ _ | .stageMAck n _ => [{ cls := 7, idx := n }]
  | .scheduleSlot _ => [{ cls := 8, idx := 0 }]
  | _ => []

/-- A well-formed command acts for units that the part has. -/
def Statement (i : Instr) : Prop := i.wf = true → ∀ u ∈ units i, u.wf = true

theorem of_core {l : Nat} (h : decide (l < 64) = true) : ∀ u ∈ [vectorUnit l], u.wf = true := by
  simpa [UnitId.wf, unitCount, vectorUnit] using h


theorem registerWrite (r : Req) (off : Nat) (v : Word) :
    Statement (.registerWrite r off v) := fun _ _ h => absurd h (List.not_mem_nil)
theorem rcRead (r : Req) (off : Nat) : Statement (.rcRead r off) := fun _ _ h => absurd h (List.not_mem_nil)
theorem loRead (r : Req) (off : Nat) (two : Bool) : Statement (.loRead r off two) := fun _ _ h => absurd h (List.not_mem_nil)
theorem bar0UnsupportedRequest (r : Req) (off : Nat) (isWrite : Bool) :
    Statement (.bar0UnsupportedRequest r off isWrite) := fun _ _ h => absurd h (List.not_mem_nil)
theorem bar2Access (p : HPort) (src : BusSource) (x : MetAccess) :
    Statement (.bar2Access p src x) := fun _ _ h => absurd h (List.not_mem_nil)
theorem cxlMemAccess (p : HPort) (x : MetAccess) : Statement (.cxlMemAccess p x) := fun _ _ h => absurd h (List.not_mem_nil)
theorem load (slot : FSlot) : Statement (.load slot) := fun _ _ h => absurd h (List.not_mem_nil)
theorem verifyDone (slot : FSlot) : Statement (.verifyDone slot) := fun _ _ h => absurd h (List.not_mem_nil)
theorem evict (slot : FSlot) : Statement (.evict slot) := fun _ _ h => absurd h (List.not_mem_nil)
theorem start (slot : FSlot) (t : Nat) : Statement (.start slot t) := fun _ _ h => absurd h (List.not_mem_nil)
theorem stop : Statement .stop := fun _ _ h => absurd h (List.not_mem_nil)
theorem marginRst : Statement .marginRst := fun _ _ h => absurd h (List.not_mem_nil)
theorem mailboxAddrValid (pair : AddrPair) (v : Word) :
    Statement (.mailboxAddrValid pair v) := fun _ _ h => absurd h (List.not_mem_nil)
theorem rdcEn (hub : Nat) (en : Bool) : Statement (.rdcEn hub en) := fun _ _ h => absurd h (List.not_mem_nil)
theorem invAll (hub : Nat) : Statement (.invAll hub) := fun _ _ h => absurd h (List.not_mem_nil)
theorem chunkRst (pile : Nat) : Statement (.chunkRst pile) := fun _ _ h => absurd h (List.not_mem_nil)
theorem cacheClr : Statement .cacheClr := fun _ _ h => absurd h (List.not_mem_nil)
theorem train (q : Nat) : Statement (.train q) := fun _ _ h => absurd h (List.not_mem_nil)
theorem marginNow (q : Nat) (margins : List Nat) : Statement (.marginNow q margins) := fun _ _ h => absurd h (List.not_mem_nil)
theorem retire (coord : Coord) : Statement (.retire coord) := fun _ _ h => absurd h (List.not_mem_nil)
theorem ctrl (via : Req) (target : HPort) : Statement (.ctrl via target) := fun _ _ h => absurd h (List.not_mem_nil)
theorem biasApply : Statement .biasApply := fun _ _ h => absurd h (List.not_mem_nil)
theorem biasFlipComplete (page : Nat) : Statement (.biasFlipComplete page) := fun _ _ h => absurd h (List.not_mem_nil)
theorem holdReq : Statement .holdReq := fun _ _ h => absurd h (List.not_mem_nil)
theorem pwrCapWrite (r : Req) (v : Word) : Statement (.pwrCapWrite r v) := fun _ _ h => absurd h (List.not_mem_nil)
theorem devReset (v : Word) (flushed : Nat) : Statement (.devReset v flushed) := fun _ _ h => absurd h (List.not_mem_nil)
theorem testCtlWrite (v : Word) : Statement (.testCtlWrite v) := fun _ _ h => absurd h (List.not_mem_nil)
theorem getNonce : Statement .getNonce := fun _ _ h => absurd h (List.not_mem_nil)
theorem signedRequest : Statement .signedRequest := fun _ _ h => absurd h (List.not_mem_nil)
theorem provisionKey : Statement .provisionKey := fun _ _ h => absurd h (List.not_mem_nil)
theorem revokeKey : Statement .revokeKey := fun _ _ h => absurd h (List.not_mem_nil)
theorem advanceFing : Statement .advanceFing := fun _ _ h => absurd h (List.not_mem_nil)
theorem blockVendorDebug : Statement .blockVendorDebug := fun _ _ h => absurd h (List.not_mem_nil)
theorem debugL1 : Statement .debugL1 := fun _ _ h => absurd h (List.not_mem_nil)
theorem debugL2 : Statement .debugL2 := fun _ _ h => absurd h (List.not_mem_nil)
theorem debugLock : Statement .debugLock := fun _ _ h => absurd h (List.not_mem_nil)
theorem fwUpdate : Statement .fwUpdate := fun _ _ h => absurd h (List.not_mem_nil)
theorem mailboxRead (t : Nat) : Statement (.mailboxRead t) := fun _ _ h => absurd h (List.not_mem_nil)
theorem mailboxReadComplete (page : Option Bytes) :
    Statement (.mailboxReadComplete page) := fun _ _ h => absurd h (List.not_mem_nil)
theorem nop : Statement .nop := fun _ _ h => absurd h (List.not_mem_nil)
theorem switch : Statement .switch := fun _ _ h => absurd h (List.not_mem_nil)
theorem mailboxStop : Statement .mailboxStop := fun _ _ h => absurd h (List.not_mem_nil)
theorem args : Statement .args := fun _ _ h => absurd h (List.not_mem_nil)
theorem marker (t : Nat) : Statement (.marker t) := fun _ _ h => absurd h (List.not_mem_nil)
theorem gapStart (t : Nat) : Statement (.gapStart t) := fun _ _ h => absurd h (List.not_mem_nil)
theorem gapEntry (t : Nat) : Statement (.gapEntry t) := fun _ _ h => absurd h (List.not_mem_nil)
theorem beatReport (t : Nat) : Statement (.beatReport t) := fun _ _ h => absurd h (List.not_mem_nil)
theorem verdict (x : Relayed) (t : Nat) : Statement (.verdict x t) := fun _ _ h => absurd h (List.not_mem_nil)
theorem commit (t : Nat) : Statement (.commit t) := fun _ _ h => absurd h (List.not_mem_nil)
theorem commitSkip (t : Nat) : Statement (.commitSkip t) := fun _ _ h => absurd h (List.not_mem_nil)
theorem replay (t : Nat) : Statement (.replay t) := fun _ _ h => absurd h (List.not_mem_nil)
theorem verdictLate (t : Nat) : Statement (.verdictLate t) := fun _ _ h => absurd h (List.not_mem_nil)
theorem masterLost (t : Nat) : Statement (.masterLost t) := fun _ _ h => absurd h (List.not_mem_nil)
theorem backupAssumesMastership (t : Nat) : Statement (.backupAssumesMastership t) := fun _ _ h => absurd h (List.not_mem_nil)
theorem slotStart (u : UnitId) (t : Nat) : Statement (.slotStart u t) := by
  intro h; simpa [units, Instr.wf] using h
theorem slotEnd (u : UnitId) (t : Nat) (errs : List HwErr) : Statement (.slotEnd u t errs) := by
  intro h; simp only [Instr.wf, Bool.and_eq_true] at h; simpa [units] using h.1
theorem slotHung (u : UnitId) (t : Nat) : Statement (.slotHung u t) := by
  intro h; simpa [units, Instr.wf] using h
theorem markerIssue (t : Nat) : Statement (.markerIssue t) := fun _ _ h => absurd h (List.not_mem_nil)
theorem report (x : Arrival) (t : Nat) : Statement (.report x t) := fun _ _ h => absurd h (List.not_mem_nil)
theorem memberLostTimeout (member : Nat) (t : Nat) :
    Statement (.memberLostTimeout member t) := fun _ _ h => absurd h (List.not_mem_nil)
theorem join (x : Arrival) (t : Nat) : Statement (.join x t) := fun _ _ h => absurd h (List.not_mem_nil)
theorem joinTimeout (t : Nat) : Statement (.joinTimeout t) := fun _ _ h => absurd h (List.not_mem_nil)
theorem sync (t : Nat) : Statement (.sync t) := fun _ _ h => absurd h (List.not_mem_nil)
theorem beatInEdge (t : Nat) : Statement (.beatInEdge t) := fun _ _ h => absurd h (List.not_mem_nil)
theorem syncResult (x : Arrival) (t : Nat) : Statement (.syncResult x t) := fun _ _ h => absurd h (List.not_mem_nil)
theorem standaloneFirstMarker (t : Nat) : Statement (.standaloneFirstMarker t) := fun _ _ h => absurd h (List.not_mem_nil)
theorem admitDevice (x : Arrival) (t : Nat) : Statement (.admitDevice x t) := fun _ _ h => absurd h (List.not_mem_nil)
theorem ready (x : Arrival) (t : Nat) : Statement (.ready x t) := fun _ _ h => absurd h (List.not_mem_nil)
theorem resume (t : Nat) : Statement (.resume t) := fun _ _ h => absurd h (List.not_mem_nil)
theorem dataFrame (q : Nat) (f : Frame) : Statement (.dataFrame q f) := fun _ _ h => absurd h (List.not_mem_nil)
theorem reduceFrame (q : Nat) (f : Frame) : Statement (.reduceFrame q f) := fun _ _ h => absurd h (List.not_mem_nil)
theorem ack (q : Nat) (f : Frame) : Statement (.ack q f) := fun _ _ h => absurd h (List.not_mem_nil)
theorem nak (q : Nat) (f : Frame) : Statement (.nak q f) := fun _ _ h => absurd h (List.not_mem_nil)
theorem credit (q : Nat) (f : Frame) : Statement (.credit q f) := fun _ _ h => absurd h (List.not_mem_nil)
theorem ident (q : Nat) (f : Frame) : Statement (.ident q f) := fun _ _ h => absurd h (List.not_mem_nil)
theorem probe (x : Arrival) (roundTrip : Nat) : Statement (.probe x roundTrip) := fun _ _ h => absurd h (List.not_mem_nil)
theorem idleTimer (q : Nat) : Statement (.idleTimer q) := fun _ _ h => absurd h (List.not_mem_nil)
theorem ackTimer (q : Nat) : Statement (.ackTimer q) := fun _ _ h => absurd h (List.not_mem_nil)
theorem creditReturn (q : Nat) : Statement (.creditReturn q) := fun _ _ h => absurd h (List.not_mem_nil)
theorem linkTrainingDone (q : Nat) (r : TrainResult) :
    Statement (.linkTrainingDone q r) := fun _ _ h => absurd h (List.not_mem_nil)
theorem latencyRemeasure (q : Nat) (roundTrips : List (Nat × Nat)) :
    Statement (.latencyRemeasure q roundTrips) := fun _ _ h => absurd h (List.not_mem_nil)
theorem laneMarginMeasure (q : Nat) (lane : Nat) (margin : Nat) :
    Statement (.laneMarginMeasure q lane margin) := fun _ _ h => absurd h (List.not_mem_nil)
theorem laneDrop (q : Nat) (lane : Nat) : Statement (.laneDrop q lane) := fun _ _ h => absurd h (List.not_mem_nil)
theorem portDown (q : Nat) (cause : PortDownCause) : Statement (.portDown q cause) := fun _ _ h => absurd h (List.not_mem_nil)
theorem partnerLost (t : Nat) : Statement (.partnerLost t) := fun _ _ h => absurd h (List.not_mem_nil)
theorem send (q : Nat) : Statement (.send q) := by
  simp [Statement, units, Instr.wf, UnitId.wf, unitCount]
theorem mcast (q : Nat) : Statement (.mcast q) := by
  simp [Statement, units, Instr.wf, UnitId.wf, unitCount]
theorem reduce (q : Nat) : Statement (.reduce q) := by
  simp [Statement, units, Instr.wf, UnitId.wf, unitCount]
theorem plain (x : Arrival) : Statement (.plain x) := fun _ _ h => absurd h (List.not_mem_nil)
theorem stageM (x : Arrival) : Statement (.stageM x) := fun _ _ h => absurd h (List.not_mem_nil)
theorem stageW (x : Arrival) : Statement (.stageW x) := fun _ _ h => absurd h (List.not_mem_nil)
theorem fence (x : Arrival) : Statement (.fence x) := fun _ _ h => absurd h (List.not_mem_nil)
theorem copy (x : Arrival) : Statement (.copy x) := fun _ _ h => absurd h (List.not_mem_nil)
theorem updateOp (n : Nat) (t : Nat) (errs : List HwErr) : Statement (.updateOp n t errs) := by
  simp +contextual [Statement, units, Instr.wf, UnitId.wf, unitCount]
theorem stageMAck (n : Nat) (x : StageAck) : Statement (.stageMAck n x) := by
  simp +contextual [Statement, units, Instr.wf, UnitId.wf, unitCount]
theorem updSelftestDone (n : Nat) (pass : Bool) : Statement (.updSelftestDone n pass) := fun _ _ h => absurd h (List.not_mem_nil)
theorem scheduleSlot (t : Nat) : Statement (.scheduleSlot t) := by
  simp [Statement, units, Instr.wf, UnitId.wf, unitCount]
theorem move (m : Nat) (superData : Option Bytes) : Statement (.move m superData) := by
  simp [Statement, units, Instr.wf, UnitId.wf, unitCount]
theorem fetch (m : Nat) (superData : Option Bytes) : Statement (.fetch m superData) := by
  simp [Statement, units, Instr.wf, UnitId.wf, unitCount]
theorem holdSpaceFreed (pile : Nat) : Statement (.holdSpaceFreed pile) := fun _ _ h => absurd h (List.not_mem_nil)
theorem homingComplete (tensor : Nat) (data : Bytes) :
    Statement (.homingComplete tensor data) := fun _ _ h => absurd h (List.not_mem_nil)
theorem h2d (e : Nat) : Statement (.h2d e) := by
  simp [Statement, units, Instr.wf, UnitId.wf, unitCount]
theorem d2h (e : Nat) : Statement (.d2h e) := by
  simp [Statement, units, Instr.wf, UnitId.wf, unitCount]
theorem notify (e : Nat) : Statement (.notify e) := by
  simp [Statement, units, Instr.wf, UnitId.wf, unitCount]
theorem readCompletion (e : Nat) (c : CompletionKind) : Statement (.readCompletion e c) := by
  simp [Statement, units, Instr.wf, UnitId.wf, unitCount]
theorem flushingReadComplete (run : Nat) : Statement (.flushingReadComplete run) := fun _ _ h => absurd h (List.not_mem_nil)
theorem completionTimeout (e : Nat) : Statement (.completionTimeout e) := by
  simp [Statement, units, Instr.wf, UnitId.wf, unitCount]
theorem endOfSequence (l arr : Nat) : Statement (.endOfSequence l arr) := by
  simp [Statement, units, Instr.wf, UnitId.wf, unitCount, arrayUnit]; omega
theorem real (l arr : Nat) (errs : List HwErr) : Statement (.real l arr errs) := by
  simp [Statement, units, Instr.wf, UnitId.wf, unitCount, arrayUnit]; omega
theorem complex (l arr : Nat) (errs : List HwErr) : Statement (.complex l arr errs) := by
  simp [Statement, units, Instr.wf, UnitId.wf, unitCount, arrayUnit]; omega
theorem fp32x6 (l arr : Nat) (errs : List HwErr) : Statement (.fp32x6 l arr errs) := by
  simp [Statement, units, Instr.wf, UnitId.wf, unitCount, arrayUnit]; omega
theorem vadd (l : Nat) : Statement (.vadd l) := of_core
theorem vsub (l : Nat) : Statement (.vsub l) := of_core
theorem vmul (l : Nat) : Statement (.vmul l) := of_core
theorem vfma (l : Nat) : Statement (.vfma l) := of_core
theorem vneg (l : Nat) : Statement (.vneg l) := of_core
theorem vabs (l : Nat) : Statement (.vabs l) := of_core
theorem vmax (l : Nat) : Statement (.vmax l) := of_core
theorem vmin (l : Nat) : Statement (.vmin l) := of_core
theorem vcmp (l : Nat) : Statement (.vcmp l) := of_core
theorem vsel (l : Nat) : Statement (.vsel l) := of_core
theorem vcvt (l : Nat) : Statement (.vcvt l) := of_core
theorem vamax (l : Nat) : Statement (.vamax l) := of_core
theorem vscale (l : Nat) : Statement (.vscale l) := of_core
theorem vrsum (l : Nat) : Statement (.vrsum l) := of_core
theorem vrmax (l : Nat) : Statement (.vrmax l) := of_core
theorem vrmin (l : Nat) : Statement (.vrmin l) := of_core
theorem vexp (l : Nat) : Statement (.vexp l) := of_core
theorem vlog (l : Nat) : Statement (.vlog l) := of_core
theorem vrcp (l : Nat) : Statement (.vrcp l) := of_core
theorem vrsqrt (l : Nat) : Statement (.vrsqrt l) := of_core
theorem vsin (l : Nat) : Statement (.vsin l) := of_core
theorem vcos (l : Nat) : Statement (.vcos l) := of_core
theorem vperm (l : Nat) : Statement (.vperm l) := of_core
theorem vbcast (l : Nat) : Statement (.vbcast l) := of_core
theorem vmovs (l : Nat) : Statement (.vmovs l) := of_core
theorem vgath (l : Nat) : Statement (.vgath l) := of_core
theorem vld (l : Nat) : Statement (.vld l) := of_core
theorem vst (l : Nat) : Statement (.vst l) := of_core
theorem vqpop (l : Nat) : Statement (.vqpop l) := of_core
theorem vwga (l : Nat) : Statement (.vwga l) := of_core
theorem sli (l : Nat) : Statement (.sli l) := of_core
theorem slui (l : Nat) : Statement (.slui l) := of_core
theorem sadd (l : Nat) : Statement (.sadd l) := of_core
theorem saddi (l : Nat) : Statement (.saddi l) := of_core
theorem ssub (l : Nat) : Statement (.ssub l) := of_core
theorem smul (l : Nat) : Statement (.smul l) := of_core
theorem sand (l : Nat) : Statement (.sand l) := of_core
theorem sor (l : Nat) : Statement (.sor l) := of_core
theorem sxor (l : Nat) : Statement (.sxor l) := of_core
theorem sshl (l : Nat) : Statement (.sshl l) := of_core
theorem sshr (l : Nat) : Statement (.sshr l) := of_core
theorem sld (l : Nat) : Statement (.sld l) := of_core
theorem sst (l : Nat) : Statement (.sst l) := of_core
theorem vext (l : Nat) : Statement (.vext l) := of_core
theorem br (l : Nat) : Statement (.br l) := of_core
theorem beqz (l : Nat) : Statement (.beqz l) := of_core
theorem bnez (l : Nat) : Statement (.bnez l) := of_core
theorem blt (l : Nat) : Statement (.blt l) := of_core
theorem loop (l : Nat) : Statement (.loop l) := of_core
theorem wait (l : Nat) : Statement (.wait l) := of_core
theorem signal (l : Nat) : Statement (.signal l) := of_core
theorem endRoutine (l : Nat) : Statement (.endRoutine l) := of_core
theorem signalArrival (src dst counter : Nat) :
    Statement (.signalArrival src dst counter) := fun _ _ h => absurd h (List.not_mem_nil)
theorem waitSatisfied (u : UnitId) : Statement (.waitSatisfied u) := by
  intro h; simpa [units, Instr.wf] using h
theorem sampleRecord (f : Nat) (q : Option Nat) (rec : SampleRec) :
    Statement (.sampleRecord f q rec) := fun _ _ h => absurd h (List.not_mem_nil)
theorem jpegDecode (f : Nat) (x : LaneTurn) : Statement (.jpegDecode f x) := by
  simp [Statement, units, Instr.wf, UnitId.wf, unitCount]; omega
theorem tokenize (f : Nat) (x : LaneTurn) : Statement (.tokenize f x) := by
  simp [Statement, units, Instr.wf, UnitId.wf, unitCount]; omega
theorem batchOp (f : Nat) : Statement (.batchOp f) := by
  simp [Statement, units, Instr.wf, UnitId.wf, unitCount]; omega
theorem plannedBurst (x : Burst) : Statement (.plannedBurst x) := fun _ _ h => absurd h (List.not_mem_nil)
theorem refreshInterval (pile : Nat) : Statement (.refreshInterval pile) := fun _ _ h => absurd h (List.not_mem_nil)
theorem patrolScrub (pile cw : Nat) (errs : List (Nat × Nat × Nat)) (interfaceOk : Bool) :
    Statement (.patrolScrub pile cw errs interfaceOk) := fun _ _ h => absurd h (List.not_mem_nil)
theorem edramWriteBack (pile line : Nat) : Statement (.edramWriteBack pile line) := fun _ _ h => absurd h (List.not_mem_nil)
theorem flitCrcFail (hub module nth : Nat) : Statement (.flitCrcFail hub module nth) := fun _ _ h => absurd h (List.not_mem_nil)
theorem moduleRetrainDone (hub module : Nat) (failed : List Nat) :
    Statement (.moduleRetrainDone hub module failed) := fun _ _ h => absurd h (List.not_mem_nil)
theorem moduleRetrainTimeout (hub module : Nat) :
    Statement (.moduleRetrainTimeout hub module) := fun _ _ h => absurd h (List.not_mem_nil)
theorem parameterBlock (hub module die : Nat) (b : ParamBlock) :
    Statement (.parameterBlock hub module die b) := fun _ _ h => absurd h (List.not_mem_nil)
theorem parameterBlockTimeout (hub die : Nat) :
    Statement (.parameterBlockTimeout hub die) := fun _ _ h => absurd h (List.not_mem_nil)
theorem remoteRead (l : Nat) (addr len : Nat) (errs : List HwErr) :
    Statement (.remoteRead l addr len errs) := fun _ _ h => absurd h (List.not_mem_nil)
theorem powerSample (p : PowerSample) : Statement (.powerSample p) := fun _ _ h => absurd h (List.not_mem_nil)
theorem powerStepUpdate (belowFor1ms : Bool) :
    Statement (.powerStepUpdate belowFor1ms) := fun _ _ h => absurd h (List.not_mem_nil)
theorem thermalRead (temps : Temps) : Statement (.thermalRead temps) := fun _ _ h => absurd h (List.not_mem_nil)
theorem thermalStepTick (die : Nat) : Statement (.thermalStepTick die) := fun _ _ h => absurd h (List.not_mem_nil)
theorem wakeStart (u : UnitId) (t : Nat) : Statement (.wakeStart u t) := by
  intro h; simpa [units, Instr.wf] using h
theorem unplannedWake (u : UnitId) (t : Nat) : Statement (.unplannedWake u t) := by
  intro h; simpa [units, Instr.wf] using h
theorem autoHold : Statement .autoHold := fun _ _ h => absurd h (List.not_mem_nil)
theorem holdExit : Statement .holdExit := fun _ _ h => absurd h (List.not_mem_nil)
theorem dStateChange (p : HPort) (d3hot : Bool) : Statement (.dStateChange p d3hot) := fun _ _ h => absurd h (List.not_mem_nil)
theorem crossingTimeout (domain : Nat) (reader : Option (Req × Nat)) :
    Statement (.crossingTimeout domain reader) := fun _ _ h => absurd h (List.not_mem_nil)
theorem pllUnlock (domain : Nat) : Statement (.pllUnlock domain) := fun _ _ h => absurd h (List.not_mem_nil)
theorem pllRelock (domain : Nat) : Statement (.pllRelock domain) := fun _ _ h => absurd h (List.not_mem_nil)
theorem pllRelockTimeout (domain : Nat) : Statement (.pllRelockTimeout domain) := fun _ _ h => absurd h (List.not_mem_nil)
theorem powerOkAssert (pkg : Package) : Statement (.powerOkAssert pkg) := fun _ _ h => absurd h (List.not_mem_nil)
theorem powerOkDeassert : Statement .powerOkDeassert := fun _ _ h => absurd h (List.not_mem_nil)
theorem startupStepTimeout (stepNo : Nat) : Statement (.startupStepTimeout stepNo) := fun _ _ h => absurd h (List.not_mem_nil)
theorem portReset (p : HPort) (kind : PortResetKind) (flushed : Nat) :
    Statement (.portReset p kind flushed) := fun _ _ h => absurd h (List.not_mem_nil)
theorem pcieLinkUp (p : HPort) (link : PortLink) : Statement (.pcieLinkUp p link) := fun _ _ h => absurd h (List.not_mem_nil)
theorem linkRecovery (p : HPort) : Statement (.linkRecovery p) := fun _ _ h => absurd h (List.not_mem_nil)
theorem cxlCacheTimeout (hub : Nat) : Statement (.cxlCacheTimeout hub) := fun _ _ h => absurd h (List.not_mem_nil)
theorem watchdog (flushed : Nat) : Statement (.watchdog flushed) := fun _ _ h => absurd h (List.not_mem_nil)
theorem getCertificate (ep : MgmtEp) (off len : Nat) :
    Statement (.getCertificate ep off len) := fun _ _ h => absurd h (List.not_mem_nil)
theorem challenge (ep : MgmtEp) (nonce : Bytes) : Statement (.challenge ep nonce) := fun _ _ h => absurd h (List.not_mem_nil)
theorem getMeasurements (ep : MgmtEp) (index : Nat) (signed : Bool) (nonce : Bytes) :
    Statement (.getMeasurements ep index signed nonce) := fun _ _ h => absurd h (List.not_mem_nil)
theorem readTelemetry (ep : MgmtEp) : Statement (.readTelemetry ep) := fun _ _ h => absurd h (List.not_mem_nil)
theorem setCap (ep : MgmtEp) (w : Nat) : Statement (.setCap ep w) := fun _ _ h => absurd h (List.not_mem_nil)
theorem getCap (ep : MgmtEp) : Statement (.getCap ep) := fun _ _ h => absurd h (List.not_mem_nil)
theorem coverDue (die : Nat) : Statement (.coverDue die) := fun _ _ h => absurd h (List.not_mem_nil)
theorem coreSelfTestDone (p : Nat) (x : TestEnd) : Statement (.coreSelfTestDone p x) := fun _ _ h => absurd h (List.not_mem_nil)
theorem controlMessageReceipt (q : Nat) (f : Frame) (residence t : Nat) :
    Statement (.controlMessageReceipt q f residence t) := fun _ _ h => absurd h (List.not_mem_nil)
theorem masterAndBackupLost (t : Nat) : Statement (.masterAndBackupLost t) := fun _ _ h => absurd h (List.not_mem_nil)
theorem copyRequest (q : Nat) (f : Frame) : Statement (.copyRequest q f) := fun _ _ h => absurd h (List.not_mem_nil)
theorem eszCmdDone : Statement .eszCmdDone := fun _ _ h => absurd h (List.not_mem_nil)
theorem tapAccess (op : TapOp) : Statement (.tapAccess op) := fun _ _ h => absurd h (List.not_mem_nil)
theorem negotiateAlgorithms (ep : MgmtEp) : Statement (.negotiateAlgorithms ep) := fun _ _ h => absurd h (List.not_mem_nil)
theorem dynamicAddress (addr : Nat) : Statement (.dynamicAddress addr) := fun _ _ h => absurd h (List.not_mem_nil)

end Sys2Proof.Laws.Shape
end

