-- ==== Sys2Proof/Laws/Vector.lean ====
section
/-! SUPPORT. What a step of the vector engine does once: an instruction that the engine has reached runs its body, an engine-only
instruction replaces the engine's registers and goes on, and the writes of vector and scalar registers. -/

namespace Sys2Proof.Laws

open Sys2Proof Sys2Proof.Machine

theorem isSome_of_runOf {s : State} {u : UnitId} {r : RunSlot} (h : s.runOf u = some r) : (s.unit u).run.isSome = true := by
  unfold State.runOf at h
  split at h
  · rename_i x hx; rw [hx]; rfl
  · cases h

theorem setRun_of_runOf {s : State} {u : UnitId} {r q : RunSlot} (h : s.runOf u = some r) :
    s.setRun u q = s.setUnit u { s.unit u with run := some q } := by
  unfold State.setRun
  rw [if_pos (isSome_of_runOf h)]

/-- Under the row of its opcode a valid instruction that the engine has reached runs its body. -/
theorem vecStep_at {s : State} {l opc : Nat} {r : RunSlot} {i : VInstr} (h : s.atVec l opc r i) (body : VecCtx → State → State) :
    vecStep opc l body s = body (s.vecCtx l r i) s := by
  obtain ⟨hr, hi, hv, ho, -⟩ := h
  simp only [vecStep, hr, hi, hv, ho, Bool.not_true, Bool.false_eq_true, if_false, if_true, State.vecCtx]

theorem vecCtx_phys (s : State) (l : Nat) (r : RunSlot) (i : VInstr) : (s.vecCtx l r i).c.phys = s.physOf l := by
  simp only [State.vecCtx, State.errCtx, vectorUnit]
  rfl

/-- Going on to the next instruction moves the slot's pointer and nothing else. -/
theorem nextInstr_at {s t : State} {l opc : Nat} {r : RunSlot} {i : VInstr} (h : s.atVec l opc r i)
    (ht : (t.unit (vectorUnit l)).run.isSome = true) : t.nextInstr (s.vecCtx l r i) = t.goesTo l r (r.ptr + 8) := by
  obtain ⟨-, -, -, -, hp⟩ := h
  have hc : (0 : Int) ≤ (r.ptr : Int) + 8 ∧ (r.ptr : Int) + 8 < 0x100000 := by omega
  have hn : ((r.ptr : Int) + 8).toNat = r.ptr + 8 := by omega
  simp only [State.nextInstr, State.jump, State.vecCtx, if_pos hc, hn, State.setRun, if_pos ht, State.goesTo]
  rfl

/-- An instruction that only changes the engine's registers. -/
theorem regStep_at {s : State} {l opc : Nat} {r : RunSlot} {i : VInstr} (h : s.atVec l opc r i) (f : VInstr → VecSt → VecSt) :
    regStep opc l f s = s.vecDone l r (f i (s.vec (s.physOf l))) := by
  unfold regStep
  rw [vecStep_at h]
  have hs := isSome_of_runOf h.1
  show (s.setVec (s.vecCtx l r i).c.phys (f i (s.vec (s.vecCtx l r i).c.phys))).nextInstr _ = _
  rw [vecCtx_phys]
  exact nextInstr_at h hs

/-- A masked write of a vector register. -/
theorem setV_laneWrite (v : VecSt) (i : VInstr) (x : List Word) (f : Nat → Word) (hf : ∀ n, n < 128 → x.getD n 0 = f n) :
    laneWrite i f v (v.setV i x) := by
  refine ⟨rfl, fun k hk => ?_, fun n hn => ?_⟩
  · simp only [VecSt.vreg, VecSt.setV, getKey_putKey_ne _ _ hk]
  · have hx : (v.setV i x).vreg i.d
        = (List.range 128).map fun n => if v.lane i n then x.getD n 0 else (v.vreg i.d).getD n 0 := by
      simp only [VecSt.vreg, VecSt.setV, getKey_putKey_self, Option.getD_some]
    simp only [VecSt.at, hx, List.getD_eq_getElem?_getD, List.getElem?_map, List.getElem?_range hn, Option.map_some,
      Option.getD_some]
    rw [← List.getD_eq_getElem?_getD, hf n hn]
    simp [VecSt.lane]

/-- A write of a scalar register. -/
theorem setS_scalarWrite (v : VecSt) (d : Nat) (x : DWord) : scalarWrite d x v (v.setS d x) := by
  unfold VecSt.setS
  split
  · rename_i h
    exact ⟨rfl, fun k => by simp [h]⟩
  · rename_i h
    refine ⟨rfl, fun k => ?_⟩
    by_cases hk : k = d
    · subst hk; simp [VecSt.sreg, h, getKey_putKey_self]
    · simp [VecSt.sreg, hk, getKey_putKey_ne]

end Sys2Proof.Laws
end

