-- ==== Sys2Proof/Tests/Slice0.lean ====
section
/-! SUPPORT. Tests: ill-formed commands that the checks refuse, states that meet the hypotheses of the statements, and single
steps whose results are worked out by hand from the manual. -/

namespace Sys2Proof.Tests

set_option Elab.async false

open Sys2Proof Sys2Proof.Machine

/-! ### Ill-formed commands -/

/-- A frame with nothing in it. -/
def frame00 : Frame :=
  { typ := 1, vl := 1, flags := 0, len := 0, dest := { x := 0, y := 0, z := 0 }, src := { x := 0, y := 0, z := 0 }, lseq := 0, dseq := 0,
    cascade := 0, taddr := 0, payload := [], crc := 0 }

theorem test_wf_offset : (Instr.registerWrite .portA 2 0).wf = false ∧ (Instr.rcRead .portA 0x4000000).wf = false := by decide
theorem test_wf_lo : (Instr.loRead .portA 0x10000C true).wf = false := by decide
theorem test_wf_bar0 : (Instr.bar0UnsupportedRequest .portA 0x4000000 true).wf = false := by decide
theorem test_wf_hub : (Instr.rdcEn 2 true).wf = false ∧ (Instr.cxlCacheTimeout 2).wf = false := by decide
theorem test_wf_pile : (Instr.chunkRst 16).wf = false ∧ (Instr.patrolScrub 20 0 [] true).wf = false := by decide
theorem test_wf_port : (Instr.train 32).wf = false ∧ (Instr.probe ⟨32, frame00⟩ 0).wf = false := by decide
theorem test_wf_margins : (Instr.marginNow 0 [1, 2, 3]).wf = false := by decide
theorem test_wf_lane : (Instr.laneDrop 0 4).wf = false := by decide
theorem test_wf_coord : (Instr.retire { x := 16, y := 0, z := 0 }).wf = false := by decide
theorem test_wf_page : (Instr.mailboxReadComplete (some [0])).wf = false := by decide
theorem test_wf_unit : (Instr.slotStart { cls := 1, idx := 192 } 0).wf = false ∧ (Instr.waitSatisfied { cls := 9, idx := 0 }).wf = false := by
  decide
theorem test_wf_errs : (Instr.slotEnd { cls := 1, idx := 0 } 0 [.combCe 4]).wf = false := by decide
theorem test_wf_engine : (Instr.updateOp 16 0 []).wf = false ∧ (Instr.h2d 24).wf = false ∧ (Instr.move 32 none).wf = false := by decide
theorem test_wf_array : (Instr.real 64 0 []).wf = false ∧ (Instr.endOfSequence 0 3).wf = false := by decide
theorem test_wf_core : (Instr.vadd 64).wf = false ∧ (Instr.signalArrival 0 0 32).wf = false := by decide
theorem test_wf_forager : (Instr.batchOp 2).wf = false ∧ (Instr.jpegDecode 0 ⟨4, true⟩).wf = false := by decide
theorem test_wf_module : (Instr.flitCrcFail 0 120 1).wf = false ∧ (Instr.parameterBlockTimeout 0 11).wf = false := by decide
theorem test_wf_temps : (Instr.thermalRead { dies := [], dram := [] }).wf = false := by decide
theorem test_wf_die : (Instr.coverDue 4).wf = false ∧ (Instr.coreSelfTestDone 68 ⟨true, []⟩).wf = false := by decide
theorem test_wf_step : (Instr.startupStepTimeout 11).wf = false ∧ (Instr.startupStepTimeout 0).wf = false := by decide
theorem test_wf_small : (Instr.biasFlipComplete 524288).wf = false ∧ (Instr.memberLostTimeout 4096 0).wf = false ∧
    (Instr.dynamicAddress 128).wf = false := by decide

/-! ### States to work on -/

/-- A complete device in READY: every die present, every pile usable, logical cores 0 and 63 mapped. -/
def ready : State :=
  let dies := [0, 1].flatMap fun h => (List.range 11).map fun d => (h, d)
  let s := dies.foldl (fun (s : State) x => s.setBit (Reg.dieStep x.1 x.2) 31 true) (State.reset.setFld Reg.devState 3 0 3)
  let s := (List.range 16).foldl (fun (s : State) n => s.setFld (Reg.pileState n) 2 0 2) s
  let s := [0, 63].foldl (fun (s : State) l => s.setReg (Reg.coreMap l) (BitVec.ofNat 32 (128 + l + l / 16))) s
  { s with power := { s.power with powerOk := true, step := 10 }, pkg := { s.pkg with dies := dies }
           esz := { s.esz with keyHash := [some [1], none, some [2], none, none, none] } }

/-- A header of a cascade of one: a plan of two positions of 100,000 ns. -/
def hdr : Header :=
  { imageSize := 4096, sections := 4, dirOffset := 0x100, sigOffset := 2048, sigSize := 2048, fullTwin := false, streaming := true,
    srEnable := false, standbyB := false, reqCaps := 0, reqPresent0 := 0, reqPresent1 := 0, period := 100000, planLen := 2,
    verdictDelay := 1000, longEvery := 0, cascadeId := 0x1234, cascadeSize := 1, target := 0, rollbackVer := 0, homeDigest := [],
    buildId := [] }

def noPlan : PlanSet := { units := [], longs := [], cores := [], route := none, update := none, tier := none }

def noFing : Fing :=
  { hdr := hdr, own := noPlan, takeover := noPlan, tensors := [], stages := [], rdc := none, numeric := none, forager := none,
    hostIo := none, digest := [], key := 0 }

/-- A device that runs a fingering from slot A as its own master. -/
def runs (g : Fing) : State :=
  { (ready.setFld Reg.devState 3 0 4).setFld Reg.beatCtl 3 0 14 with slotA := { state := 3, lo := 0, hi := 0, kept := [], alone := false, fing := some g } }

/-- A window of position 0 that started at 0 as beat 5. -/
def win0 : Win :=
  { beat := 5, pos := 0, start := 0, stretch := 0, long := false, slot := .a, takeover := false, fixed := false, holdAll := false, replays := 0,
    period := 100000, held := false, fault := false, rpUnits := [], inGap := false, entered := false, reported := false,
    margin := 0, cycle := 0 }

/-- A device in the window. -/
def inWin (g : Fing) (w : Win) : State :=
  let s := (runs g).setPair Reg.beatCountLo w.beat
  { s with beat := { s.beat with win := some w, nextPos := 1 } }

/-- A slot of a unit in that window. -/
def slotOf (u : UnitId) (op : Nat) : RunSlot :=
  { owner := u, slot := 0, pos := 0, beat := 5, op := op, plannedEnd := 50000, started := 100, ptr := 0, ordinal := 0, wait := none,
    prog := 0, rest := [], gs := 0, ended := false }

/-- The unit runs that slot. -/
def putSlot (s : State) (u : UnitId) (r : RunSlot) : State := s.setUnit u { s.unit u with run := some r }

/-! ### Hypotheses of the statements: registers, control and buses -/

theorem test_hyp_queue : ({ State.reset with pending := [.stop] } : State).pending = [.stop] ∧ State.reset.pending = [] := by decide
theorem test_hyp_memory : State.reset.memoryOk = true ∧ step State.reset = .next State.reset := ⟨by decide +kernel, rfl⟩

theorem test_hyp_write : ∃ row, regRow? Reg.biasTableBase = some row ∧ ready.writeOpen Reg.biasTableBase = true ∧
    Reg.biasTableBase ∉ sideEffectRegs ∧ ¬(0x210000 ≤ Reg.biasTableBase ∧ Reg.biasTableBase < 0x212000 ∧ Reg.biasTableBase % 16 = 12) := by
  refine ⟨(regRow? Reg.biasTableBase).get (by decide +kernel), ?_⟩; decide +kernel
theorem test_hyp_write_ferr : (ready.setBit Reg.ferrCode 31 true).bit Reg.ferrCode 31 = true ∧ BitVec.getLsbD (0x80000000 : Word) 31 = true := by
  decide +kernel

/-- Eszoja's firmware runs. -/
def booted (s : State) : State :=
  { s with esz := { s.esz with
      fw := some { copy := 0, eszVer := 1, hubVer := 1, eszFlags := 0, hubFlags := 0, eszEntry := 0, eszDigest := [], hubDigest := [] }
      alias_ := some 7, chain := some 0 } }

/-- Ports A and B are up, with MSI-X. -/
def linked (s : State) : State :=
  let p : HostPort := { up := true, bar2Log2 := 28, maxPayload := 256, maxRead := 512, msixOn := true, cxl := false, flit := true }
  { s with host := { s.host with portA := p, portB := p } }

theorem test_hyp_write_fing : (ready.setBit Reg.fingStatus 8 true).writeOpen Reg.fingCtl = true ∧ (regRow? Reg.fingCtl).isSome = true ∧
    (ready.setBit Reg.fingStatus 8 true).bit Reg.fingStatus 8 = true ∧ ready.bit Reg.fingStatus 8 = false ∧ bits (5 : Word) 2 0 = 5 := by
  decide +kernel
theorem test_hyp_write_open : ready.writeOpen Reg.ferrCode = true ∧ ready.writeOpen Reg.pwrCapMgmt = true ∧
    ready.writeOpen Reg.bar2BaseA = true := by decide +kernel
theorem test_hyp_write_esz : (booted ready).writeOpen Reg.eszCmd = true ∧ (booted ready).power.powerOk = true ∧ (booted ready).esz.fw.isSome = true ∧ (booted ready).esz.busy = none ∧
    bits (5 : Word) 7 0 = 5 := by decide +kernel
theorem test_hyp_write_msix : ((linked ready).setBit (Reg.msixPba 1 3) 31 true).writeOpen (Reg.msix 1 127 3) = true ∧
    ((linked ready).setBit (Reg.msixPba 1 3) 31 true).bit (Reg.msixPba 1 (127 / 32)) (127 % 32) = true ∧
    (((linked ready).setBit (Reg.msixPba 1 3) 31 true).hport (portOf 1)).msixOn = true := by decide +kernel

theorem test_hyp_reserved : regRow? 0x3FFFFFC = none ∧ regRow? 0x80 = none ∧
    ready.power.stopped.contains (regDomain 0x80) = false ∧ ready.writeOpen Reg.fingCtl = true ∧
    State.reset.writeOpen Reg.fingCtl = false := by decide +kernel
theorem test_hyp_read : isLoRead Reg.errSummary = false ∧ ¬(4 ≤ Reg.errSummary ∧ isLoRead (Reg.errSummary - 4) = true) ∧
    isLoRead Reg.energyLo = true ∧ ready.power.stopped.contains (regDomain Reg.energyLo) = false ∧ ready.latch .portA Reg.energyLo = none ∧
    ready.power.stopped.contains (regDomain (Reg.energyLo + 4)) = false := by decide +kernel
theorem test_hyp_read_stopped : ({ ready with power := { ready.power with stopped := [3] } } : State).power.stopped.contains
    (regDomain Reg.beatPeriod) = true := by decide +kernel

theorem test_hyp_bits : ready.writeOpen Reg.beatCtl = true ∧ ready.writeOpen (Reg.updCtl 15) = true ∧ ready.writeOpen Reg.forgCtl = true ∧
    ready.running = false ∧ ready.writeOpen (Reg.rdcCtl 1) = true ∧ (ready.setBit (Reg.capCommon 0) 9 true).hasRdc = true ∧
    (ready.setBit (Reg.capCommon 0) 9 true).running = false ∧ ((runs noFing).setBit (Reg.capCommon 0) 9 true).running = true := by decide +kernel

theorem test_hyp_ctrl : (linked ready).writeOpen Reg.portCtlA = true ∧ (linked (runs noFing)).writeOpen Reg.portCtlA = true ∧ (linked ready).host.ctrl ≠ .b ∧ (linked ready).running = false ∧ (linked (runs noFing)).host.ctrl = .a ∧
    (linked (runs noFing)).running = true := by decide +kernel
theorem test_hyp_pair : ready.writeOpen (pairLo (.mailbox .a)) = true ∧ ready.writeOpen (pairLo (.report .b)) = true := by decide +kernel

/-- Port A exposes two pages of an HDM range at pile address 0. -/
def shared : State :=
  let s := (linked ready).setReg Reg.biasTableBase 0x10
  { s with host := { s.host with portA := { s.host.portA with cxl := true }, hdm := some (.a, 0, 2 ^ 28) } }

theorem test_hyp_bias : shared.writeOpen Reg.biasCtl = true ∧ shared.hdmCxl = true ∧ shared.bit Reg.biasCtl 1 = false ∧ shared.running = false ∧
    (shared.setBit Reg.biasCtl 1 true).bit Reg.biasCtl 1 = true ∧
    ({ shared with host := { shared.host with flips := [(1, true)] } } : State).host.flips = (1, true) :: [] := by decide +kernel
theorem test_hyp_bus : shared.devState ≠ 5 ∧ shared.needsHold (shared.bar2Base .a + 4094) = none ∧
    (∃ ps, shared.placesOf (.host .a) true (shared.bar2Base .a + 4094) 4 = some ps ∧ shared.guards (.host .a) ps = .ok ∧
      (ps.map fun pl => cellOf pl.loc).Nodup) ∧ 4094 + 4 ≤ 2 ^ shared.bar2Log2 .a ∧
    (shared.setReg Reg.bar2BaseA 0x100C).placesOf (.host .a) false ((shared.setReg Reg.bar2BaseA 0x100C).bar2Base .a) 2 = none := by
  refine ⟨by decide +kernel, by decide +kernel, ⟨(shared.placesOf (.host .a) true (shared.bar2Base .a + 4094) 4).get (by decide +kernel), ?_⟩, ?_⟩
    <;> decide +kernel

theorem test_hyp_modules : let s := (runs noFing).setFld (Reg.d2dModStatus 1 119) 1 0 2
    s.modState 1 119 = 2 ∧ s.running = true ∧ (s.setFld (Reg.d2dModStatus 1 95) 1 0 1).modState 1 95 = 1 ∧
    (∃ m ∈ connMods 95, m ≠ 95 ∧ s.modState 1 m ≠ 3) ∧ ((List.range 64).filter [0, 21, 42, 63].contains).length ≤ 4 ∧
    s.test.loss = none ∧ ([(0, 64), (63, 67)].map Prod.fst).Nodup ∧ ([(0, 64), (63, 67)].map Prod.snd).Nodup ∧ (s.modSt 1 95).mapped = [] ∧
    (s.modSt 1 119).degraded = false := by decide +kernel
/-! ### Hypotheses of the statements: cores -/

/-- Core 0 in the window, its vector engine at this instruction word. -/
def vecAt (w : Nat) : State :=
  let s := inWin noFing win0
  let s := { s with sram := s.sram.writeN 0x1F00000 (leBytes 8 w) }
  putSlot s (vectorUnit 0) (slotOf (vectorUnit 0) 0)

/-- An instruction word of Table 3.26: opcode, D, A, B, C, FMT and the immediate, with no mask. -/
def vword (opc d a b c fmt imm : Nat) : Nat := opc + d * 2 ^ 8 + a * 2 ^ 14 + b * 2 ^ 20 + c * 2 ^ 26 + fmt * 2 ^ 32 + imm * 2 ^ 40

/-- The slot and the instruction of `vecAt`. -/
def vslot : RunSlot := slotOf (vectorUnit 0) 0
def vop (w : Nat) : VInstr := decodeVec w

theorem test_hyp_vector : ∀ x ∈ vectorCommands 0, ∀ w ∈ [vword x.2 1 2 3 4 3 0], (vecAt w).runOf (vectorUnit 0) = some vslot ∧
    (vecAt w).instrAt vslot = vop w ∧ (vop w).valid = true ∧ (vop w).opc = x.2 ∧ vslot.ptr + 8 < 0x100000 := by decide +kernel
theorem test_hyp_vcvt : (vop (vword 0x20 1 2 3 4 2 0)).valid = true ∧ (vop (vword 0x48 1 2 3 4 0 0)).valid = true ∧
    (vop (vword 0x49 1 2 3 4 4 0)).valid = true := by decide +kernel
theorem test_hyp_vqpop : ((vecAt (vword 0x4A 1 0 0 0 0 0)).vec 0).queue.length < 128 ∧
    ({ VecSt.idle with queue := List.replicate 128 0 } : VecSt).queue.length = 128 := by decide +kernel
/-- Core 0 with address `a` in scalar register 2 and `b` in scalar register 3. -/
def withRegs (s : State) (a b : Nat) : State :=
  s.setVec 0 { s.vec 0 with sregs := [(2, BitVec.ofNat 64 a), (3, BitVec.ofNat 64 b)] }

theorem test_hyp_loads : let s := withRegs (vecAt (vword 0x8B 1 2 0 0 0 0)) 0x1FFFFF8 0
    let x := s.vecCtx 0 vslot (vop (vword 0x8B 1 2 0 0 0 0))
    isDevice 0x1FFFFF8 = false ∧ loadForbidden 0x1FFFFF8 8 = false ∧ loadForbidden 0x1FFFFF9 8 = true ∧
      (s.vecRead x (vecAddr ((s.vec 0).sreg 2) 0) 8).isSome = true ∧ s.wgaHolds 5 = false ∧
      ({ s with beat := { s.beat with prev := [{ win0 with beat := 4 }] } } : State).wgaHolds 5 = true := by decide +kernel
theorem test_hyp_gather : let s := withRegs (vecAt (vword 0x43 1 2 3 0 0 0)) 0x1000 0
    let v := s.vec 0
    let i := vop (vword 0x43 1 2 3 0 0 0)
    (∀ n, n < 128 → v.lane i n = true → loadForbidden (gatherAt v i n).1 (gatherAt v i n).2 = false) ∧
      loadForbidden (gatherAt (withRegs s 0x2000000 0 |>.vec 0) i 127).1 (gatherAt (withRegs s 0x2000000 0 |>.vec 0) i 127).2 = true := by
  decide +kernel
theorem test_hyp_scales : let s := withRegs (vecAt (vword 0x48 1 2 3 0 4 0)) 0x1000 0x2000
    let x := s.vecCtx 0 vslot (vop (vword 0x48 1 2 3 0 4 0))
    (s.vecRead x ((s.vec 0).sreg 3).toNat 4).isSome = true ∧
      (s.vecRead x (vecAddr ((s.vec 0).sreg 2) 0) (elemBytes (operandFmt 4) 128)).isSome = true := by decide +kernel
theorem test_hyp_stores : let s := withRegs (vecAt (vword 0x8C 1 2 3 0 0 0)) 0x163FFF8 (2 ^ 63)
    let x := s.vecCtx 0 vslot (vop (vword 0x8C 1 2 3 0 0 0))
    isDevice 0x163FFF8 = false ∧ storeForbidden 0x163FFF8 8 = false ∧ storeForbidden 0x163FFF9 8 = true ∧ isDevice (2 ^ 63) = true ∧
      s.vecCanWrite x (2 ^ 63) 8 = true ∧ s.vecCanWrite x 0x1000 512 = true ∧ s.vecCanWrite x 0x2000 4 = true := by decide +kernel
theorem test_hyp_branches : (vop (vword 0x90 0 0 0 0 0 0xFFFFFF)).simm = -1 ∧ (0 : Int) ≤ vslot.ptr + 8 * 0 ∧
    (vslot.ptr : Int) + 8 * (-1) < 0 ∧ ((withRegs (vecAt 0) 1 0).vec 0).sreg 2 = 1 := by decide +kernel
theorem test_hyp_waits : let s := (vecAt (vword 0x98 0 0 0 0 0 31)).setCounter 0 31 1
    0 < s.counter vslot.core 31 ∧ (vecAt 0).counter vslot.core 31 = 0 ∧ vslot.wait ≠ some (31, true) ∧
      (63 ≠ vslot.core ∧ vslot.core = 0) ∧
      ({ s with cores := { s.cores with signals := [(0, 63, 31), (0, 62, 1), (0, 63, 0)] } } : State).nextSignal 0 63 = some (0, 63, 31) ∧
      s.counter 63 31 < 0xFFFF ∧ (s.setCounter 63 31 0xFFFF).counter 63 31 = 0xFFFF := by decide +kernel
theorem test_hyp_standing : let r : RunSlot := { vslot with wait := some (31, false) }
    let s := (putSlot (vecAt 0) (vectorUnit 0) r).setCounter 0 31 1
    s.runOf (vectorUnit 0) = some r ∧ 0 < s.counter r.core 31 := by decide +kernel
theorem test_hyp_invalid : ((vecAt 0).instrAt vslot).valid = false ∧ (vecAt 0).devState ≠ 7 ∧
    ((vecAt 0).errCtx (vectorUnit 0) vslot).phys < 128 ∧ (vecAt 0).host.runs = [] ∧ (vecAt 0).test.fences = [] ∧ (vecAt 0).mods = [] ∧
    (vecAt 0).test.passed = [] ∧ (vecAt 0).test.loss = none := by decide +kernel

/-- Core 0 with array 0 at this descriptor. -/
def arrAt (d : Bytes) : State :=
  let s := inWin noFing win0
  putSlot { s with sram := s.sram.writeN 0x1F00000 d } (arrayUnit 0 0) (slotOf (arrayUnit 0 0) 0)

def aslot : RunSlot := slotOf (arrayUnit 0 0) 0

/-- A descriptor of Table 3.8: opcode, FMT, MODE, OUT, K, M, N, STAT_ADDR, STRM_ADDR, OUT_ADDR, pitches, BIAS_ADDR, WAIT, SIGNAL. -/
def desc (opc fmt mode out k m n stat strm dst pitch bias wait signal : Nat) : Bytes :=
  leBytes 1 opc ++ leBytes 1 fmt ++ leBytes 1 mode ++ leBytes 1 out ++ leBytes 4 k ++ leBytes 4 m ++ leBytes 4 n ++ leBytes 8 stat
    ++ leBytes 8 strm ++ leBytes 8 dst ++ leBytes 4 2 ++ leBytes 4 2 ++ leBytes 4 pitch ++ leBytes 4 bias ++ leBytes 2 0xFFFF
    ++ leBytes 1 wait ++ leBytes 1 0 ++ leBytes 2 signal ++ leBytes 2 0

theorem test_hyp_array : ∀ x ∈ [(1, 0), (1, 16), (1, 32), (1, 48), (2, 0), (3, 0)],
    (arrAt (desc x.1 0 0 x.2 1 1 1 0x1000 0x2000 0x3000 4 0 0 0)).runOf (arrayUnit 0 0) = some aslot ∧
    ((arrAt (desc x.1 0 0 x.2 1 1 1 0x1000 0x2000 0x3000 4 0 0 0)).descAt aslot).valid = true ∧
    ((arrAt (desc x.1 0 0 x.2 1 1 1 0x1000 0x2000 0x3000 4 0 0 0)).descAt aslot).opcode = x.1 ∧
    ((arrAt (desc x.1 0 0 x.2 1 1 1 0x1000 0x2000 0x3000 4 0 0 0)).descAt aslot).target = x.2 / 16 := by decide +kernel
theorem test_hyp_array_drain : let s := arrAt (desc 1 0 0 0 1 1 1 0x1000 0x2000 0x3000 4 0 0 0)
    let d := s.descAt aslot
    (match s.readOperands (.array 0 0) 0 d with
      | .ok (o, bias) => (d.pieces (s.drain d (d.compute (s.arrCtx aslot) o bias).rows)).map (fun z => (z.1, z.2.length))
      | .error _ => []) = [(0x3000, 4)] ∧ storeForbidden 0x3000 4 = false ∧ (d.outRows = 1) ∧ d.signal < 32768 ∧ d.wait < 128 := by
  decide +kernel
theorem test_hyp_array_wga : ({ inWin { noFing with own := { noPlan with cores :=
      [{ logical := 0, entries := [], wgaTiles := 256, wgaSr := false, image := [] }] } } win0 with now := 0 } : State).wgaTiles 0 = 256 ∧
    (decodeDesc (desc 1 0 0 32 1 1 1 0x1000 0x2000 255 4 0 0 0)).lastTile = 255 := by decide +kernel
theorem test_hyp_array_targets : aslot.rest = [] ∧
    (let s := arrAt (desc 1 0 0 16 1 1 1 0x1000 0x2000 0x3000 4 0 0 0)
     let d := s.descAt aslot
     (match s.readOperands (.array 0 0) 0 d with
      | .ok (o, bias) => (d.pieces (s.drain d (d.compute (s.arrCtx aslot) o bias).rows)).map fun z =>
          (z.1, z.2.length, (s.placesOf (.array 0 0) true z.1 z.2.length).isSome, s.hitsCore true z.1 z.2.length)
      | .error _ => []) = [(0x3000, 4, true, false)]) ∧
    (let s := inWin { noFing with own := { noPlan with cores :=
       [{ logical := 0, entries := [], wgaTiles := 256, wgaSr := false, image := [] }] } } win0
     s.wgaHolds 5 = false ∧ ({ s with beat := { s.beat with prev := [{ win0 with beat := 4 }] } } : State).wgaHolds 5 = true ∧
       s.wgaTiles 0 = 256) ∧
    (queueOrder 1 [[(7 : Word)]]).length = 1 ∧ VecSt.idle.queue.length + 1 ≤ 16384 ∧
    ({ VecSt.idle with queue := List.replicate 16384 0 } : VecSt).queue.length = 16384 := by decide +kernel
theorem test_hyp_array_empty : let d := decodeDesc (desc 1 0 0 0 1 0 0 0 0 0 0 0 0 (32768 + 32 * 63 + 31))
    d.valid = true ∧ d.m = 0 ∧ 32768 ≤ d.signal ∧ (decodeDesc (desc 0 0 0 0 0 0 0 0 0 0 0 0 0 0)).opcode = 0 ∧
      (decodeDesc (desc 4 0 0 0 0 0 0 0 0 0 0 0 0 0)).valid = false ∧ (decodeDesc (desc 1 0 0 0 1 1 1 0 0 0 4 0 159 0)).wait = 128 + 31 := by
  decide +kernel
theorem test_hyp_array_waits : let s := arrAt (desc 1 0 0 0 1 1 1 0x1000 0x2000 0x3000 4 0 159 0)
    128 ≤ (s.descAt aslot).wait ∧ s.counter aslot.core ((s.descAt aslot).wait % 32) = 0 ∧ (s.descAt aslot).target ≠ 2 := by decide +kernel
theorem test_hyp_sum : let d := decodeDesc (desc 1 0 4 0 65 1 1 0x1000 0x2000 0x3000 4 0x4000 0 0)
    d.opcode = 1 ∧ d.drainSr ((arrAt []).arrCtx aslot) = false ∧ 0 < d.m ∧ 0 < d.n := by decide +kernel

/-! ### Single steps of the cores -/

/-- The register of a core after a command. -/
def laneAfter (c : Instr) (s : State) (reg lane : Nat) : Word :=
  match exec c s with
  | .next t => (t.vec 0).at reg lane
  | _ => 0
def sregAfter (c : Instr) (s : State) (n : Nat) : DWord :=
  match exec c s with
  | .next t => (t.vec 0).sreg n
  | _ => 0
/-- Core 0 with every lane of vector registers 2 and 3 at these values. -/
def withLanes (s : State) (a b : Word) : State :=
  s.setVec 0 { s.vec 0 with vregs := [(2, List.replicate 128 a), (3, List.replicate 128 b)] }

-- 1.0 + 2^-24 is a tie between 1.0 and 1.0 + 2^-23: to even, 1.0 (R191, R218).
theorem test_vadd_tie : laneAfter (.vadd 0) (withLanes (vecAt (vword 0x01 1 2 3 0 0 0)) 0x3F800000 0x33800000) 1 127 = 0x3F800000 := by
  decide +kernel
-- An overflow gives an infinity (R218).
theorem test_vmul_overflow : laneAfter (.vmul 0) (withLanes (vecAt (vword 0x03 1 2 3 0 0 0)) 0x7F7FFFFF 0x40000000) 1 0 = 0x7F800000 := by
  decide +kernel
-- max(−0, +0) is +0 in either operand order (R214).
theorem test_vmax_zero : laneAfter (.vmax 0) (withLanes (vecAt (vword 0x10 1 3 2 0 0 0)) 0 0x80000000) 1 0 = 0 ∧
    laneAfter (.vmax 0) (withLanes (vecAt (vword 0x10 1 2 3 0 0 0)) 0 0x80000000) 1 0 = 0 := by decide +kernel
-- The sum of 128 ones is 128.0 in lane 0, and the other lanes are 0 (R228).
theorem test_vrsum : laneAfter (.vrsum 0) (withLanes (vecAt (vword 0x30 2 2 0 0 0 0)) 0x3F800000 0) 2 0 = 0x43000000 ∧
    laneAfter (.vrsum 0) (withLanes (vecAt (vword 0x30 2 2 0 0 0 0)) 0x3F800000 0) 2 1 = 0 := by decide +kernel
-- 65520 is the FP16 saturation threshold: it becomes 65504 (Table 4.4).
theorem test_vcvt_saturates : laneAfter (.vcvt 0) (withLanes (vecAt (vword 0x20 1 2 0 0 2 0)) 0x477FF000 0) 1 0 = 0x477FE000 := by decide +kernel
-- SUB wraps below 0; register 0 ignores writes (R176).
theorem test_ssub_wraps : sregAfter (.ssub 0) (withRegs (vecAt (vword 0x84 2 2 3 0 0 0)) 0 1) 2 = 0xFFFFFFFFFFFFFFFF ∧
    sregAfter (.ssub 0) (withRegs (vecAt (vword 0x84 0 2 3 0 0 0)) 0 1) 0 = 0 := by decide +kernel
-- SLUI writes bits [47:24] and keeps the others, source and destination being one register.
theorem test_slui : sregAfter (.slui 0) (withRegs (vecAt (vword 0x81 2 0 0 0 0 0xABCDEF)) 0xFFFF000000123456 0) 2 = 0xFFFFABCDEF123456 := by
  decide +kernel
-- exp(128) overflows to +infinity (Table 5.4).
theorem test_vexp_128 : sfuExp 0x43000000 = 0x7F800000 ∧ sfuExp 0xC3200000 = 0 := by decide +kernel
-- VLD moves FP32 codes as they are: a NaN keeps its sign and payload (R194).
theorem test_vld_keeps_nan : let s := withRegs (vecAt (vword 0x48 1 2 0 0 0 0)) 0x1000 0
    laneAfter (.vld 0) { s with sram := s.sram.writeN (Loc.sram 0 0x1000).key (leBytes 4 0xFFC12345) } 1 0 = 0xFFC12345 := by decide +kernel
/-! ### Hypotheses of the statements: fingerings, power and the beat -/

/-- Slot A holds a LOADED image. -/
def loaded : State := { ready with slotA := { state := 2, lo := 0, hi := 0, kept := [], alone := false, fing := some noFing } }

theorem test_hyp_load : ready.writeOpen Reg.fingCtl = true ∧ ready.fingBusy = false ∧ (ready.slot .a).state ≠ 3 := by decide +kernel
theorem test_hyp_verify : let s := (booted { State.reset with slotA := { state := 1, lo := 0, hi := 0, kept := [], alone := false, fing := none } }).setBit Reg.fingStatus 8 true
    (s.slot .a).state = 1 ∧ s.esz.fw.isSome = true ∧
      (match (s.setBit Reg.fingStatus 8 false).checkImage .a with
        | .error r => r.code
        | .ok _ => 0) = 0x2001 := by decide +kernel
theorem test_hyp_start : loaded.writeOpen Reg.fingCtl = true ∧ loaded.fingBusy = false ∧ loaded.runSlot = none ∧
    (loaded.slot .a).state = 2 ∧ (loaded.slot .a).fing = some noFing ∧ loaded.devState ≠ 7 ∧
    (((loaded.at 9).leaveHold).startHomes noFing).startRefusal .a noFing = none ∧
    (((((loaded.setReg Reg.superCtl 1).setReg Reg.superBaseLo 0x1000).at 9).leaveHold.startHomes noFing).startRefusal .a
      { noFing with hostIo := some { fenceOff := false, needA := true, needB := false, needCxl := false, descs := [] } }).isSome =
        true := by decide +kernel
theorem test_hyp_stop : (runs noFing).writeOpen Reg.fingCtl = true ∧ (runs noFing).fingBusy = false ∧ (runs noFing).runSlot.isSome = true ∧
    ((runs noFing).slot .a).state = 3 ∧ ((runs noFing).slot .b).state ≠ 2 ∧ (ready.setFld Reg.devState 3 0 7).devState = 7 ∧
    (ready.setFld Reg.devState 3 0 7).writeOpen Reg.fingCtl = true ∧ ((runs noFing).setBit Reg.fingStatus 8 true).fingBusy = true := by
  decide +kernel

theorem test_hyp_hold : ready.devState = 3 ∧ (ready.setBit Reg.pwrCtl 1 true).bit Reg.pwrCtl 1 = true ∧ ready.slotA.state ≠ 1 ∧
    ready.slotB.state ≠ 1 ∧ (ready.setFld Reg.devState 3 0 5).devState = 5 ∧ ((linked ready).hport .b).up = true := by decide +kernel
theorem test_hyp_wakes : let u := vectorUnit 63
    let s := (inWin noFing win0).setUnit u { UnitSt.idle 2 with power := 2 }
    (s.unit u).fenced = false ∧ (s.unit u).power ≠ 0 ∧ s.running = true ∧ s.nextEvent u = some 198000 ∧ 198000 ≤ 198000 + wakeNs 2 := by
  decide +kernel
theorem test_hyp_clocks : ready.power.powerOk = true ∧ pllDomain 0x60 = true ∧ 0x60 ∉ ready.power.stopped ∧
    0x13 ∈ ({ ready with power := { ready.power with stopped := [0x13] } } : State).power.stopped ∧ ready.power.thermtrip = false ∧
    ready.devState ≠ 7 ∧ ready.test.fences = [] ∧ ready.mods = [] ∧ ready.test.passed = [] ∧ ready.test.loss = none := by decide +kernel
theorem test_hyp_power : let temps : Temps := { dies := List.replicate 22 (some 100), dram := List.replicate 16 40 }
    ready.beat.win = none ∧ ready.tripUnit temps = none ∧ temps.dies[21]? = some (some 100) ∧
      ready.diePresent (tempDie 21).1 (tempDie 21).2 = true ∧ ready.cdiePresent 3 = true ∧
      (ready.setBit (Reg.temp 3) 8 true).bit (Reg.temp 3) 8 = true := by decide +kernel

/-- A marker of beat 6, position 1, at 100,000 ns. -/
def mark6 : DueMarker := { beat := 6, at_ := 100000, stretch := 0, planPos := 1, epoch := 0 }
/-- Beat 5 nearly over, with the next marker known. -/
def marked (m : DueMarker) : State :=
  let s := inWin noFing win0
  { s with beat := { s.beat with markers := [m] } }

theorem test_hyp_marker : let s := marked mark6
    dueMarker 100000 s.beat.markers = some mark6 ∧ s.runSlot = some .a ∧ s.fing = some noFing ∧ s.casc.hold = false ∧
      s.pair Reg.beatCountLo < mark6.beat ∧ mark6.epoch = s.casc.epoch ∧ s.casc.adopting = none ∧ s.bit Reg.cascadeCoord 30 = false ∧
      s.takeoverOn = false ∧ s.beat.page = none ∧ s.beat.switchTo = none ∧ s.beat.stopAt = none ∧
      mark6.planPos = s.beat.nextPos ∧ ({ mark6 with planPos := 0 } : DueMarker).planPos ≠ s.beat.nextPos ∧ s.devState ≠ 7 ∧
      ({ mark6 with beat := 5 } : DueMarker).beat ≤ s.pair Reg.beatCountLo := by decide +kernel
theorem test_hyp_standalone : let s : State := { runs noFing with beat := { (runs noFing).beat with waiting := true } }
    s.fing = some noFing ∧ noFing.hdr.cascadeSize ≤ 1 ∧ s.beat.waiting = true ∧ s.beat.markers = [] ∧ (runs noFing).beat.waiting = false := by
  decide +kernel
theorem test_hyp_gap : let s := inWin noFing { win0 with inGap := true }
    s.enterable = some { win0 with inGap := true } ∧ (inWin noFing win0).beat.win = some win0 ∧ win0.gapStart = 98000 ∧
      win0.inGap = false ∧ ((0 : Int) ≤ win0.margin) ∧ ({ win0 with margin := -1 } : Win).margin < 0 ∧
      (let r := inWin noFing { win0 with inGap := true, entered := true }
       r.enterable = none ∧ (r.beat.prev ++ r.beat.win.toList).find? (fun x => x.entered && !x.reported) =
         some { win0 with inGap := true, entered := true } ∧ r.expectsMirror = false ∧ win0.rpUnits = [] ∧ (r.window 5).isSome = true ∧ r.casc.partner = false) := by
  decide +kernel

/-- A fingering in which the vector engine of core 63 has one slot at position 0. -/
def oneSlot : Fing :=
  { noFing with own := { noPlan with units :=
      [{ cls := 2, idx := 63, positions := [[{ start := 1000, budget := 49000, op := 0, afterVerdict := false }], []] }] } }

theorem test_hyp_slots : let u := vectorUnit 63
    let s := inWin oneSlot win0
    s.nextSlot u = some (u, 0, { start := 1000, budget := 49000, op := 0, afterVerdict := false }) ∧ (s.unit u).run = none ∧
      (s.unit u).fenced = false ∧ s.mayStart win0 { start := 1000, budget := 49000, op := 0, afterVerdict := false } 1000 = true ∧
      s.mayStart win0 { start := 1000, budget := 49000, op := 0, afterVerdict := false } 999 = false := by decide +kernel
theorem test_hyp_slot_end : let u := vectorUnit 63
    let s := putSlot (inWin oneSlot win0) u { slotOf u 0 with ended := true }
    (s.unit u).run = some { slotOf u 0 with ended := true } ∧ u.wf = true ∧ s.beat.win = some win0 ∧ win0.beat = (slotOf u 0).beat ∧
      (slotOf u 0).plannedEnd + win0.period ≤ 150000 ∧ 149999 < (slotOf u 0).plannedEnd + win0.period ∧ s.beat.prev = [] ∧
      ({ cls := 6, idx := 7 } : UnitId).idx % 9 < 8 ∧ s.tier.waits = [] ∧
      (({ pile := 2, tensor := 3, off := 0, data := [1], beat := 5, unit := some u, owe := none } : HoldWait).unit = some u) := by
  decide +kernel

/-- A mailbox page with CMD_SEQ 9. -/
def page (cmd slot target : Nat) : Bytes := leBytes 4 9 ++ leBytes 4 cmd ++ leBytes 8 target ++ leBytes 4 slot ++ List.replicate 236 0
/-- The page has been read. -/
def paged (cmd slot target : Nat) : State :=
  let s := inWin noFing { win0 with inGap := true, entered := true }
  let b := { s.slotA with state := 2 }
  { s with slotB := b, beat := { s.beat with page := some (page cmd slot target), cycle := 4 } }

theorem test_hyp_mail : let s := linked (inWin noFing win0)
    let r : State := { s with host := { s.host with mailA := some 0x10000 } }
    r.mailAt r.host.ctrl = some 0x10000 ∧ r.running = true ∧ r.host.orphan = false ∧ r.portUp r.host.ctrl = true ∧
      r.beat.reading = 0 ∧ r.beat.page = none ∧ ({ r with beat := { r.beat with reading := 1 } } : State).beat.reading = 1 ∧
      ({ r with beat := { r.beat with reading := 2 } } : State).beat.reading = 2 := by decide +kernel
theorem test_hyp_commands : pageCmd (page 0 0 0) = 0 ∧ pageCmd (page 1 1 5) = 1 ∧ pageCmd (page 2 0 4) = 2 ∧ pageCmd (page 3 0 0) = 3 ∧
    (paged 1 1 5).running = true ∧ (paged 1 1 5).beat.win = some { win0 with inGap := true, entered := true } ∧ win0.entered = false ∧
    ((paged 1 1 5).setWindow 5 fun _ => win0).beat.win = some win0 ∧ (paged 1 1 5).beat.page = some (page 1 1 5) ∧ (paged 1 1 5).switchRefusal .b (fieldAt (page 1 1 5) 8 8) = none ∧
    ((paged 1 0 5).switchRefusal .a 5).map (fun x => x.1.code) = some 0x2011 ∧ (paged 2 0 5).beat.cycle < 5 ∧
    4 ≤ (paged 2 0 4).beat.cycle ∧ fieldAt (page 2 0 4) 8 8 = 4 ∧ ((paged 1 1 5).slot .a).state ≠ 2 := by decide +kernel

/-- A verdict on beat 5 with instant 101,000 ns. -/
def due5 (kind : Nat) : Due :=
  { kind := kind, beat := 5, at_ := 101000, flags := 0, stretch := 0, margin := 0, coord := { x := 0, y := 0, z := 0 }, lost := none,
    epoch := 1 }
/-- Beat 5 awaits that verdict while beat 6 runs. -/
def judging (kind : Nat) : State :=
  let s := inWin noFing { win0 with beat := 6, pos := 1, start := 100000 }
  { s with beat := { s.beat with prev := [{ win0 with inGap := true, entered := true, reported := true }], due := [due5 kind] } }

theorem test_hyp_commit : ∀ k ∈ [0, 1], (judging k).beat.due.find? (fun x => x.kind == k && decide (x.at_ ≤ 101000)) = some (due5 k) ∧
    (judging k).judged = some { win0 with inGap := true, entered := true, reported := true } ∧ (due5 k).beat = win0.beat ∧
    win0.pos ≠ ((judging k).fing.map (·.hdr.planLen)).getD 1 - 1 ∧ (judging k).casc.lost = [] ∧ (judging k).beat.stopNow = false := by
  decide +kernel
theorem test_hyp_replay : let s := judging 2
    s.beat.due.find? (fun x => x.kind == 2 && decide (x.at_ ≤ 101000)) = some (due5 2) ∧ s.runSlot = some .a ∧ s.fing = some noFing ∧
      s.running = true ∧ s.beat.stopNow = false ∧ (due5 2).flags = 0 ∧ (due5 2).lost = none := by decide +kernel

/-! ### Single steps of the beat -/

/-- A field of the state after a command. -/
def after (c : Instr) (s : State) : State :=
  match exec c s with
  | .next t => t
  | _ => s

-- A commit makes the working bank of a touched tile the committed one and counts the beat (R87, R166).
theorem test_commit_swaps : let s : State := { judging 0 with cores := { (judging 0).cores with
      wga := [{ core := 0, tile := 0, ptr := false, touch := true, sramOk := true, combBad := false }] } }
    ((after (.commit 101000) s).cores.wga.map fun y => (y.ptr, y.touch)) = [(true, false)] ∧
      (after (.commit 101000) s).beat.committed = 1 := by decide +kernel
-- A replay leaves the committed bank as it is (R170).
theorem test_replay_keeps : let s : State := { judging 2 with cores := { (judging 2).cores with
      wga := [{ core := 0, tile := 0, ptr := false, touch := true, sramOk := true, combBad := false }] } }
    ((after (.replay 101000) s).cores.wga.map fun y => (y.ptr, y.touch)) = [(false, false)] ∧
      (after (.replay 101000) s).beat.committed = 0 ∧ (after (.replay 101000) s).beat.win.map (·.start) = some 101000 := by decide +kernel
-- START on a slot that is not LOADED is refused with 0x2012 (R113).
theorem test_start_empty : (after (.start .b 5) ready).fld Reg.fingStatus 31 16 = 0x2012 := by decide +kernel
-- An effective period is the nominal one times (16 + S) / 16 (R73).
theorem test_period : effPeriod hdr 8 0 = 150000 ∧ effPeriod { hdr with longEvery := 2 } 0 1 = 200000 := by decide +kernel

/-! ### Hypotheses of the statements: the cascade -/

/-- A route of two members, at (0, 0, 0) and (1, 0, 0): port 0 leads towards x + 1, port 1 towards x − 1, port 2 is an intake
port and port 3 leads to the twin. -/
def route2 : Route :=
  { dx := 2, dy := 1, dz := 1, master := 0, twin := 2, roles := [1, 2, 8, 7] ++ List.replicate 28 0, members := [0, 1], groups := [3],
    ops := [] }
/-- A cascade of two with FULL_TWIN. -/
def hdr2 : Header := { hdr with cascadeSize := 2, fullTwin := true }
def fing2 : Fing := { noFing with hdr := hdr2, own := { noPlan with route := some route2 } }
def other : Coord := { x := 1, y := 0, z := 0 }
/-- The device at (0, 0, 0) in the cascade, in the role of BEAT_CTL (1 member, 2 master, 3 backup) and SYNCED. -/
def member (role : Nat) (w : Win) : State :=
  let s := (inWin fing2 w).setFld Reg.beatCtl 3 0 (12 + role)
  { s with casc := { s.casc with master := some (if role = 2 then s.self else other), backup := some s.self } }
/-- A message of the other member. -/
def msg (kind : Nat) : CtlMsg :=
  { kind := kind, flags := 0, stretch := 0, value := 0, coord := other, beat := 5, offset := 15000, margin := 100, planPos := 1, issuer := 1,
    lost := none }

theorem test_hyp_issue : let m : DueMarker := { beat := 5, at_ := 0, stretch := 0, planPos := 0, epoch := 0 }
    let s := member 2 win0
    let r : State := { s with casc := { s.casc with lastMark := some m, lastPeriod := 100000 } }
    r.following m = some (.a, 1, hdr2) ∧ r.isMaster = true ∧ r.runSlot.isSome = true ∧ r.casc.hold = false ∧
      m.at_ + r.casc.lastPeriod ≤ 80000 + 20000 ∧ 79999 + 20000 < m.at_ + r.casc.lastPeriod ∧ (member 3 win0).isMaster = false ∧
      r.route = some route2 ∧ r.ownTree = [other] ∧ r.casc.retired = false ∧ r.takeoverOn = false := by decide +kernel
/-- Beat 5 is over, this device's report is in, and beat 6 runs. -/
def waits (role : Nat) : State :=
  let s := member role { win0 with beat := 6, pos := 1, start := 100000 }
  { s with beat := { s.beat with prev := [{ win0 with inGap := true, entered := true, reported := true }] }
           casc := { s.casc with reports := [{ coord := s.self, beat := 5, fault := false, voteClear := false, margin := 0,
                                               selfLost := false, partner := none, at_ := 100 }] } }

theorem test_hyp_report : ∀ k ∈ [2, 3], let s := waits k
    let m := msg 3
    let u := (s.at 100).holdReport (heldReport m 100)
    s.runSlot.isSome = true ∧ m.coord ∉ s.casc.lost ∧ m.coord ∈ s.members ∧
      u.unjudged = some { win0 with inGap := true, entered := true, reported := true } ∧ u.missing 5 = [] ∧ u.goneFor 5 = [] ∧
      s.casc.retire = none ∧ u.linkLosses (u.casc.reports.filter fun r => r.beat == 5) = [] ∧
      ((s.at 100).holdReport (heldReport { m with beat := 6 } 100)).missing 5 ≠ [] := by decide +kernel
theorem test_hyp_lost : let s := waits 2
    let w : Win := { win0 with inGap := true, entered := true, reported := true }
    s.memberAt 1 = other ∧ s.unjudged = some w ∧ s.isMaster = true ∧ other ≠ s.self ∧ s.overdue w other 298000 = true ∧
      s.missing 5 = [other] ∧ s.casc.dead = [] ∧ s.linkLosses (s.casc.reports.filter fun r => r.beat == 5) = [] ∧
      (∀ r ∈ s.casc.reports, r.beat = 5 → r.selfLost = false ∧ r.coord ≠ other) ∧ (s.fing.map (·.hdr.fullTwin)) = some true ∧
      s.twinGone other = false ∧
      (let q : State := { s with beat := { s.beat with prev := [{ w with reported := false }] } }
       q.unjudged = some { w with reported := false } ∧ other ∈ q.missing 5) ∧
      other ∉ ((s.at 100).holdReport (heldReport (msg 3) 100)).missing 5 := by decide +kernel
theorem test_hyp_messages : let s := (member 1 win0).setFld (Reg.linkState 0) 7 0 0x8A
    let s := s.setPort 0 { s.port 0 with active := true }
    s.runSlot.isSome = true ∧ s.portUsable 0 = true ∧ s.casc.retired = false ∧ (msg 1).issuer = s.masterIdx ∧
      s.bit Reg.cascadeCoord 30 = false ∧ s.casc.adopting = none ∧ s.bit Reg.beatCtl 3 = true ∧
      ({ msg 1 with offset := -1 } : CtlMsg).offset - (s.fld (Reg.linkLatency 0) 15 0 : Nat) < 0 ∧
      s.route = some route2 ∧ treeHops { route2 with dx := 4 } other { x := 2, y := 0, z := 0 } = [{ x := 3, y := 0, z := 0 }] := by
  decide +kernel
theorem test_hyp_late : let s := waits 1
    s.beat.prev = { win0 with inGap := true, entered := true, reported := true } :: [] ∧
      s.beat.win = some { win0 with beat := 6, pos := 1, start := 100000 } ∧ s.beat.due = [] ∧
      win0.start + win0.period + s.fld Reg.beatCtl 31 16 < 100001 + s.fld Reg.beatCtl 31 16 := by decide +kernel
/-- The master waits for its members. -/
def gathers (s : State) : State := { s with beat := { s.beat with waiting := true }, casc := { s.casc with joins := [s.self] } }

theorem test_hyp_sync : let s := gathers (member 2 win0)
    let r : State := { s with casc := { s.casc with instants := [5, 6], past := [1] } }
    s.isMaster = true ∧ s.beat.waiting = true ∧ other ∈ s.members ∧ other ∉ s.casc.joins ∧
      (∀ c ∈ s.members, c ∈ s.casc.joins ∨ c = other) ∧ (msg 4).flags % 2 = 0 ∧
      (∃ c ∈ (gathers { s with beat := s.beat }).members, c ∉ ({ s with casc := { s.casc with joins := [] } } : State).casc.joins ∧ c ≠ other) ∧
      r.casc.instants = 5 :: [6] ∧ s.runSlot.isSome = true ∧ 1 < s.members.length ∧ s.bit Reg.cascadeCoord 30 = false ∧
      ((r.setBit Reg.cascadeCtl 0 true).setBit Reg.beatCtl 3 false).bit Reg.cascadeCtl 0 = true ∧
      ((r.setBit Reg.cascadeCtl 0 true).setBit Reg.beatCtl 3 false).bit Reg.beatCtl 3 = false ∧
      near 1 ((201 : Int) - (r.fld Reg.cascadeCtl 15 4 : Nat)) = true ∧ near 1 ((202 : Int) - (r.fld Reg.cascadeCtl 15 4 : Nat)) = false ∧
      r.casc.edges = [] := by decide +kernel
theorem test_hyp_results : let s := gathers (member 2 win0)
    let r (a : Bool) : State := { s with casc := { s.casc with results := [(s.self, a)], tries := if a then 3 else 2 } }
    s.hdrOf .a = some hdr2 ∧ s.runSlot = some .a ∧
      (∀ c ∈ (r true).members, ∃ x ∈ ((r true).casc.results.filter fun x => !(x.1 == other)) ++ [(other, true)], x.1 = c) ∧
      (∃ c ∈ s.members, ∀ x ∈ (s.casc.results.filter fun x => !(x.1 == other)) ++ [(other, true)], x.1 ≠ c) ∧
      (r false).casc.tries < 3 ∧ 3 ≤ (r true).casc.tries ∧ s.devState ≠ 7 := by decide +kernel

theorem test_hyp_losses : let s := waits 3
    s.route = some route2 ∧ route2.twin ≠ 0xFFFFFFFF ∧ s.casc.partner = false ∧ unpackCoord route2.twin ∉ s.casc.lost ∧
      s.isMaster = false ∧ s.casc.masterGone = none ∧ s.judged = some { win0 with inGap := true, entered := true, reported := true } ∧
      s.casc.master = some other ∧ s.fld Reg.beatCtl 1 0 = 3 ∧ (s.fing.map (·.hdr.fullTwin)) = some true ∧ s.twinGone other = false ∧
      s.devState ≠ 7 ∧ s.host.runs = [] := by decide +kernel
theorem test_hyp_retire : let s := member 2 win0
    s.writeOpen Reg.cascadeCmd = true ∧ other ∈ s.members ∧ other ≠ s.self ∧ other ∉ s.casc.lost ∧ s.casc.retire = none ∧
      (s.setBit Reg.cascadeCoord 30 true).bit Reg.cascadeCoord 30 = true ∧ (s.setBit Reg.cascadeCoord 30 true).runSlot.isSome = true ∧
      ({ x := 15, y := 15, z := 15 } : Coord) ∉ s.members := by decide +kernel
/-- A master in HOLD with these devices lost and RESUME at 100,000 ns. -/
def holding (l : List Coord) : State :=
  let s := member 2 win0
  { s with casc := { s.casc with lost := l, hold := true, resume := some mark6 } }

theorem test_hyp_ready : other ∈ (holding [other]).casc.lost ∧ other ∉ (holding [other]).casc.readys ∧ (holding []).casc.hold = true ∧
    (∀ c ∈ (holding [other]).casc.lost, c ∈ (holding [other]).casc.readys ∨ c = other) ∧
    (∃ c ∈ (holding [other, { x := 0, y := 1, z := 0 }]).casc.lost, c ∉ (holding []).casc.readys ∧ c ≠ other) ∧
    (member 2 win0).casc.hold = false ∧ (holding []).casc.resume = some mark6 ∧ (holding []).runSlot = some .a ∧
    (holding []).fing = some fing2 := by decide +kernel

/-- A CONTROL frame with the message, for the coordinate. -/
def ctlFrame (c : Coord) (m : CtlMsg) : Frame :=
  ({ frame00 with typ := 7, vl := 2, dest := c, src := other, len := m.bytes.length, cascade := 0x1234, payload := m.bytes } : Frame).sealed
/-- A member whose port 0 is active. -/
def hears : State :=
  let s := (member 1 win0).setFld (Reg.linkState 0) 7 0 0x8A
  s.setPort 0 { s.port 0 with active := true }

theorem test_hyp_control : hears.portActive 0 = true ∧ hears.cascade32 = 0x1234 ∧ hears.portRole 0 ≠ 8 ∧ hears.runSlot.isSome = true ∧
    (hears.port 0).rxLseq = 0 ∧ (getKey hears.casc.rxSeq (orderKey (hears.portRole 0) 0 2)).getD 0 = 0 ∧ hears.casc.rxHold = [] ∧
    hears.route = some route2 ∧ hears.answersFor route2 hears.self = true ∧ hears.answersFor route2 other = false ∧
    ∀ k ∈ [1, 2, 3, 4, 5, 6, 7, 8, 9], let f := ctlFrame hears.self (msg k)
      f.good = true ∧ f.lseq = 0 ∧ f.dseq = 0 ∧ f.cascade = 0x1234 ∧ f.typ = 7 ∧ f.vl = 2 ∧ f.dest = hears.self ∧ (ctlOf f.payload).kind = k ∧
        (ctlOf f.payload).issuer = hears.masterIdx ∧ (ctlFrame other (msg k)).dest ≠ hears.self := by decide +kernel

/-! ### Hypotheses of the statements: update engines, twins and memory tiers -/

/-- A tensor of 8 KiB, mirrored and writable. -/
def ten (id cls home : Nat) : Tensor :=
  { id := id, cls := cls, format := 0, writable := true, mirrored := true, holdGrad := false, hostBias := false, size := 8192,
    taddr := 0x200000000000 + 8192 * id, home := home, landing := 0 }
def sched0 : Sched :=
  { decay := 0, warmupEach := false, lrPeak := 0x3F800000, lrMin := 0, lrStart := 0, warmup := 0, decayLen := 0, period := 0, gamma := 0 }
def group0 : Group :=
  { rule := 0, emaEn := false, emaFp32 := false, gradBf16 := false, watchBase := 0, beta1 := 0, omb1 := 0, beta2 := 0, omb2 := 0,
    eps := 0, wd := 0, emaBeta := 0, emaOmb := 0, gscale := 99, rowWidth := 1, preCols := 0, preF := 0, newtonIters := 0, epsBase := 0,
    epsSing := 0, pivotRel := 0, sched := sched0 }
/-- A shard of one chunk: tensor 3 its GRAD, 7 its TAG. -/
def shard0 : Shard :=
  { group := 0, pile := 2, count := 64, first := 0, grad := 3, m := 4, v := 5, master := 6, work := 9, ema := 10, tag := 7, freeze := 11,
    touch := 12, pstat := 13, pdir := 14 }
def upd0 : UpdCfg :=
  { votePos := 0, stepPos := 1, stepRec := 98, groups := [group0], shards := [shard0], ops := [{ shard := 0, firstChunk := 0, chunks := 1 }] }
/-- Pile 15's region is a stream's window buffers at 0x10000000000 (comb of die 0); ops: a MOVE part, a part to the super tier
and a FETCH. -/
def tier0 : TierCfg :=
  { groupMode := 0, holdSize := 1, holdGroup := 3, streams := [{ depth := 1, die := 0, bufSize := 4096, bufBase := 0x10000000000 }]
    ops := [{ kind := 1, window := 0, expClass := 0, expCore := 0, expSlot := 0, tensor := 1, offset := 0, length := 2, target := 0x40000 },
            { kind := 1, window := 0, expClass := 0, expCore := 0, expSlot := 0, tensor := 1, offset := 0, length := 2,
              target := 0x100000000000 },
            { kind := 2, window := 0, expClass := 3, expCore := 0, expSlot := 0, tensor := 1, offset := 0, length := 2, target := 7 },
            { kind := 1, window := 0, expClass := 0, expCore := 0, expSlot := 0, tensor := 1, offset := 2, length := 2, target := 0x40000 }]
    refresh := [{ pos := 0, pile := 255, count := 1, start := 0 }] }
def fing3 : Fing :=
  { noFing with own := { noPlan with update := some upd0, tier := some tier0 }
                tensors := [ten 1 0 0x10000, { ten 3 0 0 with holdGrad := true }, ten 7 1 0x22000, ten 8 5 0x30000]
                rdc := some { en := 3, regions := [{ base := 0, length := 0x100000, lifetime := 1 }] } }
def trained : State := inWin fing3 win0

/-- `n` bytes from `a` on can be written by the agent. -/
def canWrite (s : State) (ag : Agent) (a n : Nat) : Bool :=
  match s.placesOf ag true a n with
  | some ps => decide (s.needsHold a = none) && decide (s.guards ag ps = .ok) && decide (ps.map fun pl => cellOf pl.loc).Nodup
      && ps.all fun pl => (cellOf pl.loc).1 != 3
  | none => false

theorem test_hyp_update : let u : UnitId := { cls := 7, idx := 2 }
    let s := putSlot trained u (slotOf u 0)
    s.runOf u = some (slotOf u 0) ∧ s.updOp (slotOf u 0) = some ({ shard := 0, firstChunk := 0, chunks := 1 }, shard0, group0) ∧
      s.upd.staged = [] ∧ s.shardRestoring shard0 = false ∧ s.upd.skip = false ∧ 2 ∉ s.upd.stopped ∧ s.shardAway shard0 = false ∧
      s.refreshing = false ∧
      (∀ a ∈ [0x100000000000, 0x20000], ({ s with tier := { s.tier with homes := [{ tensor := 7, home := a }] } } : State).shardAway shard0 =
        true) := by
  decide +kernel
/-- The tag of the shard's chunk with these stamps. -/
def tagged (mom cap : Nat) : State := { trained with dram := trained.dram.writeN (Loc.dram 2 0x2000).key (leBytes 4 mom ++ leBytes 4 cap) }

theorem test_hyp_chunks : ∀ x ∈ [(0, 0, 0), (1, 0, 1), (1, 1, 2), (5, 0, 3)], let s := tagged x.1 x.2.1
    (s.chunkTags shard0 group0 0).map (tagState false (s.stepT % 2 ^ 32) ((s.stepT + 1) % 2 ^ 32)) = [x.2.2] := by decide +kernel
def staged0 : Staged :=
  { eng := 2, shard := 0, chunk := 0, recovered := [], fresh := [0], needTwin := true, ackPile := true, ackTwin := false }

theorem test_hyp_acks : let u : UnitId := { cls := 7, idx := 2 }
    let s := putSlot trained u (slotOf u 0)
    let s : State := { s with upd := { s.upd with staged := [staged0] } }
    s.upd.staged.find? (fun x => x.eng == 2) = some staged0 ∧ (staged0.ackTwin || true) = true ∧ (staged0.ackPile || !true) = true ∧
      (staged0.ackTwin || false) = false ∧ (s.updOp (slotOf u 0)).isSome = true ∧
      (putSlot trained { cls := 8, idx := 0 } (slotOf { cls := 8, idx := 0 } 0)).runOf { cls := 8, idx := 0 } =
        some (slotOf { cls := 8, idx := 0 } 0) ∧ trained.updCfg = some upd0 := by decide +kernel

/-- A mirror frame for tensor 8. -/
def frame8 (kind stamp off : Nat) (b : Bytes) : MirrorFrame :=
  { kind := kind, takeover := false, shard := 0, object := 8, offset := off, stamp := stamp, seq := 0, payload := b }
/-- One write of a stage frame: the mirror tag at the start of tensor 8. -/
def tagWrite : Bytes := leBytes 4 8 ++ leBytes 8 0 ++ leBytes 4 4 ++ leBytes 4 1

theorem test_hyp_mirror : trained.tensor 8 = some (ten 8 5 0x30000) ∧ trained.runSlot.isSome = true ∧ (8190 : Nat) + 2 ≤ 8192 ∧
    canWrite trained .mirror ((ten 8 5 0).taddr + 8190) 2 = true := by decide +kernel
theorem test_hyp_stages : let ws := unpackWrites tagWrite.length tagWrite
    ws = [(8, 0, leBytes 4 1)] ∧
      (∀ x ∈ [(0, 0), (1, 0), (1, 1), (5, 6)],
        (({ trained with dram := trained.dram.writeN 0x3000 (leBytes 4 x.1 ++ leBytes 4 x.2) } : State).countFrame
          (frame8 2 1 0 tagWrite)).mirrorTag ws = some (8, x.1, x.2)) := by decide +kernel
theorem test_hyp_copies : trained.tensor 1 = some (ten 1 0 0x10000) ∧ trained.mirrors (ten 1 0 0x10000) = true ∧ (ten 8 5 0).cls = 5 ∧
    8191 / 4096 * 4096 < (ten 1 0 0).size ∧ trained.shardOf 1 = none ∧ trained.shardOf 7 = some shard0 ∧
    (let r := inWin fing2 win0
     r.twin.isSome = true ∧ r.casc.retired = false ∧ r.portsOf 7 = [] ∧
       ((((r.setFld (Reg.linkState 3) 7 0 0xBA).setReg (Reg.linkWidth 3) 1).setPort 3 { r.port 3 with active := true })).portsOf 7 = [3]) := by decide +kernel

/-- A frame of the twin lane, REQUEST or DATA, on port 3. -/
def twinFrame (typ flags : Nat) (b : Bytes) : Frame :=
  ({ frame00 with typ := typ, vl := 3, flags := flags, src := other, len := b.length, cascade := 0x1234, payload := b } : Frame).sealed
/-- The twin has not acknowledged the frame 0 of its lane yet. -/
def sending (s : State) : State :=
  let s := s.setFld (Reg.linkState 3) 7 0 0xBA
  let s := s.setPort 3 { s.port 3 with replay := [frame00, twinFrame 1 1 []] }
  { s with upd := { s.upd with refresh := some 1 } }
/-- A member whose twin port 3 is active. -/
def twinned : State :=
  let s := (member 1 win0).setFld (Reg.linkState 3) 7 0 0xBA
  s.setPort 3 { s.port 3 with active := true }

theorem test_hyp_refreshing : let u : UnitId := { cls := 7, idx := 2 }
    let s := sending (putSlot trained u (slotOf u 0))
    s.runOf u = some (slotOf u 0) ∧ s.refreshing = true ∧ s.upd.staged = [] ∧ s.shardRestoring shard0 = false ∧
      s.updOp (slotOf u 0) = some ({ shard := 0, firstChunk := 0, chunks := 1 }, shard0, group0) := by decide +kernel
theorem test_hyp_twin_frames : twinned.portActive 3 = true ∧ twinned.cascade32 = 0x1234 ∧ twinned.portRole 3 = 7 ∧ twinned.runSlot.isSome = true ∧
    (twinned.port 3).rxLseq = 0 ∧ (getKey twinned.casc.rxSeq (orderKey 7 3 3)).getD 0 = 0 ∧ twinned.casc.rxHold = [] ∧
    twinned.casc.mirrorIn = [] ∧ (4 ∈ [4, 2] ∧ 3 ∉ [4, 2]) ∧
    (∀ k ∈ [1, 2, 3, 4, 5], ∀ g ∈ [0, 1], let f := twinFrame 1 g (leBytes 1 k ++ zeroBytes 23)
      f.good = true ∧ f.lseq = 0 ∧ f.dseq = 0 ∧ f.cascade = 0x1234 ∧ f.typ = 1 ∧ f.vl = 3 ∧ f.flags % 2 = g ∧
        fieldAt ([] ++ f.payload) 0 1 = k) ∧
    (let f := twinFrame 8 0 (askBytes 7 (some 4096))
     f.good = true ∧ f.typ = 8 ∧ f.vl = 3 ∧ askOf f.payload = (7, some 4096)) := by decide +kernel

theorem test_hyp_covers : let s := trained.setFld (Reg.coreSpare 3) 8 7 0
    s.running = true ∧ s.test.testCtl.getLsbD 0 = true ∧ s.cdiePresent 3 = true ∧ getKey s.test.testing 3 = none ∧ 3 ∉ s.test.due ∧
      s.spareState 3 = 0 ∧ getKey ({ s.test with testing := [(3, 67)] } : TestSt).testing (67 / 17) = some 67 ∧ 67 / 17 ∉ s.test.passed ∧
      ({ typ := 5, idx := 67, sub := 0 } : UnitCode) ∉ s.test.fences ∧ 15 ∈ ({ s.test with updTest := [15] } : TestSt).updTest ∧
      s.test.passed = [] ∧ trained.running = true ∧ ready.running = false := by
  decide +kernel

/-- A homing of tensor 1 to its landing. -/
def homing1 : MoveSt :=
  { tensor := 1, target := 0x50000, length := 2, progress := 0, marked := 0, hist := [], stale := false, homing := true,
    source := 0x10000, begun := 5, complete := false }

/-- Mover 31 runs an op, with progress `prog` within it. -/
def moving (op prog : Nat) : State :=
  let u : UnitId := { cls := 3, idx := 31 }
  putSlot trained u { slotOf u op with prog := prog }

theorem test_hyp_moves : let u : UnitId := { cls := 3, idx := 31 }
    (moving 0 0).homeOf (ten 1 0 0x10000) = some 0x10000 ∧ (moving 0 0).homeOf { ten 3 0 0 with holdGrad := true } = none ∧
    overlap (0x40000, 8192) (0x41000, 8192) = true ∧ homing1.homing = true ∧
    (∀ op ∈ [0, 1, 3], (moving op 0).runOf u = some (slotOf u op) ∧ ((moving op 0).moverOp 1 (slotOf u op)).map (·.tensor) = some 1) ∧
      trained.tier.moves = [] ∧ ((moving 3 0).moverOp 1 (slotOf u 3)).map (·.offset) = some 2 ∧
      ((moving 1 2).unit u).run = some { slotOf u 1 with prog := 2 } := by decide +kernel
theorem test_hyp_move_part : let s := moving 0 0
    ∀ o ∈ tier0.ops.take 1, let a := s.beginMove o (ten 1 0 0x10000) 5
      a.homeOf (ten 1 0 0x10000) = some 0x10000 ∧ isSuper 0x10000 = false ∧ isSuper (o.target + o.offset) = false ∧
      (a.placesOf (.mover 31 (some 1) false) false 0x10000 2).isSome = true ∧ canWrite a (.mover 31 (some 1) false) 0x40000 2 = true ∧
      s.tier.moves.find? (fun y => y.tensor == 1) = none ∧ o.offset = 0 ∧ (s.heldRanges.all fun x => !(overlap (o.target, 8192) x)) = true := by
  decide +kernel
theorem test_hyp_move_super : let s := linked (moving 1 0)
    let s : State := { s with tier := { s.tier with super := [{ off := 0, length := 4096, hostAddr := 0x5000, port := 1 }] } }
    s.superParts 0x100000000000 2 = [(some .b, 0x5000, 2)] ∧ isSuper 0x100000000000 = true ∧
      (s.heldRanges.all fun x => !(overlap (0x100000000000, 8192) x)) = true := by decide +kernel
theorem test_hyp_fetch : let u : UnitId := { cls := 3, idx := 31 }
    let s := moving 2 0
    ((s.moverOp 2 (slotOf u 2)).map (fun o => (o.window, o.target % 2))) = some (0, 1) ∧ s.tier.wins = [] ∧
      s.homeOf (ten 1 0 0x10000) = some 0x10000 ∧ (s.placesOf (.mover 31 none true) false 0x10000 2).isSome = true ∧
      canWrite s (.mover 31 none true) (0x10000000000 + 4096) 2 = true ∧
      (∃ y ∈ ({ s.tier with wins := [{ stream := 0, buffer := 1, layer := 5, expires := none, beat := 4 }] } : TierSt).wins,
        y.stream = 0 ∧ y.buffer = 7 % 2) := by decide +kernel
theorem test_hyp_holds : let T : Tensor := { ten 3 0 0 with holdGrad := true }
    let w : HoldWait := { pile := 2, tensor := 3, off := 8190, data := [1, 2], beat := 5, unit := none, owe := none }
    let l := linked trained
    let s : State := { l with tier := { l.tier with waits := [w] } }
    let b := ({ s with tier := { s.tier with waits := [] } } : State).allocHold T
    s.tier.waits.filter (fun x => x.pile == 2) = [w] ∧ s.tensor 3 = some T ∧ T.holdGrad = true ∧ s.homeOf T = none ∧
      s.gradShard 3 = some shard0 ∧ s.tierCfg = some tier0 ∧ freeUnits s.tier.holds 2 1 ((T.size + 65535) / 65536) = some 0 ∧
      canWrite b .hub (T.taddr + 8190) 2 = true ∧ s.portUp .a = true ∧ s.portUp .b = true ∧
      (s.tier.holds.filter fun x => x.pile == 2).length < 1024 := by decide +kernel
theorem test_hyp_homing : let l := linked trained
    let s : State := { l with tier := { l.tier with moves := [{ homing1 with tensor := 8 }, homing1] }, host := { l.host with asks := [(homingKey 1, .a)] } }
    s.tier.moves.find? (fun y => y.tensor == 1 && y.homing && !y.complete) = some homing1 ∧ ([1, 2] : Bytes).length = homing1.length ∧
      s.halfOf homing1.target = some 0 ∧ (s.homingHead 0).map (·.tensor) = some 1 ∧ s.homingMover 0 = 0 ∧ (homingKey 1, HPort.a) ∈ s.host.asks ∧
      canWrite s (.mover 0 (some 1) false) homing1.target 2 = true ∧ ([] : Bytes).length ≠ homing1.length ∧ trained.host.asks = [] ∧
      s.portUp .a = true ∧ s.portUp .b = true := by decide +kernel
theorem test_hyp_refresh : ∀ d ∈ [(-8 : Int), -7, 7, 8], let s : State := { trained with tier := { trained.tier with debt := [(15, d)] } }
    (s.fld (Reg.pileState 15) 2 0 = 2 ∨ s.fld (Reg.pileState 15) 2 0 = 4) ∧ s.debtOf 15 = d ∧ s.beat.win = some win0 ∧
      s.tierCfg = some tier0 ∧ s.burstsRun win0 15 < burstsDue tier0 win0 15 0 ∧
      burstsDue tier0 win0 15 0 ≤ ({ s with tier := { s.tier with bursts := [(15, 5, 1)] } } : State).burstsRun win0 15 := by decide +kernel
theorem test_hyp_scrub : trained.test.testCtl.getLsbD 3 = true ∧ (2 ^ 30 - 2 + 1 < 2 ^ 30 ∧ 2 ^ 30 - 1 + 1 = 2 ^ 30) ∧
    decodeCw none [] = .clean ∧ decodeCw (some 17) [(17, 0, 9)] = .erased ∧ decodeCw none [(17, 0, 9), (17, 1, 200)] = .corrected 17 ∧
    decodeCw none [(0, 0, 9), (1, 0, 9)] = .bad ∧ trained.tier.ueTimes = [] ∧
    (trained.tensorOf (trained.devOf 0 0x1000)).map (fun x => (x.1.id, x.2)) = some (1, 0x0) ∧ trained.tensorOf (trained.devOf 15 0) = none ∧
    trained.tier.listed = [] ∧ (ten 1 0 0).mirrored = true ∧ ({ ten 1 0 0 with mirrored := false } : Tensor).mirrored = false ∧
    (trained.tier.ueTimes.filter fun x => x.1 == 15).length < 63 := by decide +kernel
theorem test_hyp_remote : let s : State := { trained with tier := { trained.tier with rdcOn := [0] } }
    s.physOf 0 / 17 = 0 ∧ dieHub 0 = 0 ∧ 0x8000 % 256 + 256 ≤ 256 ∧ s.halfOf 0x1000 = some 0 ∧ s.halfOf 0x8000 = some 1 ∧ (s.rdcRegion 0x8000).isSome = true ∧
      s.bit (Reg.coreMap 0) 7 = true ∧ 0 ∈ s.tier.rdcOn ∧ s.tier.rdc = [] ∧
      (∃ x ∈ ({ s.tier with rdc := [{ die := 0, line := 0x80, lifetime := 1, order := 0 }] } : TierSt).rdc, x.die = 0 ∧ x.line = 0x8000 / 256) := by
  decide +kernel

/-! ### Single steps of the update rules and the tiers -/

-- A MOVE part copies its bytes and moves the progress on (R331).
theorem test_move_copies : let s := moving 0 0
    let t := after (.move 31 none) { s with dram := s.dram.writeN 0x1000 [7, 9] }
    (t.view 0x40000 2, t.tier.moves.map (·.progress)) = ([7, 9], [2]) := by decide +kernel
-- Table 6.5: stamps (T, T) are not started, (t, T) recover, (t, t) are capped, anything else is a fault; T = 2^32 − 1 wraps.
theorem test_tags_wrap : tagState false 0xFFFFFFFF 0 { idx := 0, mom := 0xFFFFFFFF, cap := 0xFFFFFFFF } = 0 ∧
    tagState false 0xFFFFFFFF 0 { idx := 0, mom := 0, cap := 0xFFFFFFFF } = 1 ∧ tagState false 0xFFFFFFFF 0 { idx := 0, mom := 0, cap := 0 } = 2 ∧
    tagState false 0xFFFFFFFF 0 { idx := 0, mom := 0xFFFFFFFE, cap := 0xFFFFFFFE } = 3 := by decide +kernel
/-! ### Hypotheses of the statements: the host -/

/-- A descriptor of 20 bytes at tensor 1. -/
def desc0 (kind port : Nat) : CopyDesc :=
  { kind := kind, port := port, hasRecord := false, flag := true, flagOther := false, vector := 127, length := 20, hostAddr := 0x8000,
    taddr := (ten 1 0 0).taddr, flagAddr := 0x9000, flagBase := 3, recordAddr := 0, stride := 0x1000, nbuf := 2 }
def fing4 : Fing :=
  { fing3 with hostIo := some { fenceOff := false, needA := false, needB := false, needCxl := false,
                                descs := [desc0 1 0, desc0 2 1, desc0 3 2, desc0 3 3] } }
/-- Copy engine 23 runs a slot of the op. -/
def copying (op : Nat) : State :=
  let u : UnitId := { cls := 4, idx := 23 }
  putSlot (linked (inWin fing4 win0)) u (slotOf u op)
/-- Its run in progress: two requests are outstanding. -/
def run23 : CopyRun :=
  { engine := 23, desc := 0, run := 0, beat := 5, port := .a, done := 20, outstanding := [(0, 12), (12, 8)], complete := false }
def fetching : State :=
  let s := copying 0
  { s with host := { s.host with runs := [run23] } }

theorem test_hyp_copy_runs : (∀ k ∈ [1, 2, 3], (copying (k - 1)).copyDesc k (slotOf { cls := 4, idx := 23 } (k - 1)) = some (desc0 k (k - 1)) ∧
      ((copying (k - 1)).copyPort (desc0 k (k - 1))).isSome = true) ∧
    ((copying 1).placesOf (.copy 23) false (desc0 2 1).taddr 20).isSome = true ∧
    (let s := putSlot (inWin fing4 win0) { cls := 4, idx := 23 } (slotOf { cls := 4, idx := 23 } 2)
     s.copyPort (desc0 3 2) = none ∧ s.copyDesc 3 (slotOf { cls := 4, idx := 23 } 2) = some (desc0 3 2) ∧
       s.runOf { cls := 4, idx := 23 } = some (slotOf { cls := 4, idx := 23 } 2)) := by decide +kernel
theorem test_hyp_completions : fetching.copyOf 23 = some run23 ∧ fetching.descOf run23 = some (desc0 1 0) ∧
    canWrite fetching (.copy 23) ((desc0 1 0).taddr + 10) 2 = true ∧ (10 : Nat) + 2 ≤ 0 + 12 ∧
    run23.outstanding.flatMap (cutAsk 10 2) ≠ [] ∧
    ({ run23 with outstanding := [(10, 2)] } : CopyRun).outstanding.flatMap (cutAsk 10 2) = [] ∧ run23.done = (desc0 1 0).length ∧
    run23.arrived 0 = false := by decide +kernel
theorem test_hyp_flush : let f : Flushing := { id := 4, port := .b, run := 2, desc := desc0 2 1 }
    ({ fetching.host with flushing := [f] } : HostSt).flushing.find? (fun x => x.id == 4) = some f ∧ f.desc.vector < 256 ∧
      fetching.portUp .b = true ∧ (fetching.hport .b).msixOn = true ∧ fetching.bit (Reg.msix 1 127 3) 0 = true ∧
      (fetching.setBit (Reg.msix 1 127 3) 0 false).bit (Reg.msix 1 127 3) 0 = false := by decide +kernel
theorem test_hyp_port_reset : let s := linked ready
    s.power.powerOk = true ∧ (s.hport .b).up = true ∧ (ready.hport .b).up = false ∧ s.host.runs = [] ∧ s.host.asks = [] ∧
      s.beat.reading = 0 ∧ s.host.ctrl = .a ∧ s.devState = 3 ∧ s.running = false ∧ shared.host.hdm = some (.a, 0, 2 ^ 28) ∧
      ({ s with host := { s.host with portB := .reset } } : State).portUp (otherPort .a) = false ∧
      (∃ x ∈ fetching.host.runs, x.port ≠ HPort.b) := by decide +kernel
theorem test_hyp_host_link : let s := ((ready.setReg Reg.portCtlA 2).setBit Reg.capPresent1 24 true).setReg Reg.hdmCtl 0x04001000
    s.power.powerOk = true ∧ s.pkg.testMode = false ∧ (s.hport .a).up = false ∧ s.bit Reg.portCtlA 1 = true ∧
      s.bit Reg.capPresent1 24 = true ∧ s.fld Reg.hdmCtl 25 25 = portIdx .a ∧ s.bit Reg.hdmCtl 26 = true ∧ 0 < s.fld Reg.hdmCtl 24 12 ∧
      shared.host.portA.cxl = true := by decide +kernel


/-! ### Hypotheses of the statements: foragers -/

def stream0 (kind : Nat) : FStream :=
  { kind := kind, forager := 1, cacheFill := false, concealMask := false, outZf8 := false, longOk := false, partner := false, intake := false,
    port := 0, watch := 0, tgtW := 1, tgtH := 1, longAt := 64, mean := [0, 0, 0], scale := [0, 0, 0], dict := 97, byteBase := 256,
    bosId := 0xFFFFFFFF, eosId := 0xFFFFFFFF, padId := 0 }
def batch0 : BatchDesc :=
  { stream := 0, long := false, mbIndex := 0, budget := 2, rows := 1, seq := 2, fillMin := 1, target := 1 }
/-- Streams: 0 text, 1 images; STAGING is tensor 1, MANIFEST tensor 2. -/
def fing5 : Fing :=
  { noFing with tensors := [ten 1 0 0x10000, { ten 97 0 0x60000 with taddr := 0x210000000000 },
                            { ten 2 0 0x1000000 with taddr := 0x220000000000, size := 262400 }]
                forager := some { retainStep := false, fixedSteps := 0, staging := 1, manifest := 2, cache := 0xFFFFFFFF, configTag := 0,
                                  streams := [stream0 2, stream0 1], ops := [batch0] } }
def foraging : State := inWin fing5 win0
/-- A record of stream `k` with this payload. -/
def record (kind k seq : Nat) (b : Bytes) : SampleRec :=
  { length := b.length, kind := kind, stream := k, refetch := false, coord := { x := 0, y := 0, z := 0 }, crc := BitVec.ofNat 32 (crc32c b),
    sampleId := 7, srcSeq := seq, payload := b }

theorem test_hyp_records : let r := record 2 0 3 [0x61]
    let s := foraging
    s.forCfg.isSome = true ∧ s.recordStream r = some 0 ∧ s.stream 0 = some (stream0 2) ∧ (getKey s.forager.expect 0).getD 0 ≤ 3 ∧
      s.bit Reg.forgCtl 1 = false ∧ s.forCfg.map (fun c => s.cached c 0 r) = some none ∧ crc32c r.payload = r.crc.toNat ∧
      crc32c r.payload ≠ (r.crc + 1).toNat ∧ s.recordStream { r with coord := other } = none ∧ s.stream 31 = none ∧
      s.recordStream { r with refetch := true } = some 0 ∧ (stream0 2).partner = false ∧ (stream0 2).forager = 1 ∧
      (0, r.sampleId, r.srcSeq) ∈ ({ s.forager with refetch := [(0, 7, 3)] } : ForSt).refetch ∧
      r.srcSeq < (getKey ({ s.forager with expect := [(0, 4)] } : ForSt).expect 0).getD 0 := by decide +kernel
theorem test_hyp_damage : let s := ((foraging.setBit Reg.forgCtl 1 true).setReg Reg.forgErrCtl 16).setReg Reg.forgErrBaseLo 0x200000
    s.bit Reg.forgCtl 1 = true ∧ 0 < s.fld Reg.forgErrCtl 15 0 ∧
      canWrite s (.forager 1 8) (s.ringAddr Reg.forgErrBaseLo + 64 * ((s.reg Reg.forgErrHead).toNat % s.fld Reg.forgErrCtl 15 0)) 64 = true := by
  decide +kernel
/-- Lane 3 of forager 1 with a queued record of the stream. -/
def lane (first k : Nat) (r : SampleRec) : State :=
  let u : UnitId := { cls := 6, idx := 9 + first + 3 }
  let s := putSlot foraging u (slotOf u k)
  { s with forager := { s.forager with queue := [{ stream := k, sample := r }] } }
/-- The smallest image: 8 × 8, one component, every coefficient zero. -/
def tinyJpeg : Bytes :=
  [0xFF, 0xD8, 0xFF, 0xDB, 0, 67, 0] ++ List.replicate 64 1
    ++ [0xFF, 0xC0, 0, 11, 8, 0, 8, 0, 8, 1, 1, 0x11, 0] ++ [0xFF, 0xC4, 0, 20, 0x00, 1] ++ List.replicate 15 0 ++ [0]
    ++ [0xFF, 0xC4, 0, 20, 0x10, 1] ++ List.replicate 15 0 ++ [0] ++ [0xFF, 0xDA, 0, 8, 1, 1, 0x00, 0, 63, 0, 0x3F, 0xFF, 0xD9]

theorem test_hyp_lanes : let q : Queued := { stream := 1, sample := record 1 1 0 tinyJpeg }
    let s := lane 0 1 q.sample
    s.runOf { cls := 6, idx := 12 } = some (slotOf { cls := 6, idx := 12 } 1) ∧ s.laneRecord 12 1 = some q ∧ (12, q) ∉ s.forager.suspended ∧
      ({ s with forager := { s.forager with queue := [], suspended := [(12, q)] } } : State).laneRecord 12 1 = some q ∧ s.forager.cache = [] ∧
      s.stream 1 = some (stream0 1) ∧ s.bit Reg.forgCtl 1 = false ∧
      (match jpegDecode [] with
        | .error _ => true
        | .ok _ => false) = true ∧
      s.forCfg.map (fun c => (s.stagingFits c 8192, s.stagingFits c 8193)) = some (true, false) := by decide +kernel
theorem test_hyp_jpeg : (match jpegDecode tinyJpeg with
    | .ok _ => true
    | .error _ => false) = true := by decide +kernel
theorem test_hyp_text : let q : Queued := { stream := 0, sample := record 2 0 0 [0x61, 0xFF] }
    let s := lane 4 0 q.sample
    let y := tokenizeText (s.trie (stream0 2)) 256 0xFFFFFFFF 0xFFFFFFFF q.sample.payload
    s.runOf { cls := 6, idx := 16 } = some (slotOf { cls := 6, idx := 16 } 0) ∧ s.laneRecord 16 0 = some q ∧ y.tokens = [0x161, 0x1FF] ∧ y.bad = 1 ∧
      y.tokens.length ≤ (stream0 2).longAt ∧ ¬(y.tokens.length ≤ ({ stream0 2 with longAt := 1 } : FStream).longAt) := by decide +kernel
/-- A staged text sample of `n` tokens. -/
def staged (n : Nat) : Staged9 :=
  { forager := 1, stream := 0, sampleId := n, srcSeq := n, refetch := false, long := false, flags := 0, data := zeroBytes (4 * n), units := n,
    order := n, crc := 0, total := 0, declW := 0, declH := 0, length := 0, byteOff := 0, mcu := 0, count := 0, marker := false }
/-- The batch engine of forager 1 with staged samples and these bytes of the manifest. -/
def batching (xs : List Staged9) (m : Bytes) : State :=
  let u : UnitId := { cls := 6, idx := 17 }
  let s := putSlot foraging u (slotOf u 0)
  { s with dram := s.dram.writeN 0x100040 m
           forager := { s.forager with staged := xs, manifests := [{ op := 0, mb := 0, cycle := 9, beat := 1, samples := [staged 1], committed := true }] } }

theorem test_hyp_batch : let s := batching [staged 1, staged 2, staged 5] [1]
    ∀ c ∈ s.forCfg.toList, s.runOf { cls := 6, idx := 17 } = some (slotOf { cls := 6, idx := 17 } 0) ∧ c.ops[0]? = some batch0 ∧
      s.manifestAt c 0 batch0 false (s.manifestCycle c) = some (0x220000000000 + 64) ∧ s.stream 0 = some (stream0 2) ∧
      s.manifestStands (0x220000000000 + 64) 0 batch0 (s.manifestCycle c) = false ∧ s.forager.fixed = false ∧
      (scanPicks 2 1 64 0 0 0 (s.readyFor batch0)).map (·.len) = [1] ∧ usedBy (scanPicks 2 1 64 0 0 0 (s.readyFor batch0)) = 1 ∧
      usedBy (scanPicks 2 1 64 0 0 0 ((batching [staged 5] [1]).readyFor batch0)) < batch0.fillMin ∧
      canWrite s (.forager 1 8) (ten 1 0 0).taddr 22 = true ∧ canWrite s (.forager 1 8) (0x220000000000 + 64) 96 = true := by decide +kernel
/-- The manifest of the cycle stands with one entry. -/
def standing : State :=
  batching [] (leBytes 8 0 ++ leBytes 2 0 ++ leBytes 2 0 ++ leBytes 2 1 ++ zeroBytes 50 ++ leBytes 8 1 ++ leBytes 8 1 ++ leBytes 4 0
    ++ leBytes 4 1 ++ [0, 8])

theorem test_hyp_manifest : standing.forCfg.map (fun c => standing.manifestStands (0x220000000000 + 64) 0 batch0 (standing.manifestCycle c)) =
      some true ∧
    (∀ e ∈ standing.manifestEntries (0x220000000000 + 64), e.live = true ∧ standing.retained e 0 ≠ none) ∧
    (standing.manifestEntries (0x220000000000 + 64)).length = 1 := by decide +kernel

/-! ### Hypotheses of the statements: links -/

/-- Members (0, 0, 0) and (1, 0, 0), in this order or the other one; ops: SEND to member 1, MCAST and REDUCE over both with the
result at member 1, and REDUCE with the result at member 0. -/
def route4 (members : List Nat) : Route :=
  let op (kind dest : Nat) : LinkOp :=
    { kind := kind, vl := 1, group := 0, dest := dest, fmt := 0, window := 255, src := 0x10000, dst := 0x40000, length := 4, expClass := 0,
      expCore := 0, expSlot := 0 }
  { route2 with members := members, ops := [op 1 1, op 2 0, op 3 1, op 3 0] }
/-- Ports 0 and 31 are active towards x + 1, in service and with credit; the link engine of port 0 runs an op. -/
def linkedTo (members : List Nat) (op : Nat) : State :=
  let s := inWin { noFing with hdr := hdr2, own := { noPlan with route := some (route4 members) } } win0
  let up (s : State) (q : Nat) : State :=
    ((s.setReg (Reg.linkState q) 0x8A).setReg (Reg.linkWidth q) 0x7C).setPort q
      { PortSt.idle with active := true, credit := [0, 9, 0, 0], lanes := [true, true, true, true], ackDue := 62 }
  let u : UnitId := { cls := 5, idx := 0 }
  putSlot (up (up s 0) 31) u (slotOf u op)
/-- The next DATA frame on port 0 for this device. -/
def frame0 (flags taddr : Nat) : Frame :=
  { typ := 1, vl := 1, flags := flags, len := 4, dest := { x := 0, y := 0, z := 0 }, src := other, lseq := 0, dseq := 0, cascade := 0x1234,
    taddr := taddr, payload := [1, 2, 3, 4], crc := 0 }

theorem test_hyp_frames : let s := linkedTo [0, 1] 0
    s.portActive 31 = true ∧ (s.port 31).rxLseq = 0 ∧ (frame0 0 0).good = false ∧ (frame0 0 0).sealed.good = true ∧ s.portRole 31 ≠ 8 ∧
      ((linkedTo [0, 1] 0).setFld Reg.beatCtl 0 0 0).runSlot ≠ none ∧ ({ s with slotA := SlotSt.reset } : State).runSlot = none ∧
      ({ frame0 0 0 with cascade := 5 } : Frame).cascade ≠ s.cascade32 ∧ (frame0 0 0).cascade = s.cascade32 ∧ (s.port 31).ackDue < 63 ∧
      (1 + 2 ^ 32 - 0) % 2 ^ 32 < 2 ^ 31 ∧ 2 ^ 31 ≤ (0 + 2 ^ 32 - 1) % 2 ^ 32 ∧ (s.port 31).sendWait = [] ∧
      ([frame0 0 0].findIdx? fun x => x.lseq == 0) = some 0 ∧ (s.port 31).replay.findIdx? (fun x => x.lseq == 0) = none ∧
      0 < (s.port 31).ackDue ∧ s.casc.rxHold = [] ∧ (s.port 31).owed.length = 4 ∧
      ((s.port 31).replay.map (·.size)).sum + 160 ≤ 262144 ∧ s.foreign 31 { frame0 0 0 with typ := 2 } = false ∧ s.portRole 31 ≠ 7 := by decide +kernel
theorem test_hyp_deliver : let s := linkedTo [0, 1] 0
    s.route = some (route4 [0, 1]) ∧ (frame0 0 0).dest = s.self ∧ ¬((frame0 0 0).dest.x = 255 ∧ (frame0 0 0).dest.y = 255) ∧
      (frame0 0 0).dest ∉ s.casc.lost ∧ (frame0 0 0).dseq = (getKey s.casc.rxSeq (orderKey (s.portRole 31) 31 1)).getD 0 ∧
      (frame0 0 0).sealed.good = true ∧ (frame0 0 0).lseq = (s.port 31).rxLseq ∧ (frame0 0 0).dest.x < 128 ∧ s.portActive 31 = true ∧
      s.runSlot.isSome = true ∧ s.casc.rxHold = [] ∧ (frame0 0 0).cascade = s.cascade32 ∧ s.portRole 31 ≠ 8 ∧ s.portRole 31 ≠ 7 ∧
      canWrite s (.link 31 false) 0x40000 4 = true ∧ (frame0 2 (2 * 2 ^ 32)).flags / 2 % 2 = 1 ∧ (s.linkOp 2).isSome = true ∧
      (s.linkOp 2).map (fun o => s.isFinal (route4 [0, 1]) o (frame0 2 (2 * 2 ^ 32))) = some false ∧
      (s.linkOp 3).map (fun o => s.isFinal (route4 [0, 1]) o (frame0 2 (3 * 2 ^ 32))) = some true := by decide +kernel
/-- One case of a link op: member order, op, kind. -/
def sentBy (members : List Nat) (op : Nat) (pieces : List ReducePiece) : State :=
  let s := linkedTo members op
  { s with casc := { s.casc with pieces := pieces } }
def piece0 (op place : Nat) : ReducePiece := { port := 31, op := op, place := place, offset := 0, data := [0, 0, 0x80, 0x3F] }
/-- The op of the route of `linkedTo`. -/
def op4 (i : Nat) : LinkOp := (route4 [0, 1]).ops.getD i
  { kind := 0, vl := 0, group := 0, dest := 0, fmt := 0, window := 0, src := 0, dst := 0, length := 0, expClass := 0, expCore := 0,
    expSlot := 0 }

theorem test_hyp_link_ops : (∀ x ∈ [(0, 1), (1, 2), (2, 3), (3, 3)], ((linkedTo [0, 1] x.1).slotLinkOp 0 x.2).isSome = true ∧
      0 < (op4 x.1).length ∧ (op4 x.1).length ≤ 4096 ∧ (op4 x.1).kind = x.2) ∧
    (let s := linkedTo [0, 1] 2
     s.chainPlace (route4 [0, 1]) (op4 2) = some 0 ∧ (((route4 [0, 1]).group 0).filter fun i => decide (0 < i)).head? = some 1 ∧
       ((route4 [0, 1]).group 0).head? = some 0 ∧ s.chainPlace { route4 [0, 1] with groups := [2] } (op4 2) = none) ∧
    (let s := sentBy [1, 0] 2 [piece0 2 1]
     s.chainPlace (route4 [1, 0]) (op4 2) = some 1 ∧ ((route4 [1, 0]).group 0).filter (fun i => decide (1 < i)) = [] ∧
       ((route4 [1, 0]).group 0).head? ≠ some 1 ∧ (s.aliasOf (route4 [1, 0]) ((route4 [1, 0]).coord 1)).1 = s.self ∧
       (s.aliasOf (route4 [1, 0]) ((route4 [1, 0]).coord 0)).1 ≠ s.self ∧ s.pieceFor 2 (op4 2) 1 0 = some (piece0 2 1)) ∧
    (let t : Route := { route4 [2, 0, 1] with groups := [7] }
     let s := sentBy [2, 0, 1] 2 [piece0 2 1]
     s.chainPlace t (op4 2) = some 1 ∧ ((t.group 0).filter fun i => decide (1 < i)).head? = some 2 ∧ (t.group 0).head? ≠ some 1) := by
  decide +kernel
/-- Where the answer of a link op's piece stands. -/
def sendKind : Sent → Nat
  | .ok _ => 0
  | .blocked => 1
  | .noRoute => 2

theorem test_hyp_sends : let t := route4 [0, 1]
    let f (s : State) : Frame := { frame0 1 0x40000 with dest := other, src := s.self, crc := 0 }
    let s := linkedTo [0, 1] 0
    sendKind (s.sendTo 0 t (f s)) = 0 ∧ sendKind ((s.setPort 0 PortSt.idle).setPort 31 PortSt.idle |>.sendTo 0 t (f s)) = 2 ∧
      (let r := (s.setPort 0 { s.port 0 with credit := [] }).setPort 31 { s.port 31 with credit := [] }
       sendKind (r.sendTo 0 t (f r)) = 1) ∧ (s.launch 1 false 0 (f s)).isSome = true := by decide +kernel
theorem test_hyp_ports : let s := ready.setFld (Reg.linkState 31) 2 0 3
    s.running = false ∧ s.writeOpen (Reg.linkCtl 31) = true ∧ s.fld (Reg.linkState 31) 2 0 ≠ 4 ∧
      (s.fld (Reg.linkState 31) 2 0 = 3 ∧ s.fld (Reg.linkState 31) 9 8 < 2) ∧ 2 ≤ (s.setFld (Reg.linkState 31) 9 8 2).fld (Reg.linkState 31) 9 8 ∧
      ((runs noFing).setFld (Reg.linkState 31) 9 0 0x203).running = true ∧
      s.identOk 31 { coord := other, port := 1, cascade := 0, kind := 1 } = true ∧ (laneUse [true, true, false, false]).1 ≠ 0 ∧
      (linkedTo [0, 1] 0).identOk 31 { coord := other, port := 1, cascade := 0, kind := 1 } = false ∧
      (linkedTo [0, 1] 0).portActive 31 = true ∧ (linkedTo [0, 1] 0).identOk 0 { coord := other, port := 2, cascade := 0x1234, kind := 1 } = true ∧
      ((linkedTo [0, 1] 0).port 31).probes.length < 63 ∧
      (List.replicate 64 (10, 2)).length = 64 ∧ List.replicate 64 (10, 2) = List.replicate 63 (10, 2) ++ [(10, 2)] := by decide +kernel
theorem test_hyp_port_frames : let s := linkedTo [0, 1] 0
    let f (typ : Nat) (b : Bytes) : Frame := ({ frame0 0 0 with typ := typ, vl := 0, len := b.length, payload := b } : Frame).sealed
    (∀ b ∈ [[], leBytes 4 7], (f 6 b).good = true ∧ (f 6 b).typ = 6 ∧ (f 6 b).payload = b ∧ s.foreign 31 (f 6 b) = false) ∧ s.casc.joinDue = [] ∧
      (laneUse (s.lanesUp 31 [true, true, false, true])).1 ≠ 0 ∧ (s.setFld (Reg.linkState 31) 2 0 1).fld (Reg.linkState 31) 2 0 = 1 ∧
      ∀ x ∈ [(0x1234, true), (0, false)], let i : Ident := { coord := other, port := 2, cascade := x.1, kind := 1 }
        (f 5 i.bytes).good = true ∧ identOf (f 5 i.bytes).payload = i ∧ s.identOk 0 i = x.2 := by decide +kernel
theorem test_hyp_margins : let s := linkedTo [0, 1] 0
    s.portActive 31 = true ∧ bits ({ s.test with testCtl := 4 } : TestSt).testCtl 2 2 = 1 ∧ (s.port 31).lanes.getD 3 false = true ∧
      ready.running = false ∧ ready.writeOpen (Reg.linkCtl 31) = true ∧ (s.port 31).lanes.any id = true := by decide +kernel

/-! ### Hypotheses of the statements: Eszoja, start-up, resets and management -/

theorem test_hyp_esz : let s := booted ready
    s.eszServes = true ∧ s.esz.busy = none ∧ s.devState ≠ 5 ∧ (s.esz.fw.map (·.copy)) = some 0 ∧
      ({ s.esz with busy := some (255, 0xB010) } : EszSt).busy = some (255, 0xB010) := by decide +kernel
/-- A request: magic, OP, ARG, the device's DEVID and nonce, and a block with no valid signature. -/
def signed (op : Nat) : Bytes := leBytes 4 0x5A455351 ++ [BitVec.ofNat 8 op, 3, 0, 0] ++ zeroBytes 8 ++ List.replicate 32 7 ++ zeroBytes 80 ++ zeroBytes 2048
/-- Eszoja has handed out a nonce. -/
def nonced : State :=
  let s := booted ready
  { s with esz := { s.esz with devid := zeroBytes 8, nonce := some (List.replicate 32 7) } }

theorem test_hyp_requests : (∀ op ∈ [1, 2, 3, 4, 5, 6], reqOp (signed op) = op ∧ reqArg (signed op) = 3) ∧
    nonced.requestCode (signed 0) = some 0xB021 ∧ nonced.requestCode (signed 7) = some 0xB021 ∧
    (booted ready).requestCode (signed 4) = some 0xB020 ∧ (nonced.requestCode (signed 4)).isSome = true := by decide +kernel

/-- A package with nothing in it. -/
def bare : Package :=
  { dies := [], blocks := [], modules := [], noComb := [], failedCores := [], failedArrays := [], hubTestFails := false, eszTestFails := false, pllFails := none,
    maddr := 0, testMode := false, pkgRev := 0, vendorKeys := [], flash := [[], []], certOk := false }

theorem test_hyp_power_ok : State.reset.power.powerOk = false ∧ State.reset.devState ≠ 7 ∧
    ({ bare with pllFails := some 0 } : Package).pllFails = some 0 ∧ bare.testMode = false ∧
    (({ State.reset with pkg := bare, power := { State.reset.power with powerOk := true, step := 5 } } : State).loadFuses.esz).choose.1 = none ∧
    ready.power.powerOk = true := by decide +kernel
def block0 : ParamBlock := { dieType := 1, stepping := 3, caps := 0xFFFFFFFF, serial := 9 }
/-- Start-up has reached step 7 with the package of one compute die and one more die. -/
def booting (blocks : List DieBlock) : State :=
  let s := (ready.setFld Reg.devState 3 0 2).setFld (Reg.d2dModStatus 0 0) 1 0 2
  { s with power := { s.power with step := 7 }, pkg := { bare with dies := [(0, 1), (1, 2)], blocks := blocks } }

theorem test_hyp_blocks : farDie 0 0 = (0, 1) ∧ (0, 1) ∈ (booting []).pkg.dies ∧ (booting []).modState 0 0 = 2 ∧
    (booting []).blockOf (0, 1) = none ∧ (booting []).devState = 2 ∧ (booting []).power.step = 7 ∧
    (∃ x ∈ (booting []).pkg.dies, x ≠ (0, 1) ∧ (booting []).blockOf x = none) ∧
    (booting [{ hub := 0, die := 1, block := block0 }]).blockOf (0, 1) = some block0 ∧ { block0 with serial := 8 } ≠ block0 ∧
    (∀ x ∈ (booting [{ hub := 1, die := 2, block := block0 }]).pkg.dies, x ≠ (0, 1) →
      (booting [{ hub := 1, die := 2, block := block0 }]).blockOf x ≠ none) ∧ (booting []).pkg.failedCores = [] ∧
    (booting []).power.powerOk = true := by decide +kernel
theorem test_hyp_resets : bits (0x5A01 : Word) 0 0 = 1 ∧ bits (0x5A01 : Word) 15 8 = 0x5A ∧ bits (0x5A00 : Word) 0 0 = 0 ∧
    bits (0x5B01 : Word) 15 8 ≠ 0x5A ∧ (booted ready).power.powerOk = true ∧ (booted ready).power.thermtrip = false ∧
    (booted ready).devState ≠ 1 ∧ (booted ready).esz.fw.isSome = true ∧
    (match (booted ready).esz.verifyCopy 0 ((booted ready).esz.copyBytes 0) with
      | .error _ => true
      | .ok _ => false) = true ∧
    ({ ready with slotA := { state := 1, lo := 0, hi := 0, kept := [], alone := false, fing := none } } : State).slotA.state = 1 := by decide +kernel
/-- An endpoint has negotiated. -/
def negotiated (s : State) : State := { s with esz := { s.esz with epA := { negotiated := true, transcript := [] } } }

theorem test_hyp_spdm : let s := negotiated (linked (booted ready))
    s.epOpen .portA = true ∧ s.epOpen .bus = true ∧ (s.spdmEp .portA).negotiated = true ∧ (s.spdmEp .portB).negotiated = false ∧
      s.certChain.isSome = true ∧ s.esz.alias_ = some 7 ∧ s.esz.fw.isSome = true ∧
      ({ s with esz := { s.esz with chain := none } } : State).certChain = none ∧ ({ s.esz with alias_ := none } : EszSt).alias_ = none := by
  decide +kernel
theorem test_hyp_tap : ready.power.powerOk = true ∧ ready.running = false ∧ (runs noFing).running = true ∧ ready.esz.debug = 0 ∧
    ({ ready.esz with debug := 2 } : EszSt).debug = 2 ∧ (127 : Nat) < 128 := by decide +kernel

/-! ### Single steps of the links and of start-up -/

-- DATA frame bytes land at TADDR (R427).
theorem test_frame_lands : (after (.dataFrame 31 (frame0 1 0x40000).sealed) (linkedTo [0, 1] 0)).view 0x40000 4 = [1, 2, 3, 4] := by
  decide +kernel
-- CRC-32C of the digits 1 to 9 is 0xE3069283.
theorem test_crc32c : crc32c [0x31, 0x32, 0x33, 0x34, 0x35, 0x36, 0x37, 0x38, 0x39] = 0xE3069283 := by decide +kernel
-- A device reset without its key changes nothing (R530).
theorem test_reset_key : after (.devReset 0x0001 0) ready = ready := by decide +kernel
-- A cap below 1,000 W is clamped (R508).
theorem test_cap : (after (.setCap .bus 1) (booted ready)).fld Reg.pwrCapMgmt 11 0 = clampCap 1 := by decide +kernel

end Sys2Proof.Tests
end

/-! # Register reads: the value of a read, its side effects, the HI latches and stopped domains, and O9. -/

namespace Sys2Proof.Laws

open Sys2Proof Sys2Proof.Machine

/-! ### Registers through operations that do not name them -/

@[simp] theorem emit_reg (s : State) (x : Out) (o : Nat) : (s.emit x).reg o = s.reg o := rfl
@[simp] theorem emit_bit (s : State) (x : Out) (o i : Nat) : (s.emit x).bit o i = s.bit o i := rfl

theorem markFault_regs (s : State) (e : Ev) : (s.markFault e).regs = s.regs := by
  unfold State.markFault
  dsimp only
  split
  · split <;> rfl
  · rfl

/-- An event of class RP is logged and marks its window (Table 13.1). -/
theorem raise_rp (s : State) {e : Ev} (h : e.cls = 1) : s.raise e = (s.logEntry e).markFault e := if_pos h

/-- Logging an event leaves a register outside the log alone. -/
theorem logEntry_reg (s : State) (e : Ev) {o : Nat} (h : logReg (regHome o) = false) : (s.logEntry e).reg o = s.reg o := by
  obtain ⟨-, hreg, -⟩ := onlyLog_logEntry (offs := []) s e
  exact hreg o h (List.not_mem_nil)

/-- A register is on the map when one of its rows holds it. -/
theorem regRow?_isSome {row : RegRow} {off : Nat} (hm : row ∈ regRows) (hh : row.hit (regHome off) = true) :
    (regRow? off).isSome = true := List.find?_isSome.mpr ⟨row, hm, hh⟩

/-! ### The value of a read -/

theorem readReg_closed {s : State} {off : Nat} (h : s.readOpen off = false) : s.readReg off = regReset off := by
  simp [State.readReg, h]

/-- A register whose value is not computed reads as it stands, a reserved offset as 0. -/
theorem readReg_stored {s : State} {off : Nat} (ho : s.readOpen off = true) (hc : off ∉ computedRegs) (hu : updStatusOf off = none) :
    s.readReg off = if (regRow? off).isSome then s.reg off else 0 := by
  simp only [computedRegs, List.mem_cons, List.not_mem_nil, or_false, not_or] at hc
  obtain ⟨h1, h2, h3, h4, h5⟩ := hc
  simp [State.readReg, ho, h1, h2, h3, h4, h5, hu]

theorem regRow?_computed {off : Nat} (h : off ∈ computedRegs) : (regRow? off).isSome = true := by
  have ha : (computedRegs.all fun off => (regRow? off).isSome) = true := by decide
  exact List.all_eq_true.mp ha off h

/-- Where UPD_STATUS lies in the blocks of the piles (Table 16.5). -/
theorem updStatusOf_some {off n : Nat} (h : updStatusOf off = some n) :
    0x2000000 ≤ off ∧ off < 0x2400000 ∧ (off - 0x2000000) % 0x40000 = 0x104 := by
  unfold updStatusOf at h
  split at h
  · assumption
  · cases h

/-- UPD_STATUS of every pile is on the map. -/
theorem regRow?_updStatus {off n : Nat} (h : updStatusOf off = some n) : (regRow? off).isSome = true := by
  have hr := updStatusOf_some h
  have hb : 0x2000104 ≤ off := by omega
  have hh : regHome off = off := by
    unfold regHome
    rw [if_neg]
    simp only [Bool.and_eq_true, decide_eq_true_eq]
    omega
  refine regRow?_isSome (row := { base := 0x2000104, n1 := 16, s1 := 0x40000 }) (by simp [regRows, regRowsPile]) ?_
  simp only [hh, RegRow.hit, if_neg (Nat.not_lt.mpr hb), Bool.and_eq_true, decide_eq_true_eq, Nat.reduceEqDiff, if_false, if_true]
  omega

/-- R617: a reserved offset reads 0. -/
theorem readReg_reserved {off : Nat} (s : State) (h : regRow? off = none) : s.readReg off = 0 := by
  have hc : off ∉ computedRegs := fun hm => by simpa [h] using regRow?_computed hm
  have hu : updStatusOf off = none := by
    cases hu : updStatusOf off with
    | none => rfl
    | some n => simpa [h] using regRow?_updStatus hu
  cases ho : s.readOpen off with
  | false => rw [readReg_closed ho, regReset, h]
  | true => rw [readReg_stored ho hc hu, h]; rfl

theorem readReg_errSummary (s : State) : s.readReg Reg.errSummary = s.errSummary := by
  have ho : s.readOpen Reg.errSummary = true := by
    simp [State.readOpen, readableEarly, State.blockPresent, Reg.errSummary]
  simp [State.readReg, ho]

/-! ### What a read does -/

/-- R21: a LO read takes the register's value and latches its HI half. -/
theorem readWord_lo (s : State) (r : Req) {off : Nat} (h : isLoRead off = true) :
    s.readWord r off = (s.readReg off, s.setLatch r (regHome off) (s.readReg (off + 4))) := if_pos h

/-- A register that is no half of a pair: a read takes its value and clears its RC bits (R17). -/
theorem readWord_plain (s : State) (r : Req) {off : Nat} (hl : isLoRead off = false) (hh : ¬(4 ≤ off ∧ isLoRead (off - 4) = true)) :
    ∃ t, s.readWord r off = (s.readReg off, t) ∧ t = { s with regs := t.regs } ∧ regsKeptBut [off] s t ∧
      ∀ row, regRow? off = some row → s.readOpen off = true → t.reg off = s.reg off &&& ~~~(BitVec.ofNat 32 row.rc) := by
  unfold State.readWord
  simp only [hl, Bool.false_eq_true, if_false, if_neg hh]
  cases hr : regRow? off with
  | none => exact ⟨s, rfl, rfl, fun _ _ => rfl, fun _ h => nomatch h⟩
  | some row =>
    simp only
    split
    · refine ⟨_, rfl, rfl, fun o ho => reg_setReg_ne _ _ (by simpa using ho), fun _ e _ => ?_⟩
      cases e
      exact reg_setReg _ _ _
    · rename_i hc
      refine ⟨s, rfl, rfl, fun _ _ => rfl, fun _ e ho => ?_⟩
      cases e
      have h0 : row.rc = 0 := by
        by_contra hn
        exact hc ⟨hn, ho⟩
      rw [h0]
      exact (BitVec.and_allOnes).symm

/-- The pairs of R620 do not overlap, and a pair keeps its halves side by side through every block that shows it (R370). -/
theorem isLoRead_add_four {off : Nat} (h : isLoRead off = true) :
    isLoRead (off + 4) = false ∧ regHome (off + 4) = regHome off + 4 := by
  simp only [isLoRead, isLoHome, List.contains_cons, List.contains_nil, Bool.or_false, Bool.or_eq_true, Bool.and_eq_true, beq_iff_eq,
    decide_eq_true_eq] at h
  have hh : regHome (off + 4) = regHome off + 4 := by
    unfold regHome at h ⊢
    simp only [Bool.and_eq_true, decide_eq_true_eq] at h ⊢
    split at h <;> split <;> omega
  refine ⟨?_, hh⟩
  rw [Bool.eq_false_iff]
  simp only [isLoRead, hh, isLoHome, List.contains_cons, List.contains_nil, Bool.or_false, Bool.or_eq_true, Bool.and_eq_true, beq_iff_eq,
    decide_eq_true_eq, ne_eq]
  omega

/-- R21, R22: a HI read returns the requester's latch, or the current value when no LO read has loaded it. -/
theorem readWord_hi (s : State) (r : Req) {off : Nat} (h : isLoRead off = true) :
    s.readWord r (off + 4) = ((s.latch r (regHome off)).getD (s.readReg (off + 4)), s) := by
  obtain ⟨hn, hh⟩ := isLoRead_add_four h
  unfold State.readWord
  simp only [hn, hh, Bool.false_eq_true, if_false, Nat.add_sub_cancel, h, and_true, Nat.le_add_left, if_true]

/-! ### The HI latches -/

theorem latch_congr {s t : State} (h : t.latches = s.latches) (r : Req) (lo : Nat) : t.latch r lo = s.latch r lo := by
  unfold State.latch; rw [h]

/-- The test by which a latch is found, for a latch of another requester or another pair. -/
theorem latch_test_false {q r : Req} {o lo : Nat} (h : ¬(q = r ∧ o = lo)) : (q == r && o == lo) = false := by
  rw [Bool.and_eq_false_iff, beq_eq_false_iff_ne, beq_eq_false_iff_ne]
  exact not_and_or.mp h

theorem latch_setLatch_self (s : State) (r : Req) (lo : Nat) (v : Word) : (s.setLatch r lo v).latch r lo = some v := by
  unfold State.latch State.setLatch
  rw [List.find?_append, List.find?_eq_none.mpr]
  · simp
  · intro l hl
    simpa [imp_iff_not_or] using (List.mem_filter.mp hl).2

theorem latch_setLatch_ne (s : State) {r q : Req} {lo o : Nat} (v : Word) (h : ¬(q = r ∧ o = lo)) :
    (s.setLatch r lo v).latch q o = s.latch q o := by
  have hnew : (r == q && lo == o) = false := latch_test_false fun ⟨hr, hl⟩ => h ⟨hr.symm, hl.symm⟩
  have hold : ∀ l : Latch, (!(l.req == r && l.lo == lo) && (l.req == q && l.lo == o)) = (l.req == q && l.lo == o) := by
    intro l
    by_cases hl : l.req = q ∧ l.lo = o
    · obtain ⟨rfl, rfl⟩ := hl
      rw [latch_test_false h, Bool.not_false, Bool.true_and]
    · rw [latch_test_false hl, Bool.and_false]
  unfold State.latch State.setLatch
  simp only [List.find?_append, List.find?_filter, ← Bool.and_eq_true, Bool.decide_eq_true, hold, List.find?_singleton, hnew,
    Bool.false_eq_true, if_false, Option.or_none]

/-! ### A read into a clock domain that has stopped (R23, R526) -/

/-- Logging the timeout leaves a register outside the log as XING_STATUS's update left it. -/
theorem crossTimeout_reg (s : State) (d : Nat) {o : Nat} (h : logReg (regHome o) = false) :
    (s.crossTimeout d).reg o = ((s.noteDomain d).setBit Reg.xingStatus 0 true).reg o := by
  unfold State.crossTimeout
  rw [raise_rp _ rfl, reg_congr (markFault_regs _ _), logEntry_reg _ _ h]

theorem noteDomain_reg (s : State) (d : Nat) {o : Nat} (h : regHome o ≠ regHome Reg.xingStatus) : (s.noteDomain d).reg o = s.reg o := by
  unfold State.noteDomain
  split
  · rfl
  · exact reg_setFld_ne _ _ _ _ h

theorem crossTimeout_timeout (s : State) (d : Nat) : (s.crossTimeout d).bit Reg.xingStatus 0 = true := by
  rw [bit_of_reg (crossTimeout_reg s d (by decide))]
  exact bit_setBit_self _ _ (by decide)

/-- The first event names its domain. -/
theorem crossTimeout_domain (s : State) {d : Nat} (hd : d < 256) (h0 : s.bit Reg.xingStatus 0 = false)
    (h1 : s.bit Reg.xingStatus 1 = false) : (s.crossTimeout d).fld Reg.xingStatus 15 8 = d := by
  have hn : s.noteDomain d = s.setFld Reg.xingStatus 15 8 d := by simp [State.noteDomain, h0, h1]
  rw [fld_of_reg (crossTimeout_reg s d (by decide)), hn]
  unfold State.setBit State.fld
  rw [reg_setFld, bits_withBits_ne _ _ (by decide) (by decide) (by decide) (by decide), reg_setFld,
    bits_withBits_self _ _ (by decide) (by decide)]
  exact Nat.mod_eq_of_lt hd

theorem crossTimeout_head (s : State) (d : Nat) : (s.crossTimeout d).reg Reg.errLogHead = s.reg Reg.errLogHead + 1 := by
  unfold State.crossTimeout
  rw [raise_rp _ rfl, reg_congr (markFault_regs _ _), logEntry_head, reg_setBit_ne _ _ _ (by decide), noteDomain_reg _ _ (by decide)]

theorem regDomain_lt (off : Nat) : regDomain off < 256 := by
  unfold regDomain regHub
  repeat' split
  all_goals omega

/-! ### The read commands -/

theorem exec_rcRead (r : Req) (off : Nat) (s : State) : exec (.rcRead r off) s = .next (applyRcRead r off s) := rfl

theorem exec_loRead (r : Req) (off : Nat) (two : Bool) (s : State) : exec (.loRead r off two) s = .next (applyLoRead r off two s) := rfl

theorem applyRcRead_running (r : Req) {off : Nat} {s : State} (h : s.power.stopped.contains (regDomain off) = false) :
    applyRcRead r off s = (s.readWord r off).2.emit (.regData r off (s.readWord r off).1) := by
  simp only [applyRcRead, h, Bool.false_eq_true, if_false]

theorem applyRcRead_stopped (r : Req) {off : Nat} {s : State} (h : s.power.stopped.contains (regDomain off) = true) :
    applyRcRead r off s = (s.crossTimeout (regDomain off)).emit (.regData r off 0xFFFFFFFF) := by
  simp only [applyRcRead, h, if_true]

/-- R21: a LO read answers its value, or both halves of one value, and loads the requester's latch. -/
theorem applyLoRead_running (r : Req) {off : Nat} (two : Bool) {s : State} (hl : isLoRead off = true)
    (h : s.power.stopped.contains (regDomain off) = false) :
    applyLoRead r off two s = (s.setLatch r (regHome off) (s.readReg (off + 4))).emit
      (if two then .regPair r off (s.readReg off) (s.readReg (off + 4)) else .regData r off (s.readReg off)) := by
  simp only [applyLoRead, h, readWord_lo s r hl, readWord_hi _ r hl, latch_setLatch_self, Bool.false_eq_true, if_false, Option.getD_some]
  cases two <;> rfl

theorem applyLoRead_stopped (r : Req) {off : Nat} (two : Bool) {s : State} (h : s.power.stopped.contains (regDomain off) = true) :
    applyLoRead r off two s = (s.crossTimeout (regDomain off)).emit
      (if two then .regPair r off 0xFFFFFFFF 0xFFFFFFFF else .regData r off 0xFFFFFFFF) := by
  simp only [applyLoRead, h, if_true]

/-- R22: a HI read answers the requester's latch, or the current value when nothing has loaded it, and changes nothing. -/
theorem exec_rcRead_hi (r : Req) {off : Nat} {s : State} (hl : isLoRead off = true)
    (h : s.power.stopped.contains (regDomain (off + 4)) = false) :
    exec (.rcRead r (off + 4)) s =
      .next (s.emit (.regData r (off + 4) ((s.latch r (regHome off)).getD (s.readReg (off + 4))))) := by
  rw [exec_rcRead, applyRcRead_running r h, readWord_hi s r hl]

/-! ### O9 -/

/-- A read of a register that is no half of a pair. -/
theorem rcRead_plain (r : Req) (off : Nat) (s : State) (hl : isLoRead off = false) (hh : ¬(4 ≤ off ∧ isLoRead (off - 4) = true))
    (hs : s.power.stopped.contains (regDomain off) = false) :
    ∃ t, exec (.rcRead r off) s = .next t ∧ t.out = s.out ++ [.regData r off (s.readReg off)] ∧
      t = { s with regs := t.regs, out := t.out } ∧ regsKeptBut [off] s t ∧
      ∀ row, regRow? off = some row → s.readOpen off = true → ∀ i, i < 32 →
        (t.reg off).getLsbD i = ((s.reg off).getLsbD i && !(row.rc.testBit i)) := by
  obtain ⟨t, hw, ht, hk, hrc⟩ := readWord_plain s r hl hh
  refine ⟨t.emit (.regData r off (s.readReg off)), by rw [exec_rcRead, applyRcRead_running r hs, hw], ?_, ?_, hk,
    fun row hr ho i hi => ?_⟩
  · rw [ht]; rfl
  · rw [ht]; rfl
  · rw [emit_reg, hrc row hr ho]
    simp only [BitVec.getLsbD_and, BitVec.getLsbD_not, BitVec.getLsbD_ofNat, hi, decide_true, Bool.true_and]

/-- What a request into a stopped domain leaves, whichever answer `x` it sends. -/
theorem crossTimeout_answer (s : State) (off : Nat) (x : Out) :
    x ∈ ((s.crossTimeout (regDomain off)).emit x).out ∧ ((s.crossTimeout (regDomain off)).emit x).bit Reg.xingStatus 0 = true ∧
      (s.bit Reg.xingStatus 0 = false → s.bit Reg.xingStatus 1 = false →
        ((s.crossTimeout (regDomain off)).emit x).fld Reg.xingStatus 15 8 = regDomain off) ∧
      ((s.crossTimeout (regDomain off)).emit x).reg Reg.errLogHead = s.reg Reg.errLogHead + 1 :=
  ⟨by simp, crossTimeout_timeout s _, crossTimeout_domain s (regDomain_lt off), crossTimeout_head s _⟩

/-- Settles O9: R17's plain reads, the latches of R21 and R22, and the timeout of R23, each from the rule of its read. -/
theorem readsReturnAndLatch : Obligations.ReadsReturnAndLatch := by
  unfold Obligations.ReadsReturnAndLatch
  refine ⟨fun r off s hl hh hs => ?_, fun r off s hl hs => ⟨?_, ?_, fun hn hs' => ?_⟩, fun r off s hs => ⟨?_, fun two => ?_⟩⟩
  · obtain ⟨t, he, hout, ht, hk, hrc⟩ := rcRead_plain r off s hl hh hs
    exact ⟨t, he, hout, ht, hk, readReg_reserved s, readReg_closed,
      fun ho hr hc hu => by rw [readReg_stored ho hc hu, if_pos hr], fun h => by rw [h, readReg_errSummary], hrc⟩
  · exact ⟨_, by rw [exec_loRead, applyLoRead_running r true hl hs], rfl, rfl⟩
  · refine ⟨(s.setLatch r (regHome off) (s.readReg (off + 4))).emit (.regData r off (s.readReg off)),
      by rw [exec_loRead, applyLoRead_running r false hl hs]; rfl, rfl, rfl,
      fun q o hq => latch_setLatch_ne s _ hq, fun u hu hs' => ?_⟩
    have hlatch : u.latch r (regHome off) = some (s.readReg (off + 4)) := by
      rw [latch_congr hu]
      exact latch_setLatch_self s r _ _
    rw [exec_rcRead_hi r hl hs', hlatch, Option.getD_some]
  · rw [exec_rcRead_hi r hl hs', hn, Option.getD_none]
  · exact ⟨_, by rw [exec_rcRead, applyRcRead_stopped r hs], crossTimeout_answer s off _⟩
  · obtain ⟨hm, hb, -, hd⟩ := crossTimeout_answer s off (if two then .regPair r off 0xFFFFFFFF 0xFFFFFFFF else .regData r off 0xFFFFFFFF)
    exact ⟨_, by rw [exec_loRead, applyLoRead_stopped r two hs], hm, hb, hd⟩

end Sys2Proof.Laws

/-! # Register writes: the rule of a plain write, the registers that do more, and O7. -/

namespace Sys2Proof.Laws

open Sys2Proof Sys2Proof.Machine

/-! ### Frames of register updates -/

theorem onlyRegs_trans {offs : List Nat} {s t u : State} (h : onlyRegs offs s t) (g : onlyRegs offs t u) : onlyRegs offs s u := by
  obtain ⟨ht, hk⟩ := h
  obtain ⟨gu, gk⟩ := g
  refine ⟨?_, fun o ho => (gk o ho).trans (hk o ho)⟩
  rw [gu, ht]

theorem onlyRegs_setReg {offs : List Nat} (s : State) {o : Nat} (v : Word) (h : o ∈ offs) : onlyRegs offs s (s.setReg o v) :=
  ⟨rfl, fun _ hp => reg_setReg_ne _ _ fun e => hp (e ▸ List.mem_map_of_mem h)⟩

theorem onlyRegs_setFld {offs : List Nat} (s : State) {o : Nat} (hi lo v : Nat) (h : o ∈ offs) :
    onlyRegs offs s (s.setFld o hi lo v) := onlyRegs_setReg s _ h

theorem onlyRegs_setBit {offs : List Nat} (s : State) {o : Nat} (i : Nat) (b : Bool) (h : o ∈ offs) :
    onlyRegs offs s (s.setBit o i b) := onlyRegs_setReg s _ h

/-- Writing the value that a register has changes nothing. -/
theorem onlyRegs_setReg_same (s : State) (o : Nat) : onlyRegs [] s (s.setReg o (s.reg o)) := by
  refine ⟨rfl, fun p _ => ?_⟩
  rw [reg_setReg_eq]
  split
  · rename_i hp
    unfold State.reg
    rw [hp]
  · rfl

/-! ### The value that a plain write leaves (Table 0.8) -/

theorem getLsbD_written (s : State) (row : RegRow) (old v : Word) {i : Nat} (hi : i < 32) :
    (s.written row old v).getLsbD i =
      if row.w1c.testBit i ∧ v.getLsbD i = true then false
      else if row.rw.testBit i ∨ (row.locked.testBit i ∧ s.locked row.lock = false) then v.getLsbD i
      else old.getLsbD i := by
  have hm : (row.rw ||| (if s.locked row.lock then 0 else row.locked)).testBit i =
      decide (row.rw.testBit i ∨ (row.locked.testBit i ∧ s.locked row.lock = false)) := by
    cases s.locked row.lock <;> simp
  simp only [State.written, BitVec.getLsbD_and, BitVec.getLsbD_or, BitVec.getLsbD_not, BitVec.getLsbD_ofNat, hi, decide_true,
    Bool.true_and, hm]
  split
  · rename_i h1
    simp [h1]
  · rename_i h1
    have hc : (v.getLsbD i && row.w1c.testBit i) = false := by
      rw [Bool.and_eq_false_iff, ← Bool.not_eq_true, ← Bool.not_eq_true]
      tauto
    rw [hc]
    split
    · rename_i h2
      simp [h2]
    · rename_i h2
      simp [h2]

/-- A register without a bit that a plain write can change keeps its value. -/
theorem written_inert (s : State) {row : RegRow} (old v : Word) (h : row.rw = 0 ∧ row.locked = 0 ∧ row.w1c = 0) :
    s.written row old v = old := by
  obtain ⟨hr, hl, hw⟩ := h
  refine BitVec.eq_of_getLsbD_eq fun i hi => ?_
  rw [getLsbD_written _ _ _ _ hi]
  simp [hr, hl, hw]

/-! ### REGISTER_WRITE -/

theorem exec_registerWrite (r : Req) {off : Nat} (v : Word) {s : State} {row : RegRow} (hr : regRow? off = some row)
    (hw : s.writeOpen off = true) :
    exec (.registerWrite r off v) s = .next ((s.setReg off (s.written row (s.reg off) v)).afterWrite r off (s.reg off) v) := by
  show Host.Outcome.next (applyRegisterWrite r off v s) = _
  simp only [applyRegisterWrite, hr, hw, if_true]

/-- Of the registers outside `sideEffectRegs`, only an MSI-X control word has something follow its write (log 40). -/
theorem afterWrite_other (s : State) (r : Req) {off : Nat} (old v : Word) (h : off ∉ sideEffectRegs) :
    s.afterWrite r off old v =
      (let p := (off - 0x210000) / 0x1000
       let e := (off - 0x210000) % 0x1000
       if 0x210000 ≤ off ∧ off < 0x212000 ∧ e < 0x800 ∧ e % 16 = 12 ∧ bits v 0 0 = 0 ∧
           s.bit (Reg.msixPba p (e / 16 / 32)) (e / 16 % 32) ∧ (s.hport (portOf p)).msixOn then
         (s.setBit (Reg.msixPba p (e / 16 / 32)) (e / 16 % 32) false).emit (.msix (portOf p) (e / 16))
       else s) := by
  simp only [sideEffectRegs, List.mem_cons, List.not_mem_nil, or_false, not_or] at h
  obtain ⟨h1, h2, h3, h4, h5, h6, h7, h8, h9, h10⟩ := h
  simp only [State.afterWrite, h1, h2, h3, h4, h5, h6, h7, h8, h9, h10, if_false]

theorem afterWrite_plain (s : State) (r : Req) {off : Nat} (old v : Word) (h : off ∉ sideEffectRegs)
    (hm : ¬(0x210000 ≤ off ∧ off < 0x212000 ∧ off % 16 = 12)) : s.afterWrite r off old v = s := by
  rw [afterWrite_other s r old v h]
  refine if_neg ?_
  rintro ⟨ha, hb, -, hd, -⟩
  exact hm ⟨ha, hb, by omega⟩

/-- The plain write of a register, bit by bit. -/
theorem registerWrite_plain (r : Req) {off : Nat} (v : Word) {s : State} {row : RegRow} (hr : regRow? off = some row)
    (hw : s.writeOpen off = true) (h : off ∉ sideEffectRegs) (hm : ¬(0x210000 ≤ off ∧ off < 0x212000 ∧ off % 16 = 12)) :
    ∃ t, exec (.registerWrite r off v) s = .next t ∧ onlyRegs [off] s t ∧
      ∀ i, i < 32 → (t.reg off).getLsbD i =
        if row.w1c.testBit i ∧ v.getLsbD i = true then false
        else if row.rw.testBit i ∨ (row.locked.testBit i ∧ s.locked row.lock = false) then v.getLsbD i
        else (s.reg off).getLsbD i := by
  refine ⟨_, by rw [exec_registerWrite r v hr hw, afterWrite_plain _ _ _ _ h hm], onlyRegs_setReg _ _ (List.mem_singleton_self _),
    fun i hi => ?_⟩
  rw [reg_setReg, getLsbD_written _ _ _ _ hi]

/-! ### Single bits -/

theorem bits_eq_one_iff (w : Word) (i : Nat) : bits w i i = 1 ↔ w.getLsbD i = true := by
  have hb : bits w i i < 2 := by
    simpa [bits] using Nat.mod_lt (w.toNat >>> i) (show 0 < 2 by decide)
  have ht : (bits w i i).testBit 0 = w.getLsbD i := by
    rw [testBit_bits]
    simp
  rw [← ht, Nat.testBit_zero, decide_eq_true_eq]
  omega

/-- A bit of a register is the bit of its word. -/
theorem bit_eq_getLsbD (s : State) (o i : Nat) : s.bit o i = (s.reg o).getLsbD i := by
  rw [Bool.eq_iff_iff, ← bits_eq_one_iff]
  exact decide_eq_true_iff

/-! ### Logging and MSI-X: what they leave alone -/

theorem logEntry_esz (s : State) (e : Ev) : (s.logEntry e).esz = s.esz := by
  obtain ⟨hframe, -⟩ := onlyLog_logEntry (offs := []) s e
  rw [hframe]

/-- An MSI-X message or its pending bit leaves every register but the pending bits alone (R498). -/
theorem msix_reg (s : State) (p : HPort) {v o : Nat} (hv : v < 128)
    (h : ∀ p w, p < 2 → w < 4 → regHome o ≠ regHome (Reg.msixPba p w)) : (s.msix p v).reg o = s.reg o := by
  unfold State.msix
  dsimp only
  split
  · rfl
  · exact reg_setBit_ne _ _ _ (h _ _ (portIdx_lt p) (by omega))

theorem msixBoth_reg (s : State) {v o : Nat} (hv : v < 128)
    (h : ∀ p w, p < 2 → w < 4 → regHome o ≠ regHome (Reg.msixPba p w)) : (s.msixBoth v).reg o = s.reg o :=
  (msix_reg _ _ hv h).trans (msix_reg _ _ hv h)

theorem onlyLog_msixBoth {offs : List Nat} (s : State) {v : Nat} (h : v < 128) : onlyLog offs s (s.msixBoth v) :=
  onlyLog_trans (onlyLog_msix s .a h) (onlyLog_msix _ .b h)

/-- The pending bits lie apart from the error log and all that follows it. -/
theorem msixPba_ne_log {o p w : Nat} (ho : 0x3C00000 ≤ o) (hp : p < 2) (hw : w < 4) : regHome o ≠ regHome (Reg.msixPba p w) := by
  have hlt : Reg.msixPba p w < 0x212000 := by unfold Reg.msixPba; omega
  rw [regHome_id (.inr (by omega)), regHome_id (.inl (by omega))]
  omega

/-! ### FERR_CODE (R552) -/

theorem regRow?_ferrCode : regRow? Reg.ferrCode = some { base := 0x3C00040, w1c := 0xC0000000 } := by rfl

theorem afterWrite_ferrCode (s : State) (r : Req) (old v : Word) : s.afterWrite r Reg.ferrCode old v =
    if bits old 31 31 = 1 ∧ bits v 31 31 = 1 then s.setBit Reg.ferrCode 29 false else s := rfl

theorem registerWrite_ferrCode (r : Req) {v : Word} {s : State} (hw : s.writeOpen Reg.ferrCode = true)
    (hs : s.bit Reg.ferrCode 31 = true) (hv : v.getLsbD 31 = true) :
    ∃ t, exec (.registerWrite r Reg.ferrCode v) s = .next t ∧ onlyRegs [Reg.ferrCode] s t ∧
      t.bit Reg.ferrCode 31 = false ∧ t.bit Reg.ferrCode 29 = false := by
  have hc : bits (s.reg Reg.ferrCode) 31 31 = 1 ∧ bits v 31 31 = 1 :=
    ⟨(bits_eq_one_iff _ _).mpr ((bit_eq_getLsbD s _ _).symm.trans hs), (bits_eq_one_iff _ _).mpr hv⟩
  refine ⟨_, by rw [exec_registerWrite r v regRow?_ferrCode hw, afterWrite_ferrCode, if_pos hc],
    onlyRegs_trans (onlyRegs_setReg _ _ (List.mem_singleton_self _)) (onlyRegs_setBit _ _ _ (List.mem_singleton_self _)),
    ?_, bit_setBit_self _ _ (by decide)⟩
  rw [bit_setBit_ne _ _ (by decide) (by decide) (by decide), bit_eq_getLsbD, reg_setReg, getLsbD_written _ _ _ _ (by decide),
    if_pos ⟨by decide, hv⟩]

/-! ### PWR_CAP_MGMT (Table 12.14, log 114) -/

theorem regRow?_pwrCapMgmt : regRow? Reg.pwrCapMgmt = some { base := 0x3E00008, reset := 0x7D0 } := by rfl

theorem afterWrite_pwrCapMgmt (s : State) (r : Req) (old v : Word) : s.afterWrite r Reg.pwrCapMgmt old v =
    if r = .eszoja then s.setFld Reg.pwrCapMgmt 11 0 (clampCap (bits v 11 0)) else s := rfl

theorem clampCap_lt (w : Nat) : clampCap w < 2 ^ (11 - 0 + 1) := by
  unfold clampCap
  omega

theorem registerWrite_pwrCapMgmt (r : Req) (v : Word) {s : State} (hw : s.writeOpen Reg.pwrCapMgmt = true) :
    ∃ t, exec (.registerWrite r Reg.pwrCapMgmt v) s = .next t ∧ onlyRegs [Reg.pwrCapMgmt] s t ∧
      t.fld Reg.pwrCapMgmt 11 0 = if r = .eszoja then max 600 (min 2000 (bits v 11 0)) else s.fld Reg.pwrCapMgmt 11 0 := by
  have hset := onlyRegs_setReg s (s.reg Reg.pwrCapMgmt) (List.mem_singleton_self Reg.pwrCapMgmt)
  refine ⟨_, by rw [exec_registerWrite r v regRow?_pwrCapMgmt hw, afterWrite_pwrCapMgmt, written_inert _ _ _ ⟨rfl, rfl, rfl⟩], ?_⟩
  by_cases hr : r = .eszoja
  · rw [if_pos hr, if_pos hr]
    refine ⟨onlyRegs_trans hset (onlyRegs_setFld _ _ _ _ (List.mem_singleton_self _)), ?_⟩
    rw [fld_setFld_self _ _ (by decide) (by decide)]
    exact Nat.mod_eq_of_lt (clampCap_lt _)
  · rw [if_neg hr, if_neg hr]
    exact ⟨hset, fld_of_reg (reg_setReg _ _ _) _ _⟩

/-! ### BAR2_BASE (R459, log 114) -/

/-- BAR2_BASE of a port. -/
def bar2Reg : HPort → Nat
  | .a => Reg.bar2BaseA
  | .b => Reg.bar2BaseB

theorem regRow?_bar2Reg (p : HPort) : regRow? (bar2Reg p) = some { base := bar2Reg p, rw := 0xFFFFF } := by
  cases p <;> rfl

theorem bar2Base_eq (s : State) (p : HPort) :
    s.bar2Base p = s.fld (bar2Reg p) 19 0 * 2 ^ 28 / 2 ^ s.bar2Log2 p * 2 ^ s.bar2Log2 p := by
  cases p <;> rfl

theorem bar2Log2_setReg (s : State) (o : Nat) (v : Word) (p : HPort) : (s.setReg o v).bar2Log2 p = s.bar2Log2 p := by
  cases p <;> rfl

theorem bar2Log2_setFld (s : State) (o hi lo v : Nat) (p : HPort) : (s.setFld o hi lo v).bar2Log2 p = s.bar2Log2 p :=
  bar2Log2_setReg s _ _ p

theorem afterWrite_bar2Reg (s : State) (r : Req) (p : HPort) (old v : Word) :
    s.afterWrite r (bar2Reg p) old v = s.setFld (bar2Reg p) 19 0 (s.bar2Base p / 2 ^ 28) := by
  cases p <;> rfl

/-- Both ports' registers lie in one block and one clock domain. -/
theorem writeOpen_bar2Reg (s : State) (p : HPort) : s.writeOpen (bar2Reg p) = s.writeOpen Reg.bar2BaseA := by
  cases p with
  | a => rfl
  | b => simp [State.writeOpen, writableEarly, State.blockPresent, regDomain, regHub, bar2Reg, Reg.bar2BaseA, Reg.bar2BaseB]

/-- The RW field of BAR2_BASE takes the value. -/
theorem bits_written_bar2Reg (s : State) (p : HPort) (old v : Word) :
    bits (s.written { base := bar2Reg p, rw := 0xFFFFF } old v) 19 0 = bits v 19 0 := by
  refine Nat.eq_of_testBit_eq fun i => ?_
  rw [testBit_bits, testBit_bits]
  by_cases hi : i < 20
  · have hrw : Nat.testBit 0xFFFFF (0 + i) = true := by
      rw [Nat.zero_add, show 0xFFFFF = 2 ^ 20 - 1 from rfl, Nat.testBit_two_pow_sub_one]
      exact decide_eq_true hi
    rw [getLsbD_written _ _ _ _ (by omega), if_neg (by simp), if_pos (.inl hrw)]
  · simp [show ¬i < 19 - 0 + 1 by omega]

/-- A multiple of the BAR's size is kept whole in units of 256 MiB. -/
theorem roundDown_stored {a k : Nat} (hk : 28 ≤ k) (ha : a < 2 ^ 20) :
    a * 2 ^ 28 / 2 ^ k * 2 ^ k / 2 ^ 28 % 2 ^ 20 * 2 ^ 28 / 2 ^ k * 2 ^ k = a * 2 ^ 28 / 2 ^ k * 2 ^ k := by
  have hdvd : 2 ^ 28 ∣ a * 2 ^ 28 / 2 ^ k * 2 ^ k := Nat.dvd_mul_left_of_dvd (Nat.pow_dvd_pow 2 hk) _
  have hle : a * 2 ^ 28 / 2 ^ k * 2 ^ k ≤ a * 2 ^ 28 := Nat.div_mul_le_self _ _
  have hlt : a * 2 ^ 28 / 2 ^ k * 2 ^ k / 2 ^ 28 < 2 ^ 20 := by omega
  rw [Nat.mod_eq_of_lt hlt, Nat.div_mul_cancel hdvd, Nat.mul_div_cancel _ (Nat.two_pow_pos k)]

theorem registerWrite_bar2Reg (r : Req) (p : HPort) (v : Word) {s : State} (hw : s.writeOpen Reg.bar2BaseA = true) :
    ∃ t, exec (.registerWrite r (bar2Reg p) v) s = .next t ∧ onlyRegs [Reg.bar2BaseA, Reg.bar2BaseB] s t ∧
      t.bar2Base p = bits v 19 0 * 2 ^ 28 / 2 ^ s.bar2Log2 p * 2 ^ s.bar2Log2 p := by
  have hm : bar2Reg p ∈ [Reg.bar2BaseA, Reg.bar2BaseB] := by cases p <;> simp [bar2Reg]
  have hk : 28 ≤ s.bar2Log2 p := Nat.le_max_left _ _
  refine ⟨_, by rw [exec_registerWrite r v (regRow?_bar2Reg p) (by rw [writeOpen_bar2Reg, hw]), afterWrite_bar2Reg],
    onlyRegs_trans (onlyRegs_setReg _ _ hm) (onlyRegs_setFld _ _ _ _ hm), ?_⟩
  rw [bar2Base_eq, fld_setFld_self _ _ (by decide) (by decide), bar2Base_eq, State.fld, reg_setReg, bits_written_bar2Reg,
    bar2Log2_setFld, bar2Log2_setReg]
  exact roundDown_stored hk (Nat.mod_lt _ (by decide))

/-! ### ESZ_CMD (Table 14.15) -/

theorem regRow?_eszCmd : regRow? Reg.eszCmd = some { base := 0x3F00008 } := by rfl

theorem afterWrite_eszCmd (s : State) (r : Req) (old v : Word) : s.afterWrite r Reg.eszCmd old v = s.afterEszCmdWrite v := rfl

/-- A command code that is not listed, in firmware that takes commands. -/
theorem afterEszCmdWrite_unknown {s : State} {v : Word} (hc : bits v 7 0 = 0 ∨ 4 < bits v 7 0) (hp : s.power.powerOk = true)
    (hf : s.esz.fw.isSome = true) (hb : s.esz.busy = none) :
    s.afterEszCmdWrite v = ((({ s with esz := { s.esz with busy := some (bits v 7 0, 0xB021) } }).setBit Reg.eszStatus 4 true).setBit
      Reg.eszResult 24 false).logEntry { code := 0xB021, cls := 7, unit := { typ := 17, idx := 0, sub := 0 } } := by
  have hn : ¬((1 ≤ bits v 7 0 ∧ bits v 7 0 ≤ 4) ∨ (!s.power.powerOk) = true ∨ s.esz.fw.isNone = true ∨ s.esz.busy.isSome = true) := by
    rw [hp, hb, Option.isNone_eq_false_iff.mpr hf]
    simp
    omega
  exact if_neg hn

theorem registerWrite_eszCmd (r : Req) {v : Word} {s : State} (hw : s.writeOpen Reg.eszCmd = true)
    (hc : bits v 7 0 = 0 ∨ 4 < bits v 7 0) (hp : s.power.powerOk = true) (hf : s.esz.fw.isSome = true) (hb : s.esz.busy = none) :
    ∃ t, exec (.registerWrite r Reg.eszCmd v) s = .next t ∧ t.esz = { s.esz with busy := some (bits v 7 0, 0xB021) } ∧
      t.bit Reg.eszStatus 4 = true ∧ t.reg Reg.errLogHead = s.reg Reg.errLogHead + 1 := by
  refine ⟨_, by rw [exec_registerWrite r v regRow?_eszCmd hw, afterWrite_eszCmd, afterEszCmdWrite_unknown hc (by exact hp)
    (by exact hf) (by exact hb)], logEntry_esz _ _, ?_, ?_⟩
  · rw [bit_of_reg (logEntry_reg _ _ (by decide)), bit_of_reg (reg_setBit_ne _ _ _ (by decide))]
    exact bit_setBit_self _ _ (by decide)
  · rw [logEntry_head, reg_setBit_ne _ _ _ (by decide), reg_setBit_ne _ _ _ (by decide)]
    exact congrArg (· + 1) (reg_setReg_ne s _ (by decide))

/-! ### The MSI-X control words (R498, log 40) -/

/-- Every control word of the MSI-X tables is on the map (R497). -/
theorem regRow?_msixControl {p n : Nat} (hp : p < 2) (hn : n < 128) : (regRow? (Reg.msix p n 3)).isSome = true := by
  have hb : 0x21000C ≤ Reg.msix p n 3 := by unfold Reg.msix; omega
  have hh : regHome (Reg.msix p n 3) = Reg.msix p n 3 := regHome_id (.inl (by unfold Reg.msix; omega))
  refine regRow?_isSome (row := { base := 0x21000C, n1 := 2, s1 := 0x1000, n2 := 128, s2 := 0x10, reset := 1, rw := 1 })
    (by simp [regRows, regRowsHost]) ?_
  simp only [hh, RegRow.hit, if_neg (Nat.not_lt.mpr hb), Bool.and_eq_true, decide_eq_true_eq, Nat.reduceEqDiff, if_false]
  unfold Reg.msix
  omega

theorem msixControl_notin_sideEffectRegs {p n : Nat} (hp : p < 2) (hn : n < 128) : Reg.msix p n 3 ∉ sideEffectRegs := by
  have hr : 0x210000 ≤ Reg.msix p n 3 ∧ Reg.msix p n 3 < 0x212000 := by unfold Reg.msix; omega
  have ha : ∀ o ∈ sideEffectRegs, ¬(0x210000 ≤ o ∧ o < 0x212000) := by decide
  exact fun h => ha _ h hr

/-- Unmasking an entry whose pending bit is set sends its message. -/
theorem afterWrite_msixControl {s : State} (r : Req) {p n : Nat} (old : Word) (hp : p < 2) (hn : n < 128)
    (hb : s.bit (Reg.msixPba p (n / 32)) (n % 32) = true) (hm : (s.hport (portOf p)).msixOn = true) :
    s.afterWrite r (Reg.msix p n 3) old 0 =
      (s.setBit (Reg.msixPba p (n / 32)) (n % 32) false).emit (.msix (portOf p) n) := by
  have hr : 0x210000 ≤ Reg.msix p n 3 ∧ Reg.msix p n 3 < 0x212000 := by unfold Reg.msix; omega
  have hport : (Reg.msix p n 3 - 0x210000) / 0x1000 = p := by unfold Reg.msix; omega
  have hentry : (Reg.msix p n 3 - 0x210000) % 0x1000 = 16 * n + 12 := by unfold Reg.msix; omega
  have hvec : (16 * n + 12) / 16 = n := by omega
  rw [afterWrite_other s r old 0 (msixControl_notin_sideEffectRegs hp hn)]
  simp only [hport, hentry, hvec]
  exact if_pos ⟨hr.1, hr.2, by omega, by omega, rfl, hb, hm⟩

theorem registerWrite_msixControl (r : Req) {p n : Nat} {s : State} (hp : p < 2) (hn : n < 128)
    (hw : s.writeOpen (Reg.msix p n 3) = true) (hb : s.bit (Reg.msixPba p (n / 32)) (n % 32) = true)
    (hm : (s.hport (portOf p)).msixOn = true) :
    ∃ t, exec (.registerWrite r (Reg.msix p n 3) 0) s = .next t ∧ t.out = s.out ++ [.msix (portOf p) n] ∧
      t.bit (Reg.msixPba p (n / 32)) (n % 32) = false := by
  obtain ⟨row, hr⟩ := Option.isSome_iff_exists.mp (regRow?_msixControl hp hn)
  have hne : regHome (Reg.msixPba p (n / 32)) ≠ regHome (Reg.msix p n 3) := by
    rw [regHome_id (.inl (by unfold Reg.msixPba; omega)), regHome_id (.inl (by unfold Reg.msix; omega))]
    unfold Reg.msixPba Reg.msix
    omega
  have hb' : (s.setReg (Reg.msix p n 3) (s.written row (s.reg (Reg.msix p n 3)) 0)).bit (Reg.msixPba p (n / 32)) (n % 32) = true := by
    rw [bit_of_reg (reg_setReg_ne _ _ hne), hb]
  refine ⟨_, by rw [exec_registerWrite r 0 hr hw, afterWrite_msixControl r _ hp hn hb' hm], rfl, ?_⟩
  rw [emit_bit]
  exact bit_setBit_self _ _ (Nat.mod_lt _ (by decide))

/-! ### FING_CTL (Table 2.20) -/

theorem regRow?_fingCtl : regRow? Reg.fingCtl = some { base := 0x100028 } := by rfl

theorem afterWrite_fingCtl (s : State) (r : Req) (old v : Word) : s.afterWrite r Reg.fingCtl old v = s.afterFingWrite v := rfl

theorem registerWrite_fingCtl (r : Req) (v : Word) {s : State} (hw : s.writeOpen Reg.fingCtl = true) :
    exec (.registerWrite r Reg.fingCtl v) s = .next ((s.setReg Reg.fingCtl (s.reg Reg.fingCtl)).afterFingWrite v) := by
  rw [exec_registerWrite r v regRow?_fingCtl hw, afterWrite_fingCtl, written_inert _ _ _ ⟨rfl, rfl, rfl⟩]

/-- An operation that is not listed is ignored while no operation runs. -/
theorem registerWrite_fingCtl_ignored (r : Req) (v : Word) {s : State} (hw : s.writeOpen Reg.fingCtl = true)
    (hb : s.bit Reg.fingStatus 8 = false) : ∃ t, exec (.registerWrite r Reg.fingCtl v) s = .next t ∧ onlyRegs [] s t := by
  have hb' : (s.setReg Reg.fingCtl (s.reg Reg.fingCtl)).bit Reg.fingStatus 8 = false := by
    rw [bit_of_reg (reg_setReg_ne _ _ (by decide)), hb]
  exact ⟨_, by rw [registerWrite_fingCtl r v hw, State.afterFingWrite, if_pos (.inr hb')], onlyRegs_setReg_same s _⟩

/-- An operation that is not listed is refused while BUSY. -/
theorem registerWrite_fingCtl_refused (r : Req) {v : Word} {s : State} (hw : s.writeOpen Reg.fingCtl = true)
    (hc : bits v 2 0 = 0 ∨ 4 < bits v 2 0) (hb : s.bit Reg.fingStatus 8 = true) :
    ∃ t, exec (.registerWrite r Reg.fingCtl v) s = .next t ∧ t.fld Reg.fingStatus 31 16 = 0x2012 ∧
      t.slotA = s.slotA ∧ t.slotB = s.slotB ∧ t.reg Reg.errLogHead = s.reg Reg.errLogHead + 1 ∧
      t.reg (Reg.errLog ((s.reg Reg.errLogHead).toNat % 256) 0) = BitVec.ofNat 32 (0x2012 + 65536 * 7) := by
  have hb' : (s.setReg Reg.fingCtl (s.reg Reg.fingCtl)).bit Reg.fingStatus 8 = true := by
    rw [bit_of_reg (reg_setReg_ne _ _ (by decide)), hb]
  have hn : ¬((1 ≤ bits v 2 0 ∧ bits v 2 0 ≤ 4) ∨ (s.setReg Reg.fingCtl (s.reg Reg.fingCtl)).bit Reg.fingStatus 8 = false) := by
    rw [hb']
    simp
    omega
  refine ⟨_, by rw [registerWrite_fingCtl r v hw, State.afterFingWrite, if_neg hn], ?_⟩
  generalize hu : (s.setReg Reg.fingCtl (s.reg Reg.fingCtl)).setFld Reg.fingStatus 31 16 0x2012 = u
  have hhead : u.reg Reg.errLogHead = s.reg Reg.errLogHead := by
    rw [← hu, reg_setFld_ne _ _ _ _ (by decide), reg_setReg_ne _ _ (by decide)]
  obtain ⟨hframe, hreg, -⟩ := onlyLog_trans (offs := []) (onlyLog_logEntry u
    { code := 0x2012, cls := 7, unit := { typ := 16, idx := bits v 3 3, sub := 0 } }) (onlyLog_msixBoth _ (v := 2) (by decide))
  refine ⟨?_, ?_, ?_, ?_, ?_⟩
  · rw [fld_of_reg (hreg _ (by decide) (List.not_mem_nil)), ← hu]
    exact fld_setFld_self _ _ (by decide) (by decide)
  · rw [hframe, ← hu]; rfl
  · rw [hframe, ← hu]; rfl
  · rw [msixBoth_reg _ (by decide) fun p w hp hw => msixPba_ne_log (by decide) hp hw, logEntry_head, hhead]
  · have hi : (s.reg Reg.errLogHead).toNat % 256 < 256 := Nat.mod_lt _ (by decide)
    rw [msixBoth_reg _ (by decide) fun p w hp hw => msixPba_ne_log (by unfold Reg.errLog; omega) hp hw,
      logEntry_ring _ _ hi (by decide), hhead, if_pos rfl, if_pos rfl]
    rfl

/-! ### O7 -/

/-- Settles O7: Table 0.8's rule for the plain registers, and the rule of each register whose write does more. -/
theorem registerWriteFollowsAccessTypes : Obligations.RegisterWriteFollowsAccessTypes := by
  unfold Obligations.RegisterWriteFollowsAccessTypes
  refine ⟨fun r off v s row hr hw h hm => registerWrite_plain r v hr hw h hm,
    fun r v s hw hs hv => registerWrite_ferrCode r hw hs hv,
    fun r v s hw => registerWrite_pwrCapMgmt r v hw,
    fun r p v s hw => ?_,
    fun r v s hw hc hp hf hb => registerWrite_eszCmd r hw hc hp hf hb,
    fun r p n s hp hn hw hb hm => registerWrite_msixControl r hp hn hw hb hm,
    fun r v s hw hc => ⟨registerWrite_fingCtl_ignored r v hw, registerWrite_fingCtl_refused r hw hc⟩⟩
  have h := registerWrite_bar2Reg r p v hw
  cases p <;> exact h

end Sys2Proof.Laws

/-! # Refresh, scrub and the remote caches: a state in which a failed pile does not read as lost, and O46. -/

namespace Sys2Proof.Laws

open Sys2Proof Sys2Proof.Machine

/-- Pile 0 is active while a fence waits for a copy engine number that the part does not have, and whose CE_STATUS offset
0x200100 + 4 * 0x77FFC0 is that of PILE_STATE of pile 0. -/
def strayFenceState : State :=
  { State.reset with
    regs := [(Reg.pileState 0, 2)]
    test := { TestSt.reset with fences := [{ typ := 9, idx := 0x77FFC0, sub := 0 }] } }

theorem exec_patrolScrub (pile cw : Nat) (errs : List (Nat × Nat × Nat)) (ok : Bool) (s : State) :
    exec (.patrolScrub pile cw errs ok) s = .next (applyPatrolScrub pile cw errs ok s) := rfl

theorem strayFenceState_refreshes : strayFenceState.fld (Reg.pileState 0) 2 0 = 2 ∧ strayFenceState.test.testCtl.getLsbD 3 = true := by
  decide +kernel

/-- The loss of the pile ends the run, at whose end the waiting fence is made: it writes 3 into bits [1:0] of the 5 that
PILE_STATE has just been given. -/
theorem strayFenceState_pileState :
    (applyPatrolScrub 0 0 [] false strayFenceState).fld (Reg.pileState 0) 2 0 = 7 := by
  decide +kernel

/-! ### O46 -/

/-- Refutes O46: the loss of a pile ends the run and makes the fences that wait, and the model's state may hold a fence of a copy
engine beyond the 24 of the part, whose status register is then any register from 0x200100 on. In `strayFenceState` it is the
PILE_STATE of the pile that has failed, which reads 7 and not 5 (LOST). -/
theorem not_pilesRefreshScrubAndCache : ¬ Obligations.PilesRefreshScrubAndCache := by
  unfold Obligations.PilesRefreshScrubAndCache
  rintro ⟨-, hscrub, -⟩
  obtain ⟨hactive, henabled⟩ := strayFenceState_refreshes
  obtain ⟨-, -, -, -, v, hv, -, hlost⟩ := hscrub 0 0 [] strayFenceState (by decide) (by decide) (.inl hactive) henabled
  rw [exec_patrolScrub] at hv
  rw [← Host.Outcome.next.inj hv, strayFenceState_pileState] at hlost
  exact absurd hlost (by decide)

end Sys2Proof.Laws

/-! # Control bits, the host's power cap, TEST_CTL and the address pairs, and O10. -/

namespace Sys2Proof.Laws

open Sys2Proof Sys2Proof.Machine

/-! ### LO/HI pairs -/

/-- The halves of a pair are two registers. -/
theorem regHome_ne_add_four (o : Nat) : regHome o ≠ regHome (o + 4) := by
  unfold regHome
  simp only [Bool.and_eq_true, decide_eq_true_eq]
  split <;> split <;> omega

/-- A pair keeps its value modulo 2^64. -/
theorem pair_setPair (s : State) (lo v : Nat) : (s.setPair lo v).pair lo = v % 2 ^ 64 := by
  unfold State.pair State.setPair
  rw [reg_setReg_ne _ _ (regHome_ne_add_four lo), reg_setReg, reg_setReg, BitVec.toNat_ofNat, BitVec.toNat_ofNat]
  omega

theorem onlyRegs_setPair {offs : List Nat} (s : State) {lo : Nat} (v : Nat) (hlo : lo ∈ offs) (hhi : lo + 4 ∈ offs) :
    onlyRegs offs s (s.setPair lo v) :=
  onlyRegs_trans (onlyRegs_setReg s _ hlo) (onlyRegs_setReg _ _ hhi)

/-! ### MARGIN_RST, CHUNK_RST, CACHE_CLR, INV_ALL and RDC_EN -/

theorem exec_marginRst {s : State} (hw : s.writeOpen Reg.beatCtl = true) :
    exec .marginRst s = .next (s.setReg Reg.beatMarginMin 0x7FFFFFFF) := congrArg Host.Outcome.next (if_pos hw)

theorem exec_chunkRst {s : State} {n : Nat} (hn : n < 16) (hw : s.writeOpen (Reg.updCtl n) = true) :
    exec (.chunkRst n) s = .next (s.setPair (Reg.updChunksLo n) 0) := by
  have h : (decide (n < 16) && s.writeOpen (Reg.updCtl n)) = true := by simp [hn, hw]
  exact congrArg Host.Outcome.next (if_pos h)

theorem updChunksHi_eq (n : Nat) : Reg.updChunksHi n = Reg.updChunksLo n + 4 := by
  unfold Reg.updChunksHi Reg.updChunksLo
  omega

theorem exec_cacheClr {s : State} (hw : s.writeOpen Reg.forgCtl = true) (hr : s.running = false) :
    exec .cacheClr s = .next { s with forager := { s.forager with cache := [] } } := by
  have h : (s.writeOpen Reg.forgCtl && !s.running) = true := by simp [hw, hr]
  exact congrArg Host.Outcome.next (if_pos h)

theorem exec_invAll {s : State} {hub : Nat} (hw : s.writeOpen (Reg.rdcCtl hub) = true) :
    exec (.invAll hub) s = .next { s with tier := { s.tier with rdc := s.tier.rdc.filter fun x => !(dieHub x.die == hub) } } :=
  congrArg Host.Outcome.next (if_pos hw)

/-- RUN is a bit of BEAT_CTL: a write of another register leaves it. -/
theorem running_setReg (s : State) {o : Nat} (v : Word) (h : regHome Reg.beatCtl ≠ regHome o) : (s.setReg o v).running = s.running :=
  bit_of_reg (reg_setReg_ne s v h) _

theorem exec_rdcEn {s : State} {hub : Nat} {en : Bool} (hh : hub < 2) (hw : s.writeOpen (Reg.rdcCtl hub) = true) (hr : s.hasRdc = true) :
    exec (.rdcEn hub en) s =
      .next (if s.running then s.setBit (Reg.rdcCtl hub) 0 en else (s.setBit (Reg.rdcCtl hub) 0 en).applyRdcEn) := by
  have h : (decide (hub < 2) && s.writeOpen (Reg.rdcCtl hub) && s.hasRdc) = true := by simp [hh, hw, hr]
  have hrun : (s.setBit (Reg.rdcCtl hub) 0 en).running = s.running := running_setReg s _ <| by
    rw [regHome_id (.inl (by decide)), regHome_id (.inl (by unfold Reg.rdcCtl; omega))]
    unfold Reg.beatCtl Reg.rdcCtl
    omega
  rw [← hrun]
  exact congrArg Host.Outcome.next (if_pos h)

/-- The lines that stay when the EN bits come into effect (R66). -/
theorem mem_applyRdcEn_rdc (s : State) (x : RdcLine) :
    x ∈ s.applyRdcEn.tier.rdc ↔ x ∈ s.tier.rdc ∧ dieHub x.die < 2 ∧ s.bit (Reg.rdcCtl (dieHub x.die)) 0 = true := by
  simp [State.applyRdcEn]

theorem rdcEn_acts {s : State} {hub : Nat} (en : Bool) (hh : hub < 2) (hw : s.writeOpen (Reg.rdcCtl hub) = true) (hr : s.hasRdc = true) :
    ∃ t, exec (.rdcEn hub en) s = .next t ∧ t.bit (Reg.rdcCtl hub) 0 = en ∧ regsKeptBut [Reg.rdcCtl hub] s t ∧
      t = { s with tier := t.tier, regs := t.regs } ∧
      (s.running = true → t.tier = s.tier) ∧
      (s.running = false → ∀ x, x ∈ t.tier.rdc ↔ x ∈ s.tier.rdc ∧ dieHub x.die < 2 ∧ t.bit (Reg.rdcCtl (dieHub x.die)) 0 = true) := by
  obtain ⟨-, hkept⟩ := onlyRegs_setBit s (o := Reg.rdcCtl hub) 0 en (List.mem_singleton_self _)
  have hbit := bit_setBit_self s (o := Reg.rdcCtl hub) (i := 0) en (by decide)
  refine ⟨_, exec_rdcEn hh hw hr, ?_⟩
  cases hrun : s.running with
  | true => exact ⟨hbit, hkept, rfl, fun _ => rfl, fun h => nomatch h⟩
  | false => exact ⟨hbit, hkept, rfl, fun h => (nomatch h), fun _ x => mem_applyRdcEn_rdc _ x⟩

/-! ### PWR_CAP_HOST (R508, Table 12.14) -/

theorem exec_pwrCapWrite (r : Req) (v : Word) (s : State) :
    exec (.pwrCapWrite r v) s = .next (s.setFld Reg.pwrCapHost 11 0 (clampCap (bits v 11 0))) := rfl

theorem pwrCapWrite_fld (v : Word) (s : State) :
    (s.setFld Reg.pwrCapHost 11 0 (clampCap (bits v 11 0))).fld Reg.pwrCapHost 11 0 = max 600 (min 2000 (bits v 11 0)) := by
  rw [fld_setFld_self _ _ (by decide) (by decide)]
  exact Nat.mod_eq_of_lt (clampCap_lt _)

/-! ### TEST_CTL (R561) -/

/-- A word whose field [hi:lo] of 0 has become 1. -/
def atLeastOne (w : Word) (hi lo : Nat) : Word := if bits w hi lo = 0 then withBits w hi lo 1 else w

theorem bits_atLeastOne_self (w : Word) {hi lo : Nat} (h : lo ≤ hi) (hb : hi < 32) :
    bits (atLeastOne w hi lo) hi lo = max 1 (bits w hi lo) := by
  unfold atLeastOne
  split
  · rename_i h0
    rw [bits_withBits_self w 1 h hb, h0]
    exact Nat.mod_eq_of_lt (Nat.one_lt_two_pow (by omega))
  · omega

theorem bits_atLeastOne_ne (w : Word) {hi lo a b : Nat} (h : lo ≤ hi) (hab : b ≤ a) (ha : a < 32) (hd : a < lo ∨ hi < b) :
    bits (atLeastOne w hi lo) a b = bits w a b := by
  unfold atLeastOne
  split
  · exact bits_withBits_ne w 1 h hab ha hd
  · rfl

/-- The word that a write of TEST_CTL stores. -/
def testCtlStored (v : Word) : Word := atLeastOne (atLeastOne (atLeastOne v 15 4) 23 16) 31 24

theorem testCtlStored_fields (v : Word) :
    bits (testCtlStored v) 3 0 = bits v 3 0 ∧ bits (testCtlStored v) 15 4 = max 1 (bits v 15 4) ∧
      bits (testCtlStored v) 23 16 = max 1 (bits v 23 16) ∧ bits (testCtlStored v) 31 24 = max 1 (bits v 31 24) := by
  unfold testCtlStored
  refine ⟨?_, ?_, ?_, ?_⟩
  · rw [bits_atLeastOne_ne, bits_atLeastOne_ne, bits_atLeastOne_ne] <;> decide
  · rw [bits_atLeastOne_ne, bits_atLeastOne_ne, bits_atLeastOne_self] <;> decide
  · rw [bits_atLeastOne_ne, bits_atLeastOne_self, bits_atLeastOne_ne] <;> decide
  · rw [bits_atLeastOne_self, bits_atLeastOne_ne, bits_atLeastOne_ne] <;> decide

theorem exec_testCtlWrite (v : Word) (s : State) : exec (.testCtlWrite v) s =
    .next { s.setReg Reg.testCtl (testCtlStored v) with
      test := if s.running then s.test else { s.test with testCtl := testCtlStored v } } := by
  have hrun : (s.setReg Reg.testCtl (testCtlStored v)).running = s.running := running_setReg s _ (by decide)
  show Host.Outcome.next (if (s.setReg Reg.testCtl (testCtlStored v)).running then s.setReg Reg.testCtl (testCtlStored v)
    else { s.setReg Reg.testCtl (testCtlStored v) with test := { s.test with testCtl := testCtlStored v } }) = _
  rw [hrun]
  split <;> rfl

theorem testCtlWrite_acts (v : Word) (s : State) : ∃ t, exec (.testCtlWrite v) s = .next t ∧
    t.fld Reg.testCtl 3 0 = bits v 3 0 ∧ t.fld Reg.testCtl 15 4 = max 1 (bits v 15 4) ∧
    t.fld Reg.testCtl 23 16 = max 1 (bits v 23 16) ∧ t.fld Reg.testCtl 31 24 = max 1 (bits v 31 24) ∧
    regsKeptBut [Reg.testCtl] s t ∧ t = { s with regs := t.regs, test := t.test } ∧
    t.test = (if s.running then s.test else { s.test with testCtl := t.reg Reg.testCtl }) := by
  obtain ⟨-, hkept⟩ := onlyRegs_setReg s (testCtlStored v) (List.mem_singleton_self Reg.testCtl)
  have hreg : ∀ x : TestSt, ({ s.setReg Reg.testCtl (testCtlStored v) with test := x } : State).reg Reg.testCtl = testCtlStored v :=
    fun x => reg_setReg s _ _
  obtain ⟨h1, h2, h3, h4⟩ := testCtlStored_fields v
  exact ⟨_, exec_testCtlWrite v s, by rw [State.fld, hreg, h1], by rw [State.fld, hreg, h2], by rw [State.fld, hreg, h3],
    by rw [State.fld, hreg, h4], hkept, rfl, by rw [hreg]⟩

/-! ### Mailbox and report pairs (Tables 2.22 and 11.20) -/

/-- The address that the device has taken into use for a pair. -/
def pageInUse (s : State) (p : AddrPair) : Option Nat :=
  match p with
  | .mailbox .a => s.host.mailA
  | .mailbox .b => s.host.mailB
  | .report .a => s.host.reportA
  | .report .b => s.host.reportB

theorem setPage_pageInUse (s : State) (p : AddrPair) (v : Option Nat) : pageInUse (s.setPage p v) p = v := by
  rcases p with (_ | _) | (_ | _) <;> rfl

theorem setPage_frame (s : State) (p : AddrPair) (v : Option Nat) : s.setPage p v = { s with host := (s.setPage p v).host } := by
  rcases p with (_ | _) | (_ | _) <;> rfl

theorem setPage_reg (s : State) (p : AddrPair) (v : Option Nat) (o : Nat) : (s.setPage p v).reg o = s.reg o :=
  reg_congr (by rw [setPage_frame]) o

theorem setPage_host_congr {s t : State} (h : t.host = s.host) (p : AddrPair) (v : Option Nat) :
    (t.setPage p v).host = (s.setPage p v).host := by
  rcases p with (_ | _) | (_ | _) <;> simp only [State.setPage, h]

/-- The bits of a LO register that lie below the page number do not reach the address. -/
theorem addrLo_page (v : Word) : (v &&& 0xFFFFF001).toNat / 4096 = v.toNat / 4096 := by
  have hv := v.isLt
  have hmask : (v.toNat &&& 0xFFFFF001) >>> 12 = v.toNat >>> 12 % 2 ^ 20 := by
    rw [Nat.shiftRight_and_distrib, ← Nat.and_two_pow_sub_one_eq_mod]
    rfl
  rw [BitVec.toNat_and, ← Nat.shiftRight_eq_div_pow _ 12, ← Nat.shiftRight_eq_div_pow _ 12]
  refine hmask.trans (Nat.mod_eq_of_lt ?_)
  rw [Nat.shiftRight_eq_div_pow]
  omega

/-- A write of a LO register stores address and VALID, and the pair is in use, 4 KiB aligned, exactly while VALID is 1. -/
theorem writeAddrLo_eq (s : State) (p : AddrPair) (v : Word) :
    s.writeAddrLo p v = (s.setReg (pairLo p) (v &&& 0xFFFFF001)).setPage p
      (if v.getLsbD 0 = true then some ((s.reg (pairLo p + 4)).toNat * 2 ^ 32 + v.toNat / 4096 * 4096) else none) := by
  have hvalid : (s.setReg (pairLo p) (v &&& 0xFFFFF001)).bit (pairLo p) 0 = v.getLsbD 0 := by
    rw [bit_eq_getLsbD, reg_setReg]
    simp
  have haddr : (s.setReg (pairLo p) (v &&& 0xFFFFF001)).pageAddr (pairLo p) =
      (s.reg (pairLo p + 4)).toNat * 2 ^ 32 + v.toNat / 4096 * 4096 := by
    have hp := addrLo_page v
    unfold State.pageAddr State.pair
    rw [reg_setReg, reg_setReg_ne _ _ (regHome_ne_add_four _).symm]
    omega
  unfold State.writeAddrLo
  simp only [hvalid, haddr]

theorem exec_mailboxAddrValid {s : State} {p : AddrPair} (v : Word) (hw : s.writeOpen (pairLo p) = true) :
    exec (.mailboxAddrValid p v) s = .next (s.writeAddrLo p v) := congrArg Host.Outcome.next (if_pos hw)

theorem regRow?_pairLo (p : AddrPair) : regRow? (pairLo p) = some { base := pairLo p, rw := 0xFFFFF001 } := by
  rcases p with (_ | _) | (_ | _) <;> rfl

theorem afterWrite_pairLo (s : State) (r : Req) (p : AddrPair) (old v : Word) :
    s.afterWrite r (pairLo p) old v = s.writeAddrLo p v := by
  rcases p with (_ | _) | (_ | _) <;> rfl

theorem writeAddrLo_reg (s : State) (p : AddrPair) (v : Word) : (s.writeAddrLo p v).reg (pairLo p) = v &&& 0xFFFFF001 := by
  rw [writeAddrLo_eq, setPage_reg, reg_setReg]

theorem writeAddrLo_kept (s : State) (p : AddrPair) (v : Word) : regsKeptBut [pairLo p] s (s.writeAddrLo p v) := by
  obtain ⟨-, hkept⟩ := onlyRegs_setReg s (v &&& 0xFFFFF001) (List.mem_singleton_self (pairLo p))
  intro o ho
  rw [writeAddrLo_eq, setPage_reg, hkept o ho]

theorem writeAddrLo_frame (s : State) (p : AddrPair) (v : Word) :
    s.writeAddrLo p v = { s with host := (s.writeAddrLo p v).host, regs := (s.writeAddrLo p v).regs } := by
  rw [writeAddrLo_eq, setPage_frame]
  rfl

theorem writeAddrLo_pageInUse (s : State) (p : AddrPair) (v : Word) : pageInUse (s.writeAddrLo p v) p =
    if v.getLsbD 0 = true then some ((s.reg (pairLo p + 4)).toNat * 2 ^ 32 + v.toNat / 4096 * 4096) else none := by
  rw [writeAddrLo_eq, setPage_pageInUse]

/-- What stood in the LO register before its write does not matter. -/
theorem writeAddrLo_host_setReg (s : State) (p : AddrPair) (x v : Word) :
    ((s.setReg (pairLo p) x).writeAddrLo p v).host = (s.writeAddrLo p v).host := by
  rw [writeAddrLo_eq, writeAddrLo_eq, reg_setReg_ne _ _ (regHome_ne_add_four _).symm]
  exact setPage_host_congr (s := s.setReg (pairLo p) _) (t := (s.setReg (pairLo p) x).setReg (pairLo p) _) rfl p _

theorem mailboxAddrValid_acts {s : State} (p : AddrPair) (v : Word) (hw : s.writeOpen (pairLo p) = true) :
    ∃ t, exec (.mailboxAddrValid p v) s = .next t ∧ t.reg (pairLo p) = v &&& 0xFFFFF001 ∧ regsKeptBut [pairLo p] s t ∧
      t = { s with host := t.host, regs := t.regs } ∧ pageInUse t p =
        if v.getLsbD 0 = true then some ((s.reg (pairLo p + 4)).toNat * 2 ^ 32 + v.toNat / 4096 * 4096) else none :=
  ⟨_, exec_mailboxAddrValid v hw, writeAddrLo_reg s p v, writeAddrLo_kept s p v, writeAddrLo_frame s p v, writeAddrLo_pageInUse s p v⟩

/-- REGISTER_WRITE to a LO register takes the pair into use as MAILBOX_ADDR_VALID does. -/
theorem registerWrite_pairLo {s : State} (p : AddrPair) (r : Req) (v : Word) (hw : s.writeOpen (pairLo p) = true) :
    ∃ t u, exec (.mailboxAddrValid p v) s = .next t ∧ exec (.registerWrite r (pairLo p) v) s = .next u ∧ u.host = t.host ∧
      u.reg (pairLo p) = t.reg (pairLo p) :=
  ⟨_, _, exec_mailboxAddrValid v hw, by rw [exec_registerWrite r v (regRow?_pairLo p) hw, afterWrite_pairLo],
    writeAddrLo_host_setReg s p _ v, by rw [writeAddrLo_reg, writeAddrLo_reg]⟩

/-! ### O10 -/

/-- Settles O10: each control bit, cap, TEST_CTL and address pair by the rule of its command. -/
theorem controlBitsAct : Obligations.ControlBitsAct := by
  unfold Obligations.ControlBitsAct
  refine ⟨⟨fun s hw => ?_, fun n s hn hw => ?_, fun s hw hr => exec_cacheClr hw hr, fun hub s hw => ?_,
    fun hub en s hh hw hr => rdcEn_acts en hh hw hr⟩, fun r v s => ?_, testCtlWrite_acts, fun p r v s hw => ⟨?_, registerWrite_pairLo p r v hw⟩⟩
  · exact ⟨_, exec_marginRst hw, reg_setReg _ _ _, onlyRegs_setReg s _ (List.mem_singleton_self _)⟩
  · exact ⟨_, exec_chunkRst hn hw, pair_setPair _ _ _, onlyRegs_setPair s _ (by simp) (by simp [updChunksHi_eq])⟩
  · exact ⟨_, exec_invAll hw, rfl, fun x => by simp⟩
  · exact ⟨_, exec_pwrCapWrite r v s, pwrCapWrite_fld v s, onlyRegs_setFld s _ _ _ (List.mem_singleton_self _)⟩
  · have h := mailboxAddrValid_acts p v hw
    rcases p with (_ | _) | (_ | _) <;> exact h

end Sys2Proof.Laws

/-! # Loads of the vector engine, reads through the remote caches, and O17. -/

namespace Sys2Proof.Laws

open Sys2Proof Sys2Proof.Machine

/-! ### What a vector read can do -/

theorem physOf_congr {s t : State} (h : t.regs = s.regs) (l : Nat) : t.physOf l = s.physOf l :=
  fld_of_reg (reg_congr h _) _ _

/-- What a read at a vector address leaves alone: every byte of memory, the registers and the units. -/
structure ReadKeeps (s t : State) : Prop where
  memory : memoryKept s t
  regs : t.regs = s.regs
  units : t.units = s.units

theorem readKeeps_refl (s : State) : ReadKeeps s s := ⟨fun _ => rfl, rfl, rfl⟩

theorem readKeeps_trans {s t u : State} (h : ReadKeeps s t) (g : ReadKeeps t u) : ReadKeeps s u :=
  ⟨fun l => (g.memory l).trans (h.memory l), g.regs.trans h.regs, g.units.trans h.units⟩

/-- A fetch of a range that can be read recalls host copies and touches the caches, and nothing more. -/
theorem fetch_readable {s : State} {ag : Agent} {a n : Nat} (h : s.canRead ag a n = true) :
    (s.fetch ag a n).1.length = n ∧ ReadKeeps s (s.fetch ag a n).2 := by
  obtain ⟨ps, hps⟩ := Option.isSome_iff_exists.mp h
  have hf : s.fetch ag a n = (ps.map fun pl => s.peek pl.loc, (s.recall ag ps).touchAll ag ps) := by
    simp only [State.fetch, hps]
  have hk : Keeps (fun p => decide (p = .tier)) s ((s.recall ag ps).touchAll ag ps) := by
    have hp : covers (fun p => decide (p = .tier)) [.tier] := fun p h => by simpa using h
    exact keeps_touchAll _ _ _ (keeps_recall _ _ _ (keeps_refl s))
  rw [hf]
  exact ⟨by simp [placesOf_length hps],
    ⟨peek_congr (hk.parts .memory (by decide)), hk.parts .regs (by decide), hk.parts .units (by decide)⟩⟩

theorem vecRead_core {s : State} (x : VecCtx) {a n : Nat} (hd : isDevice a = false) :
    s.vecRead x a n = if loadForbidden a n then none else some (s.coreRead x.r.core a n, s) := by
  simp only [State.vecRead, hd, Bool.false_eq_true, if_false]

/-- A read that is allowed gives the bytes asked for, from core memory or from device memory. -/
theorem vecRead_some {s t : State} {x : VecCtx} {a n : Nat} {b : Bytes} (h : s.vecRead x a n = some (b, t)) :
    b.length = n ∧ ReadKeeps s t := by
  cases hd : isDevice a with
  | false =>
    rw [vecRead_core x hd] at h
    split at h
    · cases h
    · cases h
      exact ⟨by simp [State.coreRead], readKeeps_refl s⟩
  | true =>
    simp only [State.vecRead, hd, if_true] at h
    split at h
    · rename_i hc
      rw [Bool.and_eq_true] at hc
      obtain ⟨hlen, hk⟩ := fetch_readable hc.1
      rw [Option.some.injEq] at h
      rw [h] at hlen hk
      exact ⟨hlen, hk⟩
    · cases h

/-! ### A load that goes on -/

/-- A load that writes the engine's registers in a state that its reads have left. -/
theorem load_goes_on {s t : State} {l opc : Nat} {r : RunSlot} {i : VInstr} (h : s.atVec l opc r i) (hk : ReadKeeps s t) (w : VecSt) :
    (t.setVec (s.physOf l) w).nextInstr (s.vecCtx l r i) = t.vecDone l r w := by
  have hrun : ((t.setVec (s.physOf l) w).unit (vectorUnit l)).run.isSome = true := by
    have hu : (t.setVec (s.physOf l) w).unit (vectorUnit l) = s.unit (vectorUnit l) := by
      show (getKey t.units _).getD _ = _
      rw [hk.units]
      rfl
    rw [hu]
    exact isSome_of_runOf h.1
  rw [nextInstr_at h hrun, ← physOf_congr hk.regs l]
  rfl

theorem getD_lanes (g : Nat → Word) {n : Nat} (hn : n < 128) : ((List.range 128).map g).getD n 0 = g n := by
  simp [List.getD_eq_getElem?_getD, List.getElem?_range hn]

/-- A masked write of 128 values, one for each lane. -/
theorem setV_lanes (v : VecSt) (i : VInstr) (g : Nat → Word) : laneWrite i g v (v.setV i ((List.range 128).map g)) :=
  setV_laneWrite v i _ g fun _ hn => getD_lanes g hn

/-! ### VGATH -/

theorem exec_vgath (l : Nat) (s : State) : exec (.vgath l) s = .next (applyVgath l s) := rfl

/-- The value of a lane of a gather. -/
def gatherLane (s : State) (l core : Nat) (i : VInstr) (n : Nat) : Word :=
  let v := s.vec (s.physOf l)
  laneOf i.fmt (v.scaleOf n) (rowCode (operandFmt i.fmt) (s.coreRead core (gatherAt v i n).1 (gatherAt v i n).2)
    (if i.fmt = 4 then (v.at i.b n).toNat % 2 else 0))

theorem applyVgath_at {s : State} {l : Nat} {r : RunSlot} {i : VInstr} (h : s.atVec l 0x43 r i) :
    applyVgath l s =
      if (List.range 128).all fun n => !(s.vec (s.physOf l)).lane i n ||
          !loadForbidden (gatherAt (s.vec (s.physOf l)) i n).1 (gatherAt (s.vec (s.physOf l)) i n).2 then
        s.vecDone l r ((s.vec (s.physOf l)).setV i ((List.range 128).map (gatherLane s l r.core i)))
      else s.progFault (s.vecCtx l r i).c := by
  unfold applyVgath
  rw [vecStep_at h]
  dsimp only
  rw [vecCtx_phys, ← load_goes_on h (readKeeps_refl s)]
  rfl

theorem vgath_gathers {s : State} {l : Nat} {r : RunSlot} {i : VInstr} (h : s.atVec l 0x43 r i)
    (ha : ∀ n, n < 128 → (s.vec (s.physOf l)).lane i n = true →
      loadForbidden (gatherAt (s.vec (s.physOf l)) i n).1 (gatherAt (s.vec (s.physOf l)) i n).2 = false) :
    ∃ w, exec (.vgath l) s = .next (s.vecDone l r w) ∧ laneWrite i (gatherLane s l r.core i) (s.vec (s.physOf l)) w := by
  refine ⟨_, ?_, setV_lanes _ _ _⟩
  rw [exec_vgath, applyVgath_at h, if_pos]
  rw [List.all_eq_true]
  intro n hn
  cases hl : (s.vec (s.physOf l)).lane i n with
  | false => rfl
  | true => simp [ha n (List.mem_range.mp hn) hl]

theorem vgath_faults {s : State} {l : Nat} {r : RunSlot} {i : VInstr} (h : s.atVec l 0x43 r i) {n : Nat} (hn : n < 128)
    (hl : (s.vec (s.physOf l)).lane i n = true)
    (hf : loadForbidden (gatherAt (s.vec (s.physOf l)) i n).1 (gatherAt (s.vec (s.physOf l)) i n).2 = true) :
    exec (.vgath l) s = .next (s.progFault (s.vecCtx l r i).c) := by
  rw [exec_vgath, applyVgath_at h, if_neg]
  intro hall
  have := List.all_eq_true.mp hall n (List.mem_range.mpr hn)
  simp [hl, hf] at this

/-! ### VLD -/

theorem exec_vld (l : Nat) (s : State) : exec (.vld l) s = .next (applyVld l s) := rfl

theorem isBlockFmt_eq_false {f : Nat} (h : f ≤ 2) : isBlockFmt f = false := by
  unfold isBlockFmt
  rw [decide_eq_false_iff_not]
  omega

/-- The scale of a block does not enter the value of an FP32, BF16 or FP16 element. -/
theorem laneOf_plain {f : Nat} (h : f ≤ 2) (scale code : Nat) : laneOf f scale code = laneOf f 0 code := by
  obtain rfl | rfl | rfl : f = 0 ∨ f = 1 ∨ f = 2 := by omega
  all_goals rfl

/-- A row that has been read is widened and written; the scales are those that stand or those that a block format loads first. -/
theorem applyVld_at {s : State} {l : Nat} {r : RunSlot} {i : VInstr} (h : s.atVec l 0x48 r i) :
    applyVld l s =
      let v := s.vec (s.physOf l)
      match (if isBlockFmt i.fmt then s.vecRead (s.vecCtx l r i) (v.sreg i.b).toNat 4 else some (v.scales, s)) with
      | none => s.progFault (s.vecCtx l r i).c
      | some (sc, t) =>
        match t.vecRead (s.vecCtx l r i) (vecAddr (v.sreg i.a) i.simm) (elemBytes (operandFmt i.fmt) 128) with
        | none => t.progFault (s.vecCtx l r i).c
        | some (row, u) =>
          (u.setVec (s.physOf l) ({ v with scales := sc }.setV i (widenRow { v with scales := sc } i.fmt row))).nextInstr
            (s.vecCtx l r i) := by
  unfold applyVld
  rw [vecStep_at h]
  dsimp only
  rw [vecCtx_phys]
  rfl

theorem vld_plain {s t : State} {l : Nat} {r : RunSlot} {i : VInstr} {b : Bytes} (h : s.atVec l 0x48 r i) (hf : i.fmt ≤ 2)
    (hr : s.vecRead (s.vecCtx l r i) (vecAddr ((s.vec (s.physOf l)).sreg i.a) i.simm) (elemBytes (operandFmt i.fmt) 128) = some (b, t)) :
    ∃ w, exec (.vld l) s = .next (t.vecDone l r w) ∧
      laneWrite i (fun k => laneOf i.fmt 0 (rowCode (operandFmt i.fmt) b k)) (s.vec (s.physOf l)) w := by
  obtain ⟨-, hk⟩ := vecRead_some hr
  refine ⟨(s.vec (s.physOf l)).setV i (widenRow (s.vec (s.physOf l)) i.fmt b), ?_, setV_laneWrite _ _ _ _ fun n hn => ?_⟩
  · rw [exec_vld, applyVld_at h]
    simp only [isBlockFmt_eq_false hf, Bool.false_eq_true, if_false, hr]
    rw [load_goes_on h hk]
  · rw [widenRow, getD_lanes _ hn, laneOf_plain hf]

theorem vld_plain_faults {s : State} {l : Nat} {r : RunSlot} {i : VInstr} (h : s.atVec l 0x48 r i) (hf : i.fmt ≤ 2)
    (hr : s.vecRead (s.vecCtx l r i) (vecAddr ((s.vec (s.physOf l)).sreg i.a) i.simm) (elemBytes (operandFmt i.fmt) 128) = none) :
    exec (.vld l) s = .next (s.progFault (s.vecCtx l r i).c) := by
  rw [exec_vld, applyVld_at h]
  simp only [isBlockFmt_eq_false hf, Bool.false_eq_true, if_false, hr]

/-- A valid instruction has one of the five formats (R179). -/
theorem fmt_le_of_atVec {s : State} {l opc : Nat} {r : RunSlot} {i : VInstr} (h : s.atVec l opc r i) : i.fmt ≤ 4 := by
  obtain ⟨-, -, hvalid, -, -⟩ := h
  simp only [VInstr.valid, Bool.and_eq_true, decide_eq_true_eq] at hvalid
  tauto

theorem vld_block {s t u : State} {l : Nat} {r : RunSlot} {i : VInstr} {sc b : Bytes} (h : s.atVec l 0x48 r i) (hf : 3 ≤ i.fmt)
    (hs : s.vecRead (s.vecCtx l r i) ((s.vec (s.physOf l)).sreg i.b).toNat 4 = some (sc, t))
    (hr : t.vecRead (s.vecCtx l r i) (vecAddr ((s.vec (s.physOf l)).sreg i.a) i.simm) (elemBytes (operandFmt i.fmt) 128) = some (b, u)) :
    ∃ w, exec (.vld l) s = .next (u.vecDone l r w) ∧ w.scales = sc ∧
      laneWrite i (fun k => widen (elemValue (operandFmt i.fmt) (sc.getD (k / 32) 0).toNat (rowCode (operandFmt i.fmt) b k)))
        { s.vec (s.physOf l) with scales := sc } w := by
  have hfmt := fmt_le_of_atVec h
  have hblock : isBlockFmt i.fmt = true := by
    unfold isBlockFmt
    rw [decide_eq_true_eq]
    omega
  obtain ⟨-, hst⟩ := vecRead_some hs
  obtain ⟨-, htu⟩ := vecRead_some hr
  refine ⟨{ s.vec (s.physOf l) with scales := sc }.setV i (widenRow { s.vec (s.physOf l) with scales := sc } i.fmt b), ?_, rfl,
    setV_laneWrite _ _ _ _ fun n hn => ?_⟩
  · rw [exec_vld, applyVld_at h]
    simp only [hblock, if_true, hs, hr]
    rw [load_goes_on h (readKeeps_trans hst htu)]
  · rw [widenRow, getD_lanes _ hn, laneOf, if_neg (by omega)]
    rfl

/-! ### SLD and VWGA -/

theorem exec_sld (l : Nat) (s : State) : exec (.sld l) s = .next (applySld l s) := rfl

theorem applySld_at {s : State} {l : Nat} {r : RunSlot} {i : VInstr} (h : s.atVec l 0x8B r i) :
    applySld l s =
      match s.vecRead (s.vecCtx l r i) (vecAddr ((s.vec (s.physOf l)).sreg i.a) i.simm) 8 with
      | none => s.progFault (s.vecCtx l r i).c
      | some (b, t) =>
        (t.setVec (s.physOf l) ((s.vec (s.physOf l)).setS i.d (BitVec.ofNat 64 (leNat b)))).nextInstr (s.vecCtx l r i) := by
  unfold applySld
  rw [vecStep_at h]
  dsimp only
  rw [vecCtx_phys]
  rfl

theorem sld_loads {s t : State} {l : Nat} {r : RunSlot} {i : VInstr} {b : Bytes} (h : s.atVec l 0x8B r i)
    (hr : s.vecRead (s.vecCtx l r i) (vecAddr ((s.vec (s.physOf l)).sreg i.a) i.simm) 8 = some (b, t)) :
    ∃ w, exec (.sld l) s = .next (t.vecDone l r w) ∧ scalarWrite i.d (BitVec.ofNat 64 (leNat b)) (s.vec (s.physOf l)) w := by
  obtain ⟨-, hk⟩ := vecRead_some hr
  refine ⟨_, ?_, setS_scalarWrite _ _ _⟩
  rw [exec_sld, applySld_at h, hr]
  dsimp only
  rw [load_goes_on h hk]

theorem sld_faults {s : State} {l : Nat} {r : RunSlot} {i : VInstr} (h : s.atVec l 0x8B r i)
    (hr : s.vecRead (s.vecCtx l r i) (vecAddr ((s.vec (s.physOf l)).sreg i.a) i.simm) 8 = none) :
    exec (.sld l) s = .next (s.progFault (s.vecCtx l r i).c) := by
  rw [exec_sld, applySld_at h, hr]

theorem exec_vwga (l : Nat) (s : State) : exec (.vwga l) s = .next (applyVwga l s) := rfl

theorem applyVwga_at {s : State} {l : Nat} {r : RunSlot} {i : VInstr} (h : s.atVec l 0x4B r i) :
    applyVwga l s =
      if s.wgaHolds r.beat then s.holdWga (s.vecCtx l r i).c r.core
      else s.vecDone l r ((s.vec (s.physOf l)).setV i ((List.range 128).map fun n =>
        s.wgaCommitted r.core (((s.vec (s.physOf l)).sreg i.a).toNat % 256) (i.imm % 4096 + n))) := by
  unfold applyVwga
  rw [vecStep_at h]
  dsimp only
  rw [vecCtx_phys, ← load_goes_on h (readKeeps_refl s)]
  rfl

theorem vwga_reads {s : State} {l : Nat} {r : RunSlot} {i : VInstr} (h : s.atVec l 0x4B r i) (hw : s.wgaHolds r.beat = false) :
    ∃ w, exec (.vwga l) s = .next (s.vecDone l r w) ∧
      laneWrite i (fun n => s.wgaCommitted r.core (((s.vec (s.physOf l)).sreg i.a).toNat % 256) (i.imm % 4096 + n))
        (s.vec (s.physOf l)) w :=
  ⟨_, by rw [exec_vwga, applyVwga_at h, hw, if_neg Bool.false_ne_true], setV_lanes _ _ _⟩

theorem vwga_held {s : State} {l : Nat} {r : RunSlot} {i : VInstr} (h : s.atVec l 0x4B r i) (hw : s.wgaHolds r.beat = true) :
    exec (.vwga l) s = .next (s.holdWga (s.vecCtx l r i).c r.core) := by
  rw [exec_vwga, applyVwga_at h, hw, if_pos rfl]

/-! ### Reads through the remote caches (R61, R63) -/

theorem exec_remoteRead (l addr len : Nat) (errs : List HwErr) (s : State) :
    exec (.remoteRead l addr len errs) s = .next (applyRemoteRead l addr len errs s) := rfl

/-- A read without errors inside one line, of a core that is there and whose hub's remote caches serve, looks up that line. -/
theorem remoteRead_one_line {s : State} {l addr len : Nat} (h0 : 0 < len) (h1 : addr % 256 + len ≤ 256)
    (hc : s.bit (Reg.coreMap l) 7 = true) (ho : dieHub (s.physOf l / 17) ∈ s.tier.rdcOn) :
    exec (.remoteRead l addr len []) s = .next (s.rdcPart (s.physOf l / 17) addr (addr / 256)) := by
  have hlines : (addr + len - 1) / 256 - addr / 256 + 1 = 1 := by omega
  have hserves : ¬(len = 0 ∨ (!s.bit (Reg.coreMap l) 7) = true ∨ (!s.tier.rdcOn.contains (dieHub (s.physOf l / 17))) = true) := by
    simp [hc, ho]
    omega
  rw [exec_remoteRead, applyRemoteRead]
  simp only [if_neg hserves, hlines, State.hwErrors, List.foldl_nil, List.any_nil, Bool.not_false, List.filter_true]
  rfl

theorem rdcPart_own {s : State} {die addr : Nat} (h : s.halfOf addr = some (dieHub die)) : s.rdcPart die addr (addr / 256) = s := by
  have ha : max addr (256 * (addr / 256)) = addr := by omega
  simp only [State.rdcPart, ha, h]
  cases s.rdcRegion addr with
  | none => rfl
  | some g => exact if_pos rfl

/-- A line of a declared region of the other half is looked up. -/
theorem rdcPart_other {s : State} {die addr half : Nat} {g : RdcRegion} (h : s.halfOf addr = some half) (hne : half ≠ dieHub die)
    (hg : s.rdcRegion addr = some g) : s.rdcPart die addr (addr / 256) = s.rdcLook die (dieHub die) (addr / 256) g.lifetime := by
  have ha : max addr (256 * (addr / 256)) = addr := by omega
  simp only [State.rdcPart, ha, h, hg, if_neg hne]

theorem rdcLook_hit {s : State} {die hub line life : Nat} (h : ∃ x ∈ s.tier.rdc, x.die = die ∧ x.line = line) :
    s.rdcLook die hub line life = s.bumpPair (Reg.rdcHitLo hub) 1 := by
  refine if_pos ?_
  simpa [List.any_eq_true] using h

theorem rdcLook_miss {s : State} {die hub line life : Nat} (h : ∀ x ∈ s.tier.rdc, ¬(x.die = die ∧ x.line = line)) :
    s.rdcLook die hub line life = (s.bumpPair (Reg.rdcMissLo hub) 1).rdcFill die line life := by
  refine if_neg ?_
  simpa [List.any_eq_true] using h

/-- A fill puts the line into the cache. -/
theorem mem_rdcFill (s : State) (die line life : Nat) :
    ∃ x ∈ (s.rdcFill die line life).tier.rdc, x.die = die ∧ x.line = line ∧ x.lifetime = life :=
  ⟨_, List.mem_append_right _ (List.mem_singleton_self _), rfl, rfl, rfl⟩

theorem remoteRead_looks {s : State} {l addr len half hub die : Nat} {g : RdcRegion} (hd : die = s.physOf l / 17) (hh : hub = dieHub die)
    (h0 : 0 < len) (h1 : addr % 256 + len ≤ 256) (hc : s.bit (Reg.coreMap l) 7 = true) (ho : hub ∈ s.tier.rdcOn)
    (ha : s.halfOf addr = some half) (hg : s.rdcRegion addr = some g) (hne : half ≠ hub) :
    exec (.remoteRead l addr len []) s = .next (s.rdcLook die hub (addr / 256) g.lifetime) := by
  subst hh hd
  rw [remoteRead_one_line h0 h1 hc ho, rdcPart_other ha hne hg]

theorem remoteRead_acts {s : State} {l addr len half hub die : Nat} {g : RdcRegion} (hd : die = s.physOf l / 17) (hh : hub = dieHub die)
    (h0 : 0 < len) (h1 : addr % 256 + len ≤ 256) (hc : s.bit (Reg.coreMap l) 7 = true) (ho : hub ∈ s.tier.rdcOn)
    (ha : s.halfOf addr = some half) (hg : s.rdcRegion addr = some g) (hne : half ≠ hub) :
    ∃ v, exec (.remoteRead l addr len []) s = .next v ∧ memoryKept s v ∧
      ((∃ x ∈ s.tier.rdc, x.die = die ∧ x.line = addr / 256) → v.tier.rdc = s.tier.rdc ∧
        v.pair (Reg.rdcHitLo hub) = (s.pair (Reg.rdcHitLo hub) + 1) % 2 ^ 64) ∧
      ((∀ x ∈ s.tier.rdc, ¬(x.die = die ∧ x.line = addr / 256)) →
        (∃ x ∈ v.tier.rdc, x.die = die ∧ x.line = addr / 256 ∧ x.lifetime = g.lifetime) ∧
        v.pair (Reg.rdcMissLo hub) = (s.pair (Reg.rdcMissLo hub) + 1) % 2 ^ 64) := by
  refine ⟨_, remoteRead_looks hd hh h0 h1 hc ho ha hg hne, ?_⟩
  by_cases hit : ∃ x ∈ s.tier.rdc, x.die = die ∧ x.line = addr / 256
  · rw [rdcLook_hit hit]
    obtain ⟨x, hx, hxl⟩ := hit
    exact ⟨fun l => by cases l <;> rfl, fun _ => ⟨rfl, pair_setPair _ _ _⟩, fun h => absurd hxl (h x hx)⟩
  · rw [rdcLook_miss (by simpa using hit)]
    exact ⟨fun l => by cases l <;> rfl, fun h => absurd h hit, fun _ => ⟨mem_rdcFill _ _ _ _, pair_setPair _ _ _⟩⟩

/-! ### O17 -/

/-- Settles O17: every load from the rule of its reads, and the remote read from the rule of one line's look-up. -/
theorem vectorLoadsRead : Obligations.VectorLoadsRead := by
  unfold Obligations.VectorLoadsRead
  refine ⟨fun l r i s => ⟨fun h => ⟨vgath_gathers h, fun n hn hl hf => vgath_faults h hn hl hf⟩, fun h hf n hn => ?_,
    fun h hf sc t b u hs hr => vld_block h hf hs hr, fun h => ⟨fun b t hr => sld_loads h hr, sld_faults h⟩,
    fun h => ⟨vwga_reads h, vwga_held h⟩, fun a n => ⟨fun hd hf => ?_, fun hd hf => ?_, fun b t hr => ?_⟩⟩,
    fun l addr len half hub die g s hd hh h0 h1 hc ho ha hg => ⟨fun hown => ?_, remoteRead_acts hd hh h0 h1 hc ho ha hg⟩⟩
  · subst hn
    exact ⟨fun b t hr => vld_plain h hf hr, vld_plain_faults h hf⟩
  · rw [vecRead_core _ hd, hf, if_neg Bool.false_ne_true]
    rfl
  · rw [vecRead_core _ hd, hf, if_pos rfl]
  · obtain ⟨hlen, hk⟩ := vecRead_some hr
    exact ⟨hlen, hk.memory⟩
  · subst hh hd
    rw [remoteRead_one_line h0 h1 hc ho, rdcPart_own (hown ▸ ha)]

end Sys2Proof.Laws

/-! # Serrin modules: failed flits, lane repair and fencing, and O13. -/

namespace Sys2Proof.Laws

open Sys2Proof Sys2Proof.Machine

/-! ### Lane repair at full width (R44, R46) -/

/-- The failed data lanes of a lane test. -/
def failedData (failed : List Nat) : List Nat := (List.range 64).filter failed.contains

/-- The mappings of failed lanes that stay: those to a repair lane. -/
def keptLanes (old : List (Nat × Nat)) (failed : List Nat) : List (Nat × Nat) :=
  old.filter fun x => (failedData failed).contains x.1 && [64, 65, 66, 67].contains x.2

/-- The failed data lanes that have no mapping yet. -/
def freshLanes (old : List (Nat × Nat)) (failed : List Nat) : List Nat :=
  (failedData failed).filter fun l => !(keptLanes old failed).any fun x => x.1 == l

/-- The repair lanes that no mapping uses. -/
def freeLanes (old : List (Nat × Nat)) (failed : List Nat) : List Nat :=
  [64, 65, 66, 67].filter fun i => !(keptLanes old failed).any fun x => x.2 == i

/-- The mappings after the repair. -/
def repairedLanes (old : List (Nat × Nat)) (failed : List Nat) : List (Nat × Nat) :=
  keptLanes old failed ++ (freshLanes old failed).zip (freeLanes old failed)

/-- With sound repair lanes, at most four failed data lanes are repaired at full width. -/
theorem laneFix_full (old : List (Nat × Nat)) {failed : List Nat} (x32 : Bool) (hf : ∀ l ∈ failed, l < 64)
    (h4 : (failedData failed).length ≤ 4) :
    laneFix old failed x32 = .full (repairedLanes old failed) (freshLanes old failed) := by
  have hgood : ([64, 65, 66, 67] : List Nat).filter (fun i => !failed.contains i) = [64, 65, 66, 67] := by
    have hsound : ∀ i, 64 ≤ i → i ∉ failed := fun i hi hm => absurd (hf i hm) (by omega)
    simp [hsound]
  unfold laneFix
  simp only [hgood]
  exact if_pos h4

/-- What a duplicate-free list leaves of a list that contains it. -/
theorem length_filter_not_mem {l m : List Nat} (hl : l.Nodup) (hm : m.Nodup) (hsub : ∀ x ∈ m, x ∈ l) :
    (l.filter fun x => !m.contains x).length + m.length = l.length := by
  have hperm : (l.filter fun x => m.contains x).Perm m := (List.perm_ext_iff_of_nodup (hl.filter _) hm).mpr fun x => by
    simpa using hsub x
  rw [← hperm.length_eq, Nat.add_comm]
  exact (List.length_eq_length_filter_add _).symm

theorem mem_failedData {failed : List Nat} (hf : ∀ l ∈ failed, l < 64) (x : Nat) : x ∈ failedData failed ↔ x ∈ failed := by
  simpa [failedData] using hf x

theorem failedData_nodup (failed : List Nat) : (failedData failed).Nodup := List.nodup_range.filter _

theorem mem_keptLanes (old : List (Nat × Nat)) (failed : List Nat) (x : Nat × Nat) :
    x ∈ keptLanes old failed ↔ x ∈ old ∧ x.1 ∈ failedData failed ∧ x.2 ∈ [64, 65, 66, 67] := by
  simp [keptLanes]

theorem freshLanes_eq (old : List (Nat × Nat)) (failed : List Nat) :
    freshLanes old failed = (failedData failed).filter fun l => !((keptLanes old failed).map Prod.fst).contains l := by
  refine List.filter_congr fun l _ => ?_
  rw [Bool.eq_iff_iff]
  simp only [Bool.not_eq_true', List.any_eq_false, List.contains_eq_mem, decide_eq_false_iff_not, List.mem_map, beq_iff_eq]
  exact ⟨fun h ⟨x, hx, e⟩ => h x hx e, fun h x hx e => h ⟨x, hx, e⟩⟩

theorem freeLanes_eq (old : List (Nat × Nat)) (failed : List Nat) :
    freeLanes old failed = [64, 65, 66, 67].filter fun i => !((keptLanes old failed).map Prod.snd).contains i := by
  refine List.filter_congr fun l _ => ?_
  rw [Bool.eq_iff_iff]
  simp only [Bool.not_eq_true', List.any_eq_false, List.contains_eq_mem, decide_eq_false_iff_not, List.mem_map, beq_iff_eq]
  exact ⟨fun h ⟨x, hx, e⟩ => h x hx e, fun h x hx e => h ⟨x, hx, e⟩⟩

theorem mem_freeLanes {old : List (Nat × Nat)} {failed : List Nat} {i : Nat} (h : i ∈ freeLanes old failed) :
    i ∈ [64, 65, 66, 67] ∧ i ∉ (keptLanes old failed).map Prod.snd := by
  rw [freeLanes_eq, List.mem_filter] at h
  exact ⟨h.1, by simpa using h.2⟩

section Mapped

variable {old : List (Nat × Nat)} {failed : List Nat} (hfst : (old.map Prod.fst).Nodup) (hsnd : (old.map Prod.snd).Nodup)

include hfst in
theorem keptLanes_fst_nodup : ((keptLanes old failed).map Prod.fst).Nodup := hfst.sublist (List.filter_sublist.map _)

include hsnd in
theorem keptLanes_snd_nodup : ((keptLanes old failed).map Prod.snd).Nodup := hsnd.sublist (List.filter_sublist.map _)

include hfst in
theorem freshLanes_length : (freshLanes old failed).length + (keptLanes old failed).length = (failedData failed).length := by
  have h := length_filter_not_mem (failedData_nodup failed) (keptLanes_fst_nodup (failed := failed) hfst) fun x hx => by
    obtain ⟨y, hy, rfl⟩ := List.mem_map.mp hx
    exact ((mem_keptLanes _ _ _).mp hy).2.1
  rwa [List.length_map, ← freshLanes_eq] at h

include hsnd in
theorem freeLanes_length : (freeLanes old failed).length + (keptLanes old failed).length = 4 := by
  have h := length_filter_not_mem (l := [64, 65, 66, 67]) (by decide) (keptLanes_snd_nodup (failed := failed) hsnd) fun x hx => by
    obtain ⟨y, hy, rfl⟩ := List.mem_map.mp hx
    exact ((mem_keptLanes _ _ _).mp hy).2.2
  rwa [List.length_map, ← freeLanes_eq] at h

variable (h4 : (failedData failed).length ≤ 4)

include hfst hsnd h4

/-- There is a free repair lane for every lane without one. -/
theorem freshLanes_le_freeLanes : (freshLanes old failed).length ≤ (freeLanes old failed).length := by
  have h1 := freshLanes_length (failed := failed) hfst
  have h2 := freeLanes_length (failed := failed) hsnd
  omega

theorem repairedLanes_fst : (repairedLanes old failed).map Prod.fst = (keptLanes old failed).map Prod.fst ++ freshLanes old failed := by
  rw [repairedLanes, List.map_append, List.map_fst_zip (freshLanes_le_freeLanes hfst hsnd h4)]

theorem repairedLanes_snd : (repairedLanes old failed).map Prod.snd =
    (keptLanes old failed).map Prod.snd ++ (freeLanes old failed).take (freshLanes old failed).length := by
  have hle := freshLanes_le_freeLanes hfst hsnd h4
  rw [repairedLanes, List.map_append, List.zip_eq_zip_take_min, Nat.min_eq_left hle, List.take_length,
    List.map_snd_zip (List.length_take_le _ _)]

theorem repairedLanes_length : (repairedLanes old failed).length = (failedData failed).length := by
  have h := congrArg List.length (repairedLanes_fst hfst hsnd h4)
  rw [List.length_map, List.length_append, List.length_map] at h
  have := freshLanes_length (failed := failed) hfst
  omega

/-- Every failed lane is mapped, and no other. -/
theorem mem_repairedLanes_fst (hf : ∀ l ∈ failed, l < 64) (x : Nat) : x ∈ (repairedLanes old failed).map Prod.fst ↔ x ∈ failed := by
  rw [repairedLanes_fst hfst hsnd h4, freshLanes_eq, ← mem_failedData hf, List.mem_append, List.mem_filter]
  constructor
  · rintro (hx | ⟨hx, -⟩)
    · obtain ⟨y, hy, rfl⟩ := List.mem_map.mp hx
      exact ((mem_keptLanes _ _ _).mp hy).2.1
    · exact hx
  · intro hx
    by_cases hk : x ∈ (keptLanes old failed).map Prod.fst
    · exact .inl hk
    · exact .inr ⟨hx, by simpa using hk⟩

/-- No repair lane carries two lanes. -/
theorem repairedLanes_snd_nodup : ((repairedLanes old failed).map Prod.snd).Nodup := by
  rw [repairedLanes_snd hfst hsnd h4]
  have hfree : (freeLanes old failed).Nodup := (by decide : [64, 65, 66, 67].Nodup).filter _
  refine List.nodup_append.mpr ⟨keptLanes_snd_nodup hsnd, hfree.sublist (List.take_sublist _ _), fun a ha b hb hab => ?_⟩
  exact (mem_freeLanes (List.take_subset _ _ hb)).2 (hab ▸ ha)

theorem repairedLanes_range : ∀ x ∈ repairedLanes old failed, 64 ≤ x.2 ∧ x.2 ≤ 67 := by
  intro x hx
  have hm : x.2 ∈ [64, 65, 66, 67] := by
    have h := List.mem_map_of_mem (f := Prod.snd) hx
    rw [repairedLanes_snd hfst hsnd h4] at h
    rcases List.mem_append.mp h with h | h
    · obtain ⟨y, hy, hyx⟩ := List.mem_map.mp h
      exact hyx ▸ ((mem_keptLanes _ _ _).mp hy).2.2
    · exact (mem_freeLanes (List.take_subset _ _ h)).1
  simp only [List.mem_cons, List.not_mem_nil, or_false] at hm
  omega

end Mapped

/-- A mapping of a failed lane to a repair lane stays. -/
theorem repairedLanes_keeps {old : List (Nat × Nat)} {failed : List Nat} (hf : ∀ l ∈ failed, l < 64) {x : Nat × Nat} (hx : x ∈ old)
    (hfx : x.1 ∈ failed) (h64 : 64 ≤ x.2) (h67 : x.2 ≤ 67) : x ∈ repairedLanes old failed := by
  refine List.mem_append_left _ ((mem_keptLanes _ _ _).mpr ⟨hx, (mem_failedData hf _).mpr hfx, ?_⟩)
  simp only [List.mem_cons, List.not_mem_nil, or_false]
  omega

/-! ### Registers of the modules -/

/-- An offset outside the pile blocks is its own home; inside them the home stays inside. -/
theorem regHome_bounds (o : Nat) : regHome o = o ∨ (0x2000200 ≤ regHome o ∧ regHome o < 0x2000220 ∧ 0x2000000 ≤ o ∧ o < 0x2400000) := by
  unfold regHome
  simp only [Bool.and_eq_true, decide_eq_true_eq]
  split
  · right
    omega
  · exact .inl rfl

/-- Registers between the MSI-X tables and the error log, and those before the tables, are no part of the log. -/
theorem logReg_home_false {o : Nat} (h : o < 0x210800 ∨ (0x211810 ≤ o ∧ o < 0x3C00000)) : logReg (regHome o) = false := by
  have hb := regHome_bounds o
  simp only [logReg, Bool.or_eq_false_iff, Bool.and_eq_false_iff, decide_eq_false_iff_not]
  omega

theorem modStatus_home {hub n : Nat} (hh : hub < 2) (hn : n < 120) : regHome (Reg.d2dModStatus hub n) = Reg.d2dModStatus hub n :=
  regHome_id (.inl (by unfold Reg.d2dModStatus; omega))

theorem d2dSummary_home {hub : Nat} (hh : hub < 2) : regHome (Reg.d2dSummary hub) = Reg.d2dSummary hub :=
  regHome_id (.inl (by unfold Reg.d2dSummary; omega))

theorem modStatus_noLog {hub n : Nat} (hh : hub < 2) (hn : n < 120) : logReg (regHome (Reg.d2dModStatus hub n)) = false :=
  logReg_home_false (.inr (by unfold Reg.d2dModStatus; omega))

theorem d2dSummary_noLog {hub : Nat} (hh : hub < 2) : logReg (regHome (Reg.d2dSummary hub)) = false :=
  logReg_home_false (.inr (by unfold Reg.d2dSummary; omega))

theorem modStatus_ne {hub n m : Nat} (hh : hub < 2) (hn : n < 120) (hm : m < 120) (h : m ≠ n) :
    regHome (Reg.d2dModStatus hub m) ≠ regHome (Reg.d2dModStatus hub n) := by
  rw [modStatus_home hh hm, modStatus_home hh hn]
  unfold Reg.d2dModStatus
  omega

theorem modStatus_ne_summary {hub n : Nat} (hh : hub < 2) (hn : n < 120) :
    regHome (Reg.d2dModStatus hub n) ≠ regHome (Reg.d2dSummary hub) := by
  rw [modStatus_home hh hn, d2dSummary_home hh]
  unfold Reg.d2dModStatus Reg.d2dSummary
  omega

theorem beatCtl_ne_modStatus {hub n : Nat} (hh : hub < 2) (hn : n < 120) :
    regHome Reg.beatCtl ≠ regHome (Reg.d2dModStatus hub n) := by
  rw [modStatus_home hh hn, regHome_id (.inl (by decide))]
  unfold Reg.d2dModStatus Reg.beatCtl
  omega

/-- Another field of the same register. -/
theorem fld_setFld_apart (s : State) {o hi lo a b : Nat} (v : Nat) (h : lo ≤ hi) (hab : b ≤ a) (ha : a < 32) (hd : a < lo ∨ hi < b) :
    (s.setFld o hi lo v).fld o a b = s.fld o a b := by
  unfold State.fld
  rw [reg_setFld, bits_withBits_ne _ _ h hab ha hd]

/-! ### The modules' own state -/

@[simp] theorem modSt_setMod_self (s : State) (hub n : Nat) (m : ModSt) : (s.setMod hub n m).modSt hub n = m := by
  simp [State.modSt, State.setMod]

theorem modSt_setMod_ne (s : State) {hub h n : Nat} (m : ModSt) (hne : hub ≠ h) : (s.setMod h n m).modSt hub n = s.modSt hub n := by
  simp only [State.modSt, State.setMod]
  rw [getKey_putKey_ne _ _ (by omega)]

@[simp] theorem modShared_setShared (s : State) (hub n : Nat) (m : ModSt) : (s.setShared hub n m).modShared hub n = m :=
  modSt_setMod_self s (modHome hub n) n m

theorem modSt_congr {s t : State} (h : t.mods = s.mods) (hub n : Nat) : t.modSt hub n = s.modSt hub n := by
  unfold State.modSt
  rw [h]

/-- A module that is no seam module keeps all its state at its own hub. -/
theorem modHome_own {hub n : Nat} (hn : n < 96) : modHome hub n = hub := if_neg (by omega)

theorem modEnds_own {hub n : Nat} (hn : n < 96) : modEnds hub n = [(hub, n)] := if_neg (by omega)

theorem modShared_own (s : State) {hub n : Nat} (hn : n < 96) : s.modShared hub n = s.modSt hub n := by
  unfold State.modShared
  rw [modHome_own hn]

/-- While RUN is 1 the changes of modules wait for the gap. -/
theorem modulesNow_running {s : State} (h : s.running = true) : s.modulesNow = s := if_pos h

/-- Logging and marking an event leaves the modules' state and every register outside the log alone. -/
theorem onlyLog_mods {offs : List Nat} {s t : State} (h : onlyLog offs s t) : t.mods = s.mods := by
  rw [h.1]

theorem running_of_onlyLog {s t : State} (h : onlyLog [] s t) : t.running = s.running :=
  bit_of_reg (h.2.1 _ (by decide) (List.not_mem_nil)) _

/-! ### FLIT_CRC_FAIL (R35, R42) -/

/-- The state in which a failed flit has been counted: one more failure, and a wish for repair at the 32nd or at the eighth of one
flit. -/
def flitCounted (s : State) (hub n nth : Nat) : State :=
  let m := s.modSt hub n
  let t := s.setMod hub n { m with crc := m.crc + 1 }
  let h := t.modShared hub n
  t.setShared hub n { h with want := h.want || decide (8 ≤ nth) || decide (32 ≤ m.crc + 1) }

theorem exec_flitCrcFail {s : State} {hub n : Nat} (nth : Nat) (hh : hub < 2) (hn : n < 120) (hm : s.modState hub n = 2) :
    exec (.flitCrcFail hub n nth) s = .next ((if decide (8 ≤ nth) then
      (flitCounted s hub n nth).raise { code := 0x1004, cls := 1, unit := modUnit hub n }
      else (flitCounted s hub n nth).bumpSat (Reg.d2dModStatus hub n) 23 8 1).modulesNow) :=
  congrArg Host.Outcome.next (if_pos ⟨hm, hn, hh⟩)

theorem flitCounted_counts (s : State) (hub n nth : Nat) :
    ((flitCounted s hub n nth).modSt hub n).crc = (s.modSt hub n).crc + 1 ∧
      ((flitCounted s hub n nth).modShared hub n).want =
        ((s.modShared hub n).want || decide (8 ≤ nth) || decide (32 ≤ (s.modSt hub n).crc + 1)) := by
  unfold flitCounted
  by_cases he : modHome hub n = hub
  · simp [State.modShared, State.setShared, he]
  · refine ⟨?_, ?_⟩
    · unfold State.setShared
      rw [modSt_setMod_ne _ _ (Ne.symm he), modSt_setMod_self]
    · rw [modShared_setShared]
      unfold State.modShared
      rw [modSt_setMod_ne _ _ he]

theorem flitCounted_frame (s : State) (hub n nth : Nat) :
    flitCounted s hub n nth = { s with mods := (flitCounted s hub n nth).mods } := rfl

/-- A failure that is not the eighth of its flit is counted in the module's register and logs nothing. -/
theorem flitCrcFail_short {s : State} {hub n nth : Nat} (hh : hub < 2) (hn : n < 120) (hm : s.modState hub n = 2)
    (hr : s.running = true) (h8 : nth < 8) :
    exec (.flitCrcFail hub n nth) s = .next ((flitCounted s hub n nth).bumpSat (Reg.d2dModStatus hub n) 23 8 1) := by
  rw [exec_flitCrcFail nth hh hn hm, if_neg (by simpa using h8), modulesNow_running]
  exact (running_setReg _ _ (beatCtl_ne_modStatus hh hn)).trans hr

/-- The eighth failure of a flit is an event of class RP. -/
theorem flitCrcFail_eighth {s : State} {hub n nth : Nat} (hh : hub < 2) (hn : n < 120) (hm : s.modState hub n = 2)
    (hr : s.running = true) (h8 : 8 ≤ nth) :
    exec (.flitCrcFail hub n nth) s =
      .next (((flitCounted s hub n nth).logEntry { code := 0x1004, cls := 1, unit := modUnit hub n }).markFault
        { code := 0x1004, cls := 1, unit := modUnit hub n }) := by
  rw [exec_flitCrcFail nth hh hn hm, if_pos (by simpa using h8), raise_rp _ rfl, modulesNow_running]
  refine (bit_of_reg (reg_congr (markFault_regs _ _) _) _).trans ?_
  exact (running_of_onlyLog (onlyLog_logEntry _ _)).trans hr

theorem markFault_mods (s : State) (e : Ev) : (s.markFault e).mods = s.mods := by
  unfold State.markFault
  dsimp only
  split
  · split <;> rfl
  · rfl

theorem flitCrcFail_acts {s : State} {hub n : Nat} (nth : Nat) (hh : hub < 2) (hn : n < 120) (hm : s.modState hub n = 2)
    (hr : s.running = true) :
    ∃ t, exec (.flitCrcFail hub n nth) s = .next t ∧ (t.modSt hub n).crc = (s.modSt hub n).crc + 1 ∧
      (t.modShared hub n).want = ((s.modShared hub n).want || decide (8 ≤ nth) || decide (32 ≤ (s.modSt hub n).crc + 1)) ∧
      (nth < 8 → onlyRegs [Reg.d2dModStatus hub n] { s with mods := t.mods } t ∧
        t.fld (Reg.d2dModStatus hub n) 23 8 = min (s.fld (Reg.d2dModStatus hub n) 23 8 + 1) 65535) ∧
      (8 ≤ nth → t.reg Reg.errLogHead = s.reg Reg.errLogHead + 1) := by
  obtain ⟨hcrc, hwant⟩ := flitCounted_counts s hub n nth
  by_cases h8 : nth < 8
  · refine ⟨_, flitCrcFail_short hh hn hm hr h8, hcrc, hwant, fun _ => ⟨?_, ?_⟩, fun h => absurd h (by omega)⟩
    · exact onlyRegs_setFld (flitCounted s hub n nth) _ _ _ (List.mem_singleton_self _)
    · refine (fld_setFld_self _ _ (by decide) (by decide)).trans ?_
      rw [show (flitCounted s hub n nth).fld (Reg.d2dModStatus hub n) 23 8 = s.fld (Reg.d2dModStatus hub n) 23 8 from rfl]
      omega
  · refine ⟨_, flitCrcFail_eighth hh hn hm hr (by omega), ?_, ?_, fun h => absurd h h8, fun _ => ?_⟩
    · rw [modSt_congr ((markFault_mods _ _).trans (onlyLog_mods (onlyLog_logEntry (offs := []) _ _))), hcrc]
    · rw [← hwant]
      exact congrArg ModSt.want (modSt_congr ((markFault_mods _ _).trans (onlyLog_mods (onlyLog_logEntry (offs := []) _ _))) _ _)
    · rw [reg_congr (markFault_regs _ _), logEntry_head]
      rfl

/-! ### MODULE_RETRAIN_DONE (R44) -/

theorem onlyLog_foldl {α : Type} {f : State → α → State} (h : ∀ s x, onlyLog [] s (f s x)) (l : List α) (s : State) :
    onlyLog [] s (l.foldl f s) := by
  induction l generalizing s with
  | nil => exact onlyLog_refl _ _
  | cons x xs ih => exact onlyLog_trans (h s x) (ih _)

/-- The module's register after a repair at full width, before the newly mapped lanes are logged. -/
def lanesShown (s : State) (hub n count : Nat) (fresh : List Nat) : State :=
  let r := Reg.d2dModStatus hub n
  let s := ((s.setFld r 2 2 0).setFld r 3 3 0).setFld r 6 4 count
  match fresh.getLast? with
  | some l => s.setFld r 30 24 l
  | none => s

theorem putLanes_full (s : State) {hub n : Nat} (hn : n < 96) (mapped : List (Nat × Nat)) (fresh : List Nat) :
    s.putLanes hub n 0 0 mapped fresh = fresh.foldl (fun s _ => s.logEntry { code := 0x1001, cls := 0, unit := modUnit hub n })
      (lanesShown (s.setShared hub n { s.modShared hub n with mapped := mapped }) hub n mapped.length fresh) := by
  unfold State.putLanes lanesShown
  simp only [modEnds_own hn, List.foldl_cons, List.foldl_nil]
  rfl

/-- Full width, the count of the mapped lanes, and STATE as it was. -/
theorem lanesShown_fields (s : State) (hub n count : Nat) (fresh : List Nat) :
    onlyRegs [Reg.d2dModStatus hub n] s (lanesShown s hub n count fresh) ∧
      (lanesShown s hub n count fresh).modState hub n = s.modState hub n ∧
      (lanesShown s hub n count fresh).fld (Reg.d2dModStatus hub n) 2 2 = 0 ∧
      (lanesShown s hub n count fresh).fld (Reg.d2dModStatus hub n) 6 4 = count % 8 := by
  have hm := List.mem_singleton_self (Reg.d2dModStatus hub n)
  have h3 := onlyRegs_trans (onlyRegs_trans (onlyRegs_setFld s 2 2 0 hm) (onlyRegs_setFld _ 3 3 0 hm)) (onlyRegs_setFld _ 6 4 count hm)
  have hfields : ∀ t : State, t = ((s.setFld (Reg.d2dModStatus hub n) 2 2 0).setFld (Reg.d2dModStatus hub n) 3 3 0).setFld
      (Reg.d2dModStatus hub n) 6 4 count → t.modState hub n = s.modState hub n ∧ t.fld (Reg.d2dModStatus hub n) 2 2 = 0 ∧
      t.fld (Reg.d2dModStatus hub n) 6 4 = count % 8 := by
    rintro t rfl
    refine ⟨?_, ?_, fld_setFld_self _ _ (by decide) (by decide)⟩
    · unfold State.modState
      rw [fld_setFld_apart, fld_setFld_apart, fld_setFld_apart] <;> decide
    · rw [fld_setFld_apart _ _ (by decide) (by decide) (by decide) (by decide),
        fld_setFld_apart _ _ (by decide) (by decide) (by decide) (by decide), fld_setFld_self _ _ (by decide) (by decide), Nat.zero_mod]
  obtain ⟨hstate, hwidth, hcount⟩ := hfields _ rfl
  unfold lanesShown
  cases fresh.getLast? with
  | none => exact ⟨h3, hstate, hwidth, hcount⟩
  | some l =>
    refine ⟨onlyRegs_trans h3 (onlyRegs_setFld _ 30 24 l hm), ?_, ?_, ?_⟩
    · exact (fld_setFld_apart _ _ (by decide) (by decide) (by decide) (by decide)).trans hstate
    · exact (fld_setFld_apart _ _ (by decide) (by decide) (by decide) (by decide)).trans hwidth
    · exact (fld_setFld_apart _ _ (by decide) (by decide) (by decide) (by decide)).trans hcount

theorem exec_moduleRetrainDone {s : State} {hub n : Nat} {failed : List Nat} (hh : hub < 2) (hn : n < 96) (hm : s.modState hub n = 1)
    (hf : ∀ l ∈ failed, l < 64) (h4 : (failedData failed).length ≤ 4) :
    exec (.moduleRetrainDone hub n failed) s = .next
      (let t := s.putLanes hub n 0 0 (repairedLanes (s.modSt hub n).mapped failed) (freshLanes (s.modSt hub n).mapped failed)
       (t.setShared hub n { t.modShared hub n with back := true }).modulesNow) := by
  have hn' : n < 120 := by omega
  show Host.Outcome.next (applyModuleRetrainDone hub n failed s) = _
  rw [applyModuleRetrainDone, if_pos ⟨hm, hn', hh⟩, modShared_own s hn, laneFix_full _ _ hf h4]
  rfl

/-- What a repair at full width leaves: the mappings, the wish to return, and the module's register. -/
theorem moduleRetrainDone_full {s : State} {hub n : Nat} {failed : List Nat} (hh : hub < 2) (hn : n < 96) (hm : s.modState hub n = 1)
    (hr : s.running = true) (hf : ∀ l ∈ failed, l < 64) (h4 : (failedData failed).length ≤ 4) :
    ∃ t, exec (.moduleRetrainDone hub n failed) s = .next t ∧ (t.modSt hub n).back = true ∧
      (t.modSt hub n).mapped = repairedLanes (s.modSt hub n).mapped failed ∧ t.modState hub n = 1 ∧
      t.bit (Reg.d2dModStatus hub n) 2 = false ∧
      t.fld (Reg.d2dModStatus hub n) 6 4 = (repairedLanes (s.modSt hub n).mapped failed).length % 8 := by
  have hn' : n < 120 := by omega
  let mapped := repairedLanes (s.modSt hub n).mapped failed
  let fresh := freshLanes (s.modSt hub n).mapped failed
  let a := s.setShared hub n { s.modShared hub n with mapped := mapped }
  obtain ⟨⟨hframe, hkept⟩, hstate, hwidth, hcount⟩ := lanesShown_fields a hub n mapped.length fresh
  have hlog := onlyLog_foldl (fun s _ => onlyLog_logEntry s { code := 0x1001, cls := 0, unit := modUnit hub n }) fresh
    (lanesShown a hub n mapped.length fresh)
  rw [← putLanes_full s hn] at hlog
  have hreg : ∀ i j, (s.putLanes hub n 0 0 mapped fresh).fld (Reg.d2dModStatus hub n) i j =
      (lanesShown a hub n mapped.length fresh).fld (Reg.d2dModStatus hub n) i j := fun i j =>
    fld_of_reg (hlog.2.1 _ (modStatus_noLog hh hn') (List.not_mem_nil)) i j
  have hmods : (s.putLanes hub n 0 0 mapped fresh).modShared hub n = { s.modShared hub n with mapped := mapped } := by
    have h : (s.putLanes hub n 0 0 mapped fresh).mods = a.mods := (onlyLog_mods hlog).trans (by rw [hframe])
    exact (modSt_congr h _ _).trans (modShared_setShared s hub n _)
  have hrun : (s.putLanes hub n 0 0 mapped fresh).running = true := by
    rw [running_of_onlyLog hlog, ← hr]
    exact bit_of_reg (hkept _ (by simpa using beatCtl_ne_modStatus hh hn')) _
  refine ⟨_, exec_moduleRetrainDone hh hn hm hf h4, ?_⟩
  dsimp only
  rw [modulesNow_running (by exact hrun), ← modShared_own _ hn, modShared_setShared]
  refine ⟨rfl, congrArg ModSt.mapped hmods, ?_, ?_, ?_⟩
  · exact (hreg 1 0).trans (hstate.trans hm)
  · exact decide_eq_false fun h1 => absurd (((hreg 2 2).trans hwidth).symm.trans h1) (by decide)
  · exact (hreg 6 4).trans hcount

/-! ### MODULE_RETRAIN_TIMEOUT (R47, R48) -/

theorem onlyRegs_showModules (s : State) (hub : Nat) : onlyRegs [Reg.d2dSummary hub] s (s.showModules hub) := by
  have hm := List.mem_singleton_self (Reg.d2dSummary hub)
  unfold State.showModules
  exact onlyRegs_trans (onlyRegs_trans (onlyRegs_trans (onlyRegs_setFld _ _ _ _ hm) (onlyRegs_setFld _ _ _ _ hm))
    (onlyRegs_setFld _ _ _ _ hm)) (onlyRegs_setBit _ _ _ hm)

theorem onlyRegs_mono {a b : List Nat} {s t : State} (h : onlyRegs a s t) (hab : ∀ o ∈ a, o ∈ b) : onlyRegs b s t := by
  obtain ⟨hframe, hkept⟩ := h
  refine ⟨hframe, fun o ho => hkept o fun hm => ho ?_⟩
  obtain ⟨x, hx, hxo⟩ := List.mem_map.mp hm
  exact List.mem_map.mpr ⟨x, hab x hx, hxo⟩

theorem onlyRegs_mods {offs : List Nat} {s t : State} (h : onlyRegs offs s t) : t.mods = s.mods := by rw [h.1]

theorem onlyRegs_test {offs : List Nat} {s t : State} (h : onlyRegs offs s t) : t.test = s.test := by rw [h.1]

/-- A module that is no seam module takes a STATE in the registers of its own hub. -/
theorem setModState_own (s : State) {hub n : Nat} (st : Nat) (hn : n < 96) :
    s.setModState hub n st = (s.setFld (Reg.d2dModStatus hub n) 1 0 st).showModules hub := by
  unfold State.setModState
  rw [modEnds_own hn]
  rfl

theorem setModState_acts (s : State) {hub n st : Nat} (hh : hub < 2) (hn : n < 96) (hst : st < 4) :
    onlyRegs [Reg.d2dModStatus hub n, Reg.d2dSummary hub] s (s.setModState hub n st) ∧ (s.setModState hub n st).modState hub n = st := by
  have hshow := onlyRegs_showModules (s.setFld (Reg.d2dModStatus hub n) 1 0 st) hub
  rw [setModState_own s st hn]
  refine ⟨onlyRegs_trans (onlyRegs_setFld s _ _ _ (by simp)) (onlyRegs_mono hshow (by simp)), ?_⟩
  refine (fld_of_reg (hshow.2 _ (by simpa using modStatus_ne_summary hh (by omega))) _ _).trans ?_
  rw [fld_setFld_self _ _ (by decide) (by decide)]
  exact Nat.mod_eq_of_lt hst

/-- R48: the first transition sets LINK_DEGRADED in the module's register and in the summary of its hub. -/
theorem degrade_acts (s : State) {hub n : Nat} (hh : hub < 2) (hn : n < 96) :
    onlyRegs [Reg.d2dModStatus hub n, Reg.d2dSummary hub] { s with mods := (s.degrade hub n).mods } (s.degrade hub n) ∧
      (s.degrade hub n).modState hub n = s.modState hub n ∧
      ((s.modSt hub n).degraded = false →
        (s.degrade hub n).bit (Reg.d2dModStatus hub n) 7 = true ∧ (s.degrade hub n).bit (Reg.d2dSummary hub) 22 = true) := by
  have hne := modStatus_ne_summary hh (show n < 120 by omega)
  unfold State.degrade
  rw [modShared_own s hn]
  split
  · rename_i hd
    exact ⟨⟨rfl, fun _ _ => rfl⟩, rfl, fun h => by rw [h] at hd; cases hd⟩
  · simp only [modEnds_own hn, List.foldl_cons, List.foldl_nil]
    refine ⟨onlyRegs_trans (onlyRegs_setBit _ _ _ (by simp)) (onlyRegs_setBit _ _ _ (by simp)), ?_, fun _ => ⟨?_, ?_⟩⟩
    · refine (fld_of_reg (reg_setBit_ne _ _ _ hne) _ _).trans ?_
      exact fld_setFld_apart _ _ (by decide) (by decide) (by decide) (by decide)
    · rw [bit_of_reg (reg_setBit_ne _ _ _ hne)]
      exact bit_setBit_self _ _ (by decide)
    · exact bit_setBit_self _ _ (by decide)

/-- The modules of a connection of a hub's own modules. -/
theorem connMods_lt {n m : Nat} (hn : n < 96) (hm : m ∈ connMods n) : m < 120 := by
  obtain ⟨i, hi, rfl⟩ := List.mem_map.mp hm
  rw [List.mem_range] at hi
  unfold connOf at hi ⊢
  by_cases h24 : n < 24
  · rw [if_pos h24] at hi ⊢; dsimp only at hi ⊢; omega
  · by_cases h48 : n < 48
    · rw [if_neg h24, if_pos h48] at hi ⊢; dsimp only at hi ⊢; omega
    · rw [if_neg h24, if_neg h48, if_pos hn] at hi ⊢; dsimp only at hi ⊢; omega

/-- A connection with a module that is not fenced is not lost. -/
theorem connCheck_kept {s : State} {hub n m : Nat} (hm : m ∈ connMods n) (h : s.modState hub m ≠ 3) : s.connCheck hub n = s := by
  refine if_neg fun hall => h ?_
  simpa using List.all_eq_true.mp hall m hm

theorem takeLoss_none {s : State} (h : s.test.loss = none) : s.takeLoss = s := by
  simp only [State.takeLoss, h]

theorem exec_moduleRetrainTimeout {s : State} {hub n : Nat} (hh : hub < 2) (hn : n < 120) (hm : s.modState hub n = 1) :
    exec (.moduleRetrainTimeout hub n) s = .next (((s.fenceModule hub n 0x1003 0).modulesNow).takeLoss) :=
  congrArg Host.Outcome.next (if_pos ⟨hm, hn, hh⟩)

/-- The fence of a module whose connection keeps another module: STATE 3, the first transition, and one entry of the log. -/
theorem fenceModule_kept {s : State} {hub n m : Nat} (code cls : Nat) (hh : hub < 2) (hn : n < 96) (hm : m ∈ connMods n) (hne : m ≠ n)
    (hup : s.modState hub m ≠ 3) :
    (s.fenceModule hub n code cls).modState hub n = 3 ∧ (s.fenceModule hub n code cls).reg Reg.errLogHead = s.reg Reg.errLogHead + 1 ∧
      ((s.modSt hub n).degraded = false → (s.fenceModule hub n code cls).bit (Reg.d2dModStatus hub n) 7 = true ∧
        (s.fenceModule hub n code cls).bit (Reg.d2dSummary hub) 22 = true) ∧
      (s.fenceModule hub n code cls).running = s.running ∧ (s.fenceModule hub n code cls).test = s.test := by
  have hn' : n < 120 := by omega
  have hm' := connMods_lt hn hm
  let a := s.setModState hub n 3
  let b := a.degrade hub n
  let c := b.setShared hub n { b.modShared hub n with want := false, back := false }
  let d := c.logEntry { code := code, cls := cls, unit := modUnit hub n }
  obtain ⟨ha, hastate⟩ := setModState_acts s hh hn (show 3 < 4 by decide)
  obtain ⟨hb, hbstate, hbdegraded⟩ := degrade_acts a hh hn
  have hlog : onlyLog [] c d := onlyLog_logEntry _ _
  have hreg : ∀ o, regHome o ≠ regHome (Reg.d2dModStatus hub n) → regHome o ≠ regHome (Reg.d2dSummary hub) → c.reg o = s.reg o :=
    fun o h1 h2 => (hb.2 o (by simp [h1, h2])).trans (ha.2 o (by simp [h1, h2]))
  have hother : d.modState hub m ≠ 3 := by
    have h1 : d.modState hub m = c.modState hub m := fld_of_reg (hlog.2.1 _ (modStatus_noLog hh hm') (List.not_mem_nil)) _ _
    have h2 : c.modState hub m = s.modState hub m :=
      fld_of_reg (hreg _ (modStatus_ne hh hn' hm' hne) (modStatus_ne_summary hh hm')) _ _
    rwa [h1, h2]
  have hf : s.fenceModule hub n code cls = d := connCheck_kept hm hother
  have hdeg : (a.modSt hub n).degraded = (s.modSt hub n).degraded := by rw [modSt_congr (onlyRegs_mods ha)]
  have hsum : ∀ o, logReg (regHome o) = false → d.reg o = b.reg o := fun o ho => hlog.2.1 o ho (List.not_mem_nil)
  have hlow : ∀ o, (o < 0x400000 ∨ 0x500000 + 0x10000 ≤ o) → regHome o = o → c.reg o = s.reg o := fun o ho hhome => by
    refine hreg o ?_ ?_
    · rw [hhome, modStatus_home hh hn']; unfold Reg.d2dModStatus; omega
    · rw [hhome, d2dSummary_home hh]; unfold Reg.d2dSummary; omega
  rw [hf]
  refine ⟨?_, ?_, fun h => ?_, ?_, ?_⟩
  · exact (fld_of_reg (hsum _ (modStatus_noLog hh hn')) _ _).trans (hbstate.trans hastate)
  · exact (logEntry_head c _).trans (by rw [hlow _ (by decide) (regHome_id (.inr (by decide)))])
  · obtain ⟨h7, h22⟩ := hbdegraded (hdeg.trans h)
    exact ⟨(bit_of_reg (hsum _ (modStatus_noLog hh hn')) _).trans h7, (bit_of_reg (hsum _ (d2dSummary_noLog hh)) _).trans h22⟩
  · rw [running_of_onlyLog hlog]
    exact bit_of_reg (hlow _ (by decide) (regHome_id (.inl (by decide)))) _
  · have hd : d.test = c.test := by rw [hlog.1]
    have hb' : b.test = a.test := onlyRegs_test (s := { a with mods := b.mods }) hb
    exact hd.trans (hb'.trans (onlyRegs_test ha))

/-! ### O13 -/

/-- Settles O13: the count of a failed flit, the lanes of a repair at full width, and the fence of a module that has not retrained. -/
theorem serrinModulesRepair : Obligations.SerrinModulesRepair := by
  unfold Obligations.SerrinModulesRepair
  refine ⟨fun hub n nth s hh hn hm hr => flitCrcFail_acts nth hh hn hm hr, fun hub n failed s hh hn hm hr hf h4 hfst hsnd => ?_,
    fun hub n s hh hn hm hr hl ⟨m, hmc, hne, hup⟩ => ?_⟩
  · obtain ⟨t, he, hback, hmapped, hstate, hwidth, hcount⟩ := moduleRetrainDone_full hh hn hm hr hf h4
    rw [repairedLanes_length hfst hsnd h4, Nat.mod_eq_of_lt (show (failedData failed).length < 8 by have := h4; unfold failedData; omega)]
      at hcount
    refine ⟨t, he, hback, ?_⟩
    rw [hmapped]
    exact ⟨mem_repairedLanes_fst hfst hsnd h4 hf, repairedLanes_snd_nodup hfst hsnd h4, repairedLanes_range hfst hsnd h4,
      fun x hx hfx h64 h67 => repairedLanes_keeps hf hx hfx h64 h67, hstate, hwidth, hcount⟩
  · obtain ⟨hstate, hhead, hdeg, hrun, htest⟩ := fenceModule_kept 0x1003 0 hh hn hmc hne hup
    refine ⟨_, exec_moduleRetrainTimeout hh (by omega) hm, ?_⟩
    rw [modulesNow_running (hrun.trans hr), takeLoss_none (by rw [htest, hl])]
    exact ⟨hstate, hhead, hdeg⟩

end Sys2Proof.Laws

/-! # Start-up, POWER_OK and the dies' parameter blocks (O58) -/

namespace Sys2Proof.Laws

open Sys2Proof Sys2Proof.Machine

/-! ### Everything but one part of the state -/

/-- Every part of the state but one. -/
def allBut (q : StatePart) : StatePart → Bool := fun p => decide (p ≠ q)

theorem covers_allBut {q : StatePart} {l : List StatePart} (h : l.contains q = false) : covers (allBut q) l := fun p hp =>
  decide_eq_true fun e => by rw [e, h] at hp; cases hp

theorem esz_of_keeps {s t : State} (h : Keeps (allBut .esz) s t) : t.esz = s.esz := h.parts .esz (by decide)

theorem pkg_of_keeps {s t : State} (h : Keeps (allBut .pkg) s t) : t.pkg = s.pkg := h.parts .pkg (by decide)

theorem power_of_keeps {s t : State} (h : Keeps (allBut .power) s t) : t.power = s.power := h.parts .power (by decide)

theorem memoryKept_of_keeps {s t : State} (h : Keeps (allBut .memory) s t) : memoryKept s t := peek_congr (h.parts .memory (by decide))

/-! ### DEV_STATE -/

/-- A fold leaves a register alone that each of its steps leaves alone. -/
theorem reg_foldl {α : Type} {f : State → α → State} {o : Nat} {l : List α} (h : ∀ s, ∀ x ∈ l, (f s x).reg o = s.reg o) (s : State) :
    (l.foldl f s).reg o = s.reg o := by
  induction l generalizing s with
  | nil => rfl
  | cons x xs ih => exact (ih (fun t y hy => h t y (List.mem_cons_of_mem x hy)) _).trans (h s x List.mem_cons_self)

/-- DEV_STATE is a register of its own, below every register of a unit. -/
theorem devState_home_ne {o : Nat} (h : o < 0x10 ∨ 0x14 ≤ o) : regHome Reg.devState ≠ regHome o := by
  have hb := regHome_bounds o
  rw [regHome_id (.inl (by decide)), show Reg.devState = 0x10 from rfl]
  omega

theorem setDevState_devState (s : State) {n : Nat} (hn : n < 16) : (s.setDevState n).devState = n := by
  unfold State.setDevState
  split
  · assumption
  · refine (fld_of_reg (msixBoth_reg _ (by decide) fun p w _ _ => devState_home_ne (.inr ?_)) _ _).trans ?_
    · unfold Reg.msixPba; omega
    · rw [fld_setFld_self _ _ (by decide) (by decide)]
      exact Nat.mod_eq_of_lt hn

theorem logEntry_devState (s : State) (e : Ev) : (s.logEntry e).devState = s.devState := fld_of_reg (logEntry_reg s e (by decide)) _ _

/-- R533, R544: a device that fails has DEV_STATE FAILED and the code in LAST_CODE. -/
theorem fail_failed {s : State} (code : Nat) (h : s.devState ≠ 7) :
    (s.fail code).devState = 7 ∧ (s.fail code).fld Reg.devState 31 16 = code % 2 ^ 16 := by
  rw [State.fail, if_neg h]
  exact ⟨(fld_setFld_apart _ _ (by decide) (by decide) (by decide) (by decide)).trans (setDevState_devState _ (by decide)),
    fld_setFld_self _ _ (by decide) (by decide)⟩

theorem raise_fatal (s : State) {e : Ev} (h : e.cls = 4) : s.raise e = (s.logEntry e).fail e.code := by
  simp only [State.raise, h]
  rfl

/-- An event of class FT brings FAILED with its code, and leaves memory, Eszoja and the package's facts alone. -/
theorem raise_failed {s : State} {e : Ev} (hc : e.cls = 4) (h : s.devState ≠ 7) :
    (s.raise e).devState = 7 ∧ (s.raise e).fld Reg.devState 31 16 = e.code % 2 ^ 16 ∧ memoryKept s (s.raise e) ∧
      (s.raise e).esz = s.esz ∧ (s.raise e).pkg = s.pkg := by
  refine ⟨?_, ?_, memoryKept_of_keeps (keeps_raise s e (keeps_refl s) (covers_allBut rfl)),
    esz_of_keeps (keeps_raise s e (keeps_refl s) (covers_allBut rfl)), pkg_of_keeps (keeps_raise s e (keeps_refl s) (covers_allBut rfl))⟩
  all_goals rw [raise_fatal s hc]
  · exact (fail_failed _ (by rwa [logEntry_devState])).1
  · exact (fail_failed _ (by rwa [logEntry_devState])).2

/-! ### What the steps of start-up leave alone -/

/-- DEV_STATE and the package's facts are the same. -/
structure DevKept (s t : State) : Prop where
  reg : t.reg Reg.devState = s.reg Reg.devState
  pkg : t.pkg = s.pkg

theorem DevKept.devState {s t : State} (h : DevKept s t) : t.devState = s.devState := fld_of_reg h.reg _ _

theorem devKept_refl (s : State) : DevKept s s := ⟨rfl, rfl⟩

theorem devKept_trans {s t u : State} (h : DevKept s t) (g : DevKept t u) : DevKept s u := ⟨g.reg.trans h.reg, g.pkg.trans h.pkg⟩

/-- The same from a state that has the same registers and package. -/
theorem devKept_from {s t u : State} (hr : t.regs = s.regs) (hp : t.pkg = s.pkg) (h : DevKept t u) : DevKept s u :=
  devKept_trans ⟨reg_congr hr _, hp⟩ h

theorem devKept_setReg (s : State) {o : Nat} (v : Word) (h : o < 0x10 ∨ 0x14 ≤ o) : DevKept s (s.setReg o v) :=
  ⟨reg_setReg_ne s v (devState_home_ne h), rfl⟩

theorem devKept_setFld (s : State) {o : Nat} (hi lo v : Nat) (h : o < 0x10 ∨ 0x14 ≤ o) : DevKept s (s.setFld o hi lo v) :=
  devKept_setReg s _ h

theorem devKept_setBit (s : State) {o : Nat} (i : Nat) (b : Bool) (h : o < 0x10 ∨ 0x14 ≤ o) : DevKept s (s.setBit o i b) :=
  devKept_setReg s _ h

theorem devKept_logEntry (s : State) (e : Ev) : DevKept s (s.logEntry e) :=
  ⟨logEntry_reg s e (by decide), pkg_of_keeps (keeps_logEntry s e (keeps_refl s) (covers_allBut rfl))⟩

theorem devKept_foldl {α : Type} {f : State → α → State} (h : ∀ s x, DevKept s (f s x)) (l : List α) (s : State) : DevKept s (l.foldl f s) := by
  induction l generalizing s with
  | nil => exact devKept_refl s
  | cons x xs ih => exact devKept_trans (h s x) (ih _)

theorem devKept_ite {c : Prop} [Decidable c] {s t : State} (h : DevKept s t) : DevKept s (if c then t else s) := by
  split
  · exact h
  · exact devKept_refl s

theorem devKept_showDie (s : State) (x : Nat × Nat) : DevKept s (s.showDie x) := by
  unfold State.showDie
  split
  · exact devKept_trans (devKept_setReg s _ (.inr (by unfold Reg.dieStep; omega))) (devKept_setReg _ _ (.inr (by unfold Reg.dieCap; omega)))
  · exact devKept_refl s

theorem devKept_showCaps (s : State) : DevKept s s.showCaps := by
  unfold State.showCaps
  refine devKept_foldl (fun s h => devKept_ite ?_) _ s
  exact devKept_trans (devKept_trans (devKept_setReg s _ (.inr (by unfold Reg.capHalf; omega)))
    (devKept_setReg _ _ (.inr (by unfold Reg.capCommon; omega)))) (devKept_setReg _ _ (.inr (by unfold Reg.stepCommon; omega)))

theorem devKept_noteArrays (s : State) (p : Nat) (arrays : List Nat) : DevKept s (s.noteArrays p arrays) :=
  devKept_foldl (fun s _ => devKept_ite (devKept_setBit s _ _ (.inr (by unfold Reg.arrayErr; omega)))) arrays s

theorem devKept_mapDie (s : State) (d : Nat) : DevKept s (s.mapDie d) := by
  unfold State.mapDie
  dsimp only
  refine devKept_trans (devKept_trans (devKept_foldl (fun s i => ?_) _ s) (devKept_setReg _ _ (.inr (by unfold Reg.coreState; omega))))
    (devKept_setReg _ _ (.inr (by unfold Reg.coreSpare; omega)))
  exact devKept_trans (devKept_setReg s _ (.inr (by unfold Reg.coreMap; omega))) (devKept_setReg _ _ (.inr (by unfold Reg.coreState; omega)))

theorem devKept_showRoles (s : State) (roles : Option (List Nat)) : DevKept s (s.showRoles roles) :=
  devKept_foldl (fun s _ => devKept_setFld s _ _ _ (.inr (by unfold Reg.linkState; omega))) _ s

theorem devKept_showPresence (s : State) (gen : Nat) : DevKept s (s.showPresence gen) :=
  devKept_trans (devKept_setReg s _ (.inl (by decide))) (devKept_setReg _ _ (.inl (by decide)))

theorem devKept_discover {s : State} (h : s.pkg.failedCores = []) : DevKept s s.discover := by
  unfold State.discover
  dsimp only
  have hstep : DevKept s (s.setFld Reg.devStep 7 0 s.pkg.pkgRev) := devKept_setFld s _ _ _ (.inl (by decide))
  have hmap := devKept_trans hstep (devKept_foldl (fun s d => devKept_ite (c := s.cdiePresent d = true) (devKept_mapDie s d)) (List.range 4) _)
  rw [hmap.pkg, h, List.foldl_nil]
  refine devKept_trans (devKept_trans (devKept_trans hmap (devKept_foldl (fun s f => devKept_ite ?_) [0, 1] _)) (devKept_showRoles _ none))
    (devKept_showPresence _ 0)
  exact devKept_setReg s _ (.inr (by unfold Reg.forgLanes; omega))

theorem devKept_trainPiles (s : State) : DevKept s s.trainPiles := by
  unfold State.trainPiles
  dsimp only
  refine devKept_trans (t := { (s.reach 8).draw.2 with dram := .empty, sram := Mem.empty.undefine 0 (68 * 2 ^ 25) (s.reach 8).draw.1 })
    ⟨rfl, rfl⟩ (devKept_foldl (fun s n => devKept_ite (c := s.pilePresent n = true) ?_) _ _)
  exact devKept_setFld s _ _ _ (.inr (by unfold Reg.pileState; omega))

theorem devKept_showEsz (s : State) : DevKept s s.showEsz := by
  unfold State.showEsz
  have h : Reg.eszStatus < 0x10 ∨ 0x14 ≤ Reg.eszStatus := .inr (by decide)
  have h1 := devKept_trans (devKept_setFld s 3 3 ((s.esz.fw.map (·.copy)).getD 0) h) (devKept_setFld _ 6 5 s.esz.debug h)
  have h2 := devKept_trans (devKept_trans h1 (devKept_setFld _ 11 8 (entryBits s.esz.programmed / 4) h))
    (devKept_setFld _ 15 12 (entryBits s.esz.revoked / 4) h)
  have h3 := devKept_trans (devKept_trans (devKept_trans h2 (devKept_setFld _ 17 16 (entryBits s.esz.revoked) h))
    (devKept_setBit _ 18 s.esz.vendorDebugBlocked h)) (devKept_setFld _ 26 19 s.esz.rbFing h)
  exact devKept_trans h3 (devKept_setReg _ _ (.inr (by decide)))

theorem devKept_blow (s : State) (e : EszSt) : DevKept s (s.blow e) := 
  devKept_from (t := { s with esz := e }) rfl rfl (devKept_logEntry _ _)

theorem devKept_rollEsz (s : State) (f : FwSt) : DevKept s (s.rollEsz f) := devKept_ite (devKept_blow s _)

theorem devKept_rollHub (s : State) (f : FwSt) : DevKept s (s.rollHub f) := devKept_ite (devKept_blow s _)

theorem devKept_dropVendor (s : State) (f : FwSt) : DevKept s (s.dropVendor f) := devKept_ite (devKept_blow s _)

theorem devKept_rollFuses (s : State) : DevKept s s.rollFuses := by
  unfold State.rollFuses
  split
  · exact devKept_refl s
  · split
    · exact devKept_refl s
    · exact devKept_from (t := { s with esz := { s.esz with rolled := true } }) rfl rfl
        (devKept_trans (devKept_trans (devKept_trans (devKept_rollEsz _ _) (devKept_rollHub _ _)) (devKept_dropVendor _ _)) (devKept_showEsz _))

/-- Alone on its ports, a device that is READY enters HOLD. -/
theorem holdIfAlone_devState {s : State} (h : s.devState = 3) : s.holdIfAlone.devState = 3 ∨ s.holdIfAlone.devState = 5 := by
  unfold State.holdIfAlone
  split
  · exact .inr (setDevState_devState _ (by decide))
  · exact .inl h

theorem onward_of_boot {s : State} (f : State → State) (h : s.devState = 2) : s.onward f = f s := if_pos h

theorem onward_of_failed {s : State} (f : State → State) (h : s.devState = 7) : s.onward f = s := if_neg (by rw [h]; decide)

theorem devKept_reach (s : State) (n : Nat) : DevKept s (s.reach n) := ⟨rfl, rfl⟩

/-- Step 9 ends start-up: step 10, and READY or HOLD. -/
theorem ready_acts {s : State} (hd : s.devState = 2) (hf : s.pkg.failedCores = []) :
    s.ready.power.step = 10 ∧ (s.ready.devState = 3 ∨ s.ready.devState = 5) := by
  have hreach := devKept_reach s 9
  have hdisc := (devKept_trans hreach (devKept_discover (hreach.pkg ▸ hf))).devState.trans hd
  rw [State.ready, onward_of_boot _ hdisc]
  have hready : ((((s.reach 9).discover).setDevState 3).reach 10).devState = 3 :=
    (devKept_reach _ 10).devState.trans (setDevState_devState _ (by decide))
  have hstep : ((((s.reach 9).discover).setDevState 3).reach 10).power.step = 10 := rfl
  generalize (((s.reach 9).discover).setDevState 3).reach 10 = t at hready hstep
  have hk : Keeps (allBut .power) t (t.rollFuses).holdIfAlone :=
    keeps_holdIfAlone _ (keeps_rollFuses _ (keeps_refl t) (covers_allBut rfl)) (covers_allBut rfl)
  exact ⟨(congrArg PowerSt.step (power_of_keeps hk)).trans hstep, holdIfAlone_devState ((devKept_rollFuses t).devState.trans hready)⟩

/-- Without a die that lacks a bit the capability check only logs; with one it stops boot with 0x1011 (R57). -/
theorem checkDies_acts {s : State} (hd : s.devState = 2) : DevKept s s.checkDies ∨
    (s.pkg.dies ≠ [] ∧ s.checkDies.devState = 7 ∧ s.checkDies.fld Reg.devState 31 16 = 0x1011) := by
  have hm : DevKept s (if s.mixed (hubDies 0 ++ hubDies 1) then (s.setBit Reg.devStep 8 true).logEntry { code := 0x1010, cls := 0 } else s) :=
    devKept_ite (devKept_trans (devKept_setBit s 8 true (.inl (by decide))) (devKept_logEntry _ _))
  unfold State.checkDies
  generalize (if s.mixed (hubDies 0 ++ hubDies 1) then (s.setBit Reg.devStep 8 true).logEntry { code := 0x1010, cls := 0 } else s) = t at hm
  dsimp only
  split
  · rename_i x hx
    have hdies := List.mem_of_find?_eq_some hx
    rw [hm.pkg] at hdies
    obtain ⟨h7, hcode, -⟩ := raise_failed (s := t) (e := ⟨0x1011, 4, dieUnit x.1 x.2, none, none, some (256 * x.1 + x.2), t.missingCaps x⟩) rfl
      (by rw [hm.devState, hd]; decide)
    exact .inr ⟨List.ne_nil_of_mem hdies, h7, hcode⟩
  · exact .inl hm

/-- From the last block on, start-up reaches its last step, or a die that lacks a required bit stops it. -/
theorem afterBlocks_acts {s : State} (hd : s.devState = 2) (hb : s.allBlocks = true) (hf : s.pkg.failedCores = []) :
    (s.afterBlocks.power.step = 10 ∧ (s.afterBlocks.devState = 3 ∨ s.afterBlocks.devState = 5)) ∨
      (s.pkg.dies ≠ [] ∧ s.afterBlocks.devState = 7 ∧ s.afterBlocks.fld Reg.devState 31 16 = 0x1011) := by
  rw [State.afterBlocks, if_pos hb]
  rcases checkDies_acts hd with hk | ⟨hne, h7, hcode⟩
  · have h2 : s.checkDies.devState = 2 := hk.devState.trans hd
    have ht := devKept_trainPiles s.checkDies
    have h2' : s.checkDies.trainPiles.devState = 2 := ht.devState.trans h2
    rw [onward_of_boot _ h2, onward_of_boot _ h2']
    exact .inl (ready_acts h2' (by rw [ht.pkg, hk.pkg, hf]))
  · rw [onward_of_failed _ h7, onward_of_failed _ h7]
    exact .inr ⟨hne, h7, hcode⟩

/-! ### The firmware that boots, and the device's identity -/

theorem devKept_setPair (s : State) {lo : Nat} (v : Nat) (h : 0x14 ≤ lo) : DevKept s (s.setPair lo v) :=
  devKept_trans (devKept_setReg s _ (.inr h)) (devKept_setReg _ _ (.inr (by omega)))

/-- The identity goes into Eszoja's own state and the DEVID registers; without the device's key in the certificate 0xB031 is logged. -/
theorem deriveIdentity_eq (s : State) (f : FwSt) : ∃ (t : State) (v key c : Nat) (e : Ev),
    s.deriveIdentity f = (if s.pkg.certOk then t.setPair Reg.eszDevidLo v else (t.setPair Reg.eszDevidLo v).logEntry e) ∧
      t.regs = s.regs ∧ t.pkg = s.pkg ∧ t.esz.alias_ = some key ∧ t.esz.chain = if s.pkg.certOk then some c else none :=
  ⟨_, _, _, _, _, rfl, rfl, rfl, rfl, rfl⟩

/-- R584, R585: the Alias key is derived, and the certificate chain when the stored certificate carries the device's key. -/
theorem deriveIdentity_acts (s : State) (f : FwSt) : DevKept s (s.deriveIdentity f) ∧ (s.deriveIdentity f).esz.alias_ ≠ none ∧
    ((s.deriveIdentity f).esz.chain ≠ none ↔ s.pkg.certOk = true) := by
  obtain ⟨t, v, key, c, e, he, hregs, hpkg, halias, hchain⟩ := deriveIdentity_eq s f
  have hpair : DevKept s (t.setPair Reg.eszDevidLo v) := devKept_from hregs hpkg (devKept_setPair t v (by decide))
  rw [he]
  by_cases hc : s.pkg.certOk = true
  · rw [if_pos hc] at hchain ⊢
    exact ⟨hpair, by simp [halias], by simp [hchain, hc]⟩
  · rw [if_neg hc] at hchain ⊢
    exact ⟨devKept_trans hpair (devKept_logEntry _ e), by simp [logEntry_esz, halias], by simp [logEntry_esz, hchain, hc]⟩

theorem showEsz_esz (s : State) : s.showEsz.esz = s.esz := by
  simp only [State.showEsz, setReg_esz, setFld_esz, setBit_esz]

theorem runFw_esz (s : State) (f : FwSt) : (s.runFw f).esz = { s.esz with fw := some f } := by
  simp only [State.runFw, showEsz_esz, setFld_esz]

theorem devKept_runFw (s : State) (f : FwSt) : DevKept s (s.runFw f) :=
  devKept_from (t := { s with esz := { s.esz with fw := some f } }) rfl rfl
    (devKept_trans (devKept_setFld _ 2 0 2 (.inr (by decide))) (devKept_showEsz _))

/-- R577: with no copy that verifies, boot stops with 0xB002. -/
theorem bootFw_none {s : State} (h : s.esz.choose.1 = none) :
    s.bootFw = (s.setFld Reg.eszStatus 2 0 3).raise { code := 0xB002, cls := 4, unit := eszUnit } := by
  unfold State.bootFw
  split
  · rename_i hf
    rw [hf] at h; cases h
  · rfl

/-- R577, R584: the copy that the boot ROM chooses runs, with an identity of its own. -/
theorem bootFw_some {s : State} {f : FwSt} (h : s.esz.choose.1 = some f) : s.bootFw.esz.fw = some f ∧ s.bootFw.esz.alias_ ≠ none ∧
    (s.bootFw.esz.chain ≠ none ↔ s.pkg.certOk = true) ∧ DevKept s s.bootFw := by
  unfold State.bootFw
  split
  · rename_i g other hg
    rw [hg] at h
    obtain rfl : g = f := Option.some.inj h
    have hlog : DevKept s (if other then s.logEntry { code := 0xB001, cls := 0, unit := eszUnit } else s) := devKept_ite (devKept_logEntry _ _)
    dsimp only
    generalize (if other then s.logEntry { code := 0xB001, cls := 0, unit := eszUnit } else s) = t at hlog
    obtain ⟨hderive, halias, hchain⟩ := deriveIdentity_acts t g
    rw [hlog.pkg] at hchain
    rw [runFw_esz]
    exact ⟨rfl, halias, hchain, devKept_trans hlog (devKept_trans hderive (devKept_runFw _ g))⟩
  · rename_i hf
    rw [hf] at h; cases h

/-! ### What the later steps of start-up leave of the firmware and its identity -/

/-- The firmware that runs, the Alias key and the certificate chain are the same. -/
structure IdKept (s t : State) : Prop where
  fw : t.esz.fw = s.esz.fw
  alias_ : t.esz.alias_ = s.esz.alias_
  chain : t.esz.chain = s.esz.chain

theorem idKept_refl (s : State) : IdKept s s := ⟨rfl, rfl, rfl⟩

theorem idKept_trans {s t u : State} (h : IdKept s t) (g : IdKept t u) : IdKept s u :=
  ⟨g.fw.trans h.fw, g.alias_.trans h.alias_, g.chain.trans h.chain⟩

theorem idKept_of_esz {s t : State} (h : t.esz = s.esz) : IdKept s t := ⟨by rw [h], by rw [h], by rw [h]⟩

theorem idKept_of_keeps {s t : State} (h : Keeps (allBut .esz) s t) : IdKept s t := idKept_of_esz (esz_of_keeps h)

theorem idKept_onward {f : State → State} (h : ∀ t, IdKept t (f t)) (s : State) : IdKept s (s.onward f) := by
  unfold State.onward
  split
  · exact h s
  · exact idKept_refl s

theorem idKept_ite {c : Prop} [Decidable c] {s t : State} (h : IdKept s t) : IdKept s (if c then t else s) := by
  split
  · exact h
  · exact idKept_refl s

/-- Blowing fuses leaves the firmware and its identity. -/
theorem idKept_blow {s : State} {e : EszSt} (h : IdKept s { s with esz := e }) : IdKept s (s.blow e) :=
  idKept_trans h (idKept_of_esz (logEntry_esz _ _))

theorem idKept_rollFuses (s : State) : IdKept s s.rollFuses := by
  have hesz : ∀ (t : State) f, IdKept t (t.rollEsz f) := fun t f => idKept_ite (idKept_blow ⟨rfl, rfl, rfl⟩)
  have hhub : ∀ (t : State) f, IdKept t (t.rollHub f) := fun t f => idKept_ite (idKept_blow ⟨rfl, rfl, rfl⟩)
  have hdrop : ∀ (t : State) f, IdKept t (t.dropVendor f) := fun t f => idKept_ite (idKept_blow ⟨rfl, rfl, rfl⟩)
  unfold State.rollFuses
  split
  · exact idKept_refl s
  · split
    · exact idKept_refl s
    · have hrolled : IdKept s { s with esz := { s.esz with rolled := true } } := ⟨rfl, rfl, rfl⟩
      exact idKept_trans hrolled (idKept_trans (idKept_trans (idKept_trans (hesz _ _) (hhub _ _)) (hdrop _ _)) (idKept_of_esz (showEsz_esz _)))

theorem idKept_ready (s : State) : IdKept s s.ready := by
  have hdisc : IdKept s (s.reach 9).discover :=
    idKept_of_keeps (keeps_discover _ (keeps_reach s 9 (keeps_refl s) (covers_allBut rfl)) (covers_allBut rfl))
  have hend : ∀ t : State, IdKept t ((((t.setDevState 3).reach 10).rollFuses).holdIfAlone) := fun t =>
    idKept_trans (idKept_trans (idKept_of_keeps (keeps_reach _ 10 (keeps_setDevState t 3 (keeps_refl t) (covers_allBut rfl)) (covers_allBut rfl)))
      (idKept_rollFuses _)) (idKept_of_keeps (keeps_holdIfAlone _ (keeps_refl _) (covers_allBut rfl)))
  exact idKept_trans hdisc (idKept_onward hend _)

theorem idKept_afterBlocks (s : State) : IdKept s s.afterBlocks := by
  have hcheck : IdKept s s.checkDies := idKept_of_keeps (keeps_checkDies s (keeps_refl s) (covers_allBut rfl))
  have hpiles : ∀ t : State, IdKept t t.trainPiles := fun t => idKept_of_keeps (keeps_trainPiles t (keeps_refl t) (covers_allBut rfl))
  exact idKept_ite (idKept_trans hcheck (idKept_trans (idKept_onward hpiles _) (idKept_onward idKept_ready _)))

theorem idKept_fromStep6 (s : State) : IdKept s s.fromStep6 := by
  have htests : IdKept s s.selfTests := idKept_of_keeps (keeps_selfTests s (keeps_refl s) (covers_allBut rfl))
  have htrain : ∀ t : State, IdKept t t.trainModules := fun t => idKept_of_keeps (keeps_trainModules t (keeps_refl t) (covers_allBut rfl))
  exact idKept_trans htests (idKept_trans (idKept_onward htrain _) (idKept_onward idKept_afterBlocks _))

/-! ### Start-up of a package with no die -/

theorem devKept_selfTests {s : State} (hp : s.pkg.pllFails = none) (hh : s.pkg.hubTestFails = false) (he : s.pkg.eszTestFails = false)
    (hc : s.pkg.failedCores = []) : DevKept s s.selfTests := by
  unfold State.selfTests
  have h := devKept_trans (devKept_reach s 6) (devKept_foldl (fun (s : State) (x : Nat × Nat) => devKept_noteArrays s x.1 [x.2]) s.pkg.failedArrays _)
  simp only [(devKept_reach s 6).pkg, hp, hh, he, Bool.false_eq_true, if_false]
  rw [h.pkg, hc]
  exact h

theorem devKept_trainModules {s : State} (hd : s.pkg.dies = []) : DevKept s s.trainModules := by
  have h := devKept_trans (devKept_trans (devKept_reach s 7) (devKept_showDie _ (0, 0))) (devKept_showDie _ (1, 0))
  have hnone : ∀ (t : State) n, t.pkg.dies = [] → t.trainedMods n = [] := fun t n ht => by simp [State.trainedMods, ht]
  have hdies : (((s.reach 7).showDie (0, 0)).showDie (1, 0)).pkg.dies = [] := by rw [h.pkg, hd]
  unfold State.trainModules
  simp only [hnone _ _ hdies, List.foldl_nil]
  exact devKept_trans h (devKept_showCaps _)

/-- With nothing missing, start-up reaches its last step. -/
theorem fromStep6_acts {s : State} (h2 : s.devState = 2) (hp : s.pkg.pllFails = none) (hh : s.pkg.hubTestFails = false)
    (he : s.pkg.eszTestFails = false) (hc : s.pkg.failedCores = []) (hd : s.pkg.dies = []) :
    s.fromStep6.power.step = 10 ∧ (s.fromStep6.devState = 3 ∨ s.fromStep6.devState = 5) := by
  have htests := devKept_selfTests hp hh he hc
  have htrain := devKept_trans htests (devKept_trainModules (s := s.selfTests) (by rw [htests.pkg, hd]))
  have hall : s.selfTests.trainModules.allBlocks = true := by simp [State.allBlocks, htrain.pkg, hd]
  rw [State.fromStep6, onward_of_boot _ (htests.devState.trans h2), onward_of_boot _ (htrain.devState.trans h2)]
  exact (afterBlocks_acts (htrain.devState.trans h2) hall (by rw [htrain.pkg, hc])).resolve_right fun h => h.1 (by rw [htrain.pkg, hd])

/-! ### POWER_OK (R532, R605) -/

/-- The device at the start-up step `n`, with the package's physical facts. -/
def supplied (pkg : Package) (n : Nat) (s : State) : State :=
  { s with pkg := pkg, power := { s.power with powerOk := true, step := n } }

theorem devKept_loadFuses (s : State) : DevKept s s.loadFuses := by
  unfold State.loadFuses
  split <;> exact ⟨rfl, rfl⟩

section
variable {pkg : Package} {s : State} (hp : s.power.powerOk = false)
include hp

theorem powerOkAssert_test (ht : pkg.testMode = true) : exec (.powerOkAssert pkg) s = .next (supplied pkg 2 s) := by
  show Host.Outcome.next (applyPowerOkAssert pkg s) = _
  rw [applyPowerOkAssert, hp]
  exact congrArg Host.Outcome.next (if_pos ht)

theorem powerOkAssert_pll (ht : pkg.testMode = false) (hl : pkg.pllFails = some 0) :
    exec (.powerOkAssert pkg) s = .next ((supplied pkg 1 s).raise { code := 0xA020, cls := 4, unit := domainUnit 0 }) := by
  show Host.Outcome.next (applyPowerOkAssert pkg s) = _
  rw [applyPowerOkAssert, hp, ht]
  exact congrArg Host.Outcome.next (if_pos hl)

/-- What follows the boot ROM's choice: start-up from step 6 on, unless boot has stopped. -/
theorem powerOkAssert_boot (ht : pkg.testMode = false) (hl : pkg.pllFails ≠ some 0) : exec (.powerOkAssert pkg) s = .next
    (if (supplied pkg 5 s).loadFuses.bootFw.devState = 7 then (supplied pkg 5 s).loadFuses.bootFw
     else ((supplied pkg 5 s).loadFuses.bootFw.setDevState 2).fromStep6) := by
  show Host.Outcome.next (applyPowerOkAssert pkg s) = _
  rw [applyPowerOkAssert, hp, ht]
  exact congrArg Host.Outcome.next (if_neg hl)

end

theorem supplied_devState (pkg : Package) (n : Nat) (s : State) : (supplied pkg n s).devState = s.devState := rfl

theorem powerOkAssert_pll_fails {pkg : Package} {s : State} (hp : s.power.powerOk = false) (h7 : s.devState ≠ 7) (ht : pkg.testMode = false)
    (hl : pkg.pllFails = some 0) : ∃ v, exec (.powerOkAssert pkg) s = .next v ∧ v.devState = 7 ∧
      v.fld Reg.devState 31 16 = 0xA020 ∧ v.pkg = pkg := by
  obtain ⟨hstate, hcode, -, -, hpkg⟩ := raise_failed (s := supplied pkg 1 s) (e := { code := 0xA020, cls := 4, unit := domainUnit 0 }) rfl h7
  exact ⟨_, powerOkAssert_pll hp ht hl, hstate, hcode, hpkg⟩

theorem powerOkAssert_no_firmware {pkg : Package} {s : State} (hp : s.power.powerOk = false) (h7 : s.devState ≠ 7) (ht : pkg.testMode = false)
    (hl : pkg.pllFails ≠ some 0) (hc : (supplied pkg 5 s).loadFuses.esz.choose.1 = none) :
    ∃ v, exec (.powerOkAssert pkg) s = .next v ∧ v.devState = 7 ∧ v.fld Reg.devState 31 16 = 0xB002 ∧
      v.esz = (supplied pkg 5 s).loadFuses.esz := by
  let t := (supplied pkg 5 s).loadFuses.setFld Reg.eszStatus 2 0 3
  have ht7 : t.devState ≠ 7 := by
    rw [(devKept_trans (devKept_loadFuses _) (devKept_setFld _ 2 0 3 (.inr (by decide)))).devState]
    exact h7
  obtain ⟨hstate, hcode, -, hesz, -⟩ := raise_failed (s := t) (e := { code := 0xB002, cls := 4, unit := eszUnit }) rfl ht7
  refine ⟨_, powerOkAssert_boot hp ht hl, ?_⟩
  rw [bootFw_none hc, if_pos hstate]
  exact ⟨hstate, hcode, hesz⟩

theorem powerOkAssert_firmware {pkg : Package} {s : State} {f : FwSt} (hp : s.power.powerOk = false) (h7 : s.devState ≠ 7)
    (ht : pkg.testMode = false) (hl : pkg.pllFails ≠ some 0) (hc : (supplied pkg 5 s).loadFuses.esz.choose.1 = some f) :
    ∃ v, exec (.powerOkAssert pkg) s = .next v ∧ v.esz.fw = some f ∧ v.esz.alias_ ≠ none ∧ (v.esz.chain ≠ none ↔ pkg.certOk = true) ∧
      (pkg.pllFails = none → pkg.hubTestFails = false → pkg.eszTestFails = false → pkg.failedCores = [] → pkg.dies = [] →
        v.power.step = 10 ∧ (v.devState = 3 ∨ v.devState = 5)) := by
  obtain ⟨hfw, halias, hchain, hkept⟩ := bootFw_some hc
  have hload := devKept_trans (devKept_loadFuses (supplied pkg 5 s)) hkept
  have hpkg : (supplied pkg 5 s).loadFuses.bootFw.pkg = pkg := hload.pkg
  have hne : ¬(supplied pkg 5 s).loadFuses.bootFw.devState = 7 := by rwa [hload.devState]
  rw [(devKept_loadFuses (supplied pkg 5 s)).pkg] at hchain
  refine ⟨_, powerOkAssert_boot hp ht hl, ?_⟩
  rw [if_neg hne]
  generalize (supplied pkg 5 s).loadFuses.bootFw = b at hfw halias hchain hpkg
  have hboot : Keeps (allBut .esz) b (b.setDevState 2) := keeps_setDevState b 2 (keeps_refl b) (covers_allBut rfl)
  have hbpkg : (b.setDevState 2).pkg = pkg :=
    (pkg_of_keeps (keeps_setDevState b 2 (keeps_refl b) (covers_allBut rfl))).trans hpkg
  obtain ⟨kfw, kalias, kchain⟩ := idKept_trans (idKept_of_keeps hboot) (idKept_fromStep6 (b.setDevState 2))
  refine ⟨kfw.trans hfw, by rwa [kalias], by rwa [kchain], fun hpll hhub hesz hcores hdies => ?_⟩
  exact fromStep6_acts (setDevState_devState b (by decide)) (by rw [hbpkg, hpll]) (by rw [hbpkg, hhub]) (by rw [hbpkg, hesz])
    (by rw [hbpkg, hcores]) (by rw [hbpkg, hdies])

/-- A byte of a range that an event has made undefined in an empty memory. -/
theorem read_undefine_empty {hi k : Nat} (stamp : Nat) (h : k < hi) : (Mem.empty.undefine 0 hi stamp).read k = Config.freeByte stamp k := by
  have hhi : 0 < hi := by omega
  simp [Mem.undefine, Mem.read, Mem.empty, hhi, getKey, undefStamp, h]

/-- R605: losing POWER_OK is a power-on reset; only fuses and flash keep their contents. -/
theorem powerOkDeassert_acts {s : State} (hp : s.power.powerOk = true) : ∃ v x, exec .powerOkDeassert s = .next v ∧
    v = { State.reset with pending := s.pending, out := s.out, free := v.free, dram := v.dram, comb := v.comb, sram := v.sram, esz := v.esz } ∧
    v.esz = { EszSt.reset with rbEsz := s.esz.rbEsz, rbHub := s.esz.rbHub, rbFing := s.esz.rbFing,
                               vendorDebugBlocked := s.esz.vendorDebugBlocked, keyHash := s.esz.keyHash, revoked := s.esz.revoked,
                               flash := s.esz.flash } ∧
    ∀ n off, n < 16 → off < 2 ^ 36 → v.peek (.dram n off) = Config.freeByte x (n * 2 ^ 36 + off) := by
  have he : exec .powerOkDeassert s = .next (applyPowerOkDeassert s) := rfl
  rw [applyPowerOkDeassert, hp, if_neg (by decide)] at he
  refine ⟨_, s.free, he, rfl, rfl, fun n off hn ho => ?_⟩
  exact read_undefine_empty (hi := 16 * 2 ^ 36) (k := n * 2 ^ 36 + off) s.free (by omega)

/-! ### The fence of a module is logged at the head of the ring (R39) -/

theorem modEnds_bounds {h n : Nat} (hh : h < 2) (hn : n < 120) {e : Nat × Nat} (he : e ∈ modEnds h n) : e.1 < 2 ∧ e.2 < 120 := by
  unfold modEnds at he
  split at he
  · rcases List.mem_cons.mp he with rfl | he
    · exact ⟨Nat.zero_lt_two, hn⟩
    · rw [List.mem_singleton.mp he]; exact ⟨Nat.one_lt_two, hn⟩
  · rw [List.mem_singleton.mp he]; exact ⟨hh, hn⟩

/-- The error log lies above the registers of the modules. -/
theorem log_home_ne {o hub n : Nat} (ho : 0x3C00000 ≤ o) (hh : hub < 2) (hn : n < 120) :
    regHome o ≠ regHome (Reg.d2dModStatus hub n) ∧ regHome o ≠ regHome (Reg.d2dSummary hub) := by
  rw [regHome_id (.inr (by omega)), modStatus_home hh hn, d2dSummary_home hh]
  unfold Reg.d2dModStatus Reg.d2dSummary
  omega

theorem setModState_reg (s : State) {hub n : Nat} (st : Nat) {o : Nat} (hh : hub < 2) (hn : n < 120) (ho : 0x3C00000 ≤ o) :
    (s.setModState hub n st).reg o = s.reg o := by
  refine reg_foldl (fun t e he => ?_) s
  obtain ⟨h1, h2⟩ := modEnds_bounds hh hn he
  obtain ⟨hm, hs⟩ := log_home_ne ho h1 h2
  exact ((onlyRegs_showModules _ e.1).2 o (by simpa using hs)).trans (reg_setFld_ne _ _ _ _ hm)

theorem degrade_reg (s : State) {hub n o : Nat} (hh : hub < 2) (hn : n < 120) (ho : 0x3C00000 ≤ o) : (s.degrade hub n).reg o = s.reg o := by
  unfold State.degrade
  split
  · rfl
  · refine reg_foldl (fun t e he => ?_) _
    obtain ⟨h1, h2⟩ := modEnds_bounds hh hn he
    obtain ⟨hm, hs⟩ := log_home_ne ho h1 h2
    exact (reg_setBit_ne _ _ _ hs).trans (reg_setBit_ne _ _ _ hm)

/-- The next entry of the log lies at another place of the ring. -/
theorem next_ring_ne (w : Word) : w.toNat % 256 ≠ (w + 1).toNat % 256 := by
  rw [BitVec.toNat_add, show (1 : Word).toNat = 1 from rfl]
  omega

/-- A lost connection logs a second entry behind the first. -/
theorem connCheck_entry (s : State) (hub n : Nat) (u : Word) (h : s.reg Reg.errLogHead = u + 1) :
    (s.connCheck hub n).reg (Reg.errLog (u.toNat % 256) 0) = s.reg (Reg.errLog (u.toNat % 256) 0) := by
  unfold State.connCheck
  split
  · refine (reg_congr (t := State.lose s _) (s := s.logEntry _) rfl _).trans ?_
    rw [logEntry_ring s _ (Nat.mod_lt _ (by decide)) (by decide), h, if_neg (next_ring_ne u)]
  · rfl

theorem fenceModule_logs (s : State) {hub n : Nat} (code cls : Nat) (hh : hub < 2) (hn : n < 120) :
    (s.fenceModule hub n code cls).reg (Reg.errLog ((s.reg Reg.errLogHead).toNat % 256) 0) =
      BitVec.ofNat 32 (code % 65536 + 65536 * (cls % 8)) := by
  let a := (s.setModState hub n 3).degrade hub n
  let c := a.setShared hub n { a.modShared hub n with want := false, back := false }
  have hhead : c.reg Reg.errLogHead = s.reg Reg.errLogHead :=
    (degrade_reg _ hh hn (by decide)).trans (setModState_reg s 3 hh hn (by decide))
  let e : Ev := { code := code, cls := cls, unit := modUnit hub n }
  have hf : s.fenceModule hub n code cls = (c.logEntry e).connCheck hub n := rfl
  rw [hf, connCheck_entry _ hub n (s.reg Reg.errLogHead) (by rw [logEntry_head, hhead]),
    logEntry_ring c e (Nat.mod_lt _ (by decide)) (by decide), hhead, if_pos rfl, if_pos rfl]

/-! ### The registers that show a die (Tables 1.13 to 1.20) -/

theorem farDie_bounds {h n : Nat} (hh : h < 2) (hn : n < 120) : (farDie h n).1 < 2 ∧ (farDie h n).2 < 11 := by
  unfold farDie
  repeat' split
  all_goals dsimp only; omega

/-- CAP_HALF, CAP_COMMON and STEP_COMMON of one hub. -/
def showCap (s : State) (h : Nat) : State :=
  if s.bit (Reg.dieStep h 0) 31 then
    ((s.setReg (Reg.capHalf h) (BitVec.ofNat 32 (s.commonCaps (hubDies h)))).setReg (Reg.capCommon h)
      (BitVec.ofNat 32 (s.commonCaps (hubDies 0 ++ hubDies 1)))).setReg (Reg.stepCommon h)
        (let t := (s.setReg (Reg.capHalf h) (BitVec.ofNat 32 (s.commonCaps (hubDies h)))).setReg (Reg.capCommon h)
          (BitVec.ofNat 32 (s.commonCaps (hubDies 0 ++ hubDies 1)))
         BitVec.ofNat 32 (leastOf (t.steppings (hubDies h) 1) + 256 * leastOf (t.steppings (hubDies h) 2)
          + 65536 * leastOf (t.steppings (hubDies h) 3) + (if t.mixed (hubDies h) then 16777216 else 0)))
  else s

theorem showCaps_eq (s : State) : s.showCaps = showCap (showCap s 0) 1 := rfl

/-- The registers that `showCap` writes. -/
def capRegs (h : Nat) : List Nat := [Reg.capHalf h, Reg.capCommon h, Reg.stepCommon h]

theorem onlyRegs_showCap (s : State) (h : Nat) : onlyRegs (capRegs h) s (showCap s h) := by
  unfold showCap
  split
  · exact onlyRegs_trans (onlyRegs_trans (onlyRegs_setReg s _ (by simp [capRegs])) (onlyRegs_setReg _ _ (by simp [capRegs])))
      (onlyRegs_setReg _ _ (by simp [capRegs]))
  · exact ⟨rfl, fun _ _ => rfl⟩

/-- Registers of the two hubs have their own places. -/
theorem hubReg_ne {o p : Nat} (ho : o < 0x2000000) (hp : p < 0x2000000) (h : o ≠ p) : regHome o ≠ regHome p := by
  rwa [regHome_id (.inl ho), regHome_id (.inl hp)]

theorem showCap_half (s : State) {h : Nat} (hh : h < 2) (hs : s.bit (Reg.dieStep h 0) 31 = true) :
    (showCap s h).reg (Reg.capHalf h) = BitVec.ofNat 32 (s.commonCaps (hubDies h)) ∧
      (showCap s h).reg (Reg.capCommon h) = BitVec.ofNat 32 (s.commonCaps (hubDies 0 ++ hubDies 1)) := by
  have h1 : Reg.capHalf h < 0x2000000 := by unfold Reg.capHalf; omega
  have h2 : Reg.capCommon h < 0x2000000 := by unfold Reg.capCommon; omega
  have h3 : Reg.stepCommon h < 0x2000000 := by unfold Reg.stepCommon; omega
  rw [showCap, if_pos hs]
  constructor
  · rw [reg_setReg_ne _ _ (hubReg_ne h1 h3 (by unfold Reg.capHalf Reg.stepCommon; omega)),
      reg_setReg_ne _ _ (hubReg_ne h1 h2 (by unfold Reg.capHalf Reg.capCommon; omega)), reg_setReg]
  · rw [reg_setReg_ne _ _ (hubReg_ne h2 h3 (by unfold Reg.capCommon Reg.stepCommon; omega)), reg_setReg]

/-- DIE_STEP and DIE_CAP of every die are the same. -/
def diesKept (s t : State) : Prop :=
  ∀ h d, h < 2 → d < 11 → t.reg (Reg.dieStep h d) = s.reg (Reg.dieStep h d) ∧ t.reg (Reg.dieCap h d) = s.reg (Reg.dieCap h d)

/-- The common capabilities are a function of DIE_STEP and DIE_CAP. -/
theorem commonCaps_congr {s t : State} (hk : diesKept s t) {dies : List (Nat × Nat)} (hd : ∀ x ∈ dies, x.1 < 2 ∧ x.2 < 11) :
    t.commonCaps dies = s.commonCaps dies := by
  have hmem : ∀ b x, x ∈ dies → (t.diePresent x.1 x.2 && (capTypes b).contains (t.dieType x)) =
      (s.diePresent x.1 x.2 && (capTypes b).contains (s.dieType x)) := fun b x hx => by
    obtain ⟨hstep, -⟩ := hk x.1 x.2 (hd x hx).1 (hd x hx).2
    simp only [State.diePresent, State.dieType, bit_of_reg hstep, fld_of_reg hstep]
  have hbit : ∀ b, t.commonBit dies b = s.commonBit dies b := fun b => by
    unfold State.commonBit
    rw [List.filter_congr (hmem b)]
    dsimp only
    congr 1
    rw [Bool.eq_iff_iff, List.all_eq_true, List.all_eq_true]
    refine forall₂_congr fun x hx => ?_
    have hx := List.mem_of_mem_filter hx
    rw [bit_of_reg (hk x.1 x.2 (hd x hx).1 (hd x hx).2).2]
  simp only [State.commonCaps, hbit]

theorem hubDies_bounds {h : Nat} (hh : h < 2) {x : Nat × Nat} (hx : x ∈ hubDies h) : x.1 < 2 ∧ x.2 < 11 := by
  obtain ⟨d, hd, rfl⟩ := List.mem_map.mp hx
  exact ⟨hh, List.mem_range.mp hd⟩

theorem allDies_bounds {x : Nat × Nat} (hx : x ∈ hubDies 0 ++ hubDies 1) : x.1 < 2 ∧ x.2 < 11 := by
  rcases List.mem_append.mp hx with hx | hx
  · exact hubDies_bounds (by decide) hx
  · exact hubDies_bounds (by decide) hx

theorem capRegs_range {h p : Nat} (hp : p ∈ capRegs h) : 0x400000 + 0x100000 * h ≤ p ∧ p ≤ 0x400008 + 0x100000 * h := by
  simp only [capRegs, Reg.capHalf, Reg.capCommon, Reg.stepCommon, List.mem_cons, List.not_mem_nil, or_false] at hp
  omega

theorem diesKept_showCap (s : State) {h : Nat} (hh : h < 2) : diesKept s (showCap s h) := fun u v hu hv => by
  obtain ⟨-, hkept⟩ := onlyRegs_showCap s h
  have hmem : ∀ o, 0x400100 + 0x100000 * u ≤ o → o < 0x400200 + 0x100000 * u → regHome o ∉ (capRegs h).map regHome := fun o h1 h2 hm => by
    obtain ⟨p, hp, he⟩ := List.mem_map.mp hm
    have hr := capRegs_range hp
    exact hubReg_ne (by omega) (by omega) (by omega) he
  exact ⟨hkept _ (hmem _ (by unfold Reg.dieStep; omega) (by unfold Reg.dieStep; omega)),
    hkept _ (hmem _ (by unfold Reg.dieCap; omega) (by unfold Reg.dieCap; omega))⟩

theorem diesKept_trans {s t u : State} (h : diesKept s t) (g : diesKept t u) : diesKept s u := fun a b ha hb =>
  ⟨(g a b ha hb).1.trans (h a b ha hb).1, (g a b ha hb).2.trans (h a b ha hb).2⟩

theorem diesKept_showCaps (s : State) : diesKept s s.showCaps := by
  rw [showCaps_eq]
  exact diesKept_trans (diesKept_showCap s (by decide)) (diesKept_showCap _ (by decide))

theorem onlyRegs_showCaps (s : State) : onlyRegs ([0, 1].flatMap capRegs) s s.showCaps := by
  rw [showCaps_eq]
  exact onlyRegs_trans (onlyRegs_mono (onlyRegs_showCap s 0) fun o ho => List.mem_append_left _ ho)
    (onlyRegs_mono (onlyRegs_showCap _ 1) fun o ho => by simpa using Or.inr ho)

/-- A hub that is shown shows the common values of the dies that are shown. -/
theorem showCaps_shows (s : State) {i : Nat} (hi : i < 2) (hs : s.bit (Reg.dieStep i 0) 31 = true) :
    s.showCaps.reg (Reg.capHalf i) = BitVec.ofNat 32 (s.showCaps.commonCaps (hubDies i)) ∧
      s.showCaps.reg (Reg.capCommon i) = BitVec.ofNat 32 (s.showCaps.commonCaps (hubDies 0 ++ hubDies 1)) := by
  rw [commonCaps_congr (diesKept_showCaps s) fun x hx => hubDies_bounds hi hx, commonCaps_congr (diesKept_showCaps s) fun x hx => allDies_bounds hx,
    showCaps_eq]
  rcases (by omega : i = 0 ∨ i = 1) with rfl | rfl
  · obtain ⟨hhalf, hcommon⟩ := showCap_half s (by decide) hs
    obtain ⟨-, hkept⟩ := onlyRegs_showCap (showCap s 0) 1
    exact ⟨(hkept _ (by decide)).trans hhalf, (hkept _ (by decide)).trans hcommon⟩
  · have hk := diesKept_showCap s (h := 0) (by decide)
    obtain ⟨hhalf, hcommon⟩ := showCap_half (showCap s 0) (h := 1) (by decide) ((bit_of_reg (hk 1 0 (by decide) (by decide)).1 31).trans hs)
    rw [commonCaps_congr hk fun x hx => hubDies_bounds (by decide) hx] at hhalf
    rw [commonCaps_congr hk fun x hx => allDies_bounds hx] at hcommon
    exact ⟨hhalf, hcommon⟩

/-- DIE_STEP of a die that has sent a block (Table 1.19). -/
def stepWord (b : ParamBlock) : Word := BitVec.ofNat 32 (b.dieType % 16 + 16 * (b.stepping % 256) + 2147483648)

theorem stepWord_fields (b : ParamBlock) : bits (stepWord b) 3 0 = b.dieType % 16 ∧ bits (stepWord b) 11 4 = b.stepping % 256 ∧
    bits (stepWord b) 31 31 = 1 := by
  simp only [bits, stepWord, BitVec.toNat_ofNat, Nat.shiftRight_eq_div_pow]
  omega

theorem showDie_some {s : State} {x : Nat × Nat} {b : ParamBlock} (h : s.blockOf x = some b) :
    s.showDie x = (s.setReg (Reg.dieStep x.1 x.2) (stepWord b)).setReg (Reg.dieCap x.1 x.2) b.caps := by
  simp only [State.showDie, h]
  rfl

/-- R38: a die's block is shown in its two registers. -/
theorem showDie_acts {s : State} {x : Nat × Nat} {b : ParamBlock} (h : s.blockOf x = some b) (h1 : x.1 < 2) (h2 : x.2 < 11) :
    onlyRegs [Reg.dieStep x.1 x.2, Reg.dieCap x.1 x.2] s (s.showDie x) ∧ (s.showDie x).reg (Reg.dieStep x.1 x.2) = stepWord b ∧
      (s.showDie x).reg (Reg.dieCap x.1 x.2) = b.caps := by
  rw [showDie_some h]
  refine ⟨onlyRegs_trans (onlyRegs_setReg s _ (by simp)) (onlyRegs_setReg _ _ (by simp)), ?_, reg_setReg _ _ _⟩
  rw [reg_setReg_ne _ _ (hubReg_ne ?_ ?_ ?_), reg_setReg] <;> simp only [Reg.dieStep, Reg.dieCap] <;> omega

/-- A die that was shown before another die's block is shown still. -/
theorem showDie_shown {s : State} {x : Nat × Nat} {b : ParamBlock} (h : s.blockOf x = some b) (h1 : x.1 < 2) (h2 : x.2 < 11) {i : Nat}
    (hi : i < 2) (hs : s.bit (Reg.dieStep i 0) 31 = true) : (s.showDie x).bit (Reg.dieStep i 0) 31 = true := by
  obtain ⟨⟨-, hkept⟩, hstep, -⟩ := showDie_acts h h1 h2
  by_cases hx : x = (i, 0)
  · subst hx
    exact decide_eq_true (by rw [State.fld, hstep]; exact (stepWord_fields b).2.2)
  · have hne : ¬(x.1 = i ∧ x.2 = 0) := fun hc => hx (Prod.ext hc.1 hc.2)
    rw [bit_of_reg (hkept _ ?_)]
    · exact hs
    · simp only [List.map_cons, List.map_nil, List.mem_cons, List.not_mem_nil, or_false, not_or]
      refine ⟨hubReg_ne ?_ ?_ ?_, hubReg_ne ?_ ?_ ?_⟩ <;> simp only [Reg.dieStep, Reg.dieCap] <;> omega

/-! ### PARAMETER_BLOCK (R38 to R40) -/

/-- A die's first block has arrived. -/
def withBlock (s : State) (x : Nat × Nat) (b : ParamBlock) : State :=
  { s with pkg := { s.pkg with blocks := s.pkg.blocks ++ [{ hub := x.1, die := x.2, block := b }] } }

theorem blockOf_withBlock_self {s : State} {x : Nat × Nat} (b : ParamBlock) (h : s.blockOf x = none) :
    (withBlock s x b).blockOf x = some b := by
  have hf : s.pkg.blocks.find? (fun y => y.hub == x.1 && y.die == x.2) = none := by simpa [State.blockOf] using h
  simp [State.blockOf, withBlock, List.find?_append, hf]

theorem blockOf_withBlock_ne (s : State) {x y : Nat × Nat} (b : ParamBlock) (h : y ≠ x) : (withBlock s x b).blockOf y = s.blockOf y := by
  have hne : (x.1 == y.1 && x.2 == y.2) = false := by
    simpa using fun h1 h2 => h (Prod.ext h1.symm h2.symm)
  simp [State.blockOf, withBlock, List.find?_append, hne]

section
variable {h n : Nat} {b : ParamBlock} {s : State} (hh : h < 2) (hn : n < 120) (hd : farDie h n ∈ s.pkg.dies) (hm : s.modState h n = 2)
include hh hn hd hm

/-- The module carries a block of its far die. -/
theorem parameterBlock_open : ¬(2 ≤ h ∨ 120 ≤ n ∨ (farDie h n).2 ≠ (farDie h n).2 ∨ (!(s.pkg.dies.contains (farDie h n))) = true ∨
    s.modState h n ≠ 2) := by
  have hc : s.pkg.dies.contains (farDie h n) = true := List.contains_iff_mem.mpr hd
  rintro (h1 | h1 | h1 | h1 | h1)
  · omega
  · omega
  · exact h1 rfl
  · rw [hc] at h1; cases h1
  · exact h1 hm

theorem parameterBlock_known {a : ParamBlock} (hb : s.blockOf (farDie h n) = some a) :
    exec (.parameterBlock h n (farDie h n).2 b) s = .next (if a = b then s else s.fenceModule h n 0x1006 2) := by
  show Host.Outcome.next (applyParameterBlock h n (farDie h n).2 b s) = _
  rw [applyParameterBlock, if_neg (parameterBlock_open hh hn hd hm)]
  simp only [hb]

theorem parameterBlock_first (hb : s.blockOf (farDie h n) = none) (h2 : s.devState = 2) (h7 : s.power.step = 7) :
    exec (.parameterBlock h n (farDie h n).2 b) s = .next ((((withBlock s (farDie h n) b).showDie (farDie h n)).showCaps).afterBlocks) := by
  show Host.Outcome.next (applyParameterBlock h n (farDie h n).2 b s) = _
  rw [applyParameterBlock, if_neg (parameterBlock_open hh hn hd hm)]
  simp only [hb, h2, h7, and_self, if_true]
  rfl

/-- R39: the same block again changes nothing, another one fences the module. -/
theorem parameterBlock_again {a : ParamBlock} (hb : s.blockOf (farDie h n) = some a) :
    (a = b → exec (.parameterBlock h n (farDie h n).2 b) s = .next s) ∧
      (a ≠ b → ∃ v, exec (.parameterBlock h n (farDie h n).2 b) s = .next v ∧
        v.reg (Reg.errLog ((s.reg Reg.errLogHead).toNat % 256) 0) = BitVec.ofNat 32 (0x1006 + 65536 * 2)) := by
  rw [parameterBlock_known hh hn hd hm hb]
  refine ⟨fun hab => by rw [if_pos hab], fun hab => ⟨_, rfl, ?_⟩⟩
  rw [if_neg hab]
  exact fenceModule_logs s 0x1006 2 hh hn

/-- R38, R40: with another block outstanding, the first block of a die is shown and start-up waits. -/
theorem parameterBlock_waits (hb : s.blockOf (farDie h n) = none) (h2 : s.devState = 2) (h7 : s.power.step = 7)
    (ho : ∃ x ∈ s.pkg.dies, x ≠ farDie h n ∧ s.blockOf x = none) :
    ∃ v, exec (.parameterBlock h n (farDie h n).2 b) s = .next v ∧ v.pkg = { s.pkg with
        blocks := s.pkg.blocks ++ [{ hub := (farDie h n).1, die := (farDie h n).2, block := b }] } ∧
      v.reg (Reg.dieCap (farDie h n).1 (farDie h n).2) = b.caps ∧ v.reg (Reg.dieStep (farDie h n).1 (farDie h n).2) = stepWord b ∧
      (∀ i, i < 2 → s.bit (Reg.dieStep i 0) 31 = true → v.reg (Reg.capHalf i) = BitVec.ofNat 32 (v.commonCaps (hubDies i)) ∧
        v.reg (Reg.capCommon i) = BitVec.ofNat 32 (v.commonCaps (hubDies 0 ++ hubDies 1))) ∧
      onlyRegs ([Reg.dieStep (farDie h n).1 (farDie h n).2, Reg.dieCap (farDie h n).1 (farDie h n).2] ++ [0, 1].flatMap capRegs)
        { s with pkg := v.pkg } v := by
  obtain ⟨h1, h11⟩ := farDie_bounds hh hn
  have hself := blockOf_withBlock_self b hb
  obtain ⟨hshow, hstep, hcap⟩ := showDie_acts hself h1 h11
  have hcaps := onlyRegs_showCaps ((withBlock s (farDie h n) b).showDie (farDie h n))
  have hdies := diesKept_showCaps ((withBlock s (farDie h n) b).showDie (farDie h n)) _ _ h1 h11
  have hpkg : ((withBlock s (farDie h n) b).showDie (farDie h n)).showCaps.pkg = (withBlock s (farDie h n) b).pkg :=
    (devKept_trans (devKept_showDie _ _) (devKept_showCaps _)).pkg
  have hall : ((withBlock s (farDie h n) b).showDie (farDie h n)).showCaps.allBlocks = false := by
    obtain ⟨x, hx, hne, hnone⟩ := ho
    refine Bool.eq_false_iff.mpr fun hall => ?_
    rw [State.allBlocks, hpkg] at hall
    have hsome := List.all_eq_true.mp hall x hx
    have hx : ((withBlock s (farDie h n) b).showDie (farDie h n)).showCaps.blockOf x = s.blockOf x := by
      rw [← blockOf_withBlock_ne s b hne, State.blockOf, hpkg]; rfl
    rw [hx, hnone] at hsome
    cases hsome
  refine ⟨_, parameterBlock_first hh hn hd hm hb h2 h7, ?_⟩
  rw [State.afterBlocks, hall, if_neg (by decide)]
  refine ⟨hpkg, hdies.2.trans hcap, hdies.1.trans hstep,
    fun i hi hs => showCaps_shows _ hi (showDie_shown hself h1 h11 hi hs), ?_⟩
  rw [hpkg]
  exact onlyRegs_trans (s := withBlock s (farDie h n) b) (onlyRegs_mono hshow fun o ho => List.mem_append_left _ ho)
    (onlyRegs_mono hcaps fun o ho => List.mem_append_right _ ho)

/-- R40, R57: the last block lets start-up go on to its last step, unless a die lacks a required bit. -/
theorem parameterBlock_last (hb : s.blockOf (farDie h n) = none) (h2 : s.devState = 2) (h7 : s.power.step = 7)
    (ho : ∀ x ∈ s.pkg.dies, x ≠ farDie h n → s.blockOf x ≠ none) (hf : s.pkg.failedCores = []) :
    ∃ v, exec (.parameterBlock h n (farDie h n).2 b) s = .next v ∧
      (v.power.step = 10 ∨ (v.devState = 7 ∧ v.fld Reg.devState 31 16 = 0x1011)) := by
  have hk := devKept_trans (devKept_showDie (withBlock s (farDie h n) b) (farDie h n)) (devKept_showCaps _)
  have hblock : ∀ x, ((withBlock s (farDie h n) b).showDie (farDie h n)).showCaps.blockOf x = (withBlock s (farDie h n) b).blockOf x :=
    fun x => by rw [State.blockOf, hk.pkg]; rfl
  have hall : ((withBlock s (farDie h n) b).showDie (farDie h n)).showCaps.allBlocks = true := by
    rw [State.allBlocks, hk.pkg]
    refine List.all_eq_true.mpr fun x hx => ?_
    rw [hblock x]
    by_cases he : x = farDie h n
    · rw [he, blockOf_withBlock_self b hb]; rfl
    · rw [blockOf_withBlock_ne s b he]
      exact Option.isSome_iff_ne_none.mpr (ho x hx he)
  refine ⟨_, parameterBlock_first hh hn hd hm hb h2 h7, ?_⟩
  rcases afterBlocks_acts (hk.devState.trans h2) hall (by rw [hk.pkg]; exact hf) with ⟨hstep, -⟩ | ⟨-, hstate, hcode⟩
  · exact .inl hstep
  · exact .inr ⟨hstate, hcode⟩

end

/-- R40: a block that never comes stops boot with 0x1012. -/
theorem parameterBlockTimeout_fails {s : State} {x : Nat × Nat} (hd : x ∈ s.pkg.dies) (h2 : s.devState = 2) (h7 : s.power.step = 7)
    (hb : s.blockOf x = none) : ∃ v, exec (.parameterBlockTimeout x.1 x.2) s = .next v ∧
      v.devState = 7 ∧ v.fld Reg.devState 31 16 = 0x1012 ∧ memoryKept s v := by
  obtain ⟨hstate, hcode, hmem, -⟩ := raise_failed (s := s) (e := { code := 0x1012, cls := 4, unit := dieUnit x.1 x.2 }) rfl (by rw [h2]; decide)
  refine ⟨_, congrArg Host.Outcome.next (if_pos ⟨h2, h7, List.contains_iff_mem.mpr hd, ?_⟩), hstate, hcode, hmem⟩
  rw [show s.blockOf (x.1, x.2) = none from hb]
  rfl

/-- R533: a step that does not end by its bound stops boot with 0xA021. -/
theorem startupStepTimeout_fails {s : State} {k : Nat} (hp : s.power.powerOk = true) (h2 : s.devState = 2) (hs : s.power.step ≤ k) (h6 : 6 ≤ k)
    (h9 : k ≤ 9) : ∃ v, exec (.startupStepTimeout k) s = .next v ∧ v.devState = 7 ∧ v.fld Reg.devState 31 16 = 0xA021 ∧ memoryKept s v := by
  obtain ⟨hstate, hcode, hmem, -⟩ := raise_failed (s := s) (e := { code := 0xA021, cls := 4 }) rfl (by rw [h2]; decide)
  exact ⟨_, congrArg Host.Outcome.next (if_pos (by simp [hp, h2, hs, h6, h9])), hstate, hcode, hmem⟩

/-! ### O58 -/

/-- Settles O58: the boot ROM's choice, a package with nothing missing, the power-on reset, and the blocks of the dies. -/
theorem startupProceeds : Obligations.StartupProceeds := by
  unfold Obligations.StartupProceeds
  refine ⟨⟨fun pkg s hp h7 => ⟨fun ht => powerOkAssert_test hp ht, fun ht hl => powerOkAssert_pll_fails hp h7 ht hl, ?_⟩,
    fun s hp => powerOkDeassert_acts hp⟩, ?_⟩
  · rintro e ht hl rfl
    exact ⟨fun hc => powerOkAssert_no_firmware hp h7 ht hl hc, fun f hc => powerOkAssert_firmware hp h7 ht hl hc⟩
  · rintro h n d b s hh hn rfl hd
    refine ⟨fun hm => ⟨fun a hb => parameterBlock_again hh hn hd hm hb, fun hb h2 h7 ho => ?_,
      fun hb h2 h7 ho hf => parameterBlock_last hh hn hd hm hb h2 h7 ho hf⟩,
      fun h2 h7 hb => parameterBlockTimeout_fails hd h2 h7 hb, fun k hp h2 hs h6 h9 => startupStepTimeout_fails hp h2 hs h6 h9⟩
    obtain ⟨v, he, hpkg, hcap, hstep, hcaps, honly⟩ := parameterBlock_waits (b := b) hh hn hd hm hb h2 h7 ho
    obtain ⟨htype, hstepping, hpresent⟩ := stepWord_fields b
    rw [← hstep] at htype hstepping hpresent
    exact ⟨v, he, hpkg, hcap, htype, hstepping, decide_eq_true hpresent, hcaps, honly⟩

end Sys2Proof.Laws

/-! # Refusals of the fingering operations, and O26 -/

namespace Sys2Proof.Laws

open Sys2Proof Sys2Proof.Machine

/-! ### Logging leaves memory and the slots alone -/

theorem memoryKept_of_onlyLog {offs : List Nat} {s t : State} (h : onlyLog offs s t) : memoryKept s t := by
  obtain ⟨hframe, -⟩ := h
  rw [hframe]
  exact fun l => rfl

theorem slot_of_onlyLog {offs : List Nat} {s t : State} (h : onlyLog offs s t) (f : FSlot) : t.slot f = s.slot f := by
  obtain ⟨hframe, -⟩ := h
  rw [hframe]
  cases f <;> rfl

/-! ### The outcome of a FING_CTL operation (R124, R549) -/

theorem onlyLog_logRefusal {offs : List Nat} (s : State) (u : UnitCode) (r : Refused) : onlyLog offs s (s.logRefusal u r) := by
  unfold State.logRefusal
  split
  · exact onlyLog_refl _ _
  · dsimp only
    split
    · exact onlyLog_trans (onlyLog_logEntry _ _) (onlyLog_logEntry _ _)
    · exact onlyLog_logEntry _ _

theorem onlyLog_fingCode (s : State) (u : UnitCode) (r : Refused) : onlyLog [Reg.fingStatus] s (s.fingCode u r) :=
  onlyLog_trans (onlyLog_trans (onlyLog_setFld s (.inr (List.mem_singleton_self _))) (onlyLog_logRefusal _ _ _))
    (onlyLog_msixBoth _ (by decide))

/-- LAST_CODE takes the outcome's code; the rest of FING_STATUS stays. -/
theorem fingCode_status (s : State) (u : UnitCode) (r : Refused) :
    (s.fingCode u r).reg Reg.fingStatus = withBits (s.reg Reg.fingStatus) 31 16 r.code := by
  obtain ⟨-, hreg, -⟩ := onlyLog_trans (offs := []) (onlyLog_logRefusal (s.setFld Reg.fingStatus 31 16 r.code) u r)
    (onlyLog_msixBoth _ (v := 2) (by decide))
  exact (hreg _ (by decide) List.not_mem_nil).trans (reg_setFld _ _ _ _ _)

theorem fingCode_code (s : State) (u : UnitCode) (r : Refused) : (s.fingCode u r).fld Reg.fingStatus 31 16 = r.code % 65536 := by
  unfold State.fld
  rw [fingCode_status]
  exact bits_withBits_self _ _ (by decide) (by decide)

theorem fingCode_low (s : State) (u : UnitCode) (r : Refused) {hi lo : Nat} (h : lo ≤ hi) (hb : hi < 16) :
    (s.fingCode u r).fld Reg.fingStatus hi lo = s.fld Reg.fingStatus hi lo := by
  unfold State.fld
  rw [fingCode_status]
  exact bits_withBits_ne _ _ (by decide) h (by omega) (.inl hb)

/-- A refusal with a code of its own is one entry of class RF. -/
theorem logRefusal_plain (s : State) (u : UnitCode) {code : Nat} (h : code ≠ 0) :
    s.logRefusal u { code := code } = s.logEntry { code := code, cls := 7, unit := u, info0 := none, info1 := 0 } := by
  unfold State.logRefusal
  rw [if_neg h]

theorem fingCode_logs (s : State) (u : UnitCode) {code : Nat} (h0 : code ≠ 0) (hc : code < 65536) :
    (s.fingCode u { code := code }).reg Reg.errLogHead = s.reg Reg.errLogHead + 1 ∧
      (s.fingCode u { code := code }).reg (Reg.errLog ((s.reg Reg.errLogHead).toNat % 256) 0) = BitVec.ofNat 32 (code + 65536 * 7) := by
  have hi : (s.reg Reg.errLogHead).toNat % 256 < 256 := Nat.mod_lt _ (by decide)
  have hhead : (s.setFld Reg.fingStatus 31 16 code).reg Reg.errLogHead = s.reg Reg.errLogHead := reg_setFld_ne _ _ _ _ (by decide)
  unfold State.fingCode
  rw [logRefusal_plain _ _ h0]
  constructor
  · rw [msixBoth_reg _ (by decide) fun p w hp hw => msixPba_ne_log (by decide) hp hw, logEntry_head, hhead]
  · rw [msixBoth_reg _ (by decide) fun p w hp hw => msixPba_ne_log (by unfold Reg.errLog; omega) hp hw,
      logEntry_ring _ _ hi (by decide), hhead, if_pos rfl, if_pos rfl, Nat.mod_eq_of_lt hc]
    rfl

/-! ### Operations that are refused (R113, Table 2.20) -/

theorem exec_load (f : FSlot) (s : State) : exec (.load f) s = .next (applyLoad f s) := rfl
theorem exec_verifyDone (f : FSlot) (s : State) : exec (.verifyDone f) s = .next (applyVerifyDone f s) := rfl
theorem exec_evict (f : FSlot) (s : State) : exec (.evict f) s = .next (applyEvict f s) := rfl
theorem exec_start (f : FSlot) (t : Nat) (s : State) : exec (.start f t) s = .next (applyStart f t s) := rfl
theorem exec_stop (s : State) : exec .stop s = .next (applyStop s) := rfl

/-- From `s` to `v` an operation has been refused with a code. -/
def RefusedWith (code : Nat) (s v : State) : Prop :=
  v.fld Reg.fingStatus 31 16 = code ∧ v.slotA = s.slotA ∧ v.slotB = s.slotB ∧ memoryKept s v ∧
    v.reg Reg.errLogHead = s.reg Reg.errLogHead + 1 ∧
    v.reg (Reg.errLog ((s.reg Reg.errLogHead).toNat % 256) 0) = BitVec.ofNat 32 (code + 65536 * 7)

theorem refusedWith_fingCode (s : State) (u : UnitCode) {code : Nat} (h0 : code ≠ 0) (hc : code < 65536) :
    RefusedWith code s (s.fingCode u { code := code }) := by
  have hl := onlyLog_fingCode s u { code := code }
  exact ⟨(fingCode_code s u _).trans (Nat.mod_eq_of_lt hc), slot_of_onlyLog hl .a, slot_of_onlyLog hl .b, memoryKept_of_onlyLog hl,
    fingCode_logs s u h0 hc⟩

/-- Any operation while BUSY. -/
theorem busy_refused {s : State} (f : FSlot) (t : Nat) {c : Instr} (hw : s.writeOpen Reg.fingCtl = true) (hb : s.fingBusy = true)
    (hc : c ∈ [Instr.load f, .evict f, .start f t, .stop]) : ∃ v, exec c s = .next v ∧ RefusedWith 0x2012 s v := by
  have hbt : (s.at t).fingBusy = true := hb
  simp only [List.mem_cons, List.not_mem_nil, or_false] at hc
  rcases hc with rfl | rfl | rfl | rfl
  · exact ⟨_, by rw [exec_load, applyLoad, hw, hb]; rfl, refusedWith_fingCode s _ (by decide) (by decide)⟩
  · exact ⟨_, by rw [exec_evict, applyEvict, hw, hb]; rfl, refusedWith_fingCode s _ (by decide) (by decide)⟩
  · exact ⟨_, by rw [exec_start, applyStart, hw]; simp only [hbt, Bool.true_or]; rfl,
      refusedWith_fingCode (s.at t) _ (by decide) (by decide)⟩
  · exact ⟨_, by rw [exec_stop, applyStop, hw, hb]; rfl, refusedWith_fingCode s _ (by decide) (by decide)⟩

/-- LOAD and EVICT of the RUNNING slot. -/
theorem running_slot_refused {s : State} {f : FSlot} {c : Instr} (hw : s.writeOpen Reg.fingCtl = true) (hb : s.fingBusy = false)
    (h3 : (s.slot f).state = 3) (hc : c ∈ [Instr.load f, .evict f]) : ∃ v, exec c s = .next v ∧ RefusedWith 0x200E s v := by
  simp only [List.mem_cons, List.not_mem_nil, or_false] at hc
  rcases hc with rfl | rfl
  · exact ⟨_, by rw [exec_load, applyLoad, hw, hb, if_pos h3]; rfl, refusedWith_fingCode s _ (by decide) (by decide)⟩
  · exact ⟨_, by rw [exec_evict, applyEvict, hw, hb, if_pos h3]; rfl, refusedWith_fingCode s _ (by decide) (by decide)⟩

/-- START while a slot runs, in FAILED, or of a slot that is not LOADED. -/
theorem start_refused {s : State} {f : FSlot} (t : Nat) (hw : s.writeOpen Reg.fingCtl = true)
    (h : s.runSlot.isSome = true ∨ (s.slot f).state ≠ 2 ∨ s.devState = 7) :
    exec (.start f t) s = .next ((s.at t).fingCode (slotUnit f) { code := 0x2012 }) := by
  have hc : ((s.at t).fingBusy || (s.at t).runSlot.isSome || decide (((s.at t).slot f).state ≠ 2) || decide ((s.at t).devState = 7)) = true := by
    have hr : (s.at t).runSlot = s.runSlot := rfl
    have hs : ((s.at t).slot f).state = (s.slot f).state := by cases f <;> rfl
    have hd : (s.at t).devState = s.devState := rfl
    rw [hr, hs, hd]
    simp only [Bool.or_eq_true, decide_eq_true_eq]
    tauto
  rw [exec_start, applyStart, hw]
  simp only [hc]
  rfl

/-- Settles O26: each operation that cannot run ends in one refusal. -/
theorem operationsAreRefused : Obligations.OperationsAreRefused := by
  unfold Obligations.OperationsAreRefused
  rintro f t c code s hw (⟨hb, rfl, hc⟩ | ⟨hb, h3, rfl, hc⟩ | ⟨-, h, rfl, rfl⟩ | ⟨hb, hr, rfl, rfl⟩)
  · exact busy_refused f t hw hb hc
  · exact running_slot_refused hw hb h3 hc
  · exact ⟨_, start_refused t hw (h.imp_right .inl), refusedWith_fingCode (s.at t) _ (by decide) (by decide)⟩
  · exact ⟨_, by rw [exec_stop, applyStop, hw, hb, hr]; rfl, refusedWith_fingCode s _ (by decide) (by decide)⟩

end Sys2Proof.Laws

/-! # A commit and a replay whose effects end the run (O33, O34) -/

namespace Sys2Proof.Laws

open Sys2Proof Sys2Proof.Machine

/-! ### A commit that fails the device (R87, R185, R544) -/

/-- A fingering of one position whose MANIFEST tensor stands at an unmapped address. -/
def lostManifestFing : Fing :=
  { hdr := { imageSize := 4096, sections := 1, dirOffset := 0, sigOffset := 0, sigSize := 0, fullTwin := false, streaming := true,
             srEnable := false, standbyB := false, reqCaps := 0, reqPresent0 := 0, reqPresent1 := 0, period := 100000, planLen := 1,
             verdictDelay := 1000, longEvery := 0, cascadeId := 0, cascadeSize := 1, target := 0, rollbackVer := 0,
             homeDigest := [], buildId := [] }
    own := { units := [], longs := [], cores := [], route := none, update := none, tier := none }
    takeover := { units := [], longs := [], cores := [], route := none, update := none, tier := none }
    tensors := [{ id := 0, cls := 0, format := 0, writable := true, mirrored := false, holdGrad := false, hostBias := false,
                  size := 8, taddr := 0, home := 0, landing := 0 }]
    stages := [], rdc := none, numeric := none
    forager := some { retainStep := false, fixedSteps := 0, staging := 0, manifest := 0, cache := 0, configTag := 0,
                      streams := [], ops := [] }
    hostIo := none, digest := [], key := 0 }

/-- A window of position 0 that has been reported. -/
def reportedWin : Win :=
  { beat := 5, pos := 0, start := 0, stretch := 0, long := false, slot := .a, takeover := false, fixed := false, holdAll := false,
    replays := 0, period := 100000, held := false, fault := false, rpUnits := [], inGap := true, entered := true,
    reported := true, margin := 0, cycle := 0 }

/-- A verdict on that window at instant 0. -/
def dueVerdict (kind : Nat) : Due :=
  { kind := kind, beat := 5, at_ := 0, flags := 0, stretch := 0, margin := 0, coord := { x := 0, y := 0, z := 0 }, lost := none,
    epoch := 1 }

/-- That window awaits a verdict of a kind in a run of a fingering. -/
def judgingState (g : Fing) (kind : Nat) : State :=
  { State.reset with
    slotA := { state := 3, lo := 0, hi := 0, kept := [], alone := false, fing := some g }
    beat := { State.reset.beat with win := some reportedWin, due := [dueVerdict kind] } }

/-- A touched tile of core 0, which a waiting fence takes from the physical core 0; the die's spare is free. -/
def fencedCommitState : State :=
  { judgingState lostManifestFing 0 with
    regs := [(Reg.coreState 0, BitVec.ofNat 32 (0x7F * 8192)), (Reg.coreSpare 0, 0)]
    test := { TestSt.reset with fences := [{ typ := 5, idx := 0, sub := 0 }] }
    cores := { State.reset.cores with
      wga := [{ core := 0, tile := 0, ptr := false, touch := true, sramOk := false, combBad := false }] } }

/-- The commit advances CYCLE in the MANIFEST, whose tensor is at an unmapped address. -/
theorem fencedCommitState_applies :
    fencedCommitState.judged = some reportedWin ∧
      fencedCommitState.beat.due.find? (fun x => x.kind == 0 && decide (x.at_ ≤ 0)) = some (dueVerdict 0) := by
  decide +kernel

/-- The state whose effects the statement speaks of. -/
def fencedCommitJudged : State :=
  let s := fencedCommitState
  { s.at 0 with
    beat := { s.beat with due := s.beat.due.filter fun x => decide (reportedWin.beat < x.beat) }
    casc := { s.casc with
      reports := s.casc.reports.filter fun x => decide (reportedWin.beat < x.beat)
      fences := s.casc.fences.filter fun x => !(x.1 == reportedWin.beat % 2 ^ 32)
      mirrorRx := s.casc.mirrorRx.filter fun x => !(x.1 == reportedWin.beat % 2 ^ 32) } }

/-- The program fault ends the run, at whose end the fence gives logical core 0 to the spare: the tile has SRAM_OK 0. -/
theorem fencedCommitJudged_tile :
    (fencedCommitJudged.commitEffects 0 reportedWin ((fencedCommitState.fing.map (·.hdr.planLen)).getD 1 - 1)).cores.wga =
      [{ core := 0, tile := 0, ptr := true, touch := false, sramOk := false, combBad := false }] := by
  decide +kernel

/-- With no core passed on before the commit the statement has SRAM_OK 1. -/
theorem fencedCommitState_tile :
    fencedCommitState.cores.wga.map (fun y => if y.touch then { y with
        ptr := !y.ptr, touch := false
        sramOk := !(fencedCommitState.combOnly y.core) &&
          !(fencedCommitState.cores.subst.any fun z => z.1 == y.core && decide (reportedWin.beat ≤ z.2))
        combBad := false } else y) =
      [{ core := 0, tile := 0, ptr := true, touch := false, sramOk := true, combBad := false }] := by
  decide +kernel

/-- Refutes O33: the effects of a commit may themselves fail the device. In `fencedCommitState` the commit of the plan's last
position writes CYCLE to a MANIFEST at an unmapped address, the program fault 0x600D ends the run, and the fence that waits for a
gap takes effect then: logical core 0 passes to the spare, and its tile has SRAM_OK 0 although no number had passed before. -/
theorem not_commitsApplyOneWindow : ¬ Obligations.CommitsApplyOneWindow := by
  unfold Obligations.CommitsApplyOneWindow
  intro h
  obtain ⟨hjudged, hdue⟩ := fencedCommitState_applies
  obtain ⟨v, x, -, hx, htiles, -⟩ := h 0 0 (.commit 0) (dueVerdict 0) reportedWin fencedCommitState fencedCommitJudged (by decide)
    hdue hjudged rfl rfl rfl
  rw [hx, fencedCommitJudged_tile, fencedCommitState_tile] at htiles
  exact absurd htiles (by decide)

/-! ### A replay that loses the device (R346, R352) -/

/-- A homing that began before the window waits for a host port, and none is up. -/
def strandedHomingState : State :=
  { judgingState lostManifestFing 2 with
    regs := [(Reg.pileState 0, 2), (Reg.beatCtl, 4)]
    tier := { TierSt.reset with
      super := [{ off := 0, length := 4096, hostAddr := 0, port := 0 }]
      moves := [{ tensor := 0, target := 0, length := 8, progress := 0, marked := 0, hist := [], stale := false, homing := true,
                  source := superBase, begun := 4, complete := false }] } }

theorem strandedHomingState_applies :
    strandedHomingState.beat.due.find? (fun x => x.kind == 2 && decide (x.at_ ≤ 0)) = some (dueVerdict 2) ∧
      strandedHomingState.judged = some reportedWin ∧ strandedHomingState.runSlot = some .a ∧
      strandedHomingState.fing = some lostManifestFing ∧ strandedHomingState.running = true ∧
      strandedHomingState.beat.stopNow = false := by
  decide +kernel

theorem exec_replay (t : Nat) (s : State) : exec (.replay t) s = .next (applyVerdict 2 t s) := rfl

/-- The replay asks for the homing's bytes again, finds no port and takes the device-loss path: no window runs. -/
theorem strandedHomingState_ends : (applyVerdict 2 0 strandedHomingState).beat.win = none := by
  decide +kernel

/-- Refutes O34: in `strandedHomingState` the replay begins a homing again whose source has no allowed port up, so the device takes
the device-loss path (0x6014) and no window starts. -/
theorem not_replaysDiscardAndRestart : ¬ Obligations.ReplaysDiscardAndRestart := by
  unfold Obligations.ReplaysDiscardAndRestart
  intro h
  obtain ⟨hdue, hjudged, hslot, hfing, hrun, hstop⟩ := strandedHomingState_applies
  obtain ⟨v, x, hv, hwin, -⟩ := h 0 (dueVerdict 2) reportedWin .a lostManifestFing strandedHomingState hdue hjudged rfl hslot hfing
    hrun hstop rfl rfl
  rw [exec_replay] at hv
  rw [← Host.Outcome.next.inj hv, strandedHomingState_ends] at hwin
  nomatch hwin

end Sys2Proof.Laws

/-! # The mailbox, and O32 -/

namespace Sys2Proof.Laws

open Sys2Proof Sys2Proof.Machine

/-! ### What an entry of the log leaves alone -/

theorem beat_of_onlyLog {offs : List Nat} {s t : State} (h : onlyLog offs s t) :
    t.beat = { s.beat with onceMsix := t.beat.onceMsix } := by
  obtain ⟨hframe, -⟩ := h
  rw [hframe]

theorem host_of_onlyLog {offs : List Nat} {s t : State} (h : onlyLog offs s t) : t.host = s.host := by
  obtain ⟨hframe, -⟩ := h
  rw [hframe]

/-- An event whose class asks for nothing is an entry of the log. -/
theorem raise_logged (s : State) {e : Ev} (h : e.cls = 0) : s.raise e = s.logEntry e := by
  simp only [State.raise, h]
  rfl

/-- The first word of the entry at HEAD is that of the event. -/
theorem logEntry_first (s : State) (e : Ev) :
    (s.logEntry e).reg (Reg.errLog ((s.reg Reg.errLogHead).toNat % 256) 0) =
      BitVec.ofNat 32 (e.code % 65536 + 65536 * (e.cls % 8)) := by
  rw [logEntry_ring _ _ (Nat.mod_lt _ (by decide)) (by decide), if_pos rfl, if_pos rfl]

/-- A field of one bit. -/
theorem bit_setFld_self (s : State) {o i : Nat} (v : Nat) (h : i < 32) : (s.setFld o i i v).bit o i = decide (v % 2 = 1) := by
  unfold State.bit
  rw [fld_setFld_self s v (Nat.le_refl i) h, Nat.sub_self, Nat.zero_add, pow_one]

/-! ### Reading the mailbox (R119, R120, R126) -/

theorem exec_mailboxRead (t : Nat) (s : State) : exec (.mailboxRead t) s = .next (applyMailboxRead t s) := rfl
theorem exec_mailboxReadComplete (b : Option Bytes) (s : State) :
    exec (.mailboxReadComplete b) s = .next (applyMailboxReadComplete b s) := rfl
theorem exec_nop (s : State) : exec .nop s = .next (applyNop s) := rfl
theorem exec_switch (s : State) : exec .switch s = .next (applySwitch s) := rfl
theorem exec_mailboxStop (s : State) : exec .mailboxStop s = .next (applyMailboxStop s) := rfl
theorem exec_args (s : State) : exec .args s = .next (applyArgs s) := rfl

theorem mailboxRead_asks {s : State} {a : Nat} (t : Nat) (ha : s.mailAt s.host.ctrl = some a) (hr : s.running = true)
    (ho : s.host.orphan = false) (hp : s.portUp s.host.ctrl = true) (h0 : s.beat.reading = 0) (hn : s.beat.page = none) :
    applyMailboxRead t s = State.readMailbox { s.at t with beat := { s.beat with reading := 1 } } s.host.ctrl a 4 := by
  simp [applyMailboxRead, ha, hr, ho, hp, h0, hn]

theorem mailboxRead_waits {s : State} {a : Nat} (t : Nat) (ha : s.mailAt s.host.ctrl = some a)
    (h : s.running = false ∨ s.host.orphan = true ∨ s.portUp s.host.ctrl = false ∨ s.beat.reading ≠ 0 ∨ s.beat.page ≠ none) :
    applyMailboxRead t s = s := by
  simp only [applyMailboxRead, ha]
  refine if_neg fun hc => ?_
  simp only [Bool.and_eq_true, Bool.not_eq_true', beq_iff_eq, Option.isNone_iff_eq_none] at hc
  obtain ⟨⟨⟨⟨hr, ho⟩, hp⟩, h0⟩, hn⟩ := hc
  rcases h with h | h | h | h | h
  · rw [h] at hr; cases hr
  · rw [h] at ho; cases ho
  · rw [h] at hp; cases hp
  · exact h h0
  · exact h hn

theorem mailboxReadComplete_seq {s : State} {a : Nat} (b : Bytes) (ha : s.mailAt s.host.ctrl = some a) (h1 : s.beat.reading = 1) :
    applyMailboxReadComplete (some b) s =
      State.readMailbox { s with beat := { s.beat with reading := 2, cmdSeq := b.take 4 } } s.host.ctrl (a + 4) 4092 := by
  simp [applyMailboxReadComplete, h1, State.mailboxSeq, ha]

theorem mailboxReadComplete_page {s : State} (b : Bytes) (h2 : s.beat.reading = 2) :
    applyMailboxReadComplete (some b) s = s.mailboxPage (b.take 4092) := by
  simp [applyMailboxReadComplete, h2]

/-- A page whose CMD_SEQ has been acted on is dropped; another waits. -/
theorem mailboxPage_eq (s : State) (b : Bytes) :
    s.mailboxPage b = { s with
      beat := { s.beat with reading := 0, page := if fieldAt (s.beat.cmdSeq ++ b) 0 4 = s.beat.cmdAck then s.beat.page
                                                   else some (s.beat.cmdSeq ++ b) }
      host := { s.host with mailFails := 0 } } := by
  unfold State.mailboxPage
  dsimp only
  split <;> rfl

/-- A read that fails: the count of R493 and 0x2025. -/
theorem mailboxFails_logs (s : State) :
    s.mailboxFails.beat.reading = 0 ∧ s.mailboxFails.beat.page = s.beat.page ∧
      s.mailboxFails.host = { s.host with mailFails := s.host.mailFails + 1,
                                          failing := s.host.failing || decide (64 ≤ s.host.mailFails + 1) } ∧
      s.mailboxFails.reg (Reg.errLog ((s.reg Reg.errLogHead).toNat % 256) 0) = BitVec.ofNat 32 0x2025 := by
  unfold State.mailboxFails
  dsimp only
  rw [raise_logged _ rfl]
  refine ⟨?_, ?_, host_of_onlyLog (onlyLog_logEntry (offs := []) _ _), logEntry_first _ _⟩ <;>
    rw [beat_of_onlyLog (onlyLog_logEntry (offs := []) _ _)]

/-! ### The commands of a page (R115, R116, R121, Table 2.10) -/

theorem pageFor_of_match {s : State} {p : Bytes} {w : Win} {n : Nat} (hp : s.beat.page = some p) (hw : s.beat.win = some w)
    (hr : s.running = true) (he : w.entered = true) (hn : pageCmd p = n) : s.pageFor n = some p := by
  simp [State.pageFor, hp, hw, hr, he, hn]

theorem pageFor_of_not_entered {s : State} {w : Win} (n : Nat) (hw : s.beat.win = some w) (he : w.entered = false) :
    s.pageFor n = none := by
  unfold State.pageFor
  rw [hw]
  cases s.beat.page <;> simp [he]

theorem pageFor_of_other {s : State} {p : Bytes} {n : Nat} (hp : s.beat.page = some p) (hn : pageCmd p ≠ n) : s.pageFor n = none := by
  unfold State.pageFor
  rw [hp]
  cases s.beat.win <;> simp [hn]

/-- The commands that act on a page, and the code of each. -/
def pageCommands : List (Instr × Nat) := [(.nop, 0), (.switch, 1), (.mailboxStop, 2), (.args, 3)]

/-- No command acts when the page is not for it. -/
theorem exec_of_pageFor_none {s : State} {c : Instr} {n : Nat} (hc : (c, n) ∈ pageCommands) (h : s.pageFor n = none) :
    exec c s = .next s := by
  simp only [pageCommands, List.mem_cons, Prod.mk.injEq, List.not_mem_nil, or_false] at hc
  rcases hc with ⟨rfl, rfl⟩ | ⟨rfl, rfl⟩ | ⟨rfl, rfl⟩ | ⟨rfl, rfl⟩
  · rw [exec_nop, applyNop, h]
  · rw [exec_switch, applySwitch, h]
  · rw [exec_mailboxStop, applyMailboxStop, h]
  · rw [exec_args, applyArgs, h]

/-- A page whose CMD_ACK and CMD_RESULT will be reported. -/
structure Acked (p : Bytes) (code : Nat) (s v : State) : Prop where
  page : v.beat.page = none
  ack : v.beat.cmdAck = fieldAt p 0 4
  result : v.beat.cmdResult = code
  new : v.beat.ackNew = true
  memory : memoryKept s v

/-- The page is no longer waiting, and the next report carries its CMD_ACK and CMD_RESULT. -/
def posted (s : State) (p : Bytes) (code : Nat) : State :=
  { s with beat := { s.beat with page := none, cmdAck := fieldAt p 0 4, cmdResult := code, ackNew := true } }

theorem onlyLog_ack (s : State) (p : Bytes) (u : UnitCode) (r : Refused) : onlyLog [] (posted s p r.code) (s.ack p u r) :=
  onlyLog_logRefusal _ u r

theorem acked_ack (s : State) (p : Bytes) (u : UnitCode) (r : Refused) : Acked p r.code s (s.ack p u r) := by
  have hl := onlyLog_ack s p u r
  have hb := beat_of_onlyLog hl
  exact ⟨by rw [hb]; rfl, by rw [hb]; rfl, by rw [hb]; rfl, by rw [hb]; rfl, fun l => memoryKept_of_onlyLog hl l⟩

/-- What stands when a page is acknowledged. -/
theorem ack_keeps (s : State) (p : Bytes) (u : UnitCode) (r : Refused) :
    (s.ack p u r).beat.switchTo = s.beat.switchTo ∧ (s.ack p u r).beat.stopAt = s.beat.stopAt ∧
      ∀ f, (s.ack p u r).slot f = s.slot f := by
  have hl := onlyLog_ack s p u r
  have hb := beat_of_onlyLog hl
  exact ⟨by rw [hb]; rfl, by rw [hb]; rfl, fun f => (slot_of_onlyLog hl f).trans (by cases f <;> rfl)⟩

theorem slot_setSlot_self (s : State) (f : FSlot) (x : SlotSt) : (s.setSlot f x).slot f = x := by cases f <;> rfl

theorem slot_setSlotState_self (s : State) (f : FSlot) (n : Nat) : (s.setSlotState f n).slot f = { s.slot f with state := n } := by
  cases f <;> rfl

theorem slot_setSlotState_other (s : State) (f : FSlot) (n : Nat) : (s.setSlotState f n).slot (otherSlot f) = s.slot (otherSlot f) := by
  cases f <;> rfl

theorem beat_setSlotState (s : State) (f : FSlot) (n : Nat) : (s.setSlotState f n).beat = s.beat := by cases f <;> rfl

/-! ### STOP -/

theorem pageStop_passed {s : State} {p : Bytes} (h : fieldAt p 8 8 ≠ 0 ∧ fieldAt p 8 8 ≤ s.beat.cycle) :
    s.pageStop p = s.ack p wholeDevice { code := 0x2012 } := if_pos h

theorem pageStop_stands {s : State} {p : Bytes} (h : ¬(fieldAt p 8 8 ≠ 0 ∧ fieldAt p 8 8 ≤ s.beat.cycle)) :
    s.pageStop p = (let u := (s.ack p wholeDevice { code := 0 }).setFld Reg.fingStatus 7 7 0
      { u with beat := { u.beat with stopAt := some (u.targetCycle (fieldAt p 8 8)), switchTo := none } }) := if_neg h

/-! ### SWITCH -/

/-- The slot that a page names. -/
def pageSlot (p : Bytes) : FSlot := if fieldAt p 0x10 4 % 2 = 1 then .b else .a

theorem pageSwitch_stands {s : State} {p : Bytes} (h : s.switchRefusal (pageSlot p) (fieldAt p 8 8) = none) :
    s.pageSwitch p = (let u := (s.ack p wholeDevice { code := 0 }).setFld Reg.fingStatus 7 7 1
      { u with beat := { u.beat with switchTo := some (pageSlot p, u.targetCycle (fieldAt p 8 8)), stopAt := none } }) := by
  unfold State.pageSwitch
  dsimp only
  rw [← pageSlot, h]

/-- The target slot of a refused SWITCH, REFUSED when its key or its rollback version no longer stands. -/
def State.refuseSlot (s : State) (f : FSlot) (b : Bool) : State :=
  if b then (s.setSlot f { s.slot f with fing := none }).setSlotState f 4 else s

theorem pageSwitch_refused {s : State} {p : Bytes} {r : Refused} {b : Bool}
    (h : s.switchRefusal (pageSlot p) (fieldAt p 8 8) = some (r, b)) :
    s.pageSwitch p = (State.refuseSlot s (pageSlot p) b).ack p (slotUnit (pageSlot p)) r := by
  unfold State.pageSwitch
  dsimp only
  rw [← pageSlot, h]
  rfl

theorem refuseSlot_keeps (s : State) (f : FSlot) (b : Bool) :
    (State.refuseSlot s f b).beat = s.beat ∧ memoryKept s (State.refuseSlot s f b) ∧ (b = true → ((State.refuseSlot s f b).slot f).state = 4) := by
  cases b with
  | false => exact ⟨rfl, fun l => rfl, fun h => nomatch h⟩
  | true =>
    refine ⟨?_, ?_, fun _ => ?_⟩
    · exact (beat_setSlotState _ f 4).trans (by cases f <;> rfl)
    · exact memoryKept_of_keeps (keeps_setSlotState _ f 4 (keeps_setSlot s f _ (keeps_refl s) (covers_allBut rfl)) (covers_allBut rfl))
    · exact congrArg SlotSt.state (slot_setSlotState_self _ f 4)

/-- A slot that is not LOADED is no target. -/
theorem switchRefusal_not_loaded {s : State} {f : FSlot} (target : Nat) (h : (s.slot f).state ≠ 2) :
    s.switchRefusal f target = some ({ code := 0x2011 }, false) := by
  unfold State.switchRefusal
  split
  · rw [if_pos h]
  · rfl

/-- Every command of the mailbox acknowledges its page. -/
theorem acked_pageCommands {s : State} {c : Instr} {p : Bytes} {v : State} (hc : (c, pageCmd p) ∈ pageCommands)
    (hf : s.pageFor (pageCmd p) = some p) (hv : exec c s = .next v) : ∃ code, Acked p code s v := by
  simp only [pageCommands, List.mem_cons, Prod.mk.injEq, List.not_mem_nil, or_false] at hc
  rcases hc with ⟨rfl, h⟩ | ⟨rfl, h⟩ | ⟨rfl, h⟩ | ⟨rfl, h⟩ <;> rw [h] at hf
  · rw [exec_nop, applyNop, hf] at hv
    cases hv
    exact ⟨0, acked_ack s p wholeDevice { code := 0 }⟩
  · rw [exec_switch, applySwitch, hf] at hv
    cases hv
    cases hr : s.switchRefusal (pageSlot p) (fieldAt p 8 8) with
    | none =>
      obtain ⟨h1, h2, h3, h4, h5⟩ := acked_ack s p wholeDevice { code := 0 }
      dsimp only
      rw [pageSwitch_stands hr]
      exact ⟨0, h1, h2, h3, h4, h5⟩
    | some x =>
      obtain ⟨r, b⟩ := x
      obtain ⟨h1, h2, h3, h4, h5⟩ := acked_ack (State.refuseSlot s (pageSlot p) b) p (slotUnit (pageSlot p)) r
      obtain ⟨-, hm, -⟩ := refuseSlot_keeps s (pageSlot p) b
      dsimp only
      rw [pageSwitch_refused hr]
      exact ⟨r.code, h1, h2, h3, h4, fun l => (h5 l).trans (hm l)⟩
  · rw [exec_mailboxStop, applyMailboxStop, hf] at hv
    cases hv
    by_cases ht : fieldAt p 8 8 ≠ 0 ∧ fieldAt p 8 8 ≤ s.beat.cycle
    · dsimp only
      rw [pageStop_passed ht]
      exact ⟨_, acked_ack s p wholeDevice { code := 0x2012 }⟩
    · obtain ⟨h1, h2, h3, h4, h5⟩ := acked_ack s p wholeDevice { code := 0 }
      dsimp only
      rw [pageStop_stands ht]
      exact ⟨0, h1, h2, h3, h4, h5⟩
  · rw [exec_args, applyArgs, hf] at hv
    cases hv
    obtain ⟨h1, h2, h3, h4, h5⟩ := acked_ack s p wholeDevice { code := 0 }
    exact ⟨0, h1, h2, h3, h4, h5⟩

/-! ### O32 -/

/-- The two reads of the mailbox, and what a read that fails does. -/
theorem mailbox_reads (t a : Nat) (s : State) (ha : s.mailAt s.host.ctrl = some a) :
    (s.running = true → s.host.orphan = false → s.portUp s.host.ctrl = true → s.beat.reading = 0 → s.beat.page = none →
      exec (.mailboxRead t) s = .next { s with
        now := max s.now t, beat := { s.beat with reading := 1 }
        out := s.out ++ [if (s.hport s.host.ctrl).cxl then .cxlRead s.host.ctrl a 4 else .hostRead s.host.ctrl a 4 none] }) ∧
    (s.running = false ∨ s.host.orphan = true ∨ s.portUp s.host.ctrl = false ∨ s.beat.reading ≠ 0 ∨ s.beat.page ≠ none →
      exec (.mailboxRead t) s = .next s) ∧
    ∀ b : Bytes, s.beat.reading = 1 → exec (.mailboxReadComplete (some b)) s = .next { s with
      beat := { s.beat with reading := 2, cmdSeq := b.take 4 }
      out := s.out ++ [if (s.hport s.host.ctrl).cxl then .cxlRead s.host.ctrl (a + 4) 4092
        else .hostRead s.host.ctrl (a + 4) 4092 none] } := by
  refine ⟨fun hr ho hp h0 hn => ?_, fun h => ?_, fun b h1 => ?_⟩
  · rw [exec_mailboxRead, mailboxRead_asks t ha hr ho hp h0 hn]
    rfl
  · rw [exec_mailboxRead, mailboxRead_waits t ha h]
  · rw [exec_mailboxReadComplete, mailboxReadComplete_seq b ha h1]
    rfl

/-- What STOP does with its target. -/
theorem mailboxStop_acts {s : State} {p : Bytes} (hf : s.pageFor 2 = some p) :
    ((fieldAt p 8 8 = 0 ∨ s.beat.cycle < fieldAt p 8 8) → ∃ v, exec .mailboxStop s = .next v ∧ v.beat.cmdResult = 0 ∧
      v.beat.stopAt = some (s.targetCycle (fieldAt p 8 8)) ∧ v.beat.switchTo = none ∧ v.bit Reg.fingStatus 7 = false) ∧
    (fieldAt p 8 8 ≠ 0 → fieldAt p 8 8 ≤ s.beat.cycle → ∃ v, exec .mailboxStop s = .next v ∧ v.beat.cmdResult = 0x2012 ∧
      v.beat.stopAt = s.beat.stopAt ∧ v.beat.switchTo = s.beat.switchTo) := by
  rw [exec_mailboxStop, applyMailboxStop, hf]
  refine ⟨fun h => ⟨_, rfl, ?_⟩, fun h0 hle => ⟨_, rfl, ?_⟩⟩
  · dsimp only
    rw [pageStop_stands (by omega)]
    exact ⟨rfl, rfl, rfl, bit_setFld_self _ _ (by decide)⟩
  · dsimp only
    rw [pageStop_passed ⟨h0, hle⟩]
    obtain ⟨hswitch, hstop, -⟩ := ack_keeps s p wholeDevice { code := 0x2012 }
    obtain ⟨-, -, hresult, -, -⟩ := acked_ack s p wholeDevice { code := 0x2012 }
    exact ⟨hresult, hstop, hswitch⟩

/-- What SWITCH does with its target. -/
theorem switch_acts {s : State} {p : Bytes} (hf : s.pageFor 1 = some p) :
    (s.switchRefusal (pageSlot p) (fieldAt p 8 8) = none → ∃ v, exec .switch s = .next v ∧ v.beat.cmdResult = 0 ∧
      v.beat.switchTo = some (pageSlot p, s.targetCycle (fieldAt p 8 8)) ∧ v.beat.stopAt = none ∧
      v.bit Reg.fingStatus 7 = true) ∧
    ∀ r b, s.switchRefusal (pageSlot p) (fieldAt p 8 8) = some (r, b) → ∃ v, exec .switch s = .next v ∧
      v.beat.cmdResult = r.code ∧ v.beat.switchTo = s.beat.switchTo ∧ v.beat.stopAt = s.beat.stopAt ∧
      (b = true → (v.slot (pageSlot p)).state = 4) := by
  rw [exec_switch, applySwitch, hf]
  refine ⟨fun h => ⟨_, rfl, ?_⟩, fun r b h => ⟨_, rfl, ?_⟩⟩
  · dsimp only
    rw [pageSwitch_stands h]
    exact ⟨rfl, rfl, rfl, bit_setFld_self _ _ (by decide)⟩
  · dsimp only
    rw [pageSwitch_refused h]
    obtain ⟨hbeat, -, hstate⟩ := refuseSlot_keeps s (pageSlot p) b
    obtain ⟨hswitch, hstop, hslot⟩ := ack_keeps (State.refuseSlot s (pageSlot p) b) p (slotUnit (pageSlot p)) r
    obtain ⟨-, -, hresult, -, -⟩ := acked_ack (State.refuseSlot s (pageSlot p) b) p (slotUnit (pageSlot p)) r
    exact ⟨hresult, hswitch.trans (by rw [hbeat]), hstop.trans (by rw [hbeat]), fun hb => by rw [hslot]; exact hstate hb⟩

/-- Settles O32: the mailbox is read in two requests, and a page acts only where `pageFor` finds it. -/
theorem theMailboxIsReadAndActedOn : Obligations.TheMailboxIsReadAndActedOn := by
  unfold Obligations.TheMailboxIsReadAndActedOn
  refine ⟨⟨fun t a s ha => mailbox_reads t a s ha, ?_, ?_⟩, ?_⟩
  · rintro b page s h2 rfl
    rw [exec_mailboxReadComplete, mailboxReadComplete_page b h2, mailboxPage_eq]
  · intro s h0
    obtain ⟨hreading, hpage, hhost, hlog⟩ := mailboxFails_logs s
    exact ⟨_, by rw [exec_mailboxReadComplete, applyMailboxReadComplete, if_neg h0], hreading, hpage, hhost, hlog⟩
  · intro p f w target s hp hr hw
    refine ⟨fun he c hc => ?_, ?_⟩
    · have hn : ∃ n, (c, n) ∈ pageCommands := by
        simp only [List.mem_cons, List.not_mem_nil, or_false] at hc
        rcases hc with rfl | rfl | rfl | rfl <;> simp [pageCommands]
      obtain ⟨n, hn⟩ := hn
      exact exec_of_pageFor_none hn (pageFor_of_not_entered n hw he)
    · rintro he rfl rfl
      have hf : ∀ n, pageCmd p = n → s.pageFor n = some p := fun n hn => pageFor_of_match hp hw hr he hn
      refine ⟨fun c v hc hv => ?_, fun c n hc hn => exec_of_pageFor_none hc (pageFor_of_other hp hn), fun h => ?_, fun h => ?_,
        fun h => (mailboxStop_acts (hf 2 h)).1, fun h => (mailboxStop_acts (hf 2 h)).2, fun h => (switch_acts (hf 1 h)).1,
        fun h => (switch_acts (hf 1 h)).2, fun h => ?_⟩
      · obtain ⟨code, hpage, hack, -, hnew, hmem⟩ := acked_pageCommands hc (hf _ rfl) hv
        exact ⟨hpage, hack, hnew, hmem⟩
      · rw [exec_nop, applyNop, hf 0 h]
        rfl
      · rw [exec_args, applyArgs, hf 3 h]
        rfl
      · rw [switchRefusal_not_loaded _ h]
        rfl

end Sys2Proof.Laws

/-! # The commit gap and the beat report, and O30 -/

namespace Sys2Proof.Laws

open Sys2Proof Sys2Proof.Machine

/-! ### The gap starts (R72, R81) -/

theorem exec_gapStart (t : Nat) (s : State) : exec (.gapStart t) s = .next (applyGapStart t s) := rfl
theorem exec_gapEntry (t : Nat) (s : State) : exec (.gapEntry t) s = .next (applyGapEntry t s) := rfl
theorem exec_beatReport (t : Nat) (s : State) : exec (.beatReport t) s = .next (applyBeatReport t s) := rfl

theorem gapStart_due {s : State} {w : Win} {t : Nat} (hw : s.beat.win = some w) (ht : w.gapStart ≤ t) (hg : w.inGap = false) :
    applyGapStart t s = (s.at t).setWindow w.beat fun y => { y with inGap := true } := by
  simp [applyGapStart, hw, ht, hg]

theorem gapStart_idle {s : State} {w : Win} {t : Nat} (hw : s.beat.win = some w) (h : t < w.gapStart ∨ w.inGap = true) :
    applyGapStart t s = s := by
  simp only [applyGapStart, hw]
  refine if_neg fun hc => ?_
  simp only [Bool.and_eq_true, decide_eq_true_eq, Bool.not_eq_true'] at hc
  obtain ⟨hle, hg⟩ := hc
  rcases h with h | h
  · omega
  · rw [h] at hg
    cases hg

theorem setWindow_win {s : State} {w : Win} (f : Win → Win) (hw : s.beat.win = some w) :
    (s.setWindow w.beat f).beat.win = some (f w) := by
  simp [State.setWindow, hw]

/-! ### The gap is entered (R81, R82, R99) -/

/-- The state in which the FENCE messages go out: the window has entered its gap, and an overrun has been counted. -/
def gapFencing (s : State) (w : Win) : State := (s.setWindow w.beat Win.enter).gapOverrun w

theorem gapEntry_enters {s : State} {w : Win} (t : Nat) (h : s.enterable = some w) :
    exec (.gapEntry t) s = .next ((s.at t).enterGap w) := by
  rw [exec_gapEntry, applyGapEntry, h]

theorem gapEntry_idle {s : State} (t : Nat) (h : s.enterable = none) : exec (.gapEntry t) s = .next s := by
  rw [exec_gapEntry, applyGapEntry, h]

/-- What follows the FENCE messages only adds outputs. -/
theorem keeps_behind_fences (s : State) (w : Win) :
    Keeps (fun _ => true) (gapFencing s w).sendFences (s.enterGap w) := by
  have hall : ∀ l, covers (fun _ => true) l := fun _ _ _ => rfl
  have hlost := keeps_gapLosses _ (keeps_settle _ (keeps_gapCovers _ w (keeps_thirdFailure _ w
    (keeps_refl (gapFencing s w).sendFences) (hall _)) (hall _)) (hall _)) (hall _)
  unfold State.enterGap
  dsimp only
  split
  · exact hlost
  · split
    · exact keeps_gapState _ w hlost (hall _)
    · exact keeps_sendMirrorFence _ _ (keeps_gapState _ w hlost (hall _)) (hall _)

/-- Of a window without a fault no unit has failed a third time. -/
theorem thirdFailure_none (s : State) {w : Win} (h : w.fault = false) : s.thirdFailure w = s := by
  simp [State.thirdFailure, h]

/-- The FENCE messages: the ACTIVE units' own, and the hub's for the others. -/
theorem sendFences_out (s : State) : ∃ a b, Out.fences a b ∈ s.sendFences.out ∧
    ∀ x ∈ allUnits, (x ∈ a ↔ (s.unit x).power = 0) ∧ (x ∈ b ↔ (s.unit x).power ≠ 0) := by
  refine ⟨_, _, List.mem_append_right _ List.mem_cons_self, fun x hx => ⟨?_, ?_⟩⟩
  · simp [List.mem_filter, hx]
  · simp [List.mem_filter, hx]

/-- A window in time ends the count of overruns. -/
theorem gapOverrun_in_time (s : State) {w : Win} (h : 0 ≤ w.margin) : s.gapOverrun w = s.setFld Reg.beatStretch 15 8 0 :=
  if_neg (by omega)

theorem gapOverrun_late (s : State) {w : Win} (h : w.margin < 0) :
    s.gapOverrun w = (s.logEntry { code := 0x2022, cls := 0 }).bumpSat Reg.beatStretch 15 8 1 := by
  rw [State.gapOverrun, if_pos h, raise_logged _ rfl]

theorem bumpSat_beat (s : State) (o hi lo n : Nat) : (s.bumpSat o hi lo n).beat = s.beat := rfl

/-- Logging touches no window. -/
theorem gapOverrun_windows (s : State) (w : Win) :
    (s.gapOverrun w).beat.win = s.beat.win ∧ (s.gapOverrun w).beat.prev = s.beat.prev := by
  by_cases h : w.margin < 0
  · rw [gapOverrun_late s h]
    have hb := beat_of_onlyLog (onlyLog_logEntry (offs := []) s { code := 0x2022, cls := 0 })
    exact ⟨by rw [bumpSat_beat, hb], by rw [bumpSat_beat, hb]⟩
  · rw [gapOverrun_in_time s (by omega)]
    exact ⟨rfl, rfl⟩

/-- A saturating count of a field. -/
theorem fld_bumpSat_self (s : State) {o hi lo : Nat} (n : Nat) (h : lo ≤ hi) (hb : hi < 32) :
    (s.bumpSat o hi lo n).fld o hi lo = min (s.fld o hi lo + n) (2 ^ (hi - lo + 1) - 1) := by
  unfold State.bumpSat
  rw [fld_setFld_self _ _ h hb, Nat.mod_eq_of_lt]
  have : 0 < 2 ^ (hi - lo + 1) := Nat.two_pow_pos _
  omega

/-- Every window of the beat has entered its gap. -/
theorem gapFencing_entered (s : State) (w : Win) :
    ∀ x ∈ (gapFencing s w).beat.win.toList ++ (gapFencing s w).beat.prev, x.beat = w.beat → x.inGap = true ∧ x.entered = true := by
  obtain ⟨hwin, hprev⟩ := gapOverrun_windows (s.setWindow w.beat Win.enter) w
  have hone : ∀ y : Win, (if y.beat = w.beat then y.enter else y).beat = w.beat →
      (if y.beat = w.beat then y.enter else y).inGap = true ∧ (if y.beat = w.beat then y.enter else y).entered = true := by
    intro y
    split
    · exact fun _ => ⟨rfl, rfl⟩
    · exact fun h => absurd h ‹_›
  intro x hx
  rw [gapFencing, hwin, hprev] at hx
  rcases List.mem_append.mp hx with hx | hx
  · simp only [State.setWindow, Option.mem_toList, Option.map_eq_some_iff] at hx
    obtain ⟨y, -, rfl⟩ := hx
    exact hone y
  · simp only [State.setWindow, List.mem_map] at hx
    obtain ⟨y, -, rfl⟩ := hx
    exact hone y

/-! ### The report (R83, R436) -/

theorem checkMirror_unexpected {s : State} (w : Win) (h : s.expectsMirror = false) : s.checkMirror w = s := by
  unfold State.checkMirror
  rw [h]
  rfl

theorem lateFailure_none (s : State) {w : Win} (h : w.rpUnits = [] ∨ w.replays < 2) : s.lateFailure w = s := by
  refine if_pos ?_
  rcases h with h | h <;> simp [h]

/-- The partner that a report names as lost. -/
def lostPartner (s : State) : Option Coord :=
  match s.route with
  | some r => if s.casc.partner then some (unpackCoord r.twin) else none
  | none => none

theorem lostPartner_none {s : State} (h : s.casc.partner = false) : lostPartner s = none := by
  unfold lostPartner
  rw [h]
  split <;> rfl

/-- The third failure that the check of the mirror stream has shown. -/
def lateChecked (s : State) (beat : Nat) : State :=
  match s.window beat with
  | some w => s.lateFailure w
  | none => s

/-- A window is reported. -/
def windowReported (s : State) (beat t : Nat) : State :=
  match s.window beat with
  | none => s
  | some w =>
    let u := s.setWindow w.beat fun y => { y with reported := true }
    u.sendReport (u.reportMsg w (lostPartner u)) t

theorem beatReport_eq {s : State} {w : Win} (t : Nat)
    (h : (s.beat.prev ++ s.beat.win.toList).find? (fun x => x.entered && !x.reported) = some w) :
    exec (.beatReport t) s = .next (windowReported (lateChecked ((s.at t).checkMirror w) w.beat) w.beat t) := by
  rw [exec_beatReport, applyBeatReport, h]
  rfl

theorem lateChecked_none {s : State} {w : Win} (hw : s.window w.beat = some w) (h : w.rpUnits = [] ∨ w.replays < 2) :
    lateChecked s w.beat = s := by
  rw [lateChecked, hw]
  exact lateFailure_none s h

theorem beatReport_reports {s : State} {w : Win} (t : Nat)
    (hfind : (s.beat.prev ++ s.beat.win.toList).find? (fun x => x.entered && !x.reported) = some w)
    (hm : s.expectsMirror = false) (hw : s.window w.beat = some w) (hr : w.rpUnits = [] ∨ w.replays < 2) :
    exec (.beatReport t) s = .next (((s.at t).setWindow w.beat fun y => { y with reported := true }).sendReport
      (((s.at t).setWindow w.beat fun y => { y with reported := true }).reportMsg w (lostPartner s)) t) := by
  have hw' : (s.at t).window w.beat = some w := hw
  rw [beatReport_eq t hfind, checkMirror_unexpected w (show (s.at t).expectsMirror = false from hm), lateChecked_none hw' hr,
    windowReported, hw']
  rfl

/-! ### O30 -/

/-- The count of overruns and the entry of one. -/
theorem gapFencing_counts (t : Nat) (s : State) (w : Win) :
    (0 ≤ w.margin → (gapFencing (s.at t) w).fld Reg.beatStretch 15 8 = 0 ∧ regsKeptBut [Reg.beatStretch] s (gapFencing (s.at t) w)) ∧
    (w.margin < 0 → (gapFencing (s.at t) w).fld Reg.beatStretch 15 8 = min 255 (s.fld Reg.beatStretch 15 8 + 1) ∧
      (gapFencing (s.at t) w).reg Reg.errLogHead = s.reg Reg.errLogHead + 1) := by
  refine ⟨fun h => ?_, fun h => ?_⟩ <;> unfold gapFencing
  · rw [gapOverrun_in_time _ h]
    exact ⟨fld_setFld_self _ _ (by decide) (by decide), fun o ho => reg_setFld_ne _ _ _ _ fun e => ho (List.mem_singleton.mpr e)⟩
  · rw [gapOverrun_late _ h]
    refine ⟨?_, (reg_bumpSat_ne _ _ _ _ (by decide)).trans (logEntry_head _ _)⟩
    rw [fld_bumpSat_self _ _ (by decide) (by decide), fld_of_reg (logEntry_reg _ _ (by decide)), Nat.min_comm]
    rfl

/-- Settles O30: a gap starts once, its entry sends the FENCE messages before all else, and each window is reported once. -/
theorem gapsAreEnteredAndReported : Obligations.GapsAreEnteredAndReported := by
  unfold Obligations.GapsAreEnteredAndReported
  refine ⟨fun t w s hw => ⟨fun ht hg => ?_, fun h => ?_⟩, fun t w s he => ?_, fun t w s he hfind hm hw hr => ?_⟩
  · rw [exec_gapStart, gapStart_due hw ht hg]
    exact ⟨_, rfl, setWindow_win (s := s.at t) _ hw, rfl, rfl⟩
  · rw [exec_gapStart, gapStart_idle hw h]
  · have hk := keeps_behind_fences (s.at t) w
    obtain ⟨a, b, hmem, hunits⟩ := sendFences_out (gapFencing (s.at t) w)
    obtain ⟨hin, hlate⟩ := gapFencing_counts t s w
    refine ⟨gapFencing (s.at t) w, _, gapEntry_enters t he, rfl, (List.prefix_append _ _).trans hk.out,
      ⟨a, b, hk.out.subset hmem, hunits⟩, hin, hlate, gapFencing_entered (s.at t) w, fun hf => ?_⟩
    rw [State.enterGap]
    dsimp only
    rw [thirdFailure_none _ hf]
    rfl
  · exact ⟨gapEntry_idle t he, lostPartner s, beatReport_reports t hfind hm hw hr, lostPartner_none⟩

end Sys2Proof.Laws

/-! # Ranges of registers that an operation leaves alone -/

namespace Sys2Proof.Laws

open Sys2Proof Sys2Proof.Machine

/-! ### A range of registers -/

/-- The registers from `lo` to `hi` read as before. -/
structure RangeKept (lo hi : Nat) (s t : State) : Prop where
  reg : ∀ o, lo ≤ o → o < hi → t.reg o = s.reg o

/-- A range outside the pile blocks, whose registers have homes of their own. -/
def ownHomes (lo hi : Nat) : Prop := hi ≤ 0x2000000 ∨ 0x2400000 ≤ lo

/-- A range outside the blocks of ports, hubs, cores, piles and links. -/
def noUnit (lo hi : Nat) : Prop := hi ≤ 0x200000 ∨ 0x3080000 ≤ lo

/-- The range of the beat and fingering block. -/
def planRange (lo hi : Nat) : Prop := 0x14 ≤ lo ∧ hi ≤ 0x200000

theorem noUnit.ownHomes {lo hi : Nat} (h : noUnit lo hi) : ownHomes lo hi := by
  unfold noUnit at h
  unfold Laws.ownHomes
  omega

theorem planRange.noUnit {lo hi : Nat} (h : planRange lo hi) : noUnit lo hi := .inl h.2

section
variable {lo hi : Nat} {s t u : State}

theorem RangeKept.fld (h : RangeKept lo hi s t) {o : Nat} (a b : Nat) (hl : lo ≤ o) (hh : o < hi) : t.fld o a b = s.fld o a b :=
  fld_of_reg (h.reg o hl hh) a b

theorem RangeKept.bit (h : RangeKept lo hi s t) {o : Nat} (i : Nat) (hl : lo ≤ o) (hh : o < hi) : t.bit o i = s.bit o i :=
  bit_of_reg (h.reg o hl hh) i

theorem RangeKept.pair (h : RangeKept lo hi s t) {o : Nat} (hl : lo ≤ o) (hh : o + 4 < hi) : t.pair o = s.pair o := by
  unfold State.pair
  rw [h.reg o hl (by omega), h.reg (o + 4) (by omega) hh]

theorem rangeKept_refl (s : State) : RangeKept lo hi s s := ⟨fun _ _ _ => rfl⟩

theorem RangeKept.trans (h : RangeKept lo hi s t) (g : RangeKept lo hi t u) : RangeKept lo hi s u :=
  ⟨fun o hl hh => (g.reg o hl hh).trans (h.reg o hl hh)⟩

theorem rangeKept_of_regs (h : t.regs = s.regs) : RangeKept lo hi s t := ⟨fun o _ _ => reg_congr h o⟩

theorem RangeKept.of_regs (h : RangeKept lo hi s t) (hr : u.regs = t.regs) : RangeKept lo hi s u := h.trans (rangeKept_of_regs hr)

theorem RangeKept.from_regs (h : RangeKept lo hi t u) (hr : t.regs = s.regs) : RangeKept lo hi s u := (rangeKept_of_regs hr).trans h

theorem rangeKept_foldl {α : Type} {f : State → α → State} {l : List α} (h : ∀ s, ∀ x ∈ l, RangeKept lo hi s (f s x)) (s : State) :
    RangeKept lo hi s (l.foldl f s) :=
  ⟨fun o hl hh => reg_foldl (fun s x hx => (h s x hx).reg o hl hh) s⟩

theorem rangeKept_ite {c : Prop} [Decidable c] (ht : c → RangeKept lo hi s t) (hu : ¬c → RangeKept lo hi s u) :
    RangeKept lo hi s (if c then t else u) := by
  split
  · exact ht ‹_›
  · exact hu ‹_›

/-- A register outside the range. -/
theorem rangeKept_setReg (hr : ownHomes lo hi) (s : State) {p : Nat} (v : Word) (hp : p < lo ∨ hi ≤ p) : RangeKept lo hi s (s.setReg p v) := by
  refine ⟨fun o hl hh => reg_setReg_ne s v ?_⟩
  have hb := regHome_bounds p
  unfold Laws.ownHomes at hr
  rw [regHome_id (o := o) (by omega)]
  omega

theorem rangeKept_setFld (hr : ownHomes lo hi) (s : State) {p : Nat} (a b v : Nat) (hp : p < lo ∨ hi ≤ p) :
    RangeKept lo hi s (s.setFld p a b v) := rangeKept_setReg hr s _ hp

theorem rangeKept_setBit (hr : ownHomes lo hi) (s : State) {p : Nat} (i : Nat) (b : Bool) (hp : p < lo ∨ hi ≤ p) :
    RangeKept lo hi s (s.setBit p i b) := rangeKept_setReg hr s _ hp

/-- A register of a unit. -/
theorem rangeKept_unitReg (hr : noUnit lo hi) (s : State) {p : Nat} (v : Word) (hl : 0x200000 ≤ p) (hh : p < 0x3080000) :
    RangeKept lo hi s (s.setReg p v) := rangeKept_setReg hr.ownHomes s v (by unfold noUnit at hr; omega)

theorem rangeKept_unitFld (hr : noUnit lo hi) (s : State) {p : Nat} (a b v : Nat) (hl : 0x200000 ≤ p) (hh : p < 0x3080000) :
    RangeKept lo hi s (s.setFld p a b v) := rangeKept_unitReg hr s _ hl hh

theorem rangeKept_unitBit (hr : noUnit lo hi) (s : State) {p : Nat} (i : Nat) (b : Bool) (hl : 0x200000 ≤ p) (hh : p < 0x3080000) :
    RangeKept lo hi s (s.setBit p i b) := rangeKept_unitReg hr s _ hl hh

/-! ### Outputs and the log -/

theorem rangeKept_emit (s : State) (o : Out) : RangeKept lo hi s (s.emit o) := rangeKept_of_regs rfl

theorem rangeKept_msix (hr : noUnit lo hi) (s : State) (p : HPort) (v : Nat) (hv : v < 128) : RangeKept lo hi s (s.msix p v) := by
  unfold State.msix
  have hi' : portIdx p < 2 := portIdx_lt p
  exact rangeKept_ite (fun _ => rangeKept_emit _ _)
    fun _ => rangeKept_unitBit hr s _ _ (by unfold Reg.msixPba; omega) (by unfold Reg.msixPba; omega)

theorem rangeKept_msixBoth (hr : noUnit lo hi) (s : State) {v : Nat} (hv : v < 128) : RangeKept lo hi s (s.msixBoth v) :=
  (rangeKept_msix hr s .a v hv).trans (rangeKept_msix hr _ .b v hv)

/-- DEV_STATE and its vector. -/
theorem rangeKept_setDevState (hr : noUnit lo hi) (hl : 0x14 ≤ lo) (s : State) (n : Nat) : RangeKept lo hi s (s.setDevState n) := by
  unfold State.setDevState
  refine rangeKept_ite (fun _ => rangeKept_refl s) fun _ => ?_
  exact (rangeKept_setFld hr.ownHomes s _ _ _ (.inl (by unfold Reg.devState; omega))).trans (rangeKept_msixBoth hr _ (by decide))

/-! ### Units -/

theorem fld_lt (s : State) (o a b : Nat) : s.fld o a b < 2 ^ (a - b + 1) := Nat.mod_lt _ (Nat.two_pow_pos _)

theorem rangeKept_showWga (hr : noUnit lo hi) (s : State) (l : Nat) : RangeKept lo hi s (s.showWga l) := by
  unfold State.showWga
  have hp : s.physOf l < 128 := fld_lt s _ 6 0
  refine rangeKept_ite (fun _ => rangeKept_refl s) fun _ => ?_
  refine ((rangeKept_unitReg hr _ _ ?_ ?_).trans (rangeKept_unitFld hr _ _ _ _ ?_ ?_)).trans (rangeKept_unitFld hr _ _ _ _ ?_ ?_)
  all_goals
    simp only [Reg.wgaCtl, Reg.wgaStatus]
    omega

theorem rangeKept_loadProgram (hr : noUnit lo hi) (s : State) (l : Nat) : RangeKept lo hi s (s.loadProgram l) := by
  unfold State.loadProgram
  split
  · rename_i c _
    have hk := keeps_coreWrite s l 0x1F00000 c.image (keeps_refl s) (covers_allBut (q := .regs) rfl)
    exact (rangeKept_of_regs (hk.parts .regs (by decide))).trans (rangeKept_showWga hr _ l)
  · exact rangeKept_showWga hr s l

theorem rangeKept_loadPrograms (hr : noUnit lo hi) (s : State) (ls : List Nat) :
    RangeKept lo hi s (ls.foldl (fun s l => if s.bit (Reg.coreMap l) 7 then s.loadProgram l else s) s) :=
  rangeKept_foldl (fun _ _ _ => rangeKept_ite (fun _ => rangeKept_loadProgram hr _ _) fun _ => rangeKept_refl _) s

end

end Sys2Proof.Laws

/-! # Markers and the windows that they start, and O29 -/

namespace Sys2Proof.Laws

open Sys2Proof Sys2Proof.Machine

/-! ### A window starts (R73, R75, R434) -/

/-- The mode in which a window runs (R389). -/
def windowMode (s : State) (g : Fing) (pos : Nat) (replay : Option Bool) : Bool :=
  replay.getD (if decide (pos = 0) && replay.isNone then s.fixedMode g (s.forager.cycles + s.pendingEnds (g.hdr.planLen - 1))
    else s.forager.fixed)

/-- The window that starts. -/
def newWindow (s : State) (f : FSlot) (g : Fing) (beat t stretch pos replays : Nat) (replay : Option Bool) (holdAll : Bool) : Win :=
  { beat := beat, pos := pos, start := t, stretch := stretch, long := isLong g.hdr pos, slot := f,
    takeover := s.casc.takeover, fixed := windowMode s g pos replay, holdAll := holdAll, replays := replays,
    period := effPeriod g.hdr stretch pos, held := false, fault := false, rpUnits := [], inGap := false, entered := false,
    reported := false, margin := (effPeriod g.hdr stretch pos : Int) - 2000,
    cycle := s.beat.cycle + s.pendingEnds (g.hdr.planLen - 1) }

/-- The windows that await a verdict once the running one has joined them. -/
def endedWindows (s : State) : List Win := s.beat.prev ++ (s.beat.win.toList.map fun x => { x with inGap := true })

/-- The window stands, and what counts from its start begins anew. -/
def windowBegun (s : State) (w : Win) (g : Fing) (replay : Option Bool) : State :=
  { s with
    beat := { s.beat with
      win := some w, prev := endedWindows s, nextPos := (w.pos + 1) % g.hdr.planLen, onceBeat := [], onceMsix := []
      onceCycle := if decide (w.pos = 0) && replay.isNone then [] else s.beat.onceCycle
      args := (match s.beat.argsNew with
        | some a => if a.2 then a.1 else s.beat.args
        | none => s.beat.args)
      argsNew := (match s.beat.argsNew with
        | some a => if a.2 then none else some a
        | none => none) }
    units := s.units.map fun (x : Nat × UnitSt) => (x.1, { x.2 with next := 0 })
    cores := { s.cores with counters := [] }
    upd := { s.upd with stopped := [] } }

/-- Bits that show an end of the window before clear. -/
def clearEnds (s : State) : State :=
  let s := (List.range 68).foldl (fun (s : State) (p : Nat) =>
    if s.bit (Reg.wgaStatus p) 18 then s.setBit (Reg.wgaStatus p) 18 false else s) s
  (List.range 16).foldl (fun s n => if s.fld (Reg.updStatus n) 1 0 = 3 then s.setFld (Reg.updStatus n) 1 0 0 else s) s

/-- BEAT_COUNT and BEAT_STRETCH of the window. -/
def countShown (s : State) (w : Win) : State :=
  let s := s.setPair Reg.beatCountLo (w.beat % 2 ^ 48)
  (s.setFld Reg.beatStretch 4 0 w.stretch).setBit Reg.beatStretch 16 (decide (w.stretch = 16))

/-- The foragers' mode. -/
def modeShown (s : State) (fixed : Bool) : State :=
  ({ s with forager := { s.forager with fixed := fixed } }).setBit Reg.forgStatus 0 fixed

/-- The registers show the window. -/
def windowShown (s : State) (w : Win) : State := modeShown (clearEnds (countShown s w)) w.fixed

/-- A device that ran no window begins to. -/
def runningFrom (s : State) (g : Fing) : State := if s.running then s else s.firstWindow g

theorem ended_append (s : State) : s.beat.prev ++ (match s.beat.win with
      | some w => [{ w with inGap := true }]
      | none => []) = endedWindows s := by
  unfold endedWindows
  cases s.beat.win <;> rfl

theorem startWindow_eq {s : State} {f : FSlot} {g : Fing} (hf : (s.slot f).fing = some g) (beat t stretch pos replays : Nat)
    (replay : Option Bool) (holdAll : Bool) :
    s.startWindow f beat t stretch pos replays replay holdAll =
      (let w := newWindow (s.at t) f g beat t stretch pos replays replay holdAll
      (runningFrom (windowShown (windowBegun (s.at t) w g replay) w).clearCrc g).emit (.beatOut t)) := by
  unfold State.startWindow windowBegun windowShown modeShown clearEnds countShown
  rw [show s.fingOf f = some g from hf, ← ended_append]
  dsimp only
  generalize List.range 68 = cores, List.range 16 = engines
  rfl

/-! ### What the start of a window leaves alone -/

theorem keeps_clearEnds {P : StatePart → Bool} {σ : State} (s : State) (hσ : Keeps P σ s) (hp : covers P [.regs]) :
    Keeps P σ (clearEnds s) :=
  keeps_foldl (fun _ _ _ h => keeps_ite (fun _ => keeps_setFld _ _ _ _ _ h hp) fun _ => h)
    (keeps_foldl (fun _ _ _ h => keeps_ite (fun _ => keeps_setBit _ _ _ _ h hp) fun _ => h) hσ)

theorem keeps_countShown {P : StatePart → Bool} {σ : State} (s : State) (w : Win) (hσ : Keeps P σ s) (hp : covers P [.regs]) :
    Keeps P σ (countShown s w) :=
  keeps_setBit _ _ _ _ (keeps_setFld _ _ _ _ _ (keeps_setPair s _ _ hσ hp) hp) hp

theorem keeps_modeShown {P : StatePart → Bool} {σ : State} (s : State) (fixed : Bool) (hσ : Keeps P σ s)
    (hp : covers P [.regs, .forager]) : Keeps P σ (modeShown s fixed) :=
  keeps_setBit _ _ _ _ (keeps_upd hσ) (hp.sub rfl)

theorem keeps_windowShown {P : StatePart → Bool} {σ : State} (s : State) (w : Win) (hσ : Keeps P σ s) (hp : covers P [.regs, .forager]) :
    Keeps P σ (windowShown s w) :=
  keeps_modeShown _ _ (keeps_clearEnds _ (keeps_countShown s w hσ (hp.sub rfl)) (hp.sub rfl)) hp

theorem windowShown_beat (s : State) (w : Win) : (windowShown s w).beat = s.beat :=
  (keeps_windowShown s w (keeps_refl s) (covers_allBut (q := .beat) rfl)).parts .beat (by decide)

theorem windowShown_cores (s : State) (w : Win) : (windowShown s w).cores = s.cores :=
  (keeps_windowShown s w (keeps_refl s) (covers_allBut (q := .cores) rfl)).parts .cores (by decide)

theorem clearCrc_beat (s : State) : s.clearCrc.beat = s.beat := rfl
theorem clearCrc_cores (s : State) : s.clearCrc.cores = s.cores := rfl
theorem clearCrc_pair (s : State) (o : Nat) : s.clearCrc.pair o = s.pair o := rfl

/-- RDC_CTL EN of the fingering. -/
def rdcShown (s : State) (g : Fing) : State :=
  let en : Nat := (g.rdc.map (·.en)).getD 0
  if s.hasRdc then
    ((s.setBit (Reg.rdcCtl 0) 0 (decide (en % 2 = 1))).setBit (Reg.rdcCtl 1) 0 (decide (en / 2 % 2 = 1))).applyRdcEn
  else s

/-- RUN, and DEV_STATE ACTIVE or DEGRADED. -/
def runShown (s : State) : State := (s.setBit Reg.beatCtl 2 true).setDevState (if s.bit Reg.devState 4 then 6 else 4)

/-- Every core that runs loads its program. -/
def programsLoaded (s : State) : State :=
  (List.range 64).foldl (fun s l => if s.bit (Reg.coreMap l) 7 then s.loadProgram l else s) s

theorem firstWindow_eq (s : State) (g : Fing) : s.firstWindow g = programsLoaded
    { rdcShown (runShown s) g with beat := { (rdcShown (runShown s) g).beat with waiting := false } } := by
  unfold State.firstWindow programsLoaded rdcShown runShown
  generalize List.range 64 = cores
  rfl

theorem runShown_beat (s : State) : (runShown s).beat = s.beat :=
  (keeps_setDevState _ _ (keeps_setBit s Reg.beatCtl 2 true (keeps_refl s) (covers_allBut (q := .beat) rfl)) (covers_allBut rfl)).parts
    .beat (by decide)

theorem rdcShown_beat (s : State) (g : Fing) : (rdcShown s g).beat = s.beat := by
  unfold rdcShown
  dsimp only
  split <;> rfl

theorem programsLoaded_beat (s : State) : (programsLoaded s).beat = s.beat :=
  (keeps_foldl (P := allBut .beat) (fun _ _ _ h => keeps_ite (fun _ => keeps_loadProgram _ _ h (covers_allBut rfl)) fun _ => h)
    (keeps_refl s)).parts .beat (by decide)

/-- The first window of a run ends the wait for it and changes nothing else of the beat. -/
theorem runningFrom_beat (s : State) (g : Fing) : ∃ b, (runningFrom s g).beat = { s.beat with waiting := b } := by
  unfold runningFrom
  split
  · exact ⟨s.beat.waiting, rfl⟩
  · refine ⟨false, ?_⟩
    rw [firstWindow_eq, programsLoaded_beat, rdcShown_beat, runShown_beat]

section
variable {lo hi : Nat}

theorem rangeKept_rdcShown (hr : noUnit lo hi) (s : State) (g : Fing) : RangeKept lo hi s (rdcShown s g) := by
  unfold rdcShown
  refine rangeKept_ite (fun _ => ?_) fun _ => rangeKept_refl _
  exact ((rangeKept_unitBit hr _ _ _ (by decide) (by decide)).trans (rangeKept_unitBit hr _ _ _ (by decide) (by decide))).of_regs rfl

theorem rangeKept_programsLoaded (hr : noUnit lo hi) (s : State) : RangeKept lo hi s (programsLoaded s) :=
  rangeKept_loadPrograms hr s _

theorem rangeKept_runShown (hr : planRange lo hi) (h : Reg.beatCtl < lo) (s : State) : RangeKept lo hi s (runShown s) :=
  (rangeKept_setBit hr.noUnit.ownHomes s 2 true (.inl h)).trans (rangeKept_setDevState hr.noUnit hr.1 _ _)

/-- BEAT_COUNT stands. -/
theorem rangeKept_runningFrom (hr : planRange lo hi) (h : Reg.beatCtl < lo) (s : State) (g : Fing) :
    RangeKept lo hi s (runningFrom s g) := by
  unfold runningFrom
  refine rangeKept_ite (fun _ => rangeKept_refl s) fun _ => ?_
  rw [firstWindow_eq]
  refine RangeKept.trans ?_ (rangeKept_programsLoaded hr.noUnit _)
  exact ((rangeKept_runShown hr h s).trans (rangeKept_rdcShown hr.noUnit _ g)).of_regs rfl

theorem rangeKept_clearEnds (hr : noUnit lo hi) (s : State) : RangeKept lo hi s (clearEnds s) := by
  refine (rangeKept_foldl (fun u p hp => rangeKept_ite (fun _ => rangeKept_unitBit hr _ _ _ ?_ ?_) fun _ => rangeKept_refl u) s).trans
    (rangeKept_foldl (fun u n hn => rangeKept_ite (fun _ => rangeKept_unitFld hr _ _ _ _ ?_ ?_) fun _ => rangeKept_refl u) _)
  all_goals
    simp only [List.mem_range] at *
    simp only [Reg.wgaStatus, Reg.updStatus]
    omega

theorem rangeKept_modeShown (hr : ownHomes lo hi) (h : hi ≤ Reg.forgStatus) (s : State) (fixed : Bool) :
    RangeKept lo hi s (modeShown s fixed) :=
  (rangeKept_setBit hr s 0 fixed (.inr h)).of_regs rfl

end

/-- The whole of the beat and fingering block. -/
theorem planBlock : planRange 0x14 0x200000 := ⟨by decide, by decide⟩

theorem runShown_running (s : State) : (runShown s).running = true :=
  ((rangeKept_setDevState planBlock.noUnit planBlock.1 _ _).bit 2 (by decide) (by decide)).trans (bit_setBit_self s true (by decide))

/-- The device runs. -/
theorem runningFrom_running (s : State) (g : Fing) : (runningFrom s g).running = true := by
  unfold runningFrom
  split
  · assumption
  · rw [firstWindow_eq]
    refine ((rangeKept_programsLoaded planBlock.noUnit _).bit 2 (by decide) (by decide)).trans ?_
    exact ((rangeKept_rdcShown planBlock.noUnit (runShown s) g).bit 2 (by decide) (by decide)).trans (runShown_running s)

/-- BEAT_COUNT is that of the window. -/
theorem windowShown_count (s : State) (w : Win) : (windowShown s w).pair Reg.beatCountLo = w.beat % 2 ^ 48 := by
  have hr : noUnit 0x100008 0x100010 := .inl (by decide)
  have hcount : RangeKept 0x100008 0x100010 (s.setPair Reg.beatCountLo (w.beat % 2 ^ 48)) (countShown s w) :=
    (rangeKept_setFld hr.ownHomes _ _ _ _ (.inr (by decide))).trans (rangeKept_setBit hr.ownHomes _ _ _ (.inr (by decide)))
  have hshown := (hcount.trans (rangeKept_clearEnds hr _)).trans (rangeKept_modeShown hr.ownHomes (by decide) _ w.fixed)
  rw [windowShown, hshown.pair (by decide) (by decide), pair_setPair]
  omega

/-! ### Markers (R434) -/

theorem exec_marker (t : Nat) (s : State) : exec (.marker t) s = .next (applyMarker t s) := rfl
theorem exec_standaloneFirstMarker (t : Nat) (s : State) :
    exec (.standaloneFirstMarker t) s = .next (applyStandaloneFirstMarker t s) := rfl

/-- What holds of a state in which a window has just started. -/
structure Started (s v : State) (w : Win) (g : Fing) : Prop where
  beat : ∃ b, v.beat = { (windowBegun s w g none).beat with waiting := b }
  running : v.running = true
  count : v.pair Reg.beatCountLo = w.beat % 2 ^ 48
  counters : v.cores.counters = []
  pulse : Out.beatOut w.start ∈ v.out

theorem startWindow_started {s : State} {f : FSlot} {g : Fing} (hf : (s.slot f).fing = some g) (beat t stretch pos : Nat) (holdAll : Bool) :
    Started (s.at t) (s.startWindow f beat t stretch pos 0 none holdAll) (newWindow (s.at t) f g beat t stretch pos 0 none holdAll) g := by
  rw [startWindow_eq hf]
  have hstart : (newWindow (s.at t) f g beat t stretch pos 0 none holdAll).start = t := rfl
  generalize newWindow (s.at t) f g beat t stretch pos 0 none holdAll = w at hstart ⊢
  dsimp only
  generalize hx : (windowShown (windowBegun (s.at t) w g none) w).clearCrc = x
  have hbeat : x.beat = (windowBegun (s.at t) w g none).beat := by
    rw [← hx, clearCrc_beat, windowShown_beat]
  have hcores : x.cores = (windowBegun (s.at t) w g none).cores := by
    rw [← hx, clearCrc_cores, windowShown_cores]
  have hcount : x.pair Reg.beatCountLo = w.beat % 2 ^ 48 := by
    rw [← hx, clearCrc_pair, windowShown_count]
  obtain ⟨b, hb⟩ := runningFrom_beat x g
  refine ⟨⟨b, by rw [emit_beat, hb, hbeat]⟩, runningFrom_running x g, ?_, ?_, ?_⟩
  · have hr : planRange 0x100008 0x100010 := ⟨by decide, by decide⟩
    exact ((rangeKept_runningFrom hr (by decide) x g).pair (by decide) (by decide)).trans hcount
  · rw [emit_cores, runningFrom]
    split
    · rw [hcores]
      rfl
    · rw [(keeps_firstWindow x g (keeps_refl x) (covers_allBut (q := .cores) rfl)).parts .cores (by decide), hcores]
      rfl
  · rw [hstart]
    exact List.mem_append_right _ List.mem_cons_self

/-- No page, no takeover, no switch and no stop stand between a marker and its window. -/
structure PlainRun (s : State) : Prop where
  adopting : s.casc.adopting = none
  coord : s.bit Reg.cascadeCoord 30 = false
  takeover : s.takeoverOn = false
  page : s.beat.page = none
  switch : s.beat.switchTo = none
  stop : s.beat.stopAt = none

theorem boundary_plain {s : State} (f : FSlot) (h : PlainRun s) : s.boundary f = (f, false) := by
  unfold State.boundary State.stopDue State.switchDue
  rw [h.switch, h.stop]
  split <;> simp

/-- The markers once one of them is taken. -/
def withoutMarker (s : State) (m : DueMarker) : State :=
  { s with beat := { s.beat with markers := s.beat.markers.filter fun x => !(x == m) } }

/-- What a device does with a marker that it has taken. -/
def takeMarker (s : State) (m : DueMarker) (t : Nat) : State :=
  match s.runSlot with
  | none => s
  | some f =>
    if s.casc.hold || decide (m.beat ≤ s.pair Reg.beatCountLo) || m.epoch != s.casc.epoch then s
    else
      let x := s.adoptMarker m
      if x.2 then x.1.runMarker f m t else x.1

theorem marker_taken {s : State} {t : Nat} {m : DueMarker} (h : dueMarker t s.beat.markers = some m) :
    exec (.marker t) s = .next (takeMarker (withoutMarker s m) m t) := by
  rw [exec_marker, applyMarker, h]
  rfl

theorem takeMarker_discards {s : State} {t : Nat} {m : DueMarker}
    (h : s.casc.hold = true ∨ m.beat ≤ s.pair Reg.beatCountLo ∨ m.epoch ≠ s.casc.epoch) : takeMarker s m t = s := by
  unfold takeMarker
  split
  · rfl
  · refine if_pos ?_
    simp only [Bool.or_eq_true, decide_eq_true_eq, bne_iff_ne]
    tauto

theorem takeMarker_runs {s : State} {t : Nat} {m : DueMarker} {f : FSlot} (hf : s.runSlot = some f) (hh : s.casc.hold = false)
    (hb : s.pair Reg.beatCountLo < m.beat) (he : m.epoch = s.casc.epoch) (hp : PlainRun s) :
    takeMarker s m t = s.runMarker f m t := by
  have ha : s.adoptMarker m = (s, true) := by simp [State.adoptMarker, hp.adopting, hp.coord]
  unfold takeMarker
  rw [hf]
  dsimp only
  rw [if_neg (by simp [hh, he, hb]), ha]
  rfl

/-- A marker at a plain boundary starts its window, or names another position than the next. -/
theorem runMarker_plain {s : State} {f : FSlot} {m : DueMarker} (t : Nat) (hp : PlainRun s) :
    s.runMarker f m t =
      if m.planPos ≠ s.beat.nextPos then (s.at t).raise { code := 0x8024, cls := 4 }
      else ((s.at t).setBit Reg.beatCtl 3 true).startWindow f m.beat m.at_ m.stretch s.beat.nextPos 0 none false := by
  have hpage : (s.at t).actOnPage = s.at t := by
    unfold State.actOnPage
    rw [show (s.at t).beat.page = none from hp.page]
  have hback : (s.at t).takeoverOn = false := hp.takeover
  have hbound : (s.at t).boundary f = (f, false) :=
    boundary_plain f ⟨hp.adopting, hp.coord, hp.takeover, hp.page, hp.switch, hp.stop⟩
  unfold State.runMarker
  rw [hpage]
  dsimp only
  have hnext : (if m.stretch = 0 ∧ (s.at t).takeoverOn = true then (s.at t).handBack else s.at t) = s.at t :=
    if_neg fun h => Bool.false_ne_true (hback.symm.trans h.2)
  rw [hnext, hbound]
  rfl

/-! ### O29 -/

theorem standaloneFirstMarker_issues {s : State} {g : Fing} (t : Nat) (hg : s.fing = some g) (h1 : g.hdr.cascadeSize ≤ 1)
    (hw : s.beat.waiting = true) (hm : s.beat.markers = []) :
    applyStandaloneFirstMarker t s = (({ s with
      beat := { s.beat with markers := [{ beat := s.pair Reg.beatCountLo + 1, at_ := t, stretch := 0, planPos := 0, epoch := 0 }] }
      casc := { s.casc with
        lastMark := some { beat := s.pair Reg.beatCountLo + 1, at_ := t, stretch := 0, planPos := 0, epoch := 0 }
        lastPeriod := effPeriod g.hdr 0 0, lastSlot := (s.runSlot).getD .a } } : State).setBit Reg.beatCtl 3 true).at t := by
  unfold applyStandaloneFirstMarker
  rw [hg]
  dsimp only
  rw [if_pos (by simp [h1, hw, hm])]

theorem standaloneFirstMarker_idle {s : State} {g : Fing} (t : Nat) (hg : s.fing = some g)
    (h : 1 < g.hdr.cascadeSize ∨ s.beat.waiting = false ∨ s.beat.markers ≠ []) : applyStandaloneFirstMarker t s = s := by
  unfold applyStandaloneFirstMarker
  rw [hg]
  refine if_neg fun hc => ?_
  simp only [Bool.and_eq_true, decide_eq_true_eq, List.isEmpty_iff] at hc
  obtain ⟨⟨hle, hw⟩, hm⟩ := hc
  rcases h with h | h | h
  · omega
  · rw [h] at hw
    cases hw
  · exact h hm

theorem marker_starts {s : State} {f : FSlot} {g : Fing} {m : DueMarker} (t : Nat) (hg : (s.slot f).fing = some g) (hp : PlainRun s)
    (hpos : m.planPos = s.beat.nextPos) :
    ∃ v w, s.runMarker f m t = v ∧ v.beat.win = some w ∧ w.beat = m.beat ∧ w.pos = m.planPos ∧ w.start = m.at_ ∧
      w.slot = f ∧ w.period = effPeriod g.hdr m.stretch m.planPos ∧ w.stretch = m.stretch ∧ w.replays = 0 ∧ w.inGap = false ∧
      w.fault = false ∧ v.beat.markers = s.beat.markers ∧ v.beat.nextPos = (m.planPos + 1) % g.hdr.planLen ∧
      v.beat.prev = s.beat.prev ++ (s.beat.win.toList.map fun x => { x with inGap := true }) ∧ v.running = true ∧
      v.pair Reg.beatCountLo = m.beat % 2 ^ 48 ∧ v.cores.counters = [] ∧ Out.beatOut m.at_ ∈ v.out := by
  rw [runMarker_plain t hp, if_neg (fun h => h hpos), ← hpos]
  obtain ⟨⟨b, hbeat⟩, hrun, hcount, hcounters, hpulse⟩ := startWindow_started (s := (s.at t).setBit Reg.beatCtl 3 true) (f := f) (g := g)
    (by cases f <;> exact hg) m.beat m.at_ m.stretch m.planPos false
  refine ⟨_, newWindow (((s.at t).setBit Reg.beatCtl 3 true).at m.at_) f g m.beat m.at_ m.stretch m.planPos 0 none false, rfl, ?_, rfl, rfl,
    rfl, rfl, rfl, rfl, rfl, rfl, rfl, ?_, ?_, ?_, hrun, hcount, hcounters, hpulse⟩ <;> rw [hbeat] <;> rfl

theorem marker_misplaced {s : State} {f : FSlot} {m : DueMarker} (t : Nat) (hp : PlainRun s) (hpos : m.planPos ≠ s.beat.nextPos)
    (hd : s.devState ≠ 7) : (s.runMarker f m t).devState = 7 ∧ (s.runMarker f m t).fld Reg.devState 31 16 = 0x8024 := by
  rw [runMarker_plain t hp, if_pos hpos]
  obtain ⟨hstate, hcode, -⟩ := raise_failed (s := s.at t) (e := { code := 0x8024, cls := 4 }) rfl hd
  exact ⟨hstate, hcode⟩

/-- Settles O29: a marker whose instant has come is taken off the list, and starts its window, fails the device or goes. -/
theorem markersStartWindows : Obligations.MarkersStartWindows := by
  unfold Obligations.MarkersStartWindows
  refine ⟨?_, fun t g s hg => ⟨fun h1 hw hm => ?_, fun h => ?_⟩⟩
  · rintro t m f g s hm hf hg rest rfl
    have hslot : ((withoutMarker s m).slot f).fing = some g := by
      rw [← hg, State.fing, hf]
      cases f <;> rfl
    have hplain : s.casc.adopting = none → s.bit Reg.cascadeCoord 30 = false → s.takeoverOn = false → s.beat.page = none →
        s.beat.switchTo = none → s.beat.stopAt = none → PlainRun (withoutMarker s m) := fun a b c d e h => ⟨a, b, c, d, e, h⟩
    refine ⟨fun hh hb he ha hc ht hp hsw hst hpos => ?_, fun hh hb he ha hc ht hp hsw hst hpos hd => ?_, fun h => ?_⟩
    · have hr := hplain ha hc ht hp hsw hst
      rw [marker_taken hm, takeMarker_runs (s := withoutMarker s m) hf hh hb he hr]
      obtain ⟨v, w, hv, hstarted⟩ := marker_starts (s := withoutMarker s m) t hslot hr hpos
      exact ⟨v, w, congrArg _ hv, hstarted⟩
    · have hr := hplain ha hc ht hp hsw hst
      rw [marker_taken hm, takeMarker_runs (s := withoutMarker s m) hf hh hb he hr]
      exact ⟨_, rfl, marker_misplaced (s := withoutMarker s m) t hr hpos hd⟩
    · rw [marker_taken hm, takeMarker_discards (s := withoutMarker s m) h]
      rfl
  · rw [exec_standaloneFirstMarker, standaloneFirstMarker_issues t hg h1 hw hm]
    refine ⟨_, rfl, rfl, rfl, rfl, bit_setBit_self _ _ (by decide), rfl, fun o ho => ?_⟩
    exact reg_setFld_ne _ _ _ _ fun e => ho (List.mem_singleton.mpr e)
  · rw [exec_standaloneFirstMarker, standaloneFirstMarker_idle t hg h]

end Sys2Proof.Laws

/-! # LOAD, EVICT and verification (O25) -/

namespace Sys2Proof.Laws

open Sys2Proof Sys2Proof.Machine

/-! ### Slots and their protection -/

theorem slot_of_keeps {s t : State} (h : Keeps (allBut .slots) s t) (f : FSlot) : t.slot f = s.slot f := by
  obtain ⟨ha, hb⟩ := Prod.mk.inj (h.parts .slots (by decide))
  cases f
  · exact ha
  · exact hb

theorem slot_of_slots {s t : State} (ha : t.slotA = s.slotA) (hb : t.slotB = s.slotB) (f : FSlot) : t.slot f = s.slot f := by
  cases f
  · exact ha
  · exact hb

theorem slot_setSlot_other (s : State) (f : FSlot) (x : SlotSt) : (s.setSlot f x).slot (otherSlot f) = s.slot (otherSlot f) := by
  cases f <;> rfl

theorem slot_setFld (s : State) (f : FSlot) (o hi lo v : Nat) : (s.setFld o hi lo v).slot f = s.slot f := by cases f <;> rfl

theorem slot_setBit (s : State) (f : FSlot) (o i : Nat) (b : Bool) : (s.setBit o i b).slot f = s.slot f := by cases f <;> rfl

theorem eq_or_other (f g : FSlot) : g = f ∨ g = otherSlot f := by cases f <;> cases g <;> decide

/-- A byte is protected when it lies in a range of a slot (R110). -/
theorem inImage_iff (s : State) (a : Nat) : s.inImage a = true ↔ ∃ g, ∃ r ∈ (s.slot g).ranges, r.1 ≤ a ∧ a < r.2 := by
  unfold State.inImage
  simp only [List.any_eq_true, List.mem_append, decide_eq_true_eq]
  constructor
  · rintro ⟨r, h | h, hr⟩
    · exact ⟨.a, r, h, hr⟩
    · exact ⟨.b, r, h, hr⟩
  · rintro ⟨g, r, h, hr⟩
    cases g
    · exact ⟨r, .inl h, hr⟩
    · exact ⟨r, .inr h, hr⟩

theorem length_view (s : State) (a n : Nat) : (s.view a n).length = n := by
  unfold State.view
  split
  · rename_i ps h
    rw [List.length_map, placesOf_length h]
  · exact List.length_replicate

theorem fieldAt_whole {b : Bytes} {n : Nat} (h : b.length = n) : fieldAt b 0 n = leNat b := by
  unfold fieldAt
  rw [List.drop_zero, List.take_of_length_le h.le]

/-! ### LOAD (R110, R113) -/

/-- What a slot holds when its LOAD has been taken. -/
def loadedSlot (u : State) (f : FSlot) : SlotSt :=
  let base := u.slotBaseAddr f
  let n := protectedLen (fieldAt (u.view (base + 8) 4) 0 4)
  let x := u.slot f
  { state := 1, lo := base, hi := base + n
    kept := if x.lo < x.hi ∧ (x.lo, x.hi) ≠ (base, base + n) then x.kept ++ [(x.lo, x.hi)] else x.kept
    alone := u.noneLoaded, fing := none }

/-- The state of a LOAD that has been taken. -/
def loading (u : State) (f : FSlot) : State := ((u.setSlot f (loadedSlot u f)).setSlotState f 1).setBit Reg.fingStatus 8 true

theorem load_taken {s : State} {f : FSlot} (hw : s.writeOpen Reg.fingCtl = true) (hb : s.fingBusy = false) (h3 : (s.slot f).state ≠ 3) :
    exec (.load f) s = .next (loading s.leaveHold f) := by
  rw [exec_load, applyLoad, hw, hb, if_neg h3]
  rfl

theorem loading_slot (u : State) (f : FSlot) : (loading u f).slot f = loadedSlot u f := by
  unfold loading
  rw [slot_setBit, slot_setSlotState_self, slot_setSlot_self]
  rfl

theorem loading_other (u : State) (f : FSlot) : (loading u f).slot (otherSlot f) = u.slot (otherSlot f) := by
  unfold loading
  rw [slot_setBit, slot_setSlotState_other, slot_setSlot_other]

theorem loading_memory (u : State) (f : FSlot) : memoryKept u (loading u f) :=
  memoryKept_of_keeps (keeps_setBit _ _ _ _ (keeps_setSlotState _ f 1 (keeps_setSlot u f _ (keeps_refl u) (covers_allBut rfl))
    (covers_allBut rfl)) (covers_allBut rfl))

/-- What was protected stays so: the old range of the slot is kept unless the new one is the same. -/
theorem loading_inImage {u : State} {f : FSlot} {a : Nat} (h : u.inImage a = true) : (loading u f).inImage a = true := by
  rw [inImage_iff] at h ⊢
  obtain ⟨g, r, hr, hra⟩ := h
  rcases eq_or_other f g with rfl | rfl
  · rcases List.mem_cons.mp hr with rfl | hk
    · by_cases hsame : ((u.slot g).lo, (u.slot g).hi) = ((loadedSlot u g).lo, (loadedSlot u g).hi)
      · exact ⟨g, _, by rw [loading_slot]; exact List.mem_cons_self, by rw [← hsame]; exact hra⟩
      · refine ⟨g, ((u.slot g).lo, (u.slot g).hi), ?_, hra⟩
        rw [loading_slot]
        refine List.mem_cons_of_mem _ ?_
        have hlt : (u.slot g).lo < (u.slot g).hi := by
          obtain ⟨h1, h2⟩ := hra
          exact Nat.lt_of_le_of_lt h1 h2
        rw [show (loadedSlot u g).kept = (u.slot g).kept ++ [((u.slot g).lo, (u.slot g).hi)] from if_pos ⟨hlt, hsame⟩]
        exact List.mem_append_right _ List.mem_cons_self
    · refine ⟨g, r, ?_, hra⟩
      rw [loading_slot]
      refine List.mem_cons_of_mem _ ?_
      unfold loadedSlot
      dsimp only
      split
      · exact List.mem_append_left _ hk
      · exact hk
  · exact ⟨otherSlot f, r, by rw [loading_other]; exact hr, hra⟩

theorem leaveHold_slot (s : State) (f : FSlot) : s.leaveHold.slot f = s.slot f :=
  slot_of_keeps (keeps_leaveHold s (keeps_refl s) (covers_allBut rfl)) f

theorem leaveHold_memory (s : State) : memoryKept s s.leaveHold :=
  memoryKept_of_keeps (keeps_leaveHold s (keeps_refl s) (covers_allBut rfl))

theorem noneLoaded_of_slots {s t : State} (h : ∀ f, t.slot f = s.slot f) : t.noneLoaded = s.noneLoaded := by
  have ha : t.slotA = s.slotA := h .a
  have hb : t.slotB = s.slotB := h .b
  unfold State.noneLoaded
  rw [ha, hb]

theorem inImage_of_slots {s t : State} (h : ∀ f, t.slot f = s.slot f) (a : Nat) : t.inImage a = s.inImage a := by
  have ha : t.slotA = s.slotA := h .a
  have hb : t.slotB = s.slotB := h .b
  unfold State.inImage
  rw [ha, hb]

/-- Bits of FING_STATUS that show the state of a slot. -/
def stateHi : FSlot → Nat
  | .a => 2
  | .b => 5

def stateLo : FSlot → Nat
  | .a => 0
  | .b => 3

/-- BUSY and the slot's field of FING_STATUS. -/
theorem loading_status (u : State) (f : FSlot) : (loading u f).fingBusy = true ∧
    (loading u f).fld Reg.fingStatus (stateHi f) (stateLo f) = 1 := by
  refine ⟨bit_setBit_self _ true (by decide), ?_⟩
  cases f <;>
  · unfold loading State.setBit State.setSlotState stateHi stateLo
    rw [fld_setFld_apart _ _ (by decide) (by decide) (by decide) (by decide), fld_setFld_self _ _ (by decide) (by decide)]
    rfl

/-! ### EVICT (R113, R626) -/

/-- The slot is EMPTY, and with every slot EMPTY no home record stands. -/
def evicting (s : State) (f : FSlot) : State :=
  let s := (s.setSlot f .reset).setSlotState f 0
  if (s.slot (otherSlot f)).state = 0 then s.forgetHomes else s

theorem evict_taken {s : State} {f : FSlot} (hw : s.writeOpen Reg.fingCtl = true) (hb : s.fingBusy = false) (h3 : (s.slot f).state ≠ 3) :
    exec (.evict f) s = .next ((evicting s f).fingCode (slotUnit f) { code := 0 }) := by
  rw [exec_evict, applyEvict, hw, hb, if_neg h3]
  rfl

theorem evicting_keeps (s : State) (f : FSlot) :
    (evicting s f).slot f = .reset ∧ (evicting s f).slot (otherSlot f) = s.slot (otherSlot f) ∧ memoryKept s (evicting s f) := by
  have hempty : ∀ g, ((s.setSlot f .reset).setSlotState f 0).slot g = (evicting s f).slot g := by
    intro g
    unfold evicting
    dsimp only
    split
    · exact (slot_of_keeps (keeps_forgetHomes _ (keeps_refl _) (covers_allBut rfl)) g).symm
    · rfl
  refine ⟨?_, ?_, ?_⟩
  · rw [← hempty, slot_setSlotState_self, slot_setSlot_self]
    rfl
  · rw [← hempty, slot_setSlotState_other, slot_setSlot_other]
  · have hk := keeps_setSlotState _ f 0 (keeps_setSlot s f .reset (keeps_refl s) (covers_allBut (q := .memory) rfl)) (covers_allBut rfl)
    refine memoryKept_of_keeps ?_
    exact keeps_ite (fun _ => keeps_forgetHomes _ hk (covers_allBut rfl)) fun _ => hk

/-- The outcome of an operation that was done. -/
theorem fingCode_done (s : State) (u : UnitCode) (r : Refused) :
    (∀ f, (s.fingCode u r).slot f = s.slot f) ∧ memoryKept s (s.fingCode u r) :=
  ⟨slot_of_onlyLog (onlyLog_fingCode s u r), memoryKept_of_onlyLog (onlyLog_fingCode s u r)⟩

/-! ### VERIFY_DONE (R111, R322) -/

/-- BUSY has ended. -/
def verified (s : State) : State := s.setBit Reg.fingStatus 8 false

theorem verifyDone_checks {s : State} {f : FSlot} (h1 : (s.slot f).state = 1) (hf : s.esz.fw.isSome = true) :
    exec (.verifyDone f) s = .next (match (verified s).checkImage f with
      | .error r => (verified s).refuseSlot f r
      | .ok g =>
        let s' := if (s.slot f).alone then (verified s).applyModes (imageModes g.own) else verified s
        ((s'.setSlot f { s'.slot f with fing := some g }).setSlotState f 2).fingCode (slotUnit f) { code := 0 }) := by
  have hn : ¬((s.slot f).state ≠ 1 ∨ s.esz.fw.isNone = true) := by
    rintro (h | h)
    · exact h h1
    · rw [Option.isNone_iff_eq_none] at h
      rw [h] at hf
      cases hf
  rw [exec_verifyDone, applyVerifyDone, if_neg hn]
  rfl

/-- A slot with its new content, its state and an outcome. -/
def settled (s : State) (f : FSlot) (g : Option Fing) (n : Nat) (r : Refused) : State :=
  ((s.setSlot f { s.slot f with fing := g }).setSlotState f n).fingCode (slotUnit f) r

/-- BUSY and the other slot's field stay. -/
theorem setSlotState_busy (s : State) (f : FSlot) (n : Nat) : (s.setSlotState f n).fingBusy = s.fingBusy := by
  have h : (s.setSlotState f n).fld Reg.fingStatus 8 8 = s.fld Reg.fingStatus 8 8 := by
    cases f
    · exact fld_setFld_apart _ _ (by decide) (by decide) (by decide) (by decide)
    · exact fld_setFld_apart _ _ (by decide) (by decide) (by decide) (by decide)
  exact congrArg (fun n => decide (n = 1)) h

theorem setSlot_busy (s : State) (f : FSlot) (x : SlotSt) : (s.setSlot f x).fingBusy = s.fingBusy := by cases f <;> rfl

theorem fingCode_busy (s : State) (u : UnitCode) (r : Refused) : (s.fingCode u r).fingBusy = s.fingBusy :=
  congrArg (fun n => decide (n = 1)) (fingCode_low s u r (by decide) (by decide))

theorem settled_slot (s : State) (f : FSlot) (g : Option Fing) (n : Nat) (r : Refused) :
    (settled s f g n r).slot f = { s.slot f with state := n, fing := g } ∧ (settled s f g n r).slot (otherSlot f) = s.slot (otherSlot f) ∧
      (settled s f g n r).fingBusy = s.fingBusy ∧ (settled s f g n r).fld Reg.fingStatus 31 16 = r.code % 65536 ∧
      memoryKept s (settled s f g n r) := by
  obtain ⟨hslot, hmem⟩ := fingCode_done ((s.setSlot f { s.slot f with fing := g }).setSlotState f n) (slotUnit f) r
  refine ⟨?_, ?_, ?_, fingCode_code _ _ _, fun l => (hmem l).trans ?_⟩
  · rw [settled, hslot, slot_setSlotState_self, slot_setSlot_self]
  · rw [settled, hslot, slot_setSlotState_other, slot_setSlot_other]
  · rw [settled, fingCode_busy, setSlotState_busy, setSlot_busy]
  · exact memoryKept_of_keeps (keeps_setSlotState _ f n (keeps_setSlot s f _ (keeps_refl s) (covers_allBut rfl)) (covers_allBut rfl)) l

theorem groupMode_home_ne {i : Nat} (hi : i < 4) : regHome (Reg.groupMode i) ≠ regHome Reg.fingStatus := by
  have hb := regHome_bounds (Reg.groupMode i)
  rw [show regHome Reg.fingStatus = 0x10002C from by decide]
  unfold Reg.groupMode at *
  omega

theorem modes_congr {s t : State} (h : ∀ i, i < 4 → t.reg (Reg.groupMode i) = s.reg (Reg.groupMode i)) : t.modes = s.modes := by
  unfold State.modes
  refine congrArg List.sum (List.map_congr_left fun i hi => ?_)
  rw [h i (List.mem_range.mp hi)]

/-- Of the registers only those of the log and FING_STATUS change. -/
theorem settled_modes (s : State) (f : FSlot) (g : Option Fing) (n : Nat) (r : Refused) : (settled s f g n r).modes = s.modes := by
  obtain ⟨-, hreg, -⟩ := onlyLog_fingCode ((s.setSlot f { s.slot f with fing := g }).setSlotState f n) (slotUnit f) r
  refine modes_congr fun i hi => (hreg _ (logReg_home_false (.inr ?_)) fun h => groupMode_home_ne hi (List.mem_singleton.mp h)).trans ?_
  · unfold Reg.groupMode
    omega
  · cases f <;> exact reg_setFld_ne _ _ _ _ (groupMode_home_ne hi)

theorem verified_keeps (s : State) (f : FSlot) : (verified s).slot f = s.slot f := slot_setBit s f _ _ _

theorem verified_idle (s : State) : (verified s).fingBusy = false := bit_setBit_self s false (by decide)

theorem verified_modes (s : State) : (verified s).modes = s.modes := modes_congr fun _ hi => reg_setFld_ne _ _ _ _ (groupMode_home_ne hi)

/-- The group modes are no part of a slot or of FING_STATUS. -/
theorem applyModes_keeps (s : State) (modes : Nat) :
    (∀ f, (s.applyModes modes).slot f = s.slot f) ∧ (s.applyModes modes).fingBusy = s.fingBusy := by
  refine ⟨slot_of_keeps (keeps_applyModes s modes (keeps_refl s) (covers_allBut rfl)), ?_⟩
  refine RangeKept.bit (lo := 0x10002C) (hi := 0x100030) ?_ 8 (by decide) (by decide)
  have hr : noUnit 0x10002C 0x100030 := .inl (by decide)
  unfold State.applyModes State.withModes
  refine (rangeKept_foldl (fun u q _ => rangeKept_ite (fun _ => rangeKept_refl u) fun _ => rangeKept_of_regs ?_) s).trans
    (rangeKept_foldl (fun u i hi => rangeKept_unitReg hr _ _ ?_ ?_) _)
  · exact (keeps_undefineGroup u q (keeps_refl u) (covers_allBut (q := .regs) rfl)).parts .regs (by decide)
  all_goals
    simp only [List.mem_range] at hi
    unfold Reg.groupMode
    omega

end Sys2Proof.Laws

/-! # The registers of a run that begins (O25) -/

namespace Sys2Proof.Laws

open Sys2Proof Sys2Proof.Machine

/-! ### The registers of a run that begins (R114, R425) -/

section
variable {lo hi : Nat}

theorem rangeKept_showEngines (hr : noUnit lo hi) (s : State) : RangeKept lo hi s s.showEngines := by
  unfold State.showEngines
  refine rangeKept_foldl (fun u n hn => (rangeKept_unitBit hr _ _ _ ?_ ?_).trans (rangeKept_unitFld hr _ _ _ _ ?_ ?_)) s
  all_goals
    simp only [List.mem_range] at hn
    unfold Reg.updCtl
    omega

theorem rangeKept_showCredit (hr : noUnit lo hi) (s : State) {q : Nat} (hq : q < 32) : RangeKept lo hi s (s.showCredit q) :=
  rangeKept_unitReg hr s _ (by unfold Reg.vlCredit; omega) (by unfold Reg.vlCredit; omega)

theorem rangeKept_showRoles (hr : noUnit lo hi) (s : State) (roles : Option (List Nat)) : RangeKept lo hi s (s.showRoles roles) := by
  unfold State.showRoles
  refine rangeKept_foldl (fun u q hq => rangeKept_unitFld hr _ _ _ _ ?_ ?_) s
  all_goals
    simp only [List.mem_range] at hq
    unfold Reg.linkState
    omega

/-- A port begins to train. -/
theorem rangeKept_beginTraining (hr : noUnit lo hi) (s : State) {q : Nat} (st : Nat) (hq : q < 32) : RangeKept lo hi s (s.beginTraining q st) := by
  unfold State.beginTraining
  have hlink : 0x200000 ≤ Reg.linkState q ∧ Reg.linkState q < 0x3080000 := by
    unfold Reg.linkState
    omega
  have hpeer : 0x200000 ≤ Reg.linkPeer q ∧ Reg.linkPeer q < 0x3080000 := by
    unfold Reg.linkPeer
    omega
  have hstate := ((rangeKept_unitFld hr s 2 0 st hlink.1 hlink.2).trans (rangeKept_unitBit hr _ 7 false hlink.1 hlink.2)).trans
    (rangeKept_unitBit hr _ 31 false hpeer.1 hpeer.2)
  refine (RangeKept.trans ?_ (rangeKept_showCredit hr _ hq)).trans (rangeKept_emit _ _)
  exact hstate.of_regs rfl

theorem rangeKept_trainAll (hr : noUnit lo hi) (s : State) : RangeKept lo hi s s.trainAll := by
  unfold State.trainAll
  exact rangeKept_foldl (fun u q hq => rangeKept_ite (fun _ => rangeKept_beginTraining hr u 1 (List.mem_range.mp hq))
    fun _ => rangeKept_refl u) s

theorem rangeKept_showGuests (hr : planRange lo hi) (s : State) : RangeKept lo hi s s.showGuests := by
  unfold State.showGuests
  generalize (List.range 4).any (fun d => s.bit (Reg.coreSpare d) 16) = guest
  have hbit : RangeKept lo hi s (s.setBit Reg.devState 4 guest) :=
    rangeKept_setBit hr.noUnit.ownHomes s 4 guest (.inl (Nat.lt_of_lt_of_le (by decide) hr.1))
  exact hbit.trans (rangeKept_ite (fun _ => rangeKept_setDevState hr.noUnit hr.1 _ _) fun _ => rangeKept_refl _)

/-- A guest is gone. -/
def guestDropped (s : State) (d l : Nat) : State :=
  let hp := s.physOf l
  let s := (s.setReg (Reg.coreMap l) 0x7F).setFld (Reg.coreState hp) 19 13 0x7F
  let s := (s.setFld (Reg.coreSpare d) 15 9 0x7F).setBit (Reg.coreSpare d) 16 false
  (List.range 3).foldl (fun s a => s.unmerge (arrayUnit l a)) (s.unmerge (vectorUnit l))

theorem rangeKept_unmerge (s : State) (u : UnitId) : RangeKept lo hi s (s.unmerge u) := rangeKept_of_regs rfl

theorem rangeKept_guestDropped (hr : noUnit lo hi) (s : State) {d l : Nat} (hd : d < 4) (hl : l < 128) :
    RangeKept lo hi s (guestDropped s d l) := by
  have hmap : 0x200000 ≤ Reg.coreMap l ∧ Reg.coreMap l < 0x3080000 := by
    unfold Reg.coreMap
    omega
  have hp : s.physOf l < 128 := fld_lt s _ 6 0
  have hcore : 0x200000 ≤ Reg.coreState (s.physOf l) ∧ Reg.coreState (s.physOf l) < 0x3080000 := by
    unfold Reg.coreState
    omega
  have hspare : 0x200000 ≤ Reg.coreSpare d ∧ Reg.coreSpare d < 0x3080000 := by
    unfold Reg.coreSpare
    omega
  have hregs := ((rangeKept_unitReg hr s 0x7F hmap.1 hmap.2).trans (rangeKept_unitFld hr _ 19 13 0x7F hcore.1 hcore.2)).trans
    ((rangeKept_unitFld hr _ 15 9 0x7F hspare.1 hspare.2).trans (rangeKept_unitBit hr _ 16 false hspare.1 hspare.2))
  exact hregs.trans ((rangeKept_unmerge _ _).trans (rangeKept_foldl (fun u _ _ => rangeKept_unmerge u _) _))

theorem rangeKept_dropGuests (hr : planRange lo hi) (s : State) (g : Fing) : RangeKept lo hi s (s.dropGuests g) := by
  unfold State.dropGuests
  refine RangeKept.trans ?_ (rangeKept_showGuests hr _)
  exact rangeKept_foldl (fun u d hd => rangeKept_ite
    (fun _ => rangeKept_guestDropped (d := d) hr.noUnit u (List.mem_range.mp hd) (fld_lt u _ 15 9)) fun _ => rangeKept_refl u) s

theorem rangeKept_showStep (hr : noUnit lo hi) (s : State) : RangeKept lo hi s s.showStep := by
  unfold State.showStep
  split
  · split
    · exact rangeKept_refl s
    · refine rangeKept_foldl (fun u n hn => (rangeKept_unitReg hr u _ ?_ ?_).trans (rangeKept_unitReg hr _ _ ?_ ?_)) s
      all_goals
        simp only [List.mem_range] at hn
        simp only [Reg.updStep, Reg.updSkipped]
        omega
  · exact rangeKept_refl s

/-- The registers that show a cascade. -/
def cascadeShown (s : State) (role : Nat) (roles : Option (List Nat)) (info master : Word) : State :=
  (((s.setFld Reg.beatCtl 1 0 role).showRoles roles).setReg Reg.cascadeInfo info).setReg Reg.masterCoord master

theorem showCascade_regs (s : State) (g : Fing) :
    (s.showCascade g).regs = s.regs ∨ ∃ role roles info master, (s.showCascade g).regs = (cascadeShown s role roles info master).regs := by
  unfold State.showCascade cascadeShown
  split
  · exact .inl rfl
  · dsimp only
    exact .inr ⟨_, _, _, _, rfl⟩

/-- Roles and coordinates, but for ROLE in BEAT_CTL. -/
theorem rangeKept_cascadeShown (hr : noUnit lo hi) (hh : hi ≤ Reg.cascadeInfo) (s : State) (role : Nat) (roles : Option (List Nat))
    (info master : Word) : RangeKept lo hi (s.setFld Reg.beatCtl 1 0 role) (cascadeShown s role roles info master) :=
  ((rangeKept_showRoles hr _ _).trans (rangeKept_setReg hr.ownHomes _ _ (.inr hh))).trans
    (rangeKept_setReg hr.ownHomes _ _ (.inr (Nat.le_trans hh (by decide))))

theorem rangeKept_showCascade (hr : planRange lo hi) (h : Reg.beatCtl < lo) (s : State) (g : Fing) :
    RangeKept lo hi s (s.showCascade g) := by
  rcases showCascade_regs s g with he | ⟨role, roles, info, master, he⟩
  · exact rangeKept_of_regs he
  · refine RangeKept.of_regs ?_ he
    exact (rangeKept_setFld hr.noUnit.ownHomes s 1 0 role (.inl h)).trans
      (rangeKept_cascadeShown hr.noUnit (Nat.le_trans hr.2 (by decide)) s role roles info master)

/-- ROLE is all of BEAT_CTL that the roles of a fingering change. -/
theorem showCascade_beatCtl (s : State) (g : Fing) : (s.showCascade g).fld Reg.beatCtl 31 16 = s.fld Reg.beatCtl 31 16 := by
  rcases showCascade_regs s g with he | ⟨role, roles, info, master, he⟩
  · exact fld_of_reg (reg_congr he _) _ _
  · refine (fld_of_reg (reg_congr he _) _ _).trans ?_
    refine ((rangeKept_cascadeShown (lo := 0x100000) (hi := 0x100004) (.inl (by decide)) (by decide) s role roles info master).fld 31 16
      (by decide) (by decide)).trans ?_
    exact fld_setFld_apart s _ (by decide) (by decide) (by decide) (by decide)

end

/-! ### A run begins -/

/-- The slot is RUNNING, and nothing of another run is left. -/
def beginning (s : State) (f : FSlot) : State :=
  let s := { s.clearRun with tier := { s.clearRun.tier with super := s.superTable.map parseSuper } }
  ((s.setSlotState f 3).setFld Reg.fingStatus 6 6 (slotIdx f)).setBit Reg.superCtl 9 true

/-- The registers that the header and HOST_IO give. -/
def headerShown (s : State) (g : Fing) : State :=
  let s := s.setFld Reg.beatPeriod 23 0 g.hdr.period
  let s := s.setFld Reg.beatCtl 31 16 g.hdr.verdictDelay
  let s := s.setBit Reg.xportFence 0 (match g.hostIo with
    | some io => !io.fenceOff
    | none => true)
  let regions := (g.rdc.map (·.regions.length)).getD 0
  (s.setFld (Reg.rdcCtl 0) 11 3 (regions % 256 + 256 * (regions / 256))).setFld (Reg.rdcCtl 1) 11 3
    (regions % 256 + 256 * (regions / 256))

/-- The cache is empty, and the plan stands before position 0. -/
def planFresh (s : State) : State :=
  { s with forager := { s.forager with cache := [] }, beat := { s.beat with cycle := 0, nextPos := 0 } }

theorem adoptPlan_eq (s : State) (g : Fing) : s.adoptPlan g = ((planFresh (headerShown s g)).showCascade g).showEngines := rfl

/-- What follows the plan: training, guests, the step shown, and the JOIN. -/
def joined (s : State) (g : Fing) : State := (((s.trainAll).dropGuests g).showStep).sendJoin g

theorem begin_eq (s : State) (f : FSlot) (g : Fing) : s.begin f g = joined ((beginning s f).adoptPlan g) g := rfl

theorem keeps_joined {P : StatePart → Bool} {σ : State} (s : State) (g : Fing) (hσ : Keeps P σ s)
    (hp : covers P [.regs, .ports, .test, .casc]) : Keeps P σ (joined s g) :=
  keeps_sendJoin _ g (keeps_showStep _ (keeps_dropGuests _ g (keeps_trainAll s hσ (hp.sub rfl)) (hp.sub rfl)) (hp.sub rfl)) (hp.sub rfl)

theorem rangeKept_joined {lo hi : Nat} (hr : planRange lo hi) (s : State) (g : Fing) : RangeKept lo hi s (joined s g) := by
  have h := ((rangeKept_trainAll hr.noUnit s).trans (rangeKept_dropGuests hr _ g)).trans (rangeKept_showStep hr.noUnit _)
  refine h.of_regs ?_
  exact (keeps_sendJoin _ g (keeps_refl _) (covers_allBut (q := .regs) rfl)).parts .regs (by decide)

/-- Of the beat and fingering block the plan writes BEAT_PERIOD and BEAT_CTL. -/
theorem adoptPlan_header (s : State) (g : Fing) :
    (s.adoptPlan g).fld Reg.beatPeriod 23 0 = g.hdr.period % 2 ^ 24 ∧ (s.adoptPlan g).fld Reg.beatCtl 31 16 = g.hdr.verdictDelay % 2 ^ 16 ∧
      RangeKept 0x100008 0x200000 s (s.adoptPlan g) := by
  rw [adoptPlan_eq]
  have hp : planRange 0x100004 0x200000 := ⟨by decide, by decide⟩
  have hq : planRange 0x100008 0x200000 := ⟨by decide, by decide⟩
  have hc : noUnit 0x100000 0x100004 := .inl (by decide)
  have hshown := (rangeKept_showCascade hp (by decide) (planFresh (headerShown s g)) g).trans (rangeKept_showEngines hp.noUnit _)
  have htail : ∀ {lo hi}, noUnit lo hi → RangeKept lo hi ((s.setFld Reg.beatPeriod 23 0 g.hdr.period).setFld Reg.beatCtl 31 16 g.hdr.verdictDelay)
      (headerShown s g) := fun hu => ((rangeKept_unitBit hu _ _ _ (by decide) (by decide)).trans
    (rangeKept_unitFld hu _ _ _ _ (by decide) (by decide))).trans (rangeKept_unitFld hu _ _ _ _ (by decide) (by decide))
  refine ⟨?_, ?_, ?_⟩
  · refine (hshown.fld 23 0 (by decide) (by decide)).trans (((htail hp.noUnit).fld 23 0 (by decide) (by decide)).trans ?_)
    rw [fld_setFld_ne _ _ _ _ _ _ (by decide)]
    exact fld_setFld_self _ _ (by decide) (by decide)
  · refine ((rangeKept_showEngines hc _).fld 31 16 (by decide) (by decide)).trans ((showCascade_beatCtl _ g).trans ?_)
    exact ((htail hc).fld 31 16 (by decide) (by decide)).trans (fld_setFld_self _ _ (by decide) (by decide))
  · refine RangeKept.trans ?_ ((rangeKept_showCascade hq (by decide) (planFresh (headerShown s g)) g).trans (rangeKept_showEngines hq.noUnit _))
    exact ((rangeKept_setFld (p := Reg.beatPeriod) hq.noUnit.ownHomes s _ _ _ (.inl (by decide))).trans
      (rangeKept_setFld (p := Reg.beatCtl) hq.noUnit.ownHomes _ _ _ _ (.inl (by decide)))).trans ((htail hq.noUnit).of_regs rfl)

/-- What the plan leaves of the beat and of the host's copies. -/
theorem adoptPlan_beat (s : State) (g : Fing) : (s.adoptPlan g).beat = { s.beat with cycle := 0, nextPos := 0 } := by
  rw [adoptPlan_eq]
  exact (keeps_showEngines _ (keeps_showCascade _ g (keeps_refl (planFresh (headerShown s g))) (covers_allBut rfl))
    (covers_allBut (q := .beat) rfl)).parts .beat (by decide)

end Sys2Proof.Laws

/-! # START, STOP and the operations of FING_CTL, and O25 -/

namespace Sys2Proof.Laws

open Sys2Proof Sys2Proof.Machine

theorem rangeKept_clearRun (s : State) : RangeKept 0x100000 0x200000 s s.clearRun := by
  have hr : ownHomes 0x100000 0x200000 := .inl (by decide)
  have hfor := ((rangeKept_setReg (p := Reg.forgErrHead) hr s 0 (.inr (by decide))).trans
    (rangeKept_setReg (p := Reg.forgReqHead) hr _ 0 (.inr (by decide)))).trans
    ((rangeKept_setReg (p := Reg.slowRecord) hr _ 0 (.inr (by decide))).trans
    (rangeKept_setBit (p := Reg.forgStatus) hr _ 2 false (.inr (by decide))))
  have hcasc := hfor.trans ((rangeKept_setFld (p := Reg.lostCoord) hr _ 14 0 0 (.inr (by decide))).trans
    (rangeKept_setFld (p := Reg.syncStatus) hr _ 20 16 0 (.inr (by decide))))
  exact hcasc.of_regs rfl

/-- Nothing of another run is left. -/
def runCleared (s : State) : State := { s.clearRun with tier := { s.clearRun.tier with super := s.superTable.map parseSuper } }

/-- RUNNING names the slot, and LAST_CODE stays. -/
theorem beginning_status (s : State) (f : FSlot) :
    (beginning s f).fld Reg.fingStatus 31 16 = s.fld Reg.fingStatus 31 16 ∧ (beginning s f).bit Reg.fingStatus 6 = decide (f = .b) := by
  have hsuper : ∀ t : State, (t.setBit Reg.superCtl 9 true).reg Reg.fingStatus = t.reg Reg.fingStatus := fun t =>
    reg_setFld_ne _ _ _ _ (by decide)
  unfold beginning
  refine ⟨(fld_of_reg (hsuper _) _ _).trans ?_, (bit_of_reg (hsuper _) _).trans ?_⟩
  · refine (fld_setFld_apart _ _ (by decide) (by decide) (by decide) (by decide)).trans ?_
    have hclear : (runCleared s).fld Reg.fingStatus 31 16 = s.fld Reg.fingStatus 31 16 := (rangeKept_clearRun s).fld 31 16 (by decide) (by decide)
    rw [← hclear]
    cases f <;> exact fld_setFld_apart _ _ (by decide) (by decide) (by decide) (by decide)
  · rw [bit_setFld_self _ _ (by decide)]
    cases f <;> decide

theorem keeps_beginning {P : StatePart → Bool} (s : State) (f : FSlot) (hp : covers P [.regs, .slots]) :
    Keeps P (runCleared s) (beginning s f) :=
  keeps_setBit _ _ _ _ (keeps_setFld _ _ _ _ _ (keeps_setSlotState _ f 3 (keeps_refl (runCleared s)) hp) (hp.sub rfl)) (hp.sub rfl)

theorem runCleared_memory (s : State) : memoryKept s (runCleared s) :=
  peek_congr (show samePart .memory s (runCleared s) from
    (keeps_clearRun s (keeps_refl s) (covers_allBut (q := .memory) rfl)).parts .memory (by decide))

theorem runCleared_cores (s : State) : (runCleared s).cores = s.cores := by
  unfold runCleared
  dsimp only
  exact (keeps_clearRun s (keeps_refl s) (covers_allBut (q := .cores) rfl)).parts .cores (by decide)

/-- What a run begins with. -/
theorem beginning_parts (s : State) (f : FSlot) :
    ((beginning s f).slot f).state = 3 ∧ (beginning s f).watch = [] ∧ (beginning s f).beat = (runCleared s).beat ∧
      (beginning s f).host.runs = [] ∧ memoryKept s (beginning s f) ∧ (beginning s f).cores = s.cores := by
  refine ⟨?_, ?_, ?_, ?_, ?_, ?_⟩
  · unfold beginning
    rw [slot_setBit, slot_setFld, slot_setSlotState_self]
  · have hw : (beginning s f).watch = (runCleared s).watch := (keeps_beginning s f (covers_allBut (q := .watch) rfl)).parts .watch (by decide)
    exact hw.trans rfl
  · exact (keeps_beginning s f (covers_allBut (q := .beat) rfl)).parts .beat (by decide)
  · rw [(keeps_beginning s f (covers_allBut (q := .host) rfl)).parts .host (by decide)]
    rfl
  · have hm : memoryKept (runCleared s) (beginning s f) := memoryKept_of_keeps (keeps_beginning s f (covers_allBut rfl))
    exact fun l => (hm l).trans (runCleared_memory s l)
  · have hc : (beginning s f).cores = (runCleared s).cores := (keeps_beginning s f (covers_allBut (q := .cores) rfl)).parts .cores (by decide)
    exact hc.trans (runCleared_cores s)

/-- The plan and what follows it touch none of these parts. -/
theorem keeps_plan {P : StatePart → Bool} {σ : State} (s : State) (g : Fing) (hσ : Keeps P σ s)
    (hp : covers P [.regs, .beat, .forager, .casc, .ports, .test]) : Keeps P σ (joined (s.adoptPlan g) g) :=
  keeps_joined _ g (keeps_adoptPlan s g hσ (hp.sub rfl)) (hp.sub rfl)

/-- What holds of a state whose run has begun. -/
structure Begun (f : FSlot) (g : Fing) (u v : State) : Prop where
  state : (v.slot f).state = 3
  code : v.fld Reg.fingStatus 31 16 = u.fld Reg.fingStatus 31 16
  running : v.bit Reg.fingStatus 6 = decide (f = .b)
  period : v.fld Reg.beatPeriod 23 0 = g.hdr.period % 2 ^ 24
  delay : v.fld Reg.beatCtl 31 16 = g.hdr.verdictDelay % 2 ^ 16
  watch : v.watch = []
  next : v.beat.nextPos = 0
  cycle : v.beat.cycle = 0
  waiting : v.beat.waiting = true
  win : v.beat.win = none
  runs : v.host.runs = []
  memory : memoryKept u v
  cores : v.cores = u.cores

theorem begin_begun (u : State) (f : FSlot) (g : Fing) : Begun f g u (u.begin f g) := by
  rw [begin_eq]
  obtain ⟨hslot, hwatch, hclear, hruns, hmem, hcores⟩ := beginning_parts u f
  obtain ⟨hcode, hrun⟩ := beginning_status u f
  generalize beginning u f = x at *
  obtain ⟨hperiod, hdelay, hblock⟩ := adoptPlan_header x g
  have hj : RangeKept 0x100000 0x200000 (x.adoptPlan g) (joined (x.adoptPlan g) g) := rangeKept_joined ⟨by decide, by decide⟩ _ g
  have hstatus : (joined (x.adoptPlan g) g).reg Reg.fingStatus = x.reg Reg.fingStatus :=
    (hj.reg _ (by decide) (by decide)).trans (hblock.reg _ (by decide) (by decide))
  have hbeat : (joined (x.adoptPlan g) g).beat = { x.beat with cycle := 0, nextPos := 0 } :=
    ((keeps_joined _ g (keeps_refl _) (covers_allBut (q := .beat) rfl)).parts .beat (by decide)).trans (adoptPlan_beat x g)
  refine ⟨?_, ?_, ?_, ?_, ?_, ?_, ?_, ?_, ?_, ?_, ?_, ?_, ?_⟩
  · rw [slot_of_keeps (keeps_plan x g (keeps_refl x) (covers_allBut rfl)), hslot]
  · rw [fld_of_reg hstatus, hcode]
  · rw [bit_of_reg hstatus, hrun]
  · rw [hj.fld _ _ (by decide) (by decide), hperiod]
  · rw [hj.fld _ _ (by decide) (by decide), hdelay]
  · rw [(keeps_plan x g (keeps_refl x) (covers_allBut (q := .watch) rfl)).parts .watch (by decide), hwatch]
  · rw [hbeat]
  · rw [hbeat]
  · rw [hbeat, hclear]
    rfl
  · rw [hbeat, hclear]
    rfl
  · rw [(keeps_plan x g (keeps_refl x) (covers_allBut (q := .host) rfl)).parts .host (by decide), hruns]
  · exact fun l => (memoryKept_of_keeps (keeps_plan x g (keeps_refl x) (covers_allBut rfl)) l).trans (hmem l)
  · rw [(keeps_plan x g (keeps_refl x) (covers_allBut (q := .cores) rfl)).parts .cores (by decide), hcores]

/-! ### START (R113, R114) -/

/-- START of a LOADED slot: the checks, then the run. -/
theorem start_checks {s u : State} {f : FSlot} {g : Fing} (t : Nat) (hw : s.writeOpen Reg.fingCtl = true) (hb : s.fingBusy = false)
    (hr : s.runSlot = none) (h2 : (s.slot f).state = 2) (hg : (s.slot f).fing = some g) (hd : s.devState ≠ 7)
    (hu : u = ((s.at t).leaveHold).startHomes g) :
    exec (.start f t) s = .next (match u.startRefusal f g with
      | some (r, true) => ((s.at t).leaveHold).refuseSlot f r
      | some (r, false) => ((s.at t).leaveHold).fingCode (slotUnit f) r
      | none => (u.fingCode (slotUnit f) { code := 0 }).begin f g) := by
  have hc : ((s.at t).fingBusy || (s.at t).runSlot.isSome || decide (((s.at t).slot f).state ≠ 2) || decide ((s.at t).devState = 7)) = false := by
    rw [show (s.at t).fingBusy = false from hb, show (s.at t).runSlot = none from hr,
      show ((s.at t).slot f).state = 2 by cases f <;> exact h2]
    simp only [Option.isSome_none, Bool.or_self, ne_eq, not_true_eq_false, decide_false, Bool.false_or, decide_eq_false_iff_not]
    exact hd
  have hgt : ((s.at t).slot f).fing = some g := by cases f <;> exact hg
  rw [exec_start, applyStart, hw, hu]
  dsimp only
  rw [hc, hgt]
  rfl

/-! ### O25 -/

/-- STOP is taken at the next verdict. -/
theorem stop_taken {s : State} (hw : s.writeOpen Reg.fingCtl = true) (hb : s.fingBusy = false) (hr : s.runSlot.isSome = true) :
    ∃ v, exec .stop s = .next v ∧ v.beat.stopNow = true ∧ v.fld Reg.fingStatus 31 16 = 0 ∧
      onlyLog [Reg.fingStatus] { s with beat := { s.beat with stopNow := true } } v := by
  have hn : s.runSlot.isNone = false := by
    cases h : s.runSlot
    · rw [h] at hr
      cases hr
    · rfl
  have hl := onlyLog_fingCode s { typ := 0, idx := 0, sub := 0 } { code := 0 }
  have hcode := fingCode_code s { typ := 0, idx := 0, sub := 0 } { code := 0 }
  rw [exec_stop, applyStop, hw, hb, hn]
  generalize s.fingCode { typ := 0, idx := 0, sub := 0 } { code := 0 } = x at hl hcode
  obtain ⟨hframe, hreg, hout⟩ := hl
  refine ⟨{ x with beat := { x.beat with stopNow := true } }, rfl, rfl, hcode, ?_, hreg, hout⟩
  rw [hframe]

/-- LOAD and EVICT of a slot that is not RUNNING. -/
theorem load_evict_taken {f : FSlot} {s : State} (hw : s.writeOpen Reg.fingCtl = true) (hb : s.fingBusy = false)
    (h3 : (s.slot f).state ≠ 3) (u : State) (hu : u = s.leaveHold) :
    (∃ t, exec (.load f) s = .next t ∧ t.slot (otherSlot f) = s.slot (otherSlot f) ∧ memoryKept s t ∧ t.fingBusy = true ∧
      (t.slot f).state = 1 ∧ (t.slot f).fing = none ∧ (t.slot f).alone = s.noneLoaded ∧
      (∀ a, s.inImage a = true → t.inImage a = true) ∧ (t.slot f).lo = u.slotBaseAddr f ∧
      (t.slot f).hi = u.slotBaseAddr f + protectedLen (leNat (u.view (u.slotBaseAddr f + 8) 4)) ∧
      t.fld Reg.fingStatus (stateHi f) (stateLo f) = 1) ∧
    ∃ t, exec (.evict f) s = .next t ∧ t.slot (otherSlot f) = s.slot (otherSlot f) ∧ memoryKept s t ∧
      t.slot f = .reset ∧ t.fld Reg.fingStatus 31 16 = 0 := by
  subst hu
  refine ⟨⟨_, load_taken hw hb h3, ?_⟩, _, evict_taken hw hb h3, ?_⟩
  · obtain ⟨hbusy, hfield⟩ := loading_status s.leaveHold f
    refine ⟨(loading_other _ f).trans (leaveHold_slot s _), fun l => (loading_memory _ f l).trans (leaveHold_memory s l), hbusy, ?_⟩
    rw [loading_slot]
    refine ⟨rfl, rfl, noneLoaded_of_slots (leaveHold_slot s), fun a ha => loading_inImage ?_, rfl, ?_, hfield⟩
    · rw [inImage_of_slots (leaveHold_slot s)]
      exact ha
    · rw [← fieldAt_whole (length_view _ _ 4)]
      rfl
  · obtain ⟨hslot, hother, hmem⟩ := evicting_keeps s f
    obtain ⟨hkeep, hkmem⟩ := fingCode_done (evicting s f) (slotUnit f) { code := 0 }
    exact ⟨(hkeep _).trans hother, fun l => (hkmem l).trans (hmem l), (hkeep _).trans hslot, fingCode_code _ _ _⟩

/-- VERIFY_DONE with the first check that fails. -/
theorem verify_refused {f : FSlot} {s : State} {r : Refused} (h1 : (s.slot f).state = 1) (hf : s.esz.fw.isSome = true)
    (hr : (verified s).checkImage f = .error r) :
    ∃ t, exec (.verifyDone f) s = .next t ∧ t.slot f = { s.slot f with state := 4, fing := none } ∧
      t.slot (otherSlot f) = s.slot (otherSlot f) ∧ t.fingBusy = false ∧ t.fld Reg.fingStatus 31 16 = r.code % 65536 ∧
      memoryKept s t := by
  refine ⟨settled (verified s) f none 4 r, by rw [verifyDone_checks h1 hf, hr]; rfl, ?_⟩
  obtain ⟨hslot, hother, hbusy, hcode, hmem⟩ := settled_slot (verified s) f none 4 r
  rw [verified_keeps] at hslot hother
  exact ⟨hslot, hother, hbusy.trans (verified_idle s), hcode, fun l => (hmem l).trans (peek_congr (s := s) rfl l)⟩

/-- VERIFY_DONE of an image that passes every check. -/
theorem verify_passed {f : FSlot} {s : State} {g : Fing} (h1 : (s.slot f).state = 1) (hf : s.esz.fw.isSome = true)
    (hg : (verified s).checkImage f = .ok g) :
    ∃ t, exec (.verifyDone f) s = .next t ∧ t.slot f = { s.slot f with state := 2, fing := some g } ∧
      t.slot (otherSlot f) = s.slot (otherSlot f) ∧ t.fingBusy = false ∧ t.fld Reg.fingStatus 31 16 = 0 ∧
      ((s.slot f).alone = false → memoryKept s t ∧ t.modes = s.modes) := by
  obtain ⟨x, hx, hslots, hidle, hplain⟩ : ∃ x, x = (if (s.slot f).alone then (verified s).applyModes (imageModes g.own) else verified s) ∧
      (∀ h, x.slot h = s.slot h) ∧ x.fingBusy = false ∧ ((s.slot f).alone = false → x = verified s) := by
    obtain ⟨hmslot, hmbusy⟩ := applyModes_keeps (verified s) (imageModes g.own)
    refine ⟨_, rfl, ?_, ?_, fun ha => if_neg (by rw [ha]; decide)⟩ <;> split
    · exact fun h => (hmslot h).trans (verified_keeps s h)
    · exact verified_keeps s
    · exact hmbusy.trans (verified_idle s)
    · exact verified_idle s
  refine ⟨settled x f (some g) 2 { code := 0 }, by rw [verifyDone_checks h1 hf, hg, hx]; rfl, ?_⟩
  obtain ⟨hslot, hother, hbusy, hcode, hmem⟩ := settled_slot x f (some g) 2 { code := 0 }
  rw [hslots] at hslot hother
  refine ⟨hslot, hother, hbusy.trans hidle, hcode, fun ha => ⟨fun l => (hmem l).trans ?_, (settled_modes x f _ _ _).trans ?_⟩⟩ <;>
    rw [hplain ha]
  · exact peek_congr (s := s) rfl l
  · exact verified_modes s

/-- START once the checks have been made. -/
theorem start_taken {f : FSlot} {t : Nat} {g : Fing} {s u : State} (hw : s.writeOpen Reg.fingCtl = true) (hb : s.fingBusy = false)
    (hr : s.runSlot = none) (h2 : (s.slot f).state = 2) (hg : (s.slot f).fing = some g) (hd : s.devState ≠ 7)
    (hu : u = ((s.at t).leaveHold).startHomes g) :
    (u.startRefusal f g = none → ∃ v, exec (.start f t) s = .next v ∧ (v.slot f).state = 3 ∧ v.fld Reg.fingStatus 31 16 = 0 ∧
      v.bit Reg.fingStatus 6 = decide (f = .b) ∧ v.fld Reg.beatPeriod 23 0 = g.hdr.period % 2 ^ 24 ∧
      v.fld Reg.beatCtl 31 16 = g.hdr.verdictDelay % 2 ^ 16 ∧ v.watch = [] ∧ v.beat.nextPos = 0 ∧ v.beat.cycle = 0 ∧
      v.beat.waiting = true ∧ v.beat.win = none ∧ v.host.runs = [] ∧ memoryKept u v ∧ v.cores = u.cores) ∧
    ∀ r b, u.startRefusal f g = some (r, b) → ∃ v, exec (.start f t) s = .next v ∧
      v.fld Reg.fingStatus 31 16 = r.code % 65536 ∧ (v.slot f).state = (if b then 4 else (u.slot f).state) ∧ memoryKept u v := by
  have hexec := start_checks t hw hb hr h2 hg hd hu
  refine ⟨fun h => ?_, fun r b h => ?_⟩ <;> rw [h] at hexec
  · refine ⟨_, hexec, ?_⟩
    have hl := onlyLog_fingCode u (slotUnit f) { code := 0 }
    obtain ⟨hframe, -⟩ := hl
    obtain ⟨h1, hcode, h3, h4, h5, h6, h7, h8, h9, h10, h11, hmem, hcores⟩ := begin_begun (u.fingCode (slotUnit f) { code := 0 }) f g
    have hk := (fingCode_done u (slotUnit f) { code := 0 }).2
    refine ⟨h1, hcode.trans (fingCode_code u _ _), h3, h4, h5, h6, h7, h8, h9, h10, h11, fun l => (hmem l).trans (hk l), hcores.trans ?_⟩
    rw [hframe]
  · have hslots : ∀ h, u.slot h = ((s.at t).leaveHold).slot h := fun h => by
      rw [hu]
      exact slot_of_keeps (keeps_startHomes _ g (keeps_refl _) (covers_allBut rfl)) h
    have hmem : memoryKept (s.at t).leaveHold u := by
      rw [hu]
      exact memoryKept_of_keeps (keeps_startHomes _ g (keeps_refl _) (covers_allBut rfl))
    refine ⟨_, hexec, ?_⟩
    cases b with
    | true =>
      obtain ⟨hslot, -, -, hcode, hm⟩ := settled_slot (s.at t).leaveHold f none 4 r
      exact ⟨hcode, congrArg SlotSt.state hslot, fun l => (hm l).trans (hmem l).symm⟩
    | false =>
      obtain ⟨hslot, hm⟩ := fingCode_done (s.at t).leaveHold (slotUnit f) r
      exact ⟨fingCode_code _ _ _, by rw [hslots]; exact congrArg SlotSt.state (hslot f), fun l => (hm l).trans (hmem l).symm⟩

/-- Settles O25: each operation ends in a state that is written out above, with its outcome in FING_STATUS. -/
theorem slotsAndRunsBegin : Obligations.SlotsAndRunsBegin := by
  unfold Obligations.SlotsAndRunsBegin
  refine ⟨fun f s => ⟨fun hw hb h3 => by cases f <;> exact load_evict_taken hw hb h3, fun h1 hf => ⟨fun r hr => verify_refused h1 hf hr,
    fun g hg => verify_passed h1 hf hg⟩⟩, fun f t g s u hw hb hr h2 hg hd hu => start_taken hw hb hr h2 hg hd hu,
    fun f t s hw hb h7 => ?_, fun s hw hb hr => stop_taken hw hb hr⟩
  obtain ⟨hcode, ha, hsb, -⟩ := refusedWith_fingCode (s.at t) (slotUnit f) (code := 0x2012) (by decide) (by decide)
  exact ⟨_, start_refused t hw (.inr (.inr h7)), hcode, ha, hsb⟩

end Sys2Proof.Laws

/-! # Slots start, end and hang, and O31 -/

namespace Sys2Proof.Laws

open Sys2Proof Sys2Proof.Machine

/-! ### The state of a unit -/

theorem unit_setUnit_same (s : State) {u v : UnitId} (x : UnitSt) (h : unitKey v = unitKey u) : (s.setUnit u x).unit v = x := by
  simp only [State.unit, State.setUnit, h, getKey_putKey_self, Option.getD_some]

theorem unit_setUnit_ne (s : State) {u v : UnitId} (x : UnitSt) (h : unitKey v ≠ unitKey u) : (s.setUnit u x).unit v = s.unit v := by
  simp only [State.unit, State.setUnit, getKey_putKey_ne _ _ h]

theorem unit_congr {s t : State} (h : t.units = s.units) (u : UnitId) : t.unit u = s.unit u := by
  unfold State.unit
  rw [h]

theorem unit_of_keeps {s t : State} (h : Keeps (allBut .units) s t) (u : UnitId) : t.unit u = s.unit u :=
  unit_congr (h.parts .units (by decide)) u

/-- A power state is shown in registers alone. -/
theorem unit_setPower_same (s : State) {u v : UnitId} (p : Nat) (h : unitKey v = unitKey u) :
    (s.setPower u p).unit v = { s.unit u with power := p } :=
  (unit_of_keeps (keeps_showPower _ u p (keeps_refl _) (covers_allBut rfl)) v).trans (unit_setUnit_same s _ h)

theorem unit_setPower_ne (s : State) {u v : UnitId} (p : Nat) (h : unitKey v ≠ unitKey u) : (s.setPower u p).unit v = s.unit v :=
  (unit_of_keeps (keeps_showPower _ u p (keeps_refl _) (covers_allBut rfl)) v).trans (unit_setUnit_ne s _ h)

theorem unit_showRun (s : State) (u v : UnitId) : (s.showRun u).unit v = s.unit v :=
  unit_of_keeps (keeps_showRun s u (keeps_refl s) (covers_allBut rfl)) v

theorem unit_raise_rp (s : State) {e : Ev} (h : e.cls = 1) (u : UnitId) : (s.raise e).unit u = s.unit u := by
  rw [raise_rp s h]
  exact unit_of_keeps (keeps_markFault _ e (keeps_logEntry s e (keeps_refl s) (covers_allBut rfl)) (covers_allBut rfl)) u

/-! ### A slot starts (R77) -/

theorem exec_slotStart (u : UnitId) (t : Nat) (s : State) : exec (.slotStart u t) s = .next (applySlotStart u t s) := rfl
theorem exec_slotEnd (u : UnitId) (t : Nat) (errs : List HwErr) (s : State) : exec (.slotEnd u t errs) s = .next (applySlotEnd u t errs s) := rfl
theorem exec_slotHung (u : UnitId) (t : Nat) (s : State) : exec (.slotHung u t) s = .next (applySlotHung u t s) := rfl

/-- The state once an update engine has read its scale. -/
def scaleRead (s : State) (u : UnitId) (op : Nat) : State := (if u.cls = 7 then s.slotScale u.idx op else (0, s)).2

/-- The slot that a unit runs. -/
def startedSlot (s : State) (w : Win) (u o : UnitId) (i : Nat) (d : SlotDesc) (t : Nat) : RunSlot :=
  { owner := o, slot := i, pos := w.pos, beat := w.beat, op := d.op, plannedEnd := w.start + d.start + d.budget,
    started := t, ptr := (scaleRead s u d.op).entryOf u o d.op, ordinal := 0, wait := none, prog := 0, rest := []
    gs := (if u.cls = 7 then s.slotScale u.idx d.op else (0, s)).1, ended := u.cls == 7 && (s.upd.skip || s.upd.stopped.contains u.idx) }

/-- The unit runs the slot. -/
def slotRunning (s : State) (u o : UnitId) (i : Nat) (r : RunSlot) : State :=
  let s := s.setUnit o { s.unit o with next := i + 1 }
  ((s.setUnit u { s.unit u with run := some r }).setPower u 0).showRun u

/-- A link slot whose role has neither a port nor a detour left is a fault of the window (R444). -/
def linkStuck (s : State) (u o : UnitId) (r : RunSlot) : State :=
  if u.cls = 5 && s.roleStuck (s.portRole o.idx) then
    s.raise { code := 0x8010, cls := 1, unit := { typ := 10, idx := o.idx, sub := 255 }, place := some (r.pos, r.slot)
              beat := some r.beat }
  else s

theorem linkStuck_unit (s : State) (u o : UnitId) (r : RunSlot) (x : UnitId) : (linkStuck s u o r).unit x = s.unit x := by
  unfold linkStuck
  split
  · exact unit_raise_rp s rfl x
  · rfl

theorem slotStart_starts {s : State} {u o : UnitId} {i t : Nat} {d : SlotDesc} {w : Win} (hw : s.beat.win = some w)
    (hn : s.nextSlot u = some (o, i, d)) (hrun : (s.unit u).run = none) (hf : (s.unit u).fenced = false) (hm : s.mayStart w d t = true) :
    exec (.slotStart u t) s = .next (linkStuck (slotRunning ((scaleRead s u d.op).at t) u o i (startedSlot s w u o i d t)) u o
      (startedSlot s w u o i d t)) := by
  rw [exec_slotStart, applySlotStart, hw, hn]
  dsimp only
  rw [if_neg (by simp [hrun, hf, hm])]
  rfl

theorem slotStart_idle {s : State} {u o : UnitId} {i t : Nat} {d : SlotDesc} {w : Win} (hw : s.beat.win = some w)
    (hn : s.nextSlot u = some (o, i, d)) (h : (s.unit u).run ≠ none ∨ (s.unit u).fenced = true ∨ s.mayStart w d t = false) :
    exec (.slotStart u t) s = .next s := by
  rw [exec_slotStart, applySlotStart, hw, hn]
  refine congrArg _ (if_pos ?_)
  rcases h with h | h | h
  · simp [Option.isSome_iff_ne_none, h]
  · simp [h]
  · simp [h]

theorem keeps_scaleRead {P : StatePart → Bool} (s : State) (u : UnitId) (op : Nat) (hp : covers P [.tier]) : Keeps P s (scaleRead s u op) := by
  unfold scaleRead
  split
  · exact keeps_slotScale s u.idx op (keeps_refl s) hp
  · exact keeps_refl s

/-- The program tables are those of the running plan. -/
theorem entryOf_congr {s t : State} (hs : ∀ f, t.slot f = s.slot f) (hc : t.casc = s.casc) (u o : UnitId) (op : Nat) :
    t.entryOf u o op = s.entryOf u o op := by
  have ha : t.slotA = s.slotA := hs .a
  have hb : t.slotB = s.slotB := hs .b
  have hfing : t.fing = s.fing := by
    unfold State.fing State.runSlot
    rw [ha, hb]
    split
    · exact congrArg SlotSt.fing (hs _)
    · rfl
  unfold State.entryOf State.coreProg State.plan
  rw [hfing, hc]

theorem startedSlot_ptr (s : State) (w : Win) (u o : UnitId) (i : Nat) (d : SlotDesc) (t : Nat) :
    (startedSlot s w u o i d t).ptr = s.entryOf u o d.op :=
  entryOf_congr (slot_of_keeps (keeps_scaleRead s u d.op (covers_allBut rfl)))
    ((keeps_scaleRead s u d.op (covers_allBut (q := .casc) rfl)).parts .casc (by decide)) u o d.op

/-- The slot's unit runs it, awake; its owner has started it; no other unit changes. -/
theorem slotRunning_units (s : State) (u o : UnitId) (i : Nat) (r : RunSlot) :
    ((slotRunning s u o i r).unit u).run = some r ∧ ((slotRunning s u o i r).unit u).power = 0 ∧
      ((slotRunning s u o i r).unit o).next = i + 1 ∧
      ∀ x, unitKey x ≠ unitKey u → unitKey x ≠ unitKey o → (slotRunning s u o i r).unit x = s.unit x := by
  unfold slotRunning
  refine ⟨?_, ?_, ?_, fun x hu ho => ?_⟩
  · rw [unit_showRun, unit_setPower_same _ _ rfl, unit_setUnit_same _ _ rfl]
  · rw [unit_showRun, unit_setPower_same _ _ rfl]
  · by_cases hk : unitKey o = unitKey u
    · rw [unit_showRun, unit_setPower_same _ _ hk, unit_setUnit_same _ _ rfl]
      dsimp only
      rw [unit_setUnit_same _ _ hk.symm]
    · rw [unit_showRun, unit_setPower_ne _ _ hk, unit_setUnit_ne _ _ hk, unit_setUnit_same _ _ rfl]
  · rw [unit_showRun, unit_setPower_ne _ _ hu, unit_setUnit_ne _ _ hu, unit_setUnit_ne _ _ ho]

/-! ### A slot ends (R80, R373) -/

/-- The margin of a slot that ends at `t`. -/
def slotMargin (t : Nat) (w : Win) : Win := { w with margin := min w.margin ((w.gapStart : Int) - (t : Int)) }

theorem choosePower_units (s : State) (u : UnitId) (t : Nat) :
    ((s.choosePower u t).unit u).run = (s.unit u).run ∧ ∀ x, unitKey x ≠ unitKey u → (s.choosePower u t).unit x = s.unit x := by
  have hset : ∀ p, ((s.setPower u p).unit u).run = (s.unit u).run ∧ ∀ x, unitKey x ≠ unitKey u → (s.setPower u p).unit x = s.unit x :=
    fun p => ⟨by rw [unit_setPower_same s p rfl], fun x hx => unit_setPower_ne s p hx⟩
  unfold State.choosePower
  split
  · exact ⟨rfl, fun _ _ => rfl⟩
  · split
    · exact hset _
    · split
      · exact hset _
      · exact hset _

/-- A unit without a slot, and its window with the margin; copies that end with the slot expire. -/
def slotEnded (s : State) (u : UnitId) (r : RunSlot) (t : Nat) : State :=
  let s := s.setUnit u { s.unit u with run := none }
  let s := s.setWindow r.beat (slotMargin t)
  s.expireCopies fun c => c.expires == some (r.owner, r.slot, r.beat)

theorem endSlot_eq (s : State) (u : UnitId) (r : RunSlot) (t : Nat) : s.endSlot u r t = ((slotEnded s u r t).showRun u).choosePower u t := rfl

theorem endSlot_units (s : State) (u : UnitId) (r : RunSlot) (t : Nat) :
    ((s.endSlot u r t).unit u).run = none ∧ ∀ x, unitKey x ≠ unitKey u → (s.endSlot u r t).unit x = s.unit x := by
  have hended : ∀ x, (slotEnded s u r t).unit x = (s.setUnit u { s.unit u with run := none }).unit x := fun x =>
    unit_of_keeps (keeps_expireCopies _ _ (keeps_setWindow _ _ _ (keeps_refl _) (covers_allBut rfl)) (covers_allBut rfl)) x
  obtain ⟨hrun, hother⟩ := choosePower_units ((slotEnded s u r t).showRun u) u t
  rw [endSlot_eq]
  refine ⟨?_, fun x hx => ?_⟩
  · rw [hrun, unit_showRun, hended, unit_setUnit_same _ _ rfl]
  · rw [hother x hx, unit_showRun, hended, unit_setUnit_ne _ _ hx]

theorem endSlot_beat (s : State) (u : UnitId) (r : RunSlot) (t : Nat) : (s.endSlot u r t).beat = (s.setWindow r.beat (slotMargin t)).beat := by
  have hended : (slotEnded s u r t).beat = (s.setWindow r.beat (slotMargin t)).beat :=
    (keeps_expireCopies ((s.setUnit u { s.unit u with run := none }).setWindow r.beat (slotMargin t)) _ (keeps_refl _)
      (covers_allBut (q := .beat) rfl)).parts .beat (by decide)
  have htail : (((slotEnded s u r t).showRun u).choosePower u t).beat = (slotEnded s u r t).beat :=
    (keeps_choosePower _ u t (keeps_showRun (slotEnded s u r t) u (keeps_refl _) (covers_allBut (q := .beat) rfl))
      (covers_allBut rfl)).parts .beat (by decide)
  rw [endSlot_eq, htail, hended]

/-- A lane of a forager: its slots end with their budgets. -/
def isLane (u : UnitId) : Bool := u.cls == 6 && decide (u.idx % 9 < 8)

theorem isLane_iff (u : UnitId) : isLane u = true ↔ u.cls = 6 ∧ u.idx % 9 < 8 := by simp [isLane]

theorem slotEnd_idle {s : State} {u : UnitId} {r : RunSlot} (t : Nat) (hr : (s.unit u).run = some r)
    (h : (r.ended = false ∧ ¬(u.cls = 6 ∧ u.idx % 9 < 8)) ∨ ∃ x ∈ s.tier.waits, x.unit = some u) : exec (.slotEnd u t []) s = .next s := by
  rw [exec_slotEnd, applySlotEnd, hr]
  refine congrArg _ (if_pos ?_)
  rw [← isLane_iff] at h
  simp only [Bool.or_eq_true, Bool.and_eq_true, Bool.not_eq_true', List.any_eq_true, beq_iff_eq]
  refine h.imp (fun ⟨he, hl⟩ => ⟨he, ?_⟩) id
  exact Bool.not_eq_true _ ▸ hl

theorem window_of_win {s : State} {w : Win} (hw : s.beat.win = some w) : s.window w.beat = some w := by
  unfold State.window
  rw [hw]
  exact if_pos rfl

theorem window_setWindow {s : State} {w : Win} {f : Win → Win} (hf : (f w).beat = w.beat) (hw : s.beat.win = some w) :
    (s.setWindow w.beat f).window w.beat = some (f w) := by
  rw [← hf]
  exact window_of_win (hf ▸ setWindow_win f hw)

/-- Without errors the window has no new fault. -/
theorem meetsFault_none {s : State} {w : Win} (c : ErrCtx) (hw : s.beat.win = some w) : s.meetsFault c w.beat [] = false := by
  unfold State.meetsFault State.hwErrors
  rw [List.foldl_nil]
  dsimp only
  rw [window_setWindow (f := fun y => { y with fault := false }) rfl hw]
  rfl

theorem slotEnd_ends {s : State} {u : UnitId} {r : RunSlot} {w : Win} (t : Nat) (hr : (s.unit u).run = some r)
    (he : r.ended = true ∨ (u.cls = 6 ∧ u.idx % 9 < 8)) (hx : ∀ x ∈ s.tier.waits, x.unit ≠ some u) (hw : s.beat.win = some w)
    (hb : w.beat = r.beat) : exec (.slotEnd u t []) s = .next ((s.at t).endSlot u r t) := by
  have hgo : (!r.ended && !(isLane u) || s.tier.waits.any (·.unit == some u)) = false := by
    rw [← isLane_iff] at he
    have hwaits : s.tier.waits.any (·.unit == some u) = false := List.any_eq_false.mpr fun x hm => by simpa using hx x hm
    rw [hwaits]
    rcases he with he | he <;> simp [he]
  have hrun : ((s.at t).unit u).run.isSome = true := by
    rw [show (s.at t).unit u = s.unit u from rfl, hr]
    rfl
  rw [exec_slotEnd, applySlotEnd, hr]
  dsimp only
  rw [if_neg (by rw [← isLane, hgo]; decide), ← hb, meetsFault_none _ hw]
  simp only [Bool.and_false, Bool.false_eq_true, if_false]
  rw [show (s.at t).hwErrors (s.errCtx u r) r.core [] = s.at t from rfl, if_pos hrun]

/-! ### A slot hangs (R100, R264) -/

/-- What a hung slot had under way goes with it. -/
def hungDropped (s : State) (u : UnitId) : State :=
  let s := { s with
    upd := { s.upd with staged := s.upd.staged.filter fun x => !(u.cls == 7 && x.eng == u.idx) }
    tier := { s.tier with waits := s.tier.waits.filter fun x => !(x.unit == some u) }
    host := { s.host with runs := s.host.runs.filter fun x => !(u.cls == 4 && x.engine == u.idx && !x.complete) } }
  if u.cls = 4 then s.showCe u.idx else s

theorem slotHung_early {s : State} {u : UnitId} {r : RunSlot} {w : Win} {t : Nat} (hr : (s.unit u).run = some r)
    (hw : s.beat.win = some w) (hb : w.beat = r.beat) (ht : t < r.plannedEnd + w.period) : exec (.slotHung u t) s = .next s := by
  rw [exec_slotHung, applySlotHung, hr]
  dsimp only
  rw [← hb, window_of_win hw]
  exact congrArg _ (if_pos ht)

/-- The event of a hung slot. -/
def hungEvent (s : State) (u : UnitId) (r : RunSlot) : Ev := (s.errCtx u r).ev 0x2023 1 (unitCode u (s.errCtx u r).phys)

theorem keeps_hungDropped {P : StatePart → Bool} (s : State) (u : UnitId) (hp : covers P [.regs, .upd, .tier, .host]) :
    Keeps P s (hungDropped s u) := by
  unfold hungDropped
  exact keeps_ite (fun _ => keeps_showCe _ _ (keeps_upd (keeps_refl s)) (hp.sub rfl)) fun _ => keeps_upd (keeps_refl s)

theorem slotHung_late {s : State} {u : UnitId} {r : RunSlot} {w : Win} {t : Nat} (hr : (s.unit u).run = some r)
    (hw : s.beat.win = some w) (hb : w.beat = r.beat) (ht : r.plannedEnd + w.period ≤ t) :
    exec (.slotHung u t) s = .next ((hungDropped ((s.at t).raise (hungEvent s u r)) u).endSlot u r t) := by
  have hrun : ((hungDropped ((s.at t).raise (hungEvent s u r)) u).unit u).run.isSome = true := by
    rw [unit_of_keeps (keeps_hungDropped _ u (covers_allBut rfl)), unit_raise_rp _ rfl, show (s.at t).unit u = s.unit u from rfl, hr]
    rfl
  rw [exec_slotHung, applySlotHung, hr]
  dsimp only
  rw [← hb, window_of_win hw, if_neg (by dsimp only; omega)]
  exact congrArg _ (if_pos hrun)

section
variable {lo hi : Nat}

theorem rangeKept_showCore (hr : noUnit lo hi) (s : State) (l : Nat) : RangeKept lo hi s (s.showCore l) := by
  unfold State.showCore
  have hp : s.physOf l < 128 := fld_lt s _ 6 0
  refine rangeKept_ite (fun _ => rangeKept_unitFld hr s _ _ _ ?_ ?_) fun _ => rangeKept_refl s
  all_goals
    unfold Reg.coreState
    omega

theorem rangeKept_showRun (hr : noUnit lo hi) (s : State) {u : UnitId} (hu : u.wf = true) : RangeKept lo hi s (s.showRun u) := by
  unfold State.showRun
  refine rangeKept_ite (fun _ => rangeKept_showCore hr s _) fun _ => rangeKept_ite (fun _ => rangeKept_showCore hr s _) fun _ =>
    rangeKept_ite (fun h7 => rangeKept_ite (fun _ => rangeKept_refl s) fun _ => rangeKept_unitFld hr s _ _ _ ?_ ?_) fun _ => rangeKept_refl s
  all_goals
    have hidx : u.idx < 16 := by
      have := of_decide_eq_true hu
      rw [h7] at this
      exact this
    unfold Reg.updStatus
    omega

theorem rangeKept_showPower (hr : noUnit lo hi) (s : State) (u : UnitId) (p : Nat) : RangeKept lo hi s (s.showPower u p) := by
  unfold State.showPower
  refine rangeKept_ite (fun _ => rangeKept_ite (fun hp => rangeKept_unitFld hr s _ _ _ ?_ ?_) fun _ => rangeKept_refl s)
    fun _ => rangeKept_refl s
  all_goals
    unfold Reg.coreState
    omega

theorem rangeKept_setPower (hr : noUnit lo hi) (s : State) (u : UnitId) (p : Nat) : RangeKept lo hi s (s.setPower u p) :=
  (rangeKept_showPower hr (s.setUnit u { s.unit u with power := p }) u p).from_regs rfl

theorem rangeKept_choosePower (hr : noUnit lo hi) (s : State) (u : UnitId) (t : Nat) : RangeKept lo hi s (s.choosePower u t) := by
  unfold State.choosePower
  refine rangeKept_ite (fun _ => rangeKept_refl s) fun _ => rangeKept_ite (fun _ => rangeKept_setPower hr s u _) fun _ => ?_
  split
  · exact rangeKept_setPower hr s u _
  · exact rangeKept_setPower hr s u _

theorem rangeKept_showCe (hr : noUnit lo hi) (s : State) {e : Nat} (he : e < 24) : RangeKept lo hi s (s.showCe e) :=
  rangeKept_unitFld hr s _ _ _ (by unfold Reg.ceStatus; omega) (by unfold Reg.ceStatus; omega)

theorem rangeKept_hungDropped (hr : noUnit lo hi) (s : State) {u : UnitId} (hu : u.wf = true) : RangeKept lo hi s (hungDropped s u) := by
  have hidx : u.cls = 4 → u.idx < 24 := fun h4 => by
    have := of_decide_eq_true hu
    rw [h4] at this
    exact this
  unfold hungDropped
  exact rangeKept_ite (fun h4 => (rangeKept_showCe hr _ (hidx h4)).from_regs rfl) fun _ => rangeKept_of_regs rfl

theorem rangeKept_endSlot (hr : noUnit lo hi) (s : State) {u : UnitId} (r : RunSlot) (t : Nat) (hu : u.wf = true) :
    RangeKept lo hi s (s.endSlot u r t) := by
  have hregs : (slotEnded s u r t).regs = s.regs :=
    (keeps_expireCopies ((s.setUnit u { s.unit u with run := none }).setWindow r.beat (slotMargin t)) _ (keeps_refl _)
      (covers_allBut (q := .regs) rfl)).parts .regs (by decide)
  rw [endSlot_eq]
  exact ((rangeKept_of_regs hregs).trans (rangeKept_showRun hr _ hu)).trans (rangeKept_choosePower hr _ u t)

end

theorem markFault_running {s : State} (e : Ev) (hp : s.beat.prev = []) :
    s.markFault e = { s with beat := { s.beat with win := s.beat.win.map (·.fail e.unit) } } := by
  unfold State.markFault
  cases e.beat <;> simp [hp]

/-- An RP event of the running window marks it FAULT. -/
theorem raise_rp_window {s : State} {w : Win} {e : Ev} (h : e.cls = 1) (hw : s.beat.win = some w) (hp : s.beat.prev = []) :
    (s.raise e).beat.win = some (w.fail e.unit) ∧
      (s.raise e).reg (Reg.errLog ((s.reg Reg.errLogHead).toNat % 256) 0) = BitVec.ofNat 32 (e.code % 65536 + 65536) := by
  have hb := beat_of_onlyLog (onlyLog_logEntry (offs := []) s e)
  rw [raise_rp s h]
  constructor
  · rw [markFault_running e (by rw [hb]; exact hp), hb]
    exact congrArg (Option.map (·.fail e.unit)) hw
  · rw [reg_congr (markFault_regs _ e), logEntry_first, h]

/-! ### O31 -/

/-- A slot that hangs: its window has a fault, and its end stands in the log. -/
theorem slotHung_faults {s : State} {u : UnitId} {r : RunSlot} {w : Win} {t : Nat} (hr : (s.unit u).run = some r) (hu : u.wf = true)
    (hw : s.beat.win = some w) (hb : w.beat = r.beat) (ht : r.plannedEnd + w.period ≤ t) (hp : s.beat.prev = []) :
    ∃ v x, exec (.slotHung u t) s = .next v ∧ (v.unit u).run = none ∧ v.beat.win = some x ∧ x.fault = true ∧
      v.reg (Reg.errLog ((s.reg Reg.errLogHead).toNat % 256) 0) = BitVec.ofNat 32 (0x2023 + 65536) := by
  obtain ⟨hwin, hlog⟩ := raise_rp_window (s := s.at t) (e := hungEvent s u r) rfl hw hp
  have hdrop : (hungDropped ((s.at t).raise (hungEvent s u r)) u).beat = ((s.at t).raise (hungEvent s u r)).beat :=
    (keeps_hungDropped _ u (covers_allBut (q := .beat) rfl)).parts .beat (by decide)
  have hlast := slotHung_late hr hw hb ht
  generalize (s.at t).raise (hungEvent s u r) = y at *
  refine ⟨_, slotMargin t (w.fail (hungEvent s u r).unit), hlast, (endSlot_units _ u r t).1, ?_, rfl, ?_⟩
  · rw [endSlot_beat, ← hb]
    exact setWindow_win (w := w.fail (hungEvent s u r).unit) _ (by rw [hdrop]; exact hwin)
  · have hr : noUnit 0x3C01000 0x3C02000 := .inr (by decide)
    have hk := (rangeKept_hungDropped hr y hu).trans (rangeKept_endSlot hr _ r t hu)
    refine (hk.reg _ ?_ ?_).trans hlog <;> unfold Reg.errLog <;> omega

/-- Settles O31: a slot starts where `mayStart` lets it, ends with its op, and is stopped when it hangs. -/
theorem slotsStartEndAndHang : Obligations.SlotsStartEndAndHang := by
  unfold Obligations.SlotsStartEndAndHang
  refine ⟨fun u o t i d w s hw hn => ⟨fun hrun hf hm => ?_, fun h => slotStart_idle hw hn h⟩, fun u t r w s hr =>
    ⟨fun he hx hw hb => ?_, fun h => slotEnd_idle t hr h, fun hu hw hb ht hp => slotHung_faults hr hu hw hb ht hp,
    fun hw hb ht => slotHung_early hr hw hb ht⟩⟩
  · obtain ⟨hr, hpower, hnext, hother⟩ := slotRunning_units ((scaleRead s u d.op).at t) u o i (startedSlot s w u o i d t)
    refine ⟨_, startedSlot s w u o i d t, slotStart_starts hw hn hrun hf hm, ?_⟩
    simp only [linkStuck_unit]
    refine ⟨hr, hpower, rfl, rfl, rfl, rfl, rfl, rfl, rfl, startedSlot_ptr s w u o i d t, rfl, rfl, hnext, fun x hu ho => ?_⟩
    rw [hother x hu ho]
    exact unit_of_keeps (keeps_scaleRead s u d.op (covers_allBut rfl)) x
  · obtain ⟨hnone, hother⟩ := endSlot_units (s.at t) u r t
    refine ⟨_, slotEnd_ends t hr he hx hw hb, hnone, ?_, hother⟩
    rw [endSlot_beat, ← hb]
    exact setWindow_win (s := s.at t) _ hw

end Sys2Proof.Laws

/-! # Sending on the ports: what it leaves alone, and what goes out -/

namespace Sys2Proof.Laws

open Sys2Proof Sys2Proof.Machine

/-! ### What sending leaves alone (R413 to R416) -/

/-- The parts of the state in which sending acts. -/
def sendParts (p : StatePart) : Bool := [StatePart.regs, .ports, .casc].contains p

theorem covers_sendParts : covers sendParts [.regs, .ports, .casc] := fun _ h => h

/-- A register that shows no port's credit. -/
def notCredit (o : Nat) : Prop := ∀ q, q < 32 → o ≠ Reg.vlCredit q

/-- Sending changes the credit that VL_CREDIT shows, the order in which frames are numbered, and what the ports hold; what waits at a
port stays there. -/
structure SendsOnly (s t : State) : Prop where
  keeps : Keeps sendParts s t
  reg : ∀ o, notCredit o → t.reg o = s.reg o
  casc : ∃ n, t.casc = { s.casc with txSeq := n }
  wait : ∀ q, ∀ x ∈ (s.port q).sendWait, x ∈ (t.port q).sendWait
  active : ∀ q, (t.port q).active = (s.port q).active

theorem sendsOnly_refl (s : State) : SendsOnly s s :=
  ⟨keeps_refl s, fun _ _ => rfl, ⟨s.casc.txSeq, rfl⟩, fun _ _ h => h, fun _ => rfl⟩

theorem SendsOnly.trans {s t u : State} (h : SendsOnly s t) (g : SendsOnly t u) : SendsOnly s u := by
  obtain ⟨n, hn⟩ := h.casc
  obtain ⟨m, hm⟩ := g.casc
  exact ⟨keeps_trans h.keeps g.keeps, fun o ho => (g.reg o ho).trans (h.reg o ho), ⟨m, by rw [hm, hn]⟩,
    fun q x hx => g.wait q x (h.wait q x hx), fun q => (g.active q).trans (h.active q)⟩

theorem sendsOnly_foldl {α : Type} {f : State → α → State} (h : ∀ s x, SendsOnly s (f s x)) (l : List α) (s : State) :
    SendsOnly s (l.foldl f s) := by
  induction l generalizing s with
  | nil => exact sendsOnly_refl s
  | cons x xs ih => exact (h s x).trans (ih _)

theorem port_setPort_self (s : State) (q : Nat) (x : PortSt) : (s.setPort q x).port q = x := by
  unfold State.port State.setPort
  rw [getKey_putKey_self]
  rfl

theorem port_setPort_ne (s : State) {q p : Nat} (x : PortSt) (h : p ≠ q) : (s.setPort q x).port p = s.port p := by
  unfold State.port State.setPort
  rw [getKey_putKey_ne _ _ h]

theorem port_congr {s t : State} (h : t.ports = s.ports) (q : Nat) : t.port q = s.port q := by
  unfold State.port
  rw [h]

/-- A port whose frames still wait and which is as active as before. -/
theorem sendsOnly_setPort (s : State) (q : Nat) (x : PortSt) (hw : ∀ y ∈ (s.port q).sendWait, y ∈ x.sendWait)
    (ha : x.active = (s.port q).active) : SendsOnly s (s.setPort q x) := by
  have hports : ∀ p, (s.setPort q x).port p = if p = q then x else s.port p := by
    intro p
    by_cases h : p = q
    · rw [if_pos h, h, port_setPort_self]
    · rw [if_neg h, port_setPort_ne s x h]
  refine ⟨keeps_setPort _ _ _ (keeps_refl s) (covers_sendParts.sub rfl), fun _ _ => rfl, ⟨s.casc.txSeq, rfl⟩, fun p y hy => ?_, fun p => ?_⟩
  · rw [hports]
    split
    · next h => exact hw y (h ▸ hy)
    · exact hy
  · rw [hports]
    split
    · next h => rw [ha, h]
    · rfl

theorem sendsOnly_emit (s : State) (o : Out) : SendsOnly s (s.emit o) :=
  ⟨keeps_emit (keeps_refl s) o, fun _ _ => rfl, ⟨s.casc.txSeq, rfl⟩, fun _ _ h => h, fun _ => rfl⟩

theorem sendsOnly_showCredit (s : State) {q : Nat} (h : q < 32) : SendsOnly s (s.showCredit q) := by
  refine ⟨keeps_showCredit _ _ (keeps_refl s) (covers_sendParts.sub rfl), fun o ho => reg_setReg_ne s _ ?_, ⟨s.casc.txSeq, rfl⟩, fun _ _ h => h,
    fun _ => rfl⟩
  have hne := ho q h
  have hb := regHome_bounds o
  rw [regHome_id (o := Reg.vlCredit q) (by unfold Reg.vlCredit; omega)]
  unfold Reg.vlCredit at hne ⊢
  omega

theorem sendsOnly_sendKept (s : State) (q : Nat) (f : Frame) : SendsOnly s (s.sendKept q f) := by
  unfold State.sendKept
  refine SendsOnly.trans ?_ (sendsOnly_emit _ _)
  exact sendsOnly_setPort s q _ (fun _ h => h) rfl

theorem sendsOnly_trySend {s t : State} {q : Nat} {f : Frame} (hq : q < 32) (h : s.trySend q f = some t) : SendsOnly s t := by
  unfold State.trySend at h
  dsimp only at h
  split at h
  · cases h
  · cases h
    refine SendsOnly.trans (SendsOnly.trans ?_ (sendsOnly_showCredit _ hq)) (sendsOnly_sendKept _ _ _)
    exact sendsOnly_setPort s q _ (fun _ h => h) rfl

theorem sendsOnly_numbered (s : State) (key : Nat) (f : Frame) : SendsOnly s (s.numbered key f).2 :=
  ⟨keeps_numbered s key f (keeps_refl s) (covers_sendParts.sub rfl), fun _ _ => rfl, ⟨_, rfl⟩, fun _ _ h => h, fun _ => rfl⟩

theorem sendsOnly_owe (s : State) (q vl n : Nat) : SendsOnly s (s.owe q vl n) := by
  unfold State.owe
  dsimp only
  split
  · exact sendsOnly_refl s
  · exact sendsOnly_setPort s q _ (fun _ h => h) rfl

theorem sendsOnly_dropAt (s : State) (ingress : Nat) (f : Frame) : SendsOnly s (s.dropAt ingress f) := by
  unfold State.dropAt
  split
  · exact sendsOnly_refl s
  · exact sendsOnly_owe s _ _ _

/-! ### Taking the ports of a direction in turn (R413) -/

/-- The ports of a role, the next in turn first. -/
def turnOrder (ps : List Nat) (n : Nat) : List Nat := ps.drop (n % max 1 ps.length) ++ ps.take (n % max 1 ps.length)

theorem mem_turnOrder {ps : List Nat} {n q : Nat} : q ∈ turnOrder ps n ↔ q ∈ ps := by
  unfold turnOrder
  rw [List.mem_append, or_comm, ← List.mem_append, List.take_append_drop]

/-- The next frame of a direction, numbered. -/
def launched (s : State) (role : Nat) (f : Frame) : Frame × State := s.numbered (orderKey role 0 f.vl) f

/-- A frame waits at a port. -/
def waitsAt (x : Frame × State) (ingress q : Nat) : State :=
  x.2.setPort q { x.2.port q with sendWait := (x.2.port q).sendWait ++ [(ingress, x.1)] }

theorem launch_cases {s t : State} {role ingress : Nat} {wait : Bool} {f : Frame} (h : s.launch role wait ingress f = some t) :
    ∃ q ∈ s.portsOf role, (launched s role f).2.trySend q (launched s role f).1 = some t ∨ t = waitsAt (launched s role f) ingress q := by
  unfold State.launch at h
  split at h
  · cases h
  · dsimp only at h
    split at h
    · next y hy =>
      cases h
      obtain ⟨q, hq, he⟩ := List.exists_of_findSome?_eq_some hy
      refine ⟨q, mem_turnOrder.mp hq, .inl ?_⟩
      split at he
      · exact he
      · cases he
    · split at h
      · cases h
      · split at h
        · next q hq =>
          cases h
          exact ⟨q, mem_turnOrder.mp (List.mem_of_mem_head? hq), .inr rfl⟩
        · cases h

theorem launch_some {s : State} {role ingress : Nat} {f : Frame} (hr : s.casc.retired = false) (hp : s.portsOf role ≠ []) :
    ∃ t, s.launch role true ingress f = some t := by
  unfold State.launch
  rw [if_neg (by simp [hr])]
  dsimp only
  split
  · exact ⟨_, rfl⟩
  · rw [if_neg (by simp)]
    obtain ⟨q, qs, hq⟩ := List.exists_cons_of_ne_nil hp
    have hm : q ∈ turnOrder (s.portsOf role) ((getKey s.casc.txSeq (orderKey role 0 f.vl)).getD 0) := mem_turnOrder.mpr (by rw [hq]; exact List.mem_cons_self)
    split
    · exact ⟨_, rfl⟩
    · next hn =>
      rw [List.head?_eq_none_iff] at hn
      unfold turnOrder at hm
      rw [hn] at hm
      cases hm

theorem mem_portsOf {s : State} {role q : Nat} (h : q ∈ s.portsOf role) : q < 32 ∧ s.portRole q = role := by
  unfold State.portsOf at h
  obtain ⟨p, hp, hq⟩ := List.mem_flatMap.mp h
  split at hq
  · next hc =>
    obtain ⟨-, rfl⟩ := List.mem_replicate.mp hq
    simp only [Bool.and_eq_true, decide_eq_true_eq] at hc
    exact ⟨List.mem_range.mp hp, hc.2⟩
  · cases hq

theorem sendsOnly_waitsAt (s : State) (x : Frame × State) (ingress q : Nat) (h : SendsOnly s x.2) : SendsOnly s (waitsAt x ingress q) :=
  h.trans (sendsOnly_setPort _ q _ (fun _ hy => List.mem_append_left _ hy) rfl)

theorem sendsOnly_launch {s t : State} {role ingress : Nat} {wait : Bool} {f : Frame} (h : s.launch role wait ingress f = some t) :
    SendsOnly s t := by
  have hn := sendsOnly_numbered s (orderKey role 0 f.vl) f
  obtain ⟨q, hq, ht | ht⟩ := launch_cases h
  · exact hn.trans (sendsOnly_trySend (mem_portsOf hq).1 ht)
  · rw [ht]
    exact sendsOnly_waitsAt s _ _ _ hn

theorem sendsOnly_sendControl (s : State) (f : Frame) (ingress : Nat) : SendsOnly s (s.sendControl f ingress) := by
  unfold State.sendControl
  split
  · exact sendsOnly_dropAt s _ _
  · dsimp only
    split
    · next k _ =>
      cases hl : s.launch k true ingress _ with
      | none => exact sendsOnly_dropAt s _ _
      | some t => exact sendsOnly_launch hl
    · exact sendsOnly_dropAt s _ _

theorem sendsOnly_spreadFrom (s : State) (me : Coord) (m : CtlMsg) : SendsOnly s (s.spreadFrom me m) := by
  unfold State.spreadFrom
  split
  · exact sendsOnly_refl s
  · exact sendsOnly_foldl (fun u c => sendsOnly_sendControl u _ _) _ s

theorem sendsOnly_spread (s : State) (m : CtlMsg) : SendsOnly s (s.spread m) := sendsOnly_spreadFrom s _ m

end Sys2Proof.Laws

/-! # Messages that go out -/

namespace Sys2Proof.Laws

open Sys2Proof Sys2Proof.Machine

/-! ### What decides where a message goes (R426, R431, R444) -/

/-- A register that decides where a frame goes. -/
def wayReg (o : Nat) : Prop := o = Reg.cascadeCoord ∨ (∃ h, o = Reg.dieStep h 0 ∧ h < 2) ∨ ∃ q, q < 32 ∧ (o = Reg.linkState q ∨ o = Reg.linkWidth q)

/-- Two states that send a message the same way: the run, the lost devices and the ports are the same. -/
structure SameWays (s t : State) : Prop where
  slot : ∀ f, t.slot f = s.slot f
  lost : t.casc.lost = s.casc.lost
  retired : t.casc.retired = s.casc.retired
  takeover : t.casc.takeover = s.casc.takeover
  reg : ∀ o, wayReg o → t.reg o = s.reg o
  active : ∀ q, (t.port q).active = (s.port q).active

theorem SameWays.trans {s t u : State} (h : SameWays s t) (g : SameWays t u) : SameWays s u :=
  ⟨fun f => (g.slot f).trans (h.slot f), g.lost.trans h.lost, g.retired.trans h.retired, g.takeover.trans h.takeover,
    fun o ho => (g.reg o ho).trans (h.reg o ho), fun q => (g.active q).trans (h.active q)⟩

theorem notCredit_of_wayReg {o : Nat} (h : wayReg o) : notCredit o := by
  intro q hq
  unfold Reg.vlCredit
  obtain rfl | ⟨n, rfl, hn⟩ | ⟨p, hp, rfl | rfl⟩ := h
  · unfold Reg.cascadeCoord
    omega
  · unfold Reg.dieStep
    omega
  · unfold Reg.linkState
    omega
  · unfold Reg.linkWidth
    omega

theorem notCredit_low {o : Nat} (h : o < 0x3000000) : notCredit o := by
  intro q hq
  unfold Reg.vlCredit
  omega

theorem notCredit_high {o : Nat} (h : 0x3080000 ≤ o) : notCredit o := by
  intro q hq
  unfold Reg.vlCredit
  omega

theorem SendsOnly.sameWays {s t : State} (h : SendsOnly s t) : SameWays s t := by
  obtain ⟨n, hn⟩ := h.casc
  obtain ⟨ha, hb⟩ := Prod.mk.inj (h.keeps.parts .slots rfl)
  exact ⟨slot_of_slots ha hb, by rw [hn], by rw [hn], by rw [hn], fun o ho => h.reg o (notCredit_of_wayReg ho), h.active⟩

section
variable {s t : State} (h : SameWays s t)
include h

theorem SameWays.runSlot : t.runSlot = s.runSlot := by
  have ha := h.slot .a
  have hb := h.slot .b
  unfold State.runSlot
  change t.slotA = s.slotA at ha
  change t.slotB = s.slotB at hb
  rw [ha, hb]

theorem SameWays.fing : t.fing = s.fing := by
  unfold State.fing
  rw [h.runSlot]
  cases s.runSlot with
  | none => rfl
  | some f => exact congrArg (·.fing) (h.slot f)

theorem SameWays.route : t.route = s.route := by
  unfold State.route State.plan
  rw [h.fing, h.takeover]

theorem SameWays.self : t.self = s.self := by
  unfold State.self
  rw [fld_of_reg (h.reg _ (.inl rfl))]

theorem SameWays.portRole {q : Nat} (hq : q < 32) : t.portRole q = s.portRole q :=
  fld_of_reg (h.reg _ (.inr (.inr ⟨q, hq, .inl rfl⟩))) _ _

theorem SameWays.portUsable {q : Nat} (hq : q < 32) : t.portUsable q = s.portUsable q := by
  have hdie := h.reg _ (.inr (.inl ⟨q / 16, rfl, by omega⟩))
  have hlink := h.reg _ (.inr (.inr ⟨q, hq, .inl rfl⟩))
  unfold State.portUsable State.hubPresent State.diePresent
  rw [bit_of_reg hdie, bit_of_reg hdie, fld_of_reg hlink, bit_of_reg hlink, h.active]

theorem SameWays.portsOf (role : Nat) : t.portsOf role = s.portsOf role := by
  unfold State.portsOf
  refine List.flatMap_congr fun q hq => ?_
  have hq' := List.mem_range.mp hq
  rw [h.portUsable hq', h.portRole hq', fld_of_reg (h.reg (Reg.linkWidth q) (.inr (.inr ⟨q, hq', .inr rfl⟩)))]

theorem SameWays.egress (r : Route) (d : Coord) : t.egress r d = s.egress r d := by
  unfold State.egress
  rw [h.self]
  simp only [h.lost, h.portsOf]

theorem SameWays.aliasOf (r : Route) (d : Coord) : t.aliasOf r d = s.aliasOf r d := by
  unfold State.aliasOf
  rw [h.lost, h.self, h.fing]

theorem SameWays.answersFor (r : Route) : t.answersFor r = s.answersFor r := by
  funext c
  unfold State.answersFor
  rw [h.aliasOf, h.self]

theorem SameWays.treeNodes (r : Route) (iss : Coord) (n : Nat) (c : Coord) : t.treeNodes r iss n c = s.treeNodes r iss n c := by
  induction n generalizing c with
  | zero => rfl
  | succ n ih =>
    unfold State.treeNodes
    rw [h.answersFor]
    exact congrArg (c :: ·) (List.flatMap_congr fun d _ => ih d)

theorem SameWays.treeNext (r : Route) (iss : Coord) (nodes : List Coord) : t.treeNext r iss nodes = s.treeNext r iss nodes := by
  unfold State.treeNext
  rw [h.answersFor]

theorem SameWays.memberAt (i : Nat) : t.memberAt i = s.memberAt i := by
  unfold State.memberAt
  rw [h.route, h.self]

theorem SameWays.members : t.members = s.members := by
  unfold State.members
  rw [h.route, h.self]

end

/-! ### A message goes out (R413, R414) -/

/-- A CONTROL frame with this message for `c` has gone out at a port of a role, or waits there. -/
def outOn (s v : State) (role : Nat) (c : Coord) (m : CtlMsg) : Prop :=
  ∃ q f, q < 32 ∧ s.portRole q = role ∧ f.typ = 7 ∧ f.vl = 2 ∧ f.dest = c ∧ f.payload = m.bytes ∧
    (Out.frame q f ∈ v.out ∨ ∃ n, (n, f) ∈ (v.port q).sendWait)

/-- What has gone out or waits stays so while others go out. -/
theorem sends_of_later {s v w : State} {c : Coord} {m : CtlMsg} (h : s.sends v c m)
    (ho : v.out <+: w.out) (hw : ∀ q, ∀ x ∈ (v.port q).sendWait, x ∈ (w.port q).sendWait) : s.sends w c m := by
  intro r k hr hret hself hk
  obtain ⟨q, f, hrole, htyp, hvl, hdest, hpay, hout | ⟨n, hwait⟩⟩ := h r k hr hret hself hk
  · exact ⟨q, f, hrole, htyp, hvl, hdest, hpay, .inl (ho.subset hout)⟩
  · exact ⟨q, f, hrole, htyp, hvl, hdest, hpay, .inr ⟨n, hw q _ hwait⟩⟩

theorem sends_of_sends {s v w : State} {c : Coord} {m : CtlMsg} (h : s.sends v c m) (g : SendsOnly v w) : s.sends w c m :=
  sends_of_later h g.keeps.out g.wait

theorem trySend_out {s t : State} {q : Nat} {f : Frame} (h : s.trySend q f = some t) :
    ∃ g : Frame, Out.frame q g ∈ t.out ∧ g.typ = f.typ ∧ g.vl = f.vl ∧ g.dest = f.dest ∧ g.payload = f.payload := by
  unfold State.trySend at h
  dsimp only at h
  split at h
  · cases h
  · cases h
    exact ⟨_, List.mem_append_right _ (List.mem_singleton_self _), rfl, rfl, rfl, rfl⟩

/-- A direction has a usable port when the way that a frame takes is that direction. -/
theorem portsOf_of_egress {s : State} {r : Route} {d : Coord} {k : Nat} (h : s.egress r d = some k) : s.portsOf k ≠ [] := by
  have hfree : ∀ j, (!(s.casc.lost.contains (neighbour r s.self j)) && !(s.portsOf j).isEmpty) = true → s.portsOf j ≠ [] := by
    intro j hj he
    rw [he] at hj
    simp at hj
  unfold State.egress at h
  split at h
  · cases h
  · dsimp only at h
    split at h
    · next hc =>
      cases h
      exact hfree _ hc
    · have hf := List.find?_some h
      rw [Bool.and_eq_true] at hf
      exact hfree _ hf.2

theorem launch_out {s t : State} {role ingress : Nat} {f : Frame} {c : Coord} {m : CtlMsg} (h : s.launch role true ingress f = some t)
    (ht : f.typ = 7) (hv : f.vl = 2) (hd : f.dest = c) (hp : f.payload = m.bytes) : outOn s t role c m := by
  obtain ⟨q, hq, hs | hs⟩ := launch_cases h
  · obtain ⟨g, hout, htyp, hvl, hdest, hpay⟩ := trySend_out hs
    exact ⟨q, g, (mem_portsOf hq).1, (mem_portsOf hq).2, htyp.trans ht, hvl.trans hv, hdest.trans hd, hpay.trans hp, .inl hout⟩
  · refine ⟨q, (launched s role f).1, (mem_portsOf hq).1, (mem_portsOf hq).2, ht, hv, hd, hp, .inr ⟨ingress, ?_⟩⟩
    rw [hs]
    unfold waitsAt
    rw [port_setPort_self]
    exact List.mem_append_right _ (List.mem_singleton_self _)

/-- A message for a coordinate goes out toward the device that answers for it. -/
theorem sends_sendControl (s : State) (c : Coord) (m : CtlMsg) (u : State) (hu : SameWays u s) :
    u.sends (s.sendControl (s.frameTo 7 2 0 c 0 m.bytes) 0) c m := by
  intro r k hr hret hself hk
  rw [← hu.route] at hr
  rw [← hu.retired] at hret
  rw [← hu.aliasOf, ← hu.self] at hself
  rw [← hu.aliasOf, ← hu.egress] at hk
  have hout : outOn s (s.sendControl (s.frameTo 7 2 0 c 0 m.bytes) 0) k c m := by
    unfold State.sendControl
    rw [hr]
    dsimp only
    change (s.aliasOf r (s.frameTo 7 2 0 c 0 m.bytes).dest).1 ≠ s.self at hself
    change s.egress r (s.aliasOf r (s.frameTo 7 2 0 c 0 m.bytes).dest).1 = some k at hk
    rw [if_neg hself, hk]
    dsimp only
    generalize hf : (if (s.aliasOf r (s.frameTo 7 2 0 c 0 m.bytes).dest).2 = true then _ else _) = f
    obtain ⟨v, hv⟩ := launch_some (ingress := 0) (f := f) hret (portsOf_of_egress hk)
    rw [hv]
    have hfields : f.typ = 7 ∧ f.vl = 2 ∧ f.dest = c ∧ f.payload = m.bytes := by
      rw [← hf]
      split
      · exact ⟨rfl, rfl, rfl, rfl⟩
      · exact ⟨rfl, rfl, rfl, rfl⟩
    obtain ⟨htyp, hvl, hdest, hpay⟩ := hfields
    exact launch_out hv htyp hvl hdest hpay
  obtain ⟨q, f, hq, hrole, hrest⟩ := hout
  exact ⟨q, f, (hu.portRole hq).symm.trans hrole, hrest⟩

/-- A message that is sent to each of a list of coordinates goes out to each. -/
theorem sends_foldl {s : State} {m : CtlMsg} {c : Coord} (l : List Coord) (u : State) (hu : SameWays s u) (hc : c ∈ l) :
    s.sends (l.foldl (fun s c => s.sendControl (s.frameTo 7 2 0 c 0 m.bytes) 0) u) c m := by
  induction l generalizing u with
  | nil => cases hc
  | cons x xs ih =>
    have hx := sendsOnly_sendControl u (u.frameTo 7 2 0 x 0 m.bytes) 0
    by_cases h : c = x
    · subst h
      exact sends_of_sends (sends_sendControl u c m s hu) (sendsOnly_foldl (fun s c => sendsOnly_sendControl s _ 0) xs _)
    · exact ih _ (hu.trans hx.sameWays) ((List.mem_cons.mp hc).resolve_left h)

/-- A message that is sent on from a place of its tree goes out to each place that is next in the tree (R431). -/
theorem sends_spreadFrom {s u : State} {r : Route} {me c : Coord} {m : CtlMsg} (hu : SameWays s u) (hr : s.route = some r)
    (hc : c ∈ s.treeNext r (s.memberAt m.issuer) (s.treeNodes r (s.memberAt m.issuer) 3 me)) : s.sends (u.spreadFrom me m) c m := by
  unfold State.spreadFrom
  rw [hu.route, hr]
  dsimp only
  rw [hu.memberAt, hu.treeNodes, hu.treeNext]
  exact sends_foldl _ u hu (List.mem_append_left _ hc)

end Sys2Proof.Laws

/-! # Devices that fall silent (O38) -/

namespace Sys2Proof.Laws

open Sys2Proof Sys2Proof.Machine

/-! ### A REPLAY's effects bring no device to FAILED (R94) -/

theorem devKept_of_keeps {P : StatePart → Bool} {s t : State} (h : Keeps P s t) (hr : P .regs = false) (hp : P .pkg = false) : DevKept s t :=
  ⟨reg_congr (h.parts .regs hr) _, h.parts .pkg hp⟩

/-- A device that has not failed stays so. -/
def StaysUp (s t : State) : Prop := s.devState ≠ 7 → t.devState ≠ 7

theorem staysUp_of_devKept {s t : State} (h : DevKept s t) : StaysUp s t := fun hs => h.devState ▸ hs

theorem StaysUp.trans {s t u : State} (h : StaysUp s t) (g : StaysUp t u) : StaysUp s u := fun hs => g (h hs)

theorem enterHold_devState (s : State) : s.enterHold.devState = 5 := setDevState_devState _ (by decide)

theorem staysUp_deviceLoss (s : State) : StaysUp s s.deviceLoss := by
  intro hs
  unfold State.deviceLoss
  rw [if_neg hs]
  dsimp only
  rw [(devKept_setBit _ 14 true (.inr (by decide))).devState]
  have h5 := enterHold_devState (s.sendSelfLost false).endRun.clearLoss
  generalize (s.sendSelfLost false).endRun.clearLoss.enterHold = t at h5 ⊢
  change t.devState ≠ 7
  rw [h5]
  decide

theorem staysUp_raise_loss (s : State) {e : Ev} (h : e.cls = 3) : StaysUp s (s.raise e) := by
  unfold State.raise
  dsimp only
  rw [if_neg (by rw [h]; decide), if_pos h]
  have hlog := staysUp_of_devKept (devKept_logEntry s e)
  split
  · exact hlog
  · exact hlog.trans (staysUp_deviceLoss _)

/-- Showing what the parts hold writes no DEV_STATE. -/
theorem devKept_showWga (s : State) (l : Nat) : DevKept s (s.showWga l) := by
  unfold State.showWga
  split
  · exact devKept_refl s
  · dsimp only
    refine devKept_trans (devKept_trans (devKept_setReg s _ ?_) (devKept_setFld _ _ _ _ ?_)) (devKept_setFld _ _ _ _ ?_)
    all_goals
      simp only [Reg.wgaCtl, Reg.wgaStatus]
      omega

theorem devKept_showCore (s : State) (l : Nat) : DevKept s (s.showCore l) := by
  unfold State.showCore
  exact devKept_ite (devKept_setFld s _ _ _ (by unfold Reg.coreState; omega))

theorem devKept_showRun (s : State) (u : UnitId) : DevKept s (s.showRun u) := by
  unfold State.showRun
  split
  · exact devKept_showCore s _
  · split
    · exact devKept_showCore s _
    · split
      · split
        · exact devKept_refl s
        · exact devKept_setFld s _ _ _ (by unfold Reg.updStatus; omega)
      · exact devKept_refl s

theorem devKept_showRuns (s : State) : DevKept s s.showRuns := by
  unfold State.showRuns
  exact devKept_trans (devKept_foldl (fun u l => devKept_ite (devKept_showCore u l)) _ s)
    (devKept_foldl (fun u n => devKept_showRun u _) _ _)

theorem devKept_showHolds (s : State) (n : Nat) : DevKept s (s.showHolds n) := by
  have h : Reg.holdStatus n < 0x10 ∨ 0x14 ≤ Reg.holdStatus n := by
    unfold Reg.holdStatus
    omega
  exact devKept_trans (devKept_setFld s _ _ _ h) (devKept_setFld _ _ _ _ h)

theorem devKept_showCe (s : State) (e : Nat) : DevKept s (s.showCe e) :=
  devKept_setFld s _ _ _ (by unfold Reg.ceStatus; omega)

theorem devKept_stopSlots (s : State) : DevKept s s.stopSlots := by
  unfold State.stopSlots
  refine devKept_trans ?_ (devKept_showRuns _)
  exact ⟨rfl, rfl⟩

theorem devKept_showAllWga (s : State) : DevKept s s.showAllWga := devKept_foldl devKept_showWga _ s

theorem devKept_replayWga (s : State) : DevKept s s.replayWga := by
  unfold State.replayWga
  refine devKept_trans ?_ (devKept_showAllWga _)
  exact ⟨rfl, rfl⟩

/-- The parts that a queue of a receive buffer, a tier's record or a byte of memory belong to. -/
def bufferParts (p : StatePart) : Bool := [StatePart.memory, .tier, .ports, .casc, .host, .watch].contains p

theorem covers_bufferParts : covers bufferParts [.memory, .tier, .ports, .casc, .host, .watch] := fun _ h => h

theorem devKept_buffers {s t : State} (h : Keeps bufferParts s t) : DevKept s t := devKept_of_keeps h rfl rfl

theorem devKept_replayHolds (s : State) (beat : Nat) : DevKept s (s.replayHolds beat) := by
  unfold State.replayHolds State.showAllHolds
  refine devKept_trans ?_ (devKept_foldl devKept_showHolds _ _)
  refine devKept_trans ?_ (devKept_buffers (keeps_dropWaits _ (keeps_refl _) (covers_bufferParts.sub rfl)))
  exact ⟨rfl, rfl⟩

theorem staysUp_askHoming (s : State) (half : Nat) : StaysUp s (s.askHoming half) := by
  unfold State.askHoming
  split
  · exact id
  · split
    · exact id
    · split
      · exact staysUp_raise_loss s rfl
      · exact staysUp_of_devKept (devKept_buffers (keeps_superAsk s _ _ _ (keeps_refl s) (covers_bufferParts.sub rfl)))

theorem devKept_showMoves (s : State) : DevKept s s.showMoves := devKept_setFld s _ _ _ (.inr (by decide))

theorem devKept_replayUpd (s : State) : DevKept s s.replayUpd := ⟨rfl, rfl⟩

theorem devKept_dropWatch (s : State) : DevKept s s.dropWatch := ⟨rfl, rfl⟩

theorem staysUp_replayMoves (s : State) (beat : Nat) : StaysUp s (s.replayMoves beat) := by
  unfold State.replayMoves State.askHomings
  have hmoves := devKept_buffers (keeps_foldl (l := s.tier.moves) (f := fun u m => u.replayMove beat m) (t := s)
    (fun u m σ hu => keeps_replayMove u beat m hu (covers_bufferParts.sub rfl)) (keeps_refl s))
  refine (staysUp_of_devKept (devKept_trans hmoves (devKept_showMoves _))).trans ?_
  exact (staysUp_askHoming _ 0).trans (staysUp_askHoming _ 1)

theorem devKept_replayRuns (s : State) : DevKept s s.replayRuns := by
  unfold State.replayRuns
  refine devKept_trans ?_ (devKept_foldl devKept_showCe _ _)
  exact ⟨rfl, rfl⟩

theorem staysUp_replayEffects (s : State) (w : Win) : StaysUp s (s.replayEffects w) := by
  unfold State.replayEffects
  dsimp only
  have hstop := devKept_trans (devKept_stopSlots s) (devKept_buffers (keeps_dropPieces _ (keeps_refl _) (covers_bufferParts.sub rfl)))
  have hcopies := devKept_trans hstop
    (devKept_buffers (keeps_expireCopies _ (fun c => decide (w.beat ≤ c.beat)) (keeps_refl _) (covers_bufferParts.sub rfl)))
  have hwga := devKept_trans hcopies (devKept_replayWga _)
  have hholds := devKept_trans (devKept_trans hwga (devKept_replayUpd _)) (devKept_replayHolds _ w.beat)
  exact (staysUp_of_devKept hholds).trans ((staysUp_replayMoves _ w.beat).trans
    (staysUp_of_devKept (devKept_trans (devKept_dropWatch _) (devKept_replayRuns _))))

end Sys2Proof.Laws

/-! # Verdicts go out -/

namespace Sys2Proof.Laws

open Sys2Proof Sys2Proof.Machine

/-! ### The master's counts over its verdicts (R440, R441) -/

/-- The counts touch the choice of the stretch step alone. -/
theorem countVerdict_casc (s : State) (kind : Nat) (margin : Int) (coord : Coord) :
    ∃ overs calm raise lower overrun, (s.countVerdict kind margin coord).casc =
      { s.casc with overs := overs, calm := calm, raise := raise, lower := lower, overrun := overrun } := by
  unfold State.countVerdict
  dsimp only
  split
  · split
    · exact ⟨_, _, _, _, _, rfl⟩
    · exact ⟨_, _, _, _, _, rfl⟩
  · exact ⟨_, _, _, _, _, rfl⟩

theorem countVerdict_reg (s : State) (kind : Nat) (margin : Int) (coord : Coord) {o : Nat} (h : regHome o ≠ Reg.slowRecord) :
    (s.countVerdict kind margin coord).reg o = s.reg o := by
  unfold State.countVerdict
  dsimp only
  split
  · split
    · exact reg_setReg_ne _ _ h
    · rfl
  · rfl

/-! ### The verdict that a master issues (R84, R85, R436) -/

/-- Epoch of a verdict: a REPLAY begins a new one (R628). -/
def verdictEpoch (s : State) (kind : Nat) : Nat := if kind = 2 then (s.casc.issueEpoch + 1) % 16 else s.casc.issueEpoch

/-- The state in which the verdict's message goes out: its epoch holds, and the reports that it settles are gone. -/
def verdictGiven (s : State) (w : Win) (kind : Nat) : State :=
  { s with casc := { s.casc with
      issueEpoch := verdictEpoch s kind, dead := [], reports := s.casc.reports.filter fun x => decide (w.beat < x.beat) } }

/-- The message of a verdict. -/
def verdictMsg (s : State) (w : Win) (t kind flags stretch : Nat) (margin : Int) (coord : Coord) (lost : Option Coord) : CtlMsg :=
  { (verdictGiven s w kind).blankMsg 2 with
    flags := flags + (verdictGiven s w kind).issueFlags, stretch := stretch, value := kind, coord := coord, beat := w.beat
    offset := ((max t (s.verdictAt w) : Nat) : Int) - (t : Int), margin := margin, lost := lost }

/-- The verdict as the master takes it itself. -/
def verdictDue (s : State) (w : Win) (t kind flags stretch : Nat) (margin : Int) (coord : Coord) (lost : Option Coord) : Due :=
  { kind := kind, beat := w.beat, at_ := max t (s.verdictAt w), flags := (flags + if s.bit Reg.masterCoord 25 then 1 else 0) % 16,
    stretch := stretch, margin := margin, coord := coord, lost := lost, epoch := verdictEpoch s kind }

/-- The verdict has gone out and is counted. -/
def verdictCounted (s : State) (w : Win) (t kind flags stretch : Nat) (margin : Int) (coord : Coord) (lost : Option Coord) : State :=
  ((verdictGiven s w kind).spread (verdictMsg s w t kind flags stretch margin coord lost)).countVerdict kind margin coord

/-- The window that the master counts from after a verdict. -/
def verdictNoted (s : State) (w : Win) (kind flags inst stretch ep : Nat) : State :=
  if kind ≠ 2 then s else if flags / 4 % 2 = 1 then { s with casc := { s.casc with lastMark := none } } else s.noteReplay w inst stretch ep

theorem issueVerdict_eq (s : State) (w : Win) (t kind flags stretch : Nat) (margin : Int) (coord : Coord) (lost : Option Coord) :
    s.issueVerdict w t kind flags stretch margin coord lost =
      verdictNoted { verdictCounted s w t kind flags stretch margin coord lost with
        beat := { (verdictCounted s w t kind flags stretch margin coord lost).beat with
          due := (verdictCounted s w t kind flags stretch margin coord lost).beat.due ++
            [verdictDue s w t kind flags stretch margin coord lost] } }
        w kind flags (max t (s.verdictAt w)) stretch (verdictEpoch s kind) := by
  have hflags : (flags + (verdictGiven s w kind).issueFlags) % 16 = (flags + if s.bit Reg.masterCoord 25 then 1 else 0) % 16 := by
    change (flags + ((if s.bit Reg.masterCoord 25 then 1 else 0) + 16 * verdictEpoch s kind)) % 16 = _
    omega
  unfold verdictDue
  rw [← hflags]
  rfl

/-- What the master counts from is part of the cascade's state alone. -/
theorem verdictNoted_frame (s : State) (w : Win) (kind flags inst stretch ep : Nat) :
    ∃ mark period slot, verdictNoted s w kind flags inst stretch ep =
      { s with casc := { s.casc with lastMark := mark, lastPeriod := period, lastSlot := slot } } := by
  unfold verdictNoted
  split
  · exact ⟨s.casc.lastMark, s.casc.lastPeriod, s.casc.lastSlot, rfl⟩
  · split
    · exact ⟨none, s.casc.lastPeriod, s.casc.lastSlot, rfl⟩
    · exact ⟨_, _, _, rfl⟩

section
variable (s : State) (w : Win) (t kind flags stretch : Nat) (margin : Int) (coord : Coord) (lost : Option Coord)

theorem verdictGiven_sent : SendsOnly (verdictGiven s w kind)
    ((verdictGiven s w kind).spread (verdictMsg s w t kind flags stretch margin coord lost)) := sendsOnly_spread _ _

theorem verdictCounted_beat : (verdictCounted s w t kind flags stretch margin coord lost).beat = s.beat :=
  ((keeps_countVerdict _ kind margin coord (keeps_refl _) (covers_allBut (q := .beat) rfl)).parts .beat (by decide)).trans
    ((verdictGiven_sent s w t kind flags stretch margin coord lost).keeps.parts .beat rfl)

theorem verdictCounted_reg {o : Nat} (hc : notCredit o) (ho : regHome o ≠ Reg.slowRecord) :
    (verdictCounted s w t kind flags stretch margin coord lost).reg o = s.reg o :=
  (countVerdict_reg _ kind margin coord ho).trans ((verdictGiven_sent s w t kind flags stretch margin coord lost).reg o hc)

/-- The verdict stands among those that are due. -/
theorem issueVerdict_beat : (s.issueVerdict w t kind flags stretch margin coord lost).beat =
    { s.beat with due := s.beat.due ++ [verdictDue s w t kind flags stretch margin coord lost] } := by
  rw [issueVerdict_eq]
  generalize hd : verdictDue s w t kind flags stretch margin coord lost = d
  have hb := verdictCounted_beat s w t kind flags stretch margin coord lost
  generalize verdictCounted s w t kind flags stretch margin coord lost = u at hb ⊢
  obtain ⟨mark, period, slot, he⟩ := verdictNoted_frame { u with beat := { u.beat with due := u.beat.due ++ [d] } } w kind flags
    (max t (s.verdictAt w)) stretch (verdictEpoch s kind)
  rw [he, ← hb]

theorem issueVerdict_reg {o : Nat} (hc : notCredit o) (ho : regHome o ≠ Reg.slowRecord) :
    (s.issueVerdict w t kind flags stretch margin coord lost).reg o = s.reg o := by
  rw [issueVerdict_eq]
  generalize verdictDue s w t kind flags stretch margin coord lost = d
  have hr := verdictCounted_reg s w t kind flags stretch margin coord lost hc ho
  generalize verdictCounted s w t kind flags stretch margin coord lost = u at hr ⊢
  obtain ⟨mark, period, slot, he⟩ := verdictNoted_frame { u with beat := { u.beat with due := u.beat.due ++ [d] } } w kind flags
    (max t (s.verdictAt w)) stretch (verdictEpoch s kind)
  rw [he]
  exact hr

/-- The epoch moves with the verdict, and the cascade's roles stay. -/
theorem issueVerdict_casc {v : State} (h : v = s.issueVerdict w t kind flags stretch margin coord lost) :
    v.casc.issueEpoch = verdictEpoch s kind ∧ v.casc.master = s.casc.master ∧ v.casc.backup = s.casc.backup ∧
      v.casc.masterGone = s.casc.masterGone := by
  rw [h, issueVerdict_eq]
  generalize verdictDue s w t kind flags stretch margin coord lost = d
  obtain ⟨n, hn⟩ := (verdictGiven_sent s w t kind flags stretch margin coord lost).casc
  obtain ⟨overs, calm, raise, lower, overrun, hc⟩ := countVerdict_casc
    ((verdictGiven s w kind).spread (verdictMsg s w t kind flags stretch margin coord lost)) kind margin coord
  rw [hn] at hc
  change (verdictCounted s w t kind flags stretch margin coord lost).casc = _ at hc
  generalize verdictCounted s w t kind flags stretch margin coord lost = u at hc ⊢
  obtain ⟨mark, period, slot, he⟩ := verdictNoted_frame { u with beat := { u.beat with due := u.beat.due ++ [d] } } w kind flags
    (max t (s.verdictAt w)) stretch (verdictEpoch s kind)
  rw [he]
  dsimp only
  rw [hc]
  exact ⟨rfl, rfl, rfl, rfl⟩

end

/-! ### The verdict for a lost device (R446, R447) -/

/-- With FULL_TWIN and the twin's copy left, a loss is a REPLAY with TAKEOVER at stretch 16. -/
theorem judgeLoss_full {s : State} {c : Coord} (w : Win) (t : Nat) (margin : Int) (coord : Coord)
    (hfull : (s.fing.map (·.hdr.fullTwin)) = some true) (htwin : s.twinGone c = false) :
    s.judgeLoss w t margin coord c false =
      ({ s with casc := { s.casc with stretch := 16, raise := false, lower := false } }).issueVerdict w t 2 2 16 margin coord (some c) := by
  unfold State.judgeLoss
  rw [hfull, htwin]
  rfl

end Sys2Proof.Laws

/-! # O38 -/

namespace Sys2Proof.Laws

open Sys2Proof Sys2Proof.Machine

theorem exec_partnerLost (t : Nat) (s : State) : exec (.partnerLost t) s = .next (applyPartnerLost t s) := rfl
theorem exec_masterLost (t : Nat) (s : State) : exec (.masterLost t) s = .next (applyMasterLost t s) := rfl
theorem exec_backupAssumesMastership (t : Nat) (s : State) :
    exec (.backupAssumesMastership t) s = .next (applyBackupAssumesMastership t s) := rfl
theorem exec_masterAndBackupLost (t : Nat) (s : State) : exec (.masterAndBackupLost t) s = .next (applyMasterAndBackupLost t s) := rfl

theorem casc_of_onlyLog {offs : List Nat} {s t : State} (h : onlyLog offs s t) : t.casc = s.casc := by
  obtain ⟨hframe, -⟩ := h
  rw [hframe]

/-! ### The twin falls silent (R308, R445) -/

/-- The twin is lost in the running window. -/
def partnerMarked (s : State) (w : Win) (t : Nat) : State :=
  let s := (s.at t).setWindow w.beat fun w => { w with fault := true }
  { s with casc := { s.casc with partner := true } }

/-- The loss of a twin is no loss of this device: it is only logged (R543). -/
theorem raise_partner (s : State) : s.raise { code := 0x5043, cls := 3 } = s.logEntry { code := 0x5043, cls := 3 } := rfl

theorem partnerLost_declares {s : State} {r : Route} {w : Win} (t : Nat) (hr : s.route = some r) (hw : s.beat.win = some w)
    (htwin : r.twin ≠ 0xFFFFFFFF) (hp : s.casc.partner = false) (hl : unpackCoord r.twin ∉ s.casc.lost) :
    exec (.partnerLost t) s = .next ((partnerMarked s w t).logEntry { code := 0x5043, cls := 3 }) := by
  rw [exec_partnerLost, applyPartnerLost, hr, hw]
  dsimp only
  rw [if_neg (by simp [htwin, hp, hl]), raise_partner]
  rfl

theorem partnerMarked_logged {s : State} {w : Win} (hw : s.beat.win = some w) (t : Nat) {v : State}
    (hv : v = (partnerMarked s w t).logEntry { code := 0x5043, cls := 3 }) :
    v.casc = { s.casc with partner := true } ∧ v.beat.win = some { w with fault := true } ∧
      v.reg (Reg.errLog ((s.reg Reg.errLogHead).toNat % 256) 0) = BitVec.ofNat 32 (0x5043 + 65536 * 3) ∧ v.devState = s.devState := by
  subst hv
  have hlog := onlyLog_logEntry (offs := []) (partnerMarked s w t) { code := 0x5043, cls := 3 }
  refine ⟨?_, ?_, ?_, logEntry_devState _ _⟩
  · rw [casc_of_onlyLog hlog]
    rfl
  · rw [beat_of_onlyLog hlog]
    exact setWindow_win _ hw
  · exact logEntry_first (partnerMarked s w t) _

/-! ### The master falls silent (R92) -/

theorem masterLost_noted {s : State} {w : Win} {rest : List Win} {t : Nat} (hprev : s.beat.prev = w :: rest) (hm : s.isMaster = false)
    (hg : s.casc.masterGone = none) (hd : ∀ d ∈ s.beat.due, d.beat ≠ w.beat) :
    exec (.masterLost t) s = .next (if w.start + 3 * w.period ≤ t
      then { s with now := max s.now t, casc := { s.casc with masterGone := some t } } else s) := by
  have hwaits : s.waitsFor w = true := by
    unfold State.waitsFor
    rw [Bool.not_eq_true', List.any_eq_false]
    exact fun d hm => by simpa using hd d hm
  rw [exec_masterLost, applyMasterLost, hprev]
  dsimp only
  rw [hm, hg, hwaits]
  by_cases ht : w.start + 3 * w.period ≤ t
  · rw [if_pos ht, if_pos (by simpa using ht)]
    rfl
  · rw [if_neg ht, if_neg (by simpa using ht)]

/-! ### The backup takes the role (R451) -/

/-- The registers and roles of a device that takes the role of master. -/
def masterTaken (s : State) (t : Nat) : State := ((s.at t).setFld Reg.beatCtl 1 0 2).newMaster ((s.at t).setFld Reg.beatCtl 1 0 2).myIdx

/-- Its new epoch counts from the one that the window runs under. -/
def masterCounts (s : State) : State := { s with casc := { s.casc with issueEpoch := s.casc.epoch, masterGone := none } }

theorem masterCounts_reg (s : State) (o : Nat) : (masterCounts s).reg o = s.reg o := rfl

theorem masterCounts_fing (s : State) : (masterCounts s).fing = s.fing := rfl

theorem assumeMaster_eq (s : State) (t : Nat) :
    (s.at t).assumeMaster = masterCounts ((masterTaken s t).logEntry { code := 0x8040, cls := 0 }) := by
  unfold State.assumeMaster
  dsimp only
  rw [raise_logged _ rfl]
  rfl

theorem masterTaken_role (s : State) (t : Nat) : (masterTaken s t).fld Reg.beatCtl 1 0 = 2 := by
  unfold masterTaken State.newMaster
  dsimp only
  have hne : regHome Reg.beatCtl ≠ regHome Reg.masterCoord := by decide
  rw [fld_of_reg (reg_setBit_ne _ 25 true hne), fld_of_reg (reg_setBit_ne _ 24 true hne), fld_of_reg (reg_setFld_ne _ 23 0 _ hne)]
  exact fld_setFld_self (s.at t) 2 (by decide) (by decide)

theorem masterTaken_backup (s : State) (t : Nat) : (masterTaken s t).bit Reg.masterCoord 25 = true := bit_setBit_self _ _ (by decide)

theorem masterTaken_head (s : State) (t : Nat) : (masterTaken s t).reg Reg.errLogHead = s.reg Reg.errLogHead := by
  have hm : regHome Reg.errLogHead ≠ regHome Reg.masterCoord := by decide
  have hb : regHome Reg.errLogHead ≠ regHome Reg.beatCtl := by decide
  unfold masterTaken State.newMaster
  dsimp only
  rw [reg_setBit_ne _ 25 true hm, reg_setBit_ne _ 24 true hm, reg_setFld_ne _ 23 0 _ hm]
  exact reg_setFld_ne (s.at t) 1 0 2 hb

theorem masterTaken_member (s : State) (t : Nat) : (masterTaken s t).casc.master = some (s.memberAt s.myIdx) := by
  have hself : ((s.at t).setFld Reg.beatCtl 1 0 2).self = s.self :=
    congrArg unpackCoord (fld_of_reg (reg_setFld_ne (s.at t) (p := Reg.cascadeCoord) 1 0 2 (by decide)) 23 0)
  have hidx : ((s.at t).setFld Reg.beatCtl 1 0 2).myIdx = s.myIdx :=
    fld_of_reg (reg_setFld_ne (s.at t) (p := Reg.cascadeInfo) 1 0 2 (by decide)) 31 24
  have hmember : ∀ i, ((s.at t).setFld Reg.beatCtl 1 0 2).memberAt i = s.memberAt i := by
    intro i
    unfold State.memberAt
    rw [hself]
    rfl
  change some (State.memberAt _ _) = _
  rw [hmember, hidx]

/-- The backup as master, its role logged. -/
def backupRisen (s : State) (t : Nat) : State := masterCounts ((masterTaken s t).logEntry { code := 0x8040, cls := 0 })

theorem backupRisen_reg (s : State) (t : Nat) {o : Nat} (h : logReg (regHome o) = false) : (backupRisen s t).reg o = (masterTaken s t).reg o := by
  unfold backupRisen
  rw [masterCounts_reg, logEntry_reg _ _ h]

theorem fing_of_onlyLog {offs : List Nat} {s t : State} (h : onlyLog offs s t) : t.fing = s.fing := by
  obtain ⟨hframe, -⟩ := h
  rw [hframe]
  rfl

theorem backupRisen_fing (s : State) (t : Nat) : (backupRisen s t).fing = s.fing := by
  unfold backupRisen
  rw [masterCounts_fing, fing_of_onlyLog (onlyLog_logEntry (offs := []) _ _)]
  rfl

theorem backupRisen_casc (s : State) (t : Nat) : (backupRisen s t).casc =
    { (masterTaken s t).casc with issueEpoch := (masterTaken s t).casc.epoch, masterGone := none } := by
  unfold backupRisen masterCounts
  dsimp only
  rw [casc_of_onlyLog (onlyLog_logEntry (offs := []) _ _)]

theorem backupRisen_due (s : State) (t : Nat) : (backupRisen s t).beat.due = s.beat.due := by
  change ((masterTaken s t).logEntry _).beat.due = _
  rw [beat_of_onlyLog (onlyLog_logEntry (offs := []) (masterTaken s t) _)]
  rfl

theorem backupRisen_logged (s : State) (t : Nat) :
    (backupRisen s t).reg (Reg.errLog ((s.reg Reg.errLogHead).toNat % 256) 0) = BitVec.ofNat 32 0x8040 := by
  have hfirst := logEntry_first (masterTaken s t) { code := 0x8040, cls := 0 }
  rw [masterTaken_head] at hfirst
  unfold backupRisen
  rw [masterCounts_reg]
  exact hfirst

theorem backupRisen_twinGone (s : State) (t : Nat) (c : Coord) : (backupRisen s t).twinGone c = s.twinGone c := by
  unfold State.twinGone
  rw [backupRisen_fing, backupRisen_casc]
  rfl

/-- What the new master's verdict starts from: the stretch step of a takeover. -/
def takeoverStretch (s : State) : State := { s with casc := { s.casc with stretch := 16, raise := false, lower := false } }

theorem backup_judges {s : State} {w : Win} {old : Coord} (t : Nat) (hj : s.judged = some w) (hm : s.casc.master = some old)
    (hrole : s.fld Reg.beatCtl 1 0 = 3) (hg : s.casc.masterGone.isSome = true) (hfull : (s.fing.map (·.hdr.fullTwin)) = some true)
    (htwin : s.twinGone old = false) :
    ∃ margin coord, exec (.backupAssumesMastership t) s =
      .next ((takeoverStretch (backupRisen s t)).issueVerdict w t 2 2 16 margin coord (some old)) := by
  rw [exec_backupAssumesMastership, applyBackupAssumesMastership, hj, hm]
  dsimp only
  rw [if_pos (by simp [hrole, hg]), assumeMaster_eq]
  change ∃ margin coord, Host.Outcome.next ((backupRisen s t).judgeLoss w t _ _ old false) = _
  rw [judgeLoss_full w t _ _ (by rw [backupRisen_fing]; exact hfull) (by rw [backupRisen_twinGone]; exact htwin)]
  exact ⟨_, _, rfl⟩

theorem errLog_word_home {i : Nat} (h : i < 256) : notCredit (Reg.errLog i 0) ∧ regHome (Reg.errLog i 0) ≠ Reg.slowRecord := by
  have hi : 0x3C01000 ≤ Reg.errLog i 0 := by
    unfold Reg.errLog
    omega
  refine ⟨notCredit_high (Nat.le_trans (by decide) hi), ?_⟩
  rw [regHome_id (.inr (Nat.le_trans (by decide) hi))]
  exact Nat.ne_of_gt (Nat.lt_of_lt_of_le (by decide) hi)

/-- The state in which the new master's verdict is given. -/
structure RisenBackup (s x : State) : Prop where
  role : x.fld Reg.beatCtl 1 0 = 2
  backup : x.bit Reg.masterCoord 25 = true
  log : x.reg (Reg.errLog ((s.reg Reg.errLogHead).toNat % 256) 0) = BitVec.ofNat 32 0x8040
  due : x.beat.due = s.beat.due
  master : x.casc.master = some (s.memberAt s.myIdx)
  noBackup : x.casc.backup = none
  found : x.casc.masterGone = none

theorem backupRisen_roles (s : State) (t : Nat) : (backupRisen s t).casc.master = some (s.memberAt s.myIdx) ∧
    (backupRisen s t).casc.backup = none ∧ (backupRisen s t).casc.masterGone = none := by
  have hm := masterTaken_member s t
  have hb : (masterTaken s t).casc.backup = none := rfl
  rw [backupRisen_casc]
  generalize masterTaken s t = x at hm hb
  exact ⟨hm, hb, rfl⟩

theorem risenBackup (s : State) (t : Nat) : RisenBackup s (takeoverStretch (backupRisen s t)) := by
  obtain ⟨hm, hb, hg⟩ := backupRisen_roles s t
  have hrole := (fld_of_reg (backupRisen_reg s t (by decide)) 1 0).trans (masterTaken_role s t)
  have hbit := (bit_of_reg (backupRisen_reg s t (by decide)) 25).trans (masterTaken_backup s t)
  have hlog := backupRisen_logged s t
  have hdue := backupRisen_due s t
  generalize backupRisen s t = x at *
  exact ⟨hrole, hbit, hlog, hdue, hm, hb, hg⟩

/-- The verdict of a backup that has taken the role: the former master's twin takes over. -/
theorem risenBackup_verdict {s x v : State} {w : Win} {old coord : Coord} {margin : Int} {t : Nat} (h : RisenBackup s x)
    (hv : v = x.issueVerdict w t 2 2 16 margin coord (some old)) :
    ∃ d, v.isMaster = true ∧ v.casc.master = some (s.memberAt s.myIdx) ∧ v.casc.backup = none ∧ v.casc.masterGone = none ∧
      v.bit Reg.masterCoord 25 = true ∧ v.beat.due = s.beat.due ++ [d] ∧ d.kind = 2 ∧ d.lost = some old ∧ d.beat = w.beat ∧ d.flags = 3 ∧
      d.stretch = 16 ∧ v.reg (Reg.errLog ((s.reg Reg.errLogHead).toNat % 256) 0) = BitVec.ofNat 32 0x8040 := by
  have hreg : ∀ {o : Nat}, notCredit o → regHome o ≠ Reg.slowRecord → v.reg o = x.reg o := fun hc ho =>
    hv ▸ issueVerdict_reg x w t 2 2 16 margin coord (some old) hc ho
  have hhome := errLog_word_home (i := (s.reg Reg.errLogHead).toNat % 256) (Nat.mod_lt _ (by decide))
  obtain ⟨-, hm, hb, hg⟩ := issueVerdict_casc x w t 2 2 16 margin coord (some old) hv
  have hbeat := issueVerdict_beat x w t 2 2 16 margin coord (some old)
  refine ⟨verdictDue x w t 2 2 16 margin coord (some old), ?_, hm.trans h.master, hb.trans h.noBackup, hg.trans h.found, ?_, ?_, rfl, rfl, rfl,
    ?_, rfl, ?_⟩
  · exact decide_eq_true ((fld_of_reg (hreg (notCredit_low (by decide)) (by decide)) 1 0).trans h.role)
  · exact (bit_of_reg (hreg (notCredit_high (by decide)) (by decide)) 25).trans h.backup
  · rw [hv, hbeat, h.due]
  · change (2 + if x.bit Reg.masterCoord 25 then 1 else 0) % 16 = 3
    rw [h.backup]
    rfl
  · exact (hreg hhome.1 hhome.2).trans h.log

/-! ### Nobody is master any more (R451) -/

/-- The run is held. -/
def runHeld (s : State) : State := { s with casc := { s.casc with hold := true } }

theorem runHeld_reg (s : State) (o : Nat) : (runHeld s).reg o = s.reg o := rfl

theorem runHeld_hold (s : State) : (runHeld s).casc.hold = true := rfl

theorem masterAndBackupLost_late {s : State} {g t : Nat} {w : Win} (hg : s.casc.masterGone = some g) (hj : s.judged = some w)
    (ht : g + 2 * w.period ≤ t) :
    ∃ v, exec (.masterAndBackupLost t) s = .next v ∧ v.casc.hold = true ∧
      v.reg Reg.devState = (((s.at t).replayEffects w).raise { code := 0x8041, cls := 4 }).reg Reg.devState := by
  rw [exec_masterAndBackupLost, applyMasterAndBackupLost, hg, hj]
  dsimp only
  rw [if_pos (by simpa using ht)]
  exact ⟨runHeld (((s.at t).replayEffects w).raise { code := 0x8041, cls := 4 }), rfl, runHeld_hold _, runHeld_reg _ _⟩

/-- Settles O38: each loss is named by the branch of its own command. The backup's verdict is the REPLAY of `judgeLoss_full`, given in the
state in which it has taken the role. -/
theorem lossesAreDeclared : Obligations.LossesAreDeclared := by
  unfold Obligations.LossesAreDeclared
  refine ⟨fun t r w s hr hw htwin hp hl => ?_, fun t w rest s hprev hm hg hd => ?_, fun t w old s hj hm hrole hg hfull htwin => ?_,
    fun t g w s hg hj hup => ⟨fun ht => ?_, fun ht => ?_⟩⟩
  · exact ⟨_, partnerLost_declares t hr hw htwin hp hl, partnerMarked_logged hw t rfl⟩
  · rw [masterLost_noted hprev hm hg hd]
    exact ⟨fun ht => by rw [if_pos ht], fun ht => by rw [if_neg (Nat.not_le.mpr ht)]⟩
  · obtain ⟨margin, coord, he⟩ := backup_judges t hj hm hrole hg hfull htwin
    obtain ⟨d, hv⟩ := risenBackup_verdict (risenBackup s t) rfl
    exact ⟨_, d, he, hv⟩
  · obtain ⟨v, he, hhold, hreg⟩ := masterAndBackupLost_late hg hj ht
    have hstay : ((s.at t).replayEffects w).devState ≠ 7 := staysUp_replayEffects (s.at t) w hup
    obtain ⟨h7, hcode, -⟩ := raise_failed (s := (s.at t).replayEffects w) (e := { code := 0x8041, cls := 4 }) rfl hstay
    exact ⟨v, he, (fld_of_reg hreg 3 0).trans h7, hhold, fun _ => (fld_of_reg hreg 31 16).trans hcode⟩
  · rw [exec_masterAndBackupLost, applyMasterAndBackupLost, hg, hj]
    dsimp only
    rw [if_neg (by simpa using ht)]

end Sys2Proof.Laws

/-! # The master's markers (O35) -/

namespace Sys2Proof.Laws

open Sys2Proof Sys2Proof.Machine

theorem exec_markerIssue (t : Nat) (s : State) : exec (.markerIssue t) s = .next (applyMarkerIssue t s) := rfl

/-! ### The stretch step (R440) -/

/-- The stretch step of the next marker. -/
def nextStretch (s : State) : Nat :=
  if s.takeoverOn = true then 16
  else if s.casc.raise = true ∧ s.casc.stretch < 16 then s.casc.stretch + 1
  else if s.casc.lower = true ∧ s.casc.raise = false ∧ 0 < s.casc.stretch then s.casc.stretch - 1 else s.casc.stretch

/-- The stretch step stands, and what asked for another is gone. -/
def stretchSet (s : State) (n : Nat) : State := { s with casc := { s.casc with stretch := n, raise := false, lower := false } }

theorem chooseStretch_unfold (s : State) : s.chooseStretch =
    if s.takeoverOn = true then (16, stretchSet s 16)
    else if (s.casc.raise && decide (s.casc.stretch < 16)) = true then
      (s.casc.stretch + 1, (stretchSet s (s.casc.stretch + 1)).raise { code := 0x8020, cls := 0 })
    else if (s.casc.lower && !s.casc.raise && decide (0 < s.casc.stretch)) = true then
      (s.casc.stretch - 1, (stretchSet s (s.casc.stretch - 1)).raise { code := 0x8021, cls := 0 })
    else (s.casc.stretch, stretchSet s s.casc.stretch) := rfl

/-- The step is chosen by R440, and a change of it is logged. -/
theorem chooseStretch_eq (s : State) : s.chooseStretch.1 = nextStretch s ∧ onlyLog [] (stretchSet s (nextStretch s)) s.chooseStretch.2 := by
  rw [chooseStretch_unfold]
  unfold nextStretch
  by_cases h : s.takeoverOn = true
  · rw [if_pos h, if_pos h]
    exact ⟨rfl, onlyLog_refl _ _⟩
  · rw [if_neg h, if_neg h]
    by_cases h1 : s.casc.raise = true ∧ s.casc.stretch < 16
    · rw [if_pos h1, if_pos (by simpa using h1), raise_logged _ rfl]
      refine ⟨rfl, ?_⟩
      dsimp only
      exact onlyLog_logEntry _ _
    · rw [if_neg h1, if_neg (by simpa using h1)]
      by_cases h2 : s.casc.lower = true ∧ s.casc.raise = false ∧ 0 < s.casc.stretch
      · rw [if_pos h2, if_pos (by simpa [and_assoc] using h2), raise_logged _ rfl]
        refine ⟨rfl, ?_⟩
        dsimp only
        exact onlyLog_logEntry _ _
      · rw [if_neg h2, if_neg (by simpa [and_assoc] using h2)]
        exact ⟨rfl, onlyLog_refl _ _⟩

/-! ### What only logs sends the same way -/

theorem wayReg_home {o : Nat} (h : wayReg o) : logReg (regHome o) = false := by
  obtain rfl | ⟨n, rfl, hn⟩ | ⟨p, hp, rfl | rfl⟩ := h
  · decide
  · exact logReg_home_false (by unfold Reg.dieStep; omega)
  · exact logReg_home_false (by unfold Reg.linkState; omega)
  · exact logReg_home_false (by unfold Reg.linkWidth; omega)

theorem sameWays_of_onlyLog {s t : State} (h : onlyLog [] s t) : SameWays s t := by
  have hslot := slot_of_onlyLog h
  have hcasc := casc_of_onlyLog h
  obtain ⟨hframe, hreg, -⟩ := h
  have hports : t.ports = s.ports := by rw [hframe]
  exact ⟨hslot, by rw [hcasc], by rw [hcasc], by rw [hcasc], fun o ho => hreg o (wayReg_home ho) List.not_mem_nil,
    fun q => congrArg PortSt.active (port_congr hports q)⟩

/-- The stretch step decides no way. -/
theorem sameWays_chooseStretch (s : State) (t : Nat) : SameWays s (s.at t).chooseStretch.2 := by
  have hset : SameWays s (stretchSet (s.at t) (nextStretch (s.at t))) := ⟨fun _ => rfl, rfl, rfl, rfl, fun _ _ => rfl, fun _ => rfl⟩
  exact hset.trans (sameWays_of_onlyLog (chooseStretch_eq (s.at t)).2)

/-! ### A marker is issued (R433, R435) -/

/-- The message of a marker. -/
def markerMsg (s : State) (m : DueMarker) (t : Nat) : CtlMsg :=
  { s.blankMsg 1 with
    flags := s.issueFlags, stretch := m.stretch, beat := m.beat, offset := (m.at_ : Int) - (t : Int), planPos := m.planPos }

theorem sendMarker_issues (s : State) (m : DueMarker) (slot : FSlot) (period t : Nat) {v : State} (hv : v = s.sendMarker m slot period t) :
    v.beat.markers = s.beat.markers ++ [m] ∧ v.casc.lastMark = some m ∧ v.casc.lastSlot = slot ∧ v.casc.lastPeriod = period ∧
      v.casc.stretch = s.casc.stretch ∧ v.out = (s.spread (markerMsg s m t)).out ∧ v.ports = (s.spread (markerMsg s m t)).ports := by
  have hsent := sendsOnly_spread s (markerMsg s m t)
  have hbeat : (s.spread (markerMsg s m t)).beat = s.beat := hsent.keeps.parts .beat rfl
  obtain ⟨n, hcasc⟩ := hsent.casc
  unfold State.sendMarker at hv
  change v = (let u := s.spread (markerMsg s m t); { u with
    beat := { u.beat with markers := u.beat.markers ++ [m] }
    casc := { u.casc with lastMark := some m, lastPeriod := period, lastSlot := slot } }) at hv
  generalize s.spread (markerMsg s m t) = u at *
  subst hv
  refine ⟨?_, rfl, rfl, rfl, ?_, rfl, rfl⟩
  · dsimp only
    rw [hbeat]
  · dsimp only
    rw [hcasc]

/-- A message of this device's own goes out to each place that is next on its tree (R431). -/
theorem sends_ownTree {s u v : State} {m : CtlMsg} {c : Coord} (h : SameWays s u) (hi : m.issuer = s.myIdx) (hc : c ∈ s.ownTree)
    (ho : v.out = (u.spread m).out) (hp : v.ports = (u.spread m).ports) : s.sends v c m := by
  have hsends : s.sends (u.spread m) c m := by
    unfold State.ownTree at hc
    split at hc
    · next r hr =>
      rw [← hi, ← h.self] at hc
      exact sends_spreadFrom h hr hc
    · cases hc
  exact sends_of_later hsends (ho ▸ List.prefix_rfl) fun q x hx => by rwa [port_congr hp]

/-- The marker that follows the last. -/
def nextMarker (s : State) (last : DueMarker) (pos : Nat) : DueMarker :=
  { beat := last.beat + 1, at_ := last.at_ + s.casc.lastPeriod, stretch := nextStretch s, planPos := pos, epoch := s.casc.issueEpoch }

theorem markerIssue_issues {s : State} {last : DueMarker} {x : FSlot × Nat × Header} {t : Nat} (hl : s.casc.lastMark = some last)
    (hx : s.following last = some x) (hm : s.isMaster = true) (hr : s.runSlot.isSome = true) (hh : s.casc.hold = false)
    (ht : last.at_ + s.casc.lastPeriod ≤ t + 20000) :
    exec (.markerIssue t) s = .next ((s.at t).chooseStretch.2.sendMarker (nextMarker s last x.2.1) x.1
      (effPeriod x.2.2 (nextStretch s) x.2.1) t) := by
  have hstep : (s.at t).chooseStretch.1 = nextStretch s := (chooseStretch_eq (s.at t)).1
  rw [exec_markerIssue, applyMarkerIssue, hl]
  dsimp only
  rw [if_neg (by rw [hm, hh, Option.isNone_eq_false_iff.mpr hr]; simpa using ht), hx]
  dsimp only
  rw [hstep]
  rfl

theorem markerIssue_idle {s : State} {last : DueMarker} {t : Nat} (hl : s.casc.lastMark = some last)
    (h : s.isMaster = false ∨ s.runSlot = none ∨ s.casc.hold = true ∨ t + 20000 < last.at_ + s.casc.lastPeriod) :
    exec (.markerIssue t) s = .next s := by
  rw [exec_markerIssue, applyMarkerIssue, hl]
  dsimp only
  rw [if_pos]
  rcases h with h | h | h | h
  all_goals simp [h]

theorem markerIssue_kept (t : Nat) (s : State) : memoryKept s (applyMarkerIssue t s) :=
  memoryKept_of_keeps (keeps_applyMarkerIssue t s (keeps_refl s) (covers_allBut rfl))

theorem myIdx_chooseStretch (s : State) (t : Nat) : (s.at t).chooseStretch.2.myIdx = s.myIdx := by
  obtain ⟨-, -, hreg, -⟩ := chooseStretch_eq (s.at t)
  exact fld_of_reg (hreg Reg.cascadeInfo (by decide) List.not_mem_nil) 31 24

/-- 20,000 ns before its instant the master issues the marker that follows its last. -/
theorem markers_issued (t : Nat) (last : DueMarker) (x : FSlot × Nat × Header) (s : State) (hl : s.casc.lastMark = some last)
    (hx : s.following last = some x) (hm : s.isMaster = true) (hr : s.runSlot.isSome = true) (hh : s.casc.hold = false)
    (ht : last.at_ + s.casc.lastPeriod ≤ t + 20000) :
    ∃ v m, exec (.markerIssue t) s = .next v ∧ v.beat.markers = s.beat.markers ++ [m] ∧ v.casc.lastMark = some m ∧
        v.casc.lastSlot = x.1 ∧ v.casc.lastPeriod = effPeriod x.2.2 m.stretch x.2.1 ∧ m.beat = last.beat + 1 ∧
        m.at_ = last.at_ + s.casc.lastPeriod ∧ m.planPos = x.2.1 ∧ m.epoch = s.casc.issueEpoch ∧
        m.stretch = nextStretch s ∧ v.casc.stretch = m.stretch ∧ memoryKept s v ∧
        ∀ c ∈ s.ownTree, ∃ k, s.sends v c k ∧ k.kind = 1 ∧
          k.beat = m.beat ∧ k.planPos = m.planPos ∧ k.stretch = m.stretch ∧ k.offset = (m.at_ : Int) - (t : Int) := by
  have he := markerIssue_issues hl hx hm hr hh ht
  have hkept : ∀ v, exec (.markerIssue t) s = .next v → memoryKept s v := by
    intro v hv
    rw [exec_markerIssue] at hv
    cases hv
    exact markerIssue_kept t s
  have hways := sameWays_chooseStretch s t
  have hidx := myIdx_chooseStretch s t
  have hlog : onlyLog [] (stretchSet (s.at t) (nextStretch s)) (s.at t).chooseStretch.2 := (chooseStretch_eq (s.at t)).2
  have hmarkers : (s.at t).chooseStretch.2.beat.markers = s.beat.markers := by
    rw [beat_of_onlyLog hlog]
    rfl
  have hstretch : (s.at t).chooseStretch.2.casc.stretch = nextStretch s := by
    rw [casc_of_onlyLog hlog]
    rfl
  generalize (s.at t).chooseStretch.2 = u at *
  obtain ⟨hmark, hlast, hslot, hperiod, hkeep, hout, hports⟩ := sendMarker_issues u (nextMarker s last x.2.1) x.1
    (effPeriod x.2.2 (nextStretch s) x.2.1) t rfl
  refine ⟨_, _, he, hmark.trans (by rw [hmarkers]), hlast, hslot, hperiod, rfl, rfl, rfl, rfl, rfl, hkeep.trans hstretch, hkept _ he,
    fun c hc => ?_⟩
  exact ⟨markerMsg u (nextMarker s last x.2.1) t, sends_ownTree hways hidx hc hout hports, rfl, rfl, rfl, rfl, rfl⟩

end Sys2Proof.Laws

/-! # Reports become verdicts, and O35 -/

namespace Sys2Proof.Laws

open Sys2Proof Sys2Proof.Machine

theorem exec_memberLostTimeout (i t : Nat) (s : State) : exec (.memberLostTimeout i t) s = .next (applyMemberLostTimeout i t s) := rfl

/-! ### Reports are held (R436) -/

theorem mem_holdReport (s : State) (h r : HeldReport) :
    r ∈ (s.holdReport h).casc.reports ↔ r = h ∨ r ∈ s.casc.reports ∧ ¬(r.coord = h.coord ∧ r.beat = h.beat) := by
  simp only [State.holdReport, List.mem_append, List.mem_filter, List.mem_singleton]
  rw [or_comm]
  simp [imp_iff_not_or]

theorem takeUnicast_report {m : CtlMsg} (t : Nat) (s : State) (h : m.kind = 3) : s.takeUnicast m t = s.takeReport m t := by
  unfold State.takeUnicast
  rw [h]
  rfl

theorem takeReport_holds {s : State} {m : CtlMsg} (t : Nat) (hrole : s.fld Reg.beatCtl 1 0 = 2 ∨ s.fld Reg.beatCtl 1 0 = 3)
    (hr : s.runSlot.isSome = true) (hl : m.coord ∉ s.casc.lost) (hm : m.coord ∈ s.members) :
    s.takeReport m t = ((s.at t).holdReport (heldReport m t)).tryJudge t := by
  unfold State.takeReport
  dsimp only
  rw [if_neg]
  rintro (h | h | h | h)
  · omega
  · rw [Option.isNone_eq_false_iff.mpr hr] at h
    cases h
  · exact hl (List.contains_iff_mem.mp h)
  · rw [List.contains_iff_mem.mpr hm] at h
    cases h

theorem takeReport_ignores {s : State} (m : CtlMsg) (t : Nat) (hrole : s.fld Reg.beatCtl 1 0 < 2) : s.takeReport m t = s := by
  unfold State.takeReport
  dsimp only
  rw [if_pos (.inl (by omega))]

/-! ### When the master judges -/

theorem tryJudge_other {s : State} (t : Nat) (h : s.isMaster = false) : s.tryJudge t = s := by
  unfold State.tryJudge
  rw [h]
  rfl

theorem tryJudge_waits {s : State} {w : Win} (t : Nat) (hu : s.unjudged = some w) (h : w.reported = false ∨ s.missing w.beat ≠ []) :
    s.tryJudge t = s := by
  unfold State.tryJudge
  rw [hu]
  split
  · rfl
  · dsimp only
    rw [if_neg]
    rcases h with h | h
    all_goals simp [h]

theorem tryJudge_judges {s : State} {w : Win} (t : Nat) (hm : s.isMaster = true) (hu : s.unjudged = some w) (hr : w.reported = true)
    (h : s.missing w.beat = []) :
    s.tryJudge t = s.judge w t (s.casc.reports.filter fun r => r.beat == w.beat) (s.goneFor w.beat) := by
  unfold State.tryJudge
  rw [hm, hu]
  dsimp only
  rw [if_neg (by decide), if_pos (by rw [hr, h]; rfl)]

/-! ### The verdict from a window's reports (R84, R85, R436, R446) -/

/-- What a verdict without a loss says: REPLAY at the next stretch step when a report has a fault. -/
theorem judge_noLoss {s : State} {rs : List HeldReport} (w : Win) (t : Nat) (hl : s.linkLosses rs = []) (hr : s.casc.retire = none) :
    ∃ margin coord, s.judge w t rs [] =
      if rs.any (·.fault) then s.chooseStretch.2.issueVerdict w t 2 0 s.chooseStretch.1 margin coord none
      else s.issueVerdict w t (if rs.any (·.voteClear) then 1 else 0) 0 0 margin coord none := by
  have hlive : (rs.filter fun r => !(([] : List Coord).contains r.coord)) = rs := List.filter_eq_self.mpr fun _ _ => rfl
  unfold State.judge
  dsimp only
  rw [hlive, hl, if_pos (show ([] : List Coord).isEmpty = true from rfl), hr]
  exact ⟨_, _, rfl⟩

/-- One lost member alone: the verdict for its loss. -/
theorem judge_oneLoss {s : State} {rs : List HeldReport} {c : Coord} (w : Win) (t : Nat) (hc : ∀ r ∈ rs, r.coord ≠ c)
    (hl : s.linkLosses rs = []) (hr : s.casc.retire = none) :
    ∃ margin coord, s.judge w t rs [c] = s.judgeLoss w t margin coord c false := by
  have hlive : (rs.filter fun r => !([c].contains r.coord)) = rs := List.filter_eq_self.mpr fun r hm => by
    simpa using hc r hm
  have hgone : (!([c].contains c)) = false := by simp
  unfold State.judge
  dsimp only
  rw [hlive, hl, if_pos (show ([] : List Coord).isEmpty = true from rfl), hr]
  refine ⟨((leastMargin rs s.members).getD (w.margin, s.self)).1, ((leastMargin rs s.members).getD (w.margin, s.self)).2, ?_⟩
  rw [← hgone]
  rfl

theorem verdictAt_chooseStretch (s : State) (w : Win) : s.chooseStretch.2.verdictAt w = s.verdictAt w := by
  obtain ⟨-, -, hreg, -⟩ := chooseStretch_eq s
  unfold State.verdictAt
  rw [fld_of_reg (hreg Reg.beatCtl (by decide) List.not_mem_nil)]
  rfl

theorem due_chooseStretch (s : State) : s.chooseStretch.2.beat.due = s.beat.due := by
  rw [beat_of_onlyLog (chooseStretch_eq s).2]
  rfl

/-- A verdict stands for its window at its instant. -/
theorem judge_due {s : State} {rs : List HeldReport} (w : Win) (t : Nat) (hl : s.linkLosses rs = []) (hr : s.casc.retire = none) :
    ∃ d, (s.judge w t rs []).beat.due = s.beat.due ++ [d] ∧ d.beat = w.beat ∧ d.lost = none ∧ d.at_ = max t (s.verdictAt w) ∧
      d.kind = (if rs.any (·.fault) then 2 else if rs.any (·.voteClear) then 1 else 0) := by
  obtain ⟨margin, coord, he⟩ := judge_noLoss w t hl hr
  rw [he]
  split
  · refine ⟨verdictDue s.chooseStretch.2 w t 2 0 s.chooseStretch.1 margin coord none, ?_, rfl, rfl, ?_, rfl⟩
    · rw [issueVerdict_beat, due_chooseStretch]
    · exact congrArg (max t) (verdictAt_chooseStretch s w)
  · refine ⟨verdictDue s w t (if rs.any (·.voteClear) then 1 else 0) 0 0 margin coord none, ?_, rfl, rfl, rfl, rfl⟩
    rw [issueVerdict_beat]

/-- The report of a member: both masters hold it, and the acting one judges with the last of them. -/
theorem reports_held (m : CtlMsg) (t : Nat) (s u : State) (hk : m.kind = 3) (hr : s.runSlot.isSome = true) (hl : m.coord ∉ s.casc.lost)
    (hm : m.coord ∈ s.members) (hu : u = (s.at t).holdReport (heldReport m t)) :
    (s.fld Reg.beatCtl 1 0 = 3 → s.takeUnicast m t = u) ∧
    (s.fld Reg.beatCtl 1 0 < 2 → s.takeUnicast m t = s) ∧
    (s.fld Reg.beatCtl 1 0 = 2 → ∀ w, u.unjudged = some w →
      (w.reported = false ∨ u.missing w.beat ≠ [] → s.takeUnicast m t = u) ∧
      (w.reported = true → u.missing w.beat = [] → u.goneFor w.beat = [] → s.casc.retire = none →
        ∀ rs, rs = u.casc.reports.filter (fun r => r.beat == w.beat) → u.linkLosses rs = [] →
        ∀ v, v = s.takeUnicast m t → memoryKept s v ∧ ∃ d, v.beat.due = s.beat.due ++ [d] ∧ d.beat = w.beat ∧ d.lost = none ∧
          d.at_ = max t (s.verdictAt w) ∧
          d.kind = (if rs.any (·.fault) then 2 else if rs.any (·.voteClear) then 1 else 0))) := by
  have hrole : u.fld Reg.beatCtl 1 0 = s.fld Reg.beatCtl 1 0 := by rw [hu]; rfl
  have hkeep : memoryKept s (s.takeUnicast m t) := memoryKept_of_keeps (keeps_takeUnicast s m t (keeps_refl s) (covers_allBut rfl))
  rw [takeUnicast_report t s hk] at hkeep ⊢
  refine ⟨fun h3 => ?_, fun h2 => takeReport_ignores m t h2, fun h2 w hw => ?_⟩
  · rw [takeReport_holds t (.inr h3) hr hl hm, ← hu]
    exact tryJudge_other t (by unfold State.isMaster; rw [hrole, h3]; rfl)
  · have hmaster : u.isMaster = true := decide_eq_true (hrole.trans h2)
    rw [takeReport_holds t (.inl h2) hr hl hm, ← hu] at hkeep ⊢
    refine ⟨fun h => tryJudge_waits t hw h, fun hrep hmiss hgone hret rs hrs hlink v hv => ?_⟩
    rw [← hv] at hkeep
    rw [tryJudge_judges t hmaster hw hrep hmiss, ← hrs, hgone] at hv
    obtain ⟨d, hdue, hrest⟩ := judge_due w t hlink (show u.casc.retire = none by rw [hu]; exact hret)
    rw [← hv] at hdue
    have hat : u.verdictAt w = s.verdictAt w := by rw [hu]; rfl
    have hbeat : u.beat = s.beat := by rw [hu]; rfl
    rw [hat] at hrest
    exact ⟨hkeep, d, by rw [hdue, hbeat], hrest⟩

/-! ### A member whose report stays missing (R446) -/

theorem mem_dedupe {x : Coord} {l : List Coord} : x ∈ dedupe l ↔ x ∈ l := by
  induction l with
  | nil => exact Iff.rfl
  | cons c cs ih =>
    unfold dedupe
    rw [List.mem_cons, List.mem_filter, ih, List.mem_cons]
    by_cases h : x = c
    · simp [h]
    · simp [h]

theorem mem_goneFor {s : State} {b : Nat} {c : Coord} :
    c ∈ s.goneFor b ↔ c ∈ s.casc.dead ∨ ∃ r ∈ s.casc.reports, (r.beat = b ∧ r.selfLost = true) ∧ r.coord = c := by
  unfold State.goneFor
  rw [mem_dedupe, List.mem_append, List.mem_map]
  simp [and_assoc]

theorem mem_missing {s : State} {b : Nat} {c : Coord} :
    c ∈ s.missing b ↔ c ∈ s.members ∧ c ∉ s.casc.lost ∧ c ∉ s.goneFor b ∧ ∀ r ∈ s.casc.reports, r.beat = b → r.coord ≠ c := by
  unfold State.missing
  rw [List.mem_filter]
  simp [and_assoc]

/-- The master has declared a member lost. -/
def declaredLost (s : State) (c : Coord) (t : Nat) : State :=
  { s.at t with casc := { (s.at t).casc with dead := s.casc.dead ++ [c] } }

theorem mem_missing_declaredLost {s : State} {b : Nat} {c o : Coord} (t : Nat) :
    o ∈ (declaredLost s c t).missing b ↔ o ∈ s.missing b ∧ o ≠ c := by
  rw [mem_missing, mem_missing, mem_goneFor, mem_goneFor]
  change o ∈ s.members ∧ o ∉ s.casc.lost ∧ ¬(o ∈ s.casc.dead ++ [c] ∨ _) ∧ _ ↔ _
  rw [List.mem_append, List.mem_singleton]
  tauto

theorem memberLostTimeout_declares {s : State} {w : Win} {c : Coord} {i t : Nat} (hc : c = s.memberAt i) (hu : s.unjudged = some w)
    (hm : s.isMaster = true) (hself : c ≠ s.self) (ho : s.overdue w c t = true) :
    exec (.memberLostTimeout i t) s = .next (if c ∈ s.missing w.beat then (declaredLost s c t).tryJudge t else s) := by
  rw [exec_memberLostTimeout, applyMemberLostTimeout, ← hc, hu]
  dsimp only
  rw [hm, ho, decide_eq_true hself]
  by_cases h : c ∈ s.missing w.beat
  · rw [if_pos h, if_pos (by simpa using h)]
    rfl
  · rw [if_neg h, if_neg (by simpa using h)]

/-- With every other report there, the lost member's verdict is given at once. -/
theorem declaredLost_judged {s : State} {w : Win} {c : Coord} {t : Nat} (hu : s.unjudged = some w) (hm : s.isMaster = true)
    (hmiss : s.missing w.beat = [c]) (hrep : w.reported = true) (hret : s.casc.retire = none) (hdead : s.casc.dead = [])
    (hlink : s.linkLosses (s.casc.reports.filter fun r => r.beat == w.beat) = [])
    (hrs : ∀ r ∈ s.casc.reports, r.beat = w.beat → r.selfLost = false ∧ r.coord ≠ c)
    (hfull : (s.fing.map (·.hdr.fullTwin)) = some true) (htwin : s.twinGone c = false) :
    ∃ margin coord, (declaredLost s c t).tryJudge t =
      (takeoverStretch (declaredLost s c t)).issueVerdict w t 2 2 16 margin coord (some c) := by
  have hnone : (declaredLost s c t).missing w.beat = [] := by
    refine List.eq_nil_iff_forall_not_mem.mpr fun o ho => ?_
    obtain ⟨hin, hne⟩ := (mem_missing_declaredLost t).mp ho
    rw [hmiss] at hin
    exact hne (List.mem_singleton.mp hin)
  have hgone : (declaredLost s c t).goneFor w.beat = [c] := by
    have hself : (s.casc.reports.filter fun r => r.beat == w.beat && r.selfLost) = [] := by
      rw [List.filter_eq_nil_iff]
      intro r hr h
      rw [Bool.and_eq_true, beq_iff_eq] at h
      rw [(hrs r hr h.1).1] at h
      exact Bool.noConfusion h.2
    unfold State.goneFor
    change dedupe ((s.casc.dead ++ [c]) ++ (s.casc.reports.filter fun r => r.beat == w.beat && r.selfLost).map (·.coord)) = _
    rw [hself, hdead]
    rfl
  have hcoord : ∀ r ∈ (declaredLost s c t).casc.reports.filter fun r => r.beat == w.beat, r.coord ≠ c := by
    intro r hr
    obtain ⟨hin, hb⟩ := List.mem_filter.mp hr
    exact (hrs r hin (beq_iff_eq.mp hb)).2
  obtain ⟨margin, coord, hj⟩ := judge_oneLoss (s := declaredLost s c t) w t hcoord hlink hret
  refine ⟨margin, coord, ?_⟩
  rw [tryJudge_judges (s := declaredLost s c t) t hm hu hrep hnone, hgone, hj,
    judgeLoss_full (s := declaredLost s c t) w t margin coord hfull htwin]
  rfl

/-- A verdict for a loss stands with TAKEOVER, at stretch 16, in a new epoch. -/
theorem takeoverVerdict {s v : State} {w : Win} {c coord : Coord} {margin : Int} {t : Nat}
    (hv : v = (takeoverStretch s).issueVerdict w t 2 2 16 margin coord (some c)) :
    ∃ d, v.beat.due = s.beat.due ++ [d] ∧ d.kind = 2 ∧ d.lost = some c ∧
      d.beat = w.beat ∧ d.stretch = 16 ∧ d.flags / 2 % 2 = 1 ∧ d.flags / 4 % 2 = 0 ∧ d.flags / 8 % 2 = 0 ∧
      d.at_ = max t (s.verdictAt w) ∧ v.casc.issueEpoch = (s.casc.issueEpoch + 1) % 16 := by
  have hflags : ∀ b : Bool, ((2 + if b then 1 else 0) % 16 / 2 % 2 = 1 ∧ (2 + if b then 1 else 0) % 16 / 4 % 2 = 0 ∧
      (2 + if b then 1 else 0) % 16 / 8 % 2 = 0) := by decide
  obtain ⟨h2, h4, h8⟩ := hflags ((takeoverStretch s).bit Reg.masterCoord 25)
  obtain ⟨hepoch, -⟩ := issueVerdict_casc (takeoverStretch s) w t 2 2 16 margin coord (some c) hv
  refine ⟨verdictDue (takeoverStretch s) w t 2 2 16 margin coord (some c), ?_, rfl, rfl, rfl, rfl, h2, h4, h8, rfl, hepoch⟩
  rw [hv, issueVerdict_beat]
  rfl

/-- Settles O35: `markers_issued` for the master's markers, `reports_held` for the reports and the verdict that follows the last of them, and
for a member that stays silent the same judgement in the state that has declared it lost. -/
theorem mastersIssueAndJudge : Obligations.MastersIssueAndJudge := by
  unfold Obligations.MastersIssueAndJudge
  refine ⟨fun t last x s hl hx => ⟨markers_issued t last x s hl hx, markerIssue_idle hl⟩, fun m t s u hk hr hlost hm hu => ⟨?_, ?_⟩,
    fun i t c w s hc hu hm hself ho => ⟨?_, ?_, ?_⟩⟩
  · rw [hu]
    exact mem_holdReport (s.at t) (heldReport m t)
  · exact reports_held m t s u hk hr hlost hm hu
  · intro hmiss hrep hret hdead hlink hrs hfull htwin
    obtain ⟨margin, coord, hj⟩ := declaredLost_judged (t := t) hu hm hmiss hrep hret hdead hlink hrs hfull htwin
    obtain ⟨d, hd⟩ := takeoverVerdict hj
    refine ⟨_, d, ?_, hd⟩
    rw [memberLostTimeout_declares hc hu hm hself ho, if_pos (hmiss ▸ List.mem_singleton_self c)]
  · rintro ⟨hin, hwait⟩ hdead
    have hstill : w.reported = false ∨ (declaredLost s c t).missing w.beat ≠ [] :=
      hwait.imp_right fun ⟨o, ho', hne⟩ => List.ne_nil_of_mem ((mem_missing_declaredLost t).mpr ⟨ho', hne⟩)
    rw [memberLostTimeout_declares hc hu hm hself ho, if_pos hin, tryJudge_waits (s := declaredLost s c t) t hu hstill]
    unfold declaredLost
    rw [hdead]
    rfl
  · intro hin
    rw [memberLostTimeout_declares hc hu hm hself ho, if_neg hin]

end Sys2Proof.Laws

/-! # Frames that are next in order (O36) -/

namespace Sys2Proof.Laws

open Sys2Proof Sys2Proof.Machine

/-! ### The link level (R415) -/

/-- An accepted frame changes what the link counts and sends an acknowledgement at the most. -/
theorem linkAccept_next {s : State} {q : Nat} {f : Frame} (hg : f.good = true) (hl : f.lseq = (s.port q).rxLseq) :
    ∃ ports out, s.linkAccept q f = ({ s with ports := ports, out := out }, true) := by
  have hahead : (f.lseq + 4294967296 - (s.port q).rxLseq % 4294967296) % 4294967296 = 0 := by omega
  unfold State.linkAccept
  dsimp only
  rw [if_neg (by rw [hg]; decide), if_pos hahead]
  split
  · exact ⟨_, _, rfl⟩
  · exact ⟨_, s.out, rfl⟩

/-- The state that has taken a frame into its buffer: the run, the order and the registers are as before. -/
structure LinkTook (s u : State) (q : Nat) (f : Frame) (t : Nat) : Prop where
  frame : ∃ ports out, u = { s with now := max s.now t, ports := ports, out := out }
  accepts : (s.at t).linkAccept q f = (u, true)

theorem linkTook {s : State} {q : Nat} {f : Frame} (t : Nat) (hg : f.good = true) (hl : f.lseq = (s.port q).rxLseq) :
    ∃ u, LinkTook s u q f t := by
  obtain ⟨ports, out, he⟩ := linkAccept_next (s := s.at t) hg hl
  exact ⟨_, ⟨⟨ports, out, rfl⟩, he⟩⟩

/-! ### The order of a direction and lane (R416) -/

/-- The buffer of a direction and lane, where a frame is taken out of it and the order counts on. -/
def takenFrom (u : State) (key : Nat) (x : Nat × Nat × Nat × Frame) : State :=
  { u with casc := { u.casc with
    rxHold := u.casc.rxHold.filter fun y => !(y == x)
    rxSeq := putKey u.casc.rxSeq key ((x.2.2.2.dseq + 1) % 4294967296) } }

/-- A control frame that is next in order is taken out of the buffer, and acts. -/
theorem drainHeld_control {s : State} {key residence n : Nat} {x : Nat × Nat × Nat × Frame}
    (hx : s.casc.rxHold.find? (fun y => y.1 == key && y.2.2.2.dseq == (getKey s.casc.rxSeq key).getD 0) = some x)
    (hd : x.2.2.2.dseq = (getKey s.casc.rxSeq key).getD 0) (ht : x.2.2.2.typ = 7) (hv : x.2.2.2.vl = 2) :
    s.drainHeld key residence (n + 1) =
      (takenFrom (s.takeControl x.2.1 x.2.2.2 (s.now - x.2.2.1 + residence) s.now) key x).drainHeld key residence n := by
  have htake : ∀ a b, s.takeFrame x.2.1 x.2.2.2 a b = some (s.takeControl x.2.1 x.2.2.2 a b) := by
    intro a b
    unfold State.takeFrame
    rw [ht, hv]
    rfl
  rw [State.drainHeld]
  dsimp only
  rw [hx]
  dsimp only
  rw [htake]
  dsimp only
  unfold takenFrom
  rw [hd]

/-- The first frame held for a direction and lane is the one that has just come. -/
theorem find_held {l : List (Nat × Nat × Nat × Frame)} {key want q now : Nat} {f : Frame} (hl : ∀ x ∈ l, x.1 ≠ key) (hf : f.dseq = want) :
    (l ++ [(key, q, now, f)]).find? (fun y => y.1 == key && y.2.2.2.dseq == want) = some (key, q, now, f) := by
  have hnone : l.find? (fun y => y.1 == key && y.2.2.2.dseq == want) = none := by
    rw [List.find?_eq_none]
    intro x hx
    simp [hl x hx]
  rw [List.find?_append, hnone]
  simp [hf]

theorem takeKind_control {s : State} {q residence roundTrip : Nat} {f : Frame} (ht : f.typ = 7) :
    s.takeKind q f residence roundTrip = s.inOrder q f residence := by
  unfold State.takeKind
  rw [ht]
  rfl

/-- A frame that is next in the order of its direction and lane is held, and taken at once. -/
theorem inOrder_next {u : State} {q residence : Nat} {f : Frame} (hrole : u.portRole q ≠ 8) (hrun : u.runSlot.isNone = false)
    (hd : f.dseq = (getKey u.casc.rxSeq (orderKey (u.portRole q) q f.vl)).getD 0)
    (hh : ∀ x ∈ u.casc.rxHold, x.1 ≠ orderKey (u.portRole q) q f.vl) (ht : f.typ = 7) (hv : f.vl = 2) :
    u.inOrder q f residence = (takenFrom ((u.holdFrame (orderKey (u.portRole q) q f.vl) q f).takeControl q f residence u.now)
      (orderKey (u.portRole q) q f.vl) (orderKey (u.portRole q) q f.vl, q, u.now, f)).drainHeld
        (orderKey (u.portRole q) q f.vl) residence u.casc.rxHold.length := by
  unfold State.inOrder
  rw [if_neg hrole, hrun, if_neg Bool.false_ne_true]
  dsimp only
  generalize orderKey (u.portRole q) q f.vl = key at *
  rw [← hd, if_neg (by omega)]
  have hfind := find_held (q := q) (now := u.now) hh hd
  rw [drainHeld_control (s := u.holdFrame key q f) hfind hd ht hv]
  have hres : u.now - u.now + residence = residence := by omega
  change (takenFrom ((u.holdFrame key q f).takeControl q f (u.now - u.now + residence) u.now) key _).drainHeld key residence _ = _
  rw [hres]

/-- A CONTROL frame that is next in order acts as `takeControl` says, and what has waited for it follows. -/
theorem arrive_next {s : State} {q residence t : Nat} {f : Frame} (h : s.nextFrame q f) (ht : f.typ = 7) (hv : f.vl = 2) :
    s.arrive q f residence 0 t =
      s.afterFrame q f residence t ((s.accepted q f t).takeControl q f residence (max s.now t)) := by
  obtain ⟨hactive, hgood, hlseq, hcascade, hrole, hrun, hdseq, hheld⟩ := h
  obtain ⟨u, hu⟩ := linkTook t hgood hlseq
  have haccepts := hu.accepts
  obtain ⟨ports, out, hframe⟩ := hu.frame
  have hkey : u.portRole q = s.portRole q := by rw [hframe]; rfl
  have hforeign : u.foreign q f = false := by
    have hc : u.cascade32 = s.cascade32 := by rw [hframe]; rfl
    unfold State.foreign
    rw [hc, hcascade]
    simp
  have hunnumbered : f.unnumbered = false := by
    unfold Frame.unnumbered
    rw [ht]
    rfl
  have hcasc : u.casc = s.casc := by rw [hframe]
  have hnow : u.now = max s.now t := by rw [hframe]
  have hrun' : u.runSlot.isNone = false := by
    have he : u.runSlot = s.runSlot := by rw [hframe]; rfl
    rw [he, Option.isNone_eq_false_iff]
    exact hrun
  have hacc : s.accepted q f t = u.holdFrame (orderKey (s.portRole q) q f.vl) q f := by
    unfold State.accepted
    rw [haccepts]
  have horder := inOrder_next (u := u) (q := q) (residence := residence) (f := f) (by rw [hkey]; exact hrole) hrun'
    (by rw [hcasc, hkey]; exact hdseq) (by rw [hcasc, hkey]; exact hheld) ht hv
  rw [hkey, hnow, hcasc, ← hacc] at horder
  unfold State.arrive
  rw [hactive, if_neg (by decide), hunnumbered]
  dsimp only
  rw [if_neg Bool.false_ne_true, haccepts]
  dsimp only
  rw [if_neg (by decide), hforeign, if_neg Bool.false_ne_true, takeKind_control ht, horder]
  rfl

/-! ### Control frames of one KIND -/

theorem isCtl_iff {f : Frame} (ht : f.typ = 7) (k : Nat) : f.isCtl k = decide ((ctlOf f.payload).kind = k) := by
  unfold Frame.isCtl
  rw [ht]
  rfl

/-- The messages to one coordinate, each with the command of its frame. -/
def unicastFrames (q t : Nat) (f : Frame) : List (Nat × Instr) :=
  [(3, Instr.report ⟨q, f⟩ t), (4, .join ⟨q, f⟩ t), (6, .syncResult ⟨q, f⟩ t), (8, .admitDevice ⟨q, f⟩ t), (9, .ready ⟨q, f⟩ t)]

theorem exec_unicast {q t k : Nat} {f : Frame} {c : Instr} (s : State) (hc : (k, c) ∈ unicastFrames q t f) (ht : f.typ = 7)
    (hk : (ctlOf f.payload).kind = k) : exec c s = .next (s.arrive q f 0 0 t) := by
  have hctl : f.isCtl k = true := by
    rw [isCtl_iff ht]
    exact decide_eq_true hk
  unfold unicastFrames at hc
  simp only [List.mem_cons, Prod.mk.injEq, List.not_mem_nil, or_false] at hc
  rcases hc with ⟨rfl, rfl⟩ | ⟨rfl, rfl⟩ | ⟨rfl, rfl⟩ | ⟨rfl, rfl⟩ | ⟨rfl, rfl⟩
  · change Host.Outcome.next (if f.isCtl 3 = true then _ else _) = _
    rw [if_pos hctl]
  · change Host.Outcome.next (if f.isCtl 4 = true then _ else _) = _
    rw [if_pos hctl]
  · change Host.Outcome.next (if f.isCtl 6 = true then _ else _) = _
    rw [if_pos hctl]
  · change Host.Outcome.next (if f.isCtl 8 = true then _ else _) = _
    rw [if_pos hctl]
  · change Host.Outcome.next (if f.isCtl 9 = true then _ else _) = _
    rw [if_pos hctl]

theorem exec_verdict {q residence t : Nat} {f : Frame} (s : State) (ht : f.typ = 7) (hk : (ctlOf f.payload).kind = 2) :
    exec (.verdict ⟨q, f, residence⟩ t) s = .next (s.arrive q f residence 0 t) := by
  change Host.Outcome.next (if f.isCtl 2 = true then _ else _) = _
  rw [isCtl_iff ht, if_pos (decide_eq_true hk)]

theorem exec_controlMessageReceipt {q residence t : Nat} {f : Frame} (s : State) (ht : f.typ = 7) :
    exec (.controlMessageReceipt q f residence t) s = .next (s.arrive q f residence 0 t) := by
  change Host.Outcome.next (if f.typ = 7 then _ else _) = _
  rw [if_pos ht]

/-- The KIND of a unicast frame is none of a tree message's. -/
theorem unicast_kind {q t k : Nat} {f : Frame} {c : Instr} (hc : (k, c) ∈ unicastFrames q t f) : k ≠ 1 ∧ k ≠ 2 ∧ k ≠ 5 ∧ k ≠ 7 := by
  unfold unicastFrames at hc
  simp only [List.mem_cons, Prod.mk.injEq, List.not_mem_nil, or_false] at hc
  omega

theorem takeControl_unicast {s : State} {r : Route} {q residence t : Nat} {f : Frame} (hr : s.route = some r)
    (hk : (ctlOf f.payload).isTree = false) :
    (f.dest = s.self → s.takeControl q f residence t = (s.owe q f.vl f.units).takeUnicast (ctlOf f.payload) t) ∧
    (f.dest ≠ s.self → s.answersFor r f.dest = false → s.takeControl q f residence t = s.sendControl f (q + 1)) := by
  unfold State.takeControl
  rw [hr]
  dsimp only
  rw [hk, if_neg Bool.false_ne_true]
  refine ⟨fun h => by rw [if_pos (.inl h)], fun h ha => ?_⟩
  rw [if_neg]
  rintro (h' | ⟨h', -⟩)
  · exact h h'
  · rw [ha] at h'
    cases h'

/-- Accepting a frame moves neither the run nor this device. -/
theorem accepted_ways {s : State} {q : Nat} {f : Frame} (t : Nat) (h : s.nextFrame q f) :
    (s.accepted q f t).self = s.self ∧ (s.accepted q f t).route = s.route ∧
      ∀ r c, (s.accepted q f t).answersFor r c = s.answersFor r c := by
  obtain ⟨-, hgood, hlseq, -⟩ := h
  obtain ⟨u, hu⟩ := linkTook t hgood hlseq
  obtain ⟨ports, out, hframe⟩ := hu.frame
  unfold State.accepted
  rw [hu.accepts, hframe]
  exact ⟨rfl, rfl, fun _ _ => rfl⟩

/-- A CONTROL frame that is next in order acts by its KIND, or goes on toward its coordinate. -/
theorem frames_act (q residence t : Nat) (f : Frame) (r : Route) (s : State) (h : s.nextFrame q f) (hr : s.route = some r)
    (ht : f.typ = 7) (hv : f.vl = 2) :
    (∀ k c, (k, c) ∈ unicastFrames q t f → (ctlOf f.payload).kind = k →
      (f.dest = s.self → exec c s =
        .next (s.afterFrame q f 0 t (((s.accepted q f t).owe q 2 f.units).takeUnicast (ctlOf f.payload) (max s.now t)))) ∧
      (f.dest ≠ s.self → s.answersFor r f.dest = false → exec c s =
        .next (s.afterFrame q f 0 t ((s.accepted q f t).sendControl f (q + 1))))) ∧
    ((ctlOf f.payload).kind = 2 → exec (.verdict ⟨q, f, residence⟩ t) s =
      .next (s.afterFrame q f residence t ((s.accepted q f t).takeControl q f residence (max s.now t)))) ∧
    exec (.controlMessageReceipt q f residence t) s =
      .next (s.afterFrame q f residence t ((s.accepted q f t).takeControl q f residence (max s.now t))) := by
  obtain ⟨hself, hroute, hanswers⟩ := accepted_ways t h
  refine ⟨fun k c hc hk => ?_, fun hk => ?_, ?_⟩
  · have hkind := unicast_kind hc
    have htree : (ctlOf f.payload).isTree = false := by
      unfold CtlMsg.isTree
      rw [hk]
      exact decide_eq_false (by omega)
    obtain ⟨hown, hon⟩ := takeControl_unicast (q := q) (residence := 0) (t := max s.now t) (hroute.trans hr) htree
    rw [exec_unicast s hc ht hk, arrive_next h ht hv]
    refine ⟨fun hd => ?_, fun hd ha => ?_⟩
    · rw [hown (hd.trans hself.symm), hv]
    · rw [hon (hself ▸ hd) ((hanswers r f.dest).trans ha)]
  · rw [exec_verdict s ht hk, arrive_next h ht hv]
  · rw [exec_controlMessageReceipt s ht, arrive_next h ht hv]

end Sys2Proof.Laws

/-! # Messages of the tree, late verdicts, and O36 -/

namespace Sys2Proof.Laws

open Sys2Proof Sys2Proof.Machine

/-! ### A message of the tree that has come to its place (R431, R432) -/

/-- The message with what is left of its OFFSET. -/
def withOffset (m : CtlMsg) (off : Int) : CtlMsg := { m with offset := off }

/-- The message has gone on along the tree from this device's place. -/
def passedOn (s : State) (q : Nat) (f : Frame) (m : CtlMsg) (off : Int) (residence t : Nat) : State :=
  ((s.owe q f.vl f.units).at t).spreadFrom s.self (withOffset m (off - (residence : Int)))

theorem isTree_iff (m : CtlMsg) : m.isTree = true ↔ m.kind = 1 ∨ m.kind = 2 ∨ m.kind = 5 ∨ m.kind = 7 := decide_eq_true_iff

theorem self_mem_treeNodes (s : State) (r : Route) (iss c : Coord) (n : Nat) : c ∈ s.treeNodes r iss n c := by
  cases n with
  | zero => exact List.mem_singleton_self c
  | succ n => exact List.mem_cons_self

/-- It goes on, is noted when it is late, and is scheduled. -/
theorem takeControl_tree {s : State} {r : Route} {q residence t : Nat} {f : Frame} {m : CtlMsg} (hr : s.route = some r)
    (hm : m = ctlOf f.payload) (hd : f.dest = s.self) (ha : s.answersFor r s.self = true) (hi : m.issuer = s.masterIdx)
    (hk : m.kind = 1 ∨ m.kind = 2 ∨ m.kind = 5 ∨ m.kind = 7) {off : Int} (ho : off = m.offset - (s.fld (Reg.linkLatency q) 15 0 : Nat)) :
    s.takeControl q f residence t =
      ((passedOn s q f m off residence t).noteLate (withOffset m off)).takeMessage (withOffset m off) t := by
  have howe : SendsOnly s (s.owe q f.vl f.units) := sendsOnly_owe s q f.vl f.units
  have hmaster : (s.owe q f.vl f.units).masterIdx = s.masterIdx := by
    obtain ⟨n, hn⟩ := howe.casc
    unfold State.masterIdx State.memberIdx
    rw [hn, howe.sameWays.route]
  have hself : (s.owe q f.vl f.units).self = s.self := howe.sameWays.self
  unfold State.takeControl
  rw [hr]
  dsimp only
  rw [← hm, if_pos ((isTree_iff m).mpr hk), hd, ha, if_pos rfl, ← ho]
  unfold State.takeTreeMsg
  dsimp only
  rw [hself, if_pos (List.contains_iff_mem.mpr (self_mem_treeNodes _ r _ _ 3))]
  unfold State.heed
  dsimp only
  rw [hmaster, if_pos hi]
  rfl

/-- What the message has not touched when it is scheduled. -/
structure Untouched (s u : State) : Prop where
  markers : u.beat.markers = s.beat.markers
  due : u.beat.due = s.beat.due
  casc : ∃ n, u.casc = { s.casc with txSeq := n }
  synced : u.bit Reg.beatCtl 3 = s.bit Reg.beatCtl 3
  adopts : u.bit Reg.cascadeCoord 30 = s.bit Reg.cascadeCoord 30

theorem passedOn_sends (s : State) (q : Nat) (f : Frame) (m : CtlMsg) (off : Int) (residence t : Nat) :
    SendsOnly ((s.owe q f.vl f.units).at t) (passedOn s q f m off residence t) := sendsOnly_spreadFrom _ _ _

theorem owed_sends (s : State) (q : Nat) (f : Frame) : SendsOnly s (s.owe q f.vl f.units) := sendsOnly_owe s q f.vl f.units

theorem passedOn_reg (s : State) (q : Nat) (f : Frame) (m : CtlMsg) (off : Int) (residence t : Nat) {o : Nat} (h : notCredit o) :
    (passedOn s q f m off residence t).reg o = s.reg o :=
  ((passedOn_sends s q f m off residence t).reg o h).trans ((owed_sends s q f).reg o h)

theorem passedOn_untouched (s : State) (q : Nat) (f : Frame) (m : CtlMsg) (off : Int) (residence t : Nat) :
    Untouched s (passedOn s q f m off residence t) := by
  have hbeat : (passedOn s q f m off residence t).beat = s.beat :=
    ((passedOn_sends s q f m off residence t).keeps.parts .beat rfl).trans ((owed_sends s q f).keeps.parts .beat rfl)
  obtain ⟨n, hn⟩ := (passedOn_sends s q f m off residence t).casc
  obtain ⟨k, hk⟩ := (owed_sends s q f).casc
  have hcasc : (passedOn s q f m off residence t).casc = { s.casc with txSeq := n } := by
    rw [hn]
    change { (s.owe q f.vl f.units).casc with txSeq := n } = _
    rw [hk]
  have hctl := passedOn_reg s q f m off residence t (o := Reg.beatCtl) (notCredit_low (by decide))
  have hcoord := passedOn_reg s q f m off residence t (o := Reg.cascadeCoord) (notCredit_high (by decide))
  exact ⟨by rw [hbeat], by rw [hbeat], ⟨n, hcasc⟩, bit_of_reg hctl 3, bit_of_reg hcoord 30⟩

/-- The message has gone out to each place that is next in the tree. -/
theorem passedOn_out {s : State} {r : Route} {c : Coord} (q : Nat) (f : Frame) (m : CtlMsg) (off : Int) (residence t : Nat)
    (hr : s.route = some r) (hc : c ∈ s.treeNext r (s.memberAt m.issuer) (s.treeNodes r (s.memberAt m.issuer) 3 s.self)) :
    s.sends (passedOn s q f m off residence t) c (withOffset m (off - (residence : Int))) := by
  have hways : SameWays s ((s.owe q f.vl f.units).at t) := (owed_sends s q f).sameWays.trans ⟨fun _ => rfl, rfl, rfl, rfl, fun _ _ => rfl, fun _ => rfl⟩
  exact sends_spreadFrom (m := withOffset m (off - (residence : Int))) hways hr hc

/-! ### A message that is late (R432) -/

theorem noteLate_late {s : State} {m : CtlMsg} (h : m.offset < 0) :
    s.noteLate m = (s.setBit Reg.syncStatus 22 true).logEntry { code := 0x8022, cls := 0 } := by
  unfold State.noteLate
  rw [if_pos h, raise_logged _ rfl]

theorem noteLate_inTime {s : State} {m : CtlMsg} (h : ¬m.offset < 0) : s.noteLate m = s := by
  unfold State.noteLate
  rw [if_neg h]

theorem onlyLog_noteLate (s : State) (m : CtlMsg) : onlyLog [Reg.syncStatus] s (s.noteLate m) := by
  by_cases h : m.offset < 0
  · rw [noteLate_late h]
    exact onlyLog_trans (onlyLog_setFld s (.inr (List.mem_singleton_self _))) (onlyLog_logEntry _ _)
  · rw [noteLate_inTime h]
    exact onlyLog_refl _ _

theorem ports_of_onlyLog {offs : List Nat} {s t : State} (h : onlyLog offs s t) : t.ports = s.ports := by
  obtain ⟨hframe, -⟩ := h
  rw [hframe]

theorem untouched_noteLate {s u : State} (m : CtlMsg) (h : Untouched s u) : Untouched s (u.noteLate m) := by
  have hlog := onlyLog_noteLate u m
  have hbeat := beat_of_onlyLog hlog
  have hcasc := casc_of_onlyLog hlog
  obtain ⟨-, hreg, -⟩ := hlog
  obtain ⟨n, hn⟩ := h.casc
  have hctl := hreg Reg.beatCtl (by decide) (by decide)
  have hcoord := hreg Reg.cascadeCoord (by decide) (by decide)
  refine ⟨?_, ?_, ⟨n, hcasc.trans hn⟩, (bit_of_reg hctl 3).trans h.synced, (bit_of_reg hcoord 30).trans h.adopts⟩
  · rw [hbeat]
    exact h.markers
  · rw [hbeat]
    exact h.due

/-- LATE stands, and 0x8022 is logged. -/
theorem noteLate_logged {s u : State} {m : CtlMsg} (h : m.offset < 0) (hh : u.reg Reg.errLogHead = s.reg Reg.errLogHead) :
    (u.noteLate m).bit Reg.syncStatus 22 = true ∧
      (u.noteLate m).reg (Reg.errLog ((s.reg Reg.errLogHead).toNat % 256) 0) = BitVec.ofNat 32 0x8022 := by
  have hsame : (u.setBit Reg.syncStatus 22 true).reg Reg.errLogHead = s.reg Reg.errLogHead := (reg_setBit_ne u 22 true (by decide)).trans hh
  have hfirst := logEntry_first (u.setBit Reg.syncStatus 22 true) { code := 0x8022, cls := 0 }
  rw [hsame] at hfirst
  rw [noteLate_late h]
  exact ⟨(bit_of_reg (logEntry_reg _ _ (by decide)) 22).trans (bit_setBit_self u true (by decide)), hfirst⟩

/-! ### What a message schedules (R85, R433, R437, R449) -/

/-- Scheduling sends nothing, and leaves LATE and the log alone. -/
structure Scheduled (u v : State) : Prop where
  out : v.out = u.out
  ports : v.ports = u.ports
  late : v.bit Reg.syncStatus 22 = u.bit Reg.syncStatus 22
  log : ∀ i < 256, v.reg (Reg.errLog i 0) = u.reg (Reg.errLog i 0)

theorem scheduled_of_regs {u v : State} (ho : v.out = u.out) (hp : v.ports = u.ports) (hr : v.regs = u.regs) : Scheduled u v :=
  ⟨ho, hp, bit_of_reg (reg_congr hr _) 22, fun _ _ => reg_congr hr _⟩

theorem adoptEpoch_none {s : State} (m : CtlMsg) (inst : Nat) (h : s.casc.adopting = none) : s.adoptEpoch m inst = s := by
  unfold State.adoptEpoch
  rw [h]
  rfl

/-- A MARKER's window, as received. -/
def markerOf (m : CtlMsg) (t : Nat) : DueMarker :=
  { beat := m.beat, at_ := dueAt m t, stretch := m.stretch, planPos := m.planPos, epoch := m.flags / 16 }

/-- The control path of a MARKER shows. -/
def pathShown (s : State) (m : CtlMsg) : State := s.setFld Reg.syncStatus 15 0 (min (20000 - m.offset).toNat 0xFFFF)

/-- A marker that stands already is not scheduled again. -/
def hasMarker (s : State) (m : CtlMsg) : Bool := s.beat.markers.any fun x => x.beat == m.beat && x.epoch == m.flags / 16

theorem hasMarker_false {s : State} {m : CtlMsg} (h : ∀ x ∈ s.beat.markers, ¬(x.beat = m.beat ∧ x.epoch = m.flags / 16)) :
    hasMarker s m = false := by
  unfold hasMarker
  rw [List.any_eq_false]
  intro x hx
  simpa using h x hx

/-- A state in which a MARKER stands as well. -/
def withMarker (s : State) (d : DueMarker) : State :=
  { s with beat := { s.beat with markers := s.beat.markers ++ [d] }, casc := { s.casc with masterGone := none } }

theorem takeMarker_eq {u : State} {m : CtlMsg} (t : Nat) (hs : u.bit Reg.beatCtl 3 = true) (ha : u.casc.adopting = none) :
    u.takeMarker m t = if hasMarker u m = true then pathShown u m else withMarker (pathShown u m) (markerOf m t) := by
  unfold State.takeMarker
  dsimp only
  rw [hs, if_neg (by simp)]
  rw [adoptEpoch_none (s := u.setFld Reg.syncStatus 15 0 (min (20000 - m.offset).toNat 0xFFFF)) m (dueAt m t) ha]
  rfl

/-- A VERDICT as received. -/
def verdictOf (m : CtlMsg) (t : Nat) : Due :=
  { kind := m.value, beat := m.beat, at_ := dueAt m t, flags := m.flags % 16, stretch := m.stretch, margin := m.margin,
    coord := m.coord, lost := m.lost, epoch := m.flags / 16 }

/-- A verdict that stands already is not scheduled again. -/
def hasVerdict (s : State) (m : CtlMsg) : Bool := s.beat.due.any fun d => d.beat == m.beat && d.epoch == m.flags / 16

theorem hasVerdict_false {s : State} {m : CtlMsg} (h : ∀ d ∈ s.beat.due, ¬(d.beat = m.beat ∧ d.epoch = m.flags / 16)) :
    hasVerdict s m = false := by
  unfold hasVerdict
  rw [List.any_eq_false]
  intro x hx
  simpa using h x hx

/-- A state in which a VERDICT stands as well. -/
def withVerdict (s : State) (d : Due) : State :=
  { s with beat := { s.beat with due := s.beat.due ++ [d] }, casc := { s.casc with masterGone := none } }

theorem takeVerdict_eq {u : State} {m : CtlMsg} (t : Nat) (ha : u.bit Reg.cascadeCoord 30 = false) :
    u.takeVerdict m t = if hasVerdict u m = true then u else withVerdict u (verdictOf m t) := by
  unfold State.takeVerdict
  rw [ha, if_neg Bool.false_ne_true]
  rfl

section
variable {u : State} {m : CtlMsg} (t : Nat)

theorem takeMessage_marker (h : m.kind = 1) : u.takeMessage m t = u.takeMarker m t := by
  unfold State.takeMessage
  rw [if_pos h]

theorem takeMessage_verdict (h : m.kind = 2) : u.takeMessage m t = u.takeVerdict m t := by
  unfold State.takeMessage
  rw [if_neg (by omega), if_pos h]

theorem takeMessage_sync (h : m.kind = 5) :
    u.takeMessage m t = { u with casc := { u.casc with instants := u.casc.instants ++ [dueAt m t] } } := by
  unfold State.takeMessage
  rw [if_neg (by omega), if_neg (by omega), if_pos h]

theorem takeMessage_resume (h : m.kind = 7) (ha : u.casc.adopting = none) :
    u.takeMessage m t = { u with casc := { u.casc with resume := some { markerOf m t with stretch := 0 } } } := by
  unfold State.takeMessage
  rw [if_neg (by omega), if_neg (by omega), if_neg (by omega)]
  dsimp only
  rw [adoptEpoch_none m _ ha]
  rfl

end

theorem scheduled_refl (u : State) : Scheduled u u := ⟨rfl, rfl, rfl, fun _ _ => rfl⟩

theorem scheduled_pathShown (u : State) (m : CtlMsg) : Scheduled u (pathShown u m) := by
  refine ⟨rfl, rfl, ?_, fun i _ => reg_setFld_ne u 15 0 _ ?_⟩
  · unfold pathShown State.bit
    rw [fld_setFld_apart u _ (by decide) (by decide) (by decide) (by decide)]
  · have hi : 0x3C01000 ≤ Reg.errLog i 0 := by
      unfold Reg.errLog
      omega
    rw [regHome_id (.inr (Nat.le_trans (by decide) hi))]
    exact Nat.ne_of_gt (Nat.lt_of_lt_of_le (by decide) hi)

theorem Scheduled.trans {u v w : State} (h : Scheduled u v) (g : Scheduled v w) : Scheduled u w :=
  ⟨g.out.trans h.out, g.ports.trans h.ports, g.late.trans h.late, fun i hi => (g.log i hi).trans (h.log i hi)⟩

theorem scheduled_takeMessage {u : State} {m : CtlMsg} (t : Nat) (hs : u.bit Reg.beatCtl 3 = true) (ha : u.bit Reg.cascadeCoord 30 = false)
    (hn : u.casc.adopting = none) (hk : m.kind = 1 ∨ m.kind = 2 ∨ m.kind = 5 ∨ m.kind = 7) : Scheduled u (u.takeMessage m t) := by
  rcases hk with h | h | h | h
  · rw [takeMessage_marker t h, takeMarker_eq t hs hn]
    split
    · exact scheduled_pathShown u m
    · exact (scheduled_pathShown u m).trans (scheduled_of_regs rfl rfl rfl)
  · rw [takeMessage_verdict t h, takeVerdict_eq t ha]
    split
    · exact scheduled_refl u
    · exact scheduled_of_regs rfl rfl rfl
  · rw [takeMessage_sync t h]
    exact scheduled_of_regs rfl rfl rfl
  · rw [takeMessage_resume t h hn]
    exact scheduled_of_regs rfl rfl rfl

/-! ### The tree's messages, whole -/

/-- What stands once a message of the tree has been taken, by its KIND. -/
theorem takeMessage_schedules {s u : State} {m : CtlMsg} (t : Nat) (h : Untouched s u) (hs : s.bit Reg.beatCtl 3 = true)
    (ha : s.bit Reg.cascadeCoord 30 = false) (hn : s.casc.adopting = none) :
    (m.kind = 1 → (∀ x ∈ s.beat.markers, ¬(x.beat = m.beat ∧ x.epoch = m.flags / 16)) →
      (u.takeMessage m t).beat.markers = s.beat.markers ++ [markerOf m t] ∧
      (u.takeMessage m t).fld Reg.syncStatus 15 0 = min (20000 - m.offset).toNat 0xFFFF) ∧
    (m.kind = 2 → (∀ d ∈ s.beat.due, ¬(d.beat = m.beat ∧ d.epoch = m.flags / 16)) →
      (u.takeMessage m t).beat.due = s.beat.due ++ [verdictOf m t]) ∧
    (m.kind = 5 → (u.takeMessage m t).casc.instants = s.casc.instants ++ [dueAt m t]) ∧
    (m.kind = 7 → (u.takeMessage m t).casc.resume = some { markerOf m t with stretch := 0 }) := by
  obtain ⟨n, hcasc⟩ := h.casc
  have hadopt : u.casc.adopting = none := by rw [hcasc]; exact hn
  refine ⟨fun hk hnew => ?_, fun hk hnew => ?_, fun hk => ?_, fun hk => ?_⟩
  · have hno : hasMarker u m = false := hasMarker_false (h.markers ▸ hnew)
    rw [takeMessage_marker t hk, takeMarker_eq t (h.synced.trans hs) hadopt, hno, if_neg Bool.false_ne_true]
    refine ⟨congrArg (· ++ [markerOf m t]) h.markers, ?_⟩
    refine (fld_setFld_self u (min (20000 - m.offset).toNat 0xFFFF) (by decide) (by decide)).trans (Nat.mod_eq_of_lt ?_)
    exact Nat.lt_of_le_of_lt (Nat.min_le_right _ _) (by decide)
  · have hno : hasVerdict u m = false := hasVerdict_false (h.due ▸ hnew)
    rw [takeMessage_verdict t hk, takeVerdict_eq t (h.adopts.trans ha), hno, if_neg Bool.false_ne_true]
    exact congrArg (· ++ [verdictOf m t]) h.due
  · rw [takeMessage_sync t hk]
    dsimp only
    rw [hcasc]
  · rw [takeMessage_resume t hk hadopt]

/-! ### A late verdict (R92) -/

theorem exec_verdictLate (t : Nat) (s : State) : exec (.verdictLate t) s = .next (applyVerdictLate t s) := rfl

/-- Once for each beat, a late verdict is logged. -/
theorem raiseBeat_logged (s : State) (key : Nat) {e : Ev} (h : e.cls = 0) :
    (s.raiseBeat key e).beat.win = s.beat.win ∧
      (s.raiseBeat key e).reg Reg.errLogHead = s.reg Reg.errLogHead + (if key ∈ s.beat.onceBeat then 0 else 1) := by
  unfold State.raiseBeat
  by_cases hk : key ∈ s.beat.onceBeat
  · rw [if_pos (List.contains_iff_mem.mpr hk), if_pos hk]
    exact ⟨rfl, (BitVec.add_zero _).symm⟩
  · rw [if_neg fun hc => hk (List.contains_iff_mem.mp hc), if_neg hk, raise_logged _ h, logEntry_head]
    refine ⟨?_, rfl⟩
    rw [beat_of_onlyLog (onlyLog_logEntry (offs := []) _ e)]

theorem verdictLate_holds {t : Nat} {w cur : Win} {rest : List Win} {s : State} (hp : s.beat.prev = w :: rest)
    (hw : s.beat.win = some cur) (hd : s.beat.due = []) (ht : w.start + w.period + s.fld Reg.beatCtl 31 16 < t) :
    ∃ v, exec (.verdictLate t) s = .next v ∧ v.beat.win = some { cur with held := true } ∧
      v.reg Reg.errLogHead = s.reg Reg.errLogHead + (if 0x2024 ∈ s.beat.onceBeat then 0 else 1) := by
  rw [exec_verdictLate, applyVerdictLate, hp, hw]
  dsimp only
  rw [if_pos ⟨ht, by rw [hd]; rfl⟩]
  have hheld := setWindow_win (s := s.at t) (w := cur) (fun w => { w with held := true }) hw
  obtain ⟨hwin, hhead⟩ := raiseBeat_logged ((s.at t).setWindow cur.beat fun w => { w with held := true }) 0x2024
    (e := { code := 0x2024, cls := 0 }) rfl
  exact ⟨_, rfl, hwin.trans hheld, hhead⟩

/-- A message of the tree that has come to this device's place. -/
theorem treeMessage_taken {q residence t : Nat} {f : Frame} {m : CtlMsg} {r : Route} {s v : State} (hr : s.route = some r)
    (hm : m = ctlOf f.payload) (hd : f.dest = s.self) (hans : s.answersFor r s.self = true) (hi : m.issuer = s.masterIdx)
    (ha : s.bit Reg.cascadeCoord 30 = false) (hn : s.casc.adopting = none) (hs : s.bit Reg.beatCtl 3 = true)
    (hv : v = s.takeControl q f residence t) {off : Int} (ho : off = m.offset - (s.fld (Reg.linkLatency q) 15 0 : Nat)) :
    (m.kind = 1 → (∀ x ∈ s.beat.markers, ¬(x.beat = m.beat ∧ x.epoch = m.flags / 16)) → v.beat.markers = s.beat.markers ++
        [{ beat := m.beat, at_ := t + off.toNat, stretch := m.stretch, planPos := m.planPos, epoch := m.flags / 16 }] ∧
      v.fld Reg.syncStatus 15 0 = min (20000 - off).toNat 0xFFFF ∧ memoryKept s v) ∧
    (m.kind = 2 → (∀ d ∈ s.beat.due, ¬(d.beat = m.beat ∧ d.epoch = m.flags / 16)) → v.beat.due = s.beat.due ++
      [{ kind := m.value, beat := m.beat, at_ := t + off.toNat, flags := m.flags % 16, stretch := m.stretch, margin := m.margin,
         coord := m.coord, lost := m.lost, epoch := m.flags / 16 }] ∧ memoryKept s v) ∧
    (m.kind = 5 → v.casc.instants = s.casc.instants ++ [t + off.toNat] ∧ memoryKept s v) ∧
    (m.kind = 7 → v.casc.resume = some
        { beat := m.beat, at_ := t + off.toNat, stretch := 0, planPos := m.planPos, epoch := m.flags / 16 } ∧ memoryKept s v) ∧
    (m.kind = 1 ∨ m.kind = 2 ∨ m.kind = 5 ∨ m.kind = 7 →
      (∀ c ∈ s.treeNext r (s.memberAt m.issuer) (s.treeNodes r (s.memberAt m.issuer) 3 s.self),
        s.sends v c { m with offset := off - (residence : Int) }) ∧
      (off < 0 → v.bit Reg.syncStatus 22 = true ∧
        v.reg (Reg.errLog ((s.reg Reg.errLogHead).toNat % 256) 0) = BitVec.ofNat 32 0x8022)) := by
  have hkept : memoryKept s v := hv ▸ memoryKept_of_keeps (keeps_takeControl s q f residence t (keeps_refl s) (covers_allBut rfl))
  have htree : ∀ hk : m.kind = 1 ∨ m.kind = 2 ∨ m.kind = 5 ∨ m.kind = 7, v =
      ((passedOn s q f m off residence t).noteLate (withOffset m off)).takeMessage (withOffset m off) t := fun hk =>
    hv.trans (takeControl_tree hr hm hd hans hi hk ho)
  have hpassed := passedOn_untouched s q f m off residence t
  have hnoted := untouched_noteLate (withOffset m off) hpassed
  obtain ⟨hmarker, hverdict, hsync, hresume⟩ := takeMessage_schedules (m := withOffset m off) t hnoted hs ha hn
  refine ⟨fun hk hnew => ?_, fun hk hnew => ?_, fun hk => ?_, fun hk => ?_, fun hk => ⟨fun c hc => ?_, fun hlate => ?_⟩⟩
  · obtain ⟨hstands, hpath⟩ := hmarker hk hnew
    rw [htree (.inl hk)] at hkept ⊢
    exact ⟨hstands, hpath, hkept⟩
  · have hstands := hverdict hk hnew
    rw [htree (.inr (.inl hk))] at hkept ⊢
    exact ⟨hstands, hkept⟩
  · have hstands := hsync hk
    rw [htree (.inr (.inr (.inl hk)))] at hkept ⊢
    exact ⟨hstands, hkept⟩
  · have hstands := hresume hk
    rw [htree (.inr (.inr (.inr hk)))] at hkept ⊢
    exact ⟨hstands, hkept⟩
  all_goals
    obtain ⟨n, hcasc⟩ := hnoted.casc
    have hsched := scheduled_takeMessage (m := withOffset m off) t (hnoted.synced.trans hs) (hnoted.adopts.trans ha)
      (by rw [hcasc]; exact hn) hk
    rw [← htree hk] at hsched
  · have hlog := onlyLog_noteLate (passedOn s q f m off residence t) (withOffset m off)
    refine sends_of_later (passedOn_out q f m off residence t hr hc) ?_ fun p x hx => ?_
    · rw [hsched.out]
      exact (keeps_noteLate _ (withOffset m off) (keeps_refl _) (covers_allBut (q := .esz) rfl)).out
    · rw [port_congr (hsched.ports.trans (ports_of_onlyLog hlog))]
      exact hx
  · obtain ⟨hbit, hword⟩ := noteLate_logged (m := withOffset m off) hlate
      (passedOn_reg s q f m off residence t (o := Reg.errLogHead) (notCredit_high (by decide)))
    exact ⟨hsched.late.trans hbit, (hsched.log _ (Nat.mod_lt _ (by decide))).trans hword⟩

/-- Settles O36: a frame that is next in order acts through `takeControl` (`frames_act`), whose messages of the tree go on and are scheduled
(`treeMessage_taken`). -/
theorem controlMessagesAreScheduled : Obligations.ControlMessagesAreScheduled := by
  unfold Obligations.ControlMessagesAreScheduled
  refine ⟨fun q residence t f r s h hr ht hv => frames_act q residence t f r s h hr ht hv, ?_, fun t w cur rest s hp hw hd ht =>
    verdictLate_holds hp hw hd ht⟩
  intro q residence t f m r s v hr hm hd hans hi ha hn hs hv off ho
  exact treeMessage_taken hr hm hd hans hi ha hn hs hv ho

end Sys2Proof.Laws

/-! # The order of an array op's sums, and O24 -/

namespace Sys2Proof.Laws

open Sys2Proof Sys2Proof.Machine

/-! ### Chains and groups (R142, R217) -/

/-- A chain over indexed terms: the first as it is, then the others in ascending order. -/
def chainOf (f : Nat → Word) (n : Nat) : Word := (List.range n).foldl (fun y k => addRne y (f (k + 1))) (f 0)

theorem foldl_tail_range (f : Nat → Word) (n : Nat) :
    ((List.range n).map fun k => f (k + 1)).foldl addRne (f 0) = chainOf f n := List.foldl_map

theorem map_range_cons (f : Nat → Word) {n : Nat} (h : 0 < n) :
    (List.range n).map f = f 0 :: (List.range (n - 1)).map fun k => f (k + 1) := by
  obtain ⟨m, rfl⟩ : ∃ m, n = m + 1 := ⟨n - 1, by omega⟩
  rw [List.range_succ_eq_map, List.map_cons, List.map_map]
  rfl

theorem chain_map_range (f : Nat → Word) {n : Nat} (h : 0 < n) : chain ((List.range n).map f) = chainOf f (n - 1) := by
  rw [map_range_cons f h]
  exact foldl_tail_range f (n - 1)

/-- With one running sum, groups are added one after another. -/
theorem combine_some (g : Nat) (r : Word) (ps : List Word) : combine (fun _ => addRne) g (some r) ps = ps.foldl addRne r := by
  induction ps generalizing g r with
  | nil => rfl
  | cons p ps ih => exact ih (g + 1) (addRne r p)

theorem combine_map_range (f : Nat → Word) (n : Nat) :
    combine (fun _ => addRne) 0 none ((List.range n).map f) = if n = 0 then 0 else chainOf f (n - 1) := by
  by_cases h : n = 0
  · rw [if_pos h, h]
    rfl
  · rw [if_neg h, map_range_cons f (Nat.pos_of_ne_zero h)]
    exact (combine_some 1 (f 0) _).trans (foldl_tail_range f (n - 1))

/-- Group `g` of `n` indexed terms. -/
theorem chunksOf_map_range {α : Type} (f : Nat → α) (n : Nat) :
    chunksOf 64 ((List.range n).map f) =
      (List.range ((n + 63) / 64)).map fun g => (List.range (min 64 (n - 64 * g))).map fun k => f (64 * g + k) := by
  unfold chunksOf
  rw [if_neg (by decide), List.length_map, List.length_range]
  refine List.map_congr_left fun g _ => List.ext_getElem (by simp) fun k _ _ => by simp

/-- One pass in the reference order: every group of 64 is a chain, and the groups are added in ascending order. -/
theorem reduceTerms_one_pass (f : Nat → Fp × Fp) (n : Nat) :
    reduceTerms (fun _ => addRne) [(List.range n).map f] =
      if n = 0 then 0 else
        chainOf (fun g => chainOf (fun k => term (f (64 * g + k)).1 (f (64 * g + k)).2) (min 64 (n - 64 * g) - 1)) ((n + 63) / 64 - 1) := by
  have hgroups : (chunksOf 64 ((List.range n).map f)).map (fun g => chain (g.map fun x : Fp × Fp => term x.1 x.2)) =
      (List.range ((n + 63) / 64)).map fun g =>
        chainOf (fun k => term (f (64 * g + k)).1 (f (64 * g + k)).2) (min 64 (n - 64 * g) - 1) := by
    rw [chunksOf_map_range, List.map_map]
    refine List.map_congr_left fun g hg => ?_
    have hpos : 0 < min 64 (n - 64 * g) := by
      have := List.mem_range.mp hg
      omega
    rw [Function.comp_apply, List.map_map]
    exact chain_map_range _ hpos
  rw [reduceTerms, List.flatMap_singleton, hgroups, combine_map_range]
  have hzero : (n + 63) / 64 = 0 ↔ n = 0 := by omega
  simp only [hzero]

/-! ### The outputs of a REAL op (R153, R158) -/

/-- The sum of an output before its bias. -/
def outputSum (d : ArrDesc) (o : Operands) (i j : Nat) : Word := reduceTerms (fun _ => addRne) (d.passTerms o i j)

theorem compute_output {d : ArrDesc} {x : ArrCtx} (o : Operands) (bias : Bytes) {i j : Nat} (h1 : d.opcode = 1)
    (hsr : d.drainSr x = false) (hi : i < d.m) (hj : j < d.n) :
    ((d.compute x o bias).rows.getD i []).getD j 0 =
      if d.hasBias then addRne (outputSum d o i j) (wordAt bias (4 * j)) else outputSum d o i j := by
  have hrows : d.outRows = d.m := if_neg (by rw [h1]; decide)
  simp only [ArrDesc.compute, hsr, hrows, h1, Bool.false_eq_true, if_false, List.map_map, List.getD_eq_getElem?_getD, List.getElem?_map,
    List.getElem?_range hi, List.getElem?_range hj, Option.map_some, Option.getD_some, Function.comp_apply]
  simp [outputSum]

theorem passTerms_real {d : ArrDesc} (o : Operands) (i j : Nat) (h1 : d.opcode = 1) :
    d.passTerms o i j = [(List.range d.k).map fun k =>
      (d.statAt (o.stat.getD 0 { rows := [], scales := [] }) k j, d.strmAt (o.strm.getD 0 { rows := [], scales := [] }) i k)] := by
  simp only [ArrDesc.passTerms, h1]
  rfl

/-- Settles O24: a REAL op reduces one pass of its terms in the reference order, and adds the bias last. -/
theorem sumsFollowTheReferenceOrder : Obligations.SumsFollowTheReferenceOrder := by
  unfold Obligations.SumsFollowTheReferenceOrder
  intro d x o bias i j h1 hsr hi hj
  rw [compute_output o bias h1 hsr hi hj, outputSum, passTerms_real o i j h1, reduceTerms_one_pass]
  by_cases hk : d.k = 0
  · simp [hk]
  · simp only [if_neg hk]
    rfl

end Sys2Proof.Laws

/-! # Instructions that only change the engine's registers: O14 and O16 -/

namespace Sys2Proof.Laws

open Sys2Proof Sys2Proof.Machine

/-! ### What a register-only instruction writes -/

/-- Under the row of its opcode the instruction writes the lanes `f` of vector register D. -/
def WritesLanes (l : Nat) (r : RunSlot) (i : VInstr) (s : State) (c : Instr) (f : Nat → Word) : Prop :=
  ∃ w, exec c s = .next (s.vecDone l r w) ∧ laneWrite i f (s.vec (s.physOf l)) w

/-- Under the row of its opcode the instruction writes `x` to scalar register D. -/
def WritesScalar (l : Nat) (r : RunSlot) (i : VInstr) (s : State) (c : Instr) (x : DWord) : Prop :=
  ∃ w, exec c s = .next (s.vecDone l r w) ∧ scalarWrite i.d x (s.vec (s.physOf l)) w

section
variable {s : State} {l opc : Nat} {r : RunSlot} {i : VInstr} {c : Instr} {g : VInstr → VecSt → VecSt}

theorem writesLanes_of_setV (h : s.atVec l opc r i) (he : exec c s = .next (regStep opc l g s)) {x : List Word} {f : Nat → Word}
    (hg : g i (s.vec (s.physOf l)) = (s.vec (s.physOf l)).setV i x) (hx : ∀ n, n < 128 → x.getD n 0 = f n) : WritesLanes l r i s c f :=
  ⟨_, by rw [he, regStep_at h, hg], setV_laneWrite _ _ _ _ hx⟩

theorem writesLanes_of_map (h : s.atVec l opc r i) (he : exec c s = .next (regStep opc l g s)) {f : Nat → Word}
    (hg : g i (s.vec (s.physOf l)) = (s.vec (s.physOf l)).setV i ((List.range 128).map f)) : WritesLanes l r i s c f :=
  writesLanes_of_setV h he hg fun _ hn => getD_lanes f hn

theorem writesScalar_of_setS (h : s.atVec l opc r i) (he : exec c s = .next (regStep opc l g s)) {x : DWord}
    (hg : g i (s.vec (s.physOf l)) = (s.vec (s.physOf l)).setS i.d x) : WritesScalar l r i s c x :=
  ⟨_, by rw [he, regStep_at h, hg], setS_scalarWrite _ _ _⟩

/-- R228: lane 0 takes the result of a reduction, the others +0. -/
theorem writesLanes_of_reduce {op : Word → Word → Word} (h : s.atVec l opc r i) (he : exec c s = .next (regStep opc l (reduceLanes op) s)) :
    WritesLanes l r i s c fun n => if n = 0 then laneTree op ((s.vec (s.physOf l)).vreg i.a) else 0 := by
  refine writesLanes_of_setV h he rfl fun n hn => ?_
  cases n with
  | zero => rfl
  | succ n => exact List.getD_replicate _ (by omega)

/-- The same value in every lane. -/
theorem writesLanes_of_replicate (h : s.atVec l opc r i) (he : exec c s = .next (regStep opc l g s)) {x : Word}
    (hg : g i (s.vec (s.physOf l)) = (s.vec (s.physOf l)).setV i (List.replicate 128 x)) : WritesLanes l r i s c fun _ => x :=
  writesLanes_of_setV h he hg fun _ hn => List.getD_replicate _ hn

end

/-- Settles O14: one masked write of register D for each instruction. -/
theorem vectorLanesAreWritten : Obligations.VectorLanesAreWritten := by
  unfold Obligations.VectorLanesAreWritten
  intro l opc c f r i s h hc
  let holds (z : Instr × Nat × (Nat → Word)) : Prop := s.atVec l z.2.1 r i → WritesLanes l r i s z.1 z.2.2
  refine (?_ : ∀ z ∈ _, holds z) _ hc h
  simp only [List.forall_mem_cons, holds]
  exact ⟨fun h => writesLanes_of_map h rfl rfl, fun h => writesLanes_of_map h rfl rfl, fun h => writesLanes_of_map h rfl rfl,
    fun h => writesLanes_of_map h rfl rfl, fun h => writesLanes_of_map h rfl rfl, fun h => writesLanes_of_map h rfl rfl,
    fun h => writesLanes_of_map h rfl rfl, fun h => writesLanes_of_map h rfl rfl, fun h => writesLanes_of_map h rfl rfl,
    fun h => writesLanes_of_map h rfl rfl, fun h => writesLanes_of_reduce h rfl, fun h => writesLanes_of_reduce h rfl,
    fun h => writesLanes_of_reduce h rfl, fun h => writesLanes_of_map h rfl rfl, fun h => writesLanes_of_map h rfl rfl,
    fun h => writesLanes_of_map h rfl rfl, fun h => writesLanes_of_map h rfl rfl, fun h => writesLanes_of_map h rfl rfl,
    fun h => writesLanes_of_map h rfl rfl, fun h => writesLanes_of_map h rfl rfl, fun h => writesLanes_of_replicate h rfl rfl,
    fun h => writesLanes_of_replicate h rfl rfl, fun _ hz => nomatch hz⟩

/-! ### The scalar unit -/

theorem imm_lt_of_atVec {s : State} {l opc : Nat} {r : RunSlot} {i : VInstr} (h : s.atVec l opc r i) : i.imm < 2 ^ 24 := by
  obtain ⟨-, rfl, -⟩ := h
  exact Nat.mod_lt _ (by decide)

/-- The mask of SLUI covers bits [47:24]. -/
theorem getLsbD_sluiMask : ∀ k < 64, (0xFFFFFF000000#64).getLsbD k = decide (24 ≤ k ∧ k < 48) := by decide

/-- SLUI replaces the field [47:24]. -/
theorem slui_field (x : DWord) {imm : Nat} (h : imm < 2 ^ 24) :
    BitVec.ofNat 64 (x.toNat - x.toNat / 2 ^ 24 % 2 ^ 24 * 2 ^ 24 + imm * 2 ^ 24) =
      (x &&& ~~~0xFFFFFF000000#64) ||| (BitVec.ofNat 64 imm <<< 24) := by
  refine BitVec.eq_of_getLsbD_eq fun k hk => ?_
  have hfield := testBit_field x.toNat 24 24 imm k
  rw [Nat.mod_eq_of_lt h, Nat.shiftRight_eq_div_pow] at hfield
  rw [BitVec.getLsbD_ofNat, hfield, BitVec.getLsbD_or, BitVec.getLsbD_and, BitVec.getLsbD_not, getLsbD_sluiMask k hk,
    BitVec.getLsbD_shiftLeft, BitVec.getLsbD_ofNat]
  by_cases h24 : k < 24
  · rw [if_neg (by omega)]
    simp [hk, h24, show ¬24 ≤ k by omega, BitVec.getLsbD]
  · by_cases h48 : k < 48
    · rw [if_pos (by omega)]
      simp [hk, h24, h48, show 24 ≤ k by omega, show k - 24 < 64 by omega]
    · have himm : imm.testBit (k - 24) = false :=
        Nat.testBit_lt_two_pow (Nat.lt_of_lt_of_le h (Nat.pow_le_pow_right (by decide) (by omega)))
      rw [if_neg (by omega)]
      simp [hk, h24, h48, himm, BitVec.getLsbD]

/-- Settles O16: one write of scalar register D for each instruction. -/
theorem scalarRegistersAreWritten : Obligations.ScalarRegistersAreWritten := by
  unfold Obligations.ScalarRegistersAreWritten
  intro l opc c x r i s h hc
  let holds (z : Instr × Nat × DWord) : Prop := s.atVec l z.2.1 r i → WritesScalar l r i s z.1 z.2.2
  refine (?_ : ∀ z ∈ _, holds z) _ hc h
  simp only [List.forall_mem_cons, holds]
  exact ⟨fun h => writesScalar_of_setS h rfl rfl,
    fun h => writesScalar_of_setS h rfl (congrArg _ (slui_field _ (imm_lt_of_atVec h))),
    fun h => writesScalar_of_setS h rfl rfl, fun h => writesScalar_of_setS h rfl rfl, fun h => writesScalar_of_setS h rfl rfl,
    fun h => writesScalar_of_setS h rfl rfl, fun h => writesScalar_of_setS h rfl rfl, fun h => writesScalar_of_setS h rfl rfl,
    fun h => writesScalar_of_setS h rfl rfl, fun h => writesScalar_of_setS h rfl rfl, fun h => writesScalar_of_setS h rfl rfl,
    fun h => writesScalar_of_setS h rfl rfl, fun _ hz => nomatch hz⟩

end Sys2Proof.Laws

/-! # Conversion, comparison, scales and the input queue: O15 -/

namespace Sys2Proof.Laws

open Sys2Proof Sys2Proof.Machine

/-! ### VCVT (R208 to R211) -/

theorem length_flatMap_range {α : Type} {q m : Nat} {f : Nat → List α} (hf : ∀ k < m, (f k).length = q) :
    ((List.range m).flatMap f).length = q * m := by
  rw [List.length_flatMap, List.map_congr_left fun k hk => hf k (List.mem_range.mp hk)]
  simp [Nat.mul_comm]

/-- The values of a row of lists of one length. -/
theorem getD_flatMap_range {α : Type} {q m n : Nat} {f : Nat → List α} (d : α) (hf : ∀ k < m, (f k).length = q) (hn : n < q * m) :
    ((List.range m).flatMap f).getD n d = (f (n / q)).getD (n % q) d := by
  induction m with
  | zero => omega
  | succ m ih =>
    have hf' : ∀ k < m, (f k).length = q := fun k hk => hf k (by omega)
    rw [List.range_succ, List.flatMap_append, List.flatMap_singleton]
    by_cases h : n < q * m
    · rw [List.getD_append _ _ _ _ (by rwa [length_flatMap_range hf']), ih hf' h]
    · have hq : n / q = m := Nat.div_eq_of_lt_le (by rw [Nat.mul_comm]; omega) (by rw [Nat.mul_comm]; exact hn)
      have hr : n % q = n - q * m := by rw [Nat.mod_eq_sub_mul_div, hq]
      rw [List.getD_append_right _ _ _ _ (by rw [length_flatMap_range hf']; omega), length_flatMap_range hf', hq, hr]

theorem convertBlock_codes_length (z8 : Bool) (scale : Nat) (srcs : List Fp) : (convertBlock z8 scale srcs).codes.length = srcs.length := by
  unfold convertBlock
  dsimp only
  split <;> simp

theorem isBlockFmt_of_lt {f : Nat} (h : 3 ≤ f) (h4 : f ≤ 4) : isBlockFmt f = true := by
  unfold isBlockFmt
  rw [decide_eq_true_eq]
  omega

theorem getD_map_lt {α β : Type} (g : α → β) (l : List α) {n : Nat} (a : α) (b : β) (h : n < l.length) :
    (l.map g).getD n b = g (l.getD n a) := by
  simp [List.getD_eq_getElem?_getD, h]

/-- A lane converted to FP32, BF16 or FP16 and back. -/
def plainLane (f : Nat) (x : Word) : Word := widen (elemValue (operandFmt f) 0 (convert (vecFmt f) 0 (fp32 x)).code)

/-- Lane `n` of a register converted in blocks and back. -/
def blockLane (v : VecSt) (f : Nat) (x : List Word) (n : Nat) : Word :=
  widen (elemValue (operandFmt f) (v.block f (n / 32) x).scale ((v.block f (n / 32) x).codes.getD (n % 32) 0))

theorem convertLanes_plain (v : VecSt) (i : VInstr) (h : i.fmt ≤ 2) :
    convertLanes i v = v.setV i ((List.range 128).map fun n => plainLane i.fmt (v.at i.a n)) := by
  simp only [convertLanes, isBlockFmt_eq_false h, Bool.false_eq_true, if_false, List.map_map]
  rfl

theorem convertLanes_block (v : VecSt) (i : VInstr) (h3 : 3 ≤ i.fmt) (h4 : i.fmt ≤ 4) :
    convertLanes i v = v.setV i ((List.range 4).flatMap fun k =>
      let b := v.block i.fmt k ((List.range 128).map (v.at i.a))
      b.codes.map fun c => widen (elemValue (operandFmt i.fmt) b.scale c)) := by
  simp only [convertLanes, isBlockFmt_of_lt h3 h4, if_true]

theorem block_codes_length (v : VecSt) (f : Nat) {k : Nat} (hk : k < 4) (g : Nat → Word) :
    (v.block f k ((List.range 128).map g)).codes.length = 32 := by
  unfold VecSt.block
  rw [convertBlock_codes_length, List.length_map, List.length_take, List.length_drop, List.length_map, List.length_range]
  omega

theorem vcvt_plain {s : State} {l : Nat} {r : RunSlot} {i : VInstr} (h : s.atVec l 0x20 r i) (hf : i.fmt ≤ 2) :
    WritesLanes l r i s (.vcvt l) fun n => plainLane i.fmt ((s.vec (s.physOf l)).at i.a n) :=
  writesLanes_of_map (g := convertLanes) h rfl (convertLanes_plain _ i hf)

theorem vcvt_block {s : State} {l : Nat} {r : RunSlot} {i : VInstr} (h : s.atVec l 0x20 r i) (hf : 3 ≤ i.fmt) :
    WritesLanes l r i s (.vcvt l) (blockLane (s.vec (s.physOf l)) i.fmt ((List.range 128).map ((s.vec (s.physOf l)).at i.a))) := by
  refine writesLanes_of_setV (g := convertLanes) h rfl (convertLanes_block _ i hf (fmt_le_of_atVec h)) fun n hn => ?_
  have hlen := fun k hk => block_codes_length (s.vec (s.physOf l)) i.fmt (k := k) hk ((s.vec (s.physOf l)).at i.a)
  rw [getD_flatMap_range (q := 32) 0 (fun k hk => (List.length_map _).trans (hlen k hk)) (by omega)]
  exact getD_map_lt _ _ 0 0 (by rw [hlen _ (by omega)]; omega)

/-! ### VCMP (R215) -/

/-- Bit `n` of a number that is put together bit by bit. -/
theorem testBit_foldl_bits (p : Nat → Bool) (m : Nat) :
    (List.range m).foldl (fun a n => if p n then a + 2 ^ n else a) 0 < 2 ^ m ∧
      ∀ n, ((List.range m).foldl (fun a n => if p n then a + 2 ^ n else a) 0).testBit n = (decide (n < m) && p n) := by
  induction m with
  | zero => simp
  | succ m ih =>
    obtain ⟨hlt, hbit⟩ := ih
    rw [List.range_succ, List.foldl_append, List.foldl_cons, List.foldl_nil, Nat.pow_succ]
    have hlow : ∀ n, n ≠ m → (decide (n < m + 1) && p n) = (decide (n < m) && p n) := fun n hn => by
      simp only [Nat.lt_succ_iff_lt_or_eq, hn, or_false]
    split
    · next hp =>
      refine ⟨by omega, fun n => ?_⟩
      rw [show ∀ a, a + 2 ^ m = 2 ^ m * 1 + a from fun a => by omega, Nat.testBit_two_pow_mul_add 1 hlt]
      by_cases hn : n < m
      · rw [if_pos hn, hbit, hlow n (by omega)]
      · rw [if_neg hn]
        by_cases he : n = m
        · simp [he, hp]
        · rw [hlow n he, Nat.testBit_lt_two_pow (Nat.one_lt_two_pow (by omega))]
          simp [hn]
    · next hp =>
      refine ⟨by omega, fun n => ?_⟩
      rw [hbit]
      by_cases he : n = m
      · simp [he, hp]
      · exact (hlow n he).symm

theorem setM_frame (v : VecSt) (d : Nat) (x : BitVec 128) : v.setM d x = { v with masks := (v.setM d x).masks } := by
  unfold VecSt.setM
  split <;> rfl

theorem mask_setM (v : VecSt) (d : Nat) (x : BitVec 128) (k : Nat) : (v.setM d x).mask k = if k = d ∧ k ≠ 0 then x else v.mask k := by
  unfold VecSt.setM
  by_cases h0 : d = 0
  · rw [if_pos h0, if_neg (by omega)]
  · rw [if_neg h0]
    by_cases hk : k = d
    · subst hk
      simp [VecSt.mask, h0]
    · simp [VecSt.mask, hk, getKey_putKey_ne]

/-- The mask of a comparison: the lanes that the instruction's mask leaves out keep their bits. -/
theorem compareLanes_mask (i : VInstr) (v : VecSt) (k : Nat) {n : Nat} (hn : n < 128) :
    ((compareLanes i v).mask k).getLsbD n =
      if k = i.d ∧ k ≠ 0 ∧ (i.masked = false ∨ (v.mask i.mkr).getLsbD n = true) then cmp32 (i.imm % 8) (v.at i.a n) (v.at i.b n)
      else (v.mask k).getLsbD n := by
  have hlane : v.lane i n = true ↔ i.masked = false ∨ (v.mask i.mkr).getLsbD n = true := by simp [VecSt.lane]
  simp only [compareLanes, mask_setM, ← hlane]
  by_cases hk : k = i.d ∧ k ≠ 0
  · obtain ⟨rfl, h0⟩ := hk
    rw [if_pos ⟨rfl, h0⟩, BitVec.getLsbD_ofNat,
      (testBit_foldl_bits (fun n => if v.lane i n then cmp32 (i.imm % 8) (v.at i.a n) (v.at i.b n) else (v.mask i.d).getLsbD n) 128).2]
    simp [hn, h0]
  · rw [if_neg hk, if_neg fun hc => hk ⟨hc.1, hc.2.1⟩]

theorem exec_vcmp (l : Nat) (s : State) : exec (.vcmp l) s = .next (applyVcmp l s) := rfl

theorem vcmp_compares {s : State} {l : Nat} {r : RunSlot} {i : VInstr} (h : s.atVec l 0x12 r i) :
    exec (.vcmp l) s = .next (s.vecDone l r (compareLanes i (s.vec (s.physOf l)))) := by
  rw [exec_vcmp, applyVcmp, regStep_at h]

/-! ### VSCALE (R241, log 10) -/

theorem exec_vscale (l : Nat) (s : State) : exec (.vscale l) s = .next (applyVscale l s) := rfl

/-- Whether a block of a record counts as listed: only when the record lists one, and then as a free value says. -/
def listedFree (s : State) (id k : Nat) : Bool :=
  (List.range 64).any (fun j => match s.watchAddr (s.numRecord id) with
    | some a => leNat (s.view (a + 0x180 + 4 * j) 4) != 0xFFFFFFFF
    | none => false) && (Config.freeWord s.free k).getLsbD 0

/-- The code that the scale policy gives block `k`. -/
def policyCode (s : State) (l : Nat) (i : VInstr) (k : Nat) : BitVec 8 :=
  let v := s.vec (s.physOf l)
  let id := (v.sreg i.b).toNat % 65536
  BitVec.ofNat 8 (s.policyScale id (i.fmt == 3) (v.at i.a (32 * k)) (some (v.scales.getD k 0).toNat) (listedFree s id k))

theorem vscale_scales {s : State} {l : Nat} {r : RunSlot} {i : VInstr} (h : s.atVec l 0x29 r i) :
    exec (.vscale l) s = .next (({ s with free := s.free + 1 } : State).vecDone l r
      { s.vec (s.physOf l) with scales := (List.range 4).map (policyCode s l i) }) := by
  rw [exec_vscale, applyVscale, vecStep_at h, ← load_goes_on (t := { s with free := s.free + 1 }) h ⟨fun _ => rfl, rfl, rfl⟩]
  dsimp only
  rw [vecCtx_phys]
  rfl

/-! ### VQPOP (R177) -/

theorem exec_vqpop (l : Nat) (s : State) : exec (.vqpop l) s = .next (applyVqpop l s) := rfl

theorem vqpop_waits {s : State} {l : Nat} {r : RunSlot} {i : VInstr} (h : s.atVec l 0x4A r i)
    (hq : (s.vec (s.physOf l)).queue.length < 128) : exec (.vqpop l) s = .next s := by
  rw [exec_vqpop, applyVqpop, vecStep_at h]
  dsimp only
  rw [vecCtx_phys, if_pos hq]

theorem vqpop_pops {s : State} {l : Nat} {r : RunSlot} {i : VInstr} (h : s.atVec l 0x4A r i)
    (hq : 128 ≤ (s.vec (s.physOf l)).queue.length) :
    exec (.vqpop l) s = .next (s.vecDone l r
      { (s.vec (s.physOf l)).setV i ((s.vec (s.physOf l)).queue.take 128) with queue := (s.vec (s.physOf l)).queue.drop 128 }) := by
  rw [exec_vqpop, applyVqpop, vecStep_at h, ← load_goes_on h (readKeeps_refl s)]
  dsimp only
  rw [vecCtx_phys, if_neg (Nat.not_lt.mpr hq)]
  rfl

theorem getD_take {α : Type} (xs : List α) (d : α) {m n : Nat} (h : n < m) : (xs.take m).getD n d = xs.getD n d := by
  simp [List.getD_eq_getElem?_getD, h]

/-! ### O15 -/

/-- Settles O15: VCVT by the two kinds of format, VCMP bit by bit, VSCALE with its free value, VQPOP by the queue's length. -/
theorem convertCompareScaleAndPop : Obligations.ConvertCompareScaleAndPop := by
  unfold Obligations.ConvertCompareScaleAndPop
  intro l r i s
  refine ⟨fun h => ?_, fun h => ⟨_, vcmp_compares h, setM_frame _ _ _, fun k n hn => compareLanes_mask i _ k hn⟩,
    fun h => ⟨_, listedFree s (((s.vec (s.physOf l)).sreg i.b).toNat % 65536), vscale_scales h, rfl, by simp,
      fun k hk => by simp [List.getD_eq_getElem?_getD, List.getElem?_range hk]; rfl⟩,
    vqpop_waits, fun h hq => ⟨_, vqpop_pops h hq, rfl, setV_laneWrite _ _ _ _ fun n hn => getD_take _ _ hn⟩⟩
  by_cases hf : i.fmt ≤ 2
  · simp only [if_pos hf]
    exact vcvt_plain h hf
  · simp only [if_neg hf]
    exact vcvt_block h (by omega)

end Sys2Proof.Laws

/-! # Stores of the vector engine, and O18 -/

namespace Sys2Proof.Laws

open Sys2Proof Sys2Proof.Machine

/-! ### The slot that a unit runs -/

theorem ended_of_runOf {s : State} {u : UnitId} {r : RunSlot} (h : s.runOf u = some r) : r.ended = false := by
  unfold State.runOf at h
  split at h
  · split at h
    · cases h
    · next he =>
      cases h
      simpa using he
  · cases h

theorem runOf_setUnit (s : State) (u : UnitId) (x : UnitSt) {r : RunSlot} (hr : x.run = some r) (he : r.ended = false) :
    (s.setUnit u x).runOf u = some r := by
  simp only [State.runOf, unit_setUnit_same s x rfl, hr, he]
  rfl

theorem runOf_goesTo (s : State) (l : Nat) {r : RunSlot} (p : Nat) (he : r.ended = false) :
    (s.goesTo l r p).runOf (vectorUnit l) = some { r with ptr := p, ordinal := r.rankAt p, wait := none } :=
  runOf_setUnit s _ _ rfl he

/-! ### Core memory (R131, R185) -/

theorem coreLoc_congr {s t : State} (h : t.regs = s.regs) (l off : Nat) : t.coreLoc l off = s.coreLoc l off := by
  unfold State.coreLoc
  rw [bit_of_reg (reg_congr h _), fld_of_reg (reg_congr h _), fld_of_reg (reg_congr h _)]

/-- Where core-local address `off` of a mapped logical core lies. -/
def coreCell (s : State) (l off : Nat) : Loc :=
  if s.fld (Reg.coreMap l) 9 8 = 3 then .comb (l / 16) (combGuest + off) else .sram (s.fld (Reg.coreMap l) 6 0) off

theorem coreLoc_some {s : State} {l off : Nat} {x : Loc} (h : s.coreLoc l off = some x) : x = coreCell s l off := by
  simp only [State.coreLoc, Option.ite_none_right_eq_some] at h
  obtain ⟨-, -, h⟩ := h
  unfold coreCell
  split at h
  · next hg => rw [if_pos hg, Option.some.inj h]
  · next hg => rw [if_neg hg, Option.some.inj h]

theorem coreCell_memory (s : State) (l off : Nat) : (cellOf (coreCell s l off)).1 ≠ 3 := by
  unfold coreCell
  split
  · exact (by decide : 1 ≠ 3)
  · exact (by decide : 2 ≠ 3)

/-- Offsets of one logical core lie in cells of their own. -/
theorem coreCell_inj {s : State} {l o p : Nat} (h : cellOf (coreCell s l o) = cellOf (coreCell s l p)) : o = p := by
  unfold coreCell at h
  split at h
  all_goals
    simp only [cellOf, Loc.key, Prod.mk.injEq] at h
    omega

theorem mem_corePlaces {s : State} {l off n : Nat} {x : Loc} :
    x ∈ (s.corePlaces l off n).filterMap id ↔ ∃ k < n, s.coreLoc l (off + k) = some x := by
  simp [State.corePlaces]

/-- Everything but device memory is the same. -/
def OnlyMemory (s t : State) : Prop := ∃ d c m, t = { s with dram := d, comb := c, sram := m }

theorem OnlyMemory.trans {s t u : State} (h : OnlyMemory s t) (g : OnlyMemory t u) : OnlyMemory s u := by
  obtain ⟨_, _, _, rfl⟩ := h
  obtain ⟨d, c, m, rfl⟩ := g
  exact ⟨d, c, m, rfl⟩

theorem onlyMemory_poke (s : State) (x : Loc) (v : Byte) : OnlyMemory s (s.poke x v) := by
  cases x <;> exact ⟨_, _, _, rfl⟩

/-- One byte of a core-local write. -/
def coreByte (s : State) (l off : Nat) (v : Byte) : State :=
  match s.coreLoc l off with
  | some x => s.poke x v
  | none => s

theorem coreWrite_cons (s : State) (l off : Nat) (v : Byte) (b : Bytes) :
    s.coreWrite l off (v :: b) = (coreByte s l off v).coreWrite l (off + 1) b := rfl

theorem onlyMemory_coreByte (s : State) (l off : Nat) (v : Byte) : OnlyMemory s (coreByte s l off v) := by
  unfold coreByte
  split
  · exact onlyMemory_poke s _ v
  · exact ⟨_, _, _, rfl⟩

theorem onlyMemory_coreWrite (s : State) (l off : Nat) (b : Bytes) : OnlyMemory s (s.coreWrite l off b) := by
  induction b generalizing s off with
  | nil => exact ⟨_, _, _, rfl⟩
  | cons v b ih => exact (onlyMemory_coreByte s l off v).trans (ih _ _)

theorem OnlyMemory.regs {s t : State} (h : OnlyMemory s t) : t.regs = s.regs := by
  obtain ⟨_, _, _, rfl⟩ := h
  rfl

theorem OnlyMemory.units {s t : State} (h : OnlyMemory s t) : t.units = s.units := by
  obtain ⟨_, _, _, rfl⟩ := h
  rfl

theorem OnlyMemory.cores {s t : State} (h : OnlyMemory s t) : t.cores = s.cores := by
  obtain ⟨_, _, _, rfl⟩ := h
  rfl

theorem coreByte_peek_self {s : State} {l off : Nat} {x : Loc} (v : Byte) (h : s.coreLoc l off = some x) :
    (coreByte s l off v).peek x = v := by
  simp only [coreByte, h]
  rw [coreLoc_some h]
  exact peek_poke_self s (coreCell_memory s l off) v

theorem coreByte_peek_ne {s : State} {l off : Nat} {y : Loc} (v : Byte) (h : ∀ x, s.coreLoc l off = some x → cellOf y ≠ cellOf x) :
    (coreByte s l off v).peek y = s.peek y := by
  unfold coreByte
  split
  · next x hx => exact peek_poke_ne s v (h x hx)
  · rfl

theorem coreWrite_peek_ne {s : State} {l off : Nat} {b : Bytes} {y : Loc}
    (h : ∀ k < b.length, ∀ x, s.coreLoc l (off + k) = some x → cellOf y ≠ cellOf x) : (s.coreWrite l off b).peek y = s.peek y := by
  induction b generalizing s off with
  | nil => rfl
  | cons v b ih =>
    have hloc := fun o => coreLoc_congr (onlyMemory_coreByte s l off v).regs l o
    rw [coreWrite_cons, ih fun k hk x hx => h (k + 1) (Nat.succ_lt_succ hk) x (by rw [← hloc, ← hx, Nat.add_right_comm, Nat.add_assoc])]
    exact coreByte_peek_ne v (h 0 (Nat.succ_pos _))

theorem coreWrite_peek {s : State} {l off k : Nat} {b : Bytes} {x : Loc} (hk : k < b.length) (hx : s.coreLoc l (off + k) = some x) :
    (s.coreWrite l off b).peek x = b.getD k 0 := by
  induction b generalizing s off k with
  | nil => cases hk
  | cons v b ih =>
    have hloc := fun o => coreLoc_congr (onlyMemory_coreByte s l off v).regs l o
    rw [coreWrite_cons]
    cases k with
    | zero =>
      rw [coreWrite_peek_ne fun k _ y hy he => by
        rw [hloc] at hy
        rw [coreLoc_some hx, coreLoc_some hy] at he
        have := coreCell_inj he
        omega]
      exact coreByte_peek_self v hx
    | succ k => exact ih (Nat.lt_of_succ_lt_succ hk) (by rw [hloc, ← hx, Nat.add_right_comm, Nat.add_assoc])

/-- A core-local write stores its bytes and no other. -/
theorem coreStored_coreWrite (s : State) (l off : Nat) (b : Bytes) : coreStored l off b s (s.coreWrite l off b) := by
  refine ⟨fun k x hk hx => coreWrite_peek hk hx, fun y hy => coreWrite_peek_ne fun k hk x hx he => hy ?_⟩
  exact List.mem_map.mpr ⟨x, mem_corePlaces.mpr ⟨k, hk, hx⟩, he.symm⟩

theorem coreStored_of_peek {l off : Nat} {b : Bytes} {s t u : State} (h : coreStored l off b s t) (hp : ∀ x, u.peek x = t.peek x) :
    coreStored l off b s u := by
  obtain ⟨hin, hout⟩ := h
  exact ⟨fun k x hk hx => (hp x).trans (hin k x hk hx), fun x hx => (hp x).trans (hout x hx)⟩

theorem loadForbidden_of_store {a n : Nat} (h : storeForbidden a n = false) : loadForbidden a n = false := by
  simp only [storeForbidden, loadForbidden, Bool.and_eq_false_iff, Bool.or_eq_false_iff, decide_eq_false_iff_not] at h ⊢
  omega

/-! ### SST -/

theorem exec_sst (l : Nat) (s : State) : exec (.sst l) s = .next (applySst l s) := rfl

/-- The address of SST and SLD. -/
def sstAddr (s : State) (l : Nat) (i : VInstr) : Nat := vecAddr ((s.vec (s.physOf l)).sreg i.a) i.simm

theorem applySst_at {s : State} {l : Nat} {r : RunSlot} {i : VInstr} (h : s.atVec l 0x8C r i) {a : Nat} (ha : a = sstAddr s l i) :
    applySst l s =
      if s.vecCanWrite (s.vecCtx l r i) a 8 then
        (s.vecWrite (s.vecCtx l r i) a (leBytes 8 ((s.vec (s.physOf l)).sreg i.b).toNat)).nextInstr (s.vecCtx l r i)
      else s.progFault (s.vecCtx l r i).c := by
  unfold applySst
  rw [vecStep_at h, ha]
  dsimp only
  rw [vecCtx_phys]
  rfl

theorem vecCanWrite_core {s : State} (x : VecCtx) {a n : Nat} (hd : isDevice a = false) :
    s.vecCanWrite x a n = !storeForbidden a n := by
  simp only [State.vecCanWrite, hd, Bool.false_eq_true, if_false]

theorem vecWrite_core {s : State} (x : VecCtx) {a : Nat} (b : Bytes) (hd : isDevice a = false) :
    s.vecWrite x a b = s.coreWrite x.r.core a b := by
  simp only [State.vecWrite, hd, Bool.false_eq_true, if_false]

theorem vecWrite_device {s : State} {l : Nat} {r : RunSlot} {i : VInstr} {a : Nat} (b : Bytes) (hd : isDevice a = true) :
    s.vecWrite (s.vecCtx l r i) a b = s.store (.vector (s.physOf l)) (a % 2 ^ 48) b := by
  simp only [State.vecWrite, hd, if_true, vecCtx_phys]
  rfl

/-- An instruction whose effect leaves the units alone goes on. -/
theorem nextInstr_of_units {s t : State} {l opc : Nat} {r : RunSlot} {i : VInstr} (h : s.atVec l opc r i) (ht : t.units = s.units) :
    t.nextInstr (s.vecCtx l r i) = t.goesTo l r (r.ptr + 8) := by
  refine nextInstr_at h ?_
  have hunit : t.unit (vectorUnit l) = s.unit (vectorUnit l) := by simp only [State.unit, ht]
  rw [hunit]
  exact isSome_of_runOf h.1

theorem sst_stores {s : State} {l : Nat} {r : RunSlot} {i : VInstr} (h : s.atVec l 0x8C r i) {a : Nat} (ha : a = sstAddr s l i)
    (hd : isDevice a = false) (hf : storeForbidden a 8 = false) :
    exec (.sst l) s = .next ((s.coreWrite r.core a (leBytes 8 ((s.vec (s.physOf l)).sreg i.b).toNat)).goesTo l r (r.ptr + 8)) := by
  rw [exec_sst, applySst_at h ha, if_pos (by rw [vecCanWrite_core _ hd, hf]; rfl), vecWrite_core _ _ hd,
    nextInstr_of_units h (onlyMemory_coreWrite s _ _ _).units]
  rfl

theorem sst_faults {s : State} {l : Nat} {r : RunSlot} {i : VInstr} (h : s.atVec l 0x8C r i) {a : Nat} (ha : a = sstAddr s l i)
    (hd : isDevice a = false) (hf : storeForbidden a 8 = true) : exec (.sst l) s = .next (s.progFault (s.vecCtx l r i).c) := by
  rw [exec_sst, applySst_at h ha, if_neg (by rw [vecCanWrite_core _ hd, hf]; decide)]

theorem sst_device {s : State} {l : Nat} {r : RunSlot} {i : VInstr} (h : s.atVec l 0x8C r i) {a : Nat} (ha : a = sstAddr s l i)
    (hd : isDevice a = true) (hw : s.vecCanWrite (s.vecCtx l r i) a 8 = true) :
    exec (.sst l) s = .next ((s.store (.vector (s.physOf l)) (a % 2 ^ 48) (leBytes 8 ((s.vec (s.physOf l)).sreg i.b).toNat)).nextInstr
      (s.vecCtx l r i)) := by
  rw [exec_sst, applySst_at h ha, if_pos hw, vecWrite_device _ hd]

theorem goesTo_of_onlyMemory {s t : State} (h : OnlyMemory s t) (l : Nat) (r : RunSlot) (p : Nat) :
    t.goesTo l r p = { s.goesTo l r p with
      dram := (t.goesTo l r p).dram, comb := (t.goesTo l r p).comb, sram := (t.goesTo l r p).sram } := by
  obtain ⟨_, _, _, rfl⟩ := h
  rfl

/-! ### VST (R209, R242) -/

theorem exec_vst (l : Nat) (s : State) : exec (.vst l) s = .next (applyVst l s) := rfl

/-- The bytes that a store of FP32, BF16 or FP16 converts its register to. -/
def plainBytes (v : VecSt) (i : VInstr) : Bytes :=
  packCodes (vecFmt i.fmt) ((v.vreg i.a).map fun y => (convert (vecFmt i.fmt) 0 (fp32 y)).code)

/-- The blocks that a store of ZF8 or ZF4 converts its register to. -/
def storeBlocks (v : VecSt) (i : VInstr) : List Block := (List.range 4).map fun k => v.block i.fmt k (v.vreg i.a)

/-- What memory holds where a masked store goes; where it cannot be read, and for a store without a mask, the new bytes. -/
def bytesUnder (s : State) (x : VecCtx) (a : Nat) (new : Bytes) : Bytes :=
  if x.i.masked then (match s.vecRead x a new.length with
    | some (b, _) => b
    | none => new) else new

/-- The address of VST. -/
def vstAddr (s : State) (l : Nat) (i : VInstr) : Nat := vecAddr ((s.vec (s.physOf l)).sreg i.b) i.simm

/-- A store of FP32, BF16 or FP16: the bytes go to memory, the watch is fed, and the slot goes on. -/
theorem vst_plain {s : State} {l : Nat} {r : RunSlot} {i : VInstr} (h : s.atVec l 0x49 r i) (hf : i.fmt ≤ 2) {a : Nat} {b : Bytes}
    (ha : a = vstAddr s l i) (hb : b = plainBytes (s.vec (s.physOf l)) i) :
    ∃ dl, exec (.vst l) s =
      let v := s.vec (s.physOf l)
      let x := s.vecCtx l r i
      .next (if s.vecCanWrite x a b.length then
        ((s.vecWrite x a (mergeMasked v i b (bytesUnder s x a b))).feed (r.core / 32) (some r.beat)
          ((v.sreg i.d).toNat % 65536) dl).nextInstr x
      else s.progFault x.c) := by
  rw [exec_vst, applyVst, vecStep_at h, ha, hb]
  dsimp only
  rw [vecCtx_phys]
  simp only [show (s.vecCtx l r i).i = i from rfl, isBlockFmt_eq_false hf, Bool.false_eq_true, if_false, Bool.not_false, Bool.true_or,
    Bool.and_true]
  exact ⟨_, rfl⟩

/-- A store of ZF8 or ZF4: the scales follow the codes. -/
theorem vst_block {s : State} {l : Nat} {r : RunSlot} {i : VInstr} (h : s.atVec l 0x49 r i) (hf : 3 ≤ i.fmt) {a : Nat} {b : Bytes}
    {bs : List Block} (ha : a = vstAddr s l i) (hbs : bs = storeBlocks (s.vec (s.physOf l)) i)
    (hb : b = packCodes (vecFmt i.fmt) (bs.flatMap (·.codes))) :
    ∃ dl, exec (.vst l) s =
      let v := s.vec (s.physOf l)
      let x := s.vecCtx l r i
      .next (if s.vecCanWrite x a b.length && s.vecCanWrite x (v.sreg i.c).toNat 4 then
        (((s.vecWrite x a (mergeMasked v i b (bytesUnder s x a b))).vecWrite x (v.sreg i.c).toNat
          (bs.map fun k => BitVec.ofNat 8 k.scale)).feed (r.core / 32) (some r.beat) ((v.sreg i.d).toNat % 65536) dl).nextInstr x
      else s.progFault x.c) := by
  rw [exec_vst, applyVst, vecStep_at h, ha, hb, hbs]
  dsimp only
  rw [vecCtx_phys]
  simp only [show (s.vecCtx l r i).i = i from rfl, isBlockFmt_of_lt hf (fmt_le_of_atVec h), if_true, Bool.not_true, Bool.false_or]
  exact ⟨_, rfl⟩

/-- Without a mask every byte is the new one. -/
theorem mergeMasked_all (v : VecSt) {i : VInstr} (b old : Bytes) (h : i.masked = false) : mergeMasked v i b old = b := by
  have hlane : ∀ n, v.lane i n = true := fun n => by simp [VecSt.lane, h]
  have hnibbles : ∀ y : Byte, (y &&& 0x0F) ||| (y &&& 0xF0) = y := fun y => by
    rw [← BitVec.and_or_distrib_left]
    exact BitVec.and_allOnes
  refine List.ext_getElem (by simp [mergeMasked]) fun n hn hb => ?_
  simp only [mergeMasked, hlane, if_true, hnibbles, ite_self, List.getElem_map, List.getElem_range]
  exact List.getD_eq_getElem _ _ hb

/-- What feeding the watch leaves alone: device memory, the units and the cores. -/
theorem feed_kept (s : State) (hub : Nat) (beat : Option Nat) (id : Nat) (d : WDelta) :
    (s.feed hub beat id d).units = s.units ∧ (s.feed hub beat id d).cores = s.cores ∧ ∀ x, (s.feed hub beat id d).peek x = s.peek x := by
  unfold State.feed
  split
  · exact ⟨rfl, rfl, fun _ => rfl⟩
  · split
    · exact ⟨rfl, rfl, fun _ => rfl⟩
    · dsimp only
      unfold State.raiseBeat
      split
      · exact ⟨rfl, rfl, fun _ => rfl⟩
      · rw [raise_logged _ rfl]
        obtain ⟨hframe, -⟩ := onlyLog_logEntry (offs := []) _ _
        rw [hframe]
        exact ⟨rfl, rfl, fun _ => rfl⟩

/-- The registers of an engine, from a state whose cores are those of another. -/
theorem vec_congr {s t : State} (h : t.cores = s.cores) (p : Nat) : t.vec p = s.vec p := by
  simp only [State.vec, h]

/-- A store to core memory that feeds the watch and goes on. -/
theorem coreStore_goes_on {s : State} {l opc : Nat} {r : RunSlot} {i : VInstr} (h : s.atVec l opc r i) (a : Nat) (b : Bytes)
    (hub : Nat) (beat : Option Nat) (id : Nat) (d : WDelta) :
    let t := ((s.coreWrite r.core a b).feed hub beat id d).nextInstr (s.vecCtx l r i)
    coreStored r.core a b s t ∧ t.vec (s.physOf l) = s.vec (s.physOf l) ∧
      t.runOf (vectorUnit l) = some { r with ptr := r.ptr + 8, ordinal := r.rankAt (r.ptr + 8), wait := none } := by
  have hw := onlyMemory_coreWrite s r.core a b
  obtain ⟨hunits, hcores, hpeek⟩ := feed_kept (s.coreWrite r.core a b) hub beat id d
  dsimp only
  rw [nextInstr_of_units h (hunits.trans hw.units)]
  exact ⟨coreStored_of_peek (coreStored_coreWrite s _ _ _) hpeek, vec_congr (hcores.trans hw.cores) _,
    runOf_goesTo _ l _ (ended_of_runOf h.1)⟩

/-- In core memory the lanes that the mask leaves out keep what stands there. -/
theorem mergeMasked_under {s : State} {l : Nat} {r : RunSlot} {i : VInstr} {a : Nat} {b : Bytes} (v : VecSt) (hd : isDevice a = false)
    (hs : storeForbidden a b.length = false) :
    mergeMasked v i b (bytesUnder s (s.vecCtx l r i) a b) = if i.masked then mergeMasked v i b (s.coreRead r.core a b.length) else b := by
  unfold bytesUnder
  rw [vecRead_core _ hd, loadForbidden_of_store hs]
  change mergeMasked v i b (if i.masked then s.coreRead r.core a b.length else b) = _
  cases hm : i.masked with
  | false => exact mergeMasked_all v b _ hm
  | true => rfl

theorem vst_core {s : State} {l : Nat} {r : RunSlot} {i : VInstr} (h : s.atVec l 0x49 r i) (hf : i.fmt ≤ 2) {a : Nat} {b : Bytes}
    (ha : a = vstAddr s l i) (hb : b = plainBytes (s.vec (s.physOf l)) i) (hd : isDevice a = false) :
    (storeForbidden a b.length = false → ∃ t, exec (.vst l) s = .next t ∧
      coreStored r.core a (if i.masked then mergeMasked (s.vec (s.physOf l)) i b (s.coreRead r.core a b.length) else b) s t ∧
      t.vec (s.physOf l) = s.vec (s.physOf l) ∧
      t.runOf (vectorUnit l) = some { r with ptr := r.ptr + 8, ordinal := r.rankAt (r.ptr + 8), wait := none }) ∧
    (storeForbidden a b.length = true → exec (.vst l) s = .next (s.progFault (s.vecCtx l r i).c)) := by
  obtain ⟨dl, he⟩ := vst_plain h hf ha hb
  dsimp only at he
  refine ⟨fun hs => ?_, fun hs => ?_⟩
  · rw [if_pos (by rw [vecCanWrite_core _ hd, hs]; rfl), vecWrite_core _ _ hd, mergeMasked_under _ hd hs] at he
    exact ⟨_, he, coreStore_goes_on h _ _ _ _ _ dl⟩
  · rwa [if_neg (by rw [vecCanWrite_core _ hd, hs]; decide)] at he

/-! ### O18 -/

/-- Settles O18: SST and VST to core memory by the rules of core-local writes, and to any address that can be written as what the
engine's write of those bytes leaves. -/
theorem vectorStoresWrite : Obligations.VectorStoresWrite := by
  unfold Obligations.VectorStoresWrite
  intro l r i s
  refine ⟨fun h a ha hd => ⟨fun hf => ⟨_, sst_stores h ha hd hf, coreStored_of_peek (coreStored_coreWrite s _ _ _) fun _ => rfl,
      goesTo_of_onlyMemory (onlyMemory_coreWrite s _ _ _) l r _⟩, sst_faults h ha hd⟩,
    fun h a ha hd hw => sst_device h ha hd hw, fun h a ha hd hf b hb => vst_core h hf ha hb hd, fun h a ha => ⟨?_, ?_⟩⟩
  · intro hf b hb hm hw
    obtain ⟨dl, he⟩ := vst_plain h hf ha hb
    dsimp only at he
    rw [if_pos hw, mergeMasked_all _ _ _ hm] at he
    exact ⟨dl, he⟩
  · intro hf bs hbs b hb hm hw hws
    obtain ⟨dl, he⟩ := vst_block h hf ha hbs hb
    dsimp only at he
    rw [if_pos (Bool.and_eq_true_iff.mpr ⟨hw, hws⟩), mergeMasked_all _ _ _ hm] at he
    exact ⟨dl, he⟩

end Sys2Proof.Laws

/-! # Array ops, and O23 -/

namespace Sys2Proof.Laws

open Sys2Proof Sys2Proof.Machine

/-! ### An op whose output row and scales lie at the same address (R151)

OUT selects ZF8 in core memory; the op has one row and a pitch of 0, so its row and the scales after it share their first byte. -/

/-- The slot of array 0 of logical core 0 at its first descriptor. -/
def overlapSlot : RunSlot :=
  { owner := arrayUnit 0 0, slot := 0, pos := 0, beat := 0, op := 0, plannedEnd := 0, started := 0, ptr := 0, ordinal := 0,
    wait := none, prog := 0, rest := [], gs := 0, ended := false }

/-- REAL with one row and one column, nothing to sum, ZF8 to core-local address 0, pitch 0. -/
def overlapBytes : Bytes := [1, 0, 0, 3, 0, 0, 0, 0, 1, 0, 0, 0, 1]

def overlapDesc : ArrDesc :=
  { opcode := 1, fmt := 0, mode := 0, out := 3, k := 0, m := 1, n := 1, stat := 0, strm := 0, outA := 0, statPitch := 0,
    strmPitch := 0, outPitch := 0, bias := 0, watch := 0, wait := 0, signal := 0, res1 := 0, res2 := 0 }

/-- Logical core 0 mapped to physical core 0, its descriptor in the program region, its array 0 running. -/
def overlapState : State :=
  (((State.reset.setReg (Reg.coreMap 0) 0x80).coreWrite 0 0x1F00000 overlapBytes).setUnit (arrayUnit 0 0)
    { next := 0, run := some overlapSlot, fenced := false, power := 0 })

theorem overlap_runs : overlapState.runOf (arrayUnit 0 0) = some overlapSlot :=
  runOf_setUnit _ _ _ rfl rfl

theorem overlap_desc : overlapState.descAt overlapSlot = overlapDesc := by decide +kernel

theorem overlap_loc : overlapState.coreLoc 0 0 = some (.sram 0 0) := by decide +kernel

/-- What the op computes: one value, zero. -/
def overlapProduct : Product := overlapDesc.compute (overlapState.arrCtx overlapSlot) { stat := [], strm := [] } []

/-- The state whose scale policy the drain follows. -/
def overlapDrain : State := overlapState.bumpPair (Reg.passCntLo 0) 0

theorem overlap_pieces : overlapDesc.pieces (overlapDrain.drain overlapDesc overlapProduct.rows) = [(0, [0]), (0, [127])] := by
  decide +kernel

/-! ### O23 -/

/-- Refutes O23: for a REAL op of one row with its output as ZF8 in core memory and OUT_PITCH 0, the row and the scales are both
stored at core-local address 0, which would have to hold the code 0 of the value and the scale 127 at once. -/
theorem not_arrayOpsComplete : ¬ Obligations.ArrayOpsComplete := by
  unfold Obligations.ArrayOpsComplete
  rintro ⟨h, -⟩
  obtain ⟨-, -, hop⟩ := h 0 0 1 (.real 0 0 []) overlapSlot overlapDesc overlapState (List.mem_cons_self ..) overlap_runs rfl
    overlap_desc (by decide) rfl (by decide)
  obtain ⟨hcore, -⟩ := hop { stat := [], strm := [] } [] overlapProduct overlapDrain overlapDrain (by decide) (by decide) (by decide)
    rfl rfl (by decide +kernel) (by decide +kernel)
  obtain ⟨t, -, -, -, hstored, -⟩ := hcore rfl _ overlap_pieces.symm (by decide) (.inl rfl)
  have hrow : t.peek (.sram 0 0) = 0 := hstored (0, [0]) (by decide) 0 _ (by decide) overlap_loc
  have hscale : t.peek (.sram 0 0) = 127 := hstored (0, [127]) (by decide) 0 _ (by decide) overlap_loc
  exact absurd (hrow.symm.trans hscale) (by decide)

end Sys2Proof.Laws

/-! # Control flow of the vector engine, event counters, and O19 -/

namespace Sys2Proof.Laws

open Sys2Proof Sys2Proof.Machine

/-! ### Event counters (R136) -/

theorem putKey_putKey {α : Type} (l : List (Nat × α)) (k : Nat) (a b : α) : putKey (putKey l k a) k b = putKey l k b := by
  induction l with
  | nil => simp [putKey]
  | cons x l ih =>
    obtain ⟨j, w⟩ := x
    rcases Nat.lt_trichotomy k j with h | h | h
    · simp [putKey, h]
    · simp [putKey, h]
    · simp [putKey, Nat.lt_asymm h, Nat.ne_of_gt h, ih]

theorem setUnit_setUnit (s : State) (u : UnitId) (x y : UnitSt) : (s.setUnit u x).setUnit u y = s.setUnit u y := by
  simp only [State.setUnit, putKey_putKey]

theorem counter_setCounter_self (s : State) (d c v : Nat) : (s.setCounter d c v).counter d c = v := by
  simp only [State.counter, State.setCounter, getKey_putKey_self, Option.getD_some]

theorem counter_setCounter_ne (s : State) {d c e k : Nat} (v : Nat) (hc : c < 32) (hk : k < 32) (h : ¬(e = d ∧ k = c)) :
    (s.setCounter d c v).counter e k = s.counter e k := by
  have hkey : 32 * e + k ≠ 32 * d + c := by omega
  simp only [State.counter, State.setCounter, getKey_putKey_ne _ _ hkey]

theorem countSignal_of_lt {s : State} {d c : Nat} (ctx : ErrCtx) (h : s.counter d c < 0xFFFF) :
    s.countSignal ctx d c = s.setCounter d c (s.counter d c + 1) := if_neg (Nat.ne_of_lt h)

theorem countSignal_full {s : State} {d c : Nat} (ctx : ErrCtx) (h : s.counter d c = 0xFFFF) : s.countSignal ctx d c = s.progFault ctx :=
  if_pos h

/-! ### Branches -/

/-- A jump inside the program region. -/
theorem jump_at {s t : State} {l : Nat} {r : RunSlot} (i : VInstr) (ht : (t.unit (vectorUnit l)).run.isSome = true) {k : Int}
    (h0 : 0 ≤ k) (h1 : k < 0x100000) : t.jump (s.vecCtx l r i) k = t.goesTo l r k.toNat := by
  rw [State.jump, if_pos ⟨h0, h1⟩, State.goesTo, Int.toNat_of_nonneg h0]
  exact if_pos ht

theorem jump_outside {s : State} (x : VecCtx) {k : Int} (h : k < 0 ∨ 0x100000 ≤ k) : s.jump x k = s.progFault x.c :=
  if_neg (by omega)

theorem branch_taken (s : State) (x : VecCtx) : s.branch x true = s.jump x (x.r.ptr + 8 * x.i.simm) := if_pos rfl

theorem branch_not_taken (s : State) (x : VecCtx) : s.branch x false = s.nextInstr x := if_neg Bool.false_ne_true

/-- A branch with its condition as the model evaluates it. -/
theorem branch_goes {s : State} {l opc : Nat} {r : RunSlot} {i : VInstr} {c : Instr} {taken : Bool} (h : s.atVec l opc r i)
    (he : exec c s = .next (s.branch (s.vecCtx l r i) taken)) :
    (taken = false → exec c s = .next (s.goesTo l r (r.ptr + 8))) ∧
    ∀ k : Int, k = r.ptr + 8 * i.simm → taken = true →
      (0 ≤ k → k < 0x100000 → exec c s = .next (s.goesTo l r k.toNat)) ∧
      (k < 0 ∨ 0x100000 ≤ k → exec c s = .next (s.progFault (s.vecCtx l r i).c)) := by
  have hrun := isSome_of_runOf h.1
  refine ⟨fun ht => ?_, fun k hk ht => ?_⟩
  · rw [he, ht, branch_not_taken, nextInstr_at h hrun]
  · have hjump : exec c s = .next (s.jump (s.vecCtx l r i) k) := by
      rw [he, ht, hk, branch_taken]
      rfl
    exact ⟨fun h0 h1 => by rw [hjump, jump_at i hrun h0 h1], fun ho => by rw [hjump, jump_outside _ ho]⟩

theorem exec_br {s : State} {l : Nat} {r : RunSlot} {i : VInstr} (h : s.atVec l 0x90 r i) :
    exec (.br l) s = .next (s.branch (s.vecCtx l r i) true) := congrArg _ (vecStep_at h _)

theorem exec_beqz {s : State} {l : Nat} {r : RunSlot} {i : VInstr} (h : s.atVec l 0x91 r i) :
    exec (.beqz l) s = .next (s.branch (s.vecCtx l r i) (decide ((s.vec (s.physOf l)).sreg i.a = 0))) := by
  rw [← vecCtx_phys s l r i]
  exact congrArg _ (vecStep_at h _)

theorem exec_bnez {s : State} {l : Nat} {r : RunSlot} {i : VInstr} (h : s.atVec l 0x92 r i) :
    exec (.bnez l) s = .next (s.branch (s.vecCtx l r i) (decide ((s.vec (s.physOf l)).sreg i.a ≠ 0))) := by
  have hne : decide ((s.vec (s.physOf l)).sreg i.a ≠ 0) = ((s.vec (s.physOf l)).sreg i.a != 0) := by
    rw [decide_not]
    rfl
  rw [hne, ← vecCtx_phys s l r i]
  exact congrArg _ (vecStep_at h _)

theorem exec_blt {s : State} {l : Nat} {r : RunSlot} {i : VInstr} (h : s.atVec l 0x93 r i) :
    exec (.blt l) s = .next (s.branch (s.vecCtx l r i)
      (decide (((s.vec (s.physOf l)).sreg i.a).toInt < ((s.vec (s.physOf l)).sreg i.b).toInt))) := by
  rw [← vecCtx_phys s l r i]
  exact congrArg _ (vecStep_at h _)

/-! ### LOOP -/

theorem exec_loop {s : State} {l : Nat} {r : RunSlot} {i : VInstr} (h : s.atVec l 0x94 r i) :
    exec (.loop l) s =
      let v := s.vec (s.physOf l)
      let n := v.sreg i.a - 1
      .next ((s.setVec (s.physOf l) (v.setS i.a n)).branch (s.vecCtx l r i) (n != 0)) := by
  rw [← vecCtx_phys s l r i]
  exact congrArg _ (vecStep_at h _)

/-- The counter of a loop is 0 after the step just when it was 1 before. -/
theorem loop_count_ne (x : DWord) : (x - 1 != 0) = decide (x ≠ 1) := by
  rw [Bool.eq_iff_iff]
  simp only [bne_iff_ne, decide_eq_true_eq, ne_eq]
  bv_omega

/-! ### WAIT -/

theorem exec_wait {s : State} {l : Nat} {r : RunSlot} {i : VInstr} (h : s.atVec l 0x98 r i) :
    exec (.wait l) s = .next (match s.tryWait (vectorUnit l) r (i.imm % 32) with
      | none => s.standWait (vectorUnit l) r (i.imm % 32)
      | some (t, q) => t.nextInstr { s.vecCtx l r i with r := q }) := congrArg _ (vecStep_at h _)

theorem tryWait_counts {s : State} {u : UnitId} {r : RunSlot} {c : Nat} (hr : s.runOf u = some r) (hw : r.wait ≠ some (c, true))
    (hc : 0 < s.counter r.core c) :
    s.tryWait u r c = some ((s.setCounter r.core c (s.counter r.core c - 1)).setUnit u
      { s.unit u with run := some { r with wait := none } }, { r with wait := none }) := by
  simp only [State.tryWait, if_neg hw, if_pos hc]
  rw [setRun_of_runOf (s := s.setCounter _ _ _) hr]
  rfl

theorem tryWait_stands {s : State} {u : UnitId} {r : RunSlot} {c : Nat} (hw : r.wait ≠ some (c, true)) (hc : s.counter r.core c = 0) :
    s.tryWait u r c = none := by
  simp only [State.tryWait, if_neg hw, hc, Nat.lt_irrefl, if_false]

/-- A slot whose wait is over goes on from where it stood. -/
theorem nextInstr_after_wait {s t : State} {l opc : Nat} {r : RunSlot} {i : VInstr} (h : s.atVec l opc r i)
    (ht : t.unit (vectorUnit l) = s.unit (vectorUnit l)) :
    (t.setUnit (vectorUnit l) { s.unit (vectorUnit l) with run := some { r with wait := none } }).nextInstr
      { s.vecCtx l r i with r := { r with wait := none } } = t.goesTo l r (r.ptr + 8) := by
  have hstep : ∀ u : State, u.nextInstr { s.vecCtx l r i with r := { r with wait := none } } = u.nextInstr (s.vecCtx l r i) := fun _ => rfl
  rw [hstep, nextInstr_at h (by rw [unit_setUnit_same _ _ rfl]; rfl), State.goesTo, unit_setUnit_same _ _ rfl, setUnit_setUnit,
    State.goesTo, ht]

theorem wait_takes {s : State} {l : Nat} {r : RunSlot} {i : VInstr} (h : s.atVec l 0x98 r i) (hw : r.wait ≠ some (i.imm % 32, true))
    (hc : 0 < s.counter r.core (i.imm % 32)) :
    exec (.wait l) s = .next ((s.setCounter r.core (i.imm % 32) (s.counter r.core (i.imm % 32) - 1)).goesTo l r (r.ptr + 8)) := by
  rw [exec_wait h, tryWait_counts h.1 hw hc, ← nextInstr_after_wait h (t := s.setCounter _ _ _) rfl]

theorem wait_stands {s : State} {l : Nat} {r : RunSlot} {i : VInstr} (h : s.atVec l 0x98 r i) (hw : r.wait ≠ some (i.imm % 32, true))
    (hc : s.counter r.core (i.imm % 32) = 0) :
    exec (.wait l) s = .next (s.setUnit (vectorUnit l)
      { s.unit (vectorUnit l) with run := some { r with wait := some (i.imm % 32, false) } }) := by
  rw [exec_wait h, tryWait_stands hw hc, ← setRun_of_runOf h.1]
  rfl

/-! ### SIGNAL and END -/

theorem exec_signal {s : State} {l : Nat} {r : RunSlot} {i : VInstr} (h : s.atVec l 0x99 r i) :
    exec (.signal l) s =
      .next ((s.sendSignal (s.vecCtx l r i).c r.core (i.imm / 32 % 64) (i.imm % 32)).nextInstr (s.vecCtx l r i)) := by
  change Host.Outcome.next (applySignal l s) = _
  rw [applySignal, vecStep_at h]
  rfl

theorem exec_endRoutine {s : State} {l : Nat} {r : RunSlot} {i : VInstr} (h : s.atVec l 0x9F r i) :
    exec (.endRoutine l) s = .next (s.setUnit (vectorUnit l) { s.unit (vectorUnit l) with run := some { r with ended := true } }) := by
  rw [← setRun_of_runOf h.1]
  exact congrArg _ (vecStep_at h _)

/-! ### Signals between dies, and standing ops (R33, R136) -/

/-- The signals under way without one that arrives. -/
def signalTaken (s : State) (x : Nat × Nat × Nat) : State := { s with cores := { s.cores with signals := s.cores.signals.erase x } }

theorem exec_signalArrival {s : State} {src dst c : Nat} (h : s.nextSignal src dst = some (src, dst, c)) :
    exec (.signalArrival src dst c) s = .next ((signalTaken s (src, dst, c)).countSignal
      { unit := vectorUnit src, phys := s.physOf src, place := none, beat := none } dst c) := by
  change Host.Outcome.next (applySignalArrival src dst c s) = _
  rw [applySignalArrival, if_pos h]
  rfl

/-- The slot of a unit whose standing op has been counted. -/
def slotAfterWait (u : UnitId) (r : RunSlot) (c : Nat) : RunSlot :=
  if u.cls = 2 then { r with wait := none, ptr := r.ptr + 8, ordinal := (r.ordinal + 1) % 16384 } else { r with wait := some (c, true) }

theorem slotAfterWait_ended (u : UnitId) (r : RunSlot) (c : Nat) : (slotAfterWait u r c).ended = r.ended := by
  unfold slotAfterWait
  split <;> rfl

theorem exec_waitSatisfied {s : State} {u : UnitId} {r : RunSlot} {c : Nat} (hr : s.runOf u = some r) (hw : r.wait = some (c, false))
    (hc : 0 < s.counter r.core c) :
    exec (.waitSatisfied u) s = .next ((s.setCounter r.core c (s.counter r.core c - 1)).setUnit u
      { s.unit u with run := some (slotAfterWait u r c) }) := by
  have hset := fun q => setRun_of_runOf (s := s.setCounter r.core c (s.counter r.core c - 1)) (q := q) hr
  change Host.Outcome.next (applyWaitSatisfied u s) = _
  simp only [applyWaitSatisfied, hr, hw, if_pos hc, hset, slotAfterWait]
  split <;> rfl

/-! ### O19 -/

/-- Settles O19: one lemma per instruction, per arriving signal and per satisfied wait. -/
theorem vectorControlFlow : Obligations.VectorControlFlow := by
  unfold Obligations.VectorControlFlow
  refine ⟨⟨fun l opc c taken r i s h hc => ?_, fun l r i s h => ?_, fun l r i s h hw => ⟨fun hc => ?_, wait_stands h hw⟩,
    fun l r i s h d k hd hk => ⟨fun hne => ?_, fun he hlt => ?_⟩, fun l r i s h => exec_endRoutine h⟩,
    fun src dst c s hc hnext hlt => ?_, fun src dst c s hnext hfull => ?_, fun u r c s hr hw hc hpos => ?_⟩
  · simp only [List.mem_cons, List.not_mem_nil, or_false, Prod.mk.injEq] at hc
    obtain ⟨rfl, rfl, rfl⟩ | ⟨rfl, rfl, rfl⟩ | ⟨rfl, rfl, rfl⟩ | ⟨rfl, rfl, rfl⟩ := hc
    · exact branch_goes h (exec_br h)
    · exact branch_goes h (exec_beqz h)
    · exact branch_goes h (exec_bnez h)
    · exact branch_goes h (exec_blt h)
  · have hloop := exec_loop h
    have hrun := isSome_of_runOf h.1
    dsimp only at hloop
    rw [loop_count_ne] at hloop
    refine ⟨_, setS_scalarWrite _ _ _, fun h1 => ?_, fun k hk h1 h0 hlim => ?_⟩
    · rw [hloop, decide_eq_false (not_not_intro h1), branch_not_taken, nextInstr_at h (t := s.setVec _ _) hrun]
      rfl
    · rw [hloop, decide_eq_true h1, branch_taken, ← jump_at (s := s) i (t := s.setVec _ _) hrun h0 hlim, hk]
      rfl
  · exact ⟨_, wait_takes h hw hc, counter_setCounter_self s _ _ _, rfl, fun d k hk hne =>
      counter_setCounter_ne s _ (Nat.mod_lt _ (by decide)) hk hne⟩
  · rw [exec_signal h, ← hd, ← hk, State.sendSignal, if_neg (Ne.symm hne)]
    exact congrArg _ (nextInstr_of_units h rfl)
  · rw [exec_signal h, ← hd, ← hk, State.sendSignal, if_pos he.symm, countSignal_of_lt _ hlt]
    exact congrArg _ (nextInstr_of_units h rfl)
  · rw [exec_signalArrival hnext, countSignal_of_lt (s := signalTaken s _) _ hlt]
    exact ⟨_, rfl, counter_setCounter_self _ _ _ _, rfl, fun l k hk hne => counter_setCounter_ne _ _ hc hk hne, rfl⟩
  · rw [exec_signalArrival hnext, countSignal_full (s := signalTaken s _) _ hfull]
    rfl
  · exact ⟨_, exec_waitSatisfied hr hw hpos, counter_setCounter_self s _ _ _,
      runOf_setUnit _ _ _ rfl ((slotAfterWait_ended u r c).trans (ended_of_runOf hr)), rfl⟩

end Sys2Proof.Laws

/-! # Program faults, and O20 -/

namespace Sys2Proof.Laws

open Sys2Proof Sys2Proof.Machine

/-! ### Vector instructions under the rows of the table (R179, R180) -/

/-- A command runs its body on the reached instruction, when that has the command's opcode. -/
def RunsAsVecStep (l : Nat) (z : Instr × Nat) : Prop := ∃ body, ∀ s, exec z.1 s = .next (vecStep z.2 l body s)

theorem runsAsVecStep_of_regStep {l opc : Nat} {c : Instr} {f : VInstr → VecSt → VecSt} (h : ∀ s, exec c s = .next (regStep opc l f s)) :
    RunsAsVecStep l (c, opc) := by
  unfold regStep at h
  exact ⟨_, h⟩

/-- In the order of Table 3.27: the instructions that only change the engine's registers, and those that do more. -/
theorem vectorCommands_run (l : Nat) : ∀ z ∈ vectorCommands l, RunsAsVecStep l z := by
  simp only [vectorCommands, List.forall_mem_cons]
  iterate 12 refine ⟨runsAsVecStep_of_regStep fun _ => rfl, ?_⟩
  refine ⟨⟨_, fun _ => rfl⟩, ?_⟩
  iterate 12 refine ⟨runsAsVecStep_of_regStep fun _ => rfl, ?_⟩
  iterate 5 refine ⟨⟨_, fun _ => rfl⟩, ?_⟩
  iterate 11 refine ⟨runsAsVecStep_of_regStep fun _ => rfl, ?_⟩
  iterate 2 refine ⟨⟨_, fun _ => rfl⟩, ?_⟩
  refine ⟨runsAsVecStep_of_regStep fun _ => rfl, ?_⟩
  iterate 8 refine ⟨⟨_, fun _ => rfl⟩, ?_⟩
  exact fun _ h => absurd h List.not_mem_nil

theorem vecStep_invalid {s : State} {l : Nat} {r : RunSlot} (opc : Nat) (body : VecCtx → State → State) (h : s.runOf (vectorUnit l) = some r)
    (hv : (s.instrAt r).valid = false) : vecStep opc l body s = s.progFault (s.errCtx (vectorUnit l) r) := by
  simp only [vecStep, h, hv, Bool.not_false, if_true]

theorem vecStep_other {s : State} {l opc : Nat} {r : RunSlot} (body : VecCtx → State → State) (h : s.runOf (vectorUnit l) = some r)
    (hv : (s.instrAt r).valid = true) (ho : (s.instrAt r).opc ≠ opc) : vecStep opc l body s = s := by
  simp only [vecStep, h, hv, Bool.not_true, Bool.false_eq_true, if_false, if_neg ho]

/-! ### The SRAM_ERR register of a core -/

/-- SRAM_ERR of a physical core reads as before. -/
abbrev SramErrKept (p : Nat) : State → State → Prop := RangeKept (Reg.sramErr p) (Reg.sramErr p + 1)

theorem sramErrKept_sendsOnly {p : Nat} {s t : State} (h : SendsOnly s t) : SramErrKept p s t := by
  refine ⟨fun o hl hh => h.reg o fun q hq => ?_⟩
  unfold Reg.sramErr at hl hh
  unfold Reg.vlCredit
  omega

/-! ### What waits for a gap, when nothing does (R90) -/

theorem settle_idle {s : State} (hf : s.test.fences = []) (hm : s.mods = []) :
    s.settle = State.updatePresence (State.portsReturn { s with test := { s.test with fences := [] } }) := by
  unfold State.settle State.settleFences State.gapModules
  simp only [hf, hm, List.foldl_nil, List.map_nil]

theorem portsReturn_passed (s : State) : s.portsReturn.test.passed = s.test.passed := by
  unfold State.portsReturn
  refine List.foldlRecOn (motive := fun t : State => t.test.passed = s.test.passed) _ _ rfl fun t ht q _ => ?_
  dsimp only
  split
  · exact ht
  · exact ht

theorem settle_passed {s : State} (hf : s.test.fences = []) (hm : s.mods = []) : s.settle.test.passed = s.test.passed := by
  have hpres := fun t => (keeps_updatePresence t (keeps_refl t) (covers_allBut (q := .test) rfl)).parts .test (by decide)
  rw [settle_idle hf hm, hpres, portsReturn_passed]

/-! ### The parts of a stop (R90, R114) -/

/-- A move of control that waits for a gap takes place. -/
def controlMoves (s : State) : State :=
  match s.host.ctrlNext with
  | some q => s.setCtrl q
  | none => s

/-- TEST_CTL takes effect. -/
def testCtlActs (s : State) : State := { s with test := { s.test with testCtl := s.reg Reg.testCtl } }

/-- RDC_CTL EN takes effect. -/
def rdcActs (s : State) : State := if s.hasRdc then s.applyRdcEn else s

/-- Bias flips that wait begin. -/
def flipsBegin (s : State) : State := if s.host.applyWaits then s.startFlips else s

theorem settleRest_eq (s : State) : s.settleRest = flipsBegin (rdcActs (testCtlActs (controlMoves s.endCovers))) := rfl

/-- The end of a run, before what waited for a gap takes effect. -/
def unsettled (s : State) : State := (((((s.keepPartial).endRegs).cancelMoves).dropRdc).dropFrames).dropRun.restUnits

theorem endRun_eq (s : State) : s.endRun = (unsettled s).settle.settleRest := rfl

/-- The parts that the end of a run changes up to there: neither modules nor tests. -/
def unsettledParts (q : StatePart) : Bool :=
  [StatePart.regs, .slots, .beat, .units, .cores, .upd, .tier, .ports, .casc, .host].contains q

theorem keeps_unsettled (s : State) : Keeps unsettledParts s (unsettled s) := by
  have hp : covers unsettledParts [.regs, .slots, .beat, .units, .cores, .upd, .tier, .ports, .casc, .host] := fun _ h => h
  exact keeps_restUnits _ (keeps_dropRun _ (keeps_dropFrames _ (keeps_dropRdc _ (keeps_cancelMoves _ (keeps_endRegs _
    (keeps_keepPartial s (keeps_refl s)))))))

theorem sendsOnly_controlUp (s : State) (m : CtlMsg) : SendsOnly s (s.controlUp m) := by
  have hto : ∀ (t : State) (c : Coord), SendsOnly t (t.controlTo c m) := fun t c => by
    unfold State.controlTo
    split
    · exact sendsOnly_refl t
    · exact sendsOnly_sendControl t _ _
  have hmaster : SendsOnly s (match s.casc.master with
      | some c => s.controlTo c m
      | none => s) := by
    split
    · exact hto s _
    · exact sendsOnly_refl s
  unfold State.controlUp
  dsimp only
  split
  · split
    · exact hmaster
    · exact hmaster.trans (hto _ _)
  · exact hmaster

theorem sendsOnly_sendSelfLost (s : State) (fault : Bool) : SendsOnly s (s.sendSelfLost fault) := by
  unfold State.sendSelfLost
  split
  · exact sendsOnly_refl s
  · split
    · exact sendsOnly_refl s
    · exact sendsOnly_controlUp s _

/-- Every plan unit rests. -/
def resting (s : State) : State := { s with units := s.units.map fun (x : Nat × UnitSt) => (x.1, UnitSt.rest (x.1 / 1024) x.2) }

section
variable {p : Nat} (hp : p < 128)
include hp

theorem sramErrKept_setReg (s : State) {o : Nat} (v : Word) (h : o < Reg.sramErr p ∨ Reg.sramErr p + 1 ≤ o) :
    SramErrKept p s (s.setReg o v) :=
  rangeKept_setReg (.inl (by unfold Reg.sramErr; omega)) s v h

theorem sramErrKept_below (s : State) {o : Nat} (v : Word) (h : o < 0x1000010) : SramErrKept p s (s.setReg o v) :=
  sramErrKept_setReg hp s v (.inl (by unfold Reg.sramErr; omega))

theorem sramErrKept_above (s : State) {o : Nat} (v : Word) (h : 0x1800000 ≤ o) : SramErrKept p s (s.setReg o v) :=
  sramErrKept_setReg hp s v (.inr (by unfold Reg.sramErr; omega))

theorem sramErrKept_coreState (s : State) (n : Nat) (v : Word) : SramErrKept p s (s.setReg (Reg.coreState n) v) :=
  sramErrKept_setReg hp s v (by unfold Reg.sramErr Reg.coreState; omega)

/-! ### Outputs and the log -/

theorem sramErrKept_msix (s : State) (q : HPort) (v : Nat) (hv : v < 128) : SramErrKept p s (s.msix q v) := by
  have hq : portIdx q < 2 := portIdx_lt q
  unfold State.msix
  exact rangeKept_ite (fun _ => rangeKept_emit _ _) fun _ => sramErrKept_below hp s _ (by unfold Reg.msixPba; omega)

theorem sramErrKept_setDevState (s : State) (n : Nat) : SramErrKept p s (s.setDevState n) := by
  unfold State.setDevState
  refine rangeKept_ite (fun _ => rangeKept_refl s) fun _ => ?_
  exact (sramErrKept_below hp s (o := Reg.devState) _ (by decide)).trans
    ((sramErrKept_msix hp _ .a 10 (by decide)).trans (sramErrKept_msix hp _ .b 10 (by decide)))

theorem sramErrKept_logEntry (s : State) (e : Ev) : SramErrKept p s (s.logEntry e) := by
  refine ⟨fun o hl hh => logEntry_reg s e ?_⟩
  unfold Reg.sramErr at hl hh
  rw [regHome_id (o := o) (by omega)]
  simp only [logReg, Bool.or_eq_false_iff, Bool.and_eq_false_iff, decide_eq_false_iff_not]
  omega

/-! ### What the end of a run shows -/

theorem sramErrKept_keepPartial (s : State) : SramErrKept p s s.keepPartial :=
  rangeKept_foldl (fun s n _ => sramErrKept_above hp s _ (by unfold Reg.updStatus; omega)) s

theorem sramErrKept_setSlotState (s : State) (f : FSlot) (n : Nat) : SramErrKept p s (s.setSlotState f n) := by
  have hslot : (s.setSlot f { s.slot f with state := n }).regs = s.regs := by cases f <;> rfl
  unfold State.setSlotState
  cases f <;> exact (sramErrKept_below hp _ (o := Reg.fingStatus) _ (by decide)).from_regs hslot

theorem sramErrKept_showRoles (s : State) (roles : Option (List Nat)) : SramErrKept p s (s.showRoles roles) :=
  rangeKept_foldl (fun s q _ => sramErrKept_above hp s _ (by unfold Reg.linkState; omega)) s

theorem sramErrKept_showEngines (s : State) : SramErrKept p s s.showEngines :=
  rangeKept_foldl (fun s n _ => (sramErrKept_above hp s _ (by unfold Reg.updCtl; omega)).trans
    (sramErrKept_above hp _ _ (by unfold Reg.updCtl; omega))) s

theorem sramErrKept_endRegs (s : State) : SramErrKept p s s.endRegs := by
  unfold State.endRegs
  dsimp only
  have hslot : SramErrKept p s (match s.runSlot with
      | some f => s.setSlotState f 2
      | none => s) := by
    split
    · exact sramErrKept_setSlotState hp s _ 2
    · exact rangeKept_refl s
  refine RangeKept.trans ?_ (sramErrKept_below hp _ _ (by decide))
  refine RangeKept.trans ?_ (sramErrKept_showEngines hp _)
  refine RangeKept.trans ?_ (sramErrKept_below hp _ _ (by decide))
  refine RangeKept.trans ?_ (sramErrKept_below hp _ _ (by decide))
  refine RangeKept.trans ?_ (sramErrKept_above hp _ _ (by decide))
  refine RangeKept.trans ?_ (sramErrKept_showRoles hp _ none)
  refine RangeKept.trans ?_ (sramErrKept_above hp _ _ (by decide))
  refine RangeKept.trans ?_ (sramErrKept_below hp _ _ (by decide))
  exact hslot.trans (sramErrKept_below hp _ _ (by decide))

theorem sramErrKept_showCore (s : State) (l : Nat) : SramErrKept p s (s.showCore l) := by
  unfold State.showCore
  exact rangeKept_ite (fun _ => sramErrKept_coreState hp s _ _) fun _ => rangeKept_refl s

theorem sramErrKept_showRun (s : State) (u : UnitId) : SramErrKept p s (s.showRun u) := by
  unfold State.showRun
  refine rangeKept_ite (fun _ => sramErrKept_showCore hp s _) fun _ => rangeKept_ite (fun _ => sramErrKept_showCore hp s _) fun _ =>
    rangeKept_ite (fun _ => rangeKept_ite (fun _ => rangeKept_refl s) fun _ => ?_) fun _ => rangeKept_refl s
  exact sramErrKept_above hp s _ (by unfold Reg.updStatus; omega)

theorem sramErrKept_showPower (s : State) (u : UnitId) (n : Nat) : SramErrKept p s (s.showPower u n) := by
  unfold State.showPower
  exact rangeKept_ite (fun _ => rangeKept_ite (fun _ => sramErrKept_coreState hp s _ _) fun _ => rangeKept_refl s) fun _ => rangeKept_refl s

theorem sramErrKept_showRuns (s : State) : SramErrKept p s s.showRuns :=
  (rangeKept_foldl (fun _ _ _ => rangeKept_ite (fun _ => sramErrKept_showCore hp _ _) fun _ => rangeKept_refl _) s).trans
    (rangeKept_foldl (fun _ _ _ => sramErrKept_showRun hp _ _) _)

theorem sramErrKept_restUnits (s : State) : SramErrKept p s s.restUnits := by
  unfold State.restUnits
  refine (((sramErrKept_showRuns hp (resting s)).from_regs (s := s) rfl)).trans (rangeKept_foldl (fun t l _ => ?_) _)
  exact rangeKept_ite (fun _ => sramErrKept_showPower hp t _ _) fun _ => rangeKept_refl t

/-! ### What waited for a gap -/

theorem sramErrKept_updatePresence (s : State) : SramErrKept p s s.updatePresence := by
  unfold State.updatePresence
  exact rangeKept_ite (fun _ => rangeKept_refl s) fun _ =>
    (sramErrKept_below hp s (o := Reg.capPresent0) _ (by decide)).trans (sramErrKept_below hp _ (o := Reg.capPresent1) _ (by decide))

theorem sramErrKept_setCtrl (s : State) (q : HPort) : SramErrKept p s (s.setCtrl q) := by
  unfold State.setCtrl
  refine RangeKept.trans ?_ (sramErrKept_msix hp _ _ _ (by decide))
  refine RangeKept.trans ?_ (sramErrKept_below hp _ (o := Reg.portCtlB) _ (by decide))
  exact RangeKept.from_regs (s := s) (sramErrKept_below hp _ (o := Reg.portCtlA) _ (by decide)) rfl

theorem sramErrKept_startFlips (s : State) : SramErrKept p s s.startFlips := by
  unfold State.startFlips
  dsimp only
  refine RangeKept.trans ?_ (rangeKept_foldl (fun _ _ _ => rangeKept_ite (fun _ => rangeKept_refl _) fun _ => rangeKept_emit _ _) _)
  exact (sramErrKept_below hp _ _ (by decide)).from_regs rfl

/-! ### The end of a run in which nothing waits for a gap (R114) -/

theorem sramErrKept_settle {s : State} (hf : s.test.fences = []) (hm : s.mods = []) : SramErrKept p s s.settle := by
  rw [settle_idle hf hm]
  refine RangeKept.trans ?_ (sramErrKept_updatePresence hp _)
  exact rangeKept_of_regs ((keeps_portsReturn _ (keeps_refl _) (covers_allBut (q := .regs) rfl)).parts .regs (by decide))

theorem sramErrKept_settleRest {s : State} (h : s.test.passed = []) : SramErrKept p s s.settleRest := by
  have hcovers : s.endCovers.regs = s.regs := by
    unfold State.endCovers
    rw [h]
    rfl
  have hctrl : ∀ t, SramErrKept p t (controlMoves t) := fun t => by
    unfold controlMoves
    split
    · exact sramErrKept_setCtrl hp t _
    · exact rangeKept_refl t
  have htest : ∀ t, SramErrKept p t (testCtlActs t) := fun t => rangeKept_of_regs rfl
  have hrdc : ∀ t, SramErrKept p t (rdcActs t) := fun t => rangeKept_ite (fun _ => rangeKept_of_regs rfl) fun _ => rangeKept_refl t
  have hflips : ∀ t, SramErrKept p t (flipsBegin t) := fun t => rangeKept_ite (fun _ => sramErrKept_startFlips hp t) fun _ => rangeKept_refl t
  rw [settleRest_eq]
  exact ((((rangeKept_of_regs hcovers).trans (hctrl _)).trans (htest _)).trans (hrdc _)).trans (hflips _)

/-- The end of a run up to what it settles. -/
theorem sramErrKept_unsettled (s : State) : SramErrKept p s (unsettled s) := by
  have hmoves : ∀ t : State, SramErrKept p t t.cancelMoves := fun t =>
    (sramErrKept_above hp t (o := Reg.moveStatus) _ (by decide)).of_regs rfl
  have hrdc : ∀ t : State, SramErrKept p t t.dropRdc := fun t => rangeKept_of_regs rfl
  have hframes : ∀ t : State, SramErrKept p t t.dropFrames := fun t =>
    rangeKept_of_regs ((keeps_dropFrames t (keeps_refl t) (covers_allBut (q := .regs) rfl)).parts .regs (by decide))
  have hrun : ∀ t : State, SramErrKept p t t.dropRun := fun t => rangeKept_of_regs rfl
  have hregs := (sramErrKept_keepPartial hp s).trans (sramErrKept_endRegs hp _)
  exact ((((hregs.trans (hmoves _)).trans (hrdc _)).trans (hframes _)).trans (hrun _)).trans (sramErrKept_restUnits hp _)

theorem sramErrKept_endRun {s : State} (h : s.nothingWaits) : SramErrKept p s s.endRun := by
  obtain ⟨hf, hm, hpassed, -⟩ := h
  have hk := keeps_unsettled s
  have htest : (unsettled s).test = s.test := hk.parts .test (by decide)
  have hmods : (unsettled s).mods = s.mods := hk.parts .mods (by decide)
  have hf' : (unsettled s).test.fences = [] := by rw [htest, hf]
  have hm' : (unsettled s).mods = [] := by rw [hmods, hm]
  have hp' : (unsettled s).settle.test.passed = [] := by rw [settle_passed hf' hm', htest, hpassed]
  rw [endRun_eq]
  exact ((sramErrKept_unsettled hp s).trans (sramErrKept_settle hp hf' hm')).trans (sramErrKept_settleRest hp hp')

/-! ### FAILED (R533, R544) -/

theorem sramErrKept_fail {s : State} (code : Nat) (hr : s.host.runs = []) (hw : s.nothingWaits) : SramErrKept p s (s.fail code) := by
  have hk := (sendsOnly_sendSelfLost s true).keeps
  have htest : (s.sendSelfLost true).test = s.test := hk.parts .test (by decide)
  have hmods : (s.sendSelfLost true).mods = s.mods := hk.parts .mods (by decide)
  have hw' : (s.sendSelfLost true).nothingWaits := by
    unfold State.nothingWaits
    rwa [htest, hmods]
  unfold State.fail
  refine rangeKept_ite (fun _ => rangeKept_of_regs rfl) fun _ => ?_
  dsimp only
  rw [hr, List.foldl_nil]
  refine RangeKept.trans ?_ (sramErrKept_below hp _ (o := Reg.devState) _ (by decide))
  refine RangeKept.trans ?_ (sramErrKept_setDevState hp _ 7)
  exact ((sramErrKept_sendsOnly (sendsOnly_sendSelfLost s true)).trans (sramErrKept_endRun hp hw')).of_regs rfl

theorem sramErrKept_raise_fatal {s : State} {e : Ev} (hc : e.cls = 4) (hr : s.host.runs = []) (hw : s.nothingWaits) :
    SramErrKept p s (s.raise e) := by
  have hframe := (onlyLog_logEntry (offs := []) s e).1
  rw [raise_fatal s hc]
  refine (sramErrKept_logEntry hp s e).trans (sramErrKept_fail hp _ ?_ ?_)
  · rw [hframe]
    exact hr
  · rw [hframe]
    exact hw

end

/-! ### O20 -/

/-- Settles O20: the rows of Table 3.27 by what their common step does with the reached instruction, and the program fault as an event
of class FT whose FAILED leaves PROG_FAULT standing. -/
theorem invalidInstructionsFault : Obligations.InvalidInstructionsFault := by
  unfold Obligations.InvalidInstructionsFault
  refine ⟨fun l opc c r s hc hr => ?_, fun s c h => ?_⟩
  · obtain ⟨body, hbody⟩ := vectorCommands_run l _ hc
    refine ⟨fun hv => ?_, fun hv ho => ?_⟩
    · rw [hbody, vecStep_invalid opc body hr hv]
    · rw [hbody, vecStep_other body hr hv ho]
  · have hkept := devKept_setBit s (o := Reg.sramErr c.phys) 23 true (.inr (by unfold Reg.sramErr; omega))
    obtain ⟨hstate, hcode, hmem, -⟩ := raise_failed (e := c.ev 0x300B 4 c.core) (s := s.setBit (Reg.sramErr c.phys) 23 true) rfl
      (by rwa [hkept.devState])
    refine ⟨hstate, hcode, hmem, fun hp hruns hwaits => ?_⟩
    have hbit := (sramErrKept_raise_fatal hp (s := s.setBit (Reg.sramErr c.phys) 23 true) (e := c.ev 0x300B 4 c.core) rfl hruns hwaits).bit
      23 (Nat.le_refl _) (Nat.lt_succ_self _)
    exact hbit.trans (bit_setBit_self s true (by decide))

end Sys2Proof.Laws

/-! # The order of FP32 codes, and O21 -/

namespace Sys2Proof.Laws

open Sys2Proof Sys2Proof.Machine

/-! ### The magnitudes of FP32 codes (R196, R197) -/

/-- The value of the code `k` with its sign bit clear, in units of the least subnormal. Read on past the finite codes, it gives
infinity the value that an unbounded exponent would. -/
def magUnits (k : Nat) : Nat :=
  (if k / 2 ^ 23 = 0 then k % 2 ^ 23 else 2 ^ 23 + k % 2 ^ 23) * 2 ^ (k / 2 ^ 23 - 1)

/-- Codes ascend with magnitude: the next code lies in the same binade, or at the start of the next one. -/
theorem magUnits_lt_succ (k : Nat) : magUnits k < magUnits (k + 1) := by
  by_cases hm : k % 2 ^ 23 + 1 < 2 ^ 23
  · have he : (k + 1) / 2 ^ 23 = k / 2 ^ 23 := by omega
    have hs : (k + 1) % 2 ^ 23 = k % 2 ^ 23 + 1 := by omega
    unfold magUnits
    rw [he, hs]
    refine Nat.mul_lt_mul_of_pos_right ?_ (Nat.two_pow_pos _)
    split <;> omega
  · have he : (k + 1) / 2 ^ 23 = k / 2 ^ 23 + 1 := by omega
    have hs : (k + 1) % 2 ^ 23 = 0 := by omega
    have hlast : k % 2 ^ 23 = 2 ^ 23 - 1 := by omega
    unfold magUnits
    rw [he, hs, hlast, if_neg (Nat.succ_ne_zero _), Nat.add_sub_cancel]
    by_cases h0 : k / 2 ^ 23 = 0
    · rw [if_pos h0, h0]
      decide
    · obtain ⟨e, he⟩ := Nat.exists_eq_succ_of_ne_zero h0
      rw [if_neg h0, he, Nat.succ_sub_one, Nat.pow_succ]
      have := Nat.two_pow_pos e
      omega

theorem magUnits_strictMono : StrictMono magUnits := strictMono_nat_of_lt_succ magUnits_lt_succ

theorem magUnits_zero : magUnits 0 = 0 := rfl

/-- The value of the code of rank `r` (`valRank32`), in units of the least subnormal. -/
def rankUnits (r : Int) : Int := if r < 0 then -(magUnits r.natAbs : Int) else magUnits r.natAbs

theorem rankUnits_strictMono : StrictMono rankUnits := by
  have hmono {i j : Nat} (h : i < j) := magUnits_strictMono h
  have hzero := magUnits_zero
  intro r s hrs
  unfold rankUnits
  split <;> split
  · have := hmono (show s.natAbs < r.natAbs by omega)
    omega
  · have := hmono (show 0 < r.natAbs by omega)
    omega
  · omega
  · have := hmono (show r.natAbs < s.natAbs by omega)
    omega

/-! ### What an FP32 code stands for -/

/-- The code with its sign bit cleared, as a number. -/
def magCode (a : Word) : Nat := a.toNat % 2 ^ 31

theorem toNat_eq_magCode (a : Word) : a.toNat = (if isNeg32 a then 2 ^ 31 else 0) + magCode a := by
  have := a.isLt
  unfold isNeg32 magCode
  simp only [decide_eq_true_eq]
  split <;> omega

theorem magCode_lt (a : Word) : magCode a < 2 ^ 31 := Nat.mod_lt _ (by decide)

theorem valRank32_eq (a : Word) : valRank32 a = if isNeg32 a then -(magCode a : Int) else magCode a := by
  have h := toNat_eq_magCode a
  unfold valRank32
  by_cases hz : a = 0x80000000
  · subst hz
    rfl
  · rw [if_neg hz]
    split at h <;> simp_all

theorem rank32_eq (a : Word) : rank32 a = if isNeg32 a then -(magCode a : Int) - 1 else magCode a := by
  have h := toNat_eq_magCode a
  unfold rank32
  split at h <;> simp_all

/-- R196 by the fields of the code without its sign. -/
theorem fp32_eq (a : Word) : fp32 a =
    if magCode a / 2 ^ 23 = 255 then (if magCode a % 2 ^ 23 = 0 then .inf (isNeg32 a) else .nan)
    else if magCode a / 2 ^ 23 = 0 then .fin (isNeg32 a) (magCode a % 2 ^ 23) (-149)
    else .fin (isNeg32 a) (2 ^ 23 + magCode a % 2 ^ 23) ((magCode a / 2 ^ 23 : Nat) - 150) := by
  have := a.isLt
  have hneg : decide (a.toNat / 2 ^ (8 + 23) % 2 = 1) = isNeg32 a := by
    unfold isNeg32
    exact decide_eq_decide.mpr (by omega)
  have he : a.toNat / 2 ^ 23 % 2 ^ 8 = magCode a / 2 ^ 23 := by unfold magCode; omega
  have hm : a.toNat % 2 ^ 23 = magCode a % 2 ^ 23 := by unfold magCode; omega
  unfold fp32 decodeIeee
  simp only [hneg, he, hm]
  norm_num [sub_sub]

theorem magUnits_subnormal {k : Nat} (he : k / 2 ^ 23 = 0) : magUnits k = k % 2 ^ 23 := by
  rw [magUnits, he, if_pos rfl, Nat.zero_sub, Nat.pow_zero, Nat.mul_one]

theorem magUnits_normal {k e : Nat} (he : k / 2 ^ 23 = e + 1) : magUnits k = (2 ^ 23 + k % 2 ^ 23) * 2 ^ e := by
  rw [magUnits, he, if_neg (Nat.succ_ne_zero e), Nat.add_sub_cancel]

/-- The three kinds of code: NaN above infinity, infinity, and the finite codes below it with their values. -/
theorem fp32_cases (a : Word) :
    (0x7F800000 < magCode a ∧ fp32 a = .nan) ∨ (magCode a = 0x7F800000 ∧ fp32 a = .inf (isNeg32 a)) ∨
      (magCode a < 0x7F800000 ∧ ∃ m e, fp32 a = .fin (isNeg32 a) m e ∧
        (m : ℚ) * (2 : ℚ) ^ e = magUnits (magCode a) * (2 : ℚ) ^ (-149 : Int)) := by
  have hlt := magCode_lt a
  rw [fp32_eq]
  by_cases htop : magCode a / 2 ^ 23 = 255
  · rw [if_pos htop]
    by_cases hm : magCode a % 2 ^ 23 = 0
    · exact .inr (.inl ⟨by omega, if_pos hm⟩)
    · exact .inl ⟨by omega, if_neg hm⟩
  · rw [if_neg htop]
    refine .inr (.inr ⟨by omega, ?_⟩)
    by_cases h0 : magCode a / 2 ^ 23 = 0
    · exact ⟨_, _, if_pos h0, by rw [magUnits_subnormal h0]⟩
    · obtain ⟨e, he⟩ := Nat.exists_eq_succ_of_ne_zero h0
      refine ⟨_, _, if_neg h0, ?_⟩
      rw [magUnits_normal he, he, Nat.cast_mul, mul_assoc, Nat.cast_pow, Nat.cast_ofNat, ← zpow_natCast, ← zpow_add₀ two_ne_zero]
      congr 2
      push_cast
      ring

theorem fp32_rat {a : Word} {neg : Bool} {m : Nat} {e : Int} (h : fp32 a = .fin neg m e) :
    (fp32 a).rat = rankUnits (valRank32 a) * (2 : ℚ) ^ (-149 : Int) := by
  obtain ⟨-, hn⟩ | ⟨-, hi⟩ | ⟨-, m', e', hf, hval⟩ := fp32_cases a
  · simp [hn] at h
  · simp [hi] at h
  · have hzero := magUnits_zero
    rw [hf, Fp.rat, mul_assoc, hval, ← mul_assoc, valRank32_eq, rankUnits]
    congr 1
    cases isNeg32 a
    · simp
    · by_cases h0 : magCode a = 0
      · simp [h0, hzero]
      · simp [Nat.pos_of_ne_zero h0]

/-! ### The order of values is the order of ranks -/

/-- A code that is not NaN: an infinity at the end of the ranks, or a finite code between them. -/
theorem fp32_ordered {a : Word} (h : fp32 a ≠ .nan) :
    (fp32 a = .inf true ∧ valRank32 a = -0x7F800000) ∨ (fp32 a = .inf false ∧ valRank32 a = 0x7F800000) ∨
      (∃ neg m e, fp32 a = .fin neg m e) ∧ -0x7F800000 < valRank32 a ∧ valRank32 a < 0x7F800000 := by
  rw [valRank32_eq]
  obtain ⟨-, hn⟩ | ⟨hk, hi⟩ | ⟨hk, m, e, hf, -⟩ := fp32_cases a
  · exact absurd hn h
  · cases hs : isNeg32 a
    · exact .inr (.inl ⟨by rw [hi, hs], by simp [hk]⟩)
    · exact .inl ⟨by rw [hi, hs], by simp [hk]⟩
  · exact .inr (.inr ⟨⟨_, m, e, hf⟩, by split <;> omega, by split <;> omega⟩)

theorem fp32_order {a b : Word} (ha : fp32 a ≠ .nan) (hb : fp32 b ≠ .nan) :
    ((fp32 a).lt (fp32 b) ↔ valRank32 a < valRank32 b) ∧ ((fp32 a).same (fp32 b) ↔ valRank32 a = valRank32 b) := by
  obtain ⟨hfa, hra⟩ | ⟨hfa, hra⟩ | ⟨⟨_, _, _, hfa⟩, hra⟩ := fp32_ordered ha <;>
    obtain ⟨hfb, hrb⟩ | ⟨hfb, hrb⟩ | ⟨⟨_, _, _, hfb⟩, hrb⟩ := fp32_ordered hb
  case inr.inr.inr.inr =>
    have hunit : (0 : ℚ) < (2 : ℚ) ^ (-149 : Int) := by positivity
    have hlt : (fp32 a).lt (fp32 b) ↔ (fp32 a).rat < (fp32 b).rat := by rw [hfa, hfb]; rfl
    have hsame : (fp32 a).same (fp32 b) ↔ (fp32 a).rat = (fp32 b).rat := by rw [hfa, hfb]; rfl
    rw [hlt, hsame, fp32_rat hfa, fp32_rat hfb, mul_lt_mul_iff_left₀ hunit, mul_left_inj' hunit.ne', Int.cast_lt, Int.cast_inj,
      rankUnits_strictMono.lt_iff_lt, rankUnits_strictMono.injective.eq_iff]
    exact ⟨Iff.rfl, Iff.rfl⟩
  all_goals
    rw [hfa, hfb]
    simp only [Fp.lt, Fp.same]
    constructor <;> simp <;> omega

/-! ### Maximum and minimum (R214) -/

theorem isNan32_iff (a : Word) : isNan32 a = true ↔ fp32 a = .nan := beq_iff_eq

theorem max32_nan {a b : Word} (h : fp32 a = .nan ∨ fp32 b = .nan) : max32 a b = nan32 :=
  if_pos (by rwa [Bool.or_eq_true, isNan32_iff, isNan32_iff])

theorem min32_nan {a b : Word} (h : fp32 a = .nan ∨ fp32 b = .nan) : min32 a b = nan32 :=
  if_pos (by rwa [Bool.or_eq_true, isNan32_iff, isNan32_iff])

theorem max32_ordered {a b : Word} (ha : fp32 a ≠ .nan) (hb : fp32 b ≠ .nan) : max32 a b = if rank32 a < rank32 b then b else a :=
  if_neg (by simp [isNan32_iff, ha, hb])

theorem min32_ordered {a b : Word} (ha : fp32 a ≠ .nan) (hb : fp32 b ≠ .nan) : min32 a b = if rank32 b < rank32 a then b else a :=
  if_neg (by simp [isNan32_iff, ha, hb])

/-- The rank of maximum and minimum goes on ordering what the value orders. -/
theorem rank32_lt_of_valRank32_lt {a b : Word} : valRank32 a < valRank32 b → rank32 a < rank32 b := by
  rw [valRank32_eq, valRank32_eq, rank32_eq, rank32_eq]
  split <;> split <;> omega

/-- Of two codes the one of the lower rank is the minimum and the other the maximum, in either operand order. -/
theorem maxMin_of_rank32_lt {a b : Word} (ha : fp32 a ≠ .nan) (hb : fp32 b ≠ .nan) (h : rank32 a < rank32 b) :
    max32 a b = b ∧ max32 b a = b ∧ min32 a b = a ∧ min32 b a = a := by
  have hba : ¬ rank32 b < rank32 a := Int.not_lt.mpr (Int.le_of_lt h)
  rw [max32_ordered ha hb, max32_ordered hb ha, min32_ordered ha hb, min32_ordered hb ha]
  simp only [if_pos h, if_neg hba, and_self]

theorem maxMin_self {a : Word} (ha : fp32 a ≠ .nan) : max32 a a = a ∧ min32 a a = a := by
  rw [max32_ordered ha ha, min32_ordered ha ha, ite_self]
  exact ⟨rfl, rfl⟩

/-! ### The predicates (R215, Table 4.7) -/

/-- A NaN operand makes NE and UN true, and every other predicate false. -/
theorem cmp32_nan {a b : Word} (h : fp32 a = .nan ∨ fp32 b = .nan) {p : Nat} (hp : p < 7) :
    cmp32 p a b = decide (p = 1 ∨ p = 6) := by
  have hun : (isNan32 a || isNan32 b) = true := by rwa [Bool.or_eq_true, isNan32_iff, isNan32_iff]
  interval_cases p <;> simp [cmp32, hun]

theorem not_lt_of_nan {x y : Fp} (h : x = .nan ∨ y = .nan) : ¬ x.lt y ∧ ¬ y.lt x ∧ ¬ x.same y := by
  obtain rfl | rfl := h
  · cases y <;> simp [Fp.lt, Fp.same]
  · cases x <;> simp [Fp.lt, Fp.same]

/-! ### O21 -/

theorem maxMin_values (a b : Word) :
    ((fp32 a = .nan ∨ fp32 b = .nan) → max32 a b = 0x7FC00000 ∧ min32 a b = 0x7FC00000) ∧
    (fp32 a ≠ .nan → fp32 b ≠ .nan →
      ((fp32 a).lt (fp32 b) → max32 a b = b ∧ max32 b a = b ∧ min32 a b = a ∧ min32 b a = a) ∧
      (a = 0x80000000 → b = 0 → max32 a b = b ∧ max32 b a = b ∧ min32 a b = a ∧ min32 b a = a) ∧
      max32 a a = a ∧ min32 a a = a) := by
  refine ⟨fun h => ⟨max32_nan h, min32_nan h⟩, fun ha hb => ⟨fun h => ?_, ?_, maxMin_self ha⟩⟩
  · exact maxMin_of_rank32_lt ha hb (rank32_lt_of_valRank32_lt ((fp32_order ha hb).1.mp h))
  · rintro rfl rfl
    exact maxMin_of_rank32_lt ha hb (by decide)

theorem predicates_values (a b : Word) :
    (cmp32 0 a b = true ↔ (fp32 a).same (fp32 b)) ∧ (cmp32 1 a b = true ↔ ¬(fp32 a).same (fp32 b)) ∧
    (cmp32 2 a b = true ↔ (fp32 a).lt (fp32 b)) ∧ (cmp32 3 a b = true ↔ (fp32 a).lt (fp32 b) ∨ (fp32 a).same (fp32 b)) ∧
    (cmp32 4 a b = true ↔ (fp32 b).lt (fp32 a)) ∧ (cmp32 5 a b = true ↔ (fp32 b).lt (fp32 a) ∨ (fp32 a).same (fp32 b)) ∧
    (cmp32 6 a b = true ↔ fp32 a = .nan ∨ fp32 b = .nan) := by
  by_cases h : fp32 a = .nan ∨ fp32 b = .nan
  · simp [cmp32_nan h, not_lt_of_nan h, h]
  · obtain ⟨ha, hb⟩ := not_or.mp h
    have hun : (isNan32 a || isNan32 b) = false := by
      rw [← Bool.not_eq_true, Bool.or_eq_true, isNan32_iff, isNan32_iff]
      exact h
    have hge : valRank32 b ≤ valRank32 a ↔ valRank32 b < valRank32 a ∨ valRank32 a = valRank32 b := by omega
    rw [(fp32_order ha hb).1, (fp32_order ha hb).2, (fp32_order hb ha).1]
    simp [cmp32, hun, h, le_iff_lt_or_eq, ← hge]

/-- Settles O21: both follow the rank of a code, which orders codes as their values do. -/
theorem maxMinAndPredicates : Obligations.MaxMinAndPredicates := by
  unfold Obligations.MaxMinAndPredicates
  exact ⟨maxMin_values, predicates_values⟩

end Sys2Proof.Laws

/-! # Rounding to a grid, conversions and special functions, and O22 -/

namespace Sys2Proof.Laws

open Sys2Proof Sys2Proof.Machine

/-! ### Magnitudes as numbers -/

/-- A mantissa moved to a lower exponent stands for the same number. -/
theorem shiftLeft_mul_zpow (m : Nat) {b e : Int} (h : b ≤ e) :
    ((m <<< (e - b).toNat : Nat) : ℚ) * (2 : ℚ) ^ b = m * (2 : ℚ) ^ e := by
  obtain ⟨k, hk⟩ := Int.le.dest h
  obtain rfl : e = b + k := hk.symm
  rw [add_sub_cancel_left, Int.toNat_natCast, Nat.shiftLeft_eq, Nat.cast_mul, Nat.cast_pow, Nat.cast_ofNat, mul_assoc,
    ← zpow_natCast, ← zpow_add₀ two_ne_zero, add_comm b]

theorem magLt_iff (m : Nat) (e : Int) (n : Nat) (f : Int) : magLt m e n f = true ↔ (m : ℚ) * (2 : ℚ) ^ e < n * (2 : ℚ) ^ f := by
  have hpos : (0 : ℚ) < (2 : ℚ) ^ min e f := by positivity
  unfold magLt
  rw [decide_eq_true_eq, ← shiftLeft_mul_zpow m (min_le_left e f), ← shiftLeft_mul_zpow n (min_le_right e f),
    mul_lt_mul_iff_left₀ hpos, Nat.cast_lt]

theorem bitLen_bounds {m : Nat} (h : m ≠ 0) : 2 ^ (bitLen m - 1) ≤ m ∧ m < 2 ^ bitLen m := by
  rw [bitLen, if_neg h, Nat.add_sub_cancel]
  exact ⟨Nat.log2_self_le h, Nat.lt_log2_self⟩

theorem bitLen_pos {m : Nat} (h : m ≠ 0) : 0 < bitLen m := by
  rw [bitLen, if_neg h]
  exact Nat.succ_pos _

/-! ### Nearest, ties to even (R191) -/

/-- `n` is the nearest integer of `y`, an even one if `y` lies in the middle. -/
def NearestEven (y : ℚ) (n : Nat) : Prop :=
  (n - 1 / 2 ≤ y ∧ y ≤ n + 1 / 2) ∧ (n % 2 = 1 → n - 1 / 2 < y ∧ y < n + 1 / 2)

/-- The midpoint above an odd number rounds up. -/
theorem NearestEven.odd_lt_iff {y : ℚ} {n k : Nat} (h : NearestEven y n) (hk : k % 2 = 1) : k < n ↔ (k : ℚ) + 1 / 2 ≤ y := by
  obtain ⟨⟨hlow, hhigh⟩, hodd⟩ := h
  constructor
  · intro hkn
    have : (k : ℚ) + 1 ≤ n := by exact_mod_cast hkn
    linarith
  · intro hy
    by_contra hkn
    obtain hlt | rfl := Nat.lt_or_eq_of_le (Nat.not_lt.mp hkn)
    · have : (n : ℚ) + 1 ≤ k := by exact_mod_cast hlt
      linarith
    · exact absurd hy (not_le.mpr (hodd hk).2)

/-- The midpoint above an even number rounds down. -/
theorem NearestEven.even_lt_iff {y : ℚ} {n k : Nat} (h : NearestEven y n) (hk : k % 2 = 0) : k < n ↔ (k : ℚ) + 1 / 2 < y := by
  obtain ⟨⟨hlow, hhigh⟩, hodd⟩ := h
  constructor
  · intro hkn
    obtain hlt | rfl := Nat.lt_or_eq_of_le hkn
    · have : (k : ℚ) + 1 + 1 ≤ n := by exact_mod_cast hlt
      linarith
    · have := (hodd (by omega)).1
      push_cast at this
      linarith
  · intro hy
    by_contra hkn
    have : (n : ℚ) ≤ k := by exact_mod_cast Nat.not_lt.mp hkn
    linarith

theorem nearestEven_natCast (n : Nat) : NearestEven n n := by
  refine ⟨⟨?_, ?_⟩, fun _ => ⟨?_, ?_⟩⟩ <;> linarith

theorem NearestEven.le_of_natCast_le {y : ℚ} {n k : Nat} (h : NearestEven y n) (hk : (k : ℚ) ≤ y) : k ≤ n := by
  obtain ⟨⟨-, hhigh⟩, -⟩ := h
  by_contra hn
  have : (n : ℚ) + 1 ≤ k := by exact_mod_cast Nat.not_le.mp hn
  linarith

theorem NearestEven.le_of_le_natCast {y : ℚ} {n k : Nat} (h : NearestEven y n) (hk : y ≤ k) : n ≤ k := by
  obtain ⟨⟨hlow, -⟩, -⟩ := h
  by_contra hn
  have : (k : ℚ) + 1 ≤ n := by exact_mod_cast Nat.not_le.mp hn
  linarith

/-- A quotient `n` with the remainder `r` rounds by the comparison of `r` with half the divisor. -/
theorem nearestEven_quotient {n r half : Nat} {y : ℚ} (hr : r < 2 * half) (hy : y * (2 * half) = n * (2 * half) + r) :
    NearestEven y (if half < r ∨ (r = half ∧ n % 2 = 1) then n + 1 else n) := by
  have hpos : (0 : ℚ) < half := by exact_mod_cast (by omega : 0 < half)
  have hr0 : (0 : ℚ) ≤ r := Nat.cast_nonneg r
  have hr2 : (r : ℚ) < 2 * half := by exact_mod_cast hr
  have hle {x z : ℚ} (h : x * (2 * half) ≤ z * (2 * half)) : x ≤ z := le_of_mul_le_mul_right h (by linarith)
  have hlt {x z : ℚ} (h : x * (2 * half) < z * (2 * half)) : x < z := lt_of_mul_lt_mul_right h (by linarith)
  split
  · next hup =>
    have hge : (half : ℚ) ≤ r := by exact_mod_cast (by omega : half ≤ r)
    rw [NearestEven, Nat.cast_succ]
    refine ⟨⟨hle (by linarith), hle (by linarith)⟩, fun hodd => ?_⟩
    have hgt : (half : ℚ) < r := by exact_mod_cast (by omega : half < r)
    exact ⟨hlt (by linarith), hlt (by linarith)⟩
  · next hdown =>
    have hge : (r : ℚ) ≤ half := by exact_mod_cast (by omega : r ≤ half)
    refine ⟨⟨hle (by linarith), hle (by linarith)⟩, fun hodd => ?_⟩
    have hgt : (r : ℚ) < half := by exact_mod_cast (by omega : r < half)
    exact ⟨hlt (by linarith), hlt (by linarith)⟩

/-! ### Rounding to a grid -/

/-- The exponent of the grid that a number is rounded to: `p` significant bits, and none below `emin`. -/
def gridExp (m : Nat) (e : Int) (p : Nat) (emin : Int) : Int := max (e + bitLen m - p) emin

/-- The rounded number is the nearest multiple of its grid's step, and its exponent is one of the format's grid. -/
theorem roundGrid_spec (m : Nat) (e : Int) (p : Nat) (emin : Int) :
    emin ≤ (roundGrid m e p emin).2 ∧ ∃ n : Nat, NearestEven (m * (2 : ℚ) ^ (e - gridExp m e p emin)) n ∧
      ((roundGrid m e p emin).1 : ℚ) * (2 : ℚ) ^ (roundGrid m e p emin).2 = n * (2 : ℚ) ^ gridExp m e p emin := by
  have hmin : emin ≤ gridExp m e p emin := le_max_right _ _
  unfold roundGrid
  dsimp only
  rw [← gridExp]
  generalize gridExp m e p emin = q at hmin ⊢
  by_cases hq : q ≤ e
  · rw [if_pos hq]
    refine ⟨hmin.trans hq, m <<< (e - q).toNat, ?_, (shiftLeft_mul_zpow m hq).symm⟩
    rw [zpow_sub₀ two_ne_zero, ← mul_div_assoc, ← shiftLeft_mul_zpow m hq, mul_div_assoc, div_self (by positivity), mul_one]
    exact nearestEven_natCast _
  · rw [if_neg hq]
    refine ⟨hmin, _, ?_, rfl⟩
    obtain ⟨k, hk⟩ : ∃ k : Nat, (q - e).toNat = k + 1 := ⟨(q - e).toNat - 1, by omega⟩
    have hexp : e - q = -((k + 1 : Nat) : Int) := by omega
    simp only [hk, Nat.shiftLeft_eq, Nat.shiftRight_eq_div_pow, Nat.add_sub_cancel, one_mul, hexp]
    have hdiv := Nat.div_add_mod' m (2 ^ (k + 1))
    have hmod := Nat.mod_lt m (Nat.two_pow_pos (k + 1))
    rw [← Nat.mod_eq_sub_div_mul]
    refine nearestEven_quotient (by omega) ?_
    have hcast : (m : ℚ) = (m / 2 ^ (k + 1) : Nat) * 2 ^ (k + 1) + (m % 2 ^ (k + 1) : Nat) := by exact_mod_cast hdiv.symm
    have hhalf : (2 : ℚ) * (2 ^ k : Nat) = 2 ^ (k + 1) := by push_cast; ring
    rw [hhalf, ← hcast, zpow_neg, zpow_natCast]
    field_simp

/-- In steps of its grid a number has at most `p` bits, and `p` of them unless it lies on the subnormal grid. -/
theorem gridExp_bounds {m : Nat} (hm : m ≠ 0) (e : Int) (p : Nat) (emin : Int) :
    (m : ℚ) * (2 : ℚ) ^ (e - gridExp m e p emin) ≤ (2 ^ p : Nat) ∧
      (emin < gridExp m e p emin → 1 ≤ p → ((2 ^ (p - 1) : Nat) : ℚ) ≤ m * (2 : ℚ) ^ (e - gridExp m e p emin)) := by
  obtain ⟨hlow, hhigh⟩ := bitLen_bounds hm
  have hlen := bitLen_pos hm
  have htwo : (1 : ℚ) ≤ 2 := one_le_two
  have hle : e + bitLen m - p ≤ gridExp m e p emin := le_max_left _ _
  constructor
  · have hm' : (m : ℚ) ≤ (2 : ℚ) ^ (bitLen m : Int) := by exact_mod_cast hhigh.le
    calc (m : ℚ) * (2 : ℚ) ^ (e - gridExp m e p emin)
        ≤ (2 : ℚ) ^ (bitLen m : Int) * (2 : ℚ) ^ (e - gridExp m e p emin) := by gcongr
      _ = (2 : ℚ) ^ (bitLen m + (e - gridExp m e p emin)) := (zpow_add₀ two_ne_zero _ _).symm
      _ ≤ (2 : ℚ) ^ (p : Int) := zpow_le_zpow_right₀ htwo (by omega)
      _ = (2 ^ p : Nat) := by norm_cast
  · intro hgrid hp
    have heq : gridExp m e p emin = e + bitLen m - p := by unfold gridExp at hgrid ⊢; omega
    have hm' : (2 : ℚ) ^ ((bitLen m - 1 : Nat) : Int) ≤ m := by exact_mod_cast hlow
    calc ((2 ^ (p - 1) : Nat) : ℚ)
        = (2 : ℚ) ^ ((p - 1 : Nat) : Int) := by norm_cast
      _ = (2 : ℚ) ^ ((bitLen m - 1 : Nat) + (e - gridExp m e p emin)) := by congr 1; omega
      _ = (2 : ℚ) ^ ((bitLen m - 1 : Nat) : Int) * (2 : ℚ) ^ (e - gridExp m e p emin) := zpow_add₀ two_ne_zero _ _
      _ ≤ m * (2 : ℚ) ^ (e - gridExp m e p emin) := by gcongr

theorem roundGrid_zero (e : Int) (p : Nat) (emin : Int) : (roundGrid 0 e p emin).1 = 0 := by
  unfold roundGrid
  dsimp only
  split <;> simp

theorem two_mul_zpow_le {a b : Int} (h : a < b) : 2 * (2 : ℚ) ^ a ≤ (2 : ℚ) ^ b := by
  rw [← zpow_one_add₀ two_ne_zero]
  exact zpow_le_zpow_right₀ one_le_two (by omega)

theorem mul_zpow_sub_mul (x : ℚ) (e q : Int) : x * (2 : ℚ) ^ (e - q) * (2 : ℚ) ^ q = x * (2 : ℚ) ^ e := by
  rw [mul_assoc, ← zpow_add₀ two_ne_zero, sub_add_cancel]

/-- R210: the greatest number of `p` bits at exponent `ge` is exceeded exactly from the midpoint above it on. -/
theorem roundGrid_exceeds_iff (m : Nat) (e : Int) {p g : Nat} {emin ge : Int} (hp : 1 ≤ p) (hg : g + 1 = 2 ^ p) (hge : emin ≤ ge) :
    (g : ℚ) * (2 : ℚ) ^ ge < (roundGrid m e p emin).1 * (2 : ℚ) ^ (roundGrid m e p emin).2 ↔
      ((g : ℚ) + 1 / 2) * (2 : ℚ) ^ ge ≤ m * (2 : ℚ) ^ e := by
  have hpow {q : Int} : (0 : ℚ) < (2 : ℚ) ^ q := by positivity
  have hg0 : (0 : ℚ) ≤ g := Nat.cast_nonneg g
  by_cases hm : m = 0
  · have := hpow (q := ge)
    subst hm
    rw [roundGrid_zero, Nat.cast_zero, zero_mul, zero_mul]
    constructor <;> intro h <;> nlinarith
  obtain ⟨-, n, hnear, hval⟩ := roundGrid_spec m e p emin
  obtain ⟨hhigh, hlow⟩ := gridExp_bounds hm e p emin
  rw [hval, ← mul_zpow_sub_mul m e (gridExp m e p emin)]
  generalize gridExp m e p emin = q at *
  generalize (m : ℚ) * (2 : ℚ) ^ (e - q) = y at *
  have hhalf : 2 ^ p = 2 * 2 ^ (p - 1) := by rw [← Nat.pow_succ', Nat.succ_eq_add_one, Nat.sub_add_cancel hp]
  generalize 2 ^ (p - 1) = b at *
  have hgb : (g : ℚ) + 1 = 2 * b := by exact_mod_cast hg.trans hhalf
  have hbg : (b : ℚ) ≤ g := by exact_mod_cast (by omega : b ≤ g)
  obtain hlt | rfl | hgt := lt_trichotomy q ge
  · have hn : (n : ℚ) ≤ (2 ^ p : Nat) := by exact_mod_cast hnear.le_of_le_natCast hhigh
    have hfit : ((2 ^ p : Nat) : ℚ) * (2 : ℚ) ^ q ≤ g * (2 : ℚ) ^ ge := calc
      ((2 ^ p : Nat) : ℚ) * (2 : ℚ) ^ q = b * (2 * (2 : ℚ) ^ q) := by rw [hhalf]; push_cast; ring
      _ ≤ g * (2 : ℚ) ^ ge := mul_le_mul hbg (two_mul_zpow_le hlt) (by positivity) hg0
    have hmid : (g : ℚ) * (2 : ℚ) ^ ge < (g + 1 / 2) * (2 : ℚ) ^ ge := mul_lt_mul_of_pos_right (by linarith) hpow
    have hround := mul_le_mul_of_nonneg_right hn (hpow (q := q)).le
    have hexact := mul_le_mul_of_nonneg_right hhigh (hpow (q := q)).le
    constructor <;> intro h <;> linarith
  · rw [mul_lt_mul_iff_left₀ hpow, mul_le_mul_iff_left₀ hpow, Nat.cast_lt]
    exact hnear.odd_lt_iff (by omega)
  · have hlow := hlow (hge.trans_lt hgt) hp
    have hn : (b : ℚ) ≤ n := by exact_mod_cast hnear.le_of_natCast_le hlow
    have hover : ((g : ℚ) + 1 / 2) * (2 : ℚ) ^ ge < b * (2 : ℚ) ^ q := calc
      ((g : ℚ) + 1 / 2) * (2 : ℚ) ^ ge < (2 * b) * (2 : ℚ) ^ ge := mul_lt_mul_of_pos_right (by linarith) hpow
      _ = b * (2 * (2 : ℚ) ^ ge) := by ring
      _ ≤ b * (2 : ℚ) ^ q := mul_le_mul_of_nonneg_left (two_mul_zpow_le hgt) (Nat.cast_nonneg b)
    have hmid : (g : ℚ) * (2 : ℚ) ^ ge < (g + 1 / 2) * (2 : ℚ) ^ ge := mul_lt_mul_of_pos_right (by linarith) hpow
    have hround := mul_le_mul_of_nonneg_right hn (hpow (q := q)).le
    have hexact := mul_le_mul_of_nonneg_right hlow (hpow (q := q)).le
    constructor <;> intro h <;> linarith

/-- R210: half the least subnormal, and what lies below it, rounds to zero. -/
theorem roundGrid_eq_zero_iff (m : Nat) (e : Int) {p : Nat} (hp : 1 ≤ p) (emin : Int) :
    (roundGrid m e p emin).1 = 0 ↔ (m : ℚ) * (2 : ℚ) ^ e ≤ (2 : ℚ) ^ (emin - 1) := by
  have hpow {q : Int} : (0 : ℚ) < (2 : ℚ) ^ q := by positivity
  by_cases hm : m = 0
  · subst hm
    simp [roundGrid_zero, hpow.le]
  obtain ⟨-, n, hnear, hval⟩ := roundGrid_spec m e p emin
  have hzero : (roundGrid m e p emin).1 = 0 ↔ ¬ 0 < n := by
    rw [Nat.pos_iff_ne_zero, not_not, ← Nat.cast_eq_zero (R := ℚ), ← Nat.cast_eq_zero (R := ℚ), ← mul_eq_zero_iff_right hpow.ne', hval,
      mul_eq_zero_iff_right hpow.ne']
  obtain ⟨-, hlow⟩ := gridExp_bounds hm e p emin
  rw [hzero, hnear.even_lt_iff rfl, not_lt, ← mul_zpow_sub_mul m e (gridExp m e p emin)]
  have hmin : emin ≤ gridExp m e p emin := le_max_right _ _
  generalize gridExp m e p emin = q at *
  generalize (m : ℚ) * (2 : ℚ) ^ (e - q) = y at *
  have hhalf : 2 * (2 : ℚ) ^ (emin - 1) = (2 : ℚ) ^ emin := by
    rw [← zpow_one_add₀ two_ne_zero, add_sub_cancel]
  rw [Nat.cast_zero, zero_add]
  obtain rfl | hlt := hmin.eq_or_lt
  · rw [← mul_le_mul_iff_left₀ (hpow (q := emin)), ← hhalf]
    constructor <;> intro h <;> linarith
  · have hy : (1 : ℚ) ≤ y := (by exact_mod_cast Nat.one_le_two_pow : (1 : ℚ) ≤ (2 ^ (p - 1) : Nat)).trans (hlow hlt hp)
    have hstep := two_mul_zpow_le hlt
    constructor <;> intro h <;> nlinarith [hpow (q := emin - 1)]

/-! ### Codes of magnitudes -/

/-- The mantissa of a magnitude on its grid, with its leading bit. -/
def gridMantissa (p : Nat) (emin : Int) (m : Nat) (e : Int) : Nat :=
  if gridExp m e p emin ≤ e then m <<< (e - gridExp m e p emin).toNat else m >>> (gridExp m e p emin - e).toNat

/-- The code of a magnitude of `p` significant bits, on a grid that begins at `emin` (R196, R198, R199). -/
def gridCode (p : Nat) (emin : Int) (m : Nat) (e : Int) : Nat :=
  if m = 0 then 0
  else if gridMantissa p emin m e < 2 ^ (p - 1) then gridMantissa p emin m e
  else (gridExp m e p emin + (1 - emin)).toNat * 2 ^ (p - 1) + (gridMantissa p emin m e - 2 ^ (p - 1))

theorem code_eq_gridCode (f : Fmt) : f.code = gridCode f.shape.1 f.shape.2.1 := by
  funext m e
  cases f <;> norm_num [Fmt.code, Fmt.shape, gridCode, gridMantissa, gridExp, encodeIeee, add_assoc]

/-- Nothing of a magnitude on the grid lies below its lowest step, so its mantissa is not shifted out. -/
theorem gridMantissa_ne_zero {p : Nat} {emin : Int} {m : Nat} {e : Int} (hp : 1 ≤ p) (he : emin ≤ e) (hm : m ≠ 0) :
    gridMantissa p emin m e ≠ 0 := by
  unfold gridMantissa
  split
  · rw [Nat.shiftLeft_eq]
    exact Nat.mul_ne_zero hm (Nat.two_pow_pos _).ne'
  · next hq =>
    have hsh : (gridExp m e p emin - e).toNat ≤ bitLen m - 1 := by unfold gridExp at hq ⊢; omega
    rw [Nat.shiftRight_eq_div_pow]
    exact Nat.div_ne_zero_iff.mpr ⟨(Nat.two_pow_pos _).ne', (Nat.pow_le_pow_right two_pos hsh).trans (bitLen_bounds hm).1⟩

theorem gridCode_eq_zero_iff {p : Nat} {emin : Int} {m : Nat} {e : Int} (hp : 1 ≤ p) (he : emin ≤ e) :
    gridCode p emin m e = 0 ↔ m = 0 := by
  refine ⟨fun h => ?_, fun h => if_pos h⟩
  by_contra hm
  have hmin : emin ≤ gridExp m e p emin := le_max_right _ _
  rw [gridCode, if_neg hm] at h
  split at h
  · exact gridMantissa_ne_zero hp he hm h
  · have := Nat.mul_pos (show 0 < (gridExp m e p emin + (1 - emin)).toNat by omega) (Nat.two_pow_pos (p - 1))
    omega

/-! ### Conversions of finite sources (R208, R210) -/

/-- A conversion of a finite source is one rounding of the scaled source, which saturates past the format's greatest value. -/
theorem convert_fin (f : Fmt) (t : Int) (neg : Bool) (m : Nat) (e : Int) {p g : Nat} {emin ge : Int} (hf : f.shape = (p, emin, g, ge)) :
    ∃ n q, roundGrid m (e - t) p emin = (n, q) ∧ (convert f t (.fin neg m e)).isNan = false ∧ (convert f t (.fin neg m e)).isInf = false ∧
      (convert f t (.fin neg m e)).sat = magLt g ge n q ∧
      (convert f t (.fin neg m e)).isZero = decide ((if magLt g ge n q then f.code g ge else f.code n q) = 0) :=
  ⟨(roundGrid m (e - t) p emin).1, (roundGrid m (e - t) p emin).2, rfl, rfl, rfl, by simp only [convert, hf], by simp only [convert, hf]⟩

/-- The shape of a format: its greatest value has all its `p` bits set, and Table 4.4 has the midpoints at its two ends. -/
theorem shape_thresholds (f : Fmt) : ∃ p g emin ge, f.shape = (p, emin, g, ge) ∧ 1 ≤ p ∧ g + 1 = 2 ^ p ∧ emin ≤ ge ∧
    f.saturatesAt = ((g : ℚ) + 1 / 2) * (2 : ℚ) ^ ge ∧ f.zeroUpTo = (2 : ℚ) ^ (emin - 1) := by
  cases f <;> exact ⟨_, _, _, _, rfl, by norm_num, by norm_num, by norm_num, by norm_num [Fmt.saturatesAt, zpow_ofNat],
    by norm_num [Fmt.zeroUpTo]⟩

theorem convert_thresholds (f : Fmt) (t : Int) (neg : Bool) (m : Nat) (e : Int) :
    ((convert f t (.fin neg m e)).sat = true ↔ f.saturatesAt ≤ (m : ℚ) * (2 : ℚ) ^ (e - t)) ∧
    ((convert f t (.fin neg m e)).isZero = true ↔ (m : ℚ) * (2 : ℚ) ^ (e - t) ≤ f.zeroUpTo) ∧
    (convert f t (.fin neg m e)).isNan = false ∧ (convert f t (.fin neg m e)).isInf = false := by
  obtain ⟨p, g, emin, ge, hf, hp, hg, hge, hsat, hzero⟩ := shape_thresholds f
  obtain ⟨n, q, hr, hnan, hinf, hs, hz⟩ := convert_fin f t neg m e hf
  have hcode : f.code = gridCode p emin := by rw [code_eq_gridCode, hf]
  have hq := (roundGrid_spec m (e - t) p emin).1
  have hexceeds := roundGrid_exceeds_iff m (e - t) hp hg hge
  have hunder := roundGrid_eq_zero_iff m (e - t) hp emin
  rw [hr] at hq hexceeds hunder
  have hg0 : g ≠ 0 := by
    rintro rfl
    exact absurd hg (Nat.one_lt_two_pow (Nat.one_le_iff_ne_zero.mp hp)).ne
  refine ⟨?_, ?_, hnan, hinf⟩
  · rw [hs, magLt_iff, hsat, hexceeds]
  · rw [hz, hzero, ← hunder, decide_eq_true_eq, hcode]
    split
    · next hover =>
      rw [gridCode_eq_zero_iff hp hge]
      refine iff_of_false hg0 ?_
      rintro rfl
      rw [magLt_iff, Nat.cast_zero, zero_mul] at hover
      exact absurd hover (not_lt.mpr (by positivity))
    · exact gridCode_eq_zero_iff hp hq

/-! ### The special functions by the kind of their input (R231, Table 5.4) -/

theorem sfu_nan {x : Word} (h : fp32 x = .nan) : ∀ f ∈ [sfuExp, sfuLog, sfuRcp, sfuRsqrt, sfuSin, sfuCos], f x = nan32 := by
  simp only [List.forall_mem_cons, List.not_mem_nil, false_imp_iff, implies_true, and_true]
  refine ⟨?_, ?_, ?_, ?_, ?_, ?_⟩
  · simp only [sfuExp, h]
  · simp only [sfuLog, h]
  · simp only [sfuRcp, h]
  · simp only [sfuRsqrt, h]
  · simp only [sfuSin, h]
  · simp only [sfuCos, h]

section Infinity

variable {x : Word} {neg : Bool} (h : fp32 x = .inf neg)
include h

theorem sfuExp_inf : sfuExp x = if neg then 0 else inf32 false := by simp only [sfuExp, h]
theorem sfuLog_inf : sfuLog x = if neg then nan32 else inf32 false := by simp only [sfuLog, h]
theorem sfuRcp_inf : sfuRcp x = zero32 neg := by simp only [sfuRcp, h]
theorem sfuRsqrt_inf : sfuRsqrt x = if neg then nan32 else 0 := by simp only [sfuRsqrt, h]
theorem sfuSin_inf : sfuSin x = nan32 := by simp only [sfuSin, h]
theorem sfuCos_inf : sfuCos x = nan32 := by simp only [sfuCos, h]

end Infinity

section Zero

variable {x : Word} {neg : Bool} {e : Int} (h : fp32 x = .fin neg 0 e)
include h

theorem sfuLog_zero : sfuLog x = inf32 true := by simp only [sfuLog, h, if_true]
theorem sfuRcp_zero : sfuRcp x = inf32 neg := by simp only [sfuRcp, h, if_true]
theorem sfuRsqrt_zero : sfuRsqrt x = inf32 neg := by simp only [sfuRsqrt, h, if_true]
theorem sfuSin_zero : sfuSin x = x := by simp only [sfuSin, h, if_true]
theorem sfuCos_zero : sfuCos x = f32One := by simp only [sfuCos, h, if_true]

end Zero

theorem fin_le_iff (a b : Bool) (m n : Nat) (e f : Int) :
    (Fp.fin a m e).lt (.fin b n f) ∨ (Fp.fin a m e).same (.fin b n f) ↔ (Fp.fin a m e).rat ≤ (Fp.fin b n f).rat :=
  le_iff_lt_or_eq.symm

theorem rat_positive (m : Nat) (e : Int) : (Fp.fin false m e).rat = m * (2 : ℚ) ^ e := by simp [Fp.rat]

theorem rat_negative (m : Nat) (e : Int) : (Fp.fin true m e).rat = -(m * (2 : ℚ) ^ e) := by simp [Fp.rat]

theorem sfuExp_of_128_le {x : Word} (h : (Fp.fin false 128 0).lt (fp32 x) ∨ (Fp.fin false 128 0).same (fp32 x)) :
    sfuExp x = inf32 false := by
  cases hx : fp32 x with
  | nan => simp [hx, Fp.lt, Fp.same] at h
  | inf neg =>
    have hneg : neg = false := by simpa [hx, Fp.lt, Fp.same] using h
    rw [sfuExp_inf hx, hneg]
    rfl
  | fin neg m e =>
    rw [hx, fin_le_iff, rat_positive] at h
    cases neg
    case true =>
      rw [rat_negative] at h
      have : (0 : ℚ) ≤ m * (2 : ℚ) ^ e := by positivity
      norm_num at h
      linarith
    case false =>
      have hbig : magLt m e 128 0 = false := by
        rwa [← Bool.not_eq_true, magLt_iff, not_lt, ← rat_positive m e]
      simp only [sfuExp, hx, hbig, Bool.not_false, Bool.and_self, if_true]

theorem sfuExp_of_le_neg_160 {x : Word} (h : (fp32 x).lt (Fp.fin true 160 0) ∨ (fp32 x).same (Fp.fin true 160 0)) : sfuExp x = 0 := by
  cases hx : fp32 x with
  | nan => simp [hx, Fp.lt, Fp.same] at h
  | inf neg =>
    have hneg : neg = true := by simpa [hx, Fp.lt, Fp.same] using h
    rw [sfuExp_inf hx, hneg]
    rfl
  | fin neg m e =>
    rw [hx, fin_le_iff, rat_negative] at h
    cases neg
    case false =>
      rw [rat_positive] at h
      have : (0 : ℚ) ≤ m * (2 : ℚ) ^ e := by positivity
      norm_num at h
      linarith
    case true =>
      have hbig : magLt m e 160 0 = false := by
        rw [rat_negative, neg_le_neg_iff] at h
        rwa [← Bool.not_eq_true, magLt_iff, not_lt]
      simp only [sfuExp, hx, hbig, Bool.not_true, Bool.false_and, Bool.false_eq_true, if_false, Bool.not_false, Bool.and_self, if_true]

/-- A value below zero: minus infinity, or a finite value with its sign set that is not −0. -/
theorem lt_zero_cases {x : Fp} (h : x.lt (.fin false 0 0)) : x = .inf true ∨ ∃ m e, m ≠ 0 ∧ x = .fin true m e := by
  cases x with
  | nan => simp [Fp.lt] at h
  | inf neg => exact .inl (congrArg _ h)
  | fin neg m e =>
    have hpos : (0 : ℚ) ≤ m * (2 : ℚ) ^ e := by positivity
    have hlt : (Fp.fin neg m e).rat < (Fp.fin false 0 0).rat := h
    rw [rat_positive, Nat.cast_zero, zero_mul] at hlt
    cases neg
    case false =>
      rw [rat_positive] at hlt
      exact absurd hlt (not_lt.mpr hpos)
    case true =>
      refine .inr ⟨m, e, ?_, rfl⟩
      rintro rfl
      simp [rat_negative] at hlt

theorem sfu_of_lt_zero {x : Word} (h : (fp32 x).lt (Fp.fin false 0 0)) : sfuLog x = nan32 ∧ sfuRsqrt x = nan32 := by
  obtain hx | ⟨m, e, hm, hx⟩ := lt_zero_cases h
  · exact ⟨sfuLog_inf hx, sfuRsqrt_inf hx⟩
  · exact ⟨by simp only [sfuLog, hx, if_neg hm, if_true], by simp only [sfuRsqrt, hx, if_neg hm, if_true]⟩

/-! ### The codes of zero and infinity (Table 4.2) -/

theorem fp32_posZero : fp32 0 = .fin false 0 (-149) := by decide
theorem fp32_negZero : fp32 0x80000000 = .fin true 0 (-149) := by decide
theorem fp32_posInf : fp32 0x7F800000 = .inf false := by decide
theorem fp32_negInf : fp32 0xFF800000 = .inf true := by decide

/-! ### O22 -/

/-- Settles O22: a conversion rounds once, to a multiple of its grid's step, so both thresholds are midpoints between such multiples; and
each special input of Table 5.4 is a case of its function. -/
theorem conversionThresholds : Obligations.ConversionThresholds := by
  unfold Obligations.ConversionThresholds
  exact ⟨convert_thresholds, fun _ => sfu_nan, fun _ => sfuExp_of_128_le, fun _ => sfuExp_of_le_neg_160, fun _ => sfu_of_lt_zero,
    sfuLog_zero fp32_posZero, sfuLog_zero fp32_negZero, sfuLog_inf fp32_posInf,
    sfuRcp_zero fp32_posZero, sfuRcp_zero fp32_negZero, sfuRcp_inf fp32_posInf, sfuRcp_inf fp32_negInf,
    sfuRsqrt_zero fp32_posZero, sfuRsqrt_zero fp32_negZero, sfuRsqrt_inf fp32_posInf,
    sfuSin_inf fp32_posInf, sfuSin_inf fp32_negInf, sfuSin_zero fp32_posZero, sfuSin_zero fp32_negZero,
    sfuCos_inf fp32_posInf, sfuCos_inf fp32_negInf, sfuCos_zero fp32_posZero, sfuCos_zero fp32_negZero⟩

end Sys2Proof.Laws

/-! # Update ops chunk by chunk, and O40 -/

namespace Sys2Proof.Laws

open Sys2Proof Sys2Proof.Machine

/-! ### What plain reads of memory do not depend on (R355, R485) -/

/-- Only the instant, what has gone out, what the update engines keep and the lines of the pile caches differ, so every plain read of
memory gives the same. -/
def ReadsAlike (s t : State) : Prop :=
  ∃ n o x e, t = { s with now := n, out := o, upd := x, tier := { s.tier with edram := e } }

theorem readsAlike_refl (s : State) : ReadsAlike s s := ⟨s.now, s.out, s.upd, s.tier.edram, rfl⟩

theorem readsAlike_at (s : State) (t : Nat) : ReadsAlike s (s.at t) := ⟨_, s.out, s.upd, s.tier.edram, rfl⟩

theorem readsAlike_upd (s : State) (x : UpdSt) : ReadsAlike s { s with upd := x } := ⟨s.now, s.out, x, s.tier.edram, rfl⟩

theorem readsAlike_trans {s t u : State} (h : ReadsAlike s t) (g : ReadsAlike t u) : ReadsAlike s u := by
  obtain ⟨_, _, _, _, rfl⟩ := h
  obtain ⟨n, o, x, e, rfl⟩ := g
  exact ⟨n, o, x, e, rfl⟩

theorem readsAlike_foldl {α : Type} {f : State → α → State} (h : ∀ s x, ReadsAlike s (f s x)) (l : List α) (s : State) :
    ReadsAlike s (l.foldl f s) :=
  List.foldlRecOn l f (readsAlike_refl s) fun t ht x _ => readsAlike_trans ht (h t x)

theorem readsAlike_edramTouch (s : State) (pile line : Nat) (dirty : Bool) : ReadsAlike s (s.edramTouch pile line dirty) :=
  ⟨s.now, s.out, s.upd, _, rfl⟩

theorem readsAlike_ite {c : Prop} [Decidable c] {s a b : State} (ha : ReadsAlike s a) (hb : ReadsAlike s b) :
    ReadsAlike s (if c then a else b) := by
  split
  · exact ha
  · exact hb

theorem readsAlike_cacheAccess (s : State) (ag : Agent) (pl : Place) (write : Bool) : ReadsAlike s (s.cacheAccess ag pl write) := by
  unfold State.cacheAccess
  cases pl.loc with
  | dram n off =>
    exact readsAlike_ite (readsAlike_edramTouch s n _ write) (readsAlike_ite (readsAlike_edramTouch s n _ false) (readsAlike_refl s))
  | comb _ _ | sram _ _ | super _ => exact readsAlike_refl s

theorem readsAlike_recall (s : State) (ag : Agent) (ps : List Place) : ReadsAlike s (s.recall ag ps) := by
  unfold State.recall
  split
  · exact readsAlike_refl s
  · exact readsAlike_foldl (fun t _ => ⟨t.now, _, t.upd, t.tier.edram, rfl⟩) _ s

theorem readsAlike_touchRange (s : State) (ag : Agent) (a n : Nat) : ReadsAlike s (s.touchRange ag a n) := by
  unfold State.touchRange
  split
  · exact readsAlike_trans (readsAlike_recall s ag _) (readsAlike_foldl (fun t pl => readsAlike_cacheAccess t ag pl false) _ _)
  · exact readsAlike_refl s

theorem readsAlike_touchTensor (s : State) (n id off len : Nat) : ReadsAlike s (s.touchTensor n id off len) := by
  unfold State.touchTensor
  split
  · exact readsAlike_touchRange s _ _ _
  · exact readsAlike_refl s

theorem readsAlike_touchChunk (s : State) (n : Nat) (h : Shard) (g : Group) (c : Nat) (tags : List TagRef) :
    ReadsAlike s (s.touchChunk n h g c tags) := by
  have htags := readsAlike_foldl (fun t (x : TagRef) => readsAlike_touchTensor t n h.tag (32 * x.idx) 32) tags s
  unfold State.touchChunk
  dsimp only
  split
  · exact readsAlike_trans htags (readsAlike_touchTensor _ n h.touch _ _)
  · exact readsAlike_trans htags (readsAlike_touchTensor _ n h.freeze _ _)

theorem placesOf_of_readsAlike {s t : State} (h : ReadsAlike s t) (ag : Agent) (write : Bool) (a n : Nat) :
    t.placesOf ag write a n = s.placesOf ag write a n := by
  induction n generalizing a with
  | zero => rfl
  | succ n ih =>
    have hres : t.resolve a = s.resolve a := by
      obtain ⟨_, _, _, _, rfl⟩ := h
      rfl
    have hreach : ∀ pl, t.reaches ag pl write = s.reaches ag pl write := by
      obtain ⟨_, _, _, _, rfl⟩ := h
      exact fun _ => rfl
    simp only [State.placesOf, hres, hreach, ih]

theorem view_of_readsAlike {s t : State} (h : ReadsAlike s t) (a n : Nat) : t.view a n = s.view a n := by
  have hpeek : ∀ l, t.peek l = s.peek l := by
    obtain ⟨_, _, _, _, rfl⟩ := h
    exact fun _ => rfl
  simp only [State.view, placesOf_of_readsAlike h, hpeek]

/-- The committed step is what the step record says, whatever the caches hold. -/
theorem stepT_of_readsAlike {s t : State} (h : ReadsAlike s t) : t.stepT = s.stepT := by
  have hcfg : t.updCfg = s.updCfg := by
    obtain ⟨_, _, _, _, rfl⟩ := h
    rfl
  have htensor : ∀ id, t.tensor id = s.tensor id := by
    obtain ⟨_, _, _, _, rfl⟩ := h
    exact fun _ => rfl
  simp only [State.stepT, hcfg, htensor, view_of_readsAlike h]

/-! ### The stamps of a tag (Table 6.5) -/

/-- Step `t` follows `v` by 1 to 2^31 steps, modulo 2^32. -/
def FollowsBy (t v : Nat) : Prop := ∃ d, 1 ≤ d ∧ d ≤ 2 ^ 31 ∧ (v + d) % 2 ^ 32 = t

theorem followsBy_iff {t v : Nat} (ht : t < 2 ^ 32) (hv : v < 2 ^ 32) :
    FollowsBy t v ↔ 1 ≤ (t + 2 ^ 32 - v) % 2 ^ 32 ∧ (t + 2 ^ 32 - v) % 2 ^ 32 ≤ 2 ^ 31 := by
  constructor
  · rintro ⟨d, h1, h2, hd⟩
    omega
  · rintro ⟨h1, h2⟩
    exact ⟨_, h1, h2, by omega⟩

theorem not_followsBy_self {t : Nat} (ht : t < 2 ^ 32) : ¬FollowsBy t t := by
  rw [followsBy_iff ht ht]
  omega

theorem tagState_le (lazy : Bool) (tt t : Nat) (y : TagRef) : tagState lazy tt t y ≤ 3 := by
  unfold tagState
  dsimp only
  split_ifs <;> decide

/-- Of three cases that exclude each other, the state of a tag tells which holds. -/
theorem tagCase_iff {capped fresh half : Prop} [Decidable capped] [Decidable fresh] [Decidable half] (hcf : capped → ¬fresh)
    (hch : capped → ¬half) (hfh : fresh → ¬half) {k : Nat} (hk : k = if capped then 2 else if fresh then 0 else if half then 1 else 3) :
    (k = 0 ↔ fresh) ∧ (k = 1 ↔ half) ∧ (k = 2 ↔ capped) := by
  subst hk
  by_cases hc : capped
  · simp [hc, hcf hc, hch hc]
  · by_cases hf : fresh
    · simp [hc, hf, hfh hf]
    · by_cases hh : half <;> simp [hc, hf, hh]

/-- A dense tag: both stamps are of the step before, the moments' alone is of the target step, or both are. -/
theorem tagState_dense_iff {tt t : Nat} (y : TagRef) (h : tt ≠ t) :
    (tagState false tt t y = 0 ↔ y.mom = tt ∧ y.cap = tt) ∧ (tagState false tt t y = 1 ↔ y.mom = t ∧ y.cap = tt) ∧
      (tagState false tt t y = 2 ↔ y.mom = t ∧ y.cap = t) :=
  tagCase_iff (by omega) (by omega) (by omega) rfl

/-- A lazy tag may have rested for up to 2^31 steps. -/
theorem tagState_lazy_iff (tt : Nat) {t : Nat} {y : TagRef} (ht : t < 2 ^ 32) (hm : y.mom < 2 ^ 32) (hc : y.cap < 2 ^ 32) :
    (tagState true tt t y = 0 ↔ y.mom = y.cap ∧ FollowsBy t y.mom) ∧ (tagState true tt t y = 1 ↔ y.mom = t ∧ FollowsBy t y.cap) ∧
      (tagState true tt t y = 2 ↔ y.mom = t ∧ y.cap = t) := by
  classical
  have hself := not_followsBy_self ht
  refine tagCase_iff (fun ⟨hmom, _⟩ ⟨_, hb⟩ => hself (hmom ▸ hb)) (fun ⟨_, hcap⟩ ⟨_, hb⟩ => hself (hcap ▸ hb))
    (fun ⟨_, hb⟩ ⟨hmom, _⟩ => hself (hmom ▸ hb)) ?_
  simp only [tagState, followsBy_iff ht hm, followsBy_iff ht hc, decide_eq_true_eq, if_true]

/-! ### The chunks of an op (R260 to R262, R267 to R269) -/

/-- State of a tag against the committed step of `s` and the one after it. -/
def stampOf (s : State) (x : UpdCtx) (y : TagRef) : Nat :=
  tagState (decide (x.g.rule = 2)) (s.stepT % 2 ^ 32) ((s.stepT + 1) % 2 ^ 32) y

/-- The state once an engine has read the tags of a chunk. -/
def tagsRead (s : State) (u : UnitId) (h : Shard) (x : UpdCtx) (c : Nat) : State := s.touchChunk u.idx h x.g c (s.chunkTags h x.g c)

theorem stepT_touchChunk (s : State) (n : Nat) (h : Shard) (g : Group) (c : Nat) (tags : List TagRef) :
    (s.touchChunk n h g c tags).stepT = s.stepT := stepT_of_readsAlike (readsAlike_touchChunk s n h g c tags)

/-- The pieces of a chunk whose tags are in one state. -/
def piecesIn (s : State) (u : UnitId) (h : Shard) (x : UpdCtx) (c k : Nat) (recover : Bool) : List Piece :=
  ((s.chunkTags h x.g c).filter fun y => stampOf s x y == k).map fun y => (tagsRead s u h x c).piece h x.g (s.stepT + 1) recover y.idx

/-- The chunk's pieces whose moments are written take stage W. -/
def chunkRecovered (s : State) (u : UnitId) (r : RunSlot) (i : Nat) (h : Shard) (x : UpdCtx) (c : Nat) : State :=
  let a := tagsRead s u h x c
  let ps := piecesIn s u h x c 1 true
  if ps.isEmpty then a else a.weightPass (a.errCtx u r) r u.idx i h x ((s.stepT + 1) % 2 ^ 32) ps

/-- The chunk's pieces that are not started take stage M, and the chunk waits for its acknowledgement. -/
def chunkStaged (s : State) (u : UnitId) (r : RunSlot) (i : Nat) (h : Shard) (x : UpdCtx) (first j : Nat) : State :=
  let a := tagsRead s u h x (first + j)
  let ps := piecesIn s u h x (first + j) 0 false
  let b := a.momentPass r u.idx i h x ((s.stepT + 1) % 2 ^ 32) ps
  let y : Staged :=
    { eng := u.idx, shard := i, chunk := first + j, recovered := (piecesIn s u h x (first + j) 1 true).map (·.tag)
      fresh := ps.map (·.tag)
      needTwin := (a.mirrorsId h.m || a.mirrorsId h.tag || (x.g.rule != 3 && a.mirrorsId h.v)) && a.twinTakes
      ackPile := false, ackTwin := false }
  ({ b with upd := { b.upd with staged := b.upd.staged ++ [y] } } : State).setRun u { r with prog := j + 1 }

section Chunks

variable {s : State} {u : UnitId} {r : RunSlot} {i : Nat} {h : Shard} {x : UpdCtx} {first j : Nat} {js : List Nat}

theorem runChunks_hardCap {y : TagRef} (hy : (s.chunkTags h x.g (first + j)).find? (fun y => stampOf s x y == 3) = some y) :
    s.runChunks u r i h x first (j :: js) = (tagsRead s u h x (first + j)).hardCap r u.idx i h (decide (x.g.rule = 2)) y := by
  unfold stampOf at hy
  simp only [State.runChunks, stepT_touchChunk, hy, tagsRead]

/-- Without a hard fault the chunk takes stage M, or, when none of its tags needs it, the stage W that is due, and the op goes on. -/
theorem runChunks_noFault (h3 : ∀ y ∈ s.chunkTags h x.g (first + j), stampOf s x y ≠ 3) :
    s.runChunks u r i h x first (j :: js) =
      if (piecesIn s u h x (first + j) 0 false).isEmpty then
        (chunkRecovered s u r i h x (first + j)).runChunks u r i h x first js
      else chunkStaged s u r i h x first j := by
  have hnone : (s.chunkTags h x.g (first + j)).find? (fun y => stampOf s x y == 3) = none :=
    List.find?_eq_none.mpr fun y hy => by simpa using h3 y hy
  unfold stampOf at hnone
  simp only [State.runChunks, stepT_touchChunk, hnone]
  rfl

theorem piecesIn_all {c k : Nat} (recover : Bool) (hk : ∀ y ∈ s.chunkTags h x.g c, stampOf s x y = k) :
    piecesIn s u h x c k recover =
      (s.chunkTags h x.g c).map fun y => (tagsRead s u h x c).piece h x.g (s.stepT + 1) recover y.idx := by
  unfold piecesIn
  rw [List.filter_eq_self.mpr fun y hy => beq_iff_eq.mpr (hk y hy)]

theorem piecesIn_none {c k m : Nat} (recover : Bool) (hk : ∀ y ∈ s.chunkTags h x.g c, stampOf s x y = k) (hm : k ≠ m) :
    piecesIn s u h x c m recover = [] := by
  unfold piecesIn
  rw [List.filter_eq_nil_iff.mpr fun y hy => by simpa [hk y hy] using hm]
  rfl

/-- A capped chunk is skipped. -/
theorem runChunks_capped (hk : ∀ y ∈ s.chunkTags h x.g (first + j), stampOf s x y = 2) :
    s.runChunks u r i h x first (j :: js) = (tagsRead s u h x (first + j)).runChunks u r i h x first js := by
  rw [runChunks_noFault fun y hy => by rw [hk y hy]; decide, piecesIn_none false hk (by decide), chunkRecovered,
    piecesIn_none true hk (by decide)]
  rfl

/-- A chunk whose moments are written takes stage W. -/
theorem runChunks_written (hk : ∀ y ∈ s.chunkTags h x.g (first + j), stampOf s x y = 1) (hne : s.chunkTags h x.g (first + j) ≠ [])
    {a : State} (ha : a = tagsRead s u h x (first + j)) :
    s.runChunks u r i h x first (j :: js) = (a.weightPass (a.errCtx u r) r u.idx i h x ((s.stepT + 1) % 2 ^ 32)
      ((s.chunkTags h x.g (first + j)).map fun y => a.piece h x.g (s.stepT + 1) true y.idx)).runChunks u r i h x first js := by
  subst ha
  rw [runChunks_noFault fun y hy => by rw [hk y hy]; decide, piecesIn_none false hk (by decide), chunkRecovered, piecesIn_all true hk,
    if_pos List.isEmpty_nil, if_neg (by simpa using hne)]

/-- A chunk that is not started takes stage M. -/
theorem runChunks_fresh (hk : ∀ y ∈ s.chunkTags h x.g (first + j), stampOf s x y = 0) (hne : s.chunkTags h x.g (first + j) ≠ []) :
    s.runChunks u r i h x first (j :: js) = chunkStaged s u r i h x first j := by
  rw [runChunks_noFault fun y hy => by rw [hk y hy]; decide, piecesIn_all false hk, if_neg (by simpa using hne)]

theorem piece_tag (a : State) (g : Group) (t : Nat) (recover : Bool) (k : Nat) : (a.piece h g t recover k).tag = k := by
  unfold State.piece
  split <;> rfl

theorem upd_setRun (a : State) (v : UnitId) (q : RunSlot) : (a.setRun v q).upd = a.upd := by
  unfold State.setRun
  split <;> rfl

/-- The chunk that waits is the last of those that do: all of its tags are fresh, and neither acknowledgement is there. -/
theorem chunkStaged_last (hk : ∀ y ∈ s.chunkTags h x.g (first + j), stampOf s x y = 0) :
    ∃ y, (chunkStaged s u r i h x first j).upd.staged.getLast? = some y ∧ y.eng = u.idx ∧ y.shard = i ∧ y.chunk = first + j ∧
      y.recovered = [] ∧ y.fresh = (s.chunkTags h x.g (first + j)).map (·.idx) ∧ y.ackPile = false ∧ y.ackTwin = false := by
  unfold chunkStaged
  dsimp only
  rw [upd_setRun]
  refine ⟨_, List.getLast?_concat, rfl, rfl, rfl, ?_, ?_, rfl, rfl⟩
  · rw [piecesIn_none true hk (by decide), List.map_nil]
  · rw [piecesIn_all false hk, List.map_map]
    exact List.map_congr_left fun y _ => piece_tag _ _ _ _ _

end Chunks

/-! ### Errors of an engine (R264, R265) -/

theorem window_setWindow_map (s : State) (beat : Nat) {f : Win → Win} (hf : ∀ w, (f w).beat = w.beat) :
    (s.setWindow beat f).window beat = (s.window beat).map f := by
  have hprev : (s.beat.prev.map fun w => if w.beat = beat then f w else w).find? (·.beat == beat) =
      (s.beat.prev.find? (·.beat == beat)).map f := by
    have hkey : ((·.beat == beat) ∘ fun w : Win => if w.beat = beat then f w else w) = (·.beat == beat) := by
      funext w
      dsimp only [Function.comp]
      split
      · rw [hf]
      · rfl
    rw [List.find?_map, hkey]
    cases hfind : s.beat.prev.find? (·.beat == beat) with
    | none => rfl
    | some w =>
      have hb : w.beat = beat := by simpa using List.find?_some hfind
      exact congrArg some (if_pos hb)
  cases hw : s.beat.win with
  | none => simpa only [State.window, State.setWindow, hw, Option.map_none] using hprev
  | some w =>
    by_cases hb : w.beat = beat
    · simp only [State.window, State.setWindow, hw, Option.map_some, if_pos hb, hf]
    · simpa only [State.window, State.setWindow, hw, Option.map_some, if_neg hb] using hprev

/-- An engine that meets no error goes on. -/
theorem engineErrors_nil (s : State) (c : ErrCtx) (r : RunSlot) (n : Nat) : s.engineErrors c r n [] = s := by
  have hmeets : s.meetsFault c r.beat [] = false := by
    change (((s.setWindow r.beat fun w => { w with fault := false }).window r.beat).map (·.fault)).getD false = false
    rw [window_setWindow_map s r.beat (f := fun w => { w with fault := false }) fun _ => rfl]
    cases s.window r.beat <;> rfl
  simp only [State.engineErrors, hmeets, Bool.false_eq_true, if_false]
  rfl

/-! ### An engine's op (R260, R261) -/

theorem exec_updateOp (n t : Nat) (errs : List HwErr) (s : State) :
    exec (.updateOp n t errs) s = .next (applyUpdateOp n t errs s) := rfl

/-- The op of a slot is read in the running plan. -/
theorem updOp_congr {s t : State} (hf : t.fing = s.fing) (hc : t.casc = s.casc) (r : RunSlot) : t.updOp r = s.updOp r := by
  unfold State.updOp State.updCfg State.plan
  rw [hf, hc]

/-- Counting the skipped entries of a touch list logs them at most. -/
theorem updOp_countSkips (s : State) (c : ErrCtx) (n i : Nat) (h : Shard) (g : Group) (r : RunSlot) :
    (s.countSkips c n i h g).updOp r = s.updOp r := by
  have hlog : ∀ (b : State) (e : Ev), (b.logEntry e).updOp r = b.updOp r := fun b e =>
    updOp_congr (fing_of_onlyLog (onlyLog_logEntry (offs := []) b e)) (casc_of_onlyLog (onlyLog_logEntry (offs := []) b e)) r
  have hstep : ∀ (b : State) (key : Nat), (b.raiseStep key (c.ev 0x5006 0 { typ := 7, idx := n, sub := 0 })).updOp r = b.updOp r := by
    intro b key
    unfold State.raiseStep
    split
    · rfl
    · rw [raise_logged _ rfl, hlog]
      rfl
  unfold State.countSkips
  split
  · rfl
  · dsimp only
    split
    · rfl
    · rw [hstep]
      rfl

section Op

variable {n t : Nat} {r : RunSlot} {o : UpdOp} {h : Shard} {g : Group} {u : UnitId} {s : State}

/-- Without errors an op waits, has ended, waits for its shard, or goes on, by what the state holds. -/
theorem updateOp_eq (hu : u = { cls := 7, idx := n }) (hr : s.runOf u = some r) (ho : s.updOp r = some (o, h, g)) :
    applyUpdateOp n t [] s =
      if s.upd.staged.any (fun x => x.eng == n) || s.shardRestoring h || s.refreshing then s.at t
      else if s.upd.skip || s.upd.stopped.contains n then (s.at t).endRunOf u r
      else if s.shardAway h then (s.at t).setFld (Reg.updStatus n) 1 0 2
      else (((s.at t).setFld (Reg.updStatus n) 1 0 1).countSkips (s.errCtx u r) n o.shard h g).goOn u r := by
  subst hu
  have hr' : (s.at t).runOf { cls := 7, idx := n } = some r := hr
  have ho' : (s.at t).updOp r = some (o, h, g) := ho
  simp only [applyUpdateOp, hr, engineErrors_nil, hr', ho']
  rfl

variable (hu : u = { cls := 7, idx := n }) (hr : s.runOf u = some r) (ho : s.updOp r = some (o, h, g))
include hu hr ho

/-- The op waits while a stage M of its engine awaits its acknowledgement. -/
theorem updateOp_staged (hy : ∃ y ∈ s.upd.staged, y.eng = n) : applyUpdateOp n t [] s = s.at t := by
  have hany : s.upd.staged.any (fun x => x.eng == n) = true := by simpa using hy
  rw [updateOp_eq hu hr ho, hany]
  rfl

theorem updateOp_refreshing (hf : s.refreshing = true) : applyUpdateOp n t [] s = s.at t := by
  rw [updateOp_eq hu hr ho, hf, Bool.or_true, if_pos rfl]

variable (hy : ∀ y ∈ s.upd.staged, y.eng ≠ n) (hrest : s.shardRestoring h = false) (hf : s.refreshing = false)
include hy hrest hf

/-- Nothing holds the op back: whether it has ended, waits for its shard, or goes on. -/
theorem updateOp_free : applyUpdateOp n t [] s =
    if s.upd.skip || s.upd.stopped.contains n then (s.at t).endRunOf u r
    else if s.shardAway h then (s.at t).setFld (Reg.updStatus n) 1 0 2
    else (((s.at t).setFld (Reg.updStatus n) 1 0 1).countSkips (s.errCtx u r) n o.shard h g).goOn u r := by
  have hany : s.upd.staged.any (fun x => x.eng == n) = false := by simpa using hy
  rw [updateOp_eq hu hr ho, hany, hrest, hf]
  rfl

theorem updateOp_ends (hk : s.upd.skip = true ∨ n ∈ s.upd.stopped) : applyUpdateOp n t [] s = (s.at t).endRunOf u r := by
  rw [updateOp_free hu hr ho hy hrest hf, if_pos (by simpa using hk)]

theorem updateOp_away (hs : s.upd.skip = false) (hn : n ∉ s.upd.stopped) (ha : s.shardAway h = true) :
    applyUpdateOp n t [] s = (s.at t).setFld (Reg.updStatus n) 1 0 2 := by
  rw [updateOp_free hu hr ho hy hrest hf, if_neg (by simp [hs, hn]), if_pos ha]

/-- The op goes on from the slot's progress. -/
theorem updateOp_goesOn (hs : s.upd.skip = false) (hn : n ∉ s.upd.stopped) (ha : s.shardAway h = false) {a : State}
    (hA : a = ((s.at t).setFld (Reg.updStatus n) 1 0 1).countSkips (s.errCtx u r) n o.shard h g) :
    applyUpdateOp n t [] s = a.runChunks u r o.shard h (a.updCtx h.group g r.gs (a.stepT + 1)) o.firstChunk
      ((List.range (min o.chunks (a.chunkCount h g - o.firstChunk))).drop r.prog) := by
  have hop : a.updOp r = some (o, h, g) := by
    rw [hA, updOp_countSkips]
    exact ho
  rw [updateOp_free hu hr ho hy hrest hf, if_neg (by simp [hs, hn]), if_neg (by simp [ha]), ← hA]
  simp only [State.goOn, hop]

end Op

/-! ### O40 -/

/-- Settles O40: an op by what holds it back, its chunks by the state of their tags, and Table 6.5 as three cases that exclude each
other. -/
theorem updateOpsRunChunks : Obligations.UpdateOpsRunChunks := by
  unfold Obligations.UpdateOpsRunChunks
  refine ⟨⟨fun n t r o h g u s hu hr ho => ?_, fun u r i first j js h x s => ?_⟩, fun T y hT hm hc => ?_⟩
  · rw [exec_updateOp]
    refine ⟨fun hy => congrArg _ (updateOp_staged hu hr ho hy), fun hy hrest => ⟨fun hf => ?_, fun hf hk => ?_, fun hf hs hn ha => ?_,
      fun hf hs hn ha => ⟨_, rfl, ?_⟩⟩⟩
    · rw [updateOp_refreshing hu hr ho hf]
    · rw [updateOp_ends hu hr ho hy hrest hf hk]
    · exact ⟨_, congrArg _ (updateOp_away hu hr ho hy hrest hf hs hn ha), fld_setFld_self _ 2 (by decide) (by decide),
        onlyRegs_setFld _ 1 0 2 (List.mem_singleton_self _)⟩
    · rw [updateOp_goesOn hu hr ho hy hrest hf hs hn ha rfl]
  · exact ⟨rfl, runChunks_capped, fun hk hne => runChunks_written hk hne rfl,
      fun hk hne _ => ⟨_, runChunks_fresh hk hne, chunkStaged_last hk⟩, fun _ => runChunks_hardCap⟩
  · obtain ⟨h0, h1, h2⟩ := tagState_dense_iff y (tt := T) (t := (T + 1) % 2 ^ 32) (by omega)
    obtain ⟨l0, l1, l2⟩ := tagState_lazy_iff T (Nat.mod_lt (T + 1) (Nat.two_pow_pos 32)) hm hc
    exact ⟨h0, h1, h2, l0, l1, l2, fun lazy => tagState_le lazy _ _ y⟩

end Sys2Proof.Laws

/-! # Acknowledgements of stage M, the rates of a step, and O41 -/

namespace Sys2Proof.Laws

open Sys2Proof Sys2Proof.Machine

/-! ### Acknowledgements of stage M (R262, R263, R300) -/

theorem exec_stageMAck (n : Nat) (a : StageAck) (s : State) :
    exec (.stageMAck n a) s = .next (applyStageMAck n a.fromTwin a.errs s) := rfl

/-- A waiting chunk with the acknowledgement that has come. -/
def acknowledged (y : Staged) (twin : Bool) : Staged := { y with ackTwin := y.ackTwin || twin, ackPile := y.ackPile || !twin }

/-- The waiting chunk of an engine, replaced. -/
def noteAck (s : State) (n : Nat) (z : Staged) : State :=
  { s with upd := { s.upd with staged := s.upd.staged.map fun x => if x.eng = n then z else x } }

section Ack

variable {n : Nat} {twin : Bool} {u : UnitId} {r : RunSlot} {y z : Staged} {s : State}

/-- With its last acknowledgement stage W follows; before it, the one that came is noted. -/
theorem stageMAck_eq (errs : List HwErr) (hu : u = { cls := 7, idx := n }) (hr : s.runOf u = some r)
    (hy : s.upd.staged.find? (fun x => x.eng == n) = some y) (hz : z = acknowledged y twin) :
    applyStageMAck n twin errs s = if z.ackPile && (z.ackTwin || !z.needTwin) then s.afterAck u r z errs
      else (noteAck s n z).engineErrors (s.errCtx u r) r n errs := by
  subst hu hz
  simp only [applyStageMAck, hr, hy]
  cases twin <;> simp [acknowledged, noteAck]

theorem stageMAck_lacks (errs : List HwErr) (hu : u = { cls := 7, idx := n }) (hr : s.runOf u = some r)
    (hy : s.upd.staged.find? (fun x => x.eng == n) = some y) (hz : z = acknowledged y twin)
    (h : z.ackPile = false ∨ (z.ackTwin = false ∧ z.needTwin = true)) :
    applyStageMAck n twin errs s = (noteAck s n z).engineErrors (s.errCtx u r) r n errs := by
  rw [stageMAck_eq errs hu hr hy hz, if_neg]
  rcases h with h | ⟨ht, hn⟩
  · simp [h]
  · simp [ht, hn]

theorem stageMAck_complete (errs : List HwErr) (hu : u = { cls := 7, idx := n }) (hr : s.runOf u = some r)
    (hy : s.upd.staged.find? (fun x => x.eng == n) = some y) (hz : z = acknowledged y twin) (hp : z.ackPile = true)
    (ht : z.ackTwin = true ∨ z.needTwin = false) : applyStageMAck n twin errs s = s.afterAck u r z errs := by
  rw [stageMAck_eq errs hu hr hy hz, if_pos]
  simpa [hp] using ht

end Ack

/-- The pieces of a chunk that take stage W: those in recovery, and those whose moments it has just written. -/
def weightPieces (a : State) (h : Shard) (g : Group) (t : Nat) (z : Staged) : List Piece :=
  (z.recovered.map fun i => a.piece h g t true i) ++ z.fresh.map fun i => { a.piece h g t true i with recover := false }

/-- Stage W of a chunk for step `t`, and then the errors that the engine has met. -/
def weightsDone (a : State) (t : Nat) (u : UnitId) (r : RunSlot) (z : Staged) (h : Shard) (g : Group) (errs : List HwErr) : State :=
  (a.weightPass (a.errCtx u r) r u.idx z.shard h (a.updCtx h.group g r.gs t) (t % 2 ^ 32) (weightPieces a h g t z)).engineErrors
    (a.errCtx u r) r u.idx errs

/-- The chunk of an engine no longer waits. -/
def unstaged (s : State) (n : Nat) : State :=
  { s with upd := { s.upd with staged := s.upd.staged.filter fun x => !(x.eng == n) } }

theorem stepT_unstaged (s : State) (n : Nat) : (unstaged s n).stepT = s.stepT := stepT_of_readsAlike (readsAlike_upd s _)

/-- After stage W the op goes on, unless a fault has ended it. -/
theorem afterAck_eq (s : State) (u : UnitId) (r : RunSlot) (z : Staged) (errs : List HwErr) {o : UpdOp} {h : Shard} {g : Group}
    (ho : s.updOp r = some (o, h, g)) {b : State} (hb : b = weightsDone (unstaged s z.eng) (s.stepT + 1) u r z h g errs) :
    (∃ q, b.runOf u = some q ∧ s.afterAck u r z errs = b.goOn u q) ∨ (b.runOf u = none ∧ s.afterAck u r z errs = b) := by
  have hafter : s.afterAck u r z errs = (match b.runOf u with
      | some q => b.goOn u q
      | none => b) := by
    have ho' : (unstaged s z.eng).updOp r = some (o, h, g) := ho
    subst hb
    rw [← stepT_unstaged s z.eng]
    unfold unstaged at ho' ⊢
    simp only [State.afterAck, ho']
    rfl
  rw [hafter]
  cases hq : b.runOf u with
  | none => exact .inr ⟨rfl, rfl⟩
  | some q => exact .inl ⟨q, rfl, rfl⟩

/-! ### The rates of a step (R314, R316) -/

theorem exec_scheduleSlot (t : Nat) (s : State) : exec (.scheduleSlot t) s = .next (applyScheduleSlot t s) := rfl

theorem rateTable_length (s : State) (c : UpdCfg) (t : Nat) : (s.rateTable c t).length = c.groups.length := by
  simp [State.rateTable]

theorem rateTable_getD (s : State) {c : UpdCfg} (t : Nat) {i : Nat} {g : Group} (hg : c.groups[i]? = some g) :
    (s.rateTable c t).getD i 0 = s.groupRate i t g := by
  obtain ⟨hi, -⟩ := List.getElem?_eq_some_iff.mp hg
  simp [State.rateTable, List.getD_eq_getElem?_getD, List.getElem?_range hi, hg]

/-- Only the pieces that the schedule engine keeps differ. -/
theorem keepPieces_frame (s : State) (c : UpdCfg) (t : Nat) :
    ∃ ps, s.keepPieces c t = { s with upd := { s.upd with pieces := ps } } := by
  unfold State.keepPieces
  refine List.foldlRecOn _ _ (motive := fun v : State => ∃ ps, v = { s with upd := { s.upd with pieces := ps } }) ⟨s.upd.pieces, rfl⟩ ?_
  rintro _ ⟨ps, rfl⟩ i -
  cases c.groups[i]? with
  | none => exact ⟨ps, rfl⟩
  | some g => exact ⟨_, rfl⟩

theorem endRunOf_of_runOf {s : State} {u : UnitId} {r : RunSlot} (h : s.runOf u = some r) :
    s.endRunOf u r = s.setUnit u { s.unit u with run := some { r with ended := true } } := setRun_of_runOf h

/-- A slot that has ended is no longer run. -/
theorem runOf_ended {s : State} {u : UnitId} {r : RunSlot} (h : (s.unit u).run = some { r with ended := true }) : s.runOf u = none := by
  simp only [State.runOf, h, if_true]

/-- The slot of the schedule engine forms the table and ends. -/
theorem scheduleSlot_forms {t : Nat} {u : UnitId} {r : RunSlot} {c : UpdCfg} {s : State} (hu : u = { cls := 8, idx := 0 })
    (hr : s.runOf u = some r) (hc : s.updCfg = some c) : ∃ ps, applyScheduleSlot t s =
      ({ s.at t with upd := { s.upd with pieces := ps, ratesNew := some (r.beat, s.rateTable c (s.stepT + 1)) } } : State).setUnit u
        { s.unit u with run := some { r with ended := true } } := by
  subst hu
  obtain ⟨ps, hps⟩ := keepPieces_frame (s.at t) c (s.stepT + 1)
  refine ⟨ps, ?_⟩
  have htable : (s.at t).rateTable c (s.stepT + 1) = s.rateTable c (s.stepT + 1) := rfl
  have hstep : (s.at t).stepT = s.stepT := stepT_of_readsAlike (readsAlike_at s t)
  simp only [applyScheduleSlot, hr, hc, hstep, htable, hps]
  exact endRunOf_of_runOf hr

/-! ### O41 -/

/-- Settles O41: an acknowledgement by what the chunk still lacks, and the schedule engine's slot by its table. -/
theorem acknowledgementsAndRates : Obligations.AcknowledgementsAndRates := by
  unfold Obligations.AcknowledgementsAndRates
  refine ⟨fun n twin errs u r y z s hu hr hy hz => ⟨fun h => ?_, fun hp ht => ⟨?_, fun h g o a ho ha => ?_⟩⟩,
    fun t u r c s hu hr hc => ?_⟩
  · rw [exec_stageMAck, exec_stageMAck, stageMAck_lacks errs hu hr hy hz h, stageMAck_lacks [] hu hr hy hz h, engineErrors_nil]
    exact ⟨rfl, rfl⟩
  · rw [exec_stageMAck, stageMAck_complete errs hu hr hy hz hp ht]
  · have heng : z.eng = n := by
      rw [hz]
      simpa using List.find?_some hy
    subst heng ha
    exact ⟨_, rfl, afterAck_eq s u r z errs ho (by subst hu; rfl)⟩
  · obtain ⟨ps, hv⟩ := scheduleSlot_forms (t := t) hu hr hc
    have hrun : ((applyScheduleSlot t s).unit u).run = some { r with ended := true } := by
      rw [hv, unit_setUnit_same _ _ rfl]
    refine ⟨_, exec_scheduleSlot t s, runOf_ended hrun, hrun,
      ⟨s.rateTable c (s.stepT + 1), ?_, rateTable_length s c _, fun i g hg => ?_⟩, ?_, ?_⟩
    · rw [hv]
      rfl
    · rw [rateTable_getD s _ hg, State.groupRate]
    · rw [hv]
      rfl
    · rw [hv]
      rfl

end Sys2Proof.Laws

/-! # Devices that retire and return, and O39 -/

namespace Sys2Proof.Laws

open Sys2Proof Sys2Proof.Machine

/-! ### RETIRE (R447, R448) -/

theorem exec_retire (c : Coord) (s : State) : exec (.retire c) s = .next (applyRetire c s) := rfl

section
variable {c : Coord} {s : State} (hw : s.writeOpen Reg.cascadeCmd = true) (hm : s.isMaster = true)
include hw hm

/-- The master retires another member that is there at the next verdict, one at a time. -/
theorem retire_stands (hc : c ∈ s.members) (hself : c ≠ s.self) (hlost : c ∉ s.casc.lost) (hr : s.casc.retire = none) :
    applyRetire c s = { s with casc := { s.casc with retire := some c } } := by
  unfold applyRetire
  rw [if_neg (by simp [hw, hm]), if_neg (by simp [hc, hself, hlost, hr])]

theorem retire_logged (h : c ∉ s.members ∨ c = s.self ∨ c ∈ s.casc.lost ∨ s.casc.retire.isSome = true) :
    Logged { code := 0x8052, cls := 0 } s (applyRetire c s) := by
  unfold applyRetire
  rw [if_neg (by simp [hw, hm]), if_pos (by simpa [or_assoc] using h), raise_logged s rfl]
  exact logEntry_logged s _ (by decide)

end

/-! ### A spare that the master lets in (R450) -/

theorem takeUnicast_eq_takeAdmit {m : CtlMsg} (s : State) (t : Nat) (hk : m.kind = 8) : s.takeUnicast m t = s.takeAdmit t := by
  unfold State.takeUnicast
  rw [hk]
  rfl

/-- The state in which a spare that the master has let in begins to match edges. -/
def matchBegun (s : State) (t : Nat) : State :=
  { (s.at t).setFld Reg.syncStatus 20 16 0 with
    casc := { s.casc with adopting := some s.self, admitted := [s.self], edges := [], past := [], instants := [] } }

theorem takeAdmit_begins {s : State} (t : Nat) (hb : s.bit Reg.cascadeCoord 30 = true) (hr : s.runSlot.isSome = true) :
    s.takeAdmit t = matchBegun s t := by
  have hself : ((s.at t).setFld Reg.syncStatus 20 16 0).self = s.self :=
    congrArg unpackCoord (fld_setFld_ne (s.at t) _ _ _ _ _ (by decide))
  unfold State.takeAdmit matchBegun
  rw [if_neg (by rw [← Option.not_isSome]; simp [hb, hr])]
  dsimp only
  rw [hself]
  rfl

/-! ### READY and the RESUME that answers the last of them (R449, R450) -/

theorem takeUnicast_eq_takeReady {m : CtlMsg} (s : State) (t : Nat) (hk : m.kind = 9) : s.takeUnicast m t = s.takeReady m t := by
  unfold State.takeUnicast
  rw [hk]
  rfl

/-- A lost device is ready. -/
def readyNoted (s : State) (c : Coord) (t : Nat) : State :=
  { s with now := max s.now t, casc := { s.casc with readys := s.casc.readys ++ [c] } }

/-- The master notes a READY, and answers the last of them when the device is held. -/
theorem takeReady_master {m : CtlMsg} {s : State} (t : Nat) (hm : s.isMaster = true) (hl : m.coord ∈ s.casc.lost)
    (hr : m.coord ∉ s.casc.readys) : s.takeReady m t =
      if s.casc.hold = true ∧ ∀ c ∈ s.casc.lost, c ∈ s.casc.readys ∨ c = m.coord then (readyNoted s m.coord t).sendResume t
      else readyNoted s m.coord t := by
  have hrole : s.fld Reg.beatCtl 1 0 = 2 := of_decide_eq_true hm
  have hmaster : (readyNoted s m.coord t).isMaster = true := hm
  unfold State.takeReady
  rw [if_neg (by simp [hrole, hl, hr])]
  change (if ((readyNoted s m.coord t).isMaster && s.casc.hold &&
    s.casc.lost.all fun c => (s.casc.readys ++ [m.coord]).contains c) = true then _ else _) = _
  rw [hmaster]
  refine if_congr ?_ rfl rfl
  simp

/-- The marker that RESUME names: the window that the device resumes, in a new epoch. -/
def resumeMarker (s : State) (t : Nat) : DueMarker :=
  { beat := s.pair Reg.beatCountLo + 1, at_ := t + 20000, stretch := 0, planPos := s.resumePos, epoch := (s.casc.issueEpoch + 1) % 16 }

theorem spread_issueEpoch (s : State) (m : CtlMsg) : (s.spread m).casc.issueEpoch = s.casc.issueEpoch := by
  obtain ⟨n, hn⟩ := (sendsOnly_spread s m).casc
  rw [hn]

theorem sendResume_casc {s : State} {f : FSlot} {h : Header} (t : Nat) (hf : s.runSlot = some f) (hh : s.hdrOf f = some h) :
    (s.sendResume t).casc.resume = some (resumeMarker s t) ∧ (s.sendResume t).casc.issueEpoch = (s.casc.issueEpoch + 1) % 16 := by
  have hhdr : s.runSlot.bind s.hdrOf = some h := by rw [hf]; exact hh
  unfold State.sendResume
  rw [hhdr]
  exact ⟨rfl, spread_issueEpoch _ _⟩

/-! ### RESUME (R312, R449) -/

theorem exec_resume (t : Nat) (s : State) : exec (.resume t) s = .next (applyResume t s) := rfl

/-- The hold ends, in the epoch that RESUME names. -/
def holdLeft (s : State) (m : DueMarker) (t : Nat) : State :=
  { s.at t with casc := { (s.at t).casc with resume := none, hold := false, epoch := m.epoch, adopting := none } }

/-- TOUCH is clear, no window is left, and the next one is at the position that RESUME names. -/
def plainBeat (s : State) (m : DueMarker) : State :=
  let s := s.clearTouch
  let s := { s with beat := { s.beat with nextPos := m.planPos, prev := [], win := none, due := [] } }
  s.setBit Reg.beatCtl 3 true

/-- The state in which the window of RESUME starts: the hold and the lost set have ended. -/
def holdEnded (s : State) (m : DueMarker) (t : Nat) : State := plainBeat (holdLeft s m t).allBack m

section
variable {t : Nat} {m : DueMarker} {f : FSlot} {s : State} (hm : s.casc.resume = some m) (hf : s.runSlot = some f)
include hm hf

theorem resume_starts (h : m.at_ ≤ t) : applyResume t s = (holdEnded s m t).startWindow f m.beat t 0 m.planPos 0 none false := by
  unfold applyResume holdEnded plainBeat holdLeft
  rw [hm, hf]
  exact if_neg (Nat.not_lt.mpr h)

theorem resume_early (h : t < m.at_) : applyResume t s = s := by
  unfold applyResume
  rw [hm, hf]
  exact if_pos h

end

/-- The lost set clears; the hold, the epoch and what RESUME has named stand. -/
theorem allBack_casc (s : State) : s.allBack.casc.lost = [] ∧ s.allBack.casc.hold = s.casc.hold ∧
    s.allBack.casc.resume = s.casc.resume ∧ s.allBack.casc.epoch = s.casc.epoch := by
  have hback : s.backupReturns.casc.hold = s.casc.hold ∧ s.backupReturns.casc.resume = s.casc.resume ∧
      s.backupReturns.casc.epoch = s.casc.epoch := by
    unfold State.backupReturns
    split
    · exact ⟨rfl, rfl, rfl⟩
    · dsimp only
      split <;> exact ⟨rfl, rfl, rfl⟩
  exact ⟨rfl, hback⟩

theorem allBack_cores (s : State) : s.allBack.cores = s.cores :=
  (keeps_allBack s (keeps_refl s) (covers_allBut (q := .cores) rfl)).parts .cores (by decide)

theorem allBack_slot (s : State) (f : FSlot) : s.allBack.slot f = s.slot f := by
  obtain ⟨ha, hb⟩ := Prod.mk.inj ((keeps_allBack s (keeps_refl s) (covers_allBut (q := .slots) rfl)).parts .slots (by decide))
  exact slot_of_slots ha hb f

theorem plainBeat_slot (s : State) (m : DueMarker) (f : FSlot) : (plainBeat s m).slot f = s.slot f := by cases f <;> rfl
theorem plainBeat_casc (s : State) (m : DueMarker) : (plainBeat s m).casc = s.casc := rfl
theorem plainBeat_wga (s : State) (m : DueMarker) :
    (plainBeat s m).cores.wga = s.cores.wga.map fun y => { y with touch := false } := rfl

theorem holdEnded_slot (s : State) (m : DueMarker) (t : Nat) (f : FSlot) : (holdEnded s m t).slot f = s.slot f := by
  rw [holdEnded, plainBeat_slot, allBack_slot]
  cases f <;> rfl

theorem holdEnded_casc (s : State) (m : DueMarker) (t : Nat) : (holdEnded s m t).casc.lost = [] ∧ (holdEnded s m t).casc.hold = false ∧
    (holdEnded s m t).casc.resume = none ∧ (holdEnded s m t).casc.epoch = m.epoch := by
  rw [holdEnded, plainBeat_casc]
  exact allBack_casc (holdLeft s m t)

/-- TOUCH of every WGA tile is clear. -/
theorem holdEnded_wga (s : State) (m : DueMarker) (t : Nat) :
    (holdEnded s m t).cores.wga = s.cores.wga.map fun y => { y with touch := false } := by
  rw [holdEnded, plainBeat_wga, allBack_cores]
  rfl

/-- The start of a window leaves the cascade alone. -/
theorem startWindow_casc (s : State) (f : FSlot) (beat t stretch pos replays : Nat) (replay : Option Bool) (holdAll : Bool) :
    (s.startWindow f beat t stretch pos replays replay holdAll).casc = s.casc :=
  (keeps_startWindow s f beat t stretch pos replays replay holdAll (keeps_refl s) (covers_allBut (q := .casc) rfl)).parts .casc (by decide)

/-- The start of a window leaves the directories of the WGA tiles alone. -/
theorem startWindow_wga {s : State} {f : FSlot} {g : Fing} (hf : (s.slot f).fing = some g) (beat t stretch pos : Nat) (holdAll : Bool) :
    (s.startWindow f beat t stretch pos 0 none holdAll).cores.wga = s.cores.wga := by
  have hrun : ∀ x : State, (runningFrom x g).cores = x.cores := by
    intro x
    unfold runningFrom
    split
    · rfl
    · exact (keeps_firstWindow x g (keeps_refl x) (covers_allBut (q := .cores) rfl)).parts .cores (by decide)
  rw [startWindow_eq hf]
  dsimp only
  rw [emit_cores, hrun, clearCrc_cores, windowShown_cores]
  rfl

/-! ### O39 -/

/-- Settles O39: each message by what it notes, and RESUME as the start of the window that it names. -/
theorem devicesRetireAndReturn : Obligations.DevicesRetireAndReturn := by
  unfold Obligations.DevicesRetireAndReturn
  refine ⟨fun c s hw hm => ⟨fun hc hself hlost hr => ?_, fun h => ⟨_, exec_retire c s, retire_logged hw hm h⟩⟩, ?_,
    fun m t f h s hk hm hl hr hf hh => ⟨fun hopen => ?_, ?_⟩, fun t m f g s hm hf hg => ⟨fun ht => ?_, fun ht => ?_⟩⟩
  · rw [exec_retire, retire_stands hw hm hc hself hlost hr]
  · rintro m t s v hk hb hr rfl
    rw [takeUnicast_eq_takeAdmit s t hk, takeAdmit_begins t hb hr]
    refine ⟨fld_setFld_self (s.at t) 0 (by decide) (by decide), fun o ho => ?_, rfl, rfl⟩
    exact reg_setFld_ne (s.at t) _ _ _ fun e => ho (List.mem_singleton.mpr e)
  · rw [takeUnicast_eq_takeReady s t hk, takeReady_master t hm hl hr, if_neg]
    · rfl
    · rintro ⟨hhold, hall⟩
      obtain hno | ⟨c, hc, hcr, hne⟩ := hopen
      · exact Bool.false_ne_true (hno.symm.trans hhold)
      · exact (hall c hc).elim hcr hne
  · rintro hhold hall v rfl
    rw [takeUnicast_eq_takeReady s t hk, takeReady_master t hm hl hr, if_pos ⟨hhold, hall⟩]
    obtain ⟨hresume, hepoch⟩ := sendResume_casc (s := readyNoted s m.coord t) t hf hh
    exact ⟨_, hresume, rfl, rfl, rfl, rfl, hepoch⟩
  · have hslot : ((holdEnded s m t).slot f).fing = some g := by
      rw [holdEnded_slot, ← hg, State.fing, hf]
    obtain ⟨hlost, hhold, hresume, hepoch⟩ := holdEnded_casc s m t
    obtain ⟨⟨b, hbeat⟩, hrun, -, -, hpulse⟩ := startWindow_started hslot m.beat t 0 m.planPos false
    have hcasc := startWindow_casc (holdEnded s m t) f m.beat t 0 m.planPos 0 none false
    rw [exec_resume, resume_starts hm hf ht]
    refine ⟨_, newWindow ((holdEnded s m t).at t) f g m.beat t 0 m.planPos 0 none false, rfl, ?_, rfl, rfl, rfl, ?_, ?_, ?_, ?_, ?_,
      ?_, hrun, hpulse⟩
    · rw [hbeat]
      rfl
    · rw [hcasc, hhold]
    · rw [hcasc, hlost]
    · rw [hcasc, hresume]
    · rw [hcasc, hepoch]
    · rw [hbeat]
      rfl
    · rw [startWindow_wga hslot, holdEnded_wga]
  · rw [exec_resume, resume_early hm hf ht]

end Sys2Proof.Laws

/-! # Frames of the twin lane that are next in order -/

namespace Sys2Proof.Laws

open Sys2Proof Sys2Proof.Machine

/-! ### A frame that is taken as soon as it has come (R415, R416) -/

/-- A frame that is next in order and can be taken leaves the buffer once it has acted. -/
theorem drainHeld_taken {s v : State} {key residence n : Nat} {x : Nat × Nat × Nat × Frame}
    (hx : s.casc.rxHold.find? (fun y => y.1 == key && y.2.2.2.dseq == (getKey s.casc.rxSeq key).getD 0) = some x)
    (hd : x.2.2.2.dseq = (getKey s.casc.rxSeq key).getD 0)
    (ht : s.takeFrame x.2.1 x.2.2.2 (s.now - x.2.2.1 + residence) s.now = some v) :
    s.drainHeld key residence (n + 1) = (takenFrom v key x).drainHeld key residence n := by
  rw [State.drainHeld]
  dsimp only
  rw [hx]
  dsimp only
  rw [ht]
  dsimp only
  unfold takenFrom
  rw [hd]

theorem inOrder_taken {u v : State} {q residence key : Nat} {f : Frame} (hkey : orderKey (u.portRole q) q f.vl = key)
    (hrole : u.portRole q ≠ 8) (hrun : u.runSlot.isNone = false) (hd : f.dseq = (getKey u.casc.rxSeq key).getD 0)
    (hh : ∀ x ∈ u.casc.rxHold, x.1 ≠ key) (ht : (u.holdFrame key q f).takeFrame q f residence u.now = some v) :
    u.inOrder q f residence = (takenFrom v key (key, q, u.now, f)).drainHeld key residence u.casc.rxHold.length := by
  have htake : (u.holdFrame key q f).takeFrame q f (u.now - u.now + residence) u.now = some v := by
    rw [Nat.sub_self, Nat.zero_add, ht]
  unfold State.inOrder
  rw [if_neg hrole, hrun, if_neg Bool.false_ne_true]
  dsimp only
  rw [hkey, ← hd, if_neg (by omega)]
  exact drainHeld_taken (s := u.holdFrame key q f) (find_held hh hd) hd htake

/-- A DATA or REQUEST frame that is next in order leaves the state that its taking gives, and what has waited for it follows. -/
theorem arrive_taken {s v : State} {q residence t : Nat} {f : Frame} (h : s.nextFrame q f) (ht : f.typ = 1 ∨ f.typ = 8)
    (hv : (s.accepted q f t).takeFrame q f residence (max s.now t) = some v) :
    s.arrive q f residence 0 t = s.afterFrame q f residence t v := by
  obtain ⟨hactive, hgood, hlseq, hcascade, hrole, hrun, hdseq, hheld⟩ := h
  obtain ⟨u, hu⟩ := linkTook t hgood hlseq
  have haccepts := hu.accepts
  obtain ⟨ports, out, hframe⟩ := hu.frame
  have hacc : s.accepted q f t = u.holdFrame (orderKey (s.portRole q) q f.vl) q f := by
    unfold State.accepted
    rw [haccepts]
  have hforeign : u.foreign q f = false := by
    have hc : u.cascade32 = s.cascade32 := by rw [hframe]; rfl
    unfold State.foreign
    rw [hc, hcascade]
    simp
  have hkind : f.unnumbered = false ∧ u.takeKind q f residence 0 = u.inOrder q f residence := by
    unfold Frame.unnumbered State.takeKind
    obtain ht | ht := ht <;> rw [ht] <;> exact ⟨rfl, rfl⟩
  obtain ⟨hnumbered, hkind⟩ := hkind
  have horder : u.inOrder q f residence = s.afterFrame q f residence t v := by
    rw [hacc] at hv
    subst hframe
    exact inOrder_taken rfl hrole (Option.isNone_eq_false_iff.mpr hrun) hdseq hheld hv
  unfold State.arrive
  rw [hactive, if_neg (by decide), hnumbered]
  dsimp only
  rw [if_neg Bool.false_ne_true, haccepts]
  dsimp only
  rw [if_neg (by decide), hforeign, if_neg Bool.false_ne_true, hkind, horder]

/-- Accepting a frame leaves the roles of the ports and the pieces that have come of a mirror frame. -/
theorem accepted_kept {s : State} {q : Nat} {f : Frame} (t : Nat) (h : s.nextFrame q f) :
    (s.accepted q f t).portRole q = s.portRole q ∧ (s.accepted q f t).casc.mirrorIn = s.casc.mirrorIn := by
  obtain ⟨-, hgood, hlseq, -⟩ := h
  obtain ⟨u, hu⟩ := linkTook t hgood hlseq
  obtain ⟨ports, out, hframe⟩ := hu.frame
  unfold State.accepted
  rw [hu.accepts, hframe]
  exact ⟨rfl, rfl⟩

theorem owe_casc (s : State) (q vl n : Nat) : (s.owe q vl n).casc = s.casc := by
  unfold State.owe
  dsimp only
  split <;> rfl

/-! ### Mirror frames, piece by piece (R298, Table 7.2) -/

/-- The KIND of a mirror frame, each with the command of its frames. -/
def mirrorFrames (q : Nat) (f : Frame) : List (Nat × Instr) :=
  [(1, .plain ⟨q, f⟩), (2, .stageM ⟨q, f⟩), (3, .stageW ⟨q, f⟩), (4, .fence ⟨q, f⟩), (5, .copy ⟨q, f⟩)]

theorem exec_mirrorFrame {q k : Nat} {f : Frame} {c : Instr} {s : State} (hc : (k, c) ∈ mirrorFrames q f) (ht : f.typ = 1) (hv : f.vl = 3)
    (hk : fieldAt (s.casc.mirrorIn ++ f.payload) 0 1 = k) : exec c s = .next (s.arrive q f 0 0 s.now) := by
  have hfits : s.mirrorFits k q f = true := by simp [State.mirrorFits, ht, hv, hk]
  unfold mirrorFrames at hc
  simp only [List.mem_cons, Prod.mk.injEq, List.not_mem_nil, or_false] at hc
  obtain ⟨rfl, rfl⟩ | ⟨rfl, rfl⟩ | ⟨rfl, rfl⟩ | ⟨rfl, rfl⟩ | ⟨rfl, rfl⟩ := hc
  all_goals exact congrArg Host.Outcome.next (if_pos hfits)

theorem takeFrame_mirror {s : State} {q : Nat} {f : Frame} (residence t : Nat) (hr : s.portRole q = 7) (ht : f.typ = 1) (hv : f.vl = 3) :
    s.takeFrame q f residence t = some (s.takeTwin q f) := by
  unfold State.takeFrame
  rw [ht, hv, hr]
  rfl

/-- A frame of the twin lane joins what has come; the last one makes the mirror frame act. -/
theorem mirrorFrame_taken {q k : Nat} {f : Frame} {c : Instr} {s x : State} (h : s.nextFrame q f) (hr : s.portRole q = 7)
    (ht : f.typ = 1) (hv : f.vl = 3) (hc : (k, c) ∈ mirrorFrames q f) (hk : fieldAt (s.casc.mirrorIn ++ f.payload) 0 1 = k)
    (hx : x = (s.accepted q f s.now).owe q 3 f.units) :
    exec c s = .next (s.afterFrame q f 0 s.now (if f.flags % 2 = 1 then
      State.takeMirror { x with casc := { x.casc with mirrorIn := [] } } (mirrorOf (s.casc.mirrorIn ++ f.payload))
      else { x with casc := { x.casc with mirrorIn := s.casc.mirrorIn ++ f.payload } })) := by
  obtain ⟨hrole, hin⟩ := accepted_kept s.now h
  have hxin : x.casc.mirrorIn = s.casc.mirrorIn := by rw [hx, owe_casc, hin]
  have htwin : (s.accepted q f s.now).takeTwin q f = if f.flags % 2 = 1 then
      State.takeMirror { x with casc := { x.casc with mirrorIn := [] } } (mirrorOf (s.casc.mirrorIn ++ f.payload))
      else { x with casc := { x.casc with mirrorIn := s.casc.mirrorIn ++ f.payload } } := by
    unfold State.takeTwin
    dsimp only
    rw [hv, ← hx, hxin]
  rw [exec_mirrorFrame hc ht hv hk, ← htwin, arrive_taken h (.inl ht) (takeFrame_mirror _ _ (hrole.trans hr) ht hv)]

/-! ### Requests of the twin, as they come (R302, R303, R364) -/

theorem exec_copyRequest {q : Nat} {f : Frame} (s : State) (ht : f.typ = 8) (hv : f.vl = 3) :
    exec (.copyRequest q f) s = .next (s.arrive q f 0 0 s.now) := congrArg Host.Outcome.next (if_pos ⟨ht, hv⟩)

theorem takeFrame_request {s : State} {q : Nat} {f : Frame} (residence t : Nat) (hr : s.portRole q = 7) (ht : f.typ = 8) (hv : f.vl = 3) :
    s.takeFrame q f residence t = some ((s.owe q 3 f.units).takeRequest (askOf f.payload).1 (askOf f.payload).2) := by
  unfold State.takeFrame
  rw [ht, hv, hr]
  rfl

theorem copyRequest_taken {q : Nat} {f : Frame} {s : State} (h : s.nextFrame q f) (hr : s.portRole q = 7) (ht : f.typ = 8) (hv : f.vl = 3) :
    exec (.copyRequest q f) s = .next (s.afterFrame q f 0 s.now
      (((s.accepted q f s.now).owe q 3 f.units).takeRequest (askOf f.payload).1 (askOf f.payload).2)) := by
  obtain ⟨hrole, -⟩ := accepted_kept s.now h
  rw [exec_copyRequest s ht hv, arrive_taken h (.inr ht) (takeFrame_request _ _ (hrole.trans hr) ht hv)]

end Sys2Proof.Laws

/-! # Mirror frames by their KIND -/

namespace Sys2Proof.Laws

open Sys2Proof Sys2Proof.Machine

/-! ### Writes of the mirror path (R297, R303, R304) -/

/-- Counting a frame moves no place. -/
theorem placesOf_countFrame (s : State) (m : MirrorFrame) (ag : Agent) (write : Bool) (a n : Nat) :
    (s.countFrame m).placesOf ag write a n = s.placesOf ag write a n := by
  induction n generalizing a with
  | zero => rfl
  | succ n ih =>
    have hres : (s.countFrame m).resolve a = s.resolve a := rfl
    have hreach : ∀ pl, (s.countFrame m).reaches ag pl write = s.reaches ag pl write := fun _ => rfl
    simp only [State.placesOf, hres, hreach, ih]

/-- Counting a frame moves no rule. -/
theorem guards_countFrame (s : State) (m : MirrorFrame) (ag : Agent) (ps : List Place) :
    (s.countFrame m).guards ag ps = s.guards ag ps := by
  induction ps with
  | nil => rfl
  | cons pl ps ih =>
    have hguard : (s.countFrame m).guard ag pl = s.guard ag pl := rfl
    simp only [State.guards, hguard, ih]

/-- A write of the mirror path that no rule drops leaves the cascade alone: it is not mirrored again. -/
theorem store_mirror_casc {s : State} {a : Nat} {data : Bytes} {ps : List Place} (hh : s.needsHold a = none)
    (hp : s.placesOf .mirror true a data.length = some ps) (hg : s.guards .mirror ps = .ok) :
    (s.store .mirror a data).casc = s.casc := by
  have hwritten := keeps_writePlaces (P := allBut .casc) _ .mirror ps data (keeps_recall s .mirror ps (keeps_refl s)) (covers_allBut rfl)
  have hscanned := keeps_scanGrad _ (s.agentBeat .mirror) ps data hwritten (covers_allBut rfl)
  unfold State.store State.storeIn
  rw [hh]
  dsimp only
  rw [hh]
  dsimp only
  rw [hp]
  dsimp only
  rw [hg]
  exact (keeps_unlistWritten _ ps hscanned (covers_allBut rfl)).parts .casc (by decide)

theorem mirrorPut_stores {s : State} {id off : Nat} {data : Bytes} {T : Tensor} (hT : s.tensor id = some T)
    (hc : T.cls = 5 ∨ T.mirrored = true) (hl : off + data.length ≤ T.size) :
    s.mirrorPut id off data = s.store .mirror (T.taddr + off) data := by
  unfold State.mirrorPut
  rw [hT]
  exact if_pos ⟨hc, hl⟩

/-- From `s` to `v` a mirror frame's data have come to stand in these places, no other byte has changed, and the frame has been
counted. -/
def mirrorStored (m : MirrorFrame) (ps : List Place) (s v : State) : Prop :=
  memoryKeptBut (ps.map (·.loc)) s v ∧ v.casc.rxOpen = noteSeq m.seq s.casc.rxOpen ∧
    ∀ (i : Nat) (h : i < ps.length), v.peek ps[i].loc = m.payload.getD i 0

theorem mirrorPut_stored {m : MirrorFrame} {s : State} {T : Tensor} {ps : List Place} (hT : s.tensor m.object = some T)
    (hc : T.cls = 5 ∨ T.mirrored = true) (hl : m.offset + m.payload.length ≤ T.size) (hh : s.needsHold (T.taddr + m.offset) = none)
    (hp : s.placesOf .mirror true (T.taddr + m.offset) m.payload.length = some ps) (hg : s.guards .mirror ps = .ok)
    (hn : (ps.map fun pl => cellOf pl.loc).Nodup) (h3 : ∀ pl ∈ ps, (cellOf pl.loc).1 ≠ 3) :
    mirrorStored m ps s ((s.countFrame m).mirrorPut m.object m.offset m.payload) := by
  have hh' : (s.countFrame m).needsHold (T.taddr + m.offset) = none := hh
  rw [← placesOf_countFrame s m] at hp
  rw [← guards_countFrame s m] at hg
  rw [mirrorPut_stores (s := s.countFrame m) hT hc hl]
  obtain ⟨hkept, hbytes⟩ := store_peek hh' hp hg h3 hn
  exact ⟨hkept, congrArg CascSt.rxOpen (store_mirror_casc hh' hp hg), hbytes⟩

/-- A spare that may send READY notes and sends it: no byte changes, and no frame is counted. -/
theorem tryReady_kept (s : State) : memoryKept s s.tryReady ∧ s.tryReady.casc.rxOpen = s.casc.rxOpen := by
  refine ⟨fun l => peek_of_keeps (keeps_tryReady s (keeps_refl s) (covers_noMemory rfl)) l, ?_⟩
  rw [State.tryReady]
  dsimp only
  split_ifs
  · obtain ⟨n, hn⟩ := (sendsOnly_controlUp ({ s with casc := { s.casc with readys := [s.self] } } : State) _).casc
    rw [hn]
  · rfl

theorem noteCopied_kept (s : State) (id off len : Nat) :
    memoryKept s (s.noteCopied id off len) ∧ (s.noteCopied id off len).casc.rxOpen = s.casc.rxOpen := by
  unfold State.noteCopied
  dsimp only
  split <;> exact ⟨fun l => by cases l <;> rfl, rfl⟩

/-- What a COPY frame notes beside its write changes no byte and counts no frame. -/
theorem mirrorStored_takeCopy {m : MirrorFrame} {ps : List Place} {s u : State}
    (h : mirrorStored m ps s (u.mirrorPut m.object m.offset m.payload)) : mirrorStored m ps s (u.takeCopy m) := by
  unfold State.takeCopy
  dsimp only
  generalize u.mirrorPut m.object m.offset m.payload = x at h ⊢
  have hrestored : memoryKept x (x.noteRestored m.object m.payload.length) := fun l => by cases l <;> rfl
  generalize hy : x.noteRestored m.object m.payload.length = y at hrestored ⊢
  have hopen : y.casc.rxOpen = x.casc.rxOpen := by
    rw [← hy]
    rfl
  obtain ⟨hcopied, hcopiedOpen⟩ := noteCopied_kept y m.object m.offset m.payload.length
  obtain ⟨hready, hreadyOpen⟩ := tryReady_kept (y.noteCopied m.object m.offset m.payload.length)
  have hpeek := fun l => ((hready l).trans (hcopied l)).trans (hrestored l)
  obtain ⟨hkept, hcount, hbytes⟩ := h
  refine ⟨fun l hl => (hpeek l).trans (hkept l hl), ?_, fun i hi => (hpeek _).trans (hbytes i hi)⟩
  rw [hreadyOpen, hcopiedOpen, hopen, hcount]

theorem takeMirror_plain {m : MirrorFrame} (s : State) (hk : m.kind = 1) :
    s.takeMirror m = (s.countFrame m).mirrorPut m.object m.offset m.payload := by
  unfold State.takeMirror
  rw [hk]
  rfl

theorem takeMirror_copy {m : MirrorFrame} (s : State) (hk : m.kind = 5) : s.takeMirror m = (s.countFrame m).takeCopy m := by
  unfold State.takeMirror
  rw [hk]
  rfl

/-! ### Stage frames (R299, R302, Table 7.3) -/

/-- Table 7.3: the mirror tag stands before the stage; stage W when `w`. -/
def stageBefore (w : Bool) (stamp mom cap : Nat) : Prop := if w then mom = stamp ∧ cap ≠ stamp else mom = cap ∧ mom ≠ stamp

/-- Table 7.3: the stage has been applied. -/
def stageAfter (w : Bool) (stamp mom cap : Nat) : Prop := if w then cap = stamp else mom = stamp

theorem stageBefore_iff (w : Bool) (stamp mom cap : Nat) :
    (if w then mom == stamp && cap != stamp else mom == cap && mom != stamp) = true ↔ stageBefore w stamp mom cap := by
  cases w <;> simp [stageBefore]

theorem stageAfter_iff (w : Bool) (stamp mom cap : Nat) :
    (if w then cap == stamp else mom == stamp) = true ↔ stageAfter w stamp mom cap := by
  cases w <;> simp [stageAfter]

theorem not_stageBefore_of_after {w : Bool} {stamp mom cap : Nat} (h : stageAfter w stamp mom cap) : ¬stageBefore w stamp mom cap := by
  cases w <;> simp_all [stageBefore, stageAfter]

theorem takeMirror_stage {m : MirrorFrame} {w : Bool} (s : State) (hk : (m.kind, w) ∈ [(2, false), (3, true)]) :
    s.takeMirror m = (s.countFrame m).stageFrame w m := by
  simp only [List.mem_cons, Prod.mk.injEq, List.not_mem_nil, or_false] at hk
  unfold State.takeMirror
  obtain ⟨hk, rfl⟩ | ⟨hk, rfl⟩ := hk <;> rw [hk] <;> rfl

/-- The tensor of a mirror tag is noted for a refresh. -/
def refreshNoted (s : State) (id : Nat) : State :=
  { s with casc := { s.casc with
    refreshDue := if s.casc.refreshDue.contains id then s.casc.refreshDue else s.casc.refreshDue ++ [id] } }

section
variable {s : State} {w : Bool} {m : MirrorFrame} {ws : Writes} {id mom cap : Nat} (hws : ws = unpackWrites m.payload.length m.payload)
  (ht : s.mirrorTag ws = some (id, mom, cap))
include hws ht

theorem stageFrame_applied (h : stageBefore w m.stamp mom cap) :
    s.stageFrame w m = ws.foldl (fun b x => b.mirrorPut x.1 x.2.1 x.2.2) s := by
  unfold State.stageFrame
  dsimp only
  rw [← hws, ht]
  exact if_pos ((stageBefore_iff w _ _ _).mpr h)

theorem stageFrame_duplicate (h : stageAfter w m.stamp mom cap) : s.stageFrame w m = s.raise { code := 0x5040, cls := 0 } := by
  unfold State.stageFrame
  dsimp only
  rw [← hws, ht]
  dsimp only
  rw [if_neg (mt (stageBefore_iff w _ _ _).mp (not_stageBefore_of_after h)), if_pos ((stageAfter_iff w _ _ _).mpr h)]

theorem stageFrame_fault (hb : ¬stageBefore w m.stamp mom cap) (ha : ¬stageAfter w m.stamp mom cap) :
    s.stageFrame w m = (refreshNoted s id).raise { code := 0x5047, cls := 1 } := by
  unfold State.stageFrame
  dsimp only
  rw [← hws, ht]
  dsimp only
  rw [if_neg (mt (stageBefore_iff w _ _ _).mp hb), if_neg (mt (stageAfter_iff w _ _ _).mp ha)]
  rfl

end

theorem mem_refreshNoted (s : State) (id : Nat) : id ∈ (refreshNoted s id).casc.refreshDue := by
  unfold refreshNoted
  dsimp only
  split
  · next h => exact List.contains_iff_mem.mp h
  · exact List.mem_append_right _ (List.mem_singleton_self id)

/-- An event of class RP that names no window is logged at the head and marks the running window FAULT. -/
theorem raise_rp_faults (s : State) {e : Ev} (hc : e.cls = 1) (hb : e.beat = none) :
    memoryKept s (s.raise e) ∧ (s.raise e).casc = s.casc ∧ (s.raise e).beat.win = s.beat.win.map (·.fail e.unit) ∧
      (s.raise e).reg (Reg.errLog ((s.reg Reg.errLogHead).toNat % 256) 0) = BitVec.ofNat 32 (e.code % 65536 + 65536) := by
  have hlog := keeps_logEntry (P := allBut .casc) s e (keeps_refl s) (covers_allBut rfl)
  have hmark : (s.logEntry e).markFault e =
      { s.logEntry e with beat := { (s.logEntry e).beat with win := (s.logEntry e).beat.win.map (·.fail e.unit) } } := by
    unfold State.markFault
    rw [hb]
    rfl
  refine ⟨fun l => peek_of_keeps (keeps_raise s e (keeps_refl s) (covers_noMemory rfl)) l, ?_⟩
  rw [raise_rp s hc, hmark]
  refine ⟨hlog.parts .casc (by decide), ?_, ?_⟩
  · dsimp only
    rw [beat_of_onlyLog (onlyLog_logEntry (offs := []) s e)]
  · rw [← hmark, reg_congr (markFault_regs _ e), logEntry_first, hc]

theorem stampFault_noted {s v : State} {id : Nat} (hv : v = (refreshNoted s id).raise { code := 0x5047, cls := 1 }) :
    memoryKept s v ∧ id ∈ v.casc.refreshDue ∧
      v.reg (Reg.errLog ((s.reg Reg.errLogHead).toNat % 256) 0) = BitVec.ofNat 32 (0x5047 + 65536) ∧
      ∀ x, s.beat.win = some x → ∃ y, v.beat.win = some y ∧ y.fault = true := by
  obtain ⟨hmemory, hcasc, hwin, hcode⟩ := raise_rp_faults (refreshNoted s id) (e := { code := 0x5047, cls := 1 }) rfl rfl
  rw [← hv] at hmemory hcasc hwin hcode
  refine ⟨hmemory, ?_, hcode, fun x hx => ⟨x.fail _, hwin.trans (congrArg _ hx), rfl⟩⟩
  rw [hcasc]
  exact mem_refreshNoted s id

/-! ### FENCE (R301) -/

/-- The count that stands for a FENCE's window: what it declares, or the greatest of the smaller ones. -/
def fenceCount (s : State) (declared : Nat) : Nat :=
  if s.casc.rxOpen.contains declared then declared else (s.casc.rxOpen.filter fun k => decide (k < declared)).foldl max 0

theorem takeMirror_fence {m : MirrorFrame} (s : State) (hk : m.kind = 4) : s.takeMirror m = { s with
    casc := { s.casc with
      fences := s.casc.fences ++ [(m.stamp, m.offset)]
      mirrorRx := s.casc.mirrorRx ++ [(m.stamp, fenceCount s m.offset)]
      rxOpen := s.casc.rxOpen.erase (fenceCount s m.offset) } } := by
  unfold State.takeMirror
  rw [hk]
  rfl

theorem foldl_max_mem (l : List Nat) : l.foldl max 0 = 0 ∨ l.foldl max 0 ∈ l := by
  refine List.foldlRecOn l max (motive := fun n => n = 0 ∨ n ∈ l) (.inl rfl) fun n hn k hk => ?_
  obtain h | h := max_choice n k
  · exact h.symm ▸ hn
  · exact .inr (h.symm ▸ hk)

theorem fenceCount_declared {s : State} {n : Nat} (h : n ∈ s.casc.rxOpen) : fenceCount s n = n :=
  if_pos (List.contains_iff_mem.mpr h)

theorem fenceCount_less {s : State} {n : Nat} (h : n ∉ s.casc.rxOpen) :
    fenceCount s n = 0 ∨ (fenceCount s n ∈ s.casc.rxOpen ∧ fenceCount s n < n) := by
  unfold fenceCount
  rw [if_neg (mt List.contains_iff_mem.mp h)]
  refine (foldl_max_mem _).imp_right fun hm => ?_
  obtain ⟨hmem, hlt⟩ := List.mem_filter.mp hm
  exact ⟨hmem, of_decide_eq_true hlt⟩

end Sys2Proof.Laws

/-! # Requests of the twin, mirror frames to the twin, and O42 -/

namespace Sys2Proof.Laws

open Sys2Proof Sys2Proof.Machine

/-! ### What a request is answered with (R302, R303, R304, R364) -/

/-- A page is one COPY frame. -/
theorem sendCopy_page (s : State) (lost : Bool) (T : Tensor) {off len : Nat} (h0 : 0 < len) (h : len ≤ 4096) :
    s.sendCopy lost T off len = s.sendMirror lost s.beatNow 5 0 T.id off s.beatNow (s.view (T.taddr + off) len) := by
  have hone : (len + 4095) / 4096 = 1 := by omega
  have hlen : min 4096 (off + len - (off + 4096 * 0)) = len := by omega
  unfold State.sendCopy
  rw [hone, List.range_one, List.foldl_cons, List.foldl_nil]
  dsimp only
  rw [hlen, Nat.mul_zero, Nat.add_zero]

/-- A whole tensor is a COPY frame for each 4 KiB of it. -/
theorem sendCopy_tensor (s : State) (lost : Bool) (T : Tensor) : s.sendCopy lost T 0 T.size =
    (List.range ((T.size + 4095) / 4096)).foldl (fun v i =>
      v.sendMirror lost v.beatNow 5 0 T.id (4096 * i) v.beatNow (v.view (T.taddr + 4096 * i) (min 4096 (T.size - 4096 * i)))) s := by
  unfold State.sendCopy
  simp only [Nat.zero_add]

section
variable {s : State} {id : Nat} {T : Tensor} (hT : s.tensor id = some T) (hm : s.mirrors T = true ∨ T.cls = 5)
include hT hm

theorem takeRequest_page {o : Nat} (ho : o / 4096 * 4096 < T.size) :
    s.takeRequest id (some o) = s.sendCopy false T (o / 4096 * 4096) (min 4096 (T.size - o / 4096 * 4096)) := by
  unfold State.takeRequest
  rw [hT]
  dsimp only
  rw [if_neg (by simpa [or_iff_not_imp_left] using hm), if_pos ho]

theorem takeRequest_tensor (hs : s.shardOf id = none) : s.takeRequest id none = s.sendCopy false T 0 T.size := by
  unfold State.takeRequest
  rw [hT]
  dsimp only
  rw [if_neg (by simpa [or_iff_not_imp_left] using hm), hs]

theorem takeRequest_shard {h : Shard} (hs : s.shardOf id = some h) :
    s.takeRequest id none = ((s.copySet h).foldl (fun s t => s.sendCopy false t 0 t.size) s).holdUpdates := by
  unfold State.takeRequest
  rw [hT]
  dsimp only
  rw [if_neg (by simpa [or_iff_not_imp_left] using hm), hs]

end

/-! ### The pieces of a mirror frame (log 120) -/

theorem cutBytes_flatten (n k : Nat) (b : Bytes) (h : b.length ≤ n * k) : (cutBytes n k b).flatten = b := by
  induction k generalizing b with
  | zero =>
    rw [Nat.mul_zero, Nat.le_zero, List.length_eq_zero_iff] at h
    rw [h]
    rfl
  | succ k ih =>
    unfold cutBytes
    split
    · simp
    · rw [List.flatten_cons, ih _ (by rw [List.length_drop]; rw [Nat.mul_succ] at h; omega), List.take_append_drop]

theorem cutBytes_length_le (n k : Nat) (b : Bytes) : ∀ p ∈ cutBytes n k b, p.length ≤ n := by
  induction k generalizing b with
  | zero => exact fun p hp => absurd hp List.not_mem_nil
  | succ k ih =>
    intro p hp
    unfold cutBytes at hp
    split at hp
    · next h =>
      rw [List.mem_singleton.mp hp]
      exact h
    · obtain rfl | hp := List.mem_cons.mp hp
      · exact List.length_take_le n b
      · exact ih _ p hp

/-! ### A piece goes out on the twin lane (R298, R413) -/

/-- A frame that a port sends is the one it was given, with its number at the link and its CRC. -/
theorem trySend_frame {s t : State} {q : Nat} {f : Frame} (h : s.trySend q f = some t) :
    ∃ n c, Out.frame q { f with lseq := n, crc := c } ∈ t.out := by
  unfold State.trySend at h
  dsimp only at h
  split at h
  · cases h
  · cases h
    exact ⟨_, _, List.mem_append_right _ (List.mem_singleton_self _)⟩

/-- A frame that is launched goes out at a port of the role or waits there, with its number in the order and at the link and its CRC. -/
theorem launch_frame {s t : State} {role ingress : Nat} {f : Frame} (h : s.launch role true ingress f = some t) :
    ∃ q d n c, q < 32 ∧ s.portRole q = role ∧ (Out.frame q { f with dseq := d, lseq := n, crc := c } ∈ t.out ∨
      ∃ i, (i, ({ f with dseq := d, lseq := n, crc := c } : Frame)) ∈ (t.port q).sendWait) := by
  obtain ⟨q, hq, hs | hs⟩ := launch_cases h
  · obtain ⟨n, c, hout⟩ := trySend_frame hs
    exact ⟨q, _, n, c, (mem_portsOf hq).1, (mem_portsOf hq).2, .inl hout⟩
  · refine ⟨q, (launched s role f).1.dseq, f.lseq, f.crc, (mem_portsOf hq).1, (mem_portsOf hq).2, .inr ⟨ingress, ?_⟩⟩
    rw [hs, waitsAt, port_setPort_self]
    exact List.mem_append_right _ (List.mem_singleton_self _)

/-- From `s` to `v` a piece of a mirror frame has gone out at a port of the twin, or waits at one; LAST when `last` holds. -/
def pieceOut (s v : State) (p : Bytes) (last : Prop) : Prop :=
  ∃ q f, s.portRole q = 7 ∧ f.typ = 1 ∧ f.vl = 3 ∧ f.payload = p ∧ (f.flags % 2 = 1 ↔ last) ∧
    (Out.frame q f ∈ v.out ∨ ∃ n, (n, f) ∈ (v.port q).sendWait)

theorem pieceOut_later {s v w : State} {p : Bytes} {last : Prop} (h : pieceOut s v p last) (g : SendsOnly v w) : pieceOut s w p last := by
  obtain ⟨q, f, hrole, htyp, hvl, hpay, hlast, hout⟩ := h
  exact ⟨q, f, hrole, htyp, hvl, hpay, hlast, hout.imp (g.keeps.out.subset ·) fun ⟨n, hn⟩ => ⟨n, g.wait q _ hn⟩⟩

/-- Send piece `p.2` of `n` to the twin at `c`; `lost` as in `sendMirror`. -/
def sendPiece (c : Coord) (lost : Bool) (n : Nat) (s : State) (p : Bytes × Nat) : State :=
  (s.launch 7 true 0 (s.frameTo 1 3 ((if p.2 + 1 = n then 1 else 0) + (if lost then 4 else 0)) c 0 p.1)).getD s

theorem sendsOnly_sendPiece (c : Coord) (lost : Bool) (n : Nat) (s : State) (p : Bytes × Nat) : SendsOnly s (sendPiece c lost n s p) := by
  unfold sendPiece
  cases h : s.launch 7 true 0 _ with
  | none => exact sendsOnly_refl s
  | some t => exact sendsOnly_launch h

theorem pieceFlags_last (last lost : Prop) [Decidable last] [Decidable lost] :
    ((if last then 1 else 0) + (if lost then 4 else 0)) % 2 = 1 ↔ last := by
  by_cases hlast : last <;> by_cases hlost : lost <;> simp [hlast, hlost]

section
variable {s u : State} (hu : SameWays s u) (hret : s.casc.retired = false) (hp : s.portsOf 7 ≠ [])
include hu hret hp

theorem pieceOut_sendPiece (c : Coord) (lost : Bool) (n : Nat) (p : Bytes × Nat) :
    pieceOut s (sendPiece c lost n u p) p.1 (p.2 + 1 = n) := by
  generalize hf : u.frameTo 1 3 ((if p.2 + 1 = n then 1 else 0) + (if lost then 4 else 0)) c 0 p.1 = f
  obtain ⟨t, ht⟩ := launch_some (s := u) (role := 7) (ingress := 0) (f := f) (hu.retired.trans hret) (by rw [hu.portsOf]; exact hp)
  have hsent : sendPiece c lost n u p = t := by
    unfold sendPiece
    rw [hf, ht]
    rfl
  obtain ⟨q, d, l, crc, hq, hrole, hout⟩ := launch_frame ht
  rw [hsent]
  refine ⟨q, { f with dseq := d, lseq := l, crc := crc }, (hu.portRole hq).symm.trans hrole, ?_, ?_, ?_, ?_, hout⟩
  · rw [← hf]; rfl
  · rw [← hf]; rfl
  · rw [← hf]; rfl
  · rw [← hf]
    exact pieceFlags_last _ _

/-- Each of the pieces that are sent goes out. -/
theorem pieceOut_foldl (c : Coord) (lost : Bool) (n : Nat) (l : List (Bytes × Nat)) {p : Bytes × Nat} (hl : p ∈ l) :
    pieceOut s (l.foldl (sendPiece c lost n) u) p.1 (p.2 + 1 = n) := by
  induction l generalizing u with
  | nil => cases hl
  | cons x xs ih =>
    obtain rfl | hl := List.mem_cons.mp hl
    · exact pieceOut_later (pieceOut_sendPiece hu hret hp c lost n p) (sendsOnly_foldl (sendsOnly_sendPiece c lost n) xs _)
    · exact ih (hu.trans (sendsOnly_sendPiece c lost n u x).sameWays) hl

end

/-- The pieces in which a mirror frame goes out. -/
def mirrorPieces (m : MirrorFrame) : List Bytes := cutBytes 4096 (m.bytes.length / 4096 + 1) m.bytes

theorem mirrorPieces_flatten (m : MirrorFrame) : (mirrorPieces m).flatten = m.bytes := cutBytes_flatten _ _ _ (by omega)

theorem sendTwin_pieces {s : State} {c : Coord} (m : MirrorFrame) (hc : s.twin = some c) :
    s.sendTwin m = (mirrorPieces m).zipIdx.foldl (sendPiece c m.takeover (mirrorPieces m).length) s := by
  unfold State.sendTwin
  rw [hc]
  rfl

/-- One more mirror frame counts for a window. -/
def mirrorCounted (s : State) (beat : Nat) : State :=
  { s with casc := { s.casc with mirrorTx := putKey s.casc.mirrorTx beat ((getKey s.casc.mirrorTx beat).getD 0 + 1) } }

theorem sameWays_mirrorCounted (s : State) (beat : Nat) : SameWays s (mirrorCounted s beat) :=
  ⟨fun f => by cases f <;> rfl, rfl, rfl, rfl, fun _ _ => rfl, fun _ => rfl⟩

/-- What a mirror frame does on its way: it counts for its window, changes no byte, and each of its pieces goes out. -/
theorem sendMirror_goesOut {lost : Bool} {beat kind shard object off stamp : Nat} {data : Bytes} {s v : State} {m : MirrorFrame}
    (htwin : s.twin.isSome = true) (hret : s.casc.retired = false) (hp : s.portsOf 7 ≠ [])
    (hv : v = s.sendMirror lost beat kind shard object off stamp data)
    (hm : m = { kind := kind, takeover := lost, shard := shard, object := object, offset := off, stamp := stamp % 2 ^ 32,
                seq := (getKey s.casc.mirrorTx beat).getD 0, payload := data }) :
    (getKey v.casc.mirrorTx beat).getD 0 = m.seq + 1 ∧ memoryKept s v ∧
      ∀ i p, (mirrorPieces m)[i]? = some p → pieceOut s v p (i + 1 = (mirrorPieces m).length) := by
  obtain ⟨c, hc⟩ := Option.isSome_iff_exists.mp htwin
  have hsent : v = (mirrorPieces m).zipIdx.foldl (sendPiece c m.takeover (mirrorPieces m).length) (mirrorCounted s beat) := by
    rw [hv, ← sendTwin_pieces m (s := mirrorCounted s beat) hc, hm]
    rfl
  have hsends := sendsOnly_foldl (sendsOnly_sendPiece c m.takeover (mirrorPieces m).length) (mirrorPieces m).zipIdx (mirrorCounted s beat)
  obtain ⟨n, hn⟩ := hsends.casc
  refine ⟨?_, fun l => ?_, fun i p hi => ?_⟩
  · rw [hsent, hn, hm]
    dsimp only [mirrorCounted]
    rw [getKey_putKey_self]
    rfl
  · rw [hv]
    exact peek_of_keeps (keeps_sendMirror s lost beat kind shard object off stamp data (keeps_refl s) (covers_noMemory rfl)) l
  · rw [hsent]
    exact pieceOut_foldl (sameWays_mirrorCounted s beat) hret hp c _ _ _ (List.mk_mem_zipIdx_iff_getElem?.mpr hi)

/-! ### O42 -/

/-- Settles O42: the frames of the twin lane by what they do as a whole, requests by what is sent for them, and a mirror frame by its
pieces. -/
theorem twinsMirrorAndCopy : Obligations.TwinsMirrorAndCopy := by
  unfold Obligations.TwinsMirrorAndCopy
  refine ⟨⟨?_, ?_, ?_, ?_⟩, ?_, ?_, ?_⟩
  · intro q k f c s x h hr ht hv hc hk hx
    rw [mirrorFrame_taken h hr ht hv hc hk hx]
    refine ⟨fun hlast => ?_, fun hlast => ?_⟩
    · rw [if_neg (by omega)]
    · rw [if_pos hlast]
  · rintro m s v T ps hT hcls hl hh hp hg hn h3 hk rfl
    have hstored := mirrorPut_stored hT hcls hl hh hp hg hn h3
    obtain hk | hk := hk
    · rw [takeMirror_plain s hk]
      exact hstored
    · rw [takeMirror_copy s hk]
      exact mirrorStored_takeCopy hstored
  · rintro m w ws id mom cap s a v hk hws rfl htag rfl
    rw [takeMirror_stage s hk]
    refine ⟨fun hb => stageFrame_applied hws htag hb, fun ha => ?_, fun hb ha => ?_⟩
    · rw [stageFrame_duplicate (w := w) hws htag ha, raise_logged _ rfl]
      exact logEntry_logged _ _ (by decide)
    · exact stampFault_noted (s := s.countFrame m) (stageFrame_fault (w := w) hws htag hb ha)
  · intro m s hk
    exact ⟨fenceCount s m.offset, takeMirror_fence s hk, fenceCount_declared, fenceCount_less⟩
  · exact fun q f s h hr ht hv => copyRequest_taken h hr ht hv
  · refine fun id T s hT hm => ⟨fun o ho => ?_, fun hs => ?_, ?_⟩
    · rw [takeRequest_page hT hm ho, sendCopy_page s false T (by omega) (by omega)]
    · rw [takeRequest_tensor hT hm hs, sendCopy_tensor]
    · rintro h hs v rfl
      rw [takeRequest_shard hT hm hs]
      rfl
  · intro lost beat kind shard object off stamp data s v m htwin hret hp hv hm
    obtain ⟨hcount, hmemory, hpieces⟩ := sendMirror_goesOut htwin hret hp hv hm
    exact ⟨hcount, hmemory, mirrorPieces m, mirrorPieces_flatten m, cutBytes_length_le _ _ _, hpieces⟩

end Sys2Proof.Laws

/-! # Every command keeps what Safety.lean names, and O5 -/

namespace Sys2Proof.Laws

open Sys2Proof Sys2Proof.Machine

/-! ### Every command -/

/-- Each command answers a next state, and keeps everything but the parts that `changes` lists for it. -/
theorem exec_keeps (c : Instr) (s : State) : ∃ t, exec c s = .next t ∧ Keeps (fun p => (changes c).contains p) s t := by
  have hp : covers (fun p => (changes c).contains p) (changes c) := fun _ h => h
  cases c with
  | registerWrite _ _ _ => exact ⟨_, rfl, keeps_applyRegisterWrite _ _ _ _ (keeps_refl s)⟩
  | rcRead _ _ => exact ⟨_, rfl, keeps_applyRcRead _ _ _ (keeps_refl s)⟩
  | loRead _ _ _ => exact ⟨_, rfl, keeps_applyLoRead _ _ _ _ (keeps_refl s)⟩
  | bar0UnsupportedRequest _ _ _ => exact ⟨_, rfl, keeps_applyBar0UnsupportedRequest _ _ (keeps_refl s)⟩
  | bar2Access _ _ _ => exact ⟨_, rfl, keeps_applyBar2Access _ _ _ _ _ (keeps_refl s)⟩
  | cxlMemAccess _ _ => exact ⟨_, rfl, keeps_applyCxlMemAccess _ _ _ _ (keeps_refl s)⟩
  | load _ => exact ⟨_, rfl, keeps_applyLoad _ _ (keeps_refl s)⟩
  | verifyDone _ => exact ⟨_, rfl, keeps_applyVerifyDone _ _ (keeps_refl s)⟩
  | evict _ => exact ⟨_, rfl, keeps_applyEvict _ _ (keeps_refl s)⟩
  | start _ _ => exact ⟨_, rfl, keeps_applyStart _ _ _ (keeps_refl s)⟩
  | stop => exact ⟨_, rfl, keeps_applyStop _ (keeps_refl s)⟩
  | marginRst => exact ⟨_, rfl, keeps_applyMarginRst _ (keeps_refl s)⟩
  | mailboxAddrValid _ _ => exact ⟨_, rfl, keeps_applyMailboxAddrValid _ _ _ (keeps_refl s)⟩
  | rdcEn _ _ => exact ⟨_, rfl, keeps_applyRdcEn _ _ _ (keeps_refl s)⟩
  | invAll _ => exact ⟨_, rfl, keeps_applyInvAll _ _ (keeps_refl s)⟩
  | chunkRst _ => exact ⟨_, rfl, keeps_applyChunkRst _ _ (keeps_refl s)⟩
  | cacheClr => exact ⟨_, rfl, keeps_applyCacheClr _ (keeps_refl s)⟩
  | train _ => exact ⟨_, rfl, keeps_applyTrain _ _ (keeps_refl s)⟩
  | marginNow _ _ => exact ⟨_, rfl, keeps_applyMarginNow _ _ _ (keeps_refl s)⟩
  | retire _ => exact ⟨_, rfl, keeps_applyRetire _ _ (keeps_refl s)⟩
  | ctrl _ _ => exact ⟨_, rfl, keeps_applyCtrl _ _ _ (keeps_refl s)⟩
  | biasApply => exact ⟨_, rfl, keeps_applyBiasApply _ (keeps_refl s)⟩
  | biasFlipComplete _ => exact ⟨_, rfl, keeps_applyBiasFlipComplete _ _ (keeps_refl s)⟩
  | holdReq => exact ⟨_, rfl, keeps_applyHoldReq _ (keeps_refl s)⟩
  | pwrCapWrite _ _ => exact ⟨_, rfl, keeps_applyPwrCapWrite _ _ (keeps_refl s)⟩
  | devReset _ _ => exact ⟨_, rfl, keeps_applyDevReset _ _ _ (keeps_refl s)⟩
  | testCtlWrite _ => exact ⟨_, rfl, keeps_applyTestCtlWrite _ _ (keeps_refl s)⟩
  | getNonce => exact ⟨_, rfl, keeps_applyGetNonce _ (keeps_refl s)⟩
  | signedRequest => exact ⟨_, rfl, keeps_applySignedRequest _ (keeps_refl s)⟩
  | provisionKey => exact ⟨_, rfl, keeps_applyProvisionKey _ (keeps_refl s)⟩
  | revokeKey => exact ⟨_, rfl, keeps_applyRevokeKey _ (keeps_refl s)⟩
  | advanceFing => exact ⟨_, rfl, keeps_applyAdvanceFing _ (keeps_refl s)⟩
  | blockVendorDebug => exact ⟨_, rfl, keeps_applyBlockVendorDebug _ (keeps_refl s)⟩
  | debugL1 => exact ⟨_, rfl, keeps_applyDebugL1 _ (keeps_refl s)⟩
  | debugL2 => exact ⟨_, rfl, keeps_applyDebugL2 _ (keeps_refl s)⟩
  | debugLock => exact ⟨_, rfl, keeps_applyDebugLock _ (keeps_refl s)⟩
  | fwUpdate => exact ⟨_, rfl, keeps_applyFwUpdate _ (keeps_refl s)⟩
  | mailboxRead _ => exact ⟨_, rfl, keeps_applyMailboxRead _ _ (keeps_refl s)⟩
  | mailboxReadComplete _ => exact ⟨_, rfl, keeps_applyMailboxReadComplete _ _ (keeps_refl s)⟩
  | nop => exact ⟨_, rfl, keeps_applyNop _ (keeps_refl s)⟩
  | switch => exact ⟨_, rfl, keeps_applySwitch _ (keeps_refl s)⟩
  | mailboxStop => exact ⟨_, rfl, keeps_applyMailboxStop _ (keeps_refl s)⟩
  | args => exact ⟨_, rfl, keeps_applyArgs _ (keeps_refl s)⟩
  | marker _ => exact ⟨_, rfl, keeps_applyMarker _ _ (keeps_refl s)⟩
  | gapStart _ => exact ⟨_, rfl, keeps_applyGapStart _ _ (keeps_refl s)⟩
  | gapEntry _ => exact ⟨_, rfl, keeps_applyGapEntry _ _ (keeps_refl s)⟩
  | beatReport _ => exact ⟨_, rfl, keeps_applyBeatReport _ _ (keeps_refl s)⟩
  | verdict _ _ => exact ⟨_, rfl, keeps_applyVerdictMsg _ _ _ _ _ (keeps_refl s)⟩
  | commit _ => exact ⟨_, rfl, keeps_applyVerdict _ _ _ (keeps_refl s)⟩
  | commitSkip _ => exact ⟨_, rfl, keeps_applyVerdict _ _ _ (keeps_refl s)⟩
  | replay _ => exact ⟨_, rfl, keeps_applyVerdict _ _ _ (keeps_refl s)⟩
  | verdictLate _ => exact ⟨_, rfl, keeps_applyVerdictLate _ _ (keeps_refl s)⟩
  | masterLost _ => exact ⟨_, rfl, keeps_applyMasterLost _ _ (keeps_refl s)⟩
  | backupAssumesMastership _ => exact ⟨_, rfl, keeps_applyBackupAssumesMastership _ _ (keeps_refl s)⟩
  | slotStart _ _ => exact ⟨_, rfl, keeps_applySlotStart _ _ _ (keeps_refl s)⟩
  | slotEnd _ _ _ => exact ⟨_, rfl, keeps_applySlotEnd _ _ _ _ (keeps_refl s)⟩
  | slotHung _ _ => exact ⟨_, rfl, keeps_applySlotHung _ _ _ (keeps_refl s)⟩
  | markerIssue _ => exact ⟨_, rfl, keeps_applyMarkerIssue _ _ (keeps_refl s)⟩
  | report _ _ => exact ⟨_, rfl, keeps_applyReport _ _ _ _ (keeps_refl s)⟩
  | memberLostTimeout _ _ => exact ⟨_, rfl, keeps_applyMemberLostTimeout _ _ _ (keeps_refl s)⟩
  | join _ _ => exact ⟨_, rfl, keeps_applyJoin _ _ _ _ (keeps_refl s)⟩
  | joinTimeout _ => exact ⟨_, rfl, keeps_applyJoinTimeout _ _ (keeps_refl s)⟩
  | sync _ => exact ⟨_, rfl, keeps_applySync _ _ (keeps_refl s)⟩
  | beatInEdge _ => exact ⟨_, rfl, keeps_applyBeatInEdge _ _ (keeps_refl s)⟩
  | syncResult _ _ => exact ⟨_, rfl, keeps_applySyncResult _ _ _ _ (keeps_refl s)⟩
  | standaloneFirstMarker _ => exact ⟨_, rfl, keeps_applyStandaloneFirstMarker _ _ (keeps_refl s)⟩
  | admitDevice _ _ => exact ⟨_, rfl, keeps_applyAdmitDevice _ _ _ _ (keeps_refl s)⟩
  | ready _ _ => exact ⟨_, rfl, keeps_applyReady _ _ _ _ (keeps_refl s)⟩
  | resume _ => exact ⟨_, rfl, keeps_applyResume _ _ (keeps_refl s)⟩
  | dataFrame _ _ => exact ⟨_, rfl, keeps_applyDataFrame _ _ _ (keeps_refl s)⟩
  | reduceFrame _ _ => exact ⟨_, rfl, keeps_applyReduceFrame _ _ _ (keeps_refl s)⟩
  | ack _ _ => exact ⟨_, rfl, keeps_applyAck _ _ _ (keeps_refl s)⟩
  | nak _ _ => exact ⟨_, rfl, keeps_applyNak _ _ _ (keeps_refl s)⟩
  | credit _ _ => exact ⟨_, rfl, keeps_applyCredit _ _ _ (keeps_refl s)⟩
  | ident _ _ => exact ⟨_, rfl, keeps_applyIdent _ _ _ (keeps_refl s)⟩
  | probe _ _ => exact ⟨_, rfl, keeps_applyProbe _ _ _ _ (keeps_refl s)⟩
  | idleTimer _ => exact ⟨_, rfl, keeps_applyIdleTimer _ _ (keeps_refl s)⟩
  | ackTimer _ => exact ⟨_, rfl, keeps_applyAckTimer _ _ (keeps_refl s)⟩
  | creditReturn _ => exact ⟨_, rfl, keeps_applyCreditReturn _ _ (keeps_refl s)⟩
  | linkTrainingDone _ _ => exact ⟨_, rfl, keeps_applyLinkTrainingDone _ _ _ (keeps_refl s)⟩
  | latencyRemeasure _ _ => exact ⟨_, rfl, keeps_applyLatencyRemeasure _ _ _ (keeps_refl s)⟩
  | laneMarginMeasure _ _ _ => exact ⟨_, rfl, keeps_applyLaneMarginMeasure _ _ _ _ (keeps_refl s)⟩
  | laneDrop _ _ => exact ⟨_, rfl, keeps_applyLaneDrop _ _ _ (keeps_refl s)⟩
  | portDown _ _ => exact ⟨_, rfl, keeps_applyPortDown _ _ _ (keeps_refl s)⟩
  | partnerLost _ => exact ⟨_, rfl, keeps_applyPartnerLost _ _ (keeps_refl s)⟩
  | send _ => exact ⟨_, rfl, keeps_applySend _ _ (keeps_refl s)⟩
  | mcast _ => exact ⟨_, rfl, keeps_applyMcast _ _ (keeps_refl s)⟩
  | reduce _ => exact ⟨_, rfl, keeps_applyReduce _ _ (keeps_refl s)⟩
  | plain _ => exact ⟨_, rfl, keeps_applyPlain _ _ _ (keeps_refl s)⟩
  | stageM _ => exact ⟨_, rfl, keeps_applyStageM _ _ _ (keeps_refl s)⟩
  | stageW _ => exact ⟨_, rfl, keeps_applyStageW _ _ _ (keeps_refl s)⟩
  | fence _ => exact ⟨_, rfl, keeps_applyFence _ _ _ (keeps_refl s)⟩
  | copy _ => exact ⟨_, rfl, keeps_applyCopy _ _ _ (keeps_refl s)⟩
  | updateOp _ _ _ => exact ⟨_, rfl, keeps_applyUpdateOp _ _ _ _ (keeps_refl s)⟩
  | stageMAck _ _ => exact ⟨_, rfl, keeps_applyStageMAck _ _ _ _ (keeps_refl s)⟩
  | updSelftestDone _ _ => exact ⟨_, rfl, keeps_applyUpdSelftestDone _ _ _ (keeps_refl s)⟩
  | scheduleSlot _ => exact ⟨_, rfl, keeps_applyScheduleSlot _ _ (keeps_refl s)⟩
  | move _ _ => exact ⟨_, rfl, keeps_applyMove _ _ _ (keeps_refl s)⟩
  | fetch _ _ => exact ⟨_, rfl, keeps_applyFetch _ _ _ (keeps_refl s)⟩
  | holdSpaceFreed _ => exact ⟨_, rfl, keeps_applyHoldSpaceFreed _ _ (keeps_refl s)⟩
  | homingComplete _ _ => exact ⟨_, rfl, keeps_applyHomingComplete _ _ _ (keeps_refl s)⟩
  | h2d _ => exact ⟨_, rfl, keeps_applyH2d _ _ (keeps_refl s)⟩
  | d2h _ => exact ⟨_, rfl, keeps_applyD2h _ _ (keeps_refl s)⟩
  | notify _ => exact ⟨_, rfl, keeps_applyNotify _ _ (keeps_refl s)⟩
  | readCompletion _ _ => exact ⟨_, rfl, keeps_applyReadCompletion _ _ _ (keeps_refl s)⟩
  | flushingReadComplete _ => exact ⟨_, rfl, keeps_applyFlushingReadComplete _ _ (keeps_refl s)⟩
  | completionTimeout _ => exact ⟨_, rfl, keeps_applyCompletionTimeout _ _ (keeps_refl s)⟩
  | endOfSequence _ _ => exact ⟨_, rfl, keeps_applyEndOfSequence _ _ _ (keeps_refl s)⟩
  | real _ _ _ => exact ⟨_, rfl, keeps_applyArrayOp _ _ _ _ _ (keeps_refl s)⟩
  | complex _ _ _ => exact ⟨_, rfl, keeps_applyArrayOp _ _ _ _ _ (keeps_refl s)⟩
  | fp32x6 _ _ _ => exact ⟨_, rfl, keeps_applyArrayOp _ _ _ _ _ (keeps_refl s)⟩
  | vadd _ => exact ⟨_, rfl, keeps_applyVadd _ _ (keeps_refl s)⟩
  | vsub _ => exact ⟨_, rfl, keeps_applyVsub _ _ (keeps_refl s)⟩
  | vmul _ => exact ⟨_, rfl, keeps_applyVmul _ _ (keeps_refl s)⟩
  | vfma _ => exact ⟨_, rfl, keeps_applyVfma _ _ (keeps_refl s)⟩
  | vneg _ => exact ⟨_, rfl, keeps_applyVneg _ _ (keeps_refl s)⟩
  | vabs _ => exact ⟨_, rfl, keeps_applyVabs _ _ (keeps_refl s)⟩
  | vmax _ => exact ⟨_, rfl, keeps_applyVmax _ _ (keeps_refl s)⟩
  | vmin _ => exact ⟨_, rfl, keeps_applyVmin _ _ (keeps_refl s)⟩
  | vcmp _ => exact ⟨_, rfl, keeps_applyVcmp _ _ (keeps_refl s)⟩
  | vsel _ => exact ⟨_, rfl, keeps_applyVsel _ _ (keeps_refl s)⟩
  | vcvt _ => exact ⟨_, rfl, keeps_applyVcvt _ _ (keeps_refl s)⟩
  | vamax _ => exact ⟨_, rfl, keeps_applyVamax _ _ (keeps_refl s)⟩
  | vscale _ => exact ⟨_, rfl, keeps_applyVscale _ _ (keeps_refl s)⟩
  | vrsum _ => exact ⟨_, rfl, keeps_applyVrsum _ _ (keeps_refl s)⟩
  | vrmax _ => exact ⟨_, rfl, keeps_applyVrmax _ _ (keeps_refl s)⟩
  | vrmin _ => exact ⟨_, rfl, keeps_applyVrmin _ _ (keeps_refl s)⟩
  | vexp _ => exact ⟨_, rfl, keeps_applyVexp _ _ (keeps_refl s)⟩
  | vlog _ => exact ⟨_, rfl, keeps_applyVlog _ _ (keeps_refl s)⟩
  | vrcp _ => exact ⟨_, rfl, keeps_applyVrcp _ _ (keeps_refl s)⟩
  | vrsqrt _ => exact ⟨_, rfl, keeps_applyVrsqrt _ _ (keeps_refl s)⟩
  | vsin _ => exact ⟨_, rfl, keeps_applyVsin _ _ (keeps_refl s)⟩
  | vcos _ => exact ⟨_, rfl, keeps_applyVcos _ _ (keeps_refl s)⟩
  | vperm _ => exact ⟨_, rfl, keeps_applyVperm _ _ (keeps_refl s)⟩
  | vbcast _ => exact ⟨_, rfl, keeps_applyVbcast _ _ (keeps_refl s)⟩
  | vmovs _ => exact ⟨_, rfl, keeps_applyVmovs _ _ (keeps_refl s)⟩
  | vgath _ => exact ⟨_, rfl, keeps_applyVgath _ _ (keeps_refl s)⟩
  | vld _ => exact ⟨_, rfl, keeps_applyVld _ _ (keeps_refl s)⟩
  | vst _ => exact ⟨_, rfl, keeps_applyVst _ _ (keeps_refl s)⟩
  | vqpop _ => exact ⟨_, rfl, keeps_applyVqpop _ _ (keeps_refl s)⟩
  | vwga _ => exact ⟨_, rfl, keeps_applyVwga _ _ (keeps_refl s)⟩
  | sli _ => exact ⟨_, rfl, keeps_applySli _ _ (keeps_refl s)⟩
  | slui _ => exact ⟨_, rfl, keeps_applySlui _ _ (keeps_refl s)⟩
  | sadd _ => exact ⟨_, rfl, keeps_applySadd _ _ (keeps_refl s)⟩
  | saddi _ => exact ⟨_, rfl, keeps_applySaddi _ _ (keeps_refl s)⟩
  | ssub _ => exact ⟨_, rfl, keeps_applySsub _ _ (keeps_refl s)⟩
  | smul _ => exact ⟨_, rfl, keeps_applySmul _ _ (keeps_refl s)⟩
  | sand _ => exact ⟨_, rfl, keeps_applySand _ _ (keeps_refl s)⟩
  | sor _ => exact ⟨_, rfl, keeps_applySor _ _ (keeps_refl s)⟩
  | sxor _ => exact ⟨_, rfl, keeps_applySxor _ _ (keeps_refl s)⟩
  | sshl _ => exact ⟨_, rfl, keeps_applySshl _ _ (keeps_refl s)⟩
  | sshr _ => exact ⟨_, rfl, keeps_applySshr _ _ (keeps_refl s)⟩
  | sld _ => exact ⟨_, rfl, keeps_applySld _ _ (keeps_refl s)⟩
  | sst _ => exact ⟨_, rfl, keeps_applySst _ _ (keeps_refl s)⟩
  | vext _ => exact ⟨_, rfl, keeps_applyVext _ _ (keeps_refl s)⟩
  | br _ => exact ⟨_, rfl, keeps_applyBr _ _ (keeps_refl s)⟩
  | beqz _ => exact ⟨_, rfl, keeps_applyBeqz _ _ (keeps_refl s)⟩
  | bnez _ => exact ⟨_, rfl, keeps_applyBnez _ _ (keeps_refl s)⟩
  | blt _ => exact ⟨_, rfl, keeps_applyBlt _ _ (keeps_refl s)⟩
  | loop _ => exact ⟨_, rfl, keeps_applyLoop _ _ (keeps_refl s)⟩
  | wait _ => exact ⟨_, rfl, keeps_applyWait _ _ (keeps_refl s)⟩
  | signal _ => exact ⟨_, rfl, keeps_applySignal _ _ (keeps_refl s)⟩
  | endRoutine _ => exact ⟨_, rfl, keeps_applyEndRoutine _ _ (keeps_refl s)⟩
  | signalArrival _ _ _ => exact ⟨_, rfl, keeps_applySignalArrival _ _ _ _ (keeps_refl s)⟩
  | waitSatisfied _ => exact ⟨_, rfl, keeps_applyWaitSatisfied _ _ (keeps_refl s)⟩
  | sampleRecord _ _ _ => exact ⟨_, rfl, keeps_applySampleRecord _ _ _ (keeps_refl s)⟩
  | jpegDecode _ _ => exact ⟨_, rfl, keeps_applyJpegDecode _ _ _ _ (keeps_refl s)⟩
  | tokenize _ _ => exact ⟨_, rfl, keeps_applyTokenize _ _ _ _ (keeps_refl s)⟩
  | batchOp _ => exact ⟨_, rfl, keeps_applyBatchOp _ _ (keeps_refl s)⟩
  | plannedBurst _ => exact ⟨_, rfl, keeps_applyPlannedBurst _ _ _ (keeps_refl s)⟩
  | refreshInterval _ => exact ⟨_, rfl, keeps_applyRefreshInterval _ _ (keeps_refl s)⟩
  | patrolScrub _ _ _ _ => exact ⟨_, rfl, keeps_applyPatrolScrub _ _ _ _ _ (keeps_refl s)⟩
  | edramWriteBack _ _ => exact ⟨_, rfl, keeps_applyEdramWriteBack _ _ _ (keeps_refl s)⟩
  | flitCrcFail _ _ _ => exact ⟨_, rfl, keeps_applyFlitCrcFail _ _ _ _ (keeps_refl s)⟩
  | moduleRetrainDone _ _ _ => exact ⟨_, rfl, keeps_applyModuleRetrainDone _ _ _ _ (keeps_refl s)⟩
  | moduleRetrainTimeout _ _ => exact ⟨_, rfl, keeps_applyModuleRetrainTimeout _ _ _ (keeps_refl s)⟩
  | parameterBlock _ _ _ _ => exact ⟨_, rfl, keeps_applyParameterBlock _ _ _ _ _ (keeps_refl s)⟩
  | parameterBlockTimeout _ _ => exact ⟨_, rfl, keeps_applyParameterBlockTimeout _ _ _ (keeps_refl s)⟩
  | remoteRead _ _ _ _ => exact ⟨_, rfl, keeps_applyRemoteRead _ _ _ _ _ (keeps_refl s)⟩
  | powerSample _ => exact ⟨_, rfl, keeps_applyPowerSample _ _ (keeps_refl s)⟩
  | powerStepUpdate _ => exact ⟨_, rfl, keeps_applyPowerStepUpdate _ _ (keeps_refl s)⟩
  | thermalRead _ => exact ⟨_, rfl, keeps_applyThermalRead _ _ (keeps_refl s)⟩
  | thermalStepTick _ => exact ⟨_, rfl, keeps_applyThermalStepTick _ _ (keeps_refl s)⟩
  | wakeStart _ _ => exact ⟨_, rfl, keeps_applyWakeStart _ _ _ (keeps_refl s)⟩
  | unplannedWake _ _ => exact ⟨_, rfl, keeps_applyUnplannedWake _ _ _ (keeps_refl s)⟩
  | autoHold => exact ⟨_, rfl, keeps_applyAutoHold _ (keeps_refl s)⟩
  | holdExit => exact ⟨_, rfl, keeps_applyHoldExit _ (keeps_refl s)⟩
  | dStateChange _ _ => exact ⟨_, rfl, keeps_applyDStateChange _ _ _ (keeps_refl s)⟩
  | crossingTimeout _ _ => exact ⟨_, rfl, keeps_applyCrossingTimeout _ _ _ (keeps_refl s)⟩
  | pllUnlock _ => exact ⟨_, rfl, keeps_applyPllUnlock _ _ (keeps_refl s)⟩
  | pllRelock _ => exact ⟨_, rfl, keeps_applyPllRelock _ _ (keeps_refl s)⟩
  | pllRelockTimeout _ => exact ⟨_, rfl, keeps_applyPllRelockTimeout _ _ (keeps_refl s)⟩
  | powerOkAssert _ => exact ⟨_, rfl, keeps_applyPowerOkAssert _ _ (keeps_refl s)⟩
  | powerOkDeassert => exact ⟨_, rfl, keeps_applyPowerOkDeassert _ (keeps_refl s)⟩
  | startupStepTimeout _ => exact ⟨_, rfl, keeps_applyStartupStepTimeout _ _ (keeps_refl s)⟩
  | portReset _ _ _ => exact ⟨_, rfl, keeps_applyPortReset _ _ _ _ (keeps_refl s)⟩
  | pcieLinkUp _ _ => exact ⟨_, rfl, keeps_applyPcieLinkUp _ _ _ (keeps_refl s)⟩
  | linkRecovery _ => exact ⟨_, rfl, keeps_applyLinkRecovery _ _ (keeps_refl s)⟩
  | cxlCacheTimeout _ => exact ⟨_, rfl, keeps_applyCxlCacheTimeout _ _ (keeps_refl s)⟩
  | watchdog _ => exact ⟨_, rfl, keeps_applyWatchdog _ _ (keeps_refl s)⟩
  | getCertificate _ _ _ => exact ⟨_, rfl, keeps_applyGetCertificate _ _ _ _ (keeps_refl s)⟩
  | challenge _ _ => exact ⟨_, rfl, keeps_applyChallenge _ _ _ (keeps_refl s)⟩
  | getMeasurements _ _ _ _ => exact ⟨_, rfl, keeps_applyGetMeasurements _ _ _ _ _ (keeps_refl s)⟩
  | readTelemetry _ => exact ⟨_, rfl, keeps_applyReadTelemetry _ _ (keeps_refl s)⟩
  | setCap _ _ => exact ⟨_, rfl, keeps_applySetCap _ _ _ (keeps_refl s)⟩
  | getCap _ => exact ⟨_, rfl, keeps_applyGetCap _ _ (keeps_refl s)⟩
  | coverDue _ => exact ⟨_, rfl, keeps_applyCoverDue _ _ (keeps_refl s)⟩
  | coreSelfTestDone _ _ => exact ⟨_, rfl, keeps_applyCoreSelfTestDone _ _ _ _ (keeps_refl s)⟩
  | controlMessageReceipt _ _ _ _ => exact ⟨_, rfl, keeps_applyControlMessageReceipt _ _ _ _ _ (keeps_refl s)⟩
  | masterAndBackupLost _ => exact ⟨_, rfl, keeps_applyMasterAndBackupLost _ _ (keeps_refl s)⟩
  | copyRequest _ _ => exact ⟨_, rfl, keeps_applyCopyRequest _ _ _ (keeps_refl s)⟩
  | eszCmdDone => exact ⟨_, rfl, keeps_applyEszCmdDone _ (keeps_refl s)⟩
  | tapAccess _ => exact ⟨_, rfl, keeps_applyTapAccess _ _ (keeps_refl s)⟩
  | negotiateAlgorithms _ => exact ⟨_, rfl, keeps_applyNegotiateAlgorithms _ _ (keeps_refl s)⟩
  | dynamicAddress _ => exact ⟨_, rfl, keeps_applyDynamicAddress _ _ (keeps_refl s)⟩

/-- A step idles, or runs the command at the front of the queue. -/
theorem step_cases {s t : State} (h : step s = .next t) :
    t = s ∨ ∃ c rest, exec c { s with pending := rest } = .next t := by
  unfold step at h
  split at h
  · cases h
    exact .inl rfl
  · exact .inr ⟨_, _, h⟩

/-! ### O5 -/

/-- Settles O5: a step runs one command or none, and every command keeps the canonical form. -/
theorem everyStepKeepsMemoryForm : Obligations.EveryStepKeepsMemoryForm := by
  unfold Obligations.EveryStepKeepsMemoryForm
  intro s t hm hs
  obtain rfl | ⟨c, rest, hc⟩ := step_cases hs
  · exact hm
  · obtain ⟨u, hu, hk⟩ := exec_keeps c { s with pending := rest }
    cases hu.symm.trans hc
    exact hk.memory hm

end Sys2Proof.Laws

/-! # Stores and what goes out beside them -/

namespace Sys2Proof.Laws

open Sys2Proof Sys2Proof.Machine

/-! ### What only sends -/

/-- From `s` to `t` records have been sent, and nothing else has happened. -/
def OnlySends (s t : State) : Prop := ∃ ms, t = { s with out := s.out ++ ms }

theorem onlySends_refl (s : State) : OnlySends s s := ⟨[], by rw [List.append_nil]⟩

theorem onlySends_trans {s t u : State} (h : OnlySends s t) (g : OnlySends t u) : OnlySends s u := by
  obtain ⟨ms, rfl⟩ := h
  obtain ⟨ns, rfl⟩ := g
  exact ⟨ms ++ ns, by simp only [List.append_assoc]⟩

theorem onlySends_emit (s : State) (o : Out) : OnlySends s (s.emit o) := ⟨[o], rfl⟩

theorem onlySends_foldl {α : Type} {f : State → α → State} (h : ∀ s x, OnlySends s (f s x)) (l : List α) (s : State) :
    OnlySends s (l.foldl f s) :=
  List.foldlRecOn l f (onlySends_refl s) fun t ht x _ => onlySends_trans ht (h t x)

theorem memoryKept_of_onlySends {s t : State} (h : OnlySends s t) : memoryKept s t := by
  obtain ⟨ms, rfl⟩ := h
  exact fun l => by cases l <;> rfl

theorem mem_out_of_onlySends {s t : State} (h : OnlySends s t) {o : Out} (ho : o ∈ s.out) : o ∈ t.out := by
  obtain ⟨ms, rfl⟩ := h
  exact List.mem_append_left _ ho

/-! ### Memory through several operations -/

theorem memoryKept_refl (s : State) : memoryKept s s := fun _ => rfl

theorem memoryKept_trans {s t u : State} (h : memoryKept s t) (g : memoryKept t u) : memoryKept s u := fun l => (g l).trans (h l)

/-! ### Places -/

theorem reaches_of_placesOf {s : State} {ag : Agent} {w : Bool} {a n : Nat} {ps : List Place} (h : s.placesOf ag w a n = some ps) :
    ∀ pl ∈ ps, s.reaches ag pl w = true := by
  induction n generalizing a ps with
  | zero =>
    cases h
    exact fun pl hpl => absurd hpl List.not_mem_nil
  | succ n ih =>
    unfold State.placesOf at h
    split at h
    · cases h
    · rename_i pl _
      split at h
      · next hreach =>
        split at h
        · next rest hrest =>
          cases h
          intro x hx
          obtain rfl | hx := List.mem_cons.mp hx
          · exact hreach
          · exact ih hrest x hx
        · cases h
      · cases h

/-- Hosts and peers reach no byte of the super tier (R345). -/
theorem notSuper_of_bus {s : State} {ag : Agent} (hb : ag.isBus = true) {w : Bool} {a n : Nat} {ps : List Place}
    (h : s.placesOf ag w a n = some ps) : ∀ pl ∈ ps, (cellOf pl.loc).1 ≠ 3 := by
  intro pl hpl hc
  have hr := reaches_of_placesOf h pl hpl
  unfold State.reaches at hr
  cases hl : pl.loc with
  | super off =>
    rw [hl] at hr
    cases ag with
    | mover _ _ _ => cases hb
    | _ => cases hr
  | dram _ _ => rw [hl] at hc; cases hc
  | comb _ _ => rw [hl] at hc; cases hc
  | sram _ _ => rw [hl] at hc; cases hc

/-! ### Reads (R355, R485) -/

theorem cacheAccess_out (s : State) (ag : Agent) (pl : Place) (w : Bool) : (s.cacheAccess ag pl w).out = s.out := by
  unfold State.cacheAccess
  cases pl.loc with
  | dram n off =>
    have htouch : ∀ line dirty, (s.edramTouch n line dirty).out = s.out := fun _ _ => rfl
    dsimp only
    rw [apply_ite State.out, apply_ite State.out, htouch, htouch, ite_self, ite_self]
  | comb _ _ | sram _ _ | super _ => rfl

theorem touchAll_out (s : State) (ag : Agent) (ps : List Place) : (s.touchAll ag ps).out = s.out := by
  unfold State.touchAll
  exact List.foldlRecOn ps _ (motive := fun t => t.out = s.out) rfl fun t ht pl _ => (cacheAccess_out t ag pl false).trans ht

/-- The coherence agent recalls pages, and nothing else happens. -/
theorem recall_snoops (s : State) (ag : Agent) (ps : List Place) :
    ∃ ms, s.recall ag ps = { s with out := s.out ++ ms } ∧ ∀ m ∈ ms, ∃ q n, m = Out.snoop q n := by
  have hfold : ∀ (l : List Nat) (t : State), ∃ ms, l.foldl (fun (s : State) p => s.emit (.snoop (portOf (s.fld Reg.hdmCtl 25 25)) p)) t =
      { t with out := t.out ++ ms } ∧ ∀ m ∈ ms, ∃ q n, m = Out.snoop q n := by
    intro l
    induction l with
    | nil => exact fun t => ⟨[], by rw [List.append_nil]; rfl, fun m hm => absurd hm List.not_mem_nil⟩
    | cons p ps ih =>
      intro t
      obtain ⟨ms, hms, hsnoop⟩ := ih (t.emit (.snoop (portOf (t.fld Reg.hdmCtl 25 25)) p))
      refine ⟨.snoop (portOf (t.fld Reg.hdmCtl 25 25)) p :: ms, ?_, fun m hm => ?_⟩
      · rw [List.foldl_cons, hms]
        simp [State.emit]
      · obtain rfl | hm := List.mem_cons.mp hm
        · exact ⟨_, _, rfl⟩
        · exact hsnoop m hm
  unfold State.recall
  split
  · exact ⟨[], by rw [List.append_nil], fun m hm => absurd hm List.not_mem_nil⟩
  · exact hfold _ s

/-- A read of places that are there gives their bytes. -/
theorem fetch_mapped {s : State} {ag : Agent} {a n : Nat} {ps : List Place} (h : s.placesOf ag false a n = some ps) :
    s.fetch ag a n = (ps.map fun pl => s.peek pl.loc, (s.recall ag ps).touchAll ag ps) := by
  unfold State.fetch
  rw [h]

theorem fetch_unmapped {s : State} {ag : Agent} {a n : Nat} (h : s.placesOf ag false a n = none) :
    s.fetch ag a n = (zeroBytes n, s.unmapped ag) := by
  unfold State.fetch
  rw [h]

/-! ### Stores -/

/-- What a store does that no rule drops. -/
theorem storeIn_stores {s : State} {ag : Agent} {a : Nat} {data : Bytes} {ps : List Place} (beat : Nat) (hh : s.needsHold a = none)
    (hp : s.placesOf ag true a data.length = some ps) (hg : s.guards ag ps = .ok) :
    s.storeIn beat ag a data =
      ((((s.recall ag ps).writePlaces ag ps data).mirrorWrite beat ag ps data).scanGrad beat ps data).unlistWritten ps := by
  unfold State.storeIn
  simp only [hh, hp, hg]

/-- Such a store writes its bytes to its places and leaves every other byte of memory alone. -/
theorem storeIn_peek {s : State} {ag : Agent} {a : Nat} {data : Bytes} {ps : List Place} (beat : Nat) (hh : s.needsHold a = none)
    (hp : s.placesOf ag true a data.length = some ps) (hg : s.guards ag ps = .ok)
    (hc : ∀ pl ∈ ps, (cellOf pl.loc).1 ≠ 3) (hn : (ps.map fun pl => cellOf pl.loc).Nodup) :
    memoryKeptBut (ps.map (·.loc)) s (s.storeIn beat ag a data) ∧
      ∀ (i : Nat) (h : i < ps.length), (s.storeIn beat ag a data).peek ps[i].loc = data.getD i 0 := by
  have hbefore : memoryKept s (s.recall ag ps) := memoryKept_of_keeps (keeps_recall _ _ _ (keeps_refl s))
  have hafter : ∀ u : State, memoryKept u (((u.mirrorWrite beat ag ps data).scanGrad beat ps data).unlistWritten ps) := fun u => by
    have hm := keeps_mirrorWrite (P := allBut .memory) u beat ag ps data (keeps_refl u) (covers_allBut rfl)
    exact memoryKept_of_keeps (keeps_unlistWritten _ _ (keeps_scanGrad _ _ _ _ hm (covers_allBut rfl)) (covers_allBut rfl))
  obtain ⟨hother, hwritten⟩ := writePlaces_peek ag ps data (s.recall ag ps) (placesOf_length hp) hc hn
  rw [storeIn_stores beat hh hp hg]
  refine ⟨fun l hl => ?_, fun i h => (hafter _ _).trans (hwritten i h)⟩
  rw [hafter, hother l (by simpa using hl), hbefore]

end Sys2Proof.Laws

/-! # Accesses through BAR2 and CXL.mem, bias flips, and O12 -/

namespace Sys2Proof.Laws

open Sys2Proof Sys2Proof.Machine

/-! ### BAR2_ACCESS and CXL_MEM_ACCESS (R459, R461, R483, R485) -/

theorem leaveHold_of_ne {s : State} (h : s.devState ≠ 5) : s.leaveHold = s := if_neg h

theorem busAgent_isBus (src : BusSource) (p : HPort) : (busAgent src p).isBus = true := by cases src <;> rfl

/-- An access that lies in the BAR runs as its agent's. -/
theorem exec_bar2Access {p : HPort} {acc : Access} {s : State} (src : BusSource) (h : accessEnd acc ≤ 2 ^ s.bar2Log2 p) :
    exec (.bar2Access p src ⟨acc, []⟩) s = .next (s.busAccess (busAgent src p) p (s.bar2Base p) acc []) := by
  have hrun : exec (.bar2Access p src ⟨acc, []⟩) s = .next (applyBar2Access p src acc [] s) := rfl
  rw [hrun]
  unfold applyBar2Access
  rw [if_neg (Nat.not_lt.mpr h)]
  cases src <;> rfl

/-- An access to the range that a port exposes runs as its CXL.mem access. -/
theorem exec_cxlMemAccess {p : HPort} {acc : Access} {base size : Nat} {s : State} (hr : s.host.hdm = some (p, base, size))
    (hc : (s.hport p).cxl = true) (h : accessEnd acc ≤ size) :
    exec (.cxlMemAccess p ⟨acc, []⟩) s = .next (s.busAccess (.cxl p) p base acc []) := by
  have hrun : exec (.cxlMemAccess p ⟨acc, []⟩) s = .next (applyCxlMemAccess p acc [] s) := rfl
  rw [hrun, applyCxlMemAccess, hr]
  exact congrArg _ (if_pos ⟨rfl, hc, h⟩)

theorem busAccess_read {s : State} (h : s.devState ≠ 5) (ag : Agent) (p : HPort) (base off len : Nat) :
    s.busAccess ag p base (.read off len) [] = (s.fetch ag (base + off) len).2.emit (.busData p (s.fetch ag (base + off) len).1) := by
  unfold State.busAccess
  rw [leaveHold_of_ne h]
  rfl

theorem busAccess_write {s : State} (h : s.devState ≠ 5) (ag : Agent) (p : HPort) (base off : Nat) (data : Bytes) :
    s.busAccess ag p base (.write off data false) [] = s.store ag (base + off) data := by
  unfold State.busAccess
  rw [leaveHold_of_ne h]
  rfl

/-- A poisoned write is logged and does nothing else. -/
theorem busAccess_poisoned {s : State} (h : s.devState ≠ 5) (ag : Agent) (p : HPort) (base off : Nat) (data : Bytes) :
    s.busAccess ag p base (.write off data true) [] =
      s.logEntry { code := 0x9008, cls := 0, unit := { typ := 12, idx := portIdx p, sub := 0 } } := by
  unfold State.busAccess
  rw [leaveHold_of_ne h]
  dsimp only
  rw [if_pos rfl, raise_logged _ rfl]

/-- Hosts and peers that name an unmapped address get one log entry. -/
theorem unmapped_bus (s : State) {ag : Agent} (h : ag.isBus = true) :
    s.unmapped ag = s.logEntry { code := 0x600C, cls := 0, unit := ag.unit } := by
  unfold State.unmapped
  rw [if_pos h, raise_logged _ rfl]

/-- A write that no rule drops. -/
theorem busAccess_stores {s : State} {ag : Agent} {base off : Nat} {data : Bytes} {ps : List Place} (p : HPort) (hb : ag.isBus = true)
    (hs : s.devState ≠ 5) (hn : (ps.map fun pl => cellOf pl.loc).Nodup) (hh : s.needsHold (base + off) = none)
    (hp : s.placesOf ag true (base + off) data.length = some ps) (hg : s.guards ag ps = .ok) :
    memoryKeptBut (ps.map (·.loc)) s (s.busAccess ag p base (.write off data false) []) ∧
      ∀ (i : Nat) (h : i < ps.length), (s.busAccess ag p base (.write off data false) []).peek ps[i].loc = data.getD i 0 := by
  rw [busAccess_write hs]
  exact store_peek hh hp hg (notSuper_of_bus hb hp) hn

/-- A read of places that are there. -/
theorem busAccess_reads {s : State} {ag : Agent} {base off len : Nat} {ps : List Place} (p : HPort) (hs : s.devState ≠ 5)
    (hp : s.placesOf ag false (base + off) len = some ps) :
    memoryKept s (s.busAccess ag p base (.read off len) []) ∧
      ∃ ms, (s.busAccess ag p base (.read off len) []).out = s.out ++ ms ++ [.busData p (ps.map fun pl => s.peek pl.loc)] ∧
        ∀ m ∈ ms, ∃ q n, m = Out.snoop q n := by
  obtain ⟨ms, hms, hsnoop⟩ := recall_snoops s ag ps
  have hout : (s.fetch ag (base + off) len).2.out = s.out ++ ms := by
    rw [fetch_mapped hp, touchAll_out, hms]
  rw [busAccess_read hs]
  refine ⟨memoryKept_trans (fetch_peek s ag (base + off) len) (memoryKept_of_onlySends (onlySends_emit _ _)), ms, ?_, hsnoop⟩
  rw [emit_out, hout, fetch_mapped hp]

/-- A read of an address that does not exist. -/
theorem busAccess_unmapped {s : State} {ag : Agent} {base off len : Nat} (p : HPort) (hb : ag.isBus = true) (hs : s.devState ≠ 5)
    (hp : s.placesOf ag false (base + off) len = none) :
    s.busAccess ag p base (.read off len) [] =
      (s.logEntry { code := 0x600C, cls := 0, unit := ag.unit }).emit (.busData p (zeroBytes len)) := by
  rw [busAccess_read hs, fetch_unmapped hp, unmapped_bus s hb]

/-! ### APPLY and the flips of pages (R486) -/

/-- The state once these flips have been chosen: nothing waits for the gap, and BUSY reads whether there are any. -/
def flipsBegun (s : State) (fs : List (Nat × Bool)) : State :=
  ({ s with host := { s.host with flips := fs, applyWaits := false } } : State).setBit Reg.biasCtl 1 (!fs.isEmpty)

/-- A start of flips chooses them and takes the host's copies back. -/
theorem startFlips_begins (s : State) : ∃ fs, OnlySends (flipsBegun s fs) s.startFlips := by
  unfold State.startFlips
  dsimp only
  refine ⟨_, onlySends_foldl (fun t f => ?_) _ _⟩
  split
  · exact onlySends_refl t
  · exact onlySends_emit t _

theorem flipsBegun_busy (s : State) (fs : List (Nat × Bool)) : (flipsBegun s fs).bit Reg.biasCtl 1 = !fs.isEmpty :=
  bit_setBit_self _ _ (by decide)

theorem startFlips_kept (s : State) : memoryKept s s.startFlips :=
  memoryKept_of_keeps (keeps_startFlips s (keeps_refl s) (covers_allBut rfl))

theorem startFlips_shows (s : State) : s.startFlips.host.applyWaits = false ∧ s.startFlips.host.hostBias = s.host.hostBias ∧
    s.startFlips.bit Reg.biasCtl 1 = !s.startFlips.host.flips.isEmpty := by
  obtain ⟨fs, ms, hms⟩ := startFlips_begins s
  have hbusy := flipsBegun_busy s fs
  rw [hms]
  exact ⟨rfl, rfl, hbusy⟩

/-- APPLY that is accepted waits for the gap, or starts the flips with RUN 0. -/
theorem exec_biasApply {s : State} (hw : s.writeOpen Reg.biasCtl = true) (hc : s.hdmCxl = true) (hb : s.bit Reg.biasCtl 1 = false) :
    exec .biasApply s =
      .next (if s.running then { s with host := { s.host with applyWaits := true } } else s.startFlips) := by
  have hrun : exec .biasApply s = .next (applyBiasApply s) := rfl
  rw [hrun, applyBiasApply, if_neg (by simp [hw, hc, hb])]

/-- SHARED and ALL stand apart from BUSY. -/
theorem showBias_busy (s : State) : s.showBias.bit Reg.biasCtl 1 = s.bit Reg.biasCtl 1 := by
  unfold State.showBias
  dsimp only
  rw [bit_setBit_ne _ _ (by decide) (by decide) (by decide)]
  unfold State.bit
  rw [fld_setFld_apart _ _ (by decide) (by decide) (by decide) (by decide)]

/-- The page whose flip has completed leaves the flips, and the last one ends BUSY. -/
theorem biasFlip_completes {s : State} {page : Nat} {b : Bool} {rest : List (Nat × Bool)} (h : s.host.flips = (page, b) :: rest) :
    (applyBiasFlipComplete page s).host.flips = rest ∧
      (rest = [] → (applyBiasFlipComplete page s).bit Reg.biasCtl 1 = false) := by
  unfold applyBiasFlipComplete
  simp only [h, if_true]
  generalize (if (s.flipValue page b).1 = true then (s.flipValue page b).2.cleanPage page else (s.flipValue page b).2) = u
  constructor
  · cases hr : rest.isEmpty <;> rfl
  · rintro rfl
    rw [showBias_busy]
    exact bit_setBit_self _ _ (by decide)

/-! ### O12 -/

/-- Settles O12: accesses by what a store and a fetch do for hosts and peers; APPLY and the completion of a flip. -/
theorem busAccessesReadAndStore : Obligations.BusAccessesReadAndStore := by
  unfold Obligations.BusAccessesReadAndStore
  refine ⟨fun p off data ps s hs hn => ⟨fun src hend hh hp hg => ?_, fun base size hr hc hend hh hp hg => ?_⟩,
    fun p src off len s hs hend => ⟨fun ps hp => ?_, fun hp => ?_, fun data hlen => ?_⟩, fun s hw hc hb => ?_,
    fun page b rest s h => ⟨_, rfl, biasFlip_completes h⟩⟩
  · exact ⟨_, exec_bar2Access src hend, busAccess_stores p (busAgent_isBus src p) hs hn hh hp hg⟩
  · exact ⟨_, exec_cxlMemAccess hr hc hend, busAccess_stores p rfl hs hn hh hp hg⟩
  · exact ⟨_, exec_bar2Access src hend, busAccess_reads p hs hp⟩
  · exact ⟨_, _, exec_bar2Access src hend, busAccess_unmapped p (busAgent_isBus src p) hs hp, logEntry_logged s _ (Nat.succ_pos 7)⟩
  · refine ⟨_, exec_bar2Access src (by rw [← hlen] at hend; exact hend), ?_⟩
    rw [busAccess_poisoned hs]
    exact logEntry_logged s _ (Nat.succ_pos 7)
  · refine ⟨_, exec_biasApply hw hc hb, ?_⟩
    obtain ⟨hwaits, hbias, hbusy⟩ := startFlips_shows s
    cases hrun : s.running
    · exact ⟨hwaits, hbias, startFlips_kept s, fun _ => hbusy⟩
    · exact ⟨rfl, rfl, fun l => by cases l <;> rfl, fun h => nomatch h⟩

end Sys2Proof.Laws

/-! # What stores and reads leave of the memory tiers, the units and the ports -/

namespace Sys2Proof.Laws

open Sys2Proof Sys2Proof.Machine

/-! ### The state beside memory that a store leaves (R320, R334) -/

/-- What decides homes, host ports and slots is the same, as are the copies, holds and writes that wait; a move can only have become
STALE. -/
structure StoreKeeps (s t : State) : Prop where
  slots : t.slotA = s.slotA ∧ t.slotB = s.slotB
  takeover : t.casc.takeover = s.casc.takeover
  host : t.host = s.host
  units : t.units = s.units
  devState : t.reg Reg.devState = s.reg Reg.devState
  homes : t.tier.homes = s.tier.homes
  holds : t.tier.holds = s.tier.holds
  waits : t.tier.waits = s.tier.waits
  wins : t.tier.wins = s.tier.wins
  moves : ∀ y ∈ s.tier.moves, ∃ b, { y with stale := b } ∈ t.tier.moves

theorem storeKeeps_refl (s : State) : StoreKeeps s s :=
  ⟨⟨rfl, rfl⟩, rfl, rfl, rfl, rfl, rfl, rfl, rfl, rfl, fun y hy => ⟨y.stale, hy⟩⟩

/-- Memory, the lines of the remote caches, the repair list and the counts of mirror frames are no part of it. -/
theorem storeKeeps_beside (s : State) (a b c : Mem) (r : List RdcLine) (l : List ListedCw) (n : Store Nat) :
    StoreKeeps s { s with
      dram := a, comb := b, sram := c, tier := { s.tier with rdc := r, listed := l }, casc := { s.casc with mirrorTx := n } } :=
  ⟨⟨rfl, rfl⟩, rfl, rfl, rfl, rfl, rfl, rfl, rfl, rfl, fun y hy => ⟨y.stale, hy⟩⟩

theorem StoreKeeps.trans {s t u : State} (h : StoreKeeps s t) (g : StoreKeeps t u) : StoreKeeps s u where
  slots := ⟨g.slots.1.trans h.slots.1, g.slots.2.trans h.slots.2⟩
  takeover := g.takeover.trans h.takeover
  host := g.host.trans h.host
  units := g.units.trans h.units
  devState := g.devState.trans h.devState
  homes := g.homes.trans h.homes
  holds := g.holds.trans h.holds
  waits := g.waits.trans h.waits
  wins := g.wins.trans h.wins
  moves := fun y hy => by
    obtain ⟨b, hb⟩ := h.moves y hy
    obtain ⟨c, hc⟩ := g.moves _ hb
    exact ⟨c, hc⟩

theorem storeKeeps_ite {c : Prop} [Decidable c] {s a b : State} (ha : StoreKeeps s a) (hb : StoreKeeps s b) :
    StoreKeeps s (if c then a else b) := by
  split
  · exact ha
  · exact hb

theorem storeKeeps_foldl {α : Type} {f : State → α → State} (h : ∀ s x, StoreKeeps s (f s x)) (l : List α) (s : State) :
    StoreKeeps s (l.foldl f s) :=
  List.foldlRecOn l f (storeKeeps_refl s) fun t ht x _ => ht.trans (h t x)

theorem storeKeeps_of_readsAlike {s t : State} (h : ReadsAlike s t) : StoreKeeps s t := by
  obtain ⟨n, o, x, e, rfl⟩ := h
  exact ⟨⟨rfl, rfl⟩, rfl, rfl, rfl, rfl, rfl, rfl, rfl, rfl, fun y hy => ⟨y.stale, hy⟩⟩

theorem storeKeeps_of_sendsOnly {s t : State} (h : SendsOnly s t) : StoreKeeps s t := by
  have htier : t.tier = s.tier := h.keeps.parts .tier rfl
  obtain ⟨n, hn⟩ := h.casc
  refine ⟨Prod.mk.inj (h.keeps.parts .slots rfl), by rw [hn], h.keeps.parts .host rfl, h.keeps.parts .units rfl,
    h.reg _ (notCredit_low (by decide)), ?_, ?_, ?_, ?_, ?_⟩
  all_goals rw [htier]
  exact fun y hy => ⟨y.stale, hy⟩

theorem storeKeeps_poke (s : State) (l : Loc) (v : Byte) : StoreKeeps s (s.poke l v) := by
  cases l <;> exact storeKeeps_beside s _ _ _ _ _ _

theorem storeKeeps_rdcInvalidate (s : State) (dev : Nat) : StoreKeeps s (s.rdcInvalidate dev) := by
  unfold State.rdcInvalidate
  split
  · exact storeKeeps_refl s
  · exact storeKeeps_beside s _ _ _ _ _ _

theorem storeKeeps_markStale (s : State) (ag : Agent) (pl : Place) : StoreKeeps s (s.markStale ag pl) := by
  unfold State.markStale
  dsimp only
  refine storeKeeps_ite (storeKeeps_refl s) ?_
  cases s.tensorAt pl with
  | none => exact storeKeeps_refl s
  | some t =>
    refine ⟨⟨rfl, rfl⟩, rfl, rfl, rfl, rfl, rfl, rfl, rfl, rfl, fun y hy => ?_⟩
    by_cases hm : (decide (y.tensor = t.id) && !y.homing) = true
    · exact ⟨true, List.mem_map.mpr ⟨y, hy, if_pos hm⟩⟩
    · exact ⟨y.stale, List.mem_map.mpr ⟨y, hy, if_neg hm⟩⟩

theorem storeKeeps_writePlaces (s : State) (ag : Agent) (ps : List Place) (data : Bytes) : StoreKeeps s (s.writePlaces ag ps data) := by
  induction ps generalizing s data with
  | nil => exact storeKeeps_refl s
  | cons pl ps ih =>
    cases data with
    | nil => exact storeKeeps_refl s
    | cons b bs =>
      have hcache := storeKeeps_of_readsAlike (readsAlike_cacheAccess s ag pl true)
      have hdrop := hcache.trans (storeKeeps_rdcInvalidate _ pl.dev)
      exact ((hdrop.trans (storeKeeps_markStale _ ag pl)).trans (storeKeeps_poke _ pl.loc b)).trans (ih _ bs)

theorem storeKeeps_sendMirror (s : State) (lost : Bool) (beat kind shard object off stamp : Nat) (data : Bytes) :
    StoreKeeps s (s.sendMirror lost beat kind shard object off stamp data) := by
  unfold State.sendMirror
  dsimp only
  refine StoreKeeps.trans (t := mirrorCounted s beat)
    (storeKeeps_beside s _ _ _ _ _ _) (storeKeeps_of_sendsOnly ?_)
  cases htwin : (mirrorCounted s beat).twin with
  | none =>
    change SendsOnly _ ((mirrorCounted s beat).sendTwin _)
    unfold State.sendTwin
    rw [htwin]
    exact sendsOnly_refl _
  | some c =>
    change SendsOnly _ ((mirrorCounted s beat).sendTwin _)
    rw [sendTwin_pieces _ htwin]
    exact sendsOnly_foldl (sendsOnly_sendPiece c _ _) _ _

theorem storeKeeps_mirrorWrite (s : State) (beat : Nat) (ag : Agent) (ps : List Place) (data : Bytes) :
    StoreKeeps s (s.mirrorWrite beat ag ps data) := by
  unfold State.mirrorWrite
  dsimp only
  exact storeKeeps_ite (storeKeeps_refl s) (storeKeeps_foldl (fun t r => storeKeeps_sendMirror t _ _ _ _ _ _ _ _) _ s)

theorem storeKeeps_scanRun (s : State) (beat id off len : Nat) : StoreKeeps s (s.scanRun beat id off len) := by
  unfold State.scanRun
  split
  · split
    · exact storeKeeps_refl s
    · exact storeKeeps_ite (storeKeeps_refl s) (storeKeeps_of_readsAlike (readsAlike_upd s _))
  · exact storeKeeps_refl s

theorem storeKeeps_scanGrad (s : State) (beat : Nat) (ps : List Place) (data : Bytes) : StoreKeeps s (s.scanGrad beat ps data) := by
  unfold State.scanGrad
  split
  · exact storeKeeps_foldl (fun t r => storeKeeps_scanRun t _ _ _ _) _ s
  · exact storeKeeps_refl s

theorem storeKeeps_unlistWritten (s : State) (ps : List Place) : StoreKeeps s (s.unlistWritten ps) := by
  unfold State.unlistWritten
  split
  · exact storeKeeps_refl s
  · exact storeKeeps_beside s _ _ _ _ _ _

/-- A store that no rule drops. -/
theorem storeKeeps_storeIn {s : State} {ag : Agent} {a : Nat} {data : Bytes} {ps : List Place} (beat : Nat) (hh : s.needsHold a = none)
    (hp : s.placesOf ag true a data.length = some ps) (hg : s.guards ag ps = .ok) : StoreKeeps s (s.storeIn beat ag a data) := by
  rw [storeIn_stores beat hh hp hg]
  have hwritten := (storeKeeps_of_readsAlike (readsAlike_recall s ag ps)).trans (storeKeeps_writePlaces _ ag ps data)
  have hscanned := (hwritten.trans (storeKeeps_mirrorWrite _ beat ag ps data)).trans (storeKeeps_scanGrad _ beat ps data)
  exact hscanned.trans (storeKeeps_unlistWritten _ ps)

/-! ### What it decides -/

section
variable {s t : State} (h : StoreKeeps s t)
include h

theorem StoreKeeps.plan : t.plan = s.plan := by
  obtain ⟨ha, hb⟩ := h.slots
  have hslot : ∀ f, t.slot f = s.slot f := fun f => by cases f <;> assumption
  have hfing : t.fing = s.fing := by
    simp only [State.fing, State.runSlot, ha, hb, hslot]
  simp only [State.plan, hfing, h.takeover]

theorem StoreKeeps.tierCfg : t.tierCfg = s.tierCfg := by
  unfold State.tierCfg
  rw [h.plan]

theorem StoreKeeps.homeOf (T : Tensor) : t.homeOf T = s.homeOf T := by
  unfold State.homeOf
  rw [h.holds, h.homes, h.tierCfg]

theorem StoreKeeps.portUp (p : HPort) : t.portUp p = s.portUp p := by
  have hport : t.hport p = s.hport p := by cases p <;> simp only [State.hport, h.host]
  unfold State.portUp
  rw [hport, fld_of_reg h.devState]

theorem StoreKeeps.unit (u : UnitId) : t.unit u = s.unit u := unit_congr h.units u

end

/-! ### Reads that come before a store -/

theorem readsAlike_fetch {s : State} {ag : Agent} {a n : Nat} {ps : List Place} (h : s.placesOf ag false a n = some ps) :
    ReadsAlike s (s.fetch ag a n).2 := by
  rw [fetch_mapped h]
  exact readsAlike_trans (readsAlike_recall s ag ps) (readsAlike_foldl (fun t pl => readsAlike_cacheAccess t ag pl false) _ _)

theorem guards_of_readsAlike {s t : State} (h : ReadsAlike s t) (ag : Agent) (ps : List Place) : t.guards ag ps = s.guards ag ps := by
  induction ps with
  | nil => rfl
  | cons pl ps ih =>
    have hguard : t.guard ag pl = s.guard ag pl := by
      obtain ⟨_, _, _, _, rfl⟩ := h
      rfl
    simp only [State.guards, hguard, ih]

theorem needsHold_of_readsAlike {s t : State} (h : ReadsAlike s t) (a : Nat) : t.needsHold a = s.needsHold a := by
  obtain ⟨_, _, _, _, rfl⟩ := h
  rfl

theorem peek_of_readsAlike {s t : State} (h : ReadsAlike s t) : memoryKept s t := by
  obtain ⟨_, _, _, _, rfl⟩ := h
  exact fun l => by cases l <;> rfl

/-- Bytes that are read at some places and then stored at others. -/
theorem store_copies {s t : State} {ag : Agent} {a b n : Nat} {rd : Agent} {ps qs : List Place} (hr : ReadsAlike s t)
    (hp : s.placesOf rd false a n = some ps) (hh : s.needsHold b = none) (hq : s.placesOf ag true b n = some qs)
    (hg : s.guards ag qs = .ok) (hn : (qs.map fun pl => cellOf pl.loc).Nodup) (hc : ∀ pl ∈ qs, (cellOf pl.loc).1 ≠ 3) :
    StoreKeeps t (t.store ag b (ps.map fun pl => s.peek pl.loc)) ∧
      memoryKeptBut (qs.map (·.loc)) s (t.store ag b (ps.map fun pl => s.peek pl.loc)) ∧
      ∀ (i : Nat) (hi : i < ps.length) (hj : i < qs.length),
        (t.store ag b (ps.map fun pl => s.peek pl.loc)).peek qs[i].loc = s.peek ps[i].loc := by
  generalize hd : (ps.map fun pl => s.peek pl.loc) = data
  have hlen : data.length = n := by rw [← hd, List.length_map, placesOf_length hp]
  rw [← needsHold_of_readsAlike hr] at hh
  rw [← hlen, ← placesOf_of_readsAlike hr] at hq
  rw [← guards_of_readsAlike hr] at hg
  obtain ⟨hkept, hbytes⟩ := store_peek hh hq hg hc hn
  refine ⟨storeKeeps_storeIn _ hh hq hg, fun l hl => (hkept l hl).trans (peek_of_readsAlike hr l), fun i hi hj => ?_⟩
  rw [hbytes i hj, ← hd]
  simp [hi]

end Sys2Proof.Laws

/-! # Movers: parts of moves, window fills, and O44 -/

namespace Sys2Proof.Laws

open Sys2Proof Sys2Proof.Machine

/-! ### Slots that end -/

theorem endRunOf_frame (s : State) (u : UnitId) (r : RunSlot) : ∃ us, s.endRunOf u r = { s with units := us } := by
  unfold State.endRunOf State.setRun
  split
  · exact ⟨_, rfl⟩
  · exact ⟨s.units, rfl⟩

theorem tier_endRunOf (s : State) (u : UnitId) (r : RunSlot) : (s.endRunOf u r).tier = s.tier := by
  obtain ⟨us, h⟩ := endRunOf_frame s u r
  rw [h]

theorem reg_endRunOf (s : State) (u : UnitId) (r : RunSlot) (o : Nat) : (s.endRunOf u r).reg o = s.reg o := by
  obtain ⟨us, h⟩ := endRunOf_frame s u r
  rw [h]
  exact reg_congr rfl o

theorem runOf_endRunOf (s : State) (u : UnitId) (r : RunSlot) : (s.endRunOf u r).runOf u = none := by
  unfold State.endRunOf State.setRun
  split
  · exact runOf_ended (r := r) (congrArg UnitSt.run (unit_setUnit_same s _ rfl))
  · next h =>
    have hnone : (s.unit u).run = none := by simpa using h
    simp only [State.runOf, hnone]

theorem memoryKept_endRunOf (s : State) (u : UnitId) (r : RunSlot) : memoryKept s (s.endRunOf u r) :=
  memoryKept_of_keeps (keeps_endRunOf s u r (keeps_refl s) (covers_allBut rfl))

theorem runOf_congr {s t : State} (h : t.units = s.units) (u : UnitId) : t.runOf u = s.runOf u := by
  unfold State.runOf
  rw [unit_congr h]

/-! ### Events of a mover -/

theorem memoryKept_raise (s : State) (e : Ev) : memoryKept s (s.raise e) :=
  memoryKept_of_keeps (keeps_raise s e (keeps_refl s) (covers_allBut rfl))

/-- An event of class FT leaves the device FAILED, whatever its state was. -/
theorem raise_fails (s : State) {e : Ev} (h : e.cls = 4) : (s.raise e).devState = 7 := by
  by_cases h7 : s.devState = 7
  · have hlogged : (s.logEntry e).devState = 7 := (logEntry_devState s e).trans h7
    rw [raise_fatal s h, State.fail, if_pos hlogged]
    exact hlogged
  · obtain ⟨hfailed, -⟩ := raise_failed h h7
    exact hfailed

/-- An event of class RP is entered in the log and marks its window. -/
theorem raise_rp_entry (s : State) {e : Ev} (h : e.cls = 1) :
    (s.raise e).reg (Reg.errLog ((s.reg Reg.errLogHead).toNat % 256) 0) = BitVec.ofNat 32 (e.code % 65536 + 65536) := by
  have hi : (s.reg Reg.errLogHead).toNat % 256 < 256 := Nat.mod_lt _ (by decide)
  rw [raise_rp s h, reg_congr (markFault_regs _ e), logEntry_ring s e hi (by decide), if_pos rfl, if_pos rfl, h]

theorem raise_rp_tier (s : State) {e : Ev} (h : e.cls = 1) : (s.raise e).tier = s.tier := by
  rw [raise_rp s h]
  exact (keeps_markFault (P := allBut .tier) _ e (keeps_logEntry s e (keeps_refl s) (covers_allBut rfl)) (covers_allBut rfl)).parts .tier
    (by decide)

/-- An access that fails is logged as 0x6013 and ends its op; no move and no byte changes (R346). -/
theorem accessFailed_ends (s : State) (u : UnitId) (r : RunSlot) (m : Nat) :
    ((s.raise (moverEv r m 0x6013 1)).endRunOf u r).runOf u = none ∧
      memoryKept s ((s.raise (moverEv r m 0x6013 1)).endRunOf u r) ∧
      ((s.raise (moverEv r m 0x6013 1)).endRunOf u r).tier = s.tier ∧
      ((s.raise (moverEv r m 0x6013 1)).endRunOf u r).reg (Reg.errLog ((s.reg Reg.errLogHead).toNat % 256) 0) =
        BitVec.ofNat 32 (0x6013 + 65536) := by
  refine ⟨runOf_endRunOf _ u r, memoryKept_trans (memoryKept_raise s _) (memoryKept_endRunOf _ u r), ?_, ?_⟩
  · rw [tier_endRunOf, raise_rp_tier s rfl]
  · rw [reg_endRunOf, raise_rp_entry s rfl]
    rfl

/-! ### The start of a move (R331) -/

theorem tensor_id {s : State} {id : Nat} {T : Tensor} (h : s.tensor id = some T) : T.id = id := by
  unfold State.tensor at h
  split at h
  · simpa using List.find?_some h
  · cases h

/-- A move that begins is listed, and beside it only MOVE_STATUS changes. -/
theorem beginMove_frame (s : State) (o : MoverOp) (T : Tensor) (beat : Nat) :
    ∃ rs ms, s.beginMove o T beat = { s with regs := rs, tier := { s.tier with moves := ms } } ∧
      ∃ y ∈ ms, y.tensor = T.id ∧ y.homing = false := by
  unfold State.beginMove
  split
  · next h =>
    obtain ⟨y, hy, hm⟩ := List.any_eq_true.mp h
    exact ⟨s.regs, s.tier.moves, rfl, y, hy, by simpa using hm⟩
  · exact ⟨_, _, rfl, _, List.mem_append_right _ (List.mem_singleton_self _), rfl, rfl⟩

section
variable (s : State) (o : MoverOp) (T : Tensor) (beat : Nat)

theorem homeOf_beginMove (U : Tensor) : (s.beginMove o T beat).homeOf U = s.homeOf U := by
  obtain ⟨rs, ms, h, -⟩ := beginMove_frame s o T beat
  rw [h]
  rfl

theorem units_beginMove : (s.beginMove o T beat).units = s.units := by
  obtain ⟨rs, ms, h, -⟩ := beginMove_frame s o T beat
  rw [h]

theorem memoryKept_beginMove : memoryKept s (s.beginMove o T beat) := by
  obtain ⟨rs, ms, h, -⟩ := beginMove_frame s o T beat
  rw [h]
  exact fun l => by cases l <;> rfl

theorem mem_moves_beginMove : ∃ y ∈ (s.beginMove o T beat).tier.moves, y.tensor = T.id ∧ y.homing = false := by
  obtain ⟨rs, ms, h, hy⟩ := beginMove_frame s o T beat
  rw [h]
  exact hy

end

/-- The part is out of sequence, or its move's target overlaps what no target may (R331, R335). -/
def partAmiss (s : State) (o : MoverOp) (T : Tensor) : Prop :=
  let open_ := s.tier.moves.filter MoveSt.inProgress
  (open_.find? (fun y => y.tensor == T.id) = none ∧ o.offset ≠ 0) ∨
    (∃ y, open_.find? (fun y => y.tensor == T.id) = some y ∧ (y.homing = true ∨ y.target ≠ o.target ∨ y.progress ≠ o.offset)) ∨
    (∃ x ∈ s.heldRanges, overlap (o.target, T.size) x = true) ∨
    (∃ y ∈ open_, y.tensor ≠ T.id ∧ overlap (o.target, T.size) (y.target, y.length) = true)

theorem moveConflict_iff (s : State) (o : MoverOp) (T : Tensor) : s.moveConflict o T = true ↔ partAmiss s o T := by
  unfold State.moveConflict partAmiss
  dsimp only
  generalize s.tier.moves.filter MoveSt.inProgress = ms
  cases hf : ms.find? fun y => y.tensor == T.id with
  | none => simp [or_assoc]
  | some y => cases hy : y.homing <;> simp [hy, or_assoc]

/-! ### MOVE by the progress of its part -/

theorem exec_move (m : Nat) (d : Option Bytes) (s : State) : exec (.move m d) s = .next (applyMove m d s) := rfl

section
variable {m : Nat} {r : RunSlot} {o : MoverOp} {T : Tensor} {s : State}
  (hr : s.runOf { cls := 3, idx := m } = some r) (ho : s.moverOp 1 r = some o) (hT : s.tensor o.tensor = some T)
include hr ho hT

/-- The part of a tensor without a home is a program fault (R320, R348). -/
theorem applyMove_homeless (d : Option Bytes) (h2 : r.prog ≠ 2) (hh : s.homeOf T = none) :
    applyMove m d s = s.raise (moverEv r m 0x600D 4) := by
  unfold applyMove
  simp only [hr, ho, hT, if_neg h2, hh, Option.isNone_none, if_true]

/-- A part that is amiss is a program fault, of a tensor without a home or of the move (R335). -/
theorem applyMove_amiss (d : Option Bytes) (h0 : r.prog = 0) (ha : partAmiss s o T) :
    ∃ code, applyMove m d s = s.raise (moverEv r m code 4) := by
  cases hh : s.homeOf T with
  | none => exact ⟨_, applyMove_homeless hr ho hT d (by omega) hh⟩
  | some h =>
    have hc := (moveConflict_iff s o T).mpr ha
    refine ⟨0x6011, ?_⟩
    unfold applyMove
    simp [hr, ho, hT, h0, hh, hc]

/-- A part whose writes are on their way waits for its flushing read. -/
theorem applyMove_waits (h2 : r.prog = 2) : applyMove m none s = s := by
  unfold applyMove
  simp only [hr, ho, hT, h2, if_true]

/-- The flushing read returns no data: the part has ended. -/
theorem applyMove_returns (h2 : r.prog = 2) : applyMove m (some []) s = (s.dropAsks m).movePart { cls := 3, idx := m } r o := by
  unfold applyMove
  simp only [hr, ho, hT, h2, if_true, List.isEmpty_nil]

/-- A flushing read that fails. -/
theorem applyMove_returnFails (h2 : r.prog = 2) {d : Bytes} (hd : d ≠ []) :
    applyMove m (some d) s = ((s.dropAsks m).raise (moverEv r m 0x6013 1)).endRunOf { cls := 3, idx := m } r := by
  unfold applyMove
  simp [hr, ho, hT, h2, hd]

/-- A part from a pile or comb reads its bytes and writes them. -/
theorem applyMove_part {h : Nat} (h0 : r.prog = 0) (ha : ¬partAmiss s o T) (hh : s.homeOf T = some h)
    (hs : isSuper (h + o.offset) = false) :
    applyMove m none s = ((s.beginMove o T r.beat).fetch (.mover m (some T.id) false) (h + o.offset) o.length).2.moveWrite { cls := 3, idx := m }
      r m o ((s.beginMove o T r.beat).fetch (.mover m (some T.id) false) (h + o.offset) o.length).1 := by
  have hc : s.moveConflict o T = false := by
    rw [← Bool.not_eq_true, moveConflict_iff]
    exact ha
  unfold applyMove
  simp [hr, ho, hT, h0, hh, hc, homeOf_beginMove, State.moverRead, hs]

end

/-! ### A part that has ended (R331) -/

/-- A move's record once a part of it has ended in a window. -/
def advanceMove (o : MoverOp) (beat : Nat) (m : MoveSt) : MoveSt :=
  if m.tensor = o.tensor ∧ !m.homing then
    { m with progress := o.offset + o.length
             hist := (m.hist.filter fun (x : Nat × Nat) => !(x.1 == beat)) ++ [(beat, o.offset + o.length)] }
  else m

theorem advanceMove_same (o : MoverOp) (beat : Nat) (m : MoveSt) :
    (advanceMove o beat m).tensor = m.tensor ∧ (advanceMove o beat m).homing = m.homing := by
  unfold advanceMove
  split <;> exact ⟨rfl, rfl⟩

theorem advanceMove_progress {o : MoverOp} (beat : Nat) {m : MoveSt} (ht : m.tensor = o.tensor) (hh : m.homing = false) :
    (advanceMove o beat m).progress = o.offset + o.length := by
  unfold advanceMove
  rw [if_pos ⟨ht, by rw [hh]; rfl⟩]

theorem movePart_moves (s : State) (u : UnitId) (r : RunSlot) (o : MoverOp) :
    (s.movePart u r o).tier.moves = s.tier.moves.map (advanceMove o r.beat) := by
  unfold State.movePart
  rw [tier_endRunOf]
  rfl

theorem movePart_ends (s : State) (u : UnitId) (r : RunSlot) (o : MoverOp) :
    (s.movePart u r o).runOf u = none ∧ memoryKept s (s.movePart u r o) :=
  ⟨runOf_endRunOf _ u r, memoryKept_of_keeps (keeps_movePart s u r o (keeps_refl s) (covers_allBut rfl))⟩

/-- The planned move of the tensor has come as far as the part. -/
theorem movePart_progress {s : State} {u : UnitId} {r : RunSlot} {o : MoverOp} :
    ∀ y ∈ (s.movePart u r o).tier.moves, y.tensor = o.tensor → y.homing = false → y.progress = o.offset + o.length := by
  intro y hy ht hh
  rw [movePart_moves] at hy
  obtain ⟨x, -, rfl⟩ := List.mem_map.mp hy
  obtain ⟨htensor, hhoming⟩ := advanceMove_same o r.beat x
  exact advanceMove_progress r.beat (htensor.symm.trans ht) (hhoming.symm.trans hh)

theorem mem_moves_movePart {s : State} (u : UnitId) (r : RunSlot) {o : MoverOp} {y : MoveSt} (hy : y ∈ s.tier.moves)
    (ht : y.tensor = o.tensor) (hh : y.homing = false) :
    ∃ z ∈ (s.movePart u r o).tier.moves, z.tensor = o.tensor ∧ z.progress = o.offset + o.length := by
  refine ⟨advanceMove o r.beat y, ?_, (advanceMove_same o r.beat y).1.trans ht, advanceMove_progress r.beat ht hh⟩
  rw [movePart_moves]
  exact List.mem_map_of_mem hy

/-- The end of a part changes MOVE_STATUS, the moves and the unit. -/
theorem movePart_onlyRegs (s : State) (u : UnitId) (r : RunSlot) (o : MoverOp) (m : Nat) :
    onlyRegs [Reg.moveStatus] s { (s.dropAsks m).movePart u r o with tier := s.tier, units := s.units, host := s.host } := by
  unfold State.movePart
  dsimp only
  generalize hx : State.showMoves _ = x
  obtain ⟨us, hus⟩ := endRunOf_frame x u r
  rw [hus, ← hx]
  exact onlyRegs_setFld s _ _ _ (List.mem_singleton_self _)

/-- A part to a pile or comb. -/
theorem moveWrite_near {s : State} {o : MoverOp} (u : UnitId) (r : RunSlot) (m : Nat) (data : Bytes) (h : isSuper (o.target + o.offset) = false) :
    s.moveWrite u r m o data = (s.store (.mover m (some o.tensor) false) (o.target + o.offset) data).movePart u r o := by
  unfold State.moveWrite
  simp only [h, Bool.false_eq_true, if_false]

/-! ### Parts to the super tier (R336, R344) -/

/-- A part to the super tier all of whose entries have a port up. -/
theorem moveWrite_far {s : State} {o : MoverOp} (u : UnitId) (r : RunSlot) (m : Nat) (data : Bytes) (h : isSuper (o.target + o.offset) = true)
    (hup : ∀ x ∈ s.superParts (o.target + o.offset) o.length, x.1 ≠ none) :
    s.moveWrite u r m o data = (s.superPut m (o.target + o.offset) data).setRun u { r with prog := 2 } := by
  have hdown : s.superDown (o.target + o.offset) o.length = false := by
    rw [State.superDown, List.any_eq_false]
    exact fun x hx hn => hup x hx (Option.isNone_iff_eq_none.mp hn)
  unfold State.moveWrite
  simp only [h, hdown, Bool.false_eq_true, if_false, if_true]

/-- Post the next bytes of a part, on the port of an entry. -/
def postPart (x : State × Bytes) (y : Option HPort × Nat × Nat) : State × Bytes :=
  match y.1 with
  | some p => (x.1.emit (.hostWrite p y.2.1 (x.2.take y.2.2)), x.2.drop y.2.2)
  | none => x

theorem onlySends_postPart (x : State × Bytes) (y : Option HPort × Nat × Nat) : OnlySends x.1 (postPart x y).1 := by
  unfold postPart
  cases y.1 with
  | none => exact onlySends_refl _
  | some p => exact onlySends_emit _ _

theorem onlySends_postParts (l : List (Option HPort × Nat × Nat)) (x : State × Bytes) : OnlySends x.1 (l.foldl postPart x).1 :=
  List.foldlRecOn l postPart (motive := fun z => OnlySends x.1 z.1) (onlySends_refl _) fun z hz y _ => onlySends_trans hz (onlySends_postPart z y)

/-- Each entry's part is posted at its host address. -/
theorem postParts_posted {l : List (Option HPort × Nat × Nat)} {p : HPort} {ha n : Nat} (h : (some p, ha, n) ∈ l) (x : State × Bytes) :
    ∃ b, Out.hostWrite p ha b ∈ (l.foldl postPart x).1.out := by
  induction l generalizing x with
  | nil => cases h
  | cons y l ih =>
    obtain rfl | h := List.mem_cons.mp h
    · exact ⟨_, mem_out_of_onlySends (onlySends_postParts l _) (List.mem_append_right _ (List.mem_singleton_self _))⟩
    · exact ih h _

/-- The host address of the last write that a port carries. -/
def lastPost (ps : List (Option HPort × Nat × Nat)) (p : HPort) : Option Nat :=
  ((ps.filter fun y => y.1 == some p).getLast?).map fun y => y.2.1

theorem lastPost_of_mem {ps : List (Option HPort × Nat × Nat)} {p : HPort} {ha n : Nat} (h : (some p, ha, n) ∈ ps) :
    ∃ hl, lastPost ps p = some hl := by
  have hmem : (some p, ha, n) ∈ ps.filter fun y => y.1 == some p := List.mem_filter.mpr ⟨h, beq_self_eq_true _⟩
  unfold lastPost
  rw [List.getLast?_eq_some_getLast (List.ne_nil_of_mem hmem)]
  exact ⟨_, rfl⟩

/-- Flush a port that has carried writes. -/
def flushPort (ps : List (Option HPort × Nat × Nat)) (s : State) (p : HPort) : State :=
  match lastPost ps p with
  | some h => s.emit (.hostRead p h 0 none)
  | none => s

theorem onlySends_flushPort (ps : List (Option HPort × Nat × Nat)) (s : State) (p : HPort) : OnlySends s (flushPort ps s p) := by
  unfold flushPort
  split
  · exact onlySends_emit _ _
  · exact onlySends_refl _

theorem flushPort_flushes {ps : List (Option HPort × Nat × Nat)} {p : HPort} {h : Nat} (hl : lastPost ps p = some h) (s : State) :
    Out.hostRead p h 0 none ∈ (flushPort ps s p).out := by
  unfold flushPort
  rw [hl]
  exact List.mem_append_right _ (List.mem_singleton_self _)

theorem flushPorts_flush {ps : List (Option HPort × Nat × Nat)} {p : HPort} {h : Nat} (hl : lastPost ps p = some h) (s : State) :
    Out.hostRead p h 0 none ∈ (flushPort ps (flushPort ps s .a) .b).out := by
  cases p with
  | a => exact mem_out_of_onlySends (onlySends_flushPort ps _ .b) (flushPort_flushes hl s)
  | b => exact flushPort_flushes hl _

theorem superPut_eq (s : State) (m a : Nat) (data : Bytes) :
    s.superPut m a data = flushPort (s.superParts a data.length) (flushPort (s.superParts a data.length)
      (((s.superParts a data.length).foldl postPart (s, data)).1.askOn m
        ([HPort.a, HPort.b].filter fun p => (lastPost (s.superParts a data.length) p).isSome)) .a) .b := rfl

/-- Each entry's part is posted, and each port that carries one is flushed. -/
theorem superPut_posts {s : State} (m : Nat) {a : Nat} {data : Bytes} {p : HPort} {ha n : Nat}
    (h : (some p, ha, n) ∈ s.superParts a data.length) :
    (∃ b, Out.hostWrite p ha b ∈ (s.superPut m a data).out) ∧ ∃ hl, Out.hostRead p hl 0 none ∈ (s.superPut m a data).out := by
  rw [superPut_eq]
  obtain ⟨b, hb⟩ := postParts_posted h (s, data)
  obtain ⟨hl, hlast⟩ := lastPost_of_mem h
  exact ⟨⟨b, mem_out_of_onlySends (onlySends_trans (onlySends_flushPort _ _ .a) (onlySends_flushPort _ _ .b)) hb⟩, hl, flushPorts_flush hlast _⟩

theorem units_superPut (s : State) (m a : Nat) (data : Bytes) : (s.superPut m a data).units = s.units :=
  (keeps_superPut (P := allBut .units) s m a data (keeps_refl s) (covers_allBut rfl)).parts .units (by decide)

theorem memoryKept_superPut (s : State) (m a : Nat) (data : Bytes) : memoryKept s (s.superPut m a data) :=
  memoryKept_of_keeps (keeps_superPut s m a data (keeps_refl s) (covers_allBut rfl))

theorem superParts_of_readsAlike {s t : State} (h : ReadsAlike s t) (a n : Nat) : t.superParts a n = s.superParts a n := by
  obtain ⟨_, _, _, _, rfl⟩ := h
  rfl

/-! ### FETCH (R339 to R342) -/

theorem exec_fetch (m : Nat) (d : Option Bytes) (s : State) : exec (.fetch m d) s = .next (applyFetch m d s) := rfl

theorem windowLive_iff (s : State) (w b : Nat) : s.windowLive (w, b) = true ↔ ∃ y ∈ s.tier.wins, y.stream = w ∧ y.buffer = b := by
  simp [State.windowLive]

section
variable {m : Nat} {r : RunSlot} {o : MoverOp} {T : Tensor} {c : TierCfg} {w : WinStream} {s : State}
  (hr : s.runOf { cls := 3, idx := m } = some r) (ho : s.moverOp 2 r = some o) (hT : s.tensor o.tensor = some T)
  (hc : s.tierCfg = some c) (hw : c.streams[o.window]? = some w)
include hr ho hT hc hw

/-- A fill waits while the copy before it has not expired. -/
theorem applyFetch_waits (d : Option Bytes) (h : s.windowLive (o.window, o.target % (w.depth + 1)) = true) : applyFetch m d s = s := by
  unfold applyFetch
  simp only [hr, ho, hT, hc, hw, h, Option.bind_some, if_true]

/-- A fill from a pile or comb reads the layer's bytes, writes them to its buffer, notes the copy and ends. -/
theorem applyFetch_fills {h : Nat} (hl : s.windowLive (o.window, o.target % (w.depth + 1)) = false) (hh : s.homeOf T = some h)
    (hs : isSuper (h + o.offset) = false) :
    applyFetch m none s = ((((s.fetch (.mover m none true) (h + o.offset) o.length).2.store (.mover m none true)
      (w.bufBase + o.target % (w.depth + 1) * w.bufSize) (s.fetch (.mover m none true) (h + o.offset) o.length).1).addCopy o.window
        (o.target % (w.depth + 1)) o.target (expiry o.expClass o.expCore o.expSlot r.beat) r.beat).endRunOf { cls := 3, idx := m } r) := by
  unfold applyFetch
  simp [hr, ho, hT, hc, hw, hl, hh, State.moverRead, hs]

end

end Sys2Proof.Laws

/-! # O44 -/

namespace Sys2Proof.Laws

open Sys2Proof Sys2Proof.Machine

/-! ### Parts and fills, whole -/

section
variable {m : Nat} {r : RunSlot} {o : MoverOp} {T : Tensor} {s : State} {h : Nat} {ps : List Place}
  (hr : s.runOf { cls := 3, idx := m } = some r) (ho : s.moverOp 1 r = some o) (hT : s.tensor o.tensor = some T) (h0 : r.prog = 0)
  (ha : ¬partAmiss s o T) (hh : s.homeOf T = some h) (hs : isSuper (h + o.offset) = false)
  (hp : (s.beginMove o T r.beat).placesOf (.mover m (some T.id) false) false (h + o.offset) o.length = some ps)
include hr ho hT h0 ha hh hs hp

/-- A part to a pile or comb copies its bytes, moves the progress on and ends (R331). -/
theorem move_copies (hn : isSuper (o.target + o.offset) = false) (hold : (s.beginMove o T r.beat).needsHold (o.target + o.offset) = none)
    {qs : List Place} (hq : (s.beginMove o T r.beat).placesOf (.mover m (some T.id) false) true (o.target + o.offset) o.length = some qs)
    (hg : (s.beginMove o T r.beat).guards (.mover m (some T.id) false) qs = .ok) (hd : (qs.map fun pl => cellOf pl.loc).Nodup)
    (hc : ∀ pl ∈ qs, (cellOf pl.loc).1 ≠ 3) :
    (applyMove m none s).runOf { cls := 3, idx := m } = none ∧ memoryKeptBut (qs.map (·.loc)) s (applyMove m none s) ∧
      (∀ (i : Nat) (hi : i < ps.length) (hj : i < qs.length), (applyMove m none s).peek qs[i].loc = s.peek ps[i].loc) ∧
      ∃ y ∈ (applyMove m none s).tier.moves, y.tensor = T.id ∧ y.progress = o.offset + o.length := by
  rw [applyMove_part hr ho hT h0 ha hh hs, moveWrite_near _ _ _ _ hn, tensor_id hT]
  rw [tensor_id hT] at hp hq hg
  have hbegin := memoryKept_beginMove s o T r.beat
  obtain ⟨y, hy, hyt, hyh⟩ := mem_moves_beginMove s o T r.beat
  rw [tensor_id hT] at hyt
  generalize s.beginMove o T r.beat = a at *
  have hreads := readsAlike_fetch hp
  rw [fetch_mapped hp] at hreads ⊢
  obtain ⟨hkeeps, hother, hcopied⟩ := store_copies hreads hp hold hq hg hd hc
  obtain ⟨b, hb⟩ := ((storeKeeps_of_readsAlike hreads).trans hkeeps).moves y hy
  generalize State.store _ _ _ _ = v at hother hcopied hb ⊢
  obtain ⟨hended, hmem⟩ := movePart_ends v { cls := 3, idx := m } r o
  refine ⟨hended, fun l hl => ((hmem l).trans (hother l hl)).trans (hbegin l), fun i hi hj => ?_, mem_moves_movePart _ r hb hyt hyh⟩
  exact ((hmem _).trans (hcopied i hi hj)).trans (hbegin _)

/-- A part to the super tier posts its writes, flushes the ports that carried them, and waits (R336). -/
theorem move_posts (hn : isSuper (o.target + o.offset) = true)
    (hup : ∀ x ∈ (s.beginMove o T r.beat).superParts (o.target + o.offset) o.length, x.1 ≠ none) :
    ((applyMove m none s).unit { cls := 3, idx := m }).run = some { r with prog := 2 } ∧ memoryKept s (applyMove m none s) ∧
      ∀ p ha n, (some p, ha, n) ∈ (s.beginMove o T r.beat).superParts (o.target + o.offset) o.length →
        (∃ b, Out.hostWrite p ha b ∈ (applyMove m none s).out) ∧ ∃ hl, Out.hostRead p hl 0 none ∈ (applyMove m none s).out := by
  have hbegin := memoryKept_beginMove s o T r.beat
  have hunits := units_beginMove s o T r.beat
  rw [applyMove_part hr ho hT h0 ha hh hs]
  generalize s.beginMove o T r.beat = a at *
  have hreads := readsAlike_fetch hp
  have hlen : (a.fetch (.mover m (some T.id) false) (h + o.offset) o.length).1.length = o.length := by
    rw [fetch_mapped hp, List.length_map, placesOf_length hp]
  generalize a.fetch (.mover m (some T.id) false) (h + o.offset) o.length = x at hreads hlen ⊢
  simp only [← superParts_of_readsAlike hreads] at hup ⊢
  have hrun : (x.2.superPut m (o.target + o.offset) x.1).runOf { cls := 3, idx := m } = some r := by
    rw [runOf_congr (units_superPut _ _ _ _), runOf_congr (storeKeeps_of_readsAlike hreads).units, runOf_congr hunits, hr]
  rw [moveWrite_far _ _ _ _ hn hup, setRun_of_runOf hrun]
  refine ⟨congrArg UnitSt.run (unit_setUnit_same _ _ rfl), ?_, fun p ha n hmem => ?_⟩
  · exact fun l => (memoryKept_superPut _ _ _ _ l).trans ((peek_of_readsAlike hreads l).trans (hbegin l))
  · rw [← hlen] at hmem
    exact superPut_posts m hmem

end

/-- A fill writes its bytes to its buffer and notes the copy (R339, R341). -/
theorem fetch_fills {m : Nat} {r : RunSlot} {o : MoverOp} {T : Tensor} {c : TierCfg} {w : WinStream} {s : State} {h : Nat} {ps qs : List Place}
    (hr : s.runOf { cls := 3, idx := m } = some r) (ho : s.moverOp 2 r = some o) (hT : s.tensor o.tensor = some T)
    (hc : s.tierCfg = some c) (hw : c.streams[o.window]? = some w) (hl : s.windowLive (o.window, o.target % (w.depth + 1)) = false)
    (hh : s.homeOf T = some h) (hs : isSuper (h + o.offset) = false)
    (hp : s.placesOf (.mover m none true) false (h + o.offset) o.length = some ps)
    (hold : s.needsHold (w.bufBase + o.target % (w.depth + 1) * w.bufSize) = none)
    (hq : s.placesOf (.mover m none true) true (w.bufBase + o.target % (w.depth + 1) * w.bufSize) o.length = some qs)
    (hg : s.guards (.mover m none true) qs = .ok) (hd : (qs.map fun pl => cellOf pl.loc).Nodup) (h3 : ∀ pl ∈ qs, (cellOf pl.loc).1 ≠ 3) :
    (applyFetch m none s).runOf { cls := 3, idx := m } = none ∧ memoryKeptBut (qs.map (·.loc)) s (applyFetch m none s) ∧
      (∀ (i : Nat) (hi : i < ps.length) (hj : i < qs.length), (applyFetch m none s).peek qs[i].loc = s.peek ps[i].loc) ∧
      (applyFetch m none s).tier.wins = s.tier.wins ++ [{
        stream := o.window, buffer := o.target % (w.depth + 1), layer := o.target, beat := r.beat,
        expires := expiry o.expClass o.expCore o.expSlot r.beat }] := by
  rw [applyFetch_fills hr ho hT hc hw hl hh hs]
  have hreads := readsAlike_fetch hp
  rw [fetch_mapped hp] at hreads ⊢
  obtain ⟨hkeeps, hother, hcopied⟩ := store_copies hreads hp hold hq hg hd h3
  have hwins := hkeeps.wins.trans (storeKeeps_of_readsAlike hreads).wins
  generalize State.store _ _ _ _ = v at hother hcopied hwins ⊢
  generalize hx : v.addCopy _ _ _ _ _ = x
  have hnoted : memoryKept v x := by
    rw [← hx]
    exact fun l => by cases l <;> rfl
  have hmem := memoryKept_trans hnoted (memoryKept_endRunOf x { cls := 3, idx := m } r)
  refine ⟨runOf_endRunOf _ _ _, fun l hl => (hmem l).trans (hother l hl), fun i hi hj => (hmem _).trans (hcopied i hi hj), ?_⟩
  rw [tier_endRunOf, ← hx, ← hwins]
  rfl

/-! ### O44 -/

/-- Settles O44: a mover's part by its progress, and a fill by whether its buffer is free. -/
theorem moversCopyAndFill : Obligations.MoversCopyAndFill := by
  unfold Obligations.MoversCopyAndFill
  constructor
  · rintro m _ r o T s _ rfl hr ho hT rfl open_ amiss
    refine ⟨fun h0 ha d => ?_, fun h2 hh d => ⟨_, exec_move m d s, ?_⟩, fun h2 => ⟨?_, ⟨_, exec_move m (some []) s, ?_⟩, fun d hd => ?_⟩,
      fun h ps h0 ha hh hs hp => ⟨fun hn hold qs hq hg hd hc => ?_, fun hn hup => ?_⟩⟩
    · obtain ⟨code, hcode⟩ := applyMove_amiss hr ho hT d h0 ha
      refine ⟨_, exec_move m d s, ?_⟩
      rw [hcode]
      exact ⟨raise_fails s rfl, memoryKept_raise s _⟩
    · rw [applyMove_homeless hr ho hT d h2 hh]
      exact raise_fails s rfl
    · rw [exec_move, applyMove_waits hr ho hT h2]
    · rw [applyMove_returns hr ho hT h2]
      obtain ⟨hended, hmem⟩ := movePart_ends (s.dropAsks m) { cls := 3, idx := m } r o
      exact ⟨hended, hmem, movePart_onlyRegs s _ r o m, movePart_progress⟩
    · refine ⟨_, exec_move m (some d) s, ?_⟩
      rw [applyMove_returnFails hr ho hT h2 hd]
      obtain ⟨hended, hmem, htier, hentry⟩ := accessFailed_ends (s.dropAsks m) { cls := 3, idx := m } r m
      exact ⟨hended, hmem, congrArg TierSt.moves htier, hentry⟩
    · exact ⟨_, exec_move m none s, move_copies hr ho hT h0 ha hh hs hp hn hold hq hg hd hc⟩
    · exact ⟨_, exec_move m none s, move_posts hr ho hT h0 ha hh hs hp hn hup⟩
  · rintro m _ r o T c w s rfl hr ho hT hc hw
    refine ⟨fun hl d => ?_, fun hl h ps qs hh hs hp hold hq hg hd h3 => ⟨_, exec_fetch m none s, ?_⟩⟩
    · rw [exec_fetch, applyFetch_waits hr ho hT hc hw d ((windowLive_iff s _ _).mpr hl)]
    · refine fetch_fills hr ho hT hc hw ?_ hh hs hp hold hq hg hd h3
      rw [← Bool.not_eq_true, windowLive_iff]
      exact fun ⟨y, hy, hstream, hbuffer⟩ => hl y hy hstream hbuffer

end Sys2Proof.Laws

/-! # Holds and homings -/

namespace Sys2Proof.Laws

open Sys2Proof Sys2Proof.Machine

/-! ### Requests to the super tier with both host ports up (R344, R346) -/

/-- From `s` to `t` records have been sent, and who waits for completions has changed; nothing else has happened. -/
def AsksOnly (s t : State) : Prop := ∃ as os, t = { s with host := { s.host with asks := as }, out := os }

theorem asksOnly_refl (s : State) : AsksOnly s s := ⟨s.host.asks, s.out, rfl⟩

theorem asksOnly_trans {s t u : State} (h : AsksOnly s t) (g : AsksOnly t u) : AsksOnly s u := by
  obtain ⟨_, _, rfl⟩ := h
  obtain ⟨as, os, rfl⟩ := g
  exact ⟨as, os, rfl⟩

theorem asksOnly_superAsk (s : State) (k a n : Nat) : AsksOnly s (s.superAsk k a n) := by
  unfold State.superAsk
  dsimp only
  obtain ⟨ms, hms⟩ := onlySends_foldl (f := fun (s : State) (x : Option HPort × Nat × Nat) => match x.1 with
    | some p => s.emit (.hostRead p x.2.1 x.2.2 none)
    | none => s) (fun t x => by
      cases x.1 with
      | none => exact onlySends_refl t
      | some p => exact onlySends_emit t _) (s.superParts a n) (s.askOn k ((s.superParts a n).filterMap (·.1)))
  exact ⟨_, _, hms⟩

/-- Both host ports are up. -/
def PortsUp (s : State) : Prop := ∀ p, s.portUp p = true

theorem portsUp_of {s : State} (ha : s.portUp .a = true) (hb : s.portUp .b = true) : PortsUp s := fun p => by cases p <;> assumption

theorem portsUp_congr {s t : State} (hh : t.host.portA = s.host.portA ∧ t.host.portB = s.host.portB)
    (hd : t.reg Reg.devState = s.reg Reg.devState) (h : PortsUp s) : PortsUp t := by
  obtain ⟨ha, hb⟩ := hh
  intro p
  have hport : t.hport p = s.hport p := by cases p <;> assumption
  unfold State.portUp
  rw [hport, fld_of_reg hd]
  exact h p

theorem portsUp_of_asksOnly {s t : State} (h : AsksOnly s t) (hu : PortsUp s) : PortsUp t := by
  obtain ⟨as, os, rfl⟩ := h
  exact portsUp_congr (s := s) ⟨rfl, rfl⟩ (reg_congr rfl _) hu

theorem superPort_of_portsUp {s : State} (h : PortsUp s) (e : SuperEntry) : (s.superPort e).isSome = true := by
  unfold State.superPort
  dsimp only
  split_ifs <;> simp [h .a, h .b]

theorem superDown_of_portsUp {s : State} (h : PortsUp s) (a n : Nat) : s.superDown a n = false := by
  rw [State.superDown, List.any_eq_false]
  intro x hx hn
  obtain ⟨e, -, he⟩ := List.mem_filterMap.mp hx
  dsimp only at he
  split at he
  · cases he
    have hnone : s.superPort e = none := Option.isNone_iff_eq_none.mp hn
    have hsome := superPort_of_portsUp h e
    rw [hnone] at hsome
    cases hsome
  · cases he

theorem asksOnly_askHoming {s : State} (h : PortsUp s) (half : Nat) : AsksOnly s (s.askHoming half) := by
  unfold State.askHoming
  split
  · exact asksOnly_refl s
  · split
    · exact asksOnly_refl s
    · rw [superDown_of_portsUp h, if_neg Bool.false_ne_true]
      exact asksOnly_superAsk s _ _ _

theorem asksOnly_askHomings {s : State} (h : PortsUp s) : AsksOnly s s.askHomings :=
  have hfirst := asksOnly_askHoming h 0
  asksOnly_trans hfirst (asksOnly_askHoming (portsUp_of_asksOnly hfirst h) 1)

/-! ### A hold is allocated (R348) -/

theorem devState_showMoves (s : State) : s.showMoves.reg Reg.devState = s.reg Reg.devState := (devKept_showMoves s).reg

theorem devState_showHolds (s : State) (pile : Nat) : (s.showHolds pile).reg Reg.devState = s.reg Reg.devState := by
  have h : Reg.holdStatus pile < 0x10 ∨ 0x14 ≤ Reg.holdStatus pile := .inr (by unfold Reg.holdStatus; omega)
  exact (devKept_trans (devKept_setFld s _ _ _ h) (devKept_setFld _ _ _ _ h)).reg

/-- With both ports up homings only join the moves, show in MOVE_STATUS and ask the host. -/
theorem startHoming_frame {s : State} (h : PortsUp s) (sh : Shard) : ∃ rs ms as os, s.startHoming sh =
    { s with regs := rs, tier := { s.tier with moves := ms }, host := { s.host with asks := as }, out := os } := by
  unfold State.startHoming
  dsimp only
  generalize hm : s.tier.moves ++ _ = ms
  have hup : PortsUp (State.showMoves { s with tier := { s.tier with moves := ms } }) :=
    portsUp_congr (s := s) ⟨rfl, rfl⟩ ((devState_showMoves _).trans (reg_congr rfl _)) h
  obtain ⟨as, os, hasks⟩ := asksOnly_askHomings hup
  exact ⟨_, ms, as, os, hasks⟩

/-- The record of a tensor's hold at a unit of its pile. -/
structure HeldAt (T : Tensor) (pile unit : Nat) (x : HoldSt) : Prop where
  pile : x.pile = pile
  tensor : x.tensor = T.id
  unit : x.unit = unit
  count : x.count = (T.size + 65535) / 65536
  committed : x.committed = false

/-- Free units take the tensor's hold; of the tiers only the moves change beside. -/
theorem allocHold_frame {s : State} {T : Tensor} {h : Shard} {c : TierCfg} {n : Nat} (hu : PortsUp s) (hg : s.gradShard T.id = some h)
    (hc : s.tierCfg = some c) (hf : freeUnits s.tier.holds h.pile c.holdSize ((T.size + 65535) / 65536) = some n)
    (hn : (s.tier.holds.filter fun x => x.pile == h.pile).length < 1024) :
    ∃ rs ms as os x, HeldAt T h.pile n x ∧ s.allocHold T =
      { s with regs := rs, tier := { s.tier with moves := ms, holds := s.tier.holds ++ [x] }, host := { s.host with asks := as }, out := os } := by
  unfold State.allocHold
  simp only [hg, hc, hf, hn, if_true]
  generalize hx : HoldSt.mk _ _ _ _ _ _ _ _ = x
  have hup : PortsUp (State.showHolds { s with tier := { s.tier with holds := s.tier.holds ++ [x] } } h.pile) :=
    portsUp_congr (s := s) ⟨rfl, rfl⟩ ((devState_showHolds _ _).trans (reg_congr rfl _)) hu
  obtain ⟨rs, ms, as, os, hstart⟩ := startHoming_frame hup h
  exact ⟨rs, ms, as, os, x, hx ▸ ⟨rfl, rfl, rfl, rfl, rfl⟩, hstart⟩

/-- A tensor's first hold is its home. -/
theorem homeOf_of_held {s t : State} {T : Tensor} {pile n : Nat} {x : HoldSt} {c : TierCfg} (hT : T.holdGrad = true) (hc : s.tierCfg = some c)
    (hn : s.homeOf T = none) (hct : t.tierCfg = some c) (hx : HeldAt T pile n x) (hh : t.tier.holds = s.tier.holds ++ [x]) :
    t.homeOf T = some (holdAddr c pile n) := by
  have hfree : s.tier.holds.find? (·.tensor == T.id) = none := by
    unfold State.homeOf at hn
    rw [if_pos hT, hc] at hn
    cases hfind : s.tier.holds.find? (·.tensor == T.id) with
    | none => rfl
    | some y =>
      rw [hfind] at hn
      cases hn
  unfold State.homeOf
  simp [hT, hct, hh, List.find?_append, hfree, hx.tensor, hx.pile, hx.unit]

/-! ### HOLD_SPACE_FREED (R350) -/

theorem exec_holdSpaceFreed (pile : Nat) (s : State) : exec (.holdSpaceFreed pile) s = .next (applyHoldSpaceFreed pile s) := rfl

/-- The state once the writes that wait for a pile have been taken up. -/
def waitsTaken (s : State) (pile : Nat) : State :=
  { s with tier := { s.tier with waits := s.tier.waits.filter fun x => !(x.pile == pile) } }

theorem applyHoldSpaceFreed_one {s : State} {pile : Nat} {w : HoldWait} (h : s.tier.waits.filter (fun x => x.pile == pile) = [w]) :
    applyHoldSpaceFreed pile s = (waitsTaken s pile).retryWait w := by
  unfold applyHoldSpaceFreed
  rw [h]
  rfl

/-- A waiting write whose tensor now gets a hold is stored, and the buffer that held its data is free again. -/
theorem retryWait_stores {s : State} {w : HoldWait} {T : Tensor} (hT : s.tensor w.tensor = some T) (hn : s.homeOf T = none)
    (hh : ((s.allocHold T).homeOf T).isSome = true) :
    SendsOnly ((s.allocHold T).storeIn w.beat .hub (T.taddr + w.off) w.data) (s.retryWait w) := by
  unfold State.retryWait
  simp only [hT, hn, Option.isNone_none, if_true, hh]
  split
  · exact sendsOnly_owe _ _ _ _
  · exact sendsOnly_refl _

theorem memoryKept_of_sendsOnly {s t : State} (h : SendsOnly s t) : memoryKept s t := peek_congr (h.keeps.parts .memory rfl)

/-- Freed space lets a waiting write allocate its tensor's hold and store its bytes. -/
theorem holdSpaceFreed_stores {pile n : Nat} {w : HoldWait} {T : Tensor} {h : Shard} {c : TierCfg} {s : State} {ps : List Place}
    (hu : PortsUp s) (hw : s.tier.waits.filter (fun x => x.pile == pile) = [w]) (hT : s.tensor w.tensor = some T) (hg : T.holdGrad = true)
    (hn : s.homeOf T = none) (hs : s.gradShard T.id = some h) (hc : s.tierCfg = some c)
    (hf : freeUnits s.tier.holds h.pile c.holdSize ((T.size + 65535) / 65536) = some n)
    (hl : (s.tier.holds.filter fun x => x.pile == h.pile).length < 1024)
    (hold : ((waitsTaken s pile).allocHold T).needsHold (T.taddr + w.off) = none)
    (hp : ((waitsTaken s pile).allocHold T).placesOf .hub true (T.taddr + w.off) w.data.length = some ps)
    (hok : ((waitsTaken s pile).allocHold T).guards .hub ps = .ok) (hd : (ps.map fun pl => cellOf pl.loc).Nodup)
    (h3 : ∀ pl ∈ ps, (cellOf pl.loc).1 ≠ 3) :
    memoryKeptBut (ps.map (·.loc)) s (applyHoldSpaceFreed pile s) ∧
      (∀ (i : Nat) (hi : i < ps.length), (applyHoldSpaceFreed pile s).peek ps[i].loc = w.data.getD i 0) ∧
      (∀ x ∈ (applyHoldSpaceFreed pile s).tier.waits, x.pile ≠ pile) ∧
      (applyHoldSpaceFreed pile s).homeOf T = some (holdAddr c h.pile n) ∧
      ∃ x ∈ (applyHoldSpaceFreed pile s).tier.holds, HeldAt T h.pile n x := by
  have hup : PortsUp (waitsTaken s pile) := portsUp_congr (s := s) ⟨rfl, rfl⟩ (reg_congr rfl _) hu
  obtain ⟨rs, ms, as, os, x, hx, halloc⟩ := allocHold_frame (s := waitsTaken s pile) hup hs hc hf hl
  have hmem : memoryKept s ((waitsTaken s pile).allocHold T) := by
    rw [halloc]
    exact fun l => by cases l <;> rfl
  have hholds : ((waitsTaken s pile).allocHold T).tier.holds = s.tier.holds ++ [x] := by rw [halloc]; rfl
  have hwaits : ((waitsTaken s pile).allocHold T).tier.waits = s.tier.waits.filter fun x => !(x.pile == pile) := by rw [halloc]; rfl
  have hcfg : ((waitsTaken s pile).allocHold T).tierCfg = some c := by rw [halloc]; exact hc
  have hhome := homeOf_of_held hg hc hn hcfg hx hholds
  have hsends := retryWait_stores (s := waitsTaken s pile) hT hn (by rw [hhome]; rfl)
  obtain ⟨hother, hbytes⟩ := storeIn_peek w.beat hold hp hok h3 hd
  have hkeeps := (storeKeeps_storeIn w.beat hold hp hok).trans (storeKeeps_of_sendsOnly hsends)
  have hsent := memoryKept_of_sendsOnly hsends
  rw [applyHoldSpaceFreed_one hw]
  refine ⟨fun l hl => ((hsent l).trans (hother l hl)).trans (hmem l), fun i hi => (hsent _).trans (hbytes i hi), fun y hy => ?_,
    (hkeeps.homeOf T).trans hhome, x, ?_, hx⟩
  · rw [hkeeps.waits, hwaits] at hy
    simpa using (List.mem_filter.mp hy).2
  · rw [hkeeps.holds, hholds]
    exact List.mem_append_right _ (List.mem_singleton_self _)

/-! ### HOMING_COMPLETE (R346, R351, R352) -/

theorem exec_homingComplete (id : Nat) (data : Bytes) (s : State) :
    exec (.homingComplete id data) s = .next (applyHomingComplete id data s) := rfl

theorem placesOf_dropAsks (s : State) (k : Nat) (ag : Agent) (write : Bool) (a n : Nat) :
    (s.dropAsks k).placesOf ag write a n = s.placesOf ag write a n := by
  induction n generalizing a with
  | zero => rfl
  | succ n ih =>
    have hres : (s.dropAsks k).resolve a = s.resolve a := rfl
    have hreach : ∀ pl, (s.dropAsks k).reaches ag pl write = s.reaches ag pl write := fun _ => rfl
    simp only [State.placesOf, hres, hreach, ih]

theorem guards_dropAsks (s : State) (k : Nat) (ag : Agent) (ps : List Place) : (s.dropAsks k).guards ag ps = s.guards ag ps := by
  induction ps with
  | nil => rfl
  | cons pl ps ih =>
    have hguard : (s.dropAsks k).guard ag pl = s.guard ag pl := rfl
    simp only [State.guards, hguard, ih]

/-- A move's record once the homing `m` has transferred its home. -/
def homingDone (m x : MoveSt) : MoveSt := if x.same m then { x with complete := true, progress := x.length } else x

theorem homingDone_complete {m x : MoveSt} (ht : (homingDone m x).tensor = m.tensor) (hh : (homingDone m x).homing = m.homing) :
    (homingDone m x).complete = true ∧ (homingDone m x).progress = (homingDone m x).length := by
  by_cases h : x.same m = true
  · simp [homingDone, h]
  · unfold homingDone at ht hh
    rw [if_neg h] at ht hh
    exact absurd (by simp [MoveSt.same, ht, hh]) h

/-- The state once the homing's bytes have been stored: its home is its landing, and the next homing of the half may ask. -/
def homingStored (s : State) (id mv : Nat) (m : MoveSt) (data : Bytes) : State :=
  let t := (s.dropAsks (homingKey id)).store (.mover mv (some id) false) m.target data
  (State.setHome { t with tier := { t.tier with moves := t.tier.moves.map (homingDone m) } } id m.target).showMoves

section
variable {id half : Nat} {m : MoveSt} {data : Bytes} {s : State}
  (hm : s.tier.moves.find? (fun y => y.tensor == id && y.homing && !y.complete) = some m) (hf : s.halfOf m.target = some half)
include hm hf

/-- A homing that is not its half's next, or whose reads are not out, waits. -/
theorem applyHomingComplete_waits
    (h : (s.homingHead half).map (·.tensor) ≠ some id ∨ ∀ x ∈ s.host.asks, x.1 ≠ homingKey id) : applyHomingComplete id data s = s := by
  have hc : (s.homingHead half).map (·.tensor) ≠ some id ∨ !(s.host.asks.any fun (x : Nat × HPort) => x.1 == homingKey id) := by
    refine h.imp (fun hhead => hhead) fun h => ?_
    rw [Bool.not_eq_true', List.any_eq_false]
    exact fun x hx => by simpa using h x hx
  unfold applyHomingComplete
  simp only [hm, hf]
  exact if_pos hc

variable (hh : (s.homingHead half).map (·.tensor) = some id) (ha : ∃ x ∈ s.host.asks, x.1 = homingKey id)
include hh ha

/-- Data of another length stands for a read that failed. -/
theorem applyHomingComplete_fails (hl : data.length ≠ m.length) : applyHomingComplete id data s =
    (s.dropAsks (homingKey id)).raise { code := 0x6013, cls := 1, unit := { typ := 8, idx := s.homingMover half, sub := 0 } } := by
  obtain ⟨x, hx, hk⟩ := ha
  have hany : (s.host.asks.any fun (x : Nat × HPort) => x.1 == homingKey id) = true := List.any_eq_true.mpr ⟨x, hx, by simpa using hk⟩
  unfold applyHomingComplete
  simp only [hm, hf, hh, hany, hl, ne_eq, not_true_eq_false, not_false_eq_true, Bool.not_true, Bool.false_eq_true, or_self, if_false, if_true]
  rfl

/-- Else the homing stores its bytes, its home transfers, and the half's next homing asks. -/
theorem applyHomingComplete_stores (hl : data.length = m.length) :
    applyHomingComplete id data s = (homingStored s id (s.homingMover half) m data).askHoming half := by
  obtain ⟨x, hx, hk⟩ := ha
  have hany : (s.host.asks.any fun (x : Nat × HPort) => x.1 == homingKey id) = true := List.any_eq_true.mpr ⟨x, hx, by simpa using hk⟩
  unfold applyHomingComplete
  simp only [hm, hf, hh, hany, hl, ne_eq, not_true_eq_false, Bool.not_true, Bool.false_eq_true, or_self, if_false]
  rfl

end

/-- The homing's bytes stand at its landing, which is the tensor's home, and its move is complete. -/
theorem homing_stores {id half mv : Nat} {m : MoveSt} {data : Bytes} {s : State} {ps : List Place} (hu : PortsUp s) (hi : m.tensor = id)
    (hm : m.homing = true) (hold : s.needsHold m.target = none)
    (hp : s.placesOf (.mover mv (some id) false) true m.target data.length = some ps) (hg : s.guards (.mover mv (some id) false) ps = .ok)
    (hd : (ps.map fun pl => cellOf pl.loc).Nodup) (h3 : ∀ pl ∈ ps, (cellOf pl.loc).1 ≠ 3) {v : State}
    (hv : v = (homingStored s id mv m data).askHoming half) :
    memoryKeptBut (ps.map (·.loc)) s v ∧ (∀ (i : Nat) (hi : i < ps.length), v.peek ps[i].loc = data.getD i 0) ∧
      v.tier.homes = (s.tier.homes.filter fun h => !(h.tensor == id)) ++ [{ tensor := id, home := m.target }] ∧
      ∀ y ∈ v.tier.moves, y.tensor = id → y.homing = true → y.complete = true ∧ y.progress = y.length := by
  rw [← placesOf_dropAsks s (homingKey id)] at hp
  rw [← guards_dropAsks s (homingKey id)] at hg
  have hold' : (s.dropAsks (homingKey id)).needsHold m.target = none := hold
  obtain ⟨hother, hbytes⟩ := store_peek hold' hp hg h3 hd
  have hkeeps : StoreKeeps (s.dropAsks (homingKey id)) ((s.dropAsks (homingKey id)).store (.mover mv (some id) false) m.target data) :=
    storeKeeps_storeIn _ hold' hp hg
  have hstored : ∃ t : State, (t = (s.dropAsks (homingKey id)).store (.mover mv (some id) false) m.target data) ∧
      homingStored s id mv m data =
        (State.setHome { t with tier := { t.tier with moves := t.tier.moves.map (homingDone m) } } id m.target).showMoves := ⟨_, rfl, rfl⟩
  obtain ⟨t, ht, hstored⟩ := hstored
  have hhomes : t.tier.homes = s.tier.homes := ht ▸ hkeeps.homes
  have htup : PortsUp t := fun p => by
    rw [ht]
    exact (hkeeps.portUp p).trans (hu p)
  have hup : PortsUp (homingStored s id mv m data) := by
    rw [hstored]
    exact portsUp_congr (s := t) ⟨rfl, rfl⟩ ((devState_showMoves _).trans (reg_congr rfl _)) htup
  obtain ⟨as, os, hasks⟩ := asksOnly_askHoming hup half
  rw [hasks, hstored] at hv
  have hpeek : memoryKept t v := by
    rw [hv]
    exact fun l => by cases l <;> rfl
  rw [← ht] at hother hbytes
  refine ⟨fun l hl => (hpeek l).trans (hother l hl), fun i hi => (hpeek _).trans (hbytes i hi), ?_, fun y hy hyt hyh => ?_⟩
  · rw [hv, ← hhomes]
    rfl
  · have hmoves : v.tier.moves = t.tier.moves.map (homingDone m) := by
      rw [hv]
      rfl
    rw [hmoves] at hy
    obtain ⟨x, -, rfl⟩ := List.mem_map.mp hy
    exact homingDone_complete (hyt.trans hi.symm) (hyh.trans hm.symm)

end Sys2Proof.Laws

/-! # Write-backs, refresh and scrub, and O45 -/

namespace Sys2Proof.Laws

open Sys2Proof Sys2Proof.Machine

/-! ### EDRAM_WRITE_BACK (R356) -/

theorem exec_edramWriteBack (pile line : Nat) (s : State) : exec (.edramWriteBack pile line) s = .next (applyEdramWriteBack pile line s) := rfl

/-- The line that is written back is clean, and every line keeps its place. -/
theorem edramWriteBack_cleans (pile line : Nat) {s : State} {i : Nat} {x : Nat × Nat × Bool} (hx : s.tier.edram[i]? = some x) :
    (applyEdramWriteBack pile line s).tier.edram[i]? = some (x.1, x.2.1, x.2.2 && !decide (x.1 = pile ∧ x.2.1 = line)) := by
  simp only [applyEdramWriteBack, List.getElem?_map, hx, Option.map_some]
  by_cases h : x.1 = pile ∧ x.2.1 = line
  · rw [if_pos h, decide_eq_true h, Bool.not_true, Bool.and_false]
  · rw [if_neg h, decide_eq_false h, Bool.not_false, Bool.and_true]

/-! ### Refresh (R358, R359) -/

/-- The debt stands clamped to −8 to +8; a debt of 0 has no record. -/
theorem debtOf_setDebt (s : State) (n : Nat) (d : Int) : (s.setDebt n d).debtOf n = max (-8) (min 8 d) := by
  unfold State.setDebt State.debtOf
  dsimp only [setFld_tier]
  by_cases h : max (-8) (min 8 d) = 0
  · rw [if_pos h, getKey_delKey_self, h]
    rfl
  · rw [if_neg h, getKey_putKey_self]
    rfl

theorem burstsRun_setDebt (s : State) (n : Nat) (d : Int) (w : Win) (pile : Nat) : (s.setDebt n d).burstsRun w pile = s.burstsRun w pile := rfl

theorem debtOf_congr {s t : State} (h : t.tier = s.tier) (n : Nat) : t.debtOf n = s.debtOf n := by
  unfold State.debtOf
  rw [h]

theorem refreshes_of {s : State} {pile : Nat} (hp : pile < 16)
    (h : s.fld (Reg.pileState pile) 2 0 = 2 ∨ s.fld (Reg.pileState pile) 2 0 = 4) : s.refreshes pile = true := by
  unfold State.refreshes
  simpa [hp] using h

theorem exec_plannedBurst (pile t : Nat) (s : State) : exec (.plannedBurst ⟨pile, t⟩) s = .next (applyPlannedBurst pile t s) := rfl

theorem exec_refreshInterval (pile : Nat) (s : State) : exec (.refreshInterval pile) s = .next (applyRefreshInterval pile s) := rfl

/-- The state at the instant of a pile's next planned burst, which is counted as run. -/
def burstCounted (s : State) (w : Win) (pile t : Nat) : State :=
  { s.at t with tier := { s.tier with bursts := putKey s.tier.bursts pile (w.beat, s.burstsRun w pile + 1) } }

theorem burstsRun_burstCounted (s : State) (w : Win) (pile t : Nat) :
    (burstCounted s w pile t).burstsRun w pile = s.burstsRun w pile + 1 := by
  unfold State.burstsRun
  rw [burstCounted, getKey_putKey_self]
  exact if_pos rfl

theorem debtOf_burstCounted (s : State) (w : Win) (pile t n : Nat) : (burstCounted s w pile t).debtOf n = s.debtOf n := rfl

/-- A burst that is due is run: it is counted, and pays one interval of the debt above −8. -/
theorem plannedBurst_runs {pile t : Nat} {s : State} {w : Win} {c : TierCfg} (hr : s.refreshes pile = true) (hw : s.beat.win = some w)
    (hc : s.tierCfg = some c) (hd : s.burstsRun w pile < burstsDue c w pile t) : applyPlannedBurst pile t s =
      if -8 < s.debtOf pile then (burstCounted s w pile t).setDebt pile (s.debtOf pile - 1) else burstCounted s w pile t := by
  unfold applyPlannedBurst
  simp only [hw, hc, hr, decide_eq_true hd, Bool.and_self, if_true]
  rfl

/-- An interval adds one to the debt below +7. -/
theorem refreshInterval_adds {pile : Nat} {s : State} (hr : s.refreshes pile = true) (h : s.debtOf pile + 1 < 8) :
    applyRefreshInterval pile s = s.setDebt pile (s.debtOf pile + 1) := by
  unfold applyRefreshInterval
  simp only [hr, h, Bool.not_true, Bool.false_eq_true, if_false, if_true]

/-- At +8 an unplanned burst follows, and the debt is +7 again. -/
theorem refreshInterval_bursts {pile : Nat} {s : State} (hr : s.refreshes pile = true) (h : ¬s.debtOf pile + 1 < 8) :
    (applyRefreshInterval pile s).debtOf pile = 7 := by
  have htier : (applyRefreshInterval pile s).tier = (s.setDebt pile 7).tier := by
    unfold applyRefreshInterval
    simp only [hr, h, Bool.not_true, Bool.false_eq_true, if_false]
    rw [raise_logged _ rfl]
    exact (keeps_logEntry _ _ (keeps_refl _) (covers_allBut (q := .tier) rfl)).parts .tier (by decide)
  rw [debtOf_congr htier, debtOf_setDebt]
  rfl

/-! ### Patrol scrub (R363, R365) -/

/-- A codeword without errors is sound, in a pile with a retired die too. -/
theorem decodeCw_nil (retired : Option Nat) : decodeCw retired [] = .clean := by cases retired <;> rfl

/-- The scrub of a sound codeword before the pass's last moves the progress on. -/
theorem patrolScrub_sound {pile cw : Nat} {s : State} (hr : s.refreshes pile = true) (he : s.test.testCtl.getLsbD 3 = true)
    (hc : cw + 1 < 2 ^ 30) : applyPatrolScrub pile cw [] true s = s.setFld (Reg.scrubStatus pile) 9 0 ((cw + 1) / 2 ^ 20) := by
  have hin : ¬1073741824 ≤ cw := by omega
  unfold applyPatrolScrub
  simp only [hr, he, decide_eq_false hin, decodeCw_nil, Bool.not_true, Bool.or_self, Bool.false_eq_true, if_false]
  exact if_pos hc

/-! ### The settled obligation -/

/-- Settles O45: each command's equation under the clause's premises. -/
theorem holdsAndHomingsProceed : Obligations.HoldsAndHomingsProceed := by
  unfold Obligations.HoldsAndHomingsProceed
  refine ⟨⟨?_, ?_, fun pile line s => ⟨_, exec_edramWriteBack pile line s, rfl, List.length_map _, fun i x => edramWriteBack_cleans pile line⟩⟩, ?_⟩
  · rintro pile n w T h c s _ ps hpa hpb hw hT hg hn hs hc hf hl rfl hold hp hok hd h3
    obtain ⟨hother, hbytes, hwaits, hhome, x, hx, hheld⟩ := holdSpaceFreed_stores (portsUp_of hpa hpb) hw hT hg hn hs hc hf hl hold hp hok hd h3
    exact ⟨_, exec_holdSpaceFreed pile s, hother, hbytes, hwaits, hhome, x, hx, hheld.pile, hheld.tensor, hheld.unit, hheld.count, hheld.committed⟩
  · intro id half mv m data s ps hm hf
    refine ⟨fun h => ?_, ?_⟩
    · rw [exec_homingComplete, applyHomingComplete_waits hm hf h]
    · rintro hh ha rfl
      refine ⟨fun hl => ⟨_, exec_homingComplete id data s, ?_⟩, fun hl hpa hpb hold hp hg hd h3 => ⟨_, exec_homingComplete id data s, ?_⟩⟩
      · rw [applyHomingComplete_fails hm hf hh ha hl]
        exact ⟨memoryKept_raise (s.dropAsks (homingKey id)) _, congrArg TierSt.homes (raise_rp_tier (s.dropAsks (homingKey id)) rfl),
          raise_rp_entry (s.dropAsks (homingKey id)) rfl⟩
      · have hmatch := List.find?_some hm
        simp only [Bool.and_eq_true, beq_iff_eq] at hmatch
        obtain ⟨⟨htensor, hhoming⟩, -⟩ := hmatch
        exact homing_stores (portsUp_of hpa hpb) htensor hhoming hold hp hg hd h3 (applyHomingComplete_stores hm hf hh ha hl)
  · intro pile s hpile hstate
    have hr := refreshes_of hpile hstate
    refine ⟨fun w c t hw hc hd h8 => ⟨_, exec_plannedBurst pile t s, ?_⟩, fun hlow h7 => ⟨_, exec_refreshInterval pile s, ?_⟩,
      fun cw hcw he => ⟨_, exec_patrolScrub pile cw [] true s, ?_⟩⟩
    · rw [plannedBurst_runs hr hw hc hd]
      by_cases hlow : -8 < s.debtOf pile
      · rw [if_pos hlow, burstsRun_setDebt, burstsRun_burstCounted, debtOf_setDebt]
        exact ⟨rfl, fun _ => by omega, fun h => absurd hlow (not_lt.mpr h)⟩
      · rw [if_neg hlow]
        exact ⟨burstsRun_burstCounted s w pile t, fun h => absurd h hlow, fun _ => debtOf_burstCounted s w pile t pile⟩
    · by_cases hd : s.debtOf pile + 1 < 8
      · rw [refreshInterval_adds hr hd, debtOf_setDebt]
        omega
      · rw [refreshInterval_bursts hr hd]
        omega
    · rw [patrolScrub_sound hr he hcw, fld_setFld_self _ _ (by decide) (by decide)]
      exact ⟨Nat.mod_eq_of_lt (by omega), fun l => by cases l <;> rfl⟩

end Sys2Proof.Laws

/-! # The tokenizer's longest matches, and O51 -/

namespace Sys2Proof.Laws

open Sys2Proof Sys2Proof.Machine

/-! ### Paths of the dictionary (R384, R385) -/

/-- From node `n`, the first `k` bytes are valid and lead along the dictionary to a node that names token `v`. -/
def PathNames (t : Trie) (n : Nat) (bs : List (Nat × Bool)) (k v : Nat) : Prop :=
  1 ≤ k ∧ k ≤ bs.length ∧ (∀ x ∈ bs.take k, x.2 = false) ∧
    ∃ m, ((bs.take k).map (·.1)).foldlM (fun a b => t.child a b) n = some m ∧ t.token m = some v

theorem pathNames_nil (t : Trie) (n k v : Nat) : ¬PathNames t n [] k v := by
  rintro ⟨hpos, hlen, -⟩
  exact absurd (hpos.trans hlen) (by decide)

theorem pathNames_bad (t : Trie) (n b : Nat) (rest : List (Nat × Bool)) (k v : Nat) : ¬PathNames t n ((b, true) :: rest) k v := by
  rintro ⟨hpos, -, hvalid, -⟩
  obtain ⟨j, rfl⟩ : ∃ j, k = j + 1 := ⟨k - 1, by omega⟩
  exact Bool.noConfusion (hvalid (b, true) (by simp))

theorem pathNames_edgeless {t : Trie} {n b : Nat} (h : t.child n b = none) (bad : Bool) (rest : List (Nat × Bool)) (k v : Nat) :
    ¬PathNames t n ((b, bad) :: rest) k v := by
  rintro ⟨hpos, -, -, m, hpath, -⟩
  obtain ⟨j, rfl⟩ : ∃ j, k = j + 1 := ⟨k - 1, by omega⟩
  simp [h] at hpath

/-- Over an edge a path names the child's token after one byte, or goes on from the child. -/
theorem pathNames_step {t : Trie} {n b c : Nat} (h : t.child n b = some c) (rest : List (Nat × Bool)) (k v : Nat) :
    PathNames t n ((b, false) :: rest) k v ↔ (k = 1 ∧ t.token c = some v) ∨ ∃ j, k = j + 1 ∧ PathNames t c rest j v := by
  cases k with
  | zero => simp [PathNames]
  | succ j =>
    cases j with
    | zero => simp [PathNames, h]
    | succ j => simp [PathNames, h]

/-! ### The walk (R384) -/

/-- Bytes and token are the longest path that names one. -/
def LongestPath (t : Trie) (n : Nat) (bs : List (Nat × Bool)) (k v : Nat) : Prop :=
  PathNames t n bs k v ∧ ∀ j w, PathNames t n bs j w → j ≤ k

/-- What a walk answers that has used `k` bytes with this best match so far: the longest path from here on, or the best so far where
none names a token. -/
def WalkAnswers (t : Trie) (n k : Nat) (bs : List (Nat × Bool)) (best : Option (Nat × Nat)) (r : Option (Nat × Nat)) : Prop :=
  (∃ j v, r = some (v, k + j) ∧ LongestPath t n bs j v) ∨ (r = best ∧ ∀ j w, ¬PathNames t n bs j w)

/-- The best match once a walk has come to node `c` with `k` bytes. -/
def bestAt (t : Trie) (c k : Nat) (best : Option (Nat × Nat)) : Option (Nat × Nat) := ((t.token c).map fun v => (v, k)).or best

theorem walk_step {t : Trie} {n b c : Nat} (h : t.child n b = some c) (k : Nat) (rest : List (Nat × Bool)) (best : Option (Nat × Nat)) :
    t.walk n k ((b, false) :: rest) best = t.walk c (k + 1) rest (bestAt t c (k + 1) best) := by
  cases htoken : t.token c <;> simp [Trie.walk, h, bestAt, htoken]

theorem walk_answers (t : Trie) (bs : List (Nat × Bool)) (n k : Nat) (best : Option (Nat × Nat)) :
    WalkAnswers t n k bs best (t.walk n k bs best) := by
  induction bs generalizing n k best with
  | nil => exact .inr ⟨rfl, pathNames_nil t n⟩
  | cons x rest ih =>
    obtain ⟨b, bad⟩ := x
    cases bad with
    | true => exact .inr ⟨rfl, pathNames_bad t n b rest⟩
    | false =>
      cases hchild : t.child n b with
      | none => exact .inr ⟨by simp [Trie.walk, hchild], pathNames_edgeless hchild false rest⟩
      | some c =>
        rw [walk_step hchild]
        obtain ⟨j, v, hr, hnames, hlongest⟩ | ⟨hr, hnone⟩ := ih c (k + 1) (bestAt t c (k + 1) best)
        · refine .inl ⟨j + 1, v, by rw [hr, Nat.add_assoc, Nat.add_comm 1], ?_, fun i w hi => ?_⟩
          · exact (pathNames_step hchild rest _ _).mpr (.inr ⟨j, rfl, hnames⟩)
          · obtain ⟨rfl, -⟩ | ⟨i, rfl, hrest⟩ := (pathNames_step hchild rest i w).mp hi
            · exact Nat.le_add_left 1 j
            · exact Nat.succ_le_succ (hlongest i w hrest)
        · have honly : ∀ i w, PathNames t n ((b, false) :: rest) i w → i = 1 ∧ t.token c = some w := fun i w hi => by
            obtain hone | ⟨j, -, hrest⟩ := (pathNames_step hchild rest i w).mp hi
            · exact hone
            · exact absurd hrest (hnone j w)
          rw [hr]
          cases htoken : t.token c with
          | none => exact .inr ⟨by simp [bestAt, htoken], fun i w hi => by simpa [htoken] using (honly i w hi).2⟩
          | some v =>
            exact .inl ⟨1, v, by simp [bestAt, htoken], (pathNames_step hchild rest _ _).mpr (.inl ⟨rfl, htoken⟩), fun i w hi => (honly i w hi).1.le⟩

/-! ### The pieces of a payload (R384) -/

/-- A piece at the front of the bytes that are left: the longest path that names a token, or a byte that no path covers. -/
def PieceFits (t : Trie) (base : Nat) (after : List (Nat × Bool)) (p : List (Nat × Bool) × Nat) : Prop :=
  LongestPath t 0 after p.1.length p.2 ∨ ((∀ k v, ¬PathNames t 0 after k v) ∧ ∃ b bad, p.1 = [(b, bad)] ∧ p.2 = base + b)

/-- Pieces that cut a payload, each fitting where it starts. -/
def PiecesFit (t : Trie) (base : Nat) (ps : List (List (Nat × Bool) × Nat)) : Prop :=
  ∀ (i : Nat) (h : i < ps.length), PieceFits t base ((ps.drop i).flatMap (·.1)) ps[i]

theorem piecesFit_cons {t : Trie} {base : Nat} {p : List (Nat × Bool) × Nat} {ps : List (List (Nat × Bool) × Nat)}
    (hp : PieceFits t base ((p :: ps).flatMap (·.1)) p) (hps : PiecesFit t base ps) : PiecesFit t base (p :: ps)
  | 0, _ => hp
  | i + 1, h => hps i (Nat.lt_of_succ_lt_succ h)

/-- The first token takes a fitting piece off the payload, and the rest is cut with what is left. -/
theorem tokens_cons (t : Trie) (base n : Nat) (x : Nat × Bool) (rest : List (Nat × Bool)) :
    ∃ p after, p.1 ++ after = x :: rest ∧ 1 ≤ p.1.length ∧ PieceFits t base (x :: rest) p ∧
      t.tokens base (n + 1) (x :: rest) = p.2 :: t.tokens base n after := by
  obtain ⟨b, bad⟩ := x
  cases bad with
  | true =>
    exact ⟨([(b, true)], base + b), rest, rfl, Nat.le_refl 1, .inr ⟨pathNames_bad t 0 b rest, b, true, rfl, rfl⟩, rfl⟩
  | false =>
    obtain ⟨k, v, hwalk, hlongest⟩ | ⟨hwalk, hnone⟩ := walk_answers t ((b, false) :: rest) 0 0 none
    · obtain ⟨hpos, hlen, -⟩ := hlongest.1
      have hk : (((b, false) :: rest).take k).length = k := by rw [List.length_take, Nat.min_eq_left hlen]
      refine ⟨(((b, false) :: rest).take k, v), ((b, false) :: rest).drop k, List.take_append_drop _ _, by rwa [hk],
        .inl (by rwa [hk]), ?_⟩
      simp [Trie.tokens, hwalk]
    · exact ⟨([(b, false)], base + b), rest, rfl, Nat.le_refl 1, .inr ⟨hnone, b, false, rfl, rfl⟩, by simp [Trie.tokens, hwalk]⟩

/-- With a token at most for each byte, the tokens are those of pieces that cut the payload. -/
theorem tokens_cut (t : Trie) (base n : Nat) (bs : List (Nat × Bool)) (h : bs.length ≤ n) :
    ∃ ps : List (List (Nat × Bool) × Nat), ps.flatMap (·.1) = bs ∧ t.tokens base n bs = ps.map (·.2) ∧ PiecesFit t base ps := by
  induction n generalizing bs with
  | zero =>
    obtain rfl := List.length_eq_zero_iff.mp (Nat.le_zero.mp h)
    exact ⟨[], rfl, rfl, fun i hi => absurd hi (Nat.not_lt_zero i)⟩
  | succ n ih =>
    cases bs with
    | nil => exact ⟨[], rfl, rfl, fun i hi => absurd hi (Nat.not_lt_zero i)⟩
    | cons x rest =>
      obtain ⟨p, after, hcut, hpos, hfits, htokens⟩ := tokens_cons t base n x rest
      have hafter : after.length ≤ n := by
        have := congrArg List.length hcut
        simp only [List.length_append, List.length_cons] at this h
        omega
      obtain ⟨ps, hflat, hmap, hps⟩ := ih after hafter
      have hall : (p :: ps).flatMap (·.1) = x :: rest := by rw [List.flatMap_cons, hflat, hcut]
      exact ⟨p :: ps, hall, by rw [htokens, hmap, List.map_cons], piecesFit_cons (hall ▸ hfits) hps⟩

/-! ### O51 -/

/-- Settles O51, by induction on the payload that is left: each step of the tokenizer takes off the longest path, which the walk finds
by induction along the bytes, or one byte. -/
theorem tokensAreLongestMatches : Obligations.TokensAreLongestMatches := by
  unfold Obligations.TokensAreLongestMatches
  intro t base bs
  obtain ⟨ps, hcut, htokens, hfit⟩ := tokens_cut t base bs.length bs (Nat.le_refl _)
  exact ⟨ps, hcut, htokens, fun i h => hfit i h⟩

end Sys2Proof.Laws

/-! # Refusals, staging and records that leave: what a forager's operations leave alone -/

namespace Sys2Proof.Laws

open Sys2Proof Sys2Proof.Machine

/-! ### Damage records (R405) -/

/-- With LOG_EN 0 no damage record is written. -/
theorem damage_off {s : State} (h : s.bit Reg.forgCtl 1 = false) (d : Damage) : s.damage d = s := by
  unfold State.damage
  exact if_pos (.inl (by rw [h]; rfl))

/-! ### Refusals (R376, R378, R383) -/

theorem regHome_forgRefused (f : Nat) : regHome (Reg.forgRefused f) = Reg.forgRefused f :=
  regHome_id (.inr (by unfold Reg.forgRefused; omega))

theorem forgCtl_apart (f : Nat) : regHome Reg.forgCtl ∉ [Reg.forgRefused f].map regHome := by
  rw [List.map_singleton, List.mem_singleton, regHome_forgRefused, regHome_id (.inr (by decide))]
  unfold Reg.forgCtl Reg.forgRefused
  omega

/-- From `s` to `t` forager `f` has counted `n` refused samples and staged marks for them, and nothing else has happened. -/
structure RefusesOnly (f n : Nat) (s t : State) : Prop where
  frame : t = { s with
    regs := t.regs, forager := { s.forager with staged := t.forager.staged, order := t.forager.order } }
  regs : regsKeptBut [Reg.forgRefused f] s t
  count : t.fld (Reg.forgRefused f) 15 0 = min (s.fld (Reg.forgRefused f) 15 0 + n) (2 ^ 16 - 1)

theorem refusesOnly_refl (f : Nat) (s : State) : RefusesOnly f 0 s s :=
  ⟨rfl, fun _ _ => rfl, by have := fld_lt s (Reg.forgRefused f) 15 0; omega⟩

theorem RefusesOnly.trans {f n m : Nat} {s t u : State} (h : RefusesOnly f n s t) (g : RefusesOnly f m t u) : RefusesOnly f (n + m) s u where
  frame := by rw [g.frame, h.frame]
  regs := fun o ho => (g.regs o ho).trans (h.regs o ho)
  count := by rw [g.count, h.count]; omega

section
variable {f n : Nat} {s t : State} (h : RefusesOnly f n s t)
include h

theorem RefusesOnly.logEn : t.bit Reg.forgCtl 1 = s.bit Reg.forgCtl 1 := bit_of_reg (h.regs _ (forgCtl_apart f)) 1

theorem RefusesOnly.queue : t.forager.queue = s.forager.queue := by rw [h.frame]

theorem RefusesOnly.suspended : t.forager.suspended = s.forager.suspended := by rw [h.frame]

theorem RefusesOnly.expect : t.forager.expect = s.forager.expect := by rw [h.frame]

theorem RefusesOnly.cache : t.forager.cache = s.forager.cache := by rw [h.frame]

theorem RefusesOnly.memoryKept : memoryKept s t := by
  rw [h.frame]
  exact fun l => by cases l <;> rfl

theorem RefusesOnly.onlyRegs : onlyRegs [Reg.forgRefused f] s { t with forager := s.forager } :=
  ⟨by rw [h.frame], h.regs⟩

end

theorem refusesOnly_countRefused (s : State) (f n : Nat) : RefusesOnly f n s (s.countRefused f n) :=
  ⟨rfl, (onlyRegs_setFld s 15 0 _ (List.mem_singleton_self _)).2, fld_bumpSat_self s n (by decide) (by decide)⟩

theorem refusesOnly_putStaged (f : Nat) (s : State) (x : Staged9) : RefusesOnly f 0 s (s.putStaged x) :=
  ⟨rfl, fun _ _ => rfl, (refusesOnly_refl f s).count⟩

theorem refusesOnly_foldl {α : Type} (f : Nat) {g : State → α → State} (h : ∀ s x, RefusesOnly f 0 s (g s x)) (l : List α) (s : State) :
    RefusesOnly f 0 s (l.foldl g s) :=
  List.foldlRecOn l g (refusesOnly_refl f s) fun t ht x _ => ht.trans (h t x)

/-- A refusal that writes no damage record. -/
theorem refusesOnly_refuseSample {s : State} (hlog : s.bit Reg.forgCtl 1 = false) (x : Staged9) (code : Nat) :
    RefusesOnly x.forager 1 s (s.refuseSample x code) := by
  unfold State.refuseSample
  rw [damage_off hlog]
  exact (refusesOnly_countRefused s x.forager 1).trans (refusesOnly_putStaged x.forager _ _)

/-! ### Records that leave their queue or their lane (R373) -/

/-- From `s` to `v` the record has left the lane that suspended it, or else the queue. -/
def RecordLeft (n : Nat) (q : Queued) (s v : State) : Prop :=
  (n, q) ∉ v.forager.suspended ∧ ((n, q) ∉ s.forager.suspended → q ∉ v.forager.queue)

theorem takeRecord_frame (s : State) (n : Nat) (q : Queued) : s.takeRecord n q = { s with forager := (s.takeRecord n q).forager } := by
  unfold State.takeRecord
  split <;> rfl

theorem takeRecord_leaves (s : State) (n : Nat) (q : Queued) : RecordLeft n q s (s.takeRecord n q) := by
  unfold State.takeRecord RecordLeft
  by_cases h : (n, q) ∈ s.forager.suspended
  · rw [if_pos (List.contains_iff_mem.mpr h)]
    exact ⟨by simp [State.setFor], fun hn => absurd h hn⟩
  · rw [if_neg (fun hc => h (List.contains_iff_mem.mp hc))]
    exact ⟨h, fun _ => by simp [State.setFor]⟩

theorem takeRecord_logEn (s : State) (n : Nat) (q : Queued) : (s.takeRecord n q).bit Reg.forgCtl 1 = s.bit Reg.forgCtl 1 := by
  rw [takeRecord_frame]
  rfl

/-- A record that has left stays away while queue and lanes stand. -/
theorem RecordLeft.of_same {n : Nat} {q : Queued} {s u v : State} (h : RecordLeft n q s u) (hq : v.forager.queue = u.forager.queue)
    (hs : v.forager.suspended = u.forager.suspended) : RecordLeft n q s v := by
  unfold RecordLeft
  rw [hq, hs]
  exact h

/-- A slot that ends first puts the record in the lane, and nothing else happens. -/
theorem suspend_halts (s : State) (n : Nat) (q : Queued) :
    s.suspend n q = { s with forager := (s.suspend n q).forager } ∧ (n, q) ∈ (s.suspend n q).forager.suspended ∧
      ((n, q) ∉ s.forager.suspended → q ∉ (s.suspend n q).forager.queue) := by
  have hframe := takeRecord_frame s n q
  refine ⟨?_, List.mem_append_right _ (List.mem_singleton_self _), (takeRecord_leaves s n q).2⟩
  unfold State.suspend State.setFor
  dsimp only
  rw [hframe]

/-- A record that leaves and is refused. -/
theorem take_refuse {s : State} {f : Nat} (hlog : s.bit Reg.forgCtl 1 = false) (n : Nat) (q : Queued) {x : Staged9} (hx : x.forager = f)
    (code : Nat) :
    RecordLeft n q s ((s.takeRecord n q).refuseSample x code) ∧
      ((s.takeRecord n q).refuseSample x code).fld (Reg.forgRefused f) 15 0 = min (s.fld (Reg.forgRefused f) 15 0 + 1) (2 ^ 16 - 1) ∧
      memoryKept s ((s.takeRecord n q).refuseSample x code) := by
  subst hx
  have hleft := takeRecord_leaves s n q
  have hrefused := refusesOnly_refuseSample ((takeRecord_logEn s n q).trans hlog) x code
  refine ⟨hleft.of_same hrefused.queue hrefused.suspended, ?_, fun l => (hrefused.memoryKept l).trans ?_⟩
  · rw [hrefused.count, takeRecord_frame]
    rfl
  · rw [takeRecord_frame]
    cases l <;> rfl

/-! ### Events that are only logged -/

theorem forager_logEntry (s : State) (e : Ev) : (s.logEntry e).forager = s.forager := by
  obtain ⟨hframe, -⟩ := onlyLog_logEntry (offs := []) s e
  rw [hframe]

/-- An event without a class of its own, logged once per beat, leaves the foragers and every register outside the log alone. -/
theorem raiseBeat_beside (s : State) (key : Nat) {e : Ev} (h : e.cls = 0) :
    (s.raiseBeat key e).forager = s.forager ∧ ∀ o, logReg (regHome o) = false → (s.raiseBeat key e).reg o = s.reg o := by
  unfold State.raiseBeat
  split
  · exact ⟨rfl, fun _ _ => rfl⟩
  · rw [raise_logged _ h]
    exact ⟨forager_logEntry _ e, fun o ho => logEntry_reg _ e ho⟩

/-- The same of one that is logged once per plan cycle. -/
theorem raiseCycle_beside (s : State) (key : Nat) {e : Ev} (h : e.cls = 0) :
    (s.raiseCycle key e).forager = s.forager ∧ ∀ o, logReg (regHome o) = false → (s.raiseCycle key e).reg o = s.reg o := by
  unfold State.raiseCycle
  split
  · exact ⟨rfl, fun _ _ => rfl⟩
  · rw [raise_logged _ h]
    exact ⟨forager_logEntry _ e, fun o ho => logEntry_reg _ e ho⟩

/-- Feeding the watch changes no forager and no register outside the log. -/
theorem feed_beside (s : State) (hub : Nat) (beat : Option Nat) (id : Nat) (d : WDelta) :
    (s.feed hub beat id d).forager = s.forager ∧ ∀ o, logReg (regHome o) = false → (s.feed hub beat id d).reg o = s.reg o := by
  unfold State.feed
  split
  · exact ⟨rfl, fun _ _ => rfl⟩
  · split
    · exact ⟨rfl, fun _ _ => rfl⟩
    · exact raiseBeat_beside _ _ rfl

/-! ### Staging (R377, R387, R396) -/

theorem forager_of_keeps {s t : State} (h : Keeps (allBut .forager) s t) : t.forager = s.forager := h.parts .forager (by decide)

theorem forager_scratchStaging (s : State) (c : ForCfg) : (s.scratchStaging c).forager = s.forager :=
  forager_of_keeps (keeps_scratchStaging s c (keeps_refl s) (covers_allBut rfl))

theorem forager_scratchCache (s : State) (c : ForCfg) : (s.scratchCache c).forager = s.forager :=
  forager_of_keeps (keeps_scratchCache s c (keeps_refl s) (covers_allBut rfl))

/-- Staging that writes no damage record counts a concealed image and puts the sample among the staged ones. -/
theorem stage_silent {s : State} (hlog : s.bit Reg.forgCtl 1 = false) (c : ForCfg) (x : Staged9) :
    ∃ rs, s.stage c x = ((({ s with regs := rs } : State).scratchStaging c).putStaged x).fillLong x.forager := by
  unfold State.stage
  simp only [damage_off hlog, ite_self]
  split
  · exact ⟨_, rfl⟩
  · exact ⟨s.regs, rfl⟩

/-- Samples that move to the long queue stand there, and the others stay. -/
theorem mem_fillLong {s : State} {x : Staged9} (f : Nat) (h : x ∈ s.forager.staged) :
    x ∈ (s.fillLong f).forager.staged ++ (s.fillLong f).forager.long := by
  unfold State.fillLong State.setFor
  dsimp only
  generalize (s.forager.staged.filter _).take _ = go
  by_cases hgo : x ∈ go
  · exact List.mem_append_right _ (List.mem_append_right _ hgo)
  · exact List.mem_append_left _ (List.mem_append_left _ (List.mem_filter.mpr ⟨h, by simpa using hgo⟩))

/-- A sample that is not long stays among the staged ones. -/
theorem mem_fillLong_regular {s : State} {x : Staged9} (f : Nat) (h : x ∈ s.forager.staged) (hx : x.long = false) :
    x ∈ (s.fillLong f).forager.staged := by
  unfold State.fillLong State.setFor
  dsimp only
  refine List.mem_append_left _ (List.mem_filter.mpr ⟨h, ?_⟩)
  rw [Bool.not_eq_true', ← Bool.not_eq_true, List.contains_iff_mem]
  intro hgo
  simpa [hx] using (List.mem_filter.mp (List.mem_of_mem_take hgo)).2

/-- A sample staged without a damage record stands in ready order, in the long queue if that has room for it; records wait as before. -/
theorem stage_stages {s : State} (hlog : s.bit Reg.forgCtl 1 = false) (c : ForCfg) (x : Staged9) :
    (s.stage c x).forager.queue = s.forager.queue ∧ (s.stage c x).forager.suspended = s.forager.suspended ∧
      ∃ y, y = { x with order := s.forager.order } ∧ y ∈ (s.stage c x).forager.staged ++ (s.stage c x).forager.long ∧
        (x.long = false → y ∈ (s.stage c x).forager.staged) := by
  obtain ⟨rs, hstage⟩ := stage_silent hlog c x
  have hscratch := forager_scratchStaging { s with regs := rs } c
  rw [hstage]
  generalize (State.scratchStaging _ c) = a at hscratch ⊢
  have hlanes : ((a.putStaged x).fillLong x.forager).forager.queue = a.forager.queue ∧
      ((a.putStaged x).fillLong x.forager).forager.suspended = a.forager.suspended := ⟨rfl, rfl⟩
  have hput : { x with order := s.forager.order } ∈ (a.putStaged x).forager.staged := by
    refine List.mem_append_right _ (List.mem_singleton.mpr ?_)
    rw [hscratch]
  rw [hscratch] at hlanes
  exact ⟨hlanes.1, hlanes.2, _, rfl, mem_fillLong _ hput, fun hx => mem_fillLong_regular _ hput hx⟩

/-- Filling the cache changes only the cache among the foragers' lists. -/
theorem cacheFill_forager (s : State) (c : ForCfg) (st : FStream) (x : Staged9) :
    ∃ k, (s.cacheFill c st x).forager = { s.forager with cache := k } := by
  unfold State.cacheFill
  split
  · exact ⟨s.forager.cache, rfl⟩
  · dsimp only
    split
    · exact ⟨_, forager_scratchCache _ c⟩
    · exact ⟨s.forager.cache, (raiseCycle_beside _ _ rfl).1⟩

/-- With an empty cache no record is staged from it. -/
theorem drainCached_empty {s : State} (h : s.forager.cache = []) : s.drainCached = s := by
  unfold State.drainCached
  cases s.forCfg with
  | none => rfl
  | some c =>
    refine List.foldl_fixed' (fun q => ?_) _
    have hmiss : s.cached c q.stream q.sample = none := by
      unfold State.cached
      rw [h]
      exact ite_self _
    dsimp only
    rw [hmiss]
    cases s.stream q.stream <;> rfl

end Sys2Proof.Laws

/-! # Decode and tokenizer lanes, and O50 -/

namespace Sys2Proof.Laws

open Sys2Proof Sys2Proof.Machine

theorem length_leBytes (n v : Nat) : (leBytes n v).length = n := by
  induction n generalizing v with
  | zero => rfl
  | succ n ih => exact congrArg (· + 1) (ih _)

theorem length_tokenBytes (ts : List Nat) : (ts.flatMap fun v => leBytes 4 v).length = 4 * ts.length := by
  simp [List.length_flatMap, length_leBytes, Nat.mul_comm]

/-- A record that leaves and whose sample is staged, the watch fed or not. -/
theorem take_stage {s u : State} {n : Nat} {q : Queued} (hlog : s.bit Reg.forgCtl 1 = false)
    (hu : u.forager = (s.takeRecord n q).forager) (hreg : u.reg Reg.forgCtl = (s.takeRecord n q).reg Reg.forgCtl)
    (c : ForCfg) (st : FStream) (x : Staged9) :
    RecordLeft n q s ((u.stage c x).cacheFill c st x) ∧
      ∃ y o, y = { x with order := o } ∧
        y ∈ ((u.stage c x).cacheFill c st x).forager.staged ++ ((u.stage c x).cacheFill c st x).forager.long ∧
        (x.long = false → y ∈ ((u.stage c x).cacheFill c st x).forager.staged) := by
  have hoff : u.bit Reg.forgCtl 1 = false := by rw [bit_of_reg hreg, takeRecord_logEn, hlog]
  obtain ⟨hqueue, hlanes, y, hy, hmem, hregular⟩ := stage_stages hoff c x
  obtain ⟨k, hfill⟩ := cacheFill_forager (u.stage c x) c st x
  rw [hu] at hqueue hlanes
  refine ⟨(takeRecord_leaves s n q).of_same ?_ ?_, y, _, hy, ?_, fun hx => ?_⟩
  · rw [hfill, hqueue]
  · rw [hfill, hlanes]
  · rw [hfill]; exact hmem
  · rw [hfill]; exact hregular hx

/-! ### JPEG_DECODE (R373, R378, R381) -/

theorem exec_jpegDecode (f lane : Nat) (ends : Bool) (s : State) :
    exec (.jpegDecode f ⟨lane, ends⟩) s = .next (applyJpegDecode f lane ends s) := rfl

/-- The sample of an image that the checks refuse. -/
def refusedImage (f : Nat) (q : Queued) (e : JRefusal) : Staged9 :=
  { stagedOf f q.stream q.sample with
    declW := e.width, declH := e.height, total := e.total, count := e.concealed
    byteOff := e.errAt.getD 0xFFFFFFFFFFFFFFFF, mcu := e.firstMcu.getD 0xFFFFFFFF }

/-- The sample of an image that decodes. -/
def decodedImage (s : State) (f : Nat) (st : FStream) (q : Queued) (m : JImage) : Staged9 :=
  { stagedOf f q.stream q.sample with
    data := (s.imageOut st m).1, units := 1, total := m.total, declW := m.width, declH := m.height, count := m.concealed
    byteOff := m.errAt.getD 0xFFFFFFFFFFFFFFFF, mcu := m.firstMcu.getD 0xFFFFFFFF
    flags := if decide (0 < m.concealed) then (if st.concealMask then 17 else 1) else 0 }

theorem decodedImage_flags (s : State) (f : Nat) (st : FStream) (q : Queued) (m : JImage) :
    (decodedImage s f st q m).flags = if m.concealed = 0 then 0 else if st.concealMask then 17 else 1 := by
  cases h : m.concealed <;> simp [decodedImage, h]

section
variable {f lane n : Nat} {r : RunSlot} {c : ForCfg} {st : FStream} {q : Queued} {s : State}
  (hn : n = 9 * f + lane) (hr : s.runOf { cls := 6, idx := n } = some r) (hc : s.forCfg = some c) (he : s.forager.cache = [])
  (hst : s.stream r.op = some st) (hq : s.laneRecord n r.op = some q)
  (hturn : ¬(4 ≤ lane ∨ st.kind ≠ 1 ∨ st.forager ≠ f ∨ q.sample.kind ≠ 1))
include hn hr hc he hst hq hturn

/-- An image that the checks refuse. -/
theorem applyJpegDecode_error {e : JRefusal} (h : jpegDecode q.sample.payload = .error e) (ends : Bool) :
    applyJpegDecode f lane ends s =
      if !ends then s.suspend n q else (s.takeRecord n q).refuseSample (refusedImage f q e) e.code := by
  subst hn
  unfold applyJpegDecode
  simp only [hr, drainCached_empty he, hst, hq, hc, if_neg hturn, h] <;> rfl

/-- An image that decodes. -/
theorem applyJpegDecode_ok {m : JImage} (h : jpegDecode q.sample.payload = .ok m) (ends : Bool) :
    applyJpegDecode f lane ends s =
      if !s.stagingFits c (s.imageOut st m).1.length then s
      else if !ends then s.suspend n q
      else (((s.takeRecord n q).feed f none st.watch (s.imageOut st m).2).stage c (decodedImage s f st q m)).cacheFill c st
        (decodedImage s f st q m) := by
  subst hn
  unfold applyJpegDecode
  simp only [hr, drainCached_empty he, hst, hq, hc, if_neg hturn, h] <;> rfl

end

/-! ### TOKENIZE (R373, R383, R396) -/

theorem exec_tokenize (f lane : Nat) (ends : Bool) (s : State) :
    exec (.tokenize f ⟨lane, ends⟩) s = .next (applyTokenize f lane ends s) := rfl

/-- What a stream makes of the text of a record. -/
def textOf (s : State) (st : FStream) (q : Queued) : TextOut := tokenizeText (s.trie st) st.byteBase st.bosId st.eosId q.sample.payload

/-- A regular op takes that many tokens, or a long op of the stream does (R390, R396). -/
def LengthFits (c : ForCfg) (st : FStream) (stream n : Nat) : Prop :=
  n ≤ st.longAt ∨ (st.longOk = true ∧ ∃ b, c.longBudget stream = some b ∧ n ≤ b)

/-- The long ops of a stream have room for that many tokens. -/
def longRoom (c : ForCfg) (st : FStream) (stream n : Nat) : Bool :=
  match c.longBudget stream with
  | some b => st.longOk && decide (n ≤ b)
  | none => false

theorem lengthFits_iff (c : ForCfg) (st : FStream) (stream n : Nat) :
    (decide (st.longAt < n) && !longRoom c st stream n) = false ↔ LengthFits c st stream n := by
  unfold longRoom LengthFits
  cases c.longBudget stream with
  | none => simp
  | some b => by_cases h : st.longAt < n <;> simp [h, Nat.not_le.mpr, Nat.le_of_not_lt]

/-- The sample of a text. -/
def tokenizedText (s : State) (f : Nat) (st : FStream) (q : Queued) : Staged9 :=
  { stagedOf f q.stream q.sample with
    data := (textOf s st q).tokens.flatMap fun v => leBytes 4 v, units := (textOf s st q).tokens.length
    long := decide (st.longAt < (textOf s st q).tokens.length), count := (textOf s st q).bad
    byteOff := (textOf s st q).firstBad.getD 0xFFFFFFFFFFFFFFFF, flags := if 0 < (textOf s st q).bad then 8 else 0 }

theorem tokenizedText_flags (s : State) (f : Nat) (st : FStream) (q : Queued) :
    (tokenizedText s f st q).flags = if (textOf s st q).bad = 0 then 0 else 8 := by
  cases h : (textOf s st q).bad <;> simp [tokenizedText, h]

section
variable {f lane n : Nat} {r : RunSlot} {c : ForCfg} {st : FStream} {q : Queued} {s : State}
  (hn : n = 9 * f + 4 + lane) (hr : s.runOf { cls := 6, idx := n } = some r) (hc : s.forCfg = some c) (he : s.forager.cache = [])
  (hst : s.stream r.op = some st) (hq : s.laneRecord n r.op = some q)
  (hturn : ¬(4 ≤ lane ∨ st.kind ≠ 2 ∨ st.forager ≠ f ∨ q.sample.kind ≠ 2))
include hn hr hc he hst hq hturn

/-- What a lane's turn does with the record of its slot's stream. -/
theorem applyTokenize_turn (ends : Bool) :
    applyTokenize f lane ends s =
      if 67108864 < q.sample.payload.length then
        (if ends then (s.takeRecord n q).refuseSample (stagedOf f q.stream q.sample) 0x7019 else s.suspend n q)
      else if decide (st.longAt < (textOf s st q).tokens.length) && !longRoom c st q.stream (textOf s st q).tokens.length then
        (if ends then (s.takeRecord n q).refuseSample (stagedOf f q.stream q.sample) 0x7016 else s.suspend n q)
      else if !s.stagingFits c ((textOf s st q).tokens.flatMap fun v => leBytes 4 v).length then s
      else if !ends then s.suspend n q
      else ((s.takeRecord n q).stage c (tokenizedText s f st q)).cacheFill c st (tokenizedText s f st q) := by
  subst hn
  unfold applyTokenize
  simp only [hr, drainCached_empty he, hst, hq, hc, if_neg hturn] <;> rfl

/-- A text that is too long, or that no op of its stream takes. -/
theorem applyTokenize_refuses (h : 67108864 < q.sample.payload.length ∨ ¬LengthFits c st q.stream (textOf s st q).tokens.length) :
    ∃ code, ∀ ends, applyTokenize f lane ends s =
      if ends then (s.takeRecord n q).refuseSample (stagedOf f q.stream q.sample) code else s.suspend n q := by
  by_cases hbig : 67108864 < q.sample.payload.length
  · exact ⟨0x7019, fun ends => by rw [applyTokenize_turn hn hr hc he hst hq hturn, if_pos hbig]⟩
  · have hlong := mt (lengthFits_iff c st q.stream _).mp (h.resolve_left hbig)
    rw [Bool.not_eq_false] at hlong
    exact ⟨0x7016, fun ends => by rw [applyTokenize_turn hn hr hc he hst hq hturn, if_neg hbig, if_pos hlong]⟩

/-- A text that an op of its stream takes. -/
theorem applyTokenize_fits (hbig : q.sample.payload.length ≤ 67108864) (h : LengthFits c st q.stream (textOf s st q).tokens.length)
    (ends : Bool) :
    applyTokenize f lane ends s =
      if !s.stagingFits c (4 * (textOf s st q).tokens.length) then s
      else if !ends then s.suspend n q
      else ((s.takeRecord n q).stage c (tokenizedText s f st q)).cacheFill c st (tokenizedText s f st q) := by
  rw [applyTokenize_turn hn hr hc he hst hq hturn, if_neg (Nat.not_lt.mpr hbig), (lengthFits_iff c st q.stream _).mpr h,
    if_neg Bool.false_ne_true, length_tokenBytes]

end

/-! ### O50 -/

/-- Settles O50: a lane's turn by what its record becomes, and by whether the slot's budget lasts. -/
theorem lanesStageTheirSamples : Obligations.LanesStageTheirSamples := by
  unfold Obligations.LanesStageTheirSamples
  intro f lane n r c st q s _ hl hc he hst hf hq hlog left halted
  constructor
  · intro hn hr hk hqk
    have hturn : ¬(4 ≤ lane ∨ st.kind ≠ 1 ∨ st.forager ≠ f ∨ q.sample.kind ≠ 1) := by simp [Nat.not_le.mpr hl, hk, hf, hqk]
    refine ⟨fun e herr => ?_, fun m hok => ⟨fun hfull b => ?_, fun hfit => ?_⟩⟩
    · simp only [exec_jpegDecode, applyJpegDecode_error hn hr hc he hst hq hturn herr]
      exact ⟨⟨_, rfl, take_refuse hlog n q rfl _⟩, _, rfl, suspend_halts s n q⟩
    · rw [exec_jpegDecode, applyJpegDecode_ok hn hr hc he hst hq hturn hok, hfull]
      rfl
    · simp only [exec_jpegDecode, applyJpegDecode_ok hn hr hc he hst hq hturn hok, hfit]
      obtain ⟨hforager, hreg⟩ := feed_beside (s.takeRecord n q) f none st.watch (s.imageOut st m).2
      obtain ⟨hleft, y, o, rfl, -, hmem⟩ := take_stage hlog hforager (hreg _ (by decide)) c st (decodedImage s f st q m)
      exact ⟨⟨_, rfl, hleft, _, hmem rfl, rfl, rfl, rfl, rfl, rfl, decodedImage_flags s f st q m⟩, _, rfl, suspend_halts s n q⟩
  · intro hn hr hk hqk y fits
    have hturn : ¬(4 ≤ lane ∨ st.kind ≠ 2 ∨ st.forager ≠ f ∨ q.sample.kind ≠ 2) := by simp [Nat.not_le.mpr hl, hk, hf, hqk]
    refine ⟨fun hbad => ?_, fun hbig hfits => ⟨fun hfull b => ?_, fun hfit => ?_⟩⟩
    · obtain ⟨code, hrefused⟩ := applyTokenize_refuses hn hr hc he hst hq hturn hbad
      simp only [exec_tokenize, hrefused]
      exact ⟨⟨_, rfl, take_refuse hlog n q rfl _⟩, _, rfl, suspend_halts s n q⟩
    · rw [exec_tokenize, applyTokenize_fits hn hr hc he hst hq hturn hbig hfits]
      exact congrArg _ (if_pos (by rw [Bool.not_eq_true']; exact hfull))
    · have hroom : s.stagingFits c (4 * (textOf s st q).tokens.length) = true := hfit
      simp only [exec_tokenize, applyTokenize_fits hn hr hc he hst hq hturn hbig hfits, hroom]
      obtain ⟨hleft, x, o, rfl, hmem, -⟩ := take_stage hlog rfl rfl c st (tokenizedText s f st q)
      exact ⟨⟨_, rfl, hleft, _, hmem, rfl, rfl, rfl, rfl, rfl, tokenizedText_flags s f st q⟩, _, rfl, suspend_halts s n q⟩

end Sys2Proof.Laws

/-! # Events and stores leave what a stream expects, and O49 -/

namespace Sys2Proof.Laws

open Sys2Proof Sys2Proof.Machine

/-! ### What a stream expects and has asked for again (R376, R400) -/

/-- The expected SRC_SEQ values and the outstanding refetches are the same. -/
structure IntakeKept (s t : State) : Prop where
  refetch : t.forager.refetch = s.forager.refetch
  expect : t.forager.expect = s.forager.expect

theorem intakeKept_refl (s : State) : IntakeKept s s := ⟨rfl, rfl⟩

section
variable {σ s t : State}

theorem IntakeKept.trans {u : State} (h : IntakeKept s t) (g : IntakeKept t u) : IntakeKept s u :=
  ⟨g.refetch.trans h.refetch, g.expect.trans h.expect⟩

/-- What changes no forager keeps them. -/
theorem IntakeKept.keeps (h : IntakeKept σ s) (k : Keeps (allBut .forager) s t) : IntakeKept σ t :=
  ⟨(congrArg ForSt.refetch (forager_of_keeps k)).trans h.refetch, (congrArg ForSt.expect (forager_of_keeps k)).trans h.expect⟩

theorem intakeKept_foldl {α : Type} {f : State → α → State} (hf : ∀ {σ s} x, IntakeKept σ s → IntakeKept σ (f s x)) (l : List α)
    (h : IntakeKept σ s) : IntakeKept σ (l.foldl f s) :=
  List.foldlRecOn l f h fun _ ht x _ => hf x ht

theorem intakeKept_ite {c : Prop} [Decidable c] (hs : IntakeKept σ s) (ht : IntakeKept σ t) : IntakeKept σ (if c then s else t) := by
  split
  · exact hs
  · exact ht

/-- Every part of the state but the foragers. -/
theorem covers_besideForager : covers (allBut .forager) [.now, .regs, .latches, .memory, .slots, .beat, .units, .cores, .watch, .upd, .tier,
    .mods, .ports, .casc, .host, .power, .test, .esz, .pkg] := covers_allBut rfl

/-! ### Fences and the end of a run (R114, R375) -/

/-- A fenced lane gives back the sample that it had suspended. -/
theorem intakeKept_giveBack (h : IntakeKept σ s) (lane : Nat) : IntakeKept σ (s.giveBack lane) := ⟨h.refetch, h.expect⟩

theorem intakeKept_fenceLane (h : IntakeKept σ s) (uc : UnitCode) : IntakeKept σ (s.fenceLane uc) := by
  have hp := covers_besideForager
  unfold State.fenceLane
  dsimp only
  refine IntakeKept.keeps (intakeKept_giveBack (h.keeps ?_) _) (keeps_forgCode _ _ (keeps_fenceMerging _ _ _ _ _ (keeps_refl _)))
  exact keeps_setBit _ _ _ _ (keeps_setBit s _ _ _ (keeps_refl s))

theorem intakeKept_fenceNow (h : IntakeKept σ s) (uc : UnitCode) : IntakeKept σ (s.fenceNow uc) := by
  have hp := covers_besideForager
  have hs := keeps_refl (P := allBut .forager) s
  unfold State.fenceNow
  split
  · exact h.keeps (keeps_fenceDie _ _ _ _ hs)
  · exact h.keeps (keeps_fenceDie _ _ _ _ (keeps_dieCoresOut _ _ hs))
  · exact h.keeps (keeps_fenceCore _ _ hs)
  · exact h.keeps (keeps_fenceCore _ _ hs)
  · exact h.keeps (keeps_fenceModule _ _ _ _ _ hs)
  · refine intakeKept_ite (h.keeps (keeps_fenceDie _ _ _ _ hs)) (intakeKept_ite ?_ ?_)
    · exact h.keeps (keeps_losePile _ _ hs)
    · exact h.keeps (keeps_retireDie _ _ _ hs)
  · exact h.keeps (keeps_lossFence _ _ _ (keeps_updCode _ _ _ (keeps_setBit _ _ _ _ (keeps_fenceUnit _ _ hs))))
  · exact h.keeps (keeps_fenceMerging _ _ _ _ _ hs)
  · exact h.keeps (keeps_fenceMerging _ _ _ _ _ (keeps_setFld _ _ _ _ _ hs))
  · have hout := keeps_logEntry _ { code := 0x8003, cls := 2, unit := uc }
      (keeps_portOut _ uc.idx 4 (keeps_fenceUnit _ { cls := 5, idx := uc.idx } hs))
    dsimp only
    split
    · exact h.keeps (keeps_merge _ _ _ hout)
    · exact h.keeps hout
  · exact intakeKept_ite (intakeKept_fenceLane h uc) (h.keeps (keeps_lossFence _ _ _ (keeps_setBit _ _ _ _ hs)))
  · exact h.keeps (keeps_lossFence _ _ _ hs)

theorem intakeKept_settle (h : IntakeKept σ s) : IntakeKept σ s.settle := by
  have hp := covers_besideForager
  have hfences : IntakeKept σ s.settleFences := intakeKept_foldl (fun uc h => intakeKept_fenceNow h uc) _ ⟨h.refetch, h.expect⟩
  exact hfences.keeps (keeps_updatePresence _ (keeps_portsReturn _ (keeps_gapModules _ (keeps_refl _))))

theorem intakeKept_endRun (h : IntakeKept σ s) : IntakeKept σ s.endRun := by
  have hp := covers_besideForager
  have hs := keeps_dropRdc _ (keeps_cancelMoves _ (keeps_endRegs _ (keeps_keepPartial s (keeps_refl s))))
  unfold State.endRun
  exact (intakeKept_settle (h.keeps (keeps_restUnits _ (keeps_dropRun _ (keeps_dropFrames _ hs))))).keeps
    (keeps_settleRest _ (keeps_refl _))

theorem intakeKept_deviceLoss (h : IntakeKept σ s) : IntakeKept σ s.deviceLoss := by
  have hp := covers_besideForager
  unfold State.deviceLoss
  refine intakeKept_ite (h.keeps (keeps_clearLoss _ (keeps_refl _))) ?_
  have hended := intakeKept_endRun (h.keeps (keeps_sendSelfLost s false (keeps_refl s)))
  have hheld := hended.keeps (keeps_enterHold _ (keeps_clearLoss _ (keeps_refl _)))
  dsimp only
  generalize State.enterHold _ = t at hheld ⊢
  refine IntakeKept.keeps ?_ (keeps_setBit _ _ _ _ (keeps_refl _))
  exact ⟨hheld.refetch, hheld.expect⟩

theorem intakeKept_fail (h : IntakeKept σ s) (code : Nat) : IntakeKept σ (s.fail code) := by
  have hp := covers_besideForager
  unfold State.fail
  refine intakeKept_ite (h.keeps (keeps_clearLoss _ (keeps_refl _))) ?_
  have haborted := h.keeps (keeps_foldl (f := fun s r => State.abortRun s r) (l := s.host.runs) (fun _ r _ ht => keeps_abortRun _ r ht) (keeps_refl s))
  have hended := intakeKept_endRun (haborted.keeps (keeps_sendSelfLost _ true (keeps_refl _)))
  exact hended.keeps (keeps_setFld _ _ _ _ _ (keeps_setDevState _ _ (keeps_clearLoss _ (keeps_refl _))))

/-! ### Events -/

/-- Whatever an event's class asks for. -/
theorem intakeKept_raise (h : IntakeKept σ s) (e : Ev) : IntakeKept σ (s.raise e) := by
  have hp := covers_besideForager
  have hlogged : IntakeKept σ (s.logEntry e) := h.keeps (keeps_logEntry _ _ (keeps_refl _))
  unfold State.raise
  refine intakeKept_ite (hlogged.keeps (keeps_markFault _ _ (keeps_refl _))) (intakeKept_ite (intakeKept_ite hlogged ?_) ?_)
  · exact intakeKept_deviceLoss hlogged
  · exact intakeKept_ite (intakeKept_fail hlogged _) hlogged

theorem intakeKept_raiseBeat (h : IntakeKept σ s) (key : Nat) (e : Ev) : IntakeKept σ (s.raiseBeat key e) := by
  unfold State.raiseBeat
  refine intakeKept_ite h (intakeKept_raise ?_ e)
  exact ⟨h.refetch, h.expect⟩

theorem intakeKept_raiseCycle (h : IntakeKept σ s) (key : Nat) (e : Ev) : IntakeKept σ (s.raiseCycle key e) := by
  unfold State.raiseCycle
  refine intakeKept_ite h (intakeKept_raise ?_ e)
  exact ⟨h.refetch, h.expect⟩

/-! ### Stores (R320, R348, R350) -/

theorem intakeKept_askHoming (h : IntakeKept σ s) (half : Nat) : IntakeKept σ (s.askHoming half) := by
  have hp := covers_besideForager
  unfold State.askHoming
  split
  · exact h
  · exact intakeKept_ite h (intakeKept_ite (intakeKept_raise h _) (h.keeps (keeps_superAsk _ _ _ _ (keeps_refl _))))

theorem intakeKept_startHoming (h : IntakeKept σ s) (x : Shard) : IntakeKept σ (s.startHoming x) := by
  have hp := covers_besideForager
  have hasked : ∀ {t}, IntakeKept σ t → IntakeKept σ t.showMoves.askHomings := fun ht =>
    intakeKept_askHoming (intakeKept_askHoming (ht.keeps (keeps_showMoves _ (keeps_refl _))) 0) 1
  exact hasked ⟨h.refetch, h.expect⟩

theorem intakeKept_allocHold (h : IntakeKept σ s) (T : Tensor) : IntakeKept σ (s.allocHold T) := by
  have hp := covers_besideForager
  unfold State.allocHold
  split
  · dsimp only
    split
    · refine intakeKept_ite (intakeKept_startHoming ?_ _) h
      refine IntakeKept.keeps ?_ (keeps_showHolds _ _ (keeps_refl _))
      exact ⟨h.refetch, h.expect⟩
    · exact h
  · exact h

theorem intakeKept_holdWait (h : IntakeKept σ s) (ag : Agent) (beat : Nat) (T : Tensor) (off : Nat) (data : Bytes) :
    IntakeKept σ (s.holdWait ag beat T off data) := by
  have hp := covers_besideForager
  unfold State.holdWait
  split
  · exact h
  · next x _ =>
    have hwaits := (intakeKept_raiseBeat h (0x60120000 + x.pile)
      { code := 0x6012, cls := 0, unit := { typ := 6, idx := x.pile, sub := 31 } }).keeps
        (keeps_setBit _ (Reg.holdStatus x.pile) 22 true (keeps_refl _))
    exact ⟨hwaits.refetch, hwaits.expect⟩

/-- A store of any outcome. -/
theorem intakeKept_store (h : IntakeKept σ s) (ag : Agent) (a : Nat) (data : Bytes) : IntakeKept σ (s.store ag a data) := by
  have hp := covers_besideForager
  unfold State.store State.storeIn
  lift_lets
  intro t
  have hheld : IntakeKept σ t := by
    dsimp only [t]
    split
    · exact intakeKept_ite h (intakeKept_allocHold h _)
    · exact h
  clear_value t
  split
  · exact intakeKept_ite hheld (intakeKept_holdWait hheld _ _ _ _ _)
  · split
    · exact intakeKept_ite (intakeKept_raise hheld _) (intakeKept_raise hheld _)
    · next ps _ =>
      split
      · have hwritten := keeps_writePlaces _ ag ps data (keeps_recall t ag ps (keeps_refl t))
        exact hheld.keeps (keeps_unlistWritten _ _ (keeps_scanGrad _ _ _ _ (keeps_mirrorWrite _ _ _ _ _ hwritten)))
      · exact intakeKept_raise hheld _

/-! ### Records that are accepted (R376, R388) -/

theorem intakeKept_damage (h : IntakeKept σ s) (d : Damage) : IntakeKept σ (s.damage d) := by
  have hp := covers_besideForager
  unfold State.damage
  refine intakeKept_ite h ?_
  have hlogged := (intakeKept_store h (.forager (((s.stream d.stream).map (·.forager)).getD 0) 8)
    (s.ringAddr Reg.forgErrBaseLo + 64 * ((s.reg Reg.forgErrHead).toNat % s.fld Reg.forgErrCtl 15 0))
    (d.bytes (s.reg Reg.forgErrHead).toNat (s.pair Reg.beatCountLo % 2 ^ 32) (((s.stream d.stream).map (·.partner)).getD false))).keeps
      (keeps_setReg _ Reg.forgErrHead (BitVec.ofNat 32 ((s.reg Reg.forgErrHead).toNat + 1)) (keeps_refl _))
  refine intakeKept_ite (intakeKept_raiseCycle (hlogged.keeps ?_) _ _) hlogged
  exact keeps_forgCode _ _ (keeps_setBit _ _ _ _ (keeps_refl _))

theorem intakeKept_refuseSample (h : IntakeKept σ s) (x : Staged9) (code : Nat) : IntakeKept σ (s.refuseSample x code) := by
  have hp := covers_besideForager
  have hcounted := (intakeKept_damage h (x.damage code 2)).keeps (keeps_countRefused _ x.forager 1 (keeps_refl _))
  exact ⟨hcounted.refetch, hcounted.expect⟩

theorem intakeKept_stage (h : IntakeKept σ s) (c : ForCfg) (x : Staged9) : IntakeKept σ (s.stage c x) := by
  have hp := covers_besideForager
  have hput : ∀ {t}, IntakeKept σ t → IntakeKept σ (((t.scratchStaging c).putStaged x).fillLong x.forager) := fun ht =>
    have hscratch := ht.keeps (keeps_scratchStaging _ c (keeps_refl _))
    ⟨hscratch.refetch, hscratch.expect⟩
  unfold State.stage
  refine hput (intakeKept_ite ?_ (intakeKept_ite (intakeKept_damage h _) h))
  exact (intakeKept_damage h _).keeps (keeps_bumpSat _ _ _ _ _ (keeps_refl _))

theorem intakeKept_acceptRecord (h : IntakeKept σ s) (c : ForCfg) (st : FStream) (f k : Nat) (r : SampleRec) :
    IntakeKept σ (s.acceptRecord c st f k r) := by
  have hp := covers_besideForager
  have hqueued : IntakeKept σ (s.setFor { s.forager with queue := s.forager.queue ++ [{ stream := k, sample := r }] }) :=
    ⟨h.refetch, h.expect⟩
  unfold State.acceptRecord
  refine intakeKept_ite (intakeKept_refuseSample h _ _) (intakeKept_ite (intakeKept_refuseSample h _ _) ?_)
  split
  · exact intakeKept_ite (intakeKept_refuseSample h _ _) hqueued
  · exact intakeKept_ite ((intakeKept_stage h c _).keeps (keeps_bumpSat _ _ _ _ _ (keeps_refl _))) hqueued

end

end Sys2Proof.Laws

/-! # Sample records, and O49 -/

namespace Sys2Proof.Laws

open Sys2Proof Sys2Proof.Machine

theorem exec_sampleRecord (f : Nat) (q : Option Nat) (r : SampleRec) (s : State) :
    exec (.sampleRecord f q r) s = .next (applySampleRecord f r s) := rfl

/-! ### Damage records while LOG_EN is 1 (R405) -/

theorem length_damageBytes (d : Damage) (number beat : Nat) (partner : Bool) : (d.bytes number beat partner).length = 64 := by
  simp [Damage.bytes, length_leBytes, zeroBytes]

/-- The address of the next record in the damage ring. -/
def damageAddr (s : State) : Nat :=
  s.ringAddr Reg.forgErrBaseLo + 64 * ((s.reg Reg.forgErrHead).toNat % s.fld Reg.forgErrCtl 15 0)

/-- The forager whose batcher writes a stream's damage records. -/
def damageWriter (s : State) (stream : Nat) : Nat := ((s.stream stream).map (·.forager)).getD 0

/-- The bytes of the next record in the damage ring. -/
def damageBytes (s : State) (d : Damage) : Bytes :=
  d.bytes (s.reg Reg.forgErrHead).toNat (s.pair Reg.beatCountLo % 2 ^ 32) (((s.stream d.stream).map (·.partner)).getD false)

/-- The state once the record is stored and the head has moved on. -/
def damageStored (s : State) (d : Damage) : State :=
  (s.store (.forager (damageWriter s d.stream) 8) (damageAddr s) (damageBytes s d)).setReg Reg.forgErrHead
    (BitVec.ofNat 32 ((s.reg Reg.forgErrHead).toNat + 1))

/-- A ring that wraps is noted. -/
def wrapNoted (t : State) (head n : Nat) : State :=
  if 0 < head ∧ head % n = 0 then
    ((t.setBit Reg.forgStatus 3 true).forgCode 0x7084).raiseCycle 0x7084
      { code := 0x7084, cls := 0, unit := { typ := 0, idx := 0, sub := 0 } }
  else t

theorem damage_on {s : State} (h : s.bit Reg.forgCtl 1 = true) (hn : 0 < s.fld Reg.forgErrCtl 15 0) (d : Damage) :
    s.damage d = wrapNoted (damageStored s d) (s.reg Reg.forgErrHead).toNat (s.fld Reg.forgErrCtl 15 0) := by
  unfold State.damage
  rw [if_neg (by simp [h, Nat.ne_of_gt hn])]
  rfl

theorem damageStored_head (s : State) (d : Damage) : (damageStored s d).reg Reg.forgErrHead = s.reg Reg.forgErrHead + 1 := by
  unfold damageStored
  rw [reg_setReg]
  apply BitVec.eq_of_toNat_eq
  simp

theorem wrapNoted_kept (t : State) (head n : Nat) :
    memoryKept t (wrapNoted t head n) ∧ (wrapNoted t head n).reg Reg.forgErrHead = t.reg Reg.forgErrHead := by
  have hp : covers (allBut .memory) [.regs, .slots, .beat, .units, .cores, .upd, .tier, .forager, .mods, .ports, .casc, .host, .test] :=
    covers_allBut rfl
  unfold wrapNoted
  split
  · obtain ⟨-, hreg⟩ := raiseCycle_beside ((t.setBit Reg.forgStatus 3 true).forgCode 0x7084) 0x7084
      (e := { code := 0x7084, cls := 0, unit := { typ := 0, idx := 0, sub := 0 } }) rfl
    refine ⟨memoryKept_of_keeps (keeps_raiseCycle _ _ _ (keeps_forgCode _ _ (keeps_setBit _ _ _ _ (keeps_refl t)))), ?_⟩
    rw [hreg _ (by decide)]
    exact (reg_setFld_ne _ _ _ _ (by decide)).trans (reg_setFld_ne _ _ _ _ (by decide))
  · exact ⟨memoryKept_refl t, rfl⟩

/-- A damage record that no rule drops. -/
theorem damage_logs {s : State} (h : s.bit Reg.forgCtl 1 = true) (hn : 0 < s.fld Reg.forgErrCtl 15 0) {d : Damage} {ps : List Place}
    (hh : s.needsHold (damageAddr s) = none) (hp : s.placesOf (.forager (damageWriter s d.stream) 8) true (damageAddr s) 64 = some ps)
    (hg : s.guards (.forager (damageWriter s d.stream) 8) ps = .ok) (hd : (ps.map fun pl => cellOf pl.loc).Nodup)
    (hc : ∀ pl ∈ ps, (cellOf pl.loc).1 ≠ 3) :
    memoryKeptBut (ps.map (·.loc)) s (s.damage d) ∧ (s.damage d).reg Reg.forgErrHead = s.reg Reg.forgErrHead + 1 ∧
      ∀ (i : Nat) (hi : i < ps.length), (s.damage d).peek ps[i].loc = (damageBytes s d).getD i 0 := by
  obtain ⟨hother, hbytes⟩ := store_peek hh ((length_damageBytes d _ _ _).symm ▸ hp) hg hc hd
  obtain ⟨hmem, hhead⟩ := wrapNoted_kept (damageStored s d) (s.reg Reg.forgErrHead).toNat (s.fld Reg.forgErrCtl 15 0)
  have hset : memoryKept (s.store (.forager (damageWriter s d.stream) 8) (damageAddr s) (damageBytes s d)) (damageStored s d) :=
    fun l => by cases l <;> rfl
  rw [damage_on h hn]
  exact ⟨fun l hl => ((hmem l).trans (hset l)).trans (hother l hl), hhead.trans (damageStored_head s d),
    fun i hi => ((hmem _).trans (hset _)).trans (hbytes i hi)⟩

/-! ### Records that are dropped (R376) -/

/-- A rule of R376 drops the record, whose stream is `k`. -/
def RecordDropped (s : State) (f k : Nat) (r : SampleRec) : Prop :=
  s.recordStream r = none ∨ s.stream k = none ∨ ∃ st, s.stream k = some st ∧ (st.forager ≠ f ∨
    (st.partner = true ∧ s.casc.takeover = false) ∨ (r.refetch = true ∧ (k, r.sampleId, r.srcSeq) ∉ s.forager.refetch) ∨
    (r.refetch = false ∧ r.srcSeq < (getKey s.forager.expect k).getD 0))

theorem applySampleRecord_drops {s : State} {f k : Nat} {r : SampleRec} {c : ForCfg} (hc : s.forCfg = some c)
    (hk : k = (s.recordStream r).getD (r.stream % 32)) (h : RecordDropped s f k r) : applySampleRecord f r s = s.dropRecord f k r := by
  unfold applySampleRecord
  simp only [hc]
  cases hstream : s.recordStream r with
  | none => rw [hk, hstream]; rfl
  | some i =>
    obtain rfl : k = i := by rw [hk, hstream]; rfl
    dsimp only
    cases hst : s.stream k with
    | none => rfl
    | some st =>
      obtain hnone | hnone | ⟨st', hst', hrule⟩ := h
      · rw [hstream] at hnone; cases hnone
      · rw [hst] at hnone; cases hnone
      · obtain rfl : st = st' := Option.some.inj (hst.symm.trans hst')
        dsimp only
        by_cases haway : st.forager ≠ f ∨ (st.partner && !s.casc.takeover) = true
        · rw [if_pos haway]
        · rw [if_neg haway]
          obtain hfor | ⟨hpartner, htake⟩ | ⟨hre, hkey⟩ | ⟨hre, hlow⟩ := hrule
          · exact absurd (.inl hfor) haway
          · exact absurd (.inr (by rw [hpartner, htake]; rfl)) haway
          · rw [if_pos hre, if_neg (by simpa using hkey)]
          · rw [if_neg (by simp [hre]), if_pos hlow]

theorem dropRecord_counts {s : State} (h : s.bit Reg.forgCtl 1 = false) (f k : Nat) (r : SampleRec) :
    onlyRegs [Reg.forgRefused f] s (s.dropRecord f k r) ∧
      (s.dropRecord f k r).fld (Reg.forgRefused f) 15 0 = min (s.fld (Reg.forgRefused f) 15 0 + 1) (2 ^ 16 - 1) := by
  unfold State.dropRecord
  rw [damage_off h]
  exact ⟨onlyRegs_setFld s 15 0 _ (List.mem_singleton_self _), (refusesOnly_countRefused s f 1).count⟩

/-! ### Records that are taken (R376) -/

section
variable {f k : Nat} {r : SampleRec} {c : ForCfg} {st : FStream} {s : State} (hc : s.forCfg = some c)
  (hk : s.recordStream r = some k) (hst : s.stream k = some st) (hf : st.forager = f)
  (hrole : st.partner = false ∨ s.casc.takeover = true)
include hc hk hst hf hrole

/-- The record that answers a refetch ends its request and is accepted (R400). -/
theorem applySampleRecord_refetched (hre : r.refetch = true) (hkey : (k, r.sampleId, r.srcSeq) ∈ s.forager.refetch) :
    applySampleRecord f r s = (s.setFor { s.forager with
      refetch := s.forager.refetch.filter fun y => !(y == (k, r.sampleId, r.srcSeq)) }).acceptRecord c st f k r := by
  have hmine : ¬(st.forager ≠ f ∨ (st.partner && !s.casc.takeover) = true) := by
    obtain hrole | hrole := hrole <;> simp [hf, hrole]
  unfold applySampleRecord
  simp only [hc, hk, hst, if_neg hmine, if_pos hre, if_pos (List.contains_iff_mem.mpr hkey)]

/-- The state once the values below the record's SRC_SEQ have been refused and the stream expects the next (R376). -/
def advanced (s : State) (f k : Nat) (r : SampleRec) : State :=
  let want := (getKey s.forager.expect k).getD 0
  let t := if want < r.srcSeq then s.skipped f k want r.srcSeq else s
  t.setFor { t.forager with expect := putKey t.forager.expect k (r.srcSeq + 1) }

/-- A record at or past the expected value is accepted. -/
theorem applySampleRecord_advances (hre : r.refetch = false) (hseq : (getKey s.forager.expect k).getD 0 ≤ r.srcSeq) :
    applySampleRecord f r s = (advanced s f k r).acceptRecord c st f k r := by
  have hmine : ¬(st.forager ≠ f ∨ (st.partner && !s.casc.takeover) = true) := by
    obtain hrole | hrole := hrole <;> simp [hf, hrole]
  unfold applySampleRecord
  simp only [hc, hk, hst, if_neg hmine, hre, if_neg (Nat.not_lt.mpr hseq)] <;> rfl

end

/-- The skipped values are refused, counted at once. -/
theorem refusesOnly_skipped {s : State} (h : s.bit Reg.forgCtl 1 = false) (f k want got : Nat) :
    RefusesOnly f (got - want) s (s.skipped f k want got) := by
  unfold State.skipped
  rw [damage_off h]
  exact (refusesOnly_countRefused s f _).trans (refusesOnly_foldl f (fun t _ => refusesOnly_putStaged f t _) _ _)

/-- Between the record's coming and its acceptance: refusals, and what the stream expects. -/
theorem advanced_refuses {s : State} (h : s.bit Reg.forgCtl 1 = false) (f k : Nat) (r : SampleRec) :
    ∃ t, RefusesOnly f (r.srcSeq - (getKey s.forager.expect k).getD 0) s t ∧
      advanced s f k r = t.setFor { s.forager with
        staged := t.forager.staged, order := t.forager.order, expect := putKey s.forager.expect k (r.srcSeq + 1) } := by
  unfold advanced
  dsimp only
  split
  · next hlt =>
    have hskipped := refusesOnly_skipped h f k ((getKey s.forager.expect k).getD 0) r.srcSeq
    refine ⟨_, hskipped, ?_⟩
    generalize State.skipped _ _ _ _ _ = t at hskipped
    rw [hskipped.frame]
  · next hle =>
    rw [Nat.sub_eq_zero_of_le (Nat.not_lt.mp hle)]
    exact ⟨s, refusesOnly_refl f s, rfl⟩

/-- The kind of a record suits its stream (R376). -/
def kindSuits (st : FStream) (r : SampleRec) : Bool :=
  (r.kind == 1 && st.kind == 1) || (r.kind == 2 && st.kind == 2) || r.kind == 3

theorem kindSuits_iff (st : FStream) (r : SampleRec) :
    kindSuits st r = true ↔ r.kind = 1 ∧ st.kind = 1 ∨ r.kind = 2 ∧ st.kind = 2 ∨ r.kind = 3 := by
  simp [kindSuits, or_assoc]

/-- A record of a suiting kind whose CRC matches and that the cache does not hold waits in the queue. -/
theorem acceptRecord_queues {s : State} {c : ForCfg} {r : SampleRec} {k : Nat} {st : FStream} (f : Nat) (hs : kindSuits st r = true)
    (hcrc : crc32c r.payload = r.crc.toNat) (hmiss : s.cached c k r = none) (h3 : r.kind ≠ 3) :
    s.acceptRecord c st f k r = s.setFor { s.forager with queue := s.forager.queue ++ [{ stream := k, sample := r }] } := by
  have hsuits : ¬(!kindSuits st r) = true := by rw [hs]; exact Bool.false_ne_true
  unfold State.acceptRecord
  unfold kindSuits at hsuits
  simp only [if_neg hsuits, if_neg (not_not.mpr hcrc), hmiss, if_neg h3]

/-- A record of the wrong kind, with a CRC that does not match, or by an identifier that the cache does not hold is refused. -/
theorem acceptRecord_refuses {s : State} {c : ForCfg} {r : SampleRec} {k : Nat} {st : FStream} (f : Nat)
    (h : kindSuits st r = false ∨ crc32c r.payload ≠ r.crc.toNat ∨ (s.cached c k r = none ∧ r.kind = 3)) :
    ∃ code, s.acceptRecord c st f k r = s.refuseSample (stagedOf f k r) code := by
  unfold State.acceptRecord
  dsimp only
  split
  · exact ⟨_, rfl⟩
  · next hsuits =>
    split
    · exact ⟨_, rfl⟩
    · next hcrc =>
      obtain hkind | hbad | ⟨hmiss, h3⟩ := h
      · unfold kindSuits at hkind
        exact absurd (by rw [hkind]; rfl) hsuits
      · exact absurd hbad hcrc
      · rw [hmiss]
        exact ⟨_, if_pos h3⟩

theorem cached_of_cache {s t : State} (h : t.forager.cache = s.forager.cache) (c : ForCfg) (k : Nat) (r : SampleRec) :
    t.cached c k r = s.cached c k r := by
  unfold State.cached
  rw [h]

/-- From `s` to `t` only the listed registers and the foragers can have changed. -/
def RegsAndForager (offs : List Nat) (s t : State) : Prop :=
  t = { s with regs := t.regs, forager := t.forager } ∧ regsKeptBut offs s t

theorem RegsAndForager.trans {offs : List Nat} {s t u : State} (h : RegsAndForager offs s t) (g : RegsAndForager offs t u) :
    RegsAndForager offs s u := by
  obtain ⟨ht, hk⟩ := h
  obtain ⟨gu, gk⟩ := g
  refine ⟨?_, fun o ho => (gk o ho).trans (hk o ho)⟩
  rw [gu, ht]

theorem RegsAndForager.onlyRegs {offs : List Nat} {s t : State} (h : RegsAndForager offs s t) :
    onlyRegs offs s { t with forager := s.forager } := ⟨by rw [h.1], h.2⟩

theorem RefusesOnly.regsAndForager {f n : Nat} {s t : State} (h : RefusesOnly f n s t) : RegsAndForager [Reg.forgRefused f] s t :=
  ⟨by rw [h.frame], h.regs⟩

section
variable {s v : State} {c : ForCfg} {f k : Nat} {r : SampleRec} {st : FStream} (h : s.bit Reg.forgCtl 1 = false)
  (hmiss : s.cached c k r = none) (hv : v = (advanced s f k r).acceptRecord c st f k r)
include h hmiss hv

/-- While no damage record is written, a record at or past the expected value that suits its stream and is sound is queued. -/
theorem advanced_queues (hs : kindSuits st r = true) (hcrc : crc32c r.payload = r.crc.toNat) (h3 : r.kind ≠ 3) :
    RegsAndForager [Reg.forgRefused f] s v ∧ getKey v.forager.expect k = some (r.srcSeq + 1) ∧
      v.forager.queue = s.forager.queue ++ [{ stream := k, sample := r }] ∧
      v.fld (Reg.forgRefused f) 15 0 =
        min (s.fld (Reg.forgRefused f) 15 0 + (r.srcSeq - (getKey s.forager.expect k).getD 0)) (2 ^ 16 - 1) := by
  obtain ⟨t, ht, hadv⟩ := advanced_refuses h f k r
  rw [acceptRecord_queues f hs hcrc ((cached_of_cache (by rw [hadv]; rfl) c k r).trans hmiss) h3, hadv] at hv
  subst hv
  refine ⟨ht.regsAndForager.trans ⟨rfl, fun _ _ => rfl⟩, getKey_putKey_self _ _ _, rfl, ht.count⟩

/-- Any other is refused. -/
theorem advanced_refused
    (hbad : kindSuits st r = false ∨ crc32c r.payload ≠ r.crc.toNat ∨ r.kind = 3) :
    RegsAndForager [Reg.forgRefused f] s v ∧ getKey v.forager.expect k = some (r.srcSeq + 1) ∧
      v.forager.queue = s.forager.queue ∧
      v.fld (Reg.forgRefused f) 15 0 =
        min (s.fld (Reg.forgRefused f) 15 0 + (r.srcSeq - (getKey s.forager.expect k).getD 0) + 1) (2 ^ 16 - 1) := by
  obtain ⟨t, ht, hadv⟩ := advanced_refuses h f k r
  have hmiss' := (cached_of_cache (t := advanced s f k r) (by rw [hadv]; rfl) c k r).trans hmiss
  obtain ⟨code, hcode⟩ := acceptRecord_refuses (st := st) f (hbad.imp_right (Or.imp_right (And.intro hmiss')))
  have hlog : (advanced s f k r).bit Reg.forgCtl 1 = false := by
    rw [hadv]
    exact ht.logEn.trans h
  have hmore := refusesOnly_refuseSample hlog (stagedOf f k r) code
  rw [← hcode, ← hv, hadv] at hmore
  refine ⟨(ht.regsAndForager.trans ⟨rfl, fun _ _ => rfl⟩).trans hmore.regsAndForager, ?_, hmore.queue, hmore.count.trans ?_⟩
  · rw [hmore.expect]
    exact getKey_putKey_self _ _ _
  · change min (t.fld (Reg.forgRefused f) 15 0 + 1) (2 ^ 16 - 1) = _
    rw [ht.count]
    omega

end

/-! ### O49 -/

/-- Settles O49: a record by the rule of R376 that drops it, by the refetch that it answers, or by its place in its stream. -/
theorem recordsEnterInSequence : Obligations.RecordsEnterInSequence := by
  unfold Obligations.RecordsEnterInSequence
  intro f q r c s _ hc
  simp only [exec_sampleRecord]
  refine ⟨fun k hk hdrop => ?_, fun k st hk hst hf hrole hre hkey => ?_, fun k want st hk hst hf hrole hre hwant hle hlog hmiss => ?_⟩
  · rw [applySampleRecord_drops hc hk hdrop]
    refine ⟨fun hlog => ⟨_, rfl, dropRecord_counts hlog f k r⟩, ?_⟩
    rintro _ _ ps hlog hn rfl rfl hh hp hg hd h3
    refine ⟨_, rfl, ?_⟩
    obtain ⟨hother, hhead, hbytes⟩ := damage_logs (d := {
      code := 0x701A, stream := k, flags := 0, sampleId := r.sampleId, srcSeq := r.srcSeq
      total := if r.kind = 2 then r.payload.length else 0, length := r.length }) hlog hn hh hp hg hd h3
    have hapart : regHome Reg.forgErrHead ≠ regHome (Reg.forgRefused f) := by
      rw [regHome_forgRefused, regHome_id (.inr (by decide))]
      unfold Reg.forgErrHead Reg.forgRefused
      omega
    exact ⟨hother, (reg_bumpSat_ne _ _ _ _ hapart).trans hhead, hbytes⟩
  · rw [applySampleRecord_refetched hc hk hst hf hrole hre hkey]
    refine ⟨_, rfl, ?_⟩
    have hkept := intakeKept_acceptRecord (intakeKept_refl (s.setFor { s.forager with
      refetch := s.forager.refetch.filter fun y => !(y == (k, r.sampleId, r.srcSeq)) })) c st f k r
    rw [hkept.refetch, hkept.expect]
    exact ⟨by simp [State.setFor], rfl⟩
  · subst hwant
    rw [applySampleRecord_advances hc hk hst hf hrole hre hle]
    refine ⟨_, rfl, ?_⟩
    by_cases hgood : kindSuits st r = true ∧ crc32c r.payload = r.crc.toNat ∧ r.kind ≠ 3
    · obtain ⟨hs, hcrc, h3⟩ := hgood
      obtain ⟨hframe, hexpect, hqueue, hcount⟩ := advanced_queues hlog hmiss rfl hs hcrc h3
      exact ⟨hframe.onlyRegs, hexpect, fun _ _ => ⟨hqueue, hcount⟩,
        fun hbad => absurd (hbad.resolve_right (not_not.mpr hcrc)) (not_not.mpr ((kindSuits_iff st r).mp hs))⟩
    · have hbad : kindSuits st r = false ∨ crc32c r.payload ≠ r.crc.toNat ∨ r.kind = 3 := by
        by_contra hnot
        simp only [not_or, Bool.not_eq_false, not_not] at hnot
        exact hgood hnot
      obtain ⟨hframe, hexpect, hqueue, hcount⟩ := advanced_refused hlog hmiss rfl hbad
      refine ⟨hframe.onlyRegs, hexpect, fun hkind hcrc => ?_, fun _ => ⟨hqueue, hcount⟩⟩
      have hs := (kindSuits_iff st r).mpr (by rw [← or_assoc]; exact .inl hkind)
      exact absurd ⟨hs, hcrc, by omega⟩ hgood

end Sys2Proof.Laws

/-! # Stores leave every place and write rule as they were -/

namespace Sys2Proof.Laws

open Sys2Proof Sys2Proof.Machine

/-! ### What decides places and write rules (R320, R328, R330, R335) -/

/-- What the write rules read of a move. -/
def moveSpan (m : MoveSt) : Bool × Nat × Nat := (m.complete, m.target, m.length)

/-- Every address lies at the same place, and the same write rules hold. -/
structure SamePlaces (s t : State) : Prop where
  keeps : StoreKeeps s t
  pkg : t.pkg = s.pkg
  reg : ∀ o, notCredit o → t.reg o = s.reg o
  moves : t.tier.moves.map moveSpan = s.tier.moves.map moveSpan

section
variable {s t : State} (h : SamePlaces s t)
include h

theorem SamePlaces.fing : t.fing = s.fing := by
  obtain ⟨ha, hb⟩ := h.keeps.slots
  have hslot : ∀ f, t.slot f = s.slot f := fun f => by cases f <;> assumption
  simp only [State.fing, State.runSlot, ha, hb, hslot]

theorem SamePlaces.needsHold (a : Nat) : t.needsHold a = s.needsHold a := by
  simp only [State.needsHold, h.fing, h.keeps.homeOf]

theorem SamePlaces.groupMode {g : Nat} (hg : g < 64) : t.groupMode g = s.groupMode g :=
  fld_of_reg (h.reg _ (notCredit_low (by unfold Reg.groupMode; omega))) _ _

theorem SamePlaces.pileUp (n : Nat) : t.pileUp n = s.pileUp n := by
  have hstate := fld_of_reg (h.reg (Reg.pileState n) (fun q _ => by unfold Reg.pileState Reg.vlCredit; omega)) 2 0
  simp only [State.pileUp, hstate]

theorem SamePlaces.combUp (d : Nat) : t.combUp d = s.combUp d := by
  have hdie := h.reg (Reg.dieStep (d / 2) (1 + d % 2)) (fun q _ => by unfold Reg.dieStep Reg.vlCredit; omega)
  simp only [State.combUp, State.cdiePresent, cdiePlace, State.diePresent, bit_of_reg hdie, h.pkg]

theorem SamePlaces.coreLoc (l off : Nat) : t.coreLoc l off = s.coreLoc l off := by
  by_cases hl : l < 64
  · have hmap := h.reg (Reg.coreMap l) (notCredit_low (by unfold Reg.coreMap; omega))
    simp only [State.coreLoc, bit_of_reg hmap, fld_of_reg hmap]
  · simp only [State.coreLoc, hl, false_and, if_false]

theorem SamePlaces.locate (a : Nat) : t.locate a = s.locate a := by
  unfold State.locate
  by_cases ha : a < 2 ^ 40
  · rw [if_pos ha, if_pos ha, h.groupMode (by omega)]
    simp only [h.pileUp]
  · rw [if_neg ha, if_neg ha]
    simp only [h.combUp, h.coreLoc]

theorem SamePlaces.resolve (a : Nat) : t.resolve a = s.resolve a := by
  simp only [State.resolve, h.fing, h.keeps.homeOf, h.locate]

theorem SamePlaces.windowAt (dev : Nat) : t.windowAt dev = s.windowAt dev := by
  simp only [State.windowAt, h.keeps.tierCfg]

theorem SamePlaces.reaches (ag : Agent) (pl : Place) (w : Bool) : t.reaches ag pl w = s.reaches ag pl w := by
  have hrunning : t.running = s.running := bit_of_reg (h.reg _ (notCredit_low (by decide))) 2
  simp only [State.reaches, State.coreOpen, hrunning, h.windowAt, State.windowLive, h.keeps.wins]

theorem SamePlaces.placesOf (ag : Agent) (w : Bool) (a n : Nat) : t.placesOf ag w a n = s.placesOf ag w a n := by
  induction n generalizing a with
  | zero => rfl
  | succ n ih => simp only [State.placesOf, h.resolve, h.reaches, ih]

theorem SamePlaces.tensorAt (pl : Place) : t.tensorAt pl = s.tensorAt pl := by
  simp only [State.tensorAt, State.tensor, h.fing, h.keeps.homeOf]

theorem SamePlaces.guard (ag : Agent) (pl : Place) : t.guard ag pl = s.guard ag pl := by
  obtain ⟨ha, hb⟩ := h.keeps.slots
  have hmoves : t.tier.moves.any (fun m => !m.complete && decide (m.target ≤ pl.dev ∧ pl.dev < m.target + m.length)) =
      s.tier.moves.any (fun m => !m.complete && decide (m.target ≤ pl.dev ∧ pl.dev < m.target + m.length)) := by
    have hspans := congrArg (List.any · fun y => !y.1 && decide (y.2.1 ≤ pl.dev ∧ pl.dev < y.2.1 + y.2.2)) h.moves
    rwa [List.any_map, List.any_map] at hspans
  simp only [State.guard, State.inImage, ha, hb, State.runSlot, h.windowAt, hmoves, h.tensorAt, h.keeps.takeover, State.isState,
    State.stateWriter, h.keeps.plan] <;> rfl

theorem SamePlaces.guards (ag : Agent) (ps : List Place) : t.guards ag ps = s.guards ag ps := by
  induction ps with
  | nil => rfl
  | cons pl ps ih => simp only [State.guards, h.guard, ih]

end

theorem SamePlaces.trans {s t u : State} (h : SamePlaces s t) (g : SamePlaces t u) : SamePlaces s u :=
  ⟨h.keeps.trans g.keeps, g.pkg.trans h.pkg, fun o ho => (g.reg o ho).trans (h.reg o ho), g.moves.trans h.moves⟩

/-! ### Registers -/

theorem reg_of_keeps {s t : State} (h : Keeps (allBut .regs) s t) (o : Nat) : t.reg o = s.reg o := by
  have hregs : t.regs = s.regs := h.parts .regs (by decide)
  exact reg_congr hregs o

theorem reg_sendMirror (s : State) (lost : Bool) (beat kind shard object off stamp : Nat) (data : Bytes) {o : Nat} (ho : notCredit o) :
    (s.sendMirror lost beat kind shard object off stamp data).reg o = s.reg o := by
  unfold State.sendMirror
  dsimp only
  change ((mirrorCounted s beat).sendTwin _).reg o = (mirrorCounted s beat).reg o
  cases htwin : (mirrorCounted s beat).twin with
  | none =>
    unfold State.sendTwin
    rw [htwin]
  | some c =>
    rw [sendTwin_pieces _ htwin]
    exact (sendsOnly_foldl (sendsOnly_sendPiece c _ _) _ _).reg o ho

theorem reg_mirrorWrite (s : State) (beat : Nat) (ag : Agent) (ps : List Place) (data : Bytes) {o : Nat} (ho : notCredit o) :
    (s.mirrorWrite beat ag ps data).reg o = s.reg o := by
  unfold State.mirrorWrite
  dsimp only
  refine iteInduction (motive := fun t : State => t.reg o = s.reg o) (fun _ => rfl) fun _ => ?_
  exact List.foldlRecOn (motive := fun t => t.reg o = s.reg o) _ _ rfl fun t ht r _ => (reg_sendMirror t _ _ _ _ _ _ _ _ ho).trans ht

/-! ### Moves -/

theorem moves_of_keeps {s t : State} (h : Keeps (allBut .tier) s t) : t.tier.moves = s.tier.moves := by
  have htier : t.tier = s.tier := h.parts .tier (by decide)
  rw [htier]

theorem moves_poke (s : State) (l : Loc) (v : Byte) : (s.poke l v).tier.moves = s.tier.moves := by
  cases l <;> rfl

/-- A move that becomes STALE keeps its span. -/
theorem moveSpans_markStale (s : State) (ag : Agent) (pl : Place) :
    (s.markStale ag pl).tier.moves.map moveSpan = s.tier.moves.map moveSpan := by
  unfold State.markStale
  dsimp only
  refine iteInduction (motive := fun t : State => t.tier.moves.map moveSpan = s.tier.moves.map moveSpan) (fun _ => rfl) fun _ => ?_
  cases s.tensorAt pl with
  | none => rfl
  | some t =>
    refine List.map_map.trans (List.map_congr_left fun m _ => ?_)
    dsimp only [Function.comp]
    split <;> rfl

theorem moveSpans_writePlace (s : State) (ag : Agent) (pl : Place) (v : Byte) :
    (s.writePlace ag pl v).tier.moves.map moveSpan = s.tier.moves.map moveSpan := by
  have hcache : ((s.cacheAccess ag pl true).rdcInvalidate pl.dev).tier.moves = s.tier.moves := by
    obtain ⟨_, _, _, _, hcached⟩ := readsAlike_cacheAccess s ag pl true
    unfold State.rdcInvalidate
    split <;> rw [hcached]
  unfold State.writePlace
  rw [moves_poke, moveSpans_markStale, hcache]

theorem moveSpans_writePlaces (s : State) (ag : Agent) (ps : List Place) (data : Bytes) :
    (s.writePlaces ag ps data).tier.moves.map moveSpan = s.tier.moves.map moveSpan := by
  induction ps generalizing s data with
  | nil => rfl
  | cons pl ps ih =>
    cases data with
    | nil => rfl
    | cons b bs => exact (ih _ bs).trans (moveSpans_writePlace s ag pl b)

theorem moves_unlistWritten (s : State) (ps : List Place) : (s.unlistWritten ps).tier.moves = s.tier.moves := by
  unfold State.unlistWritten
  split <;> rfl

/-! ### Stores -/

/-- A store that no rule drops moves no place and no rule. -/
theorem samePlaces_storeIn {s : State} {ag : Agent} {a : Nat} {data : Bytes} {ps : List Place} (beat : Nat) (hh : s.needsHold a = none)
    (hp : s.placesOf ag true a data.length = some ps) (hg : s.guards ag ps = .ok) : SamePlaces s (s.storeIn beat ag a data) := by
  refine ⟨storeKeeps_storeIn beat hh hp hg, ?_, fun o ho => ?_, ?_⟩
  · exact (keeps_storeIn s beat ag a data (P := allBut .pkg) (keeps_refl s) (covers_allBut rfl)).parts .pkg (by decide)
  all_goals rw [storeIn_stores beat hh hp hg]
  · have hwritten : Keeps (allBut .regs) s ((s.recall ag ps).writePlaces ag ps data) :=
      keeps_writePlaces _ ag ps data (keeps_recall s ag ps (keeps_refl s)) (covers_allBut rfl)
    have hscanned (u : State) : Keeps (allBut .regs) u ((u.scanGrad beat ps data).unlistWritten ps) :=
      keeps_unlistWritten _ ps (keeps_scanGrad u beat ps data (keeps_refl u) (covers_allBut rfl)) (covers_allBut rfl)
    exact (reg_of_keeps (hscanned _) o).trans ((reg_mirrorWrite _ beat ag ps data ho).trans (reg_of_keeps hwritten o))
  · have hrecalled : (s.recall ag ps).tier.moves = s.tier.moves := moves_of_keeps (keeps_recall s ag ps (keeps_refl s))
    have hsent (u : State) : Keeps (allBut .tier) u ((u.mirrorWrite beat ag ps data).scanGrad beat ps data) :=
      keeps_scanGrad _ beat ps data (keeps_mirrorWrite u beat ag ps data (keeps_refl u) (covers_allBut rfl)) (covers_allBut rfl)
    rw [moves_unlistWritten, moves_of_keeps (hsent _), moveSpans_writePlaces, hrecalled]

/-- Drawing a free value moves no place and no rule. -/
theorem samePlaces_draw (s : State) : SamePlaces s s.draw.2 :=
  ⟨⟨⟨rfl, rfl⟩, rfl, rfl, rfl, rfl, rfl, rfl, rfl, rfl, fun y hy => ⟨y.stale, hy⟩⟩, rfl, fun _ _ => rfl, rfl⟩

end Sys2Proof.Laws

/-! # Batch ops, and O52 -/

namespace Sys2Proof.Laws

open Sys2Proof Sys2Proof.Machine

/-! ### The scan of streaming mode (R391) -/

theorem usedBy_cons (p : Pick) (ps : List Pick) : usedBy (p :: ps) = p.len + usedBy ps := rfl

/-- A sample among those that the scan may still see, and not the next, is among those after it. -/
theorem mem_take_tail {limit seen : Nat} {x y : Staged9} {rest : List Staged9} (hne : x ≠ y) (h : x ∈ (y :: rest).take (limit - seen)) :
    x ∈ rest.take (limit - (seen + 1)) := by
  rw [Nat.sub_add_eq]
  revert h
  cases limit - seen with
  | zero => exact fun h => absurd h List.not_mem_nil
  | succ k => exact fun h => (List.mem_cons.mp h).resolve_left hne

section
variable (budget fill limit seen placed used : Nat) (xs : List Staged9)

theorem scanPicks_sublist : ((scanPicks budget fill limit seen placed used xs).map (·.sample)).Sublist xs := by
  fun_induction scanPicks budget fill limit seen placed used xs with
  | case1 => exact List.Sublist.slnil
  | case2 => exact List.nil_sublist _
  | case3 seen placed used x rest _ _ ih => exact ih.cons_cons x
  | case4 seen placed used x rest _ _ ih => exact ih.cons x

theorem usedBy_scanPicks_le (h : used ≤ budget) : used + usedBy (scanPicks budget fill limit seen placed used xs) ≤ budget := by
  fun_induction scanPicks budget fill limit seen placed used xs with
  | case1 | case2 => exact h
  | case3 seen placed used x rest _ hfits ih =>
    rw [usedBy_cons, ← Nat.add_assoc]
    exact ih hfits
  | case4 seen placed used x rest _ _ ih => exact ih h

theorem length_scanPicks_le (h : placed ≤ 4096) : placed + (scanPicks budget fill limit seen placed used xs).length ≤ 4096 := by
  fun_induction scanPicks budget fill limit seen placed used xs with
  | case1 | case2 => exact h
  | case3 seen placed used x rest hgo _ ih =>
    rw [List.length_cons, Nat.add_comm _ 1, ← Nat.add_assoc]
    exact ih (by omega)
  | case4 seen placed used x rest _ _ ih => exact ih h

/-- A sample starts where those before it end, and takes its own length. -/
theorem scanPicks_place (i : Nat) (h : i < (scanPicks budget fill limit seen placed used xs).length) :
    (scanPicks budget fill limit seen placed used xs)[i].start = used + usedBy ((scanPicks budget fill limit seen placed used xs).take i) ∧
      (scanPicks budget fill limit seen placed used xs)[i].len = (scanPicks budget fill limit seen placed used xs)[i].sample.units := by
  fun_induction scanPicks budget fill limit seen placed used xs generalizing i with
  | case1 | case2 => exact absurd h (Nat.not_lt_zero i)
  | case3 seen placed used x rest _ _ ih =>
    cases i with
    | zero => exact ⟨rfl, rfl⟩
    | succ i =>
      obtain ⟨hstart, hlen⟩ := ih i (Nat.lt_of_succ_lt_succ h)
      exact ⟨hstart.trans (Nat.add_assoc _ _ _), hlen⟩
  | case4 seen placed used x rest _ _ ih => exact ih i h

/-- A sample that the scan comes to and does not pick is empty, comes after 4,096 entries, or does not fit. -/
theorem scanPicks_skips (hp : placed ≤ 4096) {x : Staged9} (hx : x ∈ xs)
    (hreach : x ∈ xs.take (limit - seen) ∨ used + usedBy (scanPicks budget fill limit seen placed used xs) < fill)
    (hout : x ∉ (scanPicks budget fill limit seen placed used xs).map (·.sample)) :
    x.units = 0 ∨ placed + (scanPicks budget fill limit seen placed used xs).length = 4096 ∨
      budget < used + usedBy (scanPicks budget fill limit seen placed used xs) + x.units := by
  fun_induction scanPicks budget fill limit seen placed used xs with
  | case1 => exact absurd hx List.not_mem_nil
  | case2 seen placed used y rest hstop =>
    have hnil : usedBy [] = 0 := rfl
    rw [hnil] at hreach ⊢
    rw [List.length_nil]
    obtain hfull | hmany | ⟨hlimit, hfill⟩ := hstop
    · omega
    · omega
    · rw [Nat.sub_eq_zero_of_le hlimit] at hreach
      exact absurd (hreach.resolve_left List.not_mem_nil) (by omega)
  | case3 seen placed used y rest hgo _ ih =>
    rw [List.map_cons, List.mem_cons, not_or] at hout
    rw [usedBy_cons, ← Nat.add_assoc] at hreach ⊢
    have hrest := (List.mem_cons.mp hx).resolve_left hout.1
    have htake : x ∈ (y :: rest).take (limit - seen) → x ∈ rest.take (limit - (seen + 1)) := mem_take_tail hout.1
    have hih := ih (by omega) hrest (hreach.imp_left htake) hout.2
    rwa [List.length_cons, Nat.add_comm _ 1, ← Nat.add_assoc]
  | case4 seen placed used y rest _ hlong ih =>
    by_cases hy : x = y
    · subst hy
      omega
    · exact ih hp ((List.mem_cons.mp hx).resolve_left hy) (hreach.imp_left (mem_take_tail hy)) hout

end

/-! ### The bytes of a micro-batch and of its manifest (Tables 9.5 and 9.7) -/

theorem length_textBatch (st : FStream) (o : BatchDesc) (l : List Pick) : (textBatch st o l).length = 11 * o.budget := by
  simp only [textBatch, List.length_append, List.length_flatMap, length_leBytes, List.map_const', List.sum_replicate, List.length_map,
    List.length_range, smul_eq_mul]
  omega

theorem length_manifestBytes (cycle k : Nat) (o : BatchDesc) (l : List Pick) (fixed partner : Bool) (pos : Nat) :
    (manifestBytes cycle k o l fixed partner pos).length = 64 + 32 * l.length := by
  have hentry : ∀ p : Pick, p.entry.length = 32 := fun p => by
    simp [Pick.entry, length_leBytes, zeroBytes]
  simp [manifestBytes, List.length_flatMap, hentry, length_leBytes, zeroBytes]
  omega

/-! ### BATCH_OP (R389 to R398) -/

theorem exec_batchOp (f : Nat) (s : State) : exec (.batchOp f) s = .next (applyBatchOp f s) := rfl

/-- Two writes, one after the other, leave the bytes outside both their places alone. -/
theorem memoryKeptBut_trans {ps qs : List Place} {s t v : State} (h : memoryKeptBut (ps.map (·.loc)) s t)
    (g : memoryKeptBut (qs.map (·.loc)) t v) : memoryKeptBut ((ps ++ qs).map (·.loc)) s v := by
  intro l hl
  rw [List.map_append, List.map_append, List.mem_append, not_or] at hl
  exact (g l hl.2).trans (h l hl.1)

/-- Filling the long queue brings no sample that was in neither list; only marks are new. -/
theorem fillLong_without {s : State} {x : Staged9} (f : Nat) (hstaged : x ∉ s.forager.staged) (hlong : x ∉ s.forager.long)
    (hreal : x.marker = false) : x ∉ (s.fillLong f).forager.long ∧ x ∉ (s.fillLong f).forager.staged := by
  unfold State.fillLong State.setFor
  dsimp only
  constructor
  · intro h
    obtain h | h := List.mem_append.mp h
    · exact hlong h
    · exact hstaged (List.mem_filter.mp (List.mem_of_mem_take h)).1
  · intro h
    obtain h | h := List.mem_append.mp h
    · exact hstaged (List.mem_filter.mp h).1
    · obtain ⟨y, -, rfl⟩ := List.mem_map.mp h
      cases hreal

section
variable {f a : Nat} {u : UnitId} {r : RunSlot} {c : ForCfg} {o : BatchDesc} {st : FStream} {T : Tensor} {s : State}

/-- Writing a micro-batch of text writes its bytes to its places, and moves no place and no rule. -/
theorem writeBatch_text {ps : List Place} (hk : st.kind = 2) (hT : s.tensor o.target = some T) (hh : s.needsHold T.taddr = none)
    (hp : s.placesOf (.forager f 8) true T.taddr (11 * o.budget) = some ps) (hg : s.guards (.forager f 8) ps = .ok)
    (hc : ∀ pl ∈ ps, (cellOf pl.loc).1 ≠ 3) (hn : (ps.map fun pl => cellOf pl.loc).Nodup) (l : List Pick) :
    SamePlaces s (s.writeBatch f st o l) ∧ memoryKeptBut (ps.map (·.loc)) s (s.writeBatch f st o l) ∧
      ∀ (i : Nat) (h : i < ps.length), (s.writeBatch f st o l).peek ps[i].loc = (textBatch st o l).getD i 0 := by
  have hwrite : s.writeBatch f st o l = s.draw.2.store (.forager f 8) T.taddr (textBatch st o l) := by
    simp only [State.writeBatch, hT, if_pos hk]
  have hdraw := samePlaces_draw s
  rw [← hdraw.needsHold] at hh
  rw [← hdraw.placesOf, ← length_textBatch st o l] at hp
  rw [← hdraw.guards] at hg
  rw [hwrite]
  obtain ⟨hother, hbytes⟩ := store_peek hh hp hg hc hn
  exact ⟨hdraw.trans (samePlaces_storeIn _ hh hp hg), hother, hbytes⟩

/-! ### A fresh micro-batch (R391, R394, R395, R396) -/

/-- What a fresh micro-batch does once it and its manifest are written: its samples leave, no byte changes, and the slot's op ends. -/
theorem freshBatch_leaves {a cycle : Nat} {fixed : Bool} {l : List Pick} {t v : State} (ht : t = (s.writeBatch f st o l).store (.forager f 8) a
      (manifestBytes cycle r.op o l fixed st.partner r.pos)) (hv : v = s.freshBatch u r f st o a cycle fixed l) :
    v.runOf u = none ∧ memoryKept t v ∧ ∀ p ∈ l, p.sample.marker = false → p.sample ∉ v.forager.long ∧ p.sample ∉ v.forager.staged := by
  subst hv
  unfold State.freshBatch
  dsimp only
  rw [← ht]
  generalize hx : State.bumpPair _ _ _ = x
  have hkept : Keeps (allBut .memory) t ((x.fillLong f).endRunOf u r) := by
    rw [← hx]
    exact keeps_endRunOf _ u r (keeps_fillLong _ f (keeps_bumpPair _ _ _ (keeps_setFor t _ (keeps_refl t) (covers_allBut rfl))
      (covers_allBut rfl)) (covers_allBut rfl)) (covers_allBut rfl)
  refine ⟨runOf_endRunOf _ u r, memoryKept_of_keeps hkept, fun p hp hreal => ?_⟩
  have htaken : (l.any fun q => q.sample == p.sample) = true := List.any_eq_true.mpr ⟨p, hp, beq_self_eq_true _⟩
  have hend : ((x.fillLong f).endRunOf u r).forager = (x.fillLong f).forager := by
    obtain ⟨us, hus⟩ := endRunOf_frame (x.fillLong f) u r
    rw [hus]
  have hstaged : p.sample ∉ x.forager.staged := by
    rw [← hx]
    intro hin
    simpa [htaken] using (List.mem_filter.mp hin).2
  have hlong : p.sample ∉ x.forager.long := by
    rw [← hx]
    intro hin
    simpa [htaken] using (List.mem_filter.mp hin).2
  rw [hend]
  exact fillLong_without f hstaged hlong hreal

section
variable (hr : s.runOf u = some r) (hc : s.forCfg = some c) (he : s.forager.cache = []) (ho : c.ops[r.op]? = some o)
  (hst : s.stream o.stream = some st) (hm : s.manifestAt c r.op o st.partner (s.manifestCycle c) = some a)
  (hu : u = { cls := 6, idx := 9 * f + 8 })
include hr hc he ho hst hm hu

/-- Where no manifest of the cycle stands, the op waits or packs what the scan picks. -/
theorem applyBatchOp_streams (hk : st.kind = 2) (hs : s.manifestStands a r.op o (s.manifestCycle c) = false)
    (hfixed : ((s.window r.beat).map (·.fixed)).getD s.forager.fixed = false) {l : List Pick}
    (hl : l = scanPicks o.budget o.fillMin 64 0 0 0 (s.readyFor o)) :
    (usedBy l < o.fillMin → applyBatchOp f s = s) ∧
      (o.fillMin ≤ usedBy l → applyBatchOp f s = s.freshBatch u r f st o a (s.manifestCycle c) false l) := by
  subst hu hl
  unfold applyBatchOp
  simp only [hr, hc, drainCached_empty he, ho, hst, hm, hs, hfixed, State.streamPicks, if_pos hk, if_neg Bool.false_ne_true]
  exact ⟨fun h => by simp only [if_pos h], fun h => by simp only [if_neg (Nat.not_lt.mpr h)]⟩

/-- Where the manifest of the cycle stands, the op repeats it. -/
theorem applyBatchOp_rebuilds (hs : s.manifestStands a r.op o (s.manifestCycle c) = true) :
    applyBatchOp f s = s.rebuildBatch u r f st o a (s.manifestCycle c) := by
  subst hu
  unfold applyBatchOp
  simp only [hr, hc, drainCached_empty he, ho, hst, hm, if_pos hs]

end

end

/-! ### A micro-batch repeated (R398) -/

theorem rebuild_retained {s : State} {e : MEntry} {stream : Nat} {x : Staged9} (st : FStream) (hlive : e.live = true)
    (hx : s.retained e stream = some x) : s.rebuild st stream e = .sample x := by
  unfold State.rebuild
  simp only [hlive, hx, Bool.not_true, if_neg Bool.false_ne_true]

theorem foldl_eq_self {α β : Type} {g : β → α → β} {l : List α} {b : β} (h : ∀ x ∈ l, g b x = b) : l.foldl g b = b :=
  List.foldlRecOn (motive := fun t => t = b) l g rfl fun t ht x hx => by rw [ht, h x hx]

/-- A manifest whose samples are all retained is repeated: its samples in the places that it names. -/
theorem rebuildBatch_retained {s : State} {a : Nat} {o : BatchDesc} (u : UnitId) (r : RunSlot) (f : Nat) (st : FStream) (cycle : Nat)
    (h : ∀ e ∈ s.manifestEntries a, e.live = true ∧ s.retained e o.stream ≠ none) :
    ∃ l live : List Pick, l.map (fun p : Pick => (some p.sample, p.start, p.len)) =
        (s.manifestEntries a).map (fun e => (s.retained e o.stream, e.start, e.len)) ∧
      s.rebuildBatch u r f st o a cycle = (((s.writeBatch f st o l).keepRebuilt r.op r.beat cycle o live (s.manifestEntries a)
        o.stream).setBit Reg.forgStatus 4 false).endRunOf u r := by
  have hsample : ∀ e ∈ s.manifestEntries a, ∃ x, s.retained e o.stream = some x ∧ s.rebuild st o.stream e = .sample x := fun e he => by
    obtain ⟨hlive, hkept⟩ := h e he
    obtain ⟨x, hx⟩ := Option.ne_none_iff_exists'.mp hkept
    exact ⟨x, hx, rebuild_retained st hlive hx⟩
  unfold State.rebuildBatch
  dsimp only
  rw [if_neg, foldl_eq_self]
  · refine ⟨_, _, ?_, rfl⟩
    rw [List.map_map, List.map_map]
    refine List.map_congr_left fun e he => ?_
    obtain ⟨x, hx, hrebuild⟩ := hsample e he
    simp only [Function.comp, hrebuild, hx]
  · intro y hy
    obtain ⟨e, he, rfl⟩ := List.mem_map.mp hy
    obtain ⟨x, -, hrebuild⟩ := hsample e he
    simp only [hrebuild]
  · rw [Bool.not_eq_true, List.any_eq_false]
    intro y hy
    obtain ⟨e, he, rfl⟩ := List.mem_map.mp hy
    obtain ⟨x, -, hrebuild⟩ := hsample e he
    simp only [hrebuild, Rebuilt.isWait, not_false_eq_true, Bool.false_eq_true]

/-! ### O52 -/

/-- Settles O52: the scan by induction over the samples; the two stores by the places that the first leaves as they were. -/
theorem batchesFollowTheirManifest : Obligations.BatchesFollowTheirManifest := by
  unfold Obligations.BatchesFollowTheirManifest
  refine ⟨?_, ?_⟩
  · rintro budget fill limit xs _ rfl
    have hused := usedBy_scanPicks_le budget fill limit 0 0 0 xs (Nat.zero_le _)
    have hlength := length_scanPicks_le budget fill limit 0 0 0 xs (Nat.zero_le _)
    have hskips := fun x hx => scanPicks_skips budget fill limit 0 0 0 xs (Nat.zero_le _) (x := x) hx
    have hplace := scanPicks_place budget fill limit 0 0 0 xs
    simp only [Nat.zero_add, Nat.sub_zero] at hused hlength hskips hplace
    exact ⟨scanPicks_sublist _ _ _ _ _ _ _, hused, hlength, hskips, hplace⟩
  · intro f a u r c o st T ps qs s _ hu hr hc he ho hst hk hT hm hholdT hholdA hp hg h3
    have hps : ∀ pl ∈ ps, (cellOf pl.loc).1 ≠ 3 := fun pl hpl => h3 pl (List.mem_append_left _ hpl)
    have hqs : ∀ pl ∈ qs, (cellOf pl.loc).1 ≠ 3 := fun pl hpl => h3 pl (List.mem_append_right _ hpl)
    rw [exec_batchOp]
    refine ⟨fun hs hfixed => ?_, fun hs hn hall => ?_⟩
    · obtain ⟨hwaits, hpacks⟩ := applyBatchOp_streams hr hc he ho hst hm hu hk hs hfixed rfl
      refine ⟨fun hlow => by rw [hwaits hlow], ?_⟩
      rintro hfill l rfl hq hgq hn
      generalize scanPicks o.budget o.fillMin 64 0 0 0 (s.readyFor o) = l at hfill hq hpacks ⊢
      rw [List.map_append, List.nodup_append] at hn
      obtain ⟨hnp, hnq, hapart⟩ := hn
      obtain ⟨hsame, hkept, htext⟩ := writeBatch_text hk hT hholdT hp hg hps hnp l
      rw [← length_manifestBytes (s.manifestCycle c) r.op o l false st.partner r.pos, ← hsame.placesOf] at hq
      rw [← hsame.needsHold] at hholdA
      rw [← hsame.guards] at hgq
      obtain ⟨hother, hbytes⟩ := store_peek hholdA hq hgq hqs hnq
      obtain ⟨hrun, hmem, hgone⟩ := freshBatch_leaves (u := u) (cycle := s.manifestCycle c) (fixed := false) rfl rfl
      refine ⟨_, congrArg _ (hpacks hfill), hrun, fun m hm => (hmem m).trans (memoryKeptBut_trans hkept hother m hm),
        fun i hi => ?_, fun i hi => (hmem _).trans (hbytes i hi), hgone⟩
      refine (hmem _).trans ((hother _ fun hin => ?_).trans (htext i hi))
      rw [List.map_map] at hin
      exact hapart _ (List.mem_map.mpr ⟨_, List.getElem_mem hi, rfl⟩) _ hin rfl
    · obtain ⟨l, live, hl, hrebuild⟩ := rebuildBatch_retained u r f st (s.manifestCycle c) hall
      obtain ⟨-, hkept, htext⟩ := writeBatch_text hk hT hholdT hp hg hps hn l
      rw [applyBatchOp_rebuilds hr hc he ho hst hm hu hs, hrebuild]
      have hmem (t : State) : memoryKept t (((t.keepRebuilt r.op r.beat (s.manifestCycle c) o live (s.manifestEntries a)
          o.stream).setBit Reg.forgStatus 4 false).endRunOf u r) :=
        memoryKept_of_keeps (keeps_endRunOf _ u r (keeps_setBit _ _ _ _ (keeps_keepRebuilt t _ _ _ _ _ _ _ (keeps_refl t)
          (covers_allBut rfl)) (covers_allBut rfl)) (covers_allBut rfl))
      exact ⟨_, l, rfl, runOf_endRunOf _ u r, fun m hm => (hmem _ m).trans (hkept m hm), fun i hi => (hmem _ _).trans (htext i hi), hl⟩

end Sys2Proof.Laws
